-- ==== Sys2Proof/Word.lean ====
section
/-! DEFINITION. The word types of the machine (R6): byte 8 bits, halfword 16, word 32, doubleword 64,
and the 96-bit lane mask of a predicate register (R95). -/
namespace Sys2Proof

/-- 8 bits (R6). -/
abbrev Byte := BitVec 8
/-- A halfword, 2 bytes (R6); the unit of the instruction stream (R105). -/
abbrev Half := BitVec 16
/-- A word, 4 bytes (R6). -/
abbrev Word := BitVec 32
/-- A doubleword, 8 bytes (R6). -/
abbrev DWord := BitVec 64
/-- One bit per lane of a wave (R95): bit l is lane l. -/
abbrev Mask := BitVec 96

end Sys2Proof
end

