-- ==== Sys2Proof/Syntax.lean ====
section
/-! DEFINITION. The instructions of the Glomir GM8800, one constructor per row of spec/opcode_table.json:
the Jexath instructions (R106 to R117), their compact forms (R110), the policy operations (R335, R336), and the
steps of the package that have no encoding (spec/95_what_each_step_holds.md). A step without an encoding carries
as operands which agent, entry or address it concerns and whatever arrives from outside the package. -/
namespace Sys2Proof

/-- A source operand field (R107, R108): a register code, or code 63 with its literal word. -/
inductive Src where
  | reg (n : BitVec 6)
  | lit (w : Word)
  deriving DecidableEq, Repr

/-- The three queues of a quadrant (R193). -/
inductive Queue where
  | load | compute | store
  deriving DecidableEq, Repr

/-- The permission an access needs (R49): loads and copy sources read, stores and copy destinations write,
atomics read and write, instruction fetch executes. -/
inductive Perm where
  | read | write | readWrite | fetch
  deriving DecidableEq, Repr

/-- What the store's check codes found (R42, R44): nothing, an error that was corrected, an error that could not be
corrected, or a parity error in the tag of a 256-byte line in a way of the Orangery. -/
inductive Ecc where
  | clean | corrected | uncorrected
  | lostTag (way line : Nat)
  deriving DecidableEq, Repr

/-- The operations of the atomics, in the order of their function codes (R115, R141). -/
inductive AtomOp where
  | add | sub | min | max | minu | maxu | and | or | xor | xchg | cas | fadd
  deriving DecidableEq, Repr

/-- Requests of a sector transaction (R267). -/
inductive SpanKind where
  | readShared | readOwn | ioRead | ioWrite
  deriving DecidableEq, Repr

/-- A sector transaction's request (R263, R267): the span `lo` to `hi` of a sector, by a peer
(1 the control die, 2 to 5 the vector dies 10 to 13, 0 no peer), for a partition under a key slot. -/
structure SpanReq where
  kind   : SpanKind
  peer   : Nat
  sector : Nat
  lo     : Nat
  hi     : Nat
  part   : Nat
  slot   : BitVec 8
  deriving DecidableEq, Repr

/-- A partition as the resident service creates it (R364 stage 7, R368): its units by unit record index
(R332), and its range of dependency-table entries (R315). -/
structure PartCfg where
  part  : Nat
  units : List Nat
  depLo : Nat
  depHi : Nat
  deriving DecidableEq, Repr

/-- What the stages of start-up receive from outside (R364): the unit presence of each die (stage 3),
the capacity in GiB of the device trained on each CXL port and the limits of the counts of corrected errors (stage 5,
R42), the package and domain numbers, the pod ports (R19) and the domain's time (stage 6, R254); at stage 7 the partitions,
the key slots with their owners and shared bits (R34), the trap tables (R347), the policy images in words of 16 bits (R343),
the images loaded into a partition, which extend its measurement (R366), and for a partition the packages on which a
partition is paired with it (R242). -/
structure BootCfg where
  dies  : List (Nat × Nat)
  cxl   : List (Nat × Nat)
  pkg   : BitVec 9
  dom   : BitVec 12
  parts : List PartCfg
  thrDram : Word
  thrOrng : Word
  podPorts : Nat
  epoch : DWord
  keys  : List (Nat × Nat × Bool)
  traps : List (Nat × DWord)
  rsTrap : DWord
  images : List (Nat × List Half)
  objects : List (Nat × List Byte)
  pairs : List (Nat × Nat)
  deriving DecidableEq, Repr

/-- An access that arrives from another package (R253). A flat access names a partition of this package (R242);
a window access names the binding it goes through (R249), a copy's too (R74); a request to bind, or to give up, the
counter sets of a binding (R248); a member's contribution to a reduction of a launch over the domain (R255). -/
inductive Inbound where
  | flatLoad (part : Nat) (va : DWord) (size : Nat)
  | flatStore (part : Nat) (va : DWord) (bytes : List Byte)
  | flatAtomic (part : Nat) (va : DWord) (op : AtomOp) (dbl : Bool) (val cmp : DWord)
  | winWrite (bind src path off : Nat) (bytes : List (Nat × Byte))
  | winFlag (bind src path off : Nat) (val : DWord) (size : Nat) (add : Bool) (carry : List Nat)
  | winLoad (bind off size : Nat)
  | bindReq (srcPkg unit sets part : Nat)
  | bindRelease (bind : Nat)
  | copyRead (bind off size : Nat)
  | copyWrite (bind off : Nat) (bytes : List Byte)
  | copyFlip (bind : Nat) (plots : List Nat)
  | contribution (launch n : Nat) (allred : Bool) (key op cnt : Nat) (data : List DWord)
  deriving DecidableEq, Repr

/-- The response to a remote access (R143, R253): the old or loaded value, an error, the applied bit; to the load of a
window's line, its 64 bytes (R136). -/
structure RemoteRsp where
  data    : DWord
  err     : Bool
  applied : Bool
  line    : List Byte
  deriving DecidableEq, Repr

/-- An Ultra Ethernet request at a link die (R314). -/
structure UeReq where
  die     : Nat
  ep      : Word
  svc     : Half
  srcEp   : Word
  srcSvc  : Half
  payload : List Byte
  deriving DecidableEq, Repr

/-- Management requests (R368). -/
inductive MgmtReq where
  | status
  | createPart (cfg : PartCfg)
  | destroyPart (part : Nat)
  | orngSplit (part : Nat) (v : Word)
  | fence (v : DWord)
  | powerLimit (v : Word)
  | release (launch : Nat)
  deriving DecidableEq, Repr

/-- What the peer's reconciliation request carries (R279, R281): the fields that decide the rounds, who sent it,
its sketch and its entry array. -/
structure PeerRecon where
  dom     : BitVec 12
  pkg     : BitVec 9
  toDom   : BitVec 12
  toPkg   : BitVec 9
  cls     : Word
  rnd     : Nat
  cells   : Nat
  mode    : Bool
  minc    : Nat
  maxc    : Nat
  lim     : Nat
  gf      : Bool
  paired  : Bool
  sketch  : List Byte
  entries : List (DWord × DWord)
  deriving DecidableEq, Repr

/-- A decoupled access queue (R57): an agent's memory stream, a copy's two address generators, a quadrant's load and
store queues. -/
inductive StreamRef where
  | agent (id : Nat)
  | copySrc (n : Nat)
  | copyDst (n : Nat)
  | quadLoad (q : Nat)
  | quadStore (q : Nat)
  deriving DecidableEq, Repr

/-- Every row of the opcode table. `g` is the guard field, `d` the destination field, `a` and `b` the source
fields; `tok` the token bits 10:7 of an engine command with bit 0 the table's bit 7. -/
inductive Instr where
  /-- BLK (R111): Run header: the unit checks it and then executes the next count instructions once per pass. -/
  | blk (neg : BitVec 3) (rep : BitVec 6) (cnt : BitVec 6)
  /-- REP (R113): Re-issues the next instruction cnt times, stepping its register fields. -/
  | rep (stepb : BitVec 4) (stepa : BitVec 4) (stepd : BitVec 4) (cnt : BitVec 6)
  /-- ADD (R150): Scalar 32-bit wrapping add. -/
  | add (g : BitVec 2) (d : BitVec 6) (a : Src) (b : Src)
  /-- SUB (R150): Scalar 32-bit wrapping subtract. -/
  | sub (g : BitVec 2) (d : BitVec 6) (a : Src) (b : Src)
  /-- MUL (R150): Scalar multiply, low 32 bits. -/
  | mul (g : BitVec 2) (d : BitVec 6) (a : Src) (b : Src)
  /-- MULH (R150): Scalar signed multiply, high 32 bits. -/
  | mulh (g : BitVec 2) (d : BitVec 6) (a : Src) (b : Src)
  /-- MULHU (R150): Scalar unsigned multiply, high 32 bits. -/
  | mulhu (g : BitVec 2) (d : BitVec 6) (a : Src) (b : Src)
  /-- DIV (R151): Scalar signed divide; division by zero sets dz. -/
  | div (g : BitVec 2) (d : BitVec 6) (a : Src) (b : Src)
  /-- DIVU (R151): Scalar unsigned divide. -/
  | divu (g : BitVec 2) (d : BitVec 6) (a : Src) (b : Src)
  /-- REM (R151): Scalar signed remainder. -/
  | rem (g : BitVec 2) (d : BitVec 6) (a : Src) (b : Src)
  /-- REMU (R151): Scalar unsigned remainder. -/
  | remu (g : BitVec 2) (d : BitVec 6) (a : Src) (b : Src)
  /-- AND (R150): Scalar bitwise AND. -/
  | and (g : BitVec 2) (d : BitVec 6) (a : Src) (b : Src)
  /-- OR (R150): Scalar bitwise OR. -/
  | or (g : BitVec 2) (d : BitVec 6) (a : Src) (b : Src)
  /-- XOR (R150): Scalar bitwise XOR. -/
  | xor (g : BitVec 2) (d : BitVec 6) (a : Src) (b : Src)
  /-- ANDN (R150): Scalar a AND NOT b. -/
  | andn (g : BitVec 2) (d : BitVec 6) (a : Src) (b : Src)
  /-- SHL (R152): Scalar shift left by the unreduced count. -/
  | shl (g : BitVec 2) (d : BitVec 6) (a : Src) (b : Src)
  /-- SHR (R152): Scalar logical shift right. -/
  | shr (g : BitVec 2) (d : BitVec 6) (a : Src) (b : Src)
  /-- SAR (R152): Scalar arithmetic shift right. -/
  | sar (g : BitVec 2) (d : BitVec 6) (a : Src) (b : Src)
  /-- ROL (R152): Scalar rotate left by the count modulo 32. -/
  | rol (g : BitVec 2) (d : BitVec 6) (a : Src) (b : Src)
  /-- MIN (R150): Scalar signed minimum. -/
  | min (g : BitVec 2) (d : BitVec 6) (a : Src) (b : Src)
  /-- MAX (R150): Scalar signed maximum. -/
  | max (g : BitVec 2) (d : BitVec 6) (a : Src) (b : Src)
  /-- MINU (R150): Scalar unsigned minimum. -/
  | minu (g : BitVec 2) (d : BitVec 6) (a : Src) (b : Src)
  /-- MAXU (R150): Scalar unsigned maximum. -/
  | maxu (g : BitVec 2) (d : BitVec 6) (a : Src) (b : Src)
  /-- CLZ (R150): Scalar count of leading zeros. -/
  | clz (g : BitVec 2) (d : BitVec 6) (a : Src)
  /-- POPC (R150): Scalar population count. -/
  | popc (g : BitVec 2) (d : BitVec 6) (a : Src)
  /-- BFX (R154): Scalar bit-field extract under a control word. -/
  | bfx (g : BitVec 2) (d : BitVec 6) (a : Src) (b : Src)
  /-- BFI (R154): Scalar bit-field insert into the destination. -/
  | bfi (g : BitVec 2) (d : BitVec 6) (a : Src) (b : Src)
  /-- SEL (R153): Scalar select on the destination as the condition. -/
  | sel (g : BitVec 2) (d : BitVec 6) (a : Src) (b : Src)
  /-- MOV (R150): Scalar move. -/
  | mov (g : BitVec 2) (d : BitVec 6) (a : Src)
  /-- CMP_EQ (R155): Scalar compare equal, writing 1 or 0. -/
  | cmpEq (g : BitVec 2) (d : BitVec 6) (a : Src) (b : Src)
  /-- CMP_NE (R155): Scalar compare not equal. -/
  | cmpNe (g : BitVec 2) (d : BitVec 6) (a : Src) (b : Src)
  /-- CMP_LT (R155): Scalar compare signed less than. -/
  | cmpLt (g : BitVec 2) (d : BitVec 6) (a : Src) (b : Src)
  /-- CMP_LTU (R155): Scalar compare unsigned less than. -/
  | cmpLtu (g : BitVec 2) (d : BitVec 6) (a : Src) (b : Src)
  /-- CMP_LE (R155): Scalar compare signed less or equal. -/
  | cmpLe (g : BitVec 2) (d : BitVec 6) (a : Src) (b : Src)
  /-- CMP_LEU (R155): Scalar compare unsigned less or equal. -/
  | cmpLeu (g : BitVec 2) (d : BitVec 6) (a : Src) (b : Src)
  /-- CMP_GT (R155): Scalar compare signed greater than. -/
  | cmpGt (g : BitVec 2) (d : BitVec 6) (a : Src) (b : Src)
  /-- CMP_GTU (R155): Scalar compare unsigned greater than. -/
  | cmpGtu (g : BitVec 2) (d : BitVec 6) (a : Src) (b : Src)
  /-- CMP_GE (R155): Scalar compare signed greater or equal. -/
  | cmpGe (g : BitVec 2) (d : BitVec 6) (a : Src) (b : Src)
  /-- CMP_GEU (R155): Scalar compare unsigned greater or equal. -/
  | cmpGeu (g : BitVec 2) (d : BitVec 6) (a : Src) (b : Src)
  /-- ADD64 (R157): 64-bit pair wrapping add. -/
  | add64 (g : BitVec 2) (d : BitVec 6) (a : Src) (b : Src)
  /-- SUB64 (R157): 64-bit pair wrapping subtract. -/
  | sub64 (g : BitVec 2) (d : BitVec 6) (a : Src) (b : Src)
  /-- MUL64 (R157): 64-bit pair multiply, low half. -/
  | mul64 (g : BitVec 2) (d : BitVec 6) (a : Src) (b : Src)
  /-- SHL64 (R157): 64-bit pair shift left. -/
  | shl64 (g : BitVec 2) (d : BitVec 6) (a : Src) (b : Src)
  /-- SHR64 (R157): 64-bit pair logical shift right. -/
  | shr64 (g : BitVec 2) (d : BitVec 6) (a : Src) (b : Src)
  /-- SAR64 (R157): 64-bit pair arithmetic shift right. -/
  | sar64 (g : BitVec 2) (d : BitVec 6) (a : Src) (b : Src)
  /-- ADDA (R158): Adds a scaled signed index to a 64-bit base. -/
  | adda (g : BitVec 2) (d : BitVec 6) (a : Src) (b : Src)
  /-- PREP (R291): Writes a branch target register from a pair or a PC-relative offset. -/
  | prep (g : BitVec 2) (d : BitVec 6) (a : Src)
  /-- XFER (R292): Conditional transfer taken at the end of the pass when the condition is non-zero. -/
  | xfer (g : BitVec 2) (a : BitVec 6) (b : Src)
  /-- XFERN (R292): Conditional transfer taken when the condition is zero. -/
  | xfern (g : BitVec 2) (a : BitVec 6) (b : Src)
  /-- CALL (R292): Conditional transfer that writes the run-end link pair when taken. -/
  | call (g : BitVec 2) (d : BitVec 6) (a : BitVec 6) (b : Src)
  /-- RET (R292): Conditional transfer treated as a return by the predictor. -/
  | ret (g : BitVec 2) (a : BitVec 6) (b : Src)
  /-- SPLIT (R294): Divides the active lanes into two paths and pushes a divergence entry. -/
  | split (d : BitVec 6) (a : BitVec 6) (b : BitVec 6)
  /-- JOIN (R295): Starts the deferred path or pops the entry and reconverges. -/
  | join
  /-- YIELD (R293): Lets every other ready wave of the CU issue one run. -/
  | yield (g : BitVec 2)
  /-- HALT (R293): Ends the wave, sequencer or core. -/
  | halt (g : BitVec 2)
  /-- NOP (R293): No operation. -/
  | nop (g : BitVec 2)
  /-- VANY (R299): Vote: 1 if any active lane has the predicate bit. -/
  | vany (g : BitVec 2) (d : BitVec 6) (a : BitVec 6)
  /-- VALL (R299): Vote: 1 if every active lane has the predicate bit. -/
  | vall (g : BitVec 2) (d : BitVec 6) (a : BitVec 6)
  /-- VBAL (R299): Vote: writes the predicate of the active lanes to three scalars. -/
  | vbal (g : BitVec 2) (d : BitVec 6) (a : BitVec 6)
  /-- VCNT (R299): Vote: counts the active lanes with the predicate bit. -/
  | vcnt (g : BitVec 2) (d : BitVec 6) (a : BitVec 6)
  /-- VFFS (R299): Vote: lowest active lane with the predicate bit. -/
  | vffs (g : BitVec 2) (d : BitVec 6) (a : BitVec 6)
  /-- VBCAST (R299): Reads one lane of a vector register into a scalar. -/
  | vbcast (g : BitVec 2) (d : BitVec 6) (a : Src) (b : Src)
  /-- REGROUP (R301): Fuses two waves of a group once both arrive and match. -/
  | regroup (d : BitVec 6) (a : Src) (b : Src)
  /-- TRAP (R352): Raises the software trap with tval from source A. -/
  | trap (g : BitVec 2) (a : Src)
  /-- ERET (R350): Ends a handler and resumes the saved run state or tepc. -/
  | eret (g : BitVec 2)
  /-- CSRR (R101): Reads a control register into a scalar or pair. -/
  | csrr (g : BitVec 2) (d : BitVec 6) (a : BitVec 6)
  /-- CSRW (R101): Writes a control register with its side effects. -/
  | csrw (g : BitVec 2) (d : BitVec 6) (a : Src)
  /-- CAPR (R352): Reads one capability-table word. -/
  | capr (g : BitVec 2) (d : BitVec 6) (a : Src)
  /-- WFI (R352): Host core waits for an event-queue entry or 1 ms. -/
  | wfi (g : BitVec 2)
  /-- IFENCE (R352): Release at pk, then discards fetched code and the loop buffer. -/
  | ifence (g : BitVec 2)
  /-- MAPINV (R51): Invalidates cached translations of a range and completes when old ones are gone. -/
  | mapinv (g : BitVec 2) (a : Src) (b : BitVec 6)
  /-- HARVEST (R63): ORs accessed and dirty bits from span-directory records into the entries of a range. -/
  | harvest (g : BitVec 2) (a : Src) (b : BitVec 6)
  /-- KEYSET (R34): Loads an empty key slot with a fresh random key. -/
  | keyset (g : BitVec 2) (d : BitVec 6) (a : Src)
  /-- KEYKILL (R35): Destroys a loaded key slot in five ordered steps and waits for completion. -/
  | keykill (g : BitVec 2) (d : BitVec 6) (a : Src)
  /-- POLLD (R343): Validates a policy image into a partition's shadow slot. -/
  | polld (g : BitVec 2) (d : BitVec 6) (a : Src) (b : Src)
  /-- POLSW (R344): Makes a shadow policy image current at the next decision boundary. -/
  | polsw (g : BitVec 2) (d : BitVec 6) (a : Src)
  /-- VADD (R162): Vector wrapping add per lane. -/
  | vadd (g : BitVec 2) (d : BitVec 6) (a : Src) (b : Src)
  /-- VSUB (R162): Vector wrapping subtract. -/
  | vsub (g : BitVec 2) (d : BitVec 6) (a : Src) (b : Src)
  /-- VMUL (R162): Vector multiply, low 32 bits. -/
  | vmul (g : BitVec 2) (d : BitVec 6) (a : Src) (b : Src)
  /-- VMULH (R162): Vector signed multiply, high 32 bits. -/
  | vmulh (g : BitVec 2) (d : BitVec 6) (a : Src) (b : Src)
  /-- VAND (R162): Vector bitwise AND. -/
  | vand (g : BitVec 2) (d : BitVec 6) (a : Src) (b : Src)
  /-- VOR (R162): Vector bitwise OR. -/
  | vor (g : BitVec 2) (d : BitVec 6) (a : Src) (b : Src)
  /-- VXOR (R162): Vector bitwise XOR. -/
  | vxor (g : BitVec 2) (d : BitVec 6) (a : Src) (b : Src)
  /-- VSHL (R162): Vector shift left per lane. -/
  | vshl (g : BitVec 2) (d : BitVec 6) (a : Src) (b : Src)
  /-- VSHR (R162): Vector logical shift right. -/
  | vshr (g : BitVec 2) (d : BitVec 6) (a : Src) (b : Src)
  /-- VSAR (R162): Vector arithmetic shift right. -/
  | vsar (g : BitVec 2) (d : BitVec 6) (a : Src) (b : Src)
  /-- VMIN (R162): Vector signed minimum. -/
  | vmin (g : BitVec 2) (d : BitVec 6) (a : Src) (b : Src)
  /-- VMAX (R162): Vector signed maximum. -/
  | vmax (g : BitVec 2) (d : BitVec 6) (a : Src) (b : Src)
  /-- VMINU (R162): Vector unsigned minimum. -/
  | vminu (g : BitVec 2) (d : BitVec 6) (a : Src) (b : Src)
  /-- VMAXU (R162): Vector unsigned maximum. -/
  | vmaxu (g : BitVec 2) (d : BitVec 6) (a : Src) (b : Src)
  /-- VABS (R162): Vector signed absolute value. -/
  | vabs (g : BitVec 2) (d : BitVec 6) (a : Src)
  /-- VNEG (R162): Vector negate. -/
  | vneg (g : BitVec 2) (d : BitVec 6) (a : Src)
  /-- VCLZ (R162): Vector count of leading zeros. -/
  | vclz (g : BitVec 2) (d : BitVec 6) (a : Src)
  /-- VPOPC (R162): Vector population count. -/
  | vpopc (g : BitVec 2) (d : BitVec 6) (a : Src)
  /-- VADDS (R162): Vector signed saturating add. -/
  | vadds (g : BitVec 2) (d : BitVec 6) (a : Src) (b : Src)
  /-- VSUBS (R162): Vector signed saturating subtract. -/
  | vsubs (g : BitVec 2) (d : BitVec 6) (a : Src) (b : Src)
  /-- VMOV (R162): Vector move. -/
  | vmov (g : BitVec 2) (d : BitVec 6) (a : Src)
  /-- VSEL (R163): Vector select by guard in every beat-active lane. -/
  | vsel (g : BitVec 2) (d : BitVec 6) (a : Src) (b : Src)
  /-- VMAD (R164): Vector multiply-add into the destination. -/
  | vmad (g : BitVec 2) (d : BitVec 6) (a : Src) (b : Src)
  /-- VMADH (R164): Vector high multiply-add. -/
  | vmadh (g : BitVec 2) (d : BitVec 6) (a : Src) (b : Src)
  /-- VDOT4 (R164): Vector signed four-byte dot product accumulate. -/
  | vdot4 (g : BitVec 2) (d : BitVec 6) (a : Src) (b : Src)
  /-- VDOT4U (R164): Vector unsigned four-byte dot product accumulate. -/
  | vdot4u (g : BitVec 2) (d : BitVec 6) (a : Src) (b : Src)
  /-- VCMP_EQ (R165): Vector compare equal into a predicate. -/
  | vcmpEq (g : BitVec 2) (d : BitVec 6) (a : Src) (b : Src)
  /-- VCMP_NE (R165): Vector compare not equal. -/
  | vcmpNe (g : BitVec 2) (d : BitVec 6) (a : Src) (b : Src)
  /-- VCMP_LT (R165): Vector compare signed less than. -/
  | vcmpLt (g : BitVec 2) (d : BitVec 6) (a : Src) (b : Src)
  /-- VCMP_LTU (R165): Vector compare unsigned less than. -/
  | vcmpLtu (g : BitVec 2) (d : BitVec 6) (a : Src) (b : Src)
  /-- VCMP_LE (R165): Vector compare signed less or equal. -/
  | vcmpLe (g : BitVec 2) (d : BitVec 6) (a : Src) (b : Src)
  /-- VCMP_LEU (R165): Vector compare unsigned less or equal. -/
  | vcmpLeu (g : BitVec 2) (d : BitVec 6) (a : Src) (b : Src)
  /-- VCMP_GT (R165): Vector compare signed greater than. -/
  | vcmpGt (g : BitVec 2) (d : BitVec 6) (a : Src) (b : Src)
  /-- VCMP_GTU (R165): Vector compare unsigned greater than. -/
  | vcmpGtu (g : BitVec 2) (d : BitVec 6) (a : Src) (b : Src)
  /-- VCMP_GE (R165): Vector compare signed greater or equal. -/
  | vcmpGe (g : BitVec 2) (d : BitVec 6) (a : Src) (b : Src)
  /-- VCMP_GEU (R165): Vector compare unsigned greater or equal. -/
  | vcmpGeu (g : BitVec 2) (d : BitVec 6) (a : Src) (b : Src)
  /-- KAND (R166): Predicate AND over all 96 bits. -/
  | kand (g : BitVec 2) (d : BitVec 6) (a : BitVec 6) (b : BitVec 6)
  /-- KOR (R166): Predicate OR. -/
  | kor (g : BitVec 2) (d : BitVec 6) (a : BitVec 6) (b : BitVec 6)
  /-- KXOR (R166): Predicate XOR. -/
  | kxor (g : BitVec 2) (d : BitVec 6) (a : BitVec 6) (b : BitVec 6)
  /-- KNOT (R166): Predicate NOT. -/
  | knot (g : BitVec 2) (d : BitVec 6) (a : BitVec 6)
  /-- KMOV (R166): Predicate move. -/
  | kmov (g : BitVec 2) (d : BitVec 6) (a : BitVec 6)
  /-- KFROMS (R167): Moves three scalar words into a predicate. -/
  | kfroms (g : BitVec 2) (d : BitVec 6) (a : BitVec 6)
  /-- KTOS (R167): Moves a predicate into three scalar words, possibly the beat masks. -/
  | ktos (g : BitVec 2) (d : BitVec 6) (a : BitVec 6)
  /-- VFADD (R176): FP32 add, rounded once. -/
  | vfadd (g : BitVec 2) (d : BitVec 6) (a : Src) (b : Src)
  /-- VFSUB (R176): FP32 subtract. -/
  | vfsub (g : BitVec 2) (d : BitVec 6) (a : Src) (b : Src)
  /-- VFMUL (R176): FP32 multiply. -/
  | vfmul (g : BitVec 2) (d : BitVec 6) (a : Src) (b : Src)
  /-- VFMA (R176): FP32 fused multiply-add into the destination. -/
  | vfma (g : BitVec 2) (d : BitVec 6) (a : Src) (b : Src)
  /-- VFMS (R176): FP32 fused multiply-subtract. -/
  | vfms (g : BitVec 2) (d : BitVec 6) (a : Src) (b : Src)
  /-- VFNMA (R176): FP32 fused negated multiply-add. -/
  | vfnma (g : BitVec 2) (d : BitVec 6) (a : Src) (b : Src)
  /-- VFMIN (R177): FP32 minimum without rounding. -/
  | vfmin (g : BitVec 2) (d : BitVec 6) (a : Src) (b : Src)
  /-- VFMAX (R177): FP32 maximum without rounding. -/
  | vfmax (g : BitVec 2) (d : BitVec 6) (a : Src) (b : Src)
  /-- VFABS (R178): FP32 absolute value by bits. -/
  | vfabs (g : BitVec 2) (d : BitVec 6) (a : Src)
  /-- VFNEG (R178): FP32 negate by bits. -/
  | vfneg (g : BitVec 2) (d : BitVec 6) (a : Src)
  /-- VFCLASS (R178): FP32 classification into a one-hot word. -/
  | vfclass (g : BitVec 2) (d : BitVec 6) (a : Src)
  /-- VFRND (R179): Rounds FP32 to an integral FP32 value. -/
  | vfrnd (g : BitVec 2) (d : BitVec 6) (a : Src) (b : BitVec 6)
  /-- VDADD (R176): FP64 pair add. -/
  | vdadd (g : BitVec 2) (d : BitVec 6) (a : Src) (b : Src)
  /-- VDSUB (R176): FP64 pair subtract. -/
  | vdsub (g : BitVec 2) (d : BitVec 6) (a : Src) (b : Src)
  /-- VDMUL (R176): FP64 pair multiply. -/
  | vdmul (g : BitVec 2) (d : BitVec 6) (a : Src) (b : Src)
  /-- VDFMA (R176): FP64 pair fused multiply-add. -/
  | vdfma (g : BitVec 2) (d : BitVec 6) (a : Src) (b : Src)
  /-- VDMIN (R177): FP64 pair minimum. -/
  | vdmin (g : BitVec 2) (d : BitVec 6) (a : Src) (b : Src)
  /-- VDMAX (R177): FP64 pair maximum. -/
  | vdmax (g : BitVec 2) (d : BitVec 6) (a : Src) (b : Src)
  /-- VFCMP_EQ (R180): Float compare equal into a predicate. -/
  | vfcmpEq (dbl : Bool) (g : BitVec 2) (d : BitVec 6) (a : Src) (b : Src)
  /-- VFCMP_NE (R180): Float compare not equal. -/
  | vfcmpNe (dbl : Bool) (g : BitVec 2) (d : BitVec 6) (a : Src) (b : Src)
  /-- VFCMP_LT (R180): Float compare less than. -/
  | vfcmpLt (dbl : Bool) (g : BitVec 2) (d : BitVec 6) (a : Src) (b : Src)
  /-- VFCMP_LE (R180): Float compare less or equal. -/
  | vfcmpLe (dbl : Bool) (g : BitVec 2) (d : BitVec 6) (a : Src) (b : Src)
  /-- VFCMP_GT (R180): Float compare greater than. -/
  | vfcmpGt (dbl : Bool) (g : BitVec 2) (d : BitVec 6) (a : Src) (b : Src)
  /-- VFCMP_GE (R180): Float compare greater or equal. -/
  | vfcmpGe (dbl : Bool) (g : BitVec 2) (d : BitVec 6) (a : Src) (b : Src)
  /-- VFCMP_UN (R180): Float compare unordered. -/
  | vfcmpUn (dbl : Bool) (g : BitVec 2) (d : BitVec 6) (a : Src) (b : Src)
  /-- VFCMP_ORD (R180): Float compare ordered. -/
  | vfcmpOrd (dbl : Bool) (g : BitVec 2) (d : BitVec 6) (a : Src) (b : Src)
  /-- VCVT (R182): Converts each active lane between the format pair the function selects. -/
  | vcvt (pair : BitVec 5) (g : BitVec 2) (d : BitVec 6) (a : Src) (b : BitVec 6)
  /-- PK4 (R168): Packs 4-bit elements from two sources. -/
  | pk4 (g : BitVec 2) (d : BitVec 6) (a : Src) (b : Src)
  /-- UPK4 (R168): Unpacks four 4-bit elements into bytes. -/
  | upk4 (g : BitVec 2) (d : BitVec 6) (a : Src) (b : Src)
  /-- PK6 (R169): Packs 16 F6 codes into three words. -/
  | pk6 (g : BitVec 2) (d : BitVec 6) (a : BitVec 6)
  /-- UPK6 (R169): Unpacks three words into 16 F6 codes. -/
  | upk6 (g : BitVec 2) (d : BitVec 6) (a : BitVec 6)
  /-- PKTS (R170): Builds TS8 bytes from term fields. -/
  | pkts (g : BitVec 2) (d : BitVec 6) (a : Src) (b : Src)
  /-- UPKTS (R170): Decodes TS8 bytes into INT16 fixed point. -/
  | upkts (g : BitVec 2) (d : BitVec 6) (a : Src) (b : Src)
  /-- VSCALE (R171): Multiplies FP32 by the X8 scale of its beat. -/
  | vscale (g : BitVec 2) (d : BitVec 6) (a : Src) (b : Src)
  /-- SRCP (R184): Queues a reciprocal on the SFU. -/
  | srcp (g : BitVec 2) (d : BitVec 6) (a : Src)
  /-- SRSQ (R184): Queues a reciprocal square root on the SFU. -/
  | srsq (g : BitVec 2) (d : BitVec 6) (a : Src)
  /-- SSQRT (R184): Queues a square root on the SFU. -/
  | ssqrt (g : BitVec 2) (d : BitVec 6) (a : Src)
  /-- SEXP2 (R184): Queues 2^x on the SFU. -/
  | sexp2 (g : BitVec 2) (d : BitVec 6) (a : Src)
  /-- SLOG2 (R184): Queues log2 x on the SFU. -/
  | slog2 (g : BitVec 2) (d : BitVec 6) (a : Src)
  /-- SSIN (R184): Queues sin(pi x) on the SFU. -/
  | ssin (g : BitVec 2) (d : BitVec 6) (a : Src)
  /-- SCOS (R184): Queues cos(pi x) on the SFU. -/
  | scos (g : BitVec 2) (d : BitVec 6) (a : Src)
  /-- STANH (R184): Queues tanh x on the SFU. -/
  | stanh (g : BitVec 2) (d : BitVec 6) (a : Src)
  /-- SACT (R186): Queues an activation-table evaluation capturing the front bank. -/
  | sact (g : BitVec 2) (d : BitVec 6) (a : Src)
  /-- ATLD (R187): Checks and reads an activation image and queues a write of the back bank. -/
  | atld (g : BitVec 2) (a : Src)
  /-- ATSWAP (R188): Inverts the activation-table front selector at queue entry. -/
  | atswap (g : BitVec 2)
  /-- NBL (R172): Reads the left neighbour lane, zero-fill or wrap. -/
  | nbl (g : BitVec 2) (d : BitVec 6) (a : Src) (b : BitVec 6)
  /-- NBR (R172): Reads the right neighbour lane. -/
  | nbr (g : BitVec 2) (d : BitVec 6) (a : Src) (b : BitVec 6)
  /-- NROT (R172): Rotates lanes by a per-lane distance. -/
  | nrot (g : BitVec 2) (d : BitVec 6) (a : Src) (b : Src)
  /-- LD (R132): Per-lane flat load. -/
  | ld (size : BitVec 3) (scale : BitVec 2) (g : BitVec 2) (d : BitVec 6) (a : Src) (b : Src)
  /-- ST (R133): Per-lane flat store. -/
  | st (size : BitVec 3) (scale : BitVec 2) (g : BitVec 2) (d : BitVec 6) (a : Src) (b : Src)
  /-- SLD (R134): Scalar flat load. -/
  | sld (size : BitVec 3) (scale : BitVec 2) (g : BitVec 2) (d : BitVec 6) (a : Src) (b : Src)
  /-- SST (R134): Scalar flat store. -/
  | sst (size : BitVec 3) (scale : BitVec 2) (g : BitVec 2) (d : BitVec 6) (a : Src) (b : Src)
  /-- LDSP (R135): Scratchpad or window load. -/
  | ldsp (size : BitVec 3) (scale : BitVec 2) (g : BitVec 2) (d : BitVec 6) (a : Src) (b : Src)
  /-- STSP (R135): Scratchpad store or posted window write. -/
  | stsp (size : BitVec 3) (scale : BitVec 2) (g : BitVec 2) (d : BitVec 6) (a : Src) (b : Src)
  /-- TLD (R137): Tensor load by descriptor and coordinates. -/
  | tld (size : BitVec 3) (g : BitVec 2) (d : BitVec 6) (a : BitVec 6) (b : BitVec 6)
  /-- TST (R137): Tensor store by descriptor and coordinates. -/
  | tst (size : BitVec 3) (g : BitVec 2) (d : BitVec 6) (a : BitVec 6) (b : BitVec 6)
  /-- LDACQ (R138): Acquire load at a scope. -/
  | ldacq (scope : BitVec 3) (size : BitVec 2) (g : BitVec 2) (d : BitVec 6) (a : Src) (b : Src)
  /-- STREL (R138): Release store at a scope, or ordered flag into a window. -/
  | strel (scope : BitVec 3) (size : BitVec 2) (g : BitVec 2) (d : BitVec 6) (a : Src) (b : Src)
  /-- FENCE (R234): Release, optional side-log and acknowledgement waits, then acquire. -/
  | fence (scope : BitVec 3) (ack : Bool) (log : Bool) (g : BitVec 2)
  /-- BAR (R237): Arrives at a barrier object and waits for the phase to change. -/
  | bar (g : BitVec 2) (d : BitVec 6) (a : Src) (b : Src)
  /-- BARA (R237): Arrives at a barrier object without waiting, or untags it. -/
  | bara (g : BitVec 2) (d : BitVec 6) (a : Src) (b : Src)
  /-- BARW (R237): Waits until a barrier's phase differs from a token. -/
  | barw (g : BitVec 2) (d : BitVec 6) (a : Src) (b : Src)
  /-- DBAR (R238): Synchronises the members of the launch's domain. -/
  | dbar (g : BitVec 2) (d : BitVec 6)
  /-- WAITW (R239): Waits while a word equals a compare value. -/
  | waitw (g : BitVec 2) (d : BitVec 6) (a : Src) (b : Src)
  /-- WAKEW (R240): Release, then readies every waiter on the line. -/
  | wakew (g : BitVec 2) (a : Src)
  /-- CPY (R144): Reads a command block, binds plots and starts a copy on a handle. -/
  | cpy (g : BitVec 2) (d : BitVec 6) (a : Src)
  /-- GIVE (R145): Moves unit-side plots to engine side. -/
  | give (g : BitVec 2) (a : Src) (b : Src)
  /-- TAKE (R145): Returns engine-side plots, waiting for bound ones. -/
  | take (g : BitVec 2) (a : Src) (b : Src)
  /-- HWAIT (R146): Waits for a handle and writes its status. -/
  | hwait (g : BitVec 2) (d : BitVec 6) (a : BitVec 6)
  /-- HTEST (R146): Tests whether a handle is done without waiting. -/
  | htest (g : BitVec 2) (d : BitVec 6) (a : BitVec 6)
  /-- HCANCEL (R147): Requests cancellation of a pending handle. -/
  | hcancel (g : BitVec 2) (a : BitVec 6)
  /-- HPASS (R148): Moves a handle to another wave of the group. -/
  | hpass (g : BitVec 2) (d : BitVec 6) (a : BitVec 6) (b : Src)
  /-- SPAWN (R323): Pushes a task record to a deque, a queue or the dependency table. -/
  | spawn (g : BitVec 2) (d : BitVec 6) (a : Src) (b : BitVec 6)
  /-- STEAL (R324): Pops a victim deque's head onto the own deque tail. -/
  | steal (g : BitVec 2) (d : BitVec 6) (b : Src)
  /-- TDONE (R325): Release, then decrements a dependency entry, firing it at zero. -/
  | tdone (g : BitVec 2) (d : BitVec 6) (a : Src) (b : Src)
  /-- REMQ (R326): Sends an engine-command block to another quadrant. -/
  | remq (g : BitVec 2) (d : BitVec 6) (a : Src) (b : Src)
  /-- PWRGET (R327): Grants power tokens from the pool at once. -/
  | pwrget (g : BitVec 2) (d : BitVec 6) (a : Src)
  /-- PWRREL (R327): Returns power tokens to the pool. -/
  | pwrrel (g : BitVec 2) (a : Src)
  /-- WSIG (R259): Posts a payload and an ordered flag update through a window. -/
  | wsig (g : BitVec 2) (d : BitVec 6) (a : Src) (b : BitVec 6)
  /-- ALLRED (R260): All-reduces scratchpad contributions across the domain. -/
  | allred (g : BitVec 2) (d : BitVec 6) (a : Src) (b : Src)
  /-- WINCFG (R258): Drains and rebinds a window, writing a status. -/
  | wincfg (g : BitVec 2) (d : BitVec 6) (a : Src) (b : Src)
  /-- NTIME (R261): Reads ntime, optionally after waiting for a deadline. -/
  | ntime (g : BitVec 2) (d : BitVec 6) (a : Src)
  /-- SKCLR (R277): Zeros sketch cells in own scratchpad. -/
  | skclr (g : BitVec 2) (a : Src) (b : Src)
  /-- SKINS (R278): Inserts one entry per active lane into a sketch. -/
  | skins (g : BitVec 2) (d : BitVec 6) (a : BitVec 6) (b : Src)
  /-- SKRECON (R280): Reads a reconciliation block and starts a reconciliation on a handle. -/
  | skrecon (g : BitVec 2) (d : BitVec 6) (a : Src)
  /-- SKSTAT (R286): Waits for a handle and writes reconciliation statistics. -/
  | skstat (g : BitVec 2) (d : BitVec 6) (a : BitVec 6)
  /-- AADD (R141): Atomic add at the scope the major selects. -/
  | aadd (scope : BitVec 3) (dbl : Bool) (g : BitVec 2) (d : BitVec 6) (a : Src) (b : Src)
  /-- ASUB (R141): Atomic subtract. -/
  | asub (scope : BitVec 3) (dbl : Bool) (g : BitVec 2) (d : BitVec 6) (a : Src) (b : Src)
  /-- AMIN (R141): Atomic signed minimum. -/
  | amin (scope : BitVec 3) (dbl : Bool) (g : BitVec 2) (d : BitVec 6) (a : Src) (b : Src)
  /-- AMAX (R141): Atomic signed maximum. -/
  | amax (scope : BitVec 3) (dbl : Bool) (g : BitVec 2) (d : BitVec 6) (a : Src) (b : Src)
  /-- AMINU (R141): Atomic unsigned minimum. -/
  | aminu (scope : BitVec 3) (dbl : Bool) (g : BitVec 2) (d : BitVec 6) (a : Src) (b : Src)
  /-- AMAXU (R141): Atomic unsigned maximum. -/
  | amaxu (scope : BitVec 3) (dbl : Bool) (g : BitVec 2) (d : BitVec 6) (a : Src) (b : Src)
  /-- AAND (R141): Atomic AND. -/
  | aand (scope : BitVec 3) (dbl : Bool) (g : BitVec 2) (d : BitVec 6) (a : Src) (b : Src)
  /-- AOR (R141): Atomic OR. -/
  | aor (scope : BitVec 3) (dbl : Bool) (g : BitVec 2) (d : BitVec 6) (a : Src) (b : Src)
  /-- AXOR (R141): Atomic XOR. -/
  | axor (scope : BitVec 3) (dbl : Bool) (g : BitVec 2) (d : BitVec 6) (a : Src) (b : Src)
  /-- AXCHG (R141): Atomic exchange. -/
  | axchg (scope : BitVec 3) (dbl : Bool) (g : BitVec 2) (d : BitVec 6) (a : Src) (b : Src)
  /-- ACAS (R141): Atomic compare-and-swap on bit patterns. -/
  | acas (scope : BitVec 3) (dbl : Bool) (g : BitVec 2) (d : BitVec 6) (a : Src) (b : BitVec 6)
  /-- AFADD (R141): Atomic floating-point add rounded RNE. -/
  | afadd (scope : BitVec 3) (dbl : Bool) (g : BitVec 2) (d : BitVec 6) (a : Src) (b : Src)
  /-- WLOAD (R199): Dispatches a weight-tile load into the next latch half. -/
  | wload (a : BitVec 6) (b : BitVec 6) (tok : BitVec 4)
  /-- RLOAD (R201): Dispatches an activation-tile load into a ring's tail slot. -/
  | rload (a : BitVec 6) (b : BitVec 6) (c : BitVec 4) (tok : BitVec 4)
  /-- MMUL (R204): Dispatches one k-step of the chain on a bank. -/
  | mmul (a : BitVec 6) (b : BitVec 6) (c : BitVec 4) (tok : BitVec 4)
  /-- CHB (R203): Dispatches the opening of a chain on a bank. -/
  | chb (a : BitVec 6) (b : BitVec 6) (c : BitVec 4) (tok : BitVec 4)
  /-- CHE (R205): Dispatches the closing of a chain into its bank. -/
  | che (c : BitVec 4) (tok : BitVec 4)
  /-- ACCST (R207): Dispatches a store of a bank's rows. -/
  | accst (a : BitVec 6) (b : BitVec 6) (c : BitVec 4) (tok : BitVec 4)
  /-- NEST (R210): Writes a level of the shadow loop-nest table at dispatch. -/
  | nest (a : BitVec 6) (b : BitVec 6) (c : BitVec 4)
  /-- GO (R211): Activates the nest table and captures the next commands as its body. -/
  | go (a : BitVec 6)
  /-- VCSET (R208): Dispatches a change of the valid row count. -/
  | vcset (a : BitVec 6) (tok : BitVec 4)
  /-- SHDW (R209): Dispatches a copy of working accumulators into the shadow. -/
  | shdw (c : BitVec 4) (tok : BitVec 4)
  /-- SCMT (R209): Dispatches a commit of the shadow. -/
  | scmt (c : BitVec 4) (tok : BitVec 4)
  /-- SDSC (R209): Dispatches a discard of the shadow. -/
  | sdsc (c : BitVec 4) (tok : BitVec 4)
  /-- QFUSE (R214): Fuses quadrants across an edge after the leader drains. -/
  | qfuse (c : BitVec 4)
  /-- QSPLIT (R215): Separates a fused set after the leader drains. -/
  | qsplit
  /-- MOV_COMPACT (R159): Compact scalar register move. -/
  | movCompact (a : BitVec 5) (b : BitVec 5)
  /-- ADD_COMPACT (R159): Compact scalar add of two registers. -/
  | addCompact (a : BitVec 5) (b : BitVec 5)
  /-- SUB_COMPACT (R159): Compact scalar subtract. -/
  | subCompact (a : BitVec 5) (b : BitVec 5)
  /-- AND_COMPACT (R159): Compact scalar AND. -/
  | andCompact (a : BitVec 5) (b : BitVec 5)
  /-- OR_COMPACT (R159): Compact scalar OR. -/
  | orCompact (a : BitVec 5) (b : BitVec 5)
  /-- XOR_COMPACT (R159): Compact scalar XOR. -/
  | xorCompact (a : BitVec 5) (b : BitVec 5)
  /-- ADD_IMM_COMPACT (R159): Compact scalar add of a signed 5-bit literal. -/
  | addImmCompact (a : BitVec 5) (b : BitVec 5)
  /-- SHL_COMPACT (R159): Compact scalar shift left by a 5-bit literal. -/
  | shlCompact (a : BitVec 5) (b : BitVec 5)
  /-- SHR_COMPACT (R159): Compact scalar logical shift right. -/
  | shrCompact (a : BitVec 5) (b : BitVec 5)
  /-- SAR_COMPACT (R159): Compact scalar arithmetic shift right. -/
  | sarCompact (a : BitVec 5) (b : BitVec 5)
  /-- MOV_IMM_COMPACT (R159): Compact scalar move of a signed 5-bit literal. -/
  | movImmCompact (a : BitVec 5) (b : BitVec 5)
  /-- VMOV_COMPACT (R173): Compact vector move. -/
  | vmovCompact (a : BitVec 5) (b : BitVec 5)
  /-- VADD_COMPACT (R173): Compact vector add. -/
  | vaddCompact (a : BitVec 5) (b : BitVec 5)
  /-- VFADD_COMPACT (R191): Compact FP32 add. -/
  | vfaddCompact (a : BitVec 5) (b : BitVec 5)
  /-- VFMUL_COMPACT (R191): Compact FP32 multiply. -/
  | vfmulCompact (a : BitVec 5) (b : BitVec 5)
  /-- KMOV_COMPACT (R173): Compact predicate move. -/
  | kmovCompact (a : BitVec 5) (b : BitVec 5)
  /-- NOP_COMPACT (R110): Compact no operation. -/
  | nopCompact
  /-- XFER_COMPACT (R290): Compact conditional transfer on a non-zero scalar. -/
  | xferCompact (a : BitVec 5) (b : BitVec 5)
  /-- XFERN_COMPACT (R290): Compact conditional transfer on a zero scalar. -/
  | xfernCompact (a : BitVec 5) (b : BitVec 5)
  /-- POL_LDI (R336): Policy op: loads an 8-bit immediate. -/
  | polLdi (d : BitVec 3) (imm : BitVec 8)
  /-- POL_LDIH (R336): Policy op: shifts in an 8-bit immediate. -/
  | polLdih (d : BitVec 3) (imm : BitVec 8)
  /-- POL_ADD (R336): Policy op: add. -/
  | polAdd (d : BitVec 3) (a : BitVec 3) (b : BitVec 3)
  /-- POL_SUB (R336): Policy op: subtract. -/
  | polSub (d : BitVec 3) (a : BitVec 3) (b : BitVec 3)
  /-- POL_AND (R336): Policy op: AND. -/
  | polAnd (d : BitVec 3) (a : BitVec 3) (b : BitVec 3)
  /-- POL_OR (R336): Policy op: OR. -/
  | polOr (d : BitVec 3) (a : BitVec 3) (b : BitVec 3)
  /-- POL_XOR (R336): Policy op: XOR. -/
  | polXor (d : BitVec 3) (a : BitVec 3) (b : BitVec 3)
  /-- POL_MINU (R336): Policy op: unsigned minimum. -/
  | polMinu (d : BitVec 3) (a : BitVec 3) (b : BitVec 3)
  /-- POL_MAXU (R336): Policy op: unsigned maximum. -/
  | polMaxu (d : BitVec 3) (a : BitVec 3) (b : BitVec 3)
  /-- POL_SHL (R336): Policy op: shift left by imm5. -/
  | polShl (d : BitVec 3) (a : BitVec 3) (imm : BitVec 5)
  /-- POL_SHR (R336): Policy op: shift right by imm5. -/
  | polShr (d : BitVec 3) (a : BitVec 3) (imm : BitVec 5)
  /-- POL_ADDI (R336): Policy op: add signed imm5. -/
  | polAddi (d : BitVec 3) (a : BitVec 3) (imm : BitVec 5)
  /-- POL_RQF (R336): Policy op: reads a queue-record field from the snapshot. -/
  | polRqf (d : BitVec 3) (a : BitVec 3) (f : BitVec 3)
  /-- POL_RUF (R336): Policy op: reads a unit-record field from the snapshot. -/
  | polRuf (d : BitVec 3) (a : BitVec 3) (f : BitVec 3)
  /-- POL_BEQ (R336): Policy op: forward branch if equal. -/
  | polBeq (a : BitVec 3) (b : BitVec 3) (off : BitVec 5)
  /-- POL_BNE (R336): Policy op: forward branch if not equal. -/
  | polBne (a : BitVec 3) (b : BitVec 3) (off : BitVec 5)
  /-- POL_BLTU (R336): Policy op: forward branch if unsigned less. -/
  | polBltu (a : BitVec 3) (b : BitVec 3) (off : BitVec 5)
  /-- POL_BGEU (R336): Policy op: forward branch if unsigned greater or equal. -/
  | polBgeu (a : BitVec 3) (b : BitVec 3) (off : BitVec 5)
  /-- POL_ARGMINQ (R337): Policy op: scan for the queue record with least field. -/
  | polArgminq (d : BitVec 3) (a : BitVec 3) (f : BitVec 3)
  /-- POL_ARGMAXQ (R337): Policy op: scan for the queue record with greatest field. -/
  | polArgmaxq (d : BitVec 3) (a : BitVec 3) (f : BitVec 3)
  /-- POL_ARGMINU (R337): Policy op: scan for the unit record with least field. -/
  | polArgminu (d : BitVec 3) (a : BitVec 3) (f : BitVec 3)
  /-- POL_ARGMAXU (R337): Policy op: scan for the unit record with greatest field. -/
  | polArgmaxu (d : BitVec 3) (a : BitVec 3) (f : BitVec 3)
  /-- POL_LDP (R336): Policy op: reads a persistent word. -/
  | polLdp (d : BitVec 3) (n : BitVec 3)
  /-- POL_STP (R336): Policy op: writes a persistent word. -/
  | polStp (a : BitVec 3) (n : BitVec 3)
  /-- POL_DEC_PICK (R338): Ends a decision by picking a queue and unit, checked under R340. -/
  | polDecPick (a : BitVec 3) (b : BitVec 3)
  /-- POL_DEC_KEEP (R338): Ends a decision by keeping the running group. -/
  | polDecKeep (a : BitVec 3) (b : BitVec 3)
  /-- POL_DEC_PREEMPT (R338): Ends a decision by pre-empting a unit. -/
  | polDecPreempt (a : BitVec 3) (b : BitVec 3)
  /-- POL_DEC_KILL (R338): Ends a fault decision by killing the job. -/
  | polDecKill (a : BitVec 3) (b : BitVec 3)
  /-- POL_DEC_RESUME (R338): Ends a fault decision letting the job go on. -/
  | polDecResume (a : BitVec 3) (b : BitVec 3)
  /-- POL_DEC_NOTIFY (R338): Ends a fault decision and raises the error-record trap in the job. -/
  | polDecNotify (a : BitVec 3) (b : BitVec 3)
  /-- POL_DEC_SUSPEND (R338): Ends a fault decision by saving every group of the job. -/
  | polDecSuspend (a : BitVec 3) (b : BitVec 3)
  /-- POL_DEC_FALLBACK (R338): Ends a decision by handing it to the fixed fallback. -/
  | polDecFallback (a : BitVec 3) (b : BitVec 3)
  /-- POLICY_DECISION_START (R328): The policy engine takes the next event of a partition, snapshots records and starts the program. -/
  | policyDecisionStart (p : Nat)
  /-- BUDGET_OVERRUN (R339): A decision exceeds its cycle budget and the fallback decides. -/
  | budgetOverrun (p : Nat)
  /-- SLICE_END (R376): A group's slice expires and a pre-emption event is raised for its unit. -/
  | sliceEnd (u : Nat)
  /-- PACKAGE_RESET (R362): Power-on or package reset: the boot ROM checks the firmware slots and releases the cores. -/
  | packageReset (cold : Bool)
  /-- BOOT_STAGE (R364): The resident service completes a start-up stage and boot_st advances. -/
  | bootStage (n : Nat) (cfg : BootCfg)
  /-- ENUMERATION (R15): Rotunda enumerates a chiplet and raises its incarnation number. -/
  | enumeration (die : Nat)
  /-- HEARTBEAT (R358): Rotunda sends each chiplet a heartbeat every 10 us. -/
  | heartbeat (die : Nat) (answered : Bool) (temps : List Nat)
  /-- ISOLATION (R358): A chiplet silent for 100 us is fenced, its groups lost and its packets re-dispatched. -/
  | isolation (die : Nat)
  /-- CHIPLET_SELF_TEST (R358): A reset chiplet completes its self-test and awaits re-enumeration. -/
  | chipletSelfTest (die : Nat) (mask : Nat)
  /-- STALE_RESPONSE_DROP (R356): A response with an old incarnation is dropped and counted in inc_drop. -/
  | staleResponseDrop (reqDie : Nat) (reqInc : BitVec 8) (rspDie : Nat) (rspInc : BitVec 8)
  /-- PATROL_SCRUB (R28): Patrol scrubbing visits a DRAM line. -/
  | patrolScrub (line : Nat) (ecc : Ecc) (later : Bool)
  /-- CXL_DEVICE_LOSS (R30): A CXL device leaves and its blocks become unbacked with 0x14 records. -/
  | cxlDeviceLoss (port : Nat)
  /-- ORNG_LIM_WRITE (R38): A write of orng_lim is accepted whole or ignored and counted. -/
  | orngLimWrite (p : Nat) (v : BitVec 32)
  /-- ORNG_SPLIT_WRITE (R39): A split request is rejected or granted and carve-out ways converted. -/
  | orngSplitWrite (p : Nat) (v : BitVec 32)
  /-- WAY_CLEANING (R40): A cleaning way finishes write-back and changes owner in one step. -/
  | wayCleaning (w : Nat)
  /-- ORANGERY_EPOCH (R41): At each epoch end Rotunda may move one Orangery way and resets the counters. -/
  | orangeryEpoch
  /-- PAGE_WALK (R48): A translation walk completes with a translation or a fault. -/
  | pageWalk (part : Nat) (key : BitVec 64) (tile : Bool) (need : Perm)
  /-- NEXT_PAGE_WALK (R57): A queue's walk for the neighbouring page completes into its next-page register. -/
  | nextPageWalk (r : StreamRef)
  /-- FAULT_RESOLVE (R62): A page becomes mapped and its fault is released. -/
  | faultResolve (n : Nat)
  /-- FAULT_UNRESOLVABLE (R62): A fault is declared unresolvable; held accesses trap and side-log entries are discarded. -/
  | faultUnresolvable (n : Nat)
  /-- SIDE_LOG_REPLAY (R227): A side-logged write is replayed at its home and performed. -/
  | sideLogReplay (u : Nat) (n : Nat)
  /-- LOAD_PERFORM (R223): An open load is performed from the newest pending write or innermost instance. -/
  | loadPerform (ag : Nat) (n : Nat) (install : Nat) (ecc : Ecc)
  /-- STORE_PERFORM (R222): An open store enters the agent's pending writes at level 0. -/
  | storePerform (ag : Nat) (n : Nat)
  /-- WRITE_PROPAGATE (R222): A pending write moves one level outward. -/
  | writePropagate (ag : Nat) (n : Nat)
  /-- CACHE_EVICTION (R223): A clean copy at level 1 or 2 is made absent. -/
  | cacheEviction (level : Nat) (idx : Nat) (pa : Nat)
  /-- ACQUIRE (R224): An acquire empties inner levels below its scope. -/
  | acquire (ag : Nat) (n : Nat)
  /-- RELEASE (R225): A release is performed once its conditions hold. -/
  | release (ag : Nat) (n : Nat)
  /-- ATOMIC_PERFORM (R226): An atomic reads, modifies and writes its instance indivisibly. -/
  | atomicPerform (ag : Nat) (n : Nat) (ecc : Ecc)
  /-- WRITE_ERROR_REMOVAL (R227): An error response removes a flat store's pending write. -/
  | writeErrorRemoval (ag : Nat) (n : Nat)
  /-- WINDOW_DELIVER (R228): A posted write or ordered flag is delivered at the destination scratchpad. -/
  | windowDeliver (n : Nat)
  /-- WINDOW_ACK (R228): The destination acknowledges a window write to its source, returning an allowance unit. -/
  | windowAck (n : Nat) (ok : Bool)
  /-- WINDOW_TIMEOUT (R246): A window write passes its timeout and counts as acknowledged with error. -/
  | windowTimeout (n : Nat)
  /-- REQUEST_TIMEOUT (R243): A remote request receives no response within dom_tmo and completes as a timeout. -/
  | requestTimeout (ag : Nat) (n : Nat)
  /-- INBOUND_REMOTE_ACCESS (R253): A remote access arrives at its target and is performed or answered with an error. -/
  | inboundRemoteAccess (r : Inbound) (ecc : Ecc)
  /-- REQUEST_REISSUE (R250): A refused request is reissued after its wait or a freed unit. -/
  | requestReissue (n : Nat)
  /-- FLIT_ACK (R251): A link acknowledgement arrives and the sender resends damaged flits. -/
  | flitAck (link : Nat) (base : BitVec 8) (bitmap : BitVec 64)
  /-- LINK_WIDTH_CHANGE (R252): The resident service lowers a link's width at a packet boundary. -/
  | linkWidthChange (link : Nat) (width : Nat)
  /-- LANE_FAILURE (R252): A lane fails and the link changes width at once, resending flits. -/
  | laneFailure (link : Nat) (width : Nat)
  /-- TIME_SYNC (R254): Every 125 us the exchange measures link delays and slews every die's ntime. -/
  | timeSync (corr : Nat)
  /-- REDUCTION_FOLD (R255): A station folds its members' contributions into a passing reduction slot. -/
  | reductionFold (n : Nat)
  /-- UE_REQUEST (R314): An Ultra Ethernet request matching a flow entry is written to a slot and queued as a task. -/
  | ueRequest (r : UeReq)
  /-- MANAGEMENT_REQUEST (R368): A request matching a resident-service flow entry enters its event queue. -/
  | managementRequest (r : MgmtReq)
  /-- ATTESTATION_REQUEST (R367): The resident service answers with a signed 356-byte report. -/
  | attestationRequest (part : Nat) (nonce : List (BitVec 8))
  /-- CIRC_WRITE (R76): A connection-table write is accepted or ignored and counted. -/
  | circWrite (c : Nat) (v : BitVec 64)
  /-- CIRCUIT_UP (R76): A circuit finishes setting up and enters state up. -/
  | circuitUp (c : Nat)
  /-- CIRCUIT_DOWN (R76): A tearing-down circuit finishes draining and goes down. -/
  | circuitDown (c : Nat)
  /-- COPY_START (R69): A copy engine starts the next queued copy, up to 8 at once. -/
  | copyStart (n : Nat)
  /-- COPY_CHUNK (R71): A copy engine writes one converted chunk in sequence order. -/
  | copyChunk (n : Nat) (ecc : Ecc)
  /-- COPY_COMPLETION (R72): An operation completes; its handle becomes done and its plots flip back in one step. -/
  | copyCompletion (n : Nat)
  /-- SFU_ENTRY (R183): The SFU executes the head entry of its queue and writes results and flags. -/
  | sfuEntry (cu : Nat)
  /-- ENGINE_ENTRY_ISSUE (R195): A queue entry issues once its predecessor, token pops and interlocks allow. -/
  | engineEntryIssue (q : Nat) (which : Queue) (ecc : Ecc)
  /-- ENGINE_ENTRY_RETIRE (R195): A queue entry completes, retires and pushes its tokens. -/
  | engineEntryRetire (q : Nat) (which : Queue)
  /-- NEST_EMIT (R211): The loop-nest generator emits one body command into its queue. -/
  | nestEmit (q : Nat)
  /-- REMQ_BLOCK_DISPATCH (R326): The target sequencer dispatches an inbound command block at its next boundary. -/
  | remqBlockDispatch (q : Nat)
  /-- RECONCILE_MATCH (R281): Two matching reconciliation requests pair and exchange sketches. -/
  | reconcileMatch (n : Nat) (peer : PeerRecon)
  /-- RECONCILE_WAIT_EXPIRY (R281): No match arrives within wait ms and the request completes with code 6. -/
  | reconcileWaitExpiry (n : Nat)
  /-- SKETCH_PEEL (R282): On receipt of the peer sketch the engine subtracts, peels and completes. -/
  | sketchPeel (n : Nat) (fail : Bool)
  /-- FULL_SET_TRANSFER (R284): On receipt of the peer's entry array the engine emits the symmetric difference. -/
  | fullSetTransfer (n : Nat) (fail : Bool)
  /-- SPAN_TRANSACTION (R267): The home runs a sector transaction, walking the sharer list. -/
  | spanTransaction (req : SpanReq)
  /-- SPAN_EVICTION (R269): An evicting entry's transaction writes back its remaining dirty words. -/
  | spanEviction (sector : Nat) (n : Nat)
  /-- LAUNCH_APPEND (R305): A launch header is appended to a launch queue and checked or refused. -/
  | launchAppend (p : Nat) (q : Nat) (hdr : BitVec 64) (codes : List (Nat × List Nat)) (objs : List (List (BitVec 8)))
  /-- GROUP_START (R308): A dispatch packet reaches a chiplet and a group starts with its initial state. -/
  | groupStart (n : Nat)
  /-- TASK_START (R311): A free task slot pops a deque record and starts the task. -/
  | taskStart (cu : Nat) (slot : Nat)
  /-- HELD_FIRE_PLACE (R315): A held fired task is placed once a deque or queue record frees. -/
  | heldFirePlace (n : Nat)
  /-- CONTEXT_SAVE (R355): A pre-empted group's context save completes with a release at pk. -/
  | contextSave (u : Nat)
  /-- CONTEXT_RESTORE (R355): A saved context is restored with an acquire at pk and resumes. -/
  | contextRestore (n : Nat)
  /-- MIGRATION (R321): The hub migrates a group of a migr launch from the hottest unit. -/
  | migration (u : Nat) (v : Nat)
  /-- OP_POINT_CHANGE (R319): A die's new operating point becomes stable and delayed groups start. -/
  | opPointChange (die : Nat)
  /-- POWER_WINDOW (R27): At each 1 ms window the controller compares draw with the limit and adjusts operating points. -/
  | powerWindow (draw : Nat)
  /-- ASYNC_TRAP (R348): A pending asynchronous trap is taken at an instruction boundary. -/
  | asyncTrap (ag : Nat)
  /-- WAITW_YIELD (R239): After 1,024 cycles of re-reading a WAITW wave leaves its slot. -/
  | waitwYield (ag : Nat)
  /-- WAITW_REREAD (R239): A readied WAITW wave re-reads its word. -/
  | waitwReread (ag : Nat)
  /-- WAITW_TIMER (R239): 65,536 cycles pass and a waiting WAITW wave becomes ready. -/
  | waitwTimer (ag : Nat)
  /-- NTIME_DEADLINE (R261): ntime reaches an NTIME deadline and the wave resumes. -/
  | ntimeDeadline (ag : Nat)
  /-- WFI_TIMEOUT (R352): A WFI ends after 1 ms without an event. -/
  | wfiTimeout (ag : Nat)
  /-- SVN_FUSE_WRITE (R365): A write raises svn_fuse, ignored if not above the present value. -/
  | svnFuseWrite (v : Nat)
  /-- FENCE_CU (R360): fence_req fences a CU, moving its group and rewriting the capability table. -/
  | fenceCu (die : Nat) (c : Nat) (answers : Bool)
  /-- FENCE_QUADRANT (R360): fence_req fences a quadrant. -/
  | fenceQuadrant (die : Nat) (q : Nat) (answers : Bool)
  /-- FENCE_DRAM_BANK (R360): fence_req makes a DRAM bank unbacked. -/
  | fenceDramBank (stack : Nat) (bank : Nat)
  /-- FENCE_LINK_LANE (R360): fence_req fences a link lane, lowering its width. -/
  | fenceLinkLane (die : Nat) (lane : Nat)
  /-- FENCE_DIE (R360): fence_req fences a whole die. -/
  | fenceDie (die : Nat) (answers : Bool)
  /-- REGISTER_WRITE (R7): A write to a control or MMIO register that has no row of its own. -/
  | registerWrite (off : Nat) (v : BitVec 64)
  /-- REMOTE_RESPONSE (R143): The response to a remote load, returning atomic or window load reaches the requester, which writes the destination lanes and sets rerr or alost as the response carries. -/
  | remoteResponse (ag : Nat) (n : Nat) (r : RemoteRsp)
  /-- RECONCILE_START (R280): A reconcile engine starts the next queued reconciliation, up to 8 at once, and reads the sketch and entry array once at its start. -/
  | reconcileStart (n : Nat)
  deriving DecidableEq, Repr

end Sys2Proof
end

