-- ==== Sys2Proof/WellFormed.lean ====
section
/-! DEFINITION. When an instruction's fields are legal (R106, R107, R110, R116, R197, R335): what the decoder accepts. -/
namespace Sys2Proof

/-- What a register field of the general format may hold (R107); `grp n` is the first register of a group of `n`
consecutive scalar or vector registers 0 to 62, `cas4` the first of the two register pairs of a 64-bit ACAS. -/
inductive Kind where
  | zero | src | pair | dst | pdst | reg | preg | ksrc | kdst | idx8 | idx16 | ctl | rnd | mode
  | grp (n : Nat) | cas4
  deriving DecidableEq, Repr

/-- The legal codes of a field (R107). -/
def Kind.ok (k : Kind) (c : BitVec 6) : Bool :=
  match k with
  | .zero => c == 0
  | .src => true
  | .pair => (c &&& 1 == 0 && c.toNat ≤ 60) || c == 63
  | .dst => true
  | .pdst => (c &&& 1 == 0 && c.toNat ≤ 60) || c == 63
  | .reg => c != 63
  | .preg => c &&& 1 == 0 && c.toNat ≤ 60
  | .ksrc => c.toNat ≤ 7
  | .kdst => c.toNat ≤ 7 || c == 63
  | .idx8 => c.toNat ≤ 7
  | .idx16 => c.toNat ≤ 15
  | .ctl => c.toNat ≤ 12
  | .rnd => c.toNat ≤ 4 || c == 7
  | .mode => c.toNat ≤ 1
  | .grp n => c.toNat ≤ 63 - n
  | .cas4 => c &&& 3 == 0 && c.toNat ≤ 56

/-- The field's code: a register's number, or 63 for a literal (R108). -/
def Src.code : Src → BitVec 6
  | .reg n => n
  | .lit _ => 63

/-- A source that a field of the kind can hold: a register other than code 63, or a literal. -/
def Src.ok (k : Kind) : Src → Bool
  | .reg n => n != 63 && k.ok n
  | .lit _ => k.ok 63

/-- The kind of a source that is a pair when `dbl` (R116, R142, R175). -/
def srcW (dbl : Bool) : Kind := if dbl then .pair else .src
/-- The kind of a destination that is a pair when `dbl`. -/
def dstW (dbl : Bool) : Kind := if dbl then .pdst else .dst
/-- The kind of a store's data register, a pair when `dbl` (R116). -/
def regW (dbl : Bool) : Kind := if dbl then .preg else .reg
/-- The kind of ACAS's source B (R140): two registers, or two pairs. -/
def casW (dbl : Bool) : Kind := if dbl then .cas4 else .preg
/-- The control registers of 64 bits (R101). -/
def csr64 (n : BitVec 6) : Bool := n == 4 || n == 10 || n == 11
/-- The kind of CSRR's destination (R101). -/
def csrDst (n : BitVec 6) : Kind := dstW (csr64 n)
/-- The kind of CSRW's source (R101). -/
def csrSrc (n : BitVec 6) : Kind := srcW (csr64 n)
/-- The conversions with a 64-bit destination (R180). -/
def cvtDst64 (p : BitVec 5) : Bool := p == 0 || p == 25 || p == 26 || p == 27
/-- The conversions with a 64-bit source (R180). -/
def cvtSrc64 (p : BitVec 5) : Bool := p == 12 || p == 24 || p == 26 || p == 27

/-- The instruction's fields are legal. Steps without an encoding have no fields. -/
def Instr.wf : Instr → Bool
  | .blk _ _ _ => true
  | .rep _ _ _ _ => true
  | .add _ d a b => Kind.ok .dst d && a.ok .src && b.ok .src
  | .sub _ d a b => Kind.ok .dst d && a.ok .src && b.ok .src
  | .mul _ d a b => Kind.ok .dst d && a.ok .src && b.ok .src
  | .mulh _ d a b => Kind.ok .dst d && a.ok .src && b.ok .src
  | .mulhu _ d a b => Kind.ok .dst d && a.ok .src && b.ok .src
  | .div _ d a b => Kind.ok .dst d && a.ok .src && b.ok .src
  | .divu _ d a b => Kind.ok .dst d && a.ok .src && b.ok .src
  | .rem _ d a b => Kind.ok .dst d && a.ok .src && b.ok .src
  | .remu _ d a b => Kind.ok .dst d && a.ok .src && b.ok .src
  | .and _ d a b => Kind.ok .dst d && a.ok .src && b.ok .src
  | .or _ d a b => Kind.ok .dst d && a.ok .src && b.ok .src
  | .xor _ d a b => Kind.ok .dst d && a.ok .src && b.ok .src
  | .andn _ d a b => Kind.ok .dst d && a.ok .src && b.ok .src
  | .shl _ d a b => Kind.ok .dst d && a.ok .src && b.ok .src
  | .shr _ d a b => Kind.ok .dst d && a.ok .src && b.ok .src
  | .sar _ d a b => Kind.ok .dst d && a.ok .src && b.ok .src
  | .rol _ d a b => Kind.ok .dst d && a.ok .src && b.ok .src
  | .min _ d a b => Kind.ok .dst d && a.ok .src && b.ok .src
  | .max _ d a b => Kind.ok .dst d && a.ok .src && b.ok .src
  | .minu _ d a b => Kind.ok .dst d && a.ok .src && b.ok .src
  | .maxu _ d a b => Kind.ok .dst d && a.ok .src && b.ok .src
  | .clz _ d a => Kind.ok .dst d && a.ok .src
  | .popc _ d a => Kind.ok .dst d && a.ok .src
  | .bfx _ d a b => Kind.ok .dst d && a.ok .src && b.ok .src
  | .bfi _ d a b => Kind.ok .reg d && a.ok .src && b.ok .src
  | .sel _ d a b => Kind.ok .reg d && a.ok .src && b.ok .src
  | .mov _ d a => Kind.ok .dst d && a.ok .src
  | .cmpEq _ d a b => Kind.ok .dst d && a.ok .src && b.ok .src
  | .cmpNe _ d a b => Kind.ok .dst d && a.ok .src && b.ok .src
  | .cmpLt _ d a b => Kind.ok .dst d && a.ok .src && b.ok .src
  | .cmpLtu _ d a b => Kind.ok .dst d && a.ok .src && b.ok .src
  | .cmpLe _ d a b => Kind.ok .dst d && a.ok .src && b.ok .src
  | .cmpLeu _ d a b => Kind.ok .dst d && a.ok .src && b.ok .src
  | .cmpGt _ d a b => Kind.ok .dst d && a.ok .src && b.ok .src
  | .cmpGtu _ d a b => Kind.ok .dst d && a.ok .src && b.ok .src
  | .cmpGe _ d a b => Kind.ok .dst d && a.ok .src && b.ok .src
  | .cmpGeu _ d a b => Kind.ok .dst d && a.ok .src && b.ok .src
  | .add64 _ d a b => Kind.ok .pdst d && a.ok .pair && b.ok .pair
  | .sub64 _ d a b => Kind.ok .pdst d && a.ok .pair && b.ok .pair
  | .mul64 _ d a b => Kind.ok .pdst d && a.ok .pair && b.ok .pair
  | .shl64 _ d a b => Kind.ok .pdst d && a.ok .pair && b.ok .src
  | .shr64 _ d a b => Kind.ok .pdst d && a.ok .pair && b.ok .src
  | .sar64 _ d a b => Kind.ok .pdst d && a.ok .pair && b.ok .src
  | .adda _ d a b => Kind.ok .pdst d && a.ok .pair && b.ok .src
  | .prep _ d a => Kind.ok .idx8 d && a.ok .pair
  | .xfer _ a b => Kind.ok .idx8 a && b.ok .src
  | .xfern _ a b => Kind.ok .idx8 a && b.ok .src
  | .call _ d a b => Kind.ok .pdst d && Kind.ok .idx8 a && b.ok .src
  | .ret _ a b => Kind.ok .idx8 a && b.ok .src
  | .split d a b => Kind.ok .idx8 d && Kind.ok .idx8 a && Kind.ok .idx8 b
  | .join => true
  | .yield _ => true
  | .halt _ => true
  | .nop _ => true
  | .vany _ d a => Kind.ok .dst d && Kind.ok .ksrc a
  | .vall _ d a => Kind.ok .dst d && Kind.ok .ksrc a
  | .vbal _ d a => Kind.ok (.grp 3) d && Kind.ok .ksrc a
  | .vcnt _ d a => Kind.ok .dst d && Kind.ok .ksrc a
  | .vffs _ d a => Kind.ok .dst d && Kind.ok .ksrc a
  | .vbcast _ d a b => Kind.ok .dst d && a.ok .src && b.ok .src
  | .regroup d a b => Kind.ok .dst d && a.ok .src && b.ok .src
  | .trap _ a => a.ok .src
  | .eret _ => true
  | .csrr _ d a => Kind.ok (csrDst a) d && Kind.ok .ctl a
  | .csrw _ d a => Kind.ok .ctl d && a.ok (csrSrc d)
  | .capr _ d a => Kind.ok .dst d && a.ok .src
  | .wfi _ => true
  | .ifence _ => true
  | .mapinv _ a b => a.ok .pair && Kind.ok (.grp 2) b
  | .harvest _ a b => a.ok .pair && Kind.ok (.grp 2) b
  | .keyset _ d a => Kind.ok .dst d && a.ok .src
  | .keykill _ d a => Kind.ok .dst d && a.ok .src
  | .polld _ d a b => Kind.ok .dst d && a.ok .pair && b.ok .src
  | .polsw _ d a => Kind.ok .dst d && a.ok .src
  | .vadd _ d a b => Kind.ok .dst d && a.ok .src && b.ok .src
  | .vsub _ d a b => Kind.ok .dst d && a.ok .src && b.ok .src
  | .vmul _ d a b => Kind.ok .dst d && a.ok .src && b.ok .src
  | .vmulh _ d a b => Kind.ok .dst d && a.ok .src && b.ok .src
  | .vand _ d a b => Kind.ok .dst d && a.ok .src && b.ok .src
  | .vor _ d a b => Kind.ok .dst d && a.ok .src && b.ok .src
  | .vxor _ d a b => Kind.ok .dst d && a.ok .src && b.ok .src
  | .vshl _ d a b => Kind.ok .dst d && a.ok .src && b.ok .src
  | .vshr _ d a b => Kind.ok .dst d && a.ok .src && b.ok .src
  | .vsar _ d a b => Kind.ok .dst d && a.ok .src && b.ok .src
  | .vmin _ d a b => Kind.ok .dst d && a.ok .src && b.ok .src
  | .vmax _ d a b => Kind.ok .dst d && a.ok .src && b.ok .src
  | .vminu _ d a b => Kind.ok .dst d && a.ok .src && b.ok .src
  | .vmaxu _ d a b => Kind.ok .dst d && a.ok .src && b.ok .src
  | .vabs _ d a => Kind.ok .dst d && a.ok .src
  | .vneg _ d a => Kind.ok .dst d && a.ok .src
  | .vclz _ d a => Kind.ok .dst d && a.ok .src
  | .vpopc _ d a => Kind.ok .dst d && a.ok .src
  | .vadds _ d a b => Kind.ok .dst d && a.ok .src && b.ok .src
  | .vsubs _ d a b => Kind.ok .dst d && a.ok .src && b.ok .src
  | .vmov _ d a => Kind.ok .dst d && a.ok .src
  | .vsel _ d a b => Kind.ok .dst d && a.ok .src && b.ok .src
  | .vmad _ d a b => Kind.ok .reg d && a.ok .src && b.ok .src
  | .vmadh _ d a b => Kind.ok .reg d && a.ok .src && b.ok .src
  | .vdot4 _ d a b => Kind.ok .reg d && a.ok .src && b.ok .src
  | .vdot4u _ d a b => Kind.ok .reg d && a.ok .src && b.ok .src
  | .vcmpEq _ d a b => Kind.ok .kdst d && a.ok .src && b.ok .src
  | .vcmpNe _ d a b => Kind.ok .kdst d && a.ok .src && b.ok .src
  | .vcmpLt _ d a b => Kind.ok .kdst d && a.ok .src && b.ok .src
  | .vcmpLtu _ d a b => Kind.ok .kdst d && a.ok .src && b.ok .src
  | .vcmpLe _ d a b => Kind.ok .kdst d && a.ok .src && b.ok .src
  | .vcmpLeu _ d a b => Kind.ok .kdst d && a.ok .src && b.ok .src
  | .vcmpGt _ d a b => Kind.ok .kdst d && a.ok .src && b.ok .src
  | .vcmpGtu _ d a b => Kind.ok .kdst d && a.ok .src && b.ok .src
  | .vcmpGe _ d a b => Kind.ok .kdst d && a.ok .src && b.ok .src
  | .vcmpGeu _ d a b => Kind.ok .kdst d && a.ok .src && b.ok .src
  | .kand _ d a b => Kind.ok .kdst d && Kind.ok .ksrc a && Kind.ok .ksrc b
  | .kor _ d a b => Kind.ok .kdst d && Kind.ok .ksrc a && Kind.ok .ksrc b
  | .kxor _ d a b => Kind.ok .kdst d && Kind.ok .ksrc a && Kind.ok .ksrc b
  | .knot _ d a => Kind.ok .kdst d && Kind.ok .ksrc a
  | .kmov _ d a => Kind.ok .kdst d && Kind.ok .ksrc a
  | .kfroms _ d a => Kind.ok .kdst d && Kind.ok (.grp 3) a
  | .ktos _ d a => Kind.ok (.grp 3) d && Kind.ok .ksrc a
  | .vfadd _ d a b => Kind.ok .dst d && a.ok .src && b.ok .src
  | .vfsub _ d a b => Kind.ok .dst d && a.ok .src && b.ok .src
  | .vfmul _ d a b => Kind.ok .dst d && a.ok .src && b.ok .src
  | .vfma _ d a b => Kind.ok .reg d && a.ok .src && b.ok .src
  | .vfms _ d a b => Kind.ok .reg d && a.ok .src && b.ok .src
  | .vfnma _ d a b => Kind.ok .reg d && a.ok .src && b.ok .src
  | .vfmin _ d a b => Kind.ok .dst d && a.ok .src && b.ok .src
  | .vfmax _ d a b => Kind.ok .dst d && a.ok .src && b.ok .src
  | .vfabs _ d a => Kind.ok .dst d && a.ok .src
  | .vfneg _ d a => Kind.ok .dst d && a.ok .src
  | .vfclass _ d a => Kind.ok .dst d && a.ok .src
  | .vfrnd _ d a b => Kind.ok .dst d && a.ok .src && Kind.ok .rnd b
  | .vdadd _ d a b => Kind.ok .pdst d && a.ok .pair && b.ok .pair
  | .vdsub _ d a b => Kind.ok .pdst d && a.ok .pair && b.ok .pair
  | .vdmul _ d a b => Kind.ok .pdst d && a.ok .pair && b.ok .pair
  | .vdfma _ d a b => Kind.ok .preg d && a.ok .pair && b.ok .pair
  | .vdmin _ d a b => Kind.ok .pdst d && a.ok .pair && b.ok .pair
  | .vdmax _ d a b => Kind.ok .pdst d && a.ok .pair && b.ok .pair
  | .vfcmpEq dbl _ d a b => Kind.ok .kdst d && a.ok (srcW dbl) && b.ok (srcW dbl)
  | .vfcmpNe dbl _ d a b => Kind.ok .kdst d && a.ok (srcW dbl) && b.ok (srcW dbl)
  | .vfcmpLt dbl _ d a b => Kind.ok .kdst d && a.ok (srcW dbl) && b.ok (srcW dbl)
  | .vfcmpLe dbl _ d a b => Kind.ok .kdst d && a.ok (srcW dbl) && b.ok (srcW dbl)
  | .vfcmpGt dbl _ d a b => Kind.ok .kdst d && a.ok (srcW dbl) && b.ok (srcW dbl)
  | .vfcmpGe dbl _ d a b => Kind.ok .kdst d && a.ok (srcW dbl) && b.ok (srcW dbl)
  | .vfcmpUn dbl _ d a b => Kind.ok .kdst d && a.ok (srcW dbl) && b.ok (srcW dbl)
  | .vfcmpOrd dbl _ d a b => Kind.ok .kdst d && a.ok (srcW dbl) && b.ok (srcW dbl)
  | .vcvt pair _ d a b => pair != 31 && Kind.ok (dstW (cvtDst64 pair)) d && a.ok (srcW (cvtSrc64 pair)) && Kind.ok .rnd b
  | .pk4 _ d a b => Kind.ok .dst d && a.ok .src && b.ok .src
  | .upk4 _ d a b => Kind.ok .dst d && a.ok .src && b.ok .src
  | .pk6 _ d a => Kind.ok (.grp 3) d && Kind.ok (.grp 4) a
  | .upk6 _ d a => Kind.ok (.grp 4) d && Kind.ok (.grp 3) a
  | .pkts _ d a b => Kind.ok .dst d && a.ok .src && b.ok .src
  | .upkts _ d a b => Kind.ok .dst d && a.ok .src && b.ok .src
  | .vscale _ d a b => Kind.ok .dst d && a.ok .src && b.ok .src
  | .srcp _ d a => Kind.ok .dst d && a.ok .src
  | .srsq _ d a => Kind.ok .dst d && a.ok .src
  | .ssqrt _ d a => Kind.ok .dst d && a.ok .src
  | .sexp2 _ d a => Kind.ok .dst d && a.ok .src
  | .slog2 _ d a => Kind.ok .dst d && a.ok .src
  | .ssin _ d a => Kind.ok .dst d && a.ok .src
  | .scos _ d a => Kind.ok .dst d && a.ok .src
  | .stanh _ d a => Kind.ok .dst d && a.ok .src
  | .sact _ d a => Kind.ok .dst d && a.ok .src
  | .atld _ a => a.ok .src
  | .atswap _ => true
  | .nbl _ d a b => Kind.ok .dst d && a.ok .src && Kind.ok .mode b
  | .nbr _ d a b => Kind.ok .dst d && a.ok .src && Kind.ok .mode b
  | .nrot _ d a b => Kind.ok .dst d && a.ok .src && b.ok .src
  | .ld size _ _ d a b => size.toNat ≤ 5 && Kind.ok (dstW (size == 5)) d && a.ok .pair && b.ok .src
  | .st size _ _ d a b => (size == 0 || size == 2 || size == 4 || size == 5) && Kind.ok (regW (size == 5)) d && a.ok .pair && b.ok .src
  | .sld size _ _ d a b => size.toNat ≤ 5 && Kind.ok (dstW (size == 5)) d && a.ok .pair && b.ok .src
  | .sst size _ _ d a b => (size == 0 || size == 2 || size == 4 || size == 5) && Kind.ok (regW (size == 5)) d && a.ok .pair && b.ok .src
  | .ldsp size _ _ d a b => size.toNat ≤ 5 && Kind.ok (dstW (size == 5)) d && a.ok .src && b.ok .src
  | .stsp size _ _ d a b => (size == 0 || size == 2 || size == 4 || size == 5) && Kind.ok (regW (size == 5)) d && a.ok .src && b.ok .src
  | .tld size _ d a b => size.toNat ≤ 5 && Kind.ok (dstW (size == 5)) d && Kind.ok .idx16 a && Kind.ok .reg b
  | .tst size _ d a b => (size == 0 || size == 2 || size == 4 || size == 5) && Kind.ok (regW (size == 5)) d && Kind.ok .idx16 a && Kind.ok .reg b
  | .ldacq scope size _ d a b => scope.toNat ≤ 5 && size.toNat ≤ 1 && Kind.ok (dstW (size == 1)) d && a.ok .pair && b.ok .src
  | .strel scope size _ d a b => scope.toNat ≤ 5 && size.toNat ≤ 1 && Kind.ok (regW (size == 1)) d && a.ok .pair && b.ok .src
  | .fence scope _ _ _ => scope.toNat ≤ 5
  | .bar _ d a b => Kind.ok .dst d && a.ok .src && b.ok .src
  | .bara _ d a b => Kind.ok .dst d && a.ok .src && b.ok .src
  | .barw _ d a b => Kind.ok .dst d && a.ok .src && b.ok .src
  | .dbar _ d => Kind.ok .dst d
  | .waitw _ d a b => Kind.ok .dst d && a.ok .pair && b.ok .src
  | .wakew _ a => a.ok .pair
  | .cpy _ d a => Kind.ok .idx16 d && a.ok .src
  | .give _ a b => a.ok .src && b.ok .src
  | .take _ a b => a.ok .src && b.ok .src
  | .hwait _ d a => Kind.ok .pdst d && Kind.ok .idx16 a
  | .htest _ d a => Kind.ok .dst d && Kind.ok .idx16 a
  | .hcancel _ a => Kind.ok .idx16 a
  | .hpass _ d a b => Kind.ok .idx16 d && Kind.ok .idx16 a && b.ok .src
  | .spawn _ d a b => Kind.ok .dst d && a.ok .src && Kind.ok (.grp 2) b
  | .steal _ d b => Kind.ok .dst d && b.ok .src
  | .tdone _ d a b => Kind.ok .dst d && a.ok .src && b.ok .src
  | .remq _ d a b => Kind.ok .dst d && a.ok .src && b.ok .src
  | .pwrget _ d a => Kind.ok .dst d && a.ok .src
  | .pwrrel _ a => a.ok .src
  | .wsig _ d a b => Kind.ok .idx16 d && a.ok .src && Kind.ok (.grp 4) b
  | .allred _ d a b => Kind.ok .reg d && a.ok .src && b.ok .src
  | .wincfg _ d a b => Kind.ok .dst d && a.ok .pair && b.ok .src
  | .ntime _ d a => Kind.ok .pdst d && a.ok .pair
  | .skclr _ a b => a.ok .src && b.ok .src
  | .skins _ d a b => Kind.ok .preg d && Kind.ok (.grp 2) a && b.ok .pair
  | .skrecon _ d a => Kind.ok .idx16 d && a.ok .src
  | .skstat _ d a => Kind.ok (.grp 4) d && Kind.ok .idx16 a
  | .aadd scope dbl _ d a b => scope.toNat ≤ 5 && Kind.ok (dstW dbl) d && a.ok .pair && b.ok (srcW dbl)
  | .asub scope dbl _ d a b => scope.toNat ≤ 5 && Kind.ok (dstW dbl) d && a.ok .pair && b.ok (srcW dbl)
  | .amin scope dbl _ d a b => scope.toNat ≤ 5 && Kind.ok (dstW dbl) d && a.ok .pair && b.ok (srcW dbl)
  | .amax scope dbl _ d a b => scope.toNat ≤ 5 && Kind.ok (dstW dbl) d && a.ok .pair && b.ok (srcW dbl)
  | .aminu scope dbl _ d a b => scope.toNat ≤ 5 && Kind.ok (dstW dbl) d && a.ok .pair && b.ok (srcW dbl)
  | .amaxu scope dbl _ d a b => scope.toNat ≤ 5 && Kind.ok (dstW dbl) d && a.ok .pair && b.ok (srcW dbl)
  | .aand scope dbl _ d a b => scope.toNat ≤ 5 && Kind.ok (dstW dbl) d && a.ok .pair && b.ok (srcW dbl)
  | .aor scope dbl _ d a b => scope.toNat ≤ 5 && Kind.ok (dstW dbl) d && a.ok .pair && b.ok (srcW dbl)
  | .axor scope dbl _ d a b => scope.toNat ≤ 5 && Kind.ok (dstW dbl) d && a.ok .pair && b.ok (srcW dbl)
  | .axchg scope dbl _ d a b => scope.toNat ≤ 5 && Kind.ok (dstW dbl) d && a.ok .pair && b.ok (srcW dbl)
  | .acas scope dbl _ d a b => scope.toNat ≤ 5 && Kind.ok (dstW dbl) d && a.ok .pair && Kind.ok (casW dbl) b
  | .afadd scope dbl _ d a b => scope.toNat ≤ 5 && Kind.ok (dstW dbl) d && a.ok .pair && b.ok (srcW dbl)
  | .wload a b tok => Kind.ok .preg a && Kind.ok (.grp 2) b && tok &&& 9 == 0
  | .rload a b c tok => Kind.ok .preg a && Kind.ok (.grp 3) b && c.toNat ≤ 7 && tok &&& 9 == 0
  | .mmul a b _ _ => a.toNat ≤ 7 && b.toNat ≤ 1
  | .chb a b _ _ => Kind.ok .reg a && b.toNat ≤ 15 && b &&& 3 != 3
  | .che _ _ => true
  | .accst a b _ tok => Kind.ok .preg a && Kind.ok (.grp 2) b && tok &&& 6 == 0
  | .nest a b c => Kind.ok .reg a && Kind.ok (.grp 8) b && c.toNat ≤ 5
  | .go a => 1 ≤ a.toNat && a.toNat ≤ 8
  | .vcset a _ => Kind.ok .reg a
  | .shdw _ _ => true
  | .scmt _ _ => true
  | .sdsc _ _ => true
  | .qfuse c => c.toNat ≤ 4
  | .qsplit => true
  | .movCompact _ _ => true
  | .addCompact _ _ => true
  | .subCompact _ _ => true
  | .andCompact _ _ => true
  | .orCompact _ _ => true
  | .xorCompact _ _ => true
  | .addImmCompact _ _ => true
  | .shlCompact _ _ => true
  | .shrCompact _ _ => true
  | .sarCompact _ _ => true
  | .movImmCompact _ _ => true
  | .vmovCompact _ _ => true
  | .vaddCompact _ _ => true
  | .vfaddCompact _ _ => true
  | .vfmulCompact _ _ => true
  | .kmovCompact a b => a.toNat ≤ 7 && b.toNat ≤ 7
  | .nopCompact => true
  | .xferCompact a _ => a.toNat ≤ 7
  | .xfernCompact a _ => a.toNat ≤ 7
  | .polLdi _ _ => true
  | .polLdih _ _ => true
  | .polAdd _ _ _ => true
  | .polSub _ _ _ => true
  | .polAnd _ _ _ => true
  | .polOr _ _ _ => true
  | .polXor _ _ _ => true
  | .polMinu _ _ _ => true
  | .polMaxu _ _ _ => true
  | .polShl _ _ _ => true
  | .polShr _ _ _ => true
  | .polAddi _ _ _ => true
  | .polRqf _ _ _ => true
  | .polRuf _ _ _ => true
  | .polBeq _ _ off => off != 0
  | .polBne _ _ off => off != 0
  | .polBltu _ _ off => off != 0
  | .polBgeu _ _ off => off != 0
  | .polArgminq _ _ _ => true
  | .polArgmaxq _ _ _ => true
  | .polArgminu _ _ _ => true
  | .polArgmaxu _ _ _ => true
  | .polLdp _ _ => true
  | .polStp _ _ => true
  | .polDecPick _ _ => true
  | .polDecKeep _ _ => true
  | .polDecPreempt _ _ => true
  | .polDecKill _ _ => true
  | .polDecResume _ _ => true
  | .polDecNotify _ _ => true
  | .polDecSuspend _ _ => true
  | .polDecFallback _ _ => true
  | .policyDecisionStart _ => true
  | .budgetOverrun _ => true
  | .sliceEnd _ => true
  | .packageReset _ => true
  | .bootStage _ _ => true
  | .enumeration _ => true
  | .heartbeat _ _ _ => true
  | .isolation _ => true
  | .chipletSelfTest _ _ => true
  | .staleResponseDrop _ _ _ _ => true
  | .patrolScrub _ _ _ => true
  | .cxlDeviceLoss _ => true
  | .orngLimWrite _ _ => true
  | .orngSplitWrite _ _ => true
  | .wayCleaning _ => true
  | .orangeryEpoch => true
  | .pageWalk _ _ _ _ => true
  | .nextPageWalk _ => true
  | .faultResolve _ => true
  | .faultUnresolvable _ => true
  | .sideLogReplay _ _ => true
  | .loadPerform _ _ _ _ => true
  | .storePerform _ _ => true
  | .writePropagate _ _ => true
  | .cacheEviction _ _ _ => true
  | .acquire _ _ => true
  | .release _ _ => true
  | .atomicPerform _ _ _ => true
  | .writeErrorRemoval _ _ => true
  | .windowDeliver _ => true
  | .windowAck _ _ => true
  | .windowTimeout _ => true
  | .requestTimeout _ _ => true
  | .inboundRemoteAccess _ _ => true
  | .requestReissue _ => true
  | .flitAck _ _ _ => true
  | .linkWidthChange _ _ => true
  | .laneFailure _ _ => true
  | .timeSync _ => true
  | .reductionFold _ => true
  | .ueRequest _ => true
  | .managementRequest _ => true
  | .attestationRequest _ _ => true
  | .circWrite _ _ => true
  | .circuitUp _ => true
  | .circuitDown _ => true
  | .copyStart _ => true
  | .copyChunk _ _ => true
  | .copyCompletion _ => true
  | .sfuEntry _ => true
  | .engineEntryIssue _ _ _ => true
  | .engineEntryRetire _ _ => true
  | .nestEmit _ => true
  | .remqBlockDispatch _ => true
  | .reconcileMatch _ _ => true
  | .reconcileWaitExpiry _ => true
  | .sketchPeel _ _ => true
  | .fullSetTransfer _ _ => true
  | .spanTransaction _ => true
  | .spanEviction _ _ => true
  | .launchAppend _ _ _ _ _ => true
  | .groupStart _ => true
  | .taskStart _ _ => true
  | .heldFirePlace _ => true
  | .contextSave _ => true
  | .contextRestore _ => true
  | .migration _ _ => true
  | .opPointChange _ => true
  | .powerWindow _ => true
  | .asyncTrap _ => true
  | .waitwYield _ => true
  | .waitwReread _ => true
  | .waitwTimer _ => true
  | .ntimeDeadline _ => true
  | .wfiTimeout _ => true
  | .svnFuseWrite _ => true
  | .fenceCu _ _ _ => true
  | .fenceQuadrant _ _ _ => true
  | .fenceDramBank _ _ => true
  | .fenceLinkLane _ _ => true
  | .fenceDie _ _ => true
  | .registerWrite _ _ => true
  | .remoteResponse _ _ _ => true
  | .reconcileStart _ => true

end Sys2Proof
end

