-- ==== Sys2Proof/Decode.lean ====
section
/-! DEFINITION. The decoder of the instruction stream (R105 to R118, R197) and of policy code (R335, R336), total on
any halfwords and rejecting by name, and the encoder written from the same tables. -/
namespace Sys2Proof

/-- Why a halfword sequence is no instruction (R118). -/
inductive Bad where
  /-- the sequence ends inside the instruction -/
  | short
  /-- a major opcode that R115 does not assign -/
  | major
  /-- a function code that R115 does not assign -/
  | function
  /-- an illegal register code, a reserved value of a subfield, a non-zero unused field (R106, R107, R116, R197) -/
  | field
  /-- a compact op that R110 does not assign -/
  | compact
  /-- a policy operation that R336 does not assign -/
  | policy
  deriving DecidableEq, Repr

/-- The fields of the general 32-bit format (R106). -/
structure Fld where
  fn  : BitVec 5
  b   : BitVec 6
  a   : BitVec 6
  d   : BitVec 6
  g   : BitVec 2
  maj : BitVec 6
  deriving DecidableEq, Repr

/-- The fields of a 32-bit word (R106). -/
def Fld.unpack (w : Word) : Fld :=
  { fn := w.extractLsb' 27 5, b := w.extractLsb' 21 6, a := w.extractLsb' 15 6, d := w.extractLsb' 9 6,
    g := w.extractLsb' 7 2, maj := w.extractLsb' 1 6 }

/-- The 32-bit word of given fields, bit 0 one (R105, R106). -/
def Fld.pack (f : Fld) : Word := f.fn ++ f.b ++ f.a ++ f.d ++ f.g ++ f.maj ++ 1#1

/-- The fields of an engine command (R117). -/
structure EFld where
  c   : BitVec 4
  b   : BitVec 6
  a   : BitVec 6
  fn  : BitVec 5
  tok : BitVec 4
  deriving DecidableEq, Repr

/-- The fields of an engine command's word (R117). -/
def EFld.unpack (w : Word) : EFld :=
  { c := w.extractLsb' 28 4, b := w.extractLsb' 22 6, a := w.extractLsb' 16 6, fn := w.extractLsb' 11 5,
    tok := w.extractLsb' 7 4 }

/-- The word of an engine command (R117). -/
def EFld.pack (f : EFld) : Word := f.c ++ f.b ++ f.a ++ f.fn ++ f.tok ++ 0x61#7

/-- The source a field names, with the literal word that follows where it holds 63 (R108). -/
def srcOf (c : BitVec 6) (l : Word) : Src := if c = 63 then .lit l else .reg c

/-- An instruction whose legality check is `ok`. -/
def accept (ok : Bool) (i : Instr) : Except Bad Instr := if ok then .ok i else .error .field

/-- An instruction of the general format whose destination and sources are of these kinds and whose guard is free. -/
def acc (f : Fld) (kd ka kb : Kind) (i : Instr) : Except Bad Instr :=
  accept (kd.ok f.d && ka.ok f.a && kb.ok f.b) i

/-- The same for an instruction whose guard field is unused. -/
def accN (f : Fld) (kd ka kb : Kind) (i : Instr) : Except Bad Instr :=
  accept (f.g == 0 && kd.ok f.d && ka.ok f.a && kb.ok f.b) i

/-- Which of source A and source B of a major's function is a field that takes a literal word at code 63 (R107, R108).
For a word that is no instruction this is still how many literal words its known function would take (log 14). -/
def litFields (maj fn : Nat) : Bool × Bool :=
  match maj with
  | 2 => (fn ≤ 26, fn ≤ 20 || (23 ≤ fn && fn ≤ 25))
  | 3 | 10 => (fn ≤ 9, fn ≤ 9)
  | 4 => (fn ≤ 6, fn ≤ 6)
  | 5 => (fn == 0, (1 ≤ fn && fn ≤ 4))
  | 6 => ((5 ≤ fn && fn ≤ 6), (5 ≤ fn && fn ≤ 6))
  | 7 => (fn == 0 || (3 ≤ fn && fn ≤ 4) || (7 ≤ fn && fn ≤ 12), fn == 11)
  | 8 => (fn ≤ 21, fn ≤ 13 || (18 ≤ fn && fn ≤ 19) || fn == 21)
  | 9 => (fn ≤ 3, fn ≤ 3)
  | 12 => (fn ≤ 11, fn ≤ 7)
  | 13 => (fn ≤ 5, fn ≤ 5)
  | 14 => (fn ≤ 15, fn ≤ 15)
  | 15 => (fn ≤ 30, false)
  | 16 => (fn ≤ 1 || (4 ≤ fn && fn ≤ 6), fn ≤ 1 || (4 ≤ fn && fn ≤ 6))
  | 17 => (fn ≤ 9, false)
  | 18 => (fn ≤ 2, fn == 2)
  | 24 | 25 | 26 | 27 | 28 | 29 | 32 | 33 => (true, true)
  | 35 => (fn ≤ 2 || (4 ≤ fn && fn ≤ 5), fn ≤ 2 || fn == 4)
  | 36 => (fn ≤ 2, (1 ≤ fn && fn ≤ 2) || fn == 6)
  | 37 => (fn == 0 || (2 ≤ fn && fn ≤ 5), (1 ≤ fn && fn ≤ 3))
  | 38 => (fn ≤ 3, (1 ≤ fn && fn ≤ 2))
  | 39 => (fn == 0 || fn == 2, fn ≤ 1)
  | 40 | 41 | 42 | 43 | 44 | 45 => (fn ≤ 11 || (16 ≤ fn && fn ≤ 27), fn ≤ 9 || fn == 11 || (16 ≤ fn && fn ≤ 25) || fn == 27)
  | _ => (false, false)

/-- The number of literal words the fields call for, source A's and source B's (R108). -/
def litWords (f : Fld) : Bool × Bool :=
  let l := litFields f.maj.toNat f.fn.toNat
  (l.1 && f.a == 63, l.2 && f.b == 63)

/-- Major 0x02 (R115). -/
def dec02 (f : Fld) (la lb : Word) : Except Bad Instr :=
  match f.fn.toNat with
  | 0 => acc f .dst .src .src (.add f.g f.d (srcOf f.a la) (srcOf f.b lb))
  | 1 => acc f .dst .src .src (.sub f.g f.d (srcOf f.a la) (srcOf f.b lb))
  | 2 => acc f .dst .src .src (.mul f.g f.d (srcOf f.a la) (srcOf f.b lb))
  | 3 => acc f .dst .src .src (.mulh f.g f.d (srcOf f.a la) (srcOf f.b lb))
  | 4 => acc f .dst .src .src (.mulhu f.g f.d (srcOf f.a la) (srcOf f.b lb))
  | 5 => acc f .dst .src .src (.div f.g f.d (srcOf f.a la) (srcOf f.b lb))
  | 6 => acc f .dst .src .src (.divu f.g f.d (srcOf f.a la) (srcOf f.b lb))
  | 7 => acc f .dst .src .src (.rem f.g f.d (srcOf f.a la) (srcOf f.b lb))
  | 8 => acc f .dst .src .src (.remu f.g f.d (srcOf f.a la) (srcOf f.b lb))
  | 9 => acc f .dst .src .src (.and f.g f.d (srcOf f.a la) (srcOf f.b lb))
  | 10 => acc f .dst .src .src (.or f.g f.d (srcOf f.a la) (srcOf f.b lb))
  | 11 => acc f .dst .src .src (.xor f.g f.d (srcOf f.a la) (srcOf f.b lb))
  | 12 => acc f .dst .src .src (.andn f.g f.d (srcOf f.a la) (srcOf f.b lb))
  | 13 => acc f .dst .src .src (.shl f.g f.d (srcOf f.a la) (srcOf f.b lb))
  | 14 => acc f .dst .src .src (.shr f.g f.d (srcOf f.a la) (srcOf f.b lb))
  | 15 => acc f .dst .src .src (.sar f.g f.d (srcOf f.a la) (srcOf f.b lb))
  | 16 => acc f .dst .src .src (.rol f.g f.d (srcOf f.a la) (srcOf f.b lb))
  | 17 => acc f .dst .src .src (.min f.g f.d (srcOf f.a la) (srcOf f.b lb))
  | 18 => acc f .dst .src .src (.max f.g f.d (srcOf f.a la) (srcOf f.b lb))
  | 19 => acc f .dst .src .src (.minu f.g f.d (srcOf f.a la) (srcOf f.b lb))
  | 20 => acc f .dst .src .src (.maxu f.g f.d (srcOf f.a la) (srcOf f.b lb))
  | 21 => acc f .dst .src .zero (.clz f.g f.d (srcOf f.a la))
  | 22 => acc f .dst .src .zero (.popc f.g f.d (srcOf f.a la))
  | 23 => acc f .dst .src .src (.bfx f.g f.d (srcOf f.a la) (srcOf f.b lb))
  | 24 => acc f .reg .src .src (.bfi f.g f.d (srcOf f.a la) (srcOf f.b lb))
  | 25 => acc f .reg .src .src (.sel f.g f.d (srcOf f.a la) (srcOf f.b lb))
  | 26 => acc f .dst .src .zero (.mov f.g f.d (srcOf f.a la))
  | _ => .error .function

/-- Major 0x03 (R115). -/
def dec03 (f : Fld) (la lb : Word) : Except Bad Instr :=
  match f.fn.toNat with
  | 0 => acc f .dst .src .src (.cmpEq f.g f.d (srcOf f.a la) (srcOf f.b lb))
  | 1 => acc f .dst .src .src (.cmpNe f.g f.d (srcOf f.a la) (srcOf f.b lb))
  | 2 => acc f .dst .src .src (.cmpLt f.g f.d (srcOf f.a la) (srcOf f.b lb))
  | 3 => acc f .dst .src .src (.cmpLtu f.g f.d (srcOf f.a la) (srcOf f.b lb))
  | 4 => acc f .dst .src .src (.cmpLe f.g f.d (srcOf f.a la) (srcOf f.b lb))
  | 5 => acc f .dst .src .src (.cmpLeu f.g f.d (srcOf f.a la) (srcOf f.b lb))
  | 6 => acc f .dst .src .src (.cmpGt f.g f.d (srcOf f.a la) (srcOf f.b lb))
  | 7 => acc f .dst .src .src (.cmpGtu f.g f.d (srcOf f.a la) (srcOf f.b lb))
  | 8 => acc f .dst .src .src (.cmpGe f.g f.d (srcOf f.a la) (srcOf f.b lb))
  | 9 => acc f .dst .src .src (.cmpGeu f.g f.d (srcOf f.a la) (srcOf f.b lb))
  | _ => .error .function

/-- Major 0x04 (R115). -/
def dec04 (f : Fld) (la lb : Word) : Except Bad Instr :=
  match f.fn.toNat with
  | 0 => acc f .pdst .pair .pair (.add64 f.g f.d (srcOf f.a la) (srcOf f.b lb))
  | 1 => acc f .pdst .pair .pair (.sub64 f.g f.d (srcOf f.a la) (srcOf f.b lb))
  | 2 => acc f .pdst .pair .pair (.mul64 f.g f.d (srcOf f.a la) (srcOf f.b lb))
  | 3 => acc f .pdst .pair .src (.shl64 f.g f.d (srcOf f.a la) (srcOf f.b lb))
  | 4 => acc f .pdst .pair .src (.shr64 f.g f.d (srcOf f.a la) (srcOf f.b lb))
  | 5 => acc f .pdst .pair .src (.sar64 f.g f.d (srcOf f.a la) (srcOf f.b lb))
  | 6 => acc f .pdst .pair .src (.adda f.g f.d (srcOf f.a la) (srcOf f.b lb))
  | _ => .error .function

/-- Major 0x05 (R115). -/
def dec05 (f : Fld) (la lb : Word) : Except Bad Instr :=
  match f.fn.toNat with
  | 0 => acc f .idx8 .pair .zero (.prep f.g f.d (srcOf f.a la))
  | 1 => acc f .zero .idx8 .src (.xfer f.g f.a (srcOf f.b lb))
  | 2 => acc f .zero .idx8 .src (.xfern f.g f.a (srcOf f.b lb))
  | 3 => acc f .pdst .idx8 .src (.call f.g f.d f.a (srcOf f.b lb))
  | 4 => acc f .zero .idx8 .src (.ret f.g f.a (srcOf f.b lb))
  | 5 => accN f .idx8 .idx8 .idx8 (.split f.d f.a f.b)
  | 6 => accN f .zero .zero .zero .join
  | 7 => acc f .zero .zero .zero (.yield f.g)
  | 8 => acc f .zero .zero .zero (.halt f.g)
  | 9 => acc f .zero .zero .zero (.nop f.g)
  | _ => .error .function

/-- Major 0x06 (R115). -/
def dec06 (f : Fld) (la lb : Word) : Except Bad Instr :=
  match f.fn.toNat with
  | 0 => acc f .dst .ksrc .zero (.vany f.g f.d f.a)
  | 1 => acc f .dst .ksrc .zero (.vall f.g f.d f.a)
  | 2 => acc f (.grp 3) .ksrc .zero (.vbal f.g f.d f.a)
  | 3 => acc f .dst .ksrc .zero (.vcnt f.g f.d f.a)
  | 4 => acc f .dst .ksrc .zero (.vffs f.g f.d f.a)
  | 5 => acc f .dst .src .src (.vbcast f.g f.d (srcOf f.a la) (srcOf f.b lb))
  | 6 => accN f .dst .src .src (.regroup f.d (srcOf f.a la) (srcOf f.b lb))
  | _ => .error .function

/-- Major 0x07 (R115). -/
def dec07 (f : Fld) (la lb : Word) : Except Bad Instr :=
  match f.fn.toNat with
  | 0 => acc f .zero .src .zero (.trap f.g (srcOf f.a la))
  | 1 => acc f .zero .zero .zero (.eret f.g)
  | 2 => acc f (csrDst f.a) .ctl .zero (.csrr f.g f.d f.a)
  | 3 => acc f .ctl (csrSrc f.d) .zero (.csrw f.g f.d (srcOf f.a la))
  | 4 => acc f .dst .src .zero (.capr f.g f.d (srcOf f.a la))
  | 5 => acc f .zero .zero .zero (.wfi f.g)
  | 6 => acc f .zero .zero .zero (.ifence f.g)
  | 7 => acc f .zero .pair (.grp 2) (.mapinv f.g (srcOf f.a la) f.b)
  | 8 => acc f .zero .pair (.grp 2) (.harvest f.g (srcOf f.a la) f.b)
  | 9 => acc f .dst .src .zero (.keyset f.g f.d (srcOf f.a la))
  | 10 => acc f .dst .src .zero (.keykill f.g f.d (srcOf f.a la))
  | 11 => acc f .dst .pair .src (.polld f.g f.d (srcOf f.a la) (srcOf f.b lb))
  | 12 => acc f .dst .src .zero (.polsw f.g f.d (srcOf f.a la))
  | _ => .error .function

/-- Major 0x08 (R115). -/
def dec08 (f : Fld) (la lb : Word) : Except Bad Instr :=
  match f.fn.toNat with
  | 0 => acc f .dst .src .src (.vadd f.g f.d (srcOf f.a la) (srcOf f.b lb))
  | 1 => acc f .dst .src .src (.vsub f.g f.d (srcOf f.a la) (srcOf f.b lb))
  | 2 => acc f .dst .src .src (.vmul f.g f.d (srcOf f.a la) (srcOf f.b lb))
  | 3 => acc f .dst .src .src (.vmulh f.g f.d (srcOf f.a la) (srcOf f.b lb))
  | 4 => acc f .dst .src .src (.vand f.g f.d (srcOf f.a la) (srcOf f.b lb))
  | 5 => acc f .dst .src .src (.vor f.g f.d (srcOf f.a la) (srcOf f.b lb))
  | 6 => acc f .dst .src .src (.vxor f.g f.d (srcOf f.a la) (srcOf f.b lb))
  | 7 => acc f .dst .src .src (.vshl f.g f.d (srcOf f.a la) (srcOf f.b lb))
  | 8 => acc f .dst .src .src (.vshr f.g f.d (srcOf f.a la) (srcOf f.b lb))
  | 9 => acc f .dst .src .src (.vsar f.g f.d (srcOf f.a la) (srcOf f.b lb))
  | 10 => acc f .dst .src .src (.vmin f.g f.d (srcOf f.a la) (srcOf f.b lb))
  | 11 => acc f .dst .src .src (.vmax f.g f.d (srcOf f.a la) (srcOf f.b lb))
  | 12 => acc f .dst .src .src (.vminu f.g f.d (srcOf f.a la) (srcOf f.b lb))
  | 13 => acc f .dst .src .src (.vmaxu f.g f.d (srcOf f.a la) (srcOf f.b lb))
  | 14 => acc f .dst .src .zero (.vabs f.g f.d (srcOf f.a la))
  | 15 => acc f .dst .src .zero (.vneg f.g f.d (srcOf f.a la))
  | 16 => acc f .dst .src .zero (.vclz f.g f.d (srcOf f.a la))
  | 17 => acc f .dst .src .zero (.vpopc f.g f.d (srcOf f.a la))
  | 18 => acc f .dst .src .src (.vadds f.g f.d (srcOf f.a la) (srcOf f.b lb))
  | 19 => acc f .dst .src .src (.vsubs f.g f.d (srcOf f.a la) (srcOf f.b lb))
  | 20 => acc f .dst .src .zero (.vmov f.g f.d (srcOf f.a la))
  | 21 => acc f .dst .src .src (.vsel f.g f.d (srcOf f.a la) (srcOf f.b lb))
  | _ => .error .function

/-- Major 0x09 (R115). -/
def dec09 (f : Fld) (la lb : Word) : Except Bad Instr :=
  match f.fn.toNat with
  | 0 => acc f .reg .src .src (.vmad f.g f.d (srcOf f.a la) (srcOf f.b lb))
  | 1 => acc f .reg .src .src (.vmadh f.g f.d (srcOf f.a la) (srcOf f.b lb))
  | 2 => acc f .reg .src .src (.vdot4 f.g f.d (srcOf f.a la) (srcOf f.b lb))
  | 3 => acc f .reg .src .src (.vdot4u f.g f.d (srcOf f.a la) (srcOf f.b lb))
  | _ => .error .function

/-- Major 0x0A (R115). -/
def dec0A (f : Fld) (la lb : Word) : Except Bad Instr :=
  match f.fn.toNat with
  | 0 => acc f .kdst .src .src (.vcmpEq f.g f.d (srcOf f.a la) (srcOf f.b lb))
  | 1 => acc f .kdst .src .src (.vcmpNe f.g f.d (srcOf f.a la) (srcOf f.b lb))
  | 2 => acc f .kdst .src .src (.vcmpLt f.g f.d (srcOf f.a la) (srcOf f.b lb))
  | 3 => acc f .kdst .src .src (.vcmpLtu f.g f.d (srcOf f.a la) (srcOf f.b lb))
  | 4 => acc f .kdst .src .src (.vcmpLe f.g f.d (srcOf f.a la) (srcOf f.b lb))
  | 5 => acc f .kdst .src .src (.vcmpLeu f.g f.d (srcOf f.a la) (srcOf f.b lb))
  | 6 => acc f .kdst .src .src (.vcmpGt f.g f.d (srcOf f.a la) (srcOf f.b lb))
  | 7 => acc f .kdst .src .src (.vcmpGtu f.g f.d (srcOf f.a la) (srcOf f.b lb))
  | 8 => acc f .kdst .src .src (.vcmpGe f.g f.d (srcOf f.a la) (srcOf f.b lb))
  | 9 => acc f .kdst .src .src (.vcmpGeu f.g f.d (srcOf f.a la) (srcOf f.b lb))
  | _ => .error .function

/-- Major 0x0B (R115). -/
def dec0B (f : Fld) (_la _lb : Word) : Except Bad Instr :=
  match f.fn.toNat with
  | 0 => acc f .kdst .ksrc .ksrc (.kand f.g f.d f.a f.b)
  | 1 => acc f .kdst .ksrc .ksrc (.kor f.g f.d f.a f.b)
  | 2 => acc f .kdst .ksrc .ksrc (.kxor f.g f.d f.a f.b)
  | 3 => acc f .kdst .ksrc .zero (.knot f.g f.d f.a)
  | 4 => acc f .kdst .ksrc .zero (.kmov f.g f.d f.a)
  | 5 => acc f .kdst (.grp 3) .zero (.kfroms f.g f.d f.a)
  | 6 => acc f (.grp 3) .ksrc .zero (.ktos f.g f.d f.a)
  | _ => .error .function

/-- Major 0x0C (R115). -/
def dec0C (f : Fld) (la lb : Word) : Except Bad Instr :=
  match f.fn.toNat with
  | 0 => acc f .dst .src .src (.vfadd f.g f.d (srcOf f.a la) (srcOf f.b lb))
  | 1 => acc f .dst .src .src (.vfsub f.g f.d (srcOf f.a la) (srcOf f.b lb))
  | 2 => acc f .dst .src .src (.vfmul f.g f.d (srcOf f.a la) (srcOf f.b lb))
  | 3 => acc f .reg .src .src (.vfma f.g f.d (srcOf f.a la) (srcOf f.b lb))
  | 4 => acc f .reg .src .src (.vfms f.g f.d (srcOf f.a la) (srcOf f.b lb))
  | 5 => acc f .reg .src .src (.vfnma f.g f.d (srcOf f.a la) (srcOf f.b lb))
  | 6 => acc f .dst .src .src (.vfmin f.g f.d (srcOf f.a la) (srcOf f.b lb))
  | 7 => acc f .dst .src .src (.vfmax f.g f.d (srcOf f.a la) (srcOf f.b lb))
  | 8 => acc f .dst .src .zero (.vfabs f.g f.d (srcOf f.a la))
  | 9 => acc f .dst .src .zero (.vfneg f.g f.d (srcOf f.a la))
  | 10 => acc f .dst .src .zero (.vfclass f.g f.d (srcOf f.a la))
  | 11 => acc f .dst .src .rnd (.vfrnd f.g f.d (srcOf f.a la) f.b)
  | _ => .error .function

/-- Major 0x0D (R115). -/
def dec0D (f : Fld) (la lb : Word) : Except Bad Instr :=
  match f.fn.toNat with
  | 0 => acc f .pdst .pair .pair (.vdadd f.g f.d (srcOf f.a la) (srcOf f.b lb))
  | 1 => acc f .pdst .pair .pair (.vdsub f.g f.d (srcOf f.a la) (srcOf f.b lb))
  | 2 => acc f .pdst .pair .pair (.vdmul f.g f.d (srcOf f.a la) (srcOf f.b lb))
  | 3 => acc f .preg .pair .pair (.vdfma f.g f.d (srcOf f.a la) (srcOf f.b lb))
  | 4 => acc f .pdst .pair .pair (.vdmin f.g f.d (srcOf f.a la) (srcOf f.b lb))
  | 5 => acc f .pdst .pair .pair (.vdmax f.g f.d (srcOf f.a la) (srcOf f.b lb))
  | _ => .error .function

/-- Major 0x0E (R115, R116): bit 31 zero, bit 30 the width, bits 29:27 the condition. -/
def dec0E (f : Fld) (la lb : Word) : Except Bad Instr :=
  let dbl := f.fn.getLsbD 3
  if f.fn.getLsbD 4 then .error .field else
  match (f.fn.extractLsb' 0 3).toNat with
  | 0 => acc f .kdst (srcW dbl) (srcW dbl) (.vfcmpEq dbl f.g f.d (srcOf f.a la) (srcOf f.b lb))
  | 1 => acc f .kdst (srcW dbl) (srcW dbl) (.vfcmpNe dbl f.g f.d (srcOf f.a la) (srcOf f.b lb))
  | 2 => acc f .kdst (srcW dbl) (srcW dbl) (.vfcmpLt dbl f.g f.d (srcOf f.a la) (srcOf f.b lb))
  | 3 => acc f .kdst (srcW dbl) (srcW dbl) (.vfcmpLe dbl f.g f.d (srcOf f.a la) (srcOf f.b lb))
  | 4 => acc f .kdst (srcW dbl) (srcW dbl) (.vfcmpGt dbl f.g f.d (srcOf f.a la) (srcOf f.b lb))
  | 5 => acc f .kdst (srcW dbl) (srcW dbl) (.vfcmpGe dbl f.g f.d (srcOf f.a la) (srcOf f.b lb))
  | 6 => acc f .kdst (srcW dbl) (srcW dbl) (.vfcmpUn dbl f.g f.d (srcOf f.a la) (srcOf f.b lb))
  | _ => acc f .kdst (srcW dbl) (srcW dbl) (.vfcmpOrd dbl f.g f.d (srcOf f.a la) (srcOf f.b lb))

/-- Major 0x0F (R115, R180): the function is the conversion pair. -/
def dec0F (f : Fld) (la _lb : Word) : Except Bad Instr :=
  let pair := f.fn
  if pair == 31 then .error .function else acc f (dstW (cvtDst64 pair)) (srcW (cvtSrc64 pair)) .rnd (.vcvt pair f.g f.d (srcOf f.a la) f.b)

/-- Major 0x10 (R115). -/
def dec10 (f : Fld) (la lb : Word) : Except Bad Instr :=
  match f.fn.toNat with
  | 0 => acc f .dst .src .src (.pk4 f.g f.d (srcOf f.a la) (srcOf f.b lb))
  | 1 => acc f .dst .src .src (.upk4 f.g f.d (srcOf f.a la) (srcOf f.b lb))
  | 2 => acc f (.grp 3) (.grp 4) .zero (.pk6 f.g f.d f.a)
  | 3 => acc f (.grp 4) (.grp 3) .zero (.upk6 f.g f.d f.a)
  | 4 => acc f .dst .src .src (.pkts f.g f.d (srcOf f.a la) (srcOf f.b lb))
  | 5 => acc f .dst .src .src (.upkts f.g f.d (srcOf f.a la) (srcOf f.b lb))
  | 6 => acc f .dst .src .src (.vscale f.g f.d (srcOf f.a la) (srcOf f.b lb))
  | _ => .error .function

/-- Major 0x11 (R115). -/
def dec11 (f : Fld) (la _lb : Word) : Except Bad Instr :=
  match f.fn.toNat with
  | 0 => acc f .dst .src .zero (.srcp f.g f.d (srcOf f.a la))
  | 1 => acc f .dst .src .zero (.srsq f.g f.d (srcOf f.a la))
  | 2 => acc f .dst .src .zero (.ssqrt f.g f.d (srcOf f.a la))
  | 3 => acc f .dst .src .zero (.sexp2 f.g f.d (srcOf f.a la))
  | 4 => acc f .dst .src .zero (.slog2 f.g f.d (srcOf f.a la))
  | 5 => acc f .dst .src .zero (.ssin f.g f.d (srcOf f.a la))
  | 6 => acc f .dst .src .zero (.scos f.g f.d (srcOf f.a la))
  | 7 => acc f .dst .src .zero (.stanh f.g f.d (srcOf f.a la))
  | 8 => acc f .dst .src .zero (.sact f.g f.d (srcOf f.a la))
  | 9 => acc f .zero .src .zero (.atld f.g (srcOf f.a la))
  | 10 => acc f .zero .zero .zero (.atswap f.g)
  | _ => .error .function

/-- Major 0x12 (R115). -/
def dec12 (f : Fld) (la lb : Word) : Except Bad Instr :=
  match f.fn.toNat with
  | 0 => acc f .dst .src .mode (.nbl f.g f.d (srcOf f.a la) f.b)
  | 1 => acc f .dst .src .mode (.nbr f.g f.d (srcOf f.a la) f.b)
  | 2 => acc f .dst .src .src (.nrot f.g f.d (srcOf f.a la) (srcOf f.b lb))
  | _ => .error .function

/-- Major 0x18, LD (R116): bits 31:29 the size, 28:27 the scale. -/
def dec18 (f : Fld) (la lb : Word) : Except Bad Instr :=
  let size := f.fn.extractLsb' 2 3
  let scale := f.fn.extractLsb' 0 2
  if size.toNat ≤ 5 then acc f (dstW (size == 5)) .pair .src (.ld size scale f.g f.d (srcOf f.a la) (srcOf f.b lb)) else .error .field

/-- Major 0x19, ST (R116): bits 31:29 the size, 28:27 the scale. -/
def dec19 (f : Fld) (la lb : Word) : Except Bad Instr :=
  let size := f.fn.extractLsb' 2 3
  let scale := f.fn.extractLsb' 0 2
  if (size == 0 || size == 2 || size == 4 || size == 5) then acc f (regW (size == 5)) .pair .src (.st size scale f.g f.d (srcOf f.a la) (srcOf f.b lb)) else .error .field

/-- Major 0x1A, SLD (R116): bits 31:29 the size, 28:27 the scale. -/
def dec1A (f : Fld) (la lb : Word) : Except Bad Instr :=
  let size := f.fn.extractLsb' 2 3
  let scale := f.fn.extractLsb' 0 2
  if size.toNat ≤ 5 then acc f (dstW (size == 5)) .pair .src (.sld size scale f.g f.d (srcOf f.a la) (srcOf f.b lb)) else .error .field

/-- Major 0x1B, SST (R116): bits 31:29 the size, 28:27 the scale. -/
def dec1B (f : Fld) (la lb : Word) : Except Bad Instr :=
  let size := f.fn.extractLsb' 2 3
  let scale := f.fn.extractLsb' 0 2
  if (size == 0 || size == 2 || size == 4 || size == 5) then acc f (regW (size == 5)) .pair .src (.sst size scale f.g f.d (srcOf f.a la) (srcOf f.b lb)) else .error .field

/-- Major 0x1C, LDSP (R116): bits 31:29 the size, 28:27 the scale. -/
def dec1C (f : Fld) (la lb : Word) : Except Bad Instr :=
  let size := f.fn.extractLsb' 2 3
  let scale := f.fn.extractLsb' 0 2
  if size.toNat ≤ 5 then acc f (dstW (size == 5)) .src .src (.ldsp size scale f.g f.d (srcOf f.a la) (srcOf f.b lb)) else .error .field

/-- Major 0x1D, STSP (R116): bits 31:29 the size, 28:27 the scale. -/
def dec1D (f : Fld) (la lb : Word) : Except Bad Instr :=
  let size := f.fn.extractLsb' 2 3
  let scale := f.fn.extractLsb' 0 2
  if (size == 0 || size == 2 || size == 4 || size == 5) then acc f (regW (size == 5)) .src .src (.stsp size scale f.g f.d (srcOf f.a la) (srcOf f.b lb)) else .error .field

/-- Major 0x1E, TLD (R116): bits 31:29 the size. -/
def dec1E (f : Fld) (_la _lb : Word) : Except Bad Instr :=
  let size := f.fn.extractLsb' 2 3
  if f.fn.extractLsb' 0 2 == 0 && size.toNat ≤ 5 then acc f (dstW (size == 5)) .idx16 .reg (.tld size f.g f.d f.a f.b) else .error .field

/-- Major 0x1F, TST (R116): bits 31:29 the size. -/
def dec1F (f : Fld) (_la _lb : Word) : Except Bad Instr :=
  let size := f.fn.extractLsb' 2 3
  if f.fn.extractLsb' 0 2 == 0 && (size == 0 || size == 2 || size == 4 || size == 5) then acc f (regW (size == 5)) .idx16 .reg (.tst size f.g f.d f.a f.b) else .error .field

/-- Major 0x20, LDACQ (R116): bits 31:29 the scope, 28:27 the size. -/
def dec20 (f : Fld) (la lb : Word) : Except Bad Instr :=
  let scope := f.fn.extractLsb' 2 3
  let size := f.fn.extractLsb' 0 2
  if scope.toNat ≤ 5 && size.toNat ≤ 1 then acc f (dstW (size == 1)) .pair .src (.ldacq scope size f.g f.d (srcOf f.a la) (srcOf f.b lb)) else .error .field

/-- Major 0x21, STREL (R116): bits 31:29 the scope, 28:27 the size. -/
def dec21 (f : Fld) (la lb : Word) : Except Bad Instr :=
  let scope := f.fn.extractLsb' 2 3
  let size := f.fn.extractLsb' 0 2
  if scope.toNat ≤ 5 && size.toNat ≤ 1 then acc f (regW (size == 1)) .pair .src (.strel scope size f.g f.d (srcOf f.a la) (srcOf f.b lb)) else .error .field

/-- Major 0x22, FENCE (R116): bits 31:29 the scope, 28 `ack`, 27 `log`. -/
def dec22 (f : Fld) (_la _lb : Word) : Except Bad Instr :=
  let scope := f.fn.extractLsb' 2 3
  let ack := f.fn.getLsbD 1
  let log := f.fn.getLsbD 0
  if scope.toNat ≤ 5 then acc f .zero .zero .zero (.fence scope ack log f.g) else .error .field

/-- Major 0x23 (R115). -/
def dec23 (f : Fld) (la lb : Word) : Except Bad Instr :=
  match f.fn.toNat with
  | 0 => acc f .dst .src .src (.bar f.g f.d (srcOf f.a la) (srcOf f.b lb))
  | 1 => acc f .dst .src .src (.bara f.g f.d (srcOf f.a la) (srcOf f.b lb))
  | 2 => acc f .dst .src .src (.barw f.g f.d (srcOf f.a la) (srcOf f.b lb))
  | 3 => acc f .dst .zero .zero (.dbar f.g f.d)
  | 4 => acc f .dst .pair .src (.waitw f.g f.d (srcOf f.a la) (srcOf f.b lb))
  | 5 => acc f .zero .pair .zero (.wakew f.g (srcOf f.a la))
  | _ => .error .function

/-- Major 0x24 (R115). -/
def dec24 (f : Fld) (la lb : Word) : Except Bad Instr :=
  match f.fn.toNat with
  | 0 => acc f .idx16 .src .zero (.cpy f.g f.d (srcOf f.a la))
  | 1 => acc f .zero .src .src (.give f.g (srcOf f.a la) (srcOf f.b lb))
  | 2 => acc f .zero .src .src (.take f.g (srcOf f.a la) (srcOf f.b lb))
  | 3 => acc f .pdst .idx16 .zero (.hwait f.g f.d f.a)
  | 4 => acc f .dst .idx16 .zero (.htest f.g f.d f.a)
  | 5 => acc f .zero .idx16 .zero (.hcancel f.g f.a)
  | 6 => acc f .idx16 .idx16 .src (.hpass f.g f.d f.a (srcOf f.b lb))
  | _ => .error .function

/-- Major 0x25 (R115). -/
def dec25 (f : Fld) (la lb : Word) : Except Bad Instr :=
  match f.fn.toNat with
  | 0 => acc f .dst .src (.grp 2) (.spawn f.g f.d (srcOf f.a la) f.b)
  | 1 => acc f .dst .zero .src (.steal f.g f.d (srcOf f.b lb))
  | 2 => acc f .dst .src .src (.tdone f.g f.d (srcOf f.a la) (srcOf f.b lb))
  | 3 => acc f .dst .src .src (.remq f.g f.d (srcOf f.a la) (srcOf f.b lb))
  | 4 => acc f .dst .src .zero (.pwrget f.g f.d (srcOf f.a la))
  | 5 => acc f .zero .src .zero (.pwrrel f.g (srcOf f.a la))
  | _ => .error .function

/-- Major 0x26 (R115). -/
def dec26 (f : Fld) (la lb : Word) : Except Bad Instr :=
  match f.fn.toNat with
  | 0 => acc f .idx16 .src (.grp 4) (.wsig f.g f.d (srcOf f.a la) f.b)
  | 1 => acc f .reg .src .src (.allred f.g f.d (srcOf f.a la) (srcOf f.b lb))
  | 2 => acc f .dst .pair .src (.wincfg f.g f.d (srcOf f.a la) (srcOf f.b lb))
  | 3 => acc f .pdst .pair .zero (.ntime f.g f.d (srcOf f.a la))
  | _ => .error .function

/-- Major 0x27 (R115). -/
def dec27 (f : Fld) (la lb : Word) : Except Bad Instr :=
  match f.fn.toNat with
  | 0 => acc f .zero .src .src (.skclr f.g (srcOf f.a la) (srcOf f.b lb))
  | 1 => acc f .preg (.grp 2) .pair (.skins f.g f.d f.a (srcOf f.b lb))
  | 2 => acc f .idx16 .src .zero (.skrecon f.g f.d (srcOf f.a la))
  | 3 => acc f (.grp 4) .idx16 .zero (.skstat f.g f.d f.a)
  | _ => .error .function

/-- Majors 0x28 to 0x2D, the atomics at the scope the major gives (R115). -/
def dec28 (f : Fld) (la lb : Word) : Except Bad Instr :=
  let scope := f.maj.extractLsb' 0 3
  let dbl := f.fn.getLsbD 4
  match (f.fn.extractLsb' 0 4).toNat with
  | 0 => if scope.toNat ≤ 5 then acc f (dstW dbl) .pair (srcW dbl) (.aadd scope dbl f.g f.d (srcOf f.a la) (srcOf f.b lb)) else .error .field
  | 1 => if scope.toNat ≤ 5 then acc f (dstW dbl) .pair (srcW dbl) (.asub scope dbl f.g f.d (srcOf f.a la) (srcOf f.b lb)) else .error .field
  | 2 => if scope.toNat ≤ 5 then acc f (dstW dbl) .pair (srcW dbl) (.amin scope dbl f.g f.d (srcOf f.a la) (srcOf f.b lb)) else .error .field
  | 3 => if scope.toNat ≤ 5 then acc f (dstW dbl) .pair (srcW dbl) (.amax scope dbl f.g f.d (srcOf f.a la) (srcOf f.b lb)) else .error .field
  | 4 => if scope.toNat ≤ 5 then acc f (dstW dbl) .pair (srcW dbl) (.aminu scope dbl f.g f.d (srcOf f.a la) (srcOf f.b lb)) else .error .field
  | 5 => if scope.toNat ≤ 5 then acc f (dstW dbl) .pair (srcW dbl) (.amaxu scope dbl f.g f.d (srcOf f.a la) (srcOf f.b lb)) else .error .field
  | 6 => if scope.toNat ≤ 5 then acc f (dstW dbl) .pair (srcW dbl) (.aand scope dbl f.g f.d (srcOf f.a la) (srcOf f.b lb)) else .error .field
  | 7 => if scope.toNat ≤ 5 then acc f (dstW dbl) .pair (srcW dbl) (.aor scope dbl f.g f.d (srcOf f.a la) (srcOf f.b lb)) else .error .field
  | 8 => if scope.toNat ≤ 5 then acc f (dstW dbl) .pair (srcW dbl) (.axor scope dbl f.g f.d (srcOf f.a la) (srcOf f.b lb)) else .error .field
  | 9 => if scope.toNat ≤ 5 then acc f (dstW dbl) .pair (srcW dbl) (.axchg scope dbl f.g f.d (srcOf f.a la) (srcOf f.b lb)) else .error .field
  | 10 => if scope.toNat ≤ 5 then acc f (dstW dbl) .pair (casW dbl) (.acas scope dbl f.g f.d (srcOf f.a la) f.b) else .error .field
  | 11 => if scope.toNat ≤ 5 then acc f (dstW dbl) .pair (srcW dbl) (.afadd scope dbl f.g f.d (srcOf f.a la) (srcOf f.b lb)) else .error .field
  | _ => .error .function

/-- Major 0x30, engine commands (R117, R197). -/
def dec30 (f : EFld) : Except Bad Instr :=
  match f.fn.toNat with
  | 0 => accept (Kind.ok .preg f.a && Kind.ok (.grp 2) f.b && f.c == 0 && f.tok &&& 9 == 0) (.wload f.a f.b f.tok)
  | 1 => accept (Kind.ok .preg f.a && Kind.ok (.grp 3) f.b && f.c.toNat ≤ 7 && f.tok &&& 9 == 0) (.rload f.a f.b f.c f.tok)
  | 2 => accept (f.a.toNat ≤ 7 && f.b.toNat ≤ 1) (.mmul f.a f.b f.c f.tok)
  | 3 => accept (Kind.ok .reg f.a && f.b.toNat ≤ 15 && f.b &&& 3 != 3) (.chb f.a f.b f.c f.tok)
  | 4 => accept (f.a == 0 && f.b == 0) (.che f.c f.tok)
  | 5 => accept (Kind.ok .preg f.a && Kind.ok (.grp 2) f.b && f.tok &&& 6 == 0) (.accst f.a f.b f.c f.tok)
  | 6 => accept (Kind.ok .reg f.a && Kind.ok (.grp 8) f.b && f.c.toNat ≤ 5 && f.tok == 0) (.nest f.a f.b f.c)
  | 7 => accept (1 ≤ f.a.toNat && f.a.toNat ≤ 8 && f.b == 0 && f.c == 0 && f.tok == 0) (.go f.a)
  | 8 => accept (Kind.ok .reg f.a && f.b == 0 && f.c == 0) (.vcset f.a f.tok)
  | 9 => accept (f.a == 0 && f.b == 0) (.shdw f.c f.tok)
  | 10 => accept (f.a == 0 && f.b == 0) (.scmt f.c f.tok)
  | 11 => accept (f.a == 0 && f.b == 0) (.sdsc f.c f.tok)
  | 12 => accept (f.a == 0 && f.b == 0 && f.c.toNat ≤ 4 && f.tok == 0) (.qfuse f.c)
  | 13 => accept (f.a == 0 && f.b == 0 && f.c == 0 && f.tok == 0) (.qsplit)
  | _ => .error .function

/-- The instruction of a 32-bit word, given the literal words that stand for source A and source B. -/
def dec32 (w la lb : Word) : Except Bad Instr :=
  let f := Fld.unpack w
  match f.maj.toNat with
  | 0 => if f.fn == 0 && f.g == 0 && f.b.extractLsb' 3 3 == 0 then .ok (.blk (f.b.extractLsb' 0 3) f.a f.d) else .error .field
  | 1 => if f.fn == 0 && f.g == 0 then
      .ok (.rep (f.b.extractLsb' 2 4) (f.b.extractLsb' 0 2 ++ f.a.extractLsb' 4 2) (f.a.extractLsb' 0 4) f.d) else .error .field
  | 2 => dec02 f la lb
  | 3 => dec03 f la lb
  | 4 => dec04 f la lb
  | 5 => dec05 f la lb
  | 6 => dec06 f la lb
  | 7 => dec07 f la lb
  | 8 => dec08 f la lb
  | 9 => dec09 f la lb
  | 10 => dec0A f la lb
  | 11 => dec0B f la lb
  | 12 => dec0C f la lb
  | 13 => dec0D f la lb
  | 14 => dec0E f la lb
  | 15 => dec0F f la lb
  | 16 => dec10 f la lb
  | 17 => dec11 f la lb
  | 18 => dec12 f la lb
  | 24 => dec18 f la lb
  | 25 => dec19 f la lb
  | 26 => dec1A f la lb
  | 27 => dec1B f la lb
  | 28 => dec1C f la lb
  | 29 => dec1D f la lb
  | 30 => dec1E f la lb
  | 31 => dec1F f la lb
  | 32 => dec20 f la lb
  | 33 => dec21 f la lb
  | 34 => dec22 f la lb
  | 35 => dec23 f la lb
  | 36 => dec24 f la lb
  | 37 => dec25 f la lb
  | 38 => dec26 f la lb
  | 39 => dec27 f la lb
  | 40 | 41 | 42 | 43 | 44 | 45 => dec28 f la lb
  | 48 => dec30 (EFld.unpack w)
  | _ => .error .major

/-- The instruction of a compact halfword (R110). -/
noncomputable def dec16 (h : Half) : Except Bad Instr :=
  let a := h.extractLsb' 6 5
  let b := h.extractLsb' 11 5
  match (h.extractLsb' 1 5).toNat with
  | 1 => .ok (.movCompact a b)
  | 2 => .ok (.addCompact a b)
  | 3 => .ok (.subCompact a b)
  | 4 => .ok (.andCompact a b)
  | 5 => .ok (.orCompact a b)
  | 6 => .ok (.xorCompact a b)
  | 7 => .ok (.addImmCompact a b)
  | 8 => .ok (.shlCompact a b)
  | 9 => .ok (.shrCompact a b)
  | 10 => .ok (.sarCompact a b)
  | 11 => .ok (.movImmCompact a b)
  | 12 => .ok (.vmovCompact a b)
  | 13 => .ok (.vaddCompact a b)
  | 14 => .ok (.vfaddCompact a b)
  | 15 => .ok (.vfmulCompact a b)
  | 16 => accept (a.toNat ≤ 7 && b.toNat ≤ 7) (.kmovCompact a b)
  | 17 => accept (a == 0 && b == 0) .nopCompact
  | 18 => accept (a.toNat ≤ 7) (.xferCompact a b)
  | 19 => accept (a.toNat ≤ 7) (.xfernCompact a b)
  | _ => .error .compact

/-- The 32-bit word of two halfwords, the first in bits 15:0 (R105). -/
def wordOf (lo hi : Half) : Word := hi ++ lo

/-- The two halfwords of a word, bits 15:0 first (R105). -/
def halves (w : Word) : List Half := [w.extractLsb' 0 16, w.extractLsb' 16 16]

/-- The length in halfwords of what begins a sequence: 1 for a compact instruction, 2 for a 32-bit instruction, and 2
for each literal word (R105, R108). -/
def ilen : List Half → Nat
  | [] => 1
  | h :: t =>
    if h.getLsbD 0 then
      match t with
      | [] => 2
      | h1 :: _ =>
        let l := litWords (Fld.unpack (wordOf h h1))
        2 + (if l.1 then 2 else 0) + (if l.2 then 2 else 0)
    else 1

/-- The literal word at a position, 0 where the sequence ends. -/
def litAt : List Half → Word
  | l :: h :: _ => wordOf l h
  | _ => 0

/-- The instruction that begins a halfword sequence (R105). -/
noncomputable def decode (hs : List Half) : Except Bad Instr :=
  if hs.length < ilen hs then .error .short
  else match hs with
    | [] => .error .short
    | h :: t =>
      if h.getLsbD 0 then
        match t with
        | [] => .error .short
        | h1 :: rest =>
          let l := litWords (Fld.unpack (wordOf h h1))
          dec32 (wordOf h h1) (litAt rest) (litAt (if l.1 then rest.drop 2 else rest))
      else dec16 h

/-- The fields of a policy operation are legal (R335, R336, R338). -/
def polOk (h : Half) : Bool :=
  let z := h.extractLsb' 3 2 == 0
  match (h.extractLsb' 11 5).toNat with
  | 0 | 1 | 9 | 10 | 11 => true
  | 2 | 3 | 4 | 5 | 6 | 7 | 8 | 12 | 13 | 18 | 19 | 20 | 21 | 24 => z
  | 14 | 15 | 16 | 17 => h.extractLsb' 0 5 != 0
  | 22 | 23 => h.extractLsb' 3 5 == 0
  | _ => false

/-- The policy operation of a halfword (R335, R336, R338). -/
noncomputable def decPol (h : Half) : Except Bad Instr :=
  let d := h.extractLsb' 8 3
  let a := h.extractLsb' 5 3
  let b := h.extractLsb' 0 3
  let imm := h.extractLsb' 0 5
  if !polOk h then .error (if 24 < (h.extractLsb' 11 5).toNat then .policy else .field) else
  match (h.extractLsb' 11 5).toNat with
  | 0 => .ok (.polLdi d (h.extractLsb' 0 8))
  | 1 => .ok (.polLdih d (h.extractLsb' 0 8))
  | 2 => .ok (.polAdd d a b)
  | 3 => .ok (.polSub d a b)
  | 4 => .ok (.polAnd d a b)
  | 5 => .ok (.polOr d a b)
  | 6 => .ok (.polXor d a b)
  | 7 => .ok (.polMinu d a b)
  | 8 => .ok (.polMaxu d a b)
  | 9 => .ok (.polShl d a imm)
  | 10 => .ok (.polShr d a imm)
  | 11 => .ok (.polAddi d a imm)
  | 12 => .ok (.polRqf d a b)
  | 13 => .ok (.polRuf d a b)
  | 14 => .ok (.polBeq d a imm)
  | 15 => .ok (.polBne d a imm)
  | 16 => .ok (.polBltu d a imm)
  | 17 => .ok (.polBgeu d a imm)
  | 18 => .ok (.polArgminq d a b)
  | 19 => .ok (.polArgmaxq d a b)
  | 20 => .ok (.polArgminu d a b)
  | 21 => .ok (.polArgmaxu d a b)
  | 22 => .ok (.polLdp d b)
  | 23 => .ok (.polStp d b)
  | 24 => match d.toNat with
      | 0 => .ok (.polDecPick a b)
      | 1 => .ok (.polDecKeep a b)
      | 2 => .ok (.polDecPreempt a b)
      | 3 => .ok (.polDecKill a b)
      | 4 => .ok (.polDecResume a b)
      | 5 => .ok (.polDecNotify a b)
      | 6 => .ok (.polDecSuspend a b)
      | _ => .ok (.polDecFallback a b)
  | _ => .error .policy

/-- The halfwords of a word of the general format with its literal words (R105, R106, R108). -/
def enc (maj : BitVec 6) (fn : BitVec 5) (g : BitVec 2) (d a b : BitVec 6) : List Half :=
  halves (Fld.pack { fn := fn, b := b, a := a, d := d, g := g, maj := maj })

/-- The literal word of a source, as its two halfwords; none for a register. -/
def Src.lits : Src → List Half
  | .reg _ => []
  | .lit w => halves w

/-- The halfwords of an engine command (R117). -/
def encE (fn : BitVec 5) (tok : BitVec 4) (a b : BitVec 6) (c : BitVec 4) : List Half :=
  halves (EFld.pack { c := c, b := b, a := a, fn := fn, tok := tok })

/-- A compact halfword (R110). -/
def encC (op a b : BitVec 5) : List Half := [b ++ a ++ op ++ 0#1]

/-- A policy halfword of form R, B or D (R335). -/
def encP (op : BitVec 5) (d a : BitVec 3) (imm : BitVec 5) : List Half := [op ++ d ++ a ++ imm]

/-- The encoding of an instruction as halfwords; empty for a step of the package that has none. -/
def encode : Instr → List Half
  | .blk neg rep cnt => enc 0 0 0 cnt rep (0#3 ++ neg)
  | .rep sb sa sd cnt => enc 1 0 0 cnt (sa.extractLsb' 0 2 ++ sd) (sb ++ sa.extractLsb' 2 2)
  | .add g d a b => enc 2 0 g d a.code b.code ++ a.lits ++ b.lits
  | .sub g d a b => enc 2 1 g d a.code b.code ++ a.lits ++ b.lits
  | .mul g d a b => enc 2 2 g d a.code b.code ++ a.lits ++ b.lits
  | .mulh g d a b => enc 2 3 g d a.code b.code ++ a.lits ++ b.lits
  | .mulhu g d a b => enc 2 4 g d a.code b.code ++ a.lits ++ b.lits
  | .div g d a b => enc 2 5 g d a.code b.code ++ a.lits ++ b.lits
  | .divu g d a b => enc 2 6 g d a.code b.code ++ a.lits ++ b.lits
  | .rem g d a b => enc 2 7 g d a.code b.code ++ a.lits ++ b.lits
  | .remu g d a b => enc 2 8 g d a.code b.code ++ a.lits ++ b.lits
  | .and g d a b => enc 2 9 g d a.code b.code ++ a.lits ++ b.lits
  | .or g d a b => enc 2 10 g d a.code b.code ++ a.lits ++ b.lits
  | .xor g d a b => enc 2 11 g d a.code b.code ++ a.lits ++ b.lits
  | .andn g d a b => enc 2 12 g d a.code b.code ++ a.lits ++ b.lits
  | .shl g d a b => enc 2 13 g d a.code b.code ++ a.lits ++ b.lits
  | .shr g d a b => enc 2 14 g d a.code b.code ++ a.lits ++ b.lits
  | .sar g d a b => enc 2 15 g d a.code b.code ++ a.lits ++ b.lits
  | .rol g d a b => enc 2 16 g d a.code b.code ++ a.lits ++ b.lits
  | .min g d a b => enc 2 17 g d a.code b.code ++ a.lits ++ b.lits
  | .max g d a b => enc 2 18 g d a.code b.code ++ a.lits ++ b.lits
  | .minu g d a b => enc 2 19 g d a.code b.code ++ a.lits ++ b.lits
  | .maxu g d a b => enc 2 20 g d a.code b.code ++ a.lits ++ b.lits
  | .clz g d a => enc 2 21 g d a.code 0 ++ a.lits
  | .popc g d a => enc 2 22 g d a.code 0 ++ a.lits
  | .bfx g d a b => enc 2 23 g d a.code b.code ++ a.lits ++ b.lits
  | .bfi g d a b => enc 2 24 g d a.code b.code ++ a.lits ++ b.lits
  | .sel g d a b => enc 2 25 g d a.code b.code ++ a.lits ++ b.lits
  | .mov g d a => enc 2 26 g d a.code 0 ++ a.lits
  | .cmpEq g d a b => enc 3 0 g d a.code b.code ++ a.lits ++ b.lits
  | .cmpNe g d a b => enc 3 1 g d a.code b.code ++ a.lits ++ b.lits
  | .cmpLt g d a b => enc 3 2 g d a.code b.code ++ a.lits ++ b.lits
  | .cmpLtu g d a b => enc 3 3 g d a.code b.code ++ a.lits ++ b.lits
  | .cmpLe g d a b => enc 3 4 g d a.code b.code ++ a.lits ++ b.lits
  | .cmpLeu g d a b => enc 3 5 g d a.code b.code ++ a.lits ++ b.lits
  | .cmpGt g d a b => enc 3 6 g d a.code b.code ++ a.lits ++ b.lits
  | .cmpGtu g d a b => enc 3 7 g d a.code b.code ++ a.lits ++ b.lits
  | .cmpGe g d a b => enc 3 8 g d a.code b.code ++ a.lits ++ b.lits
  | .cmpGeu g d a b => enc 3 9 g d a.code b.code ++ a.lits ++ b.lits
  | .add64 g d a b => enc 4 0 g d a.code b.code ++ a.lits ++ b.lits
  | .sub64 g d a b => enc 4 1 g d a.code b.code ++ a.lits ++ b.lits
  | .mul64 g d a b => enc 4 2 g d a.code b.code ++ a.lits ++ b.lits
  | .shl64 g d a b => enc 4 3 g d a.code b.code ++ a.lits ++ b.lits
  | .shr64 g d a b => enc 4 4 g d a.code b.code ++ a.lits ++ b.lits
  | .sar64 g d a b => enc 4 5 g d a.code b.code ++ a.lits ++ b.lits
  | .adda g d a b => enc 4 6 g d a.code b.code ++ a.lits ++ b.lits
  | .prep g d a => enc 5 0 g d a.code 0 ++ a.lits
  | .xfer g a b => enc 5 1 g 0 a b.code ++ b.lits
  | .xfern g a b => enc 5 2 g 0 a b.code ++ b.lits
  | .call g d a b => enc 5 3 g d a b.code ++ b.lits
  | .ret g a b => enc 5 4 g 0 a b.code ++ b.lits
  | .split d a b => enc 5 5 0 d a b
  | .join => enc 5 6 0 0 0 0
  | .yield g => enc 5 7 g 0 0 0
  | .halt g => enc 5 8 g 0 0 0
  | .nop g => enc 5 9 g 0 0 0
  | .vany g d a => enc 6 0 g d a 0
  | .vall g d a => enc 6 1 g d a 0
  | .vbal g d a => enc 6 2 g d a 0
  | .vcnt g d a => enc 6 3 g d a 0
  | .vffs g d a => enc 6 4 g d a 0
  | .vbcast g d a b => enc 6 5 g d a.code b.code ++ a.lits ++ b.lits
  | .regroup d a b => enc 6 6 0 d a.code b.code ++ a.lits ++ b.lits
  | .trap g a => enc 7 0 g 0 a.code 0 ++ a.lits
  | .eret g => enc 7 1 g 0 0 0
  | .csrr g d a => enc 7 2 g d a 0
  | .csrw g d a => enc 7 3 g d a.code 0 ++ a.lits
  | .capr g d a => enc 7 4 g d a.code 0 ++ a.lits
  | .wfi g => enc 7 5 g 0 0 0
  | .ifence g => enc 7 6 g 0 0 0
  | .mapinv g a b => enc 7 7 g 0 a.code b ++ a.lits
  | .harvest g a b => enc 7 8 g 0 a.code b ++ a.lits
  | .keyset g d a => enc 7 9 g d a.code 0 ++ a.lits
  | .keykill g d a => enc 7 10 g d a.code 0 ++ a.lits
  | .polld g d a b => enc 7 11 g d a.code b.code ++ a.lits ++ b.lits
  | .polsw g d a => enc 7 12 g d a.code 0 ++ a.lits
  | .vadd g d a b => enc 8 0 g d a.code b.code ++ a.lits ++ b.lits
  | .vsub g d a b => enc 8 1 g d a.code b.code ++ a.lits ++ b.lits
  | .vmul g d a b => enc 8 2 g d a.code b.code ++ a.lits ++ b.lits
  | .vmulh g d a b => enc 8 3 g d a.code b.code ++ a.lits ++ b.lits
  | .vand g d a b => enc 8 4 g d a.code b.code ++ a.lits ++ b.lits
  | .vor g d a b => enc 8 5 g d a.code b.code ++ a.lits ++ b.lits
  | .vxor g d a b => enc 8 6 g d a.code b.code ++ a.lits ++ b.lits
  | .vshl g d a b => enc 8 7 g d a.code b.code ++ a.lits ++ b.lits
  | .vshr g d a b => enc 8 8 g d a.code b.code ++ a.lits ++ b.lits
  | .vsar g d a b => enc 8 9 g d a.code b.code ++ a.lits ++ b.lits
  | .vmin g d a b => enc 8 10 g d a.code b.code ++ a.lits ++ b.lits
  | .vmax g d a b => enc 8 11 g d a.code b.code ++ a.lits ++ b.lits
  | .vminu g d a b => enc 8 12 g d a.code b.code ++ a.lits ++ b.lits
  | .vmaxu g d a b => enc 8 13 g d a.code b.code ++ a.lits ++ b.lits
  | .vabs g d a => enc 8 14 g d a.code 0 ++ a.lits
  | .vneg g d a => enc 8 15 g d a.code 0 ++ a.lits
  | .vclz g d a => enc 8 16 g d a.code 0 ++ a.lits
  | .vpopc g d a => enc 8 17 g d a.code 0 ++ a.lits
  | .vadds g d a b => enc 8 18 g d a.code b.code ++ a.lits ++ b.lits
  | .vsubs g d a b => enc 8 19 g d a.code b.code ++ a.lits ++ b.lits
  | .vmov g d a => enc 8 20 g d a.code 0 ++ a.lits
  | .vsel g d a b => enc 8 21 g d a.code b.code ++ a.lits ++ b.lits
  | .vmad g d a b => enc 9 0 g d a.code b.code ++ a.lits ++ b.lits
  | .vmadh g d a b => enc 9 1 g d a.code b.code ++ a.lits ++ b.lits
  | .vdot4 g d a b => enc 9 2 g d a.code b.code ++ a.lits ++ b.lits
  | .vdot4u g d a b => enc 9 3 g d a.code b.code ++ a.lits ++ b.lits
  | .vcmpEq g d a b => enc 10 0 g d a.code b.code ++ a.lits ++ b.lits
  | .vcmpNe g d a b => enc 10 1 g d a.code b.code ++ a.lits ++ b.lits
  | .vcmpLt g d a b => enc 10 2 g d a.code b.code ++ a.lits ++ b.lits
  | .vcmpLtu g d a b => enc 10 3 g d a.code b.code ++ a.lits ++ b.lits
  | .vcmpLe g d a b => enc 10 4 g d a.code b.code ++ a.lits ++ b.lits
  | .vcmpLeu g d a b => enc 10 5 g d a.code b.code ++ a.lits ++ b.lits
  | .vcmpGt g d a b => enc 10 6 g d a.code b.code ++ a.lits ++ b.lits
  | .vcmpGtu g d a b => enc 10 7 g d a.code b.code ++ a.lits ++ b.lits
  | .vcmpGe g d a b => enc 10 8 g d a.code b.code ++ a.lits ++ b.lits
  | .vcmpGeu g d a b => enc 10 9 g d a.code b.code ++ a.lits ++ b.lits
  | .kand g d a b => enc 11 0 g d a b
  | .kor g d a b => enc 11 1 g d a b
  | .kxor g d a b => enc 11 2 g d a b
  | .knot g d a => enc 11 3 g d a 0
  | .kmov g d a => enc 11 4 g d a 0
  | .kfroms g d a => enc 11 5 g d a 0
  | .ktos g d a => enc 11 6 g d a 0
  | .vfadd g d a b => enc 12 0 g d a.code b.code ++ a.lits ++ b.lits
  | .vfsub g d a b => enc 12 1 g d a.code b.code ++ a.lits ++ b.lits
  | .vfmul g d a b => enc 12 2 g d a.code b.code ++ a.lits ++ b.lits
  | .vfma g d a b => enc 12 3 g d a.code b.code ++ a.lits ++ b.lits
  | .vfms g d a b => enc 12 4 g d a.code b.code ++ a.lits ++ b.lits
  | .vfnma g d a b => enc 12 5 g d a.code b.code ++ a.lits ++ b.lits
  | .vfmin g d a b => enc 12 6 g d a.code b.code ++ a.lits ++ b.lits
  | .vfmax g d a b => enc 12 7 g d a.code b.code ++ a.lits ++ b.lits
  | .vfabs g d a => enc 12 8 g d a.code 0 ++ a.lits
  | .vfneg g d a => enc 12 9 g d a.code 0 ++ a.lits
  | .vfclass g d a => enc 12 10 g d a.code 0 ++ a.lits
  | .vfrnd g d a b => enc 12 11 g d a.code b ++ a.lits
  | .vdadd g d a b => enc 13 0 g d a.code b.code ++ a.lits ++ b.lits
  | .vdsub g d a b => enc 13 1 g d a.code b.code ++ a.lits ++ b.lits
  | .vdmul g d a b => enc 13 2 g d a.code b.code ++ a.lits ++ b.lits
  | .vdfma g d a b => enc 13 3 g d a.code b.code ++ a.lits ++ b.lits
  | .vdmin g d a b => enc 13 4 g d a.code b.code ++ a.lits ++ b.lits
  | .vdmax g d a b => enc 13 5 g d a.code b.code ++ a.lits ++ b.lits
  | .vfcmpEq dbl g d a b => enc 14 (0#1 ++ BitVec.ofBool dbl ++ 0#3) g d a.code b.code ++ a.lits ++ b.lits
  | .vfcmpNe dbl g d a b => enc 14 (0#1 ++ BitVec.ofBool dbl ++ 1#3) g d a.code b.code ++ a.lits ++ b.lits
  | .vfcmpLt dbl g d a b => enc 14 (0#1 ++ BitVec.ofBool dbl ++ 2#3) g d a.code b.code ++ a.lits ++ b.lits
  | .vfcmpLe dbl g d a b => enc 14 (0#1 ++ BitVec.ofBool dbl ++ 3#3) g d a.code b.code ++ a.lits ++ b.lits
  | .vfcmpGt dbl g d a b => enc 14 (0#1 ++ BitVec.ofBool dbl ++ 4#3) g d a.code b.code ++ a.lits ++ b.lits
  | .vfcmpGe dbl g d a b => enc 14 (0#1 ++ BitVec.ofBool dbl ++ 5#3) g d a.code b.code ++ a.lits ++ b.lits
  | .vfcmpUn dbl g d a b => enc 14 (0#1 ++ BitVec.ofBool dbl ++ 6#3) g d a.code b.code ++ a.lits ++ b.lits
  | .vfcmpOrd dbl g d a b => enc 14 (0#1 ++ BitVec.ofBool dbl ++ 7#3) g d a.code b.code ++ a.lits ++ b.lits
  | .vcvt pair g d a b => enc 15 pair g d a.code b ++ a.lits
  | .pk4 g d a b => enc 16 0 g d a.code b.code ++ a.lits ++ b.lits
  | .upk4 g d a b => enc 16 1 g d a.code b.code ++ a.lits ++ b.lits
  | .pk6 g d a => enc 16 2 g d a 0
  | .upk6 g d a => enc 16 3 g d a 0
  | .pkts g d a b => enc 16 4 g d a.code b.code ++ a.lits ++ b.lits
  | .upkts g d a b => enc 16 5 g d a.code b.code ++ a.lits ++ b.lits
  | .vscale g d a b => enc 16 6 g d a.code b.code ++ a.lits ++ b.lits
  | .srcp g d a => enc 17 0 g d a.code 0 ++ a.lits
  | .srsq g d a => enc 17 1 g d a.code 0 ++ a.lits
  | .ssqrt g d a => enc 17 2 g d a.code 0 ++ a.lits
  | .sexp2 g d a => enc 17 3 g d a.code 0 ++ a.lits
  | .slog2 g d a => enc 17 4 g d a.code 0 ++ a.lits
  | .ssin g d a => enc 17 5 g d a.code 0 ++ a.lits
  | .scos g d a => enc 17 6 g d a.code 0 ++ a.lits
  | .stanh g d a => enc 17 7 g d a.code 0 ++ a.lits
  | .sact g d a => enc 17 8 g d a.code 0 ++ a.lits
  | .atld g a => enc 17 9 g 0 a.code 0 ++ a.lits
  | .atswap g => enc 17 10 g 0 0 0
  | .nbl g d a b => enc 18 0 g d a.code b ++ a.lits
  | .nbr g d a b => enc 18 1 g d a.code b ++ a.lits
  | .nrot g d a b => enc 18 2 g d a.code b.code ++ a.lits ++ b.lits
  | .ld size scale g d a b => enc 24 (size ++ scale) g d a.code b.code ++ a.lits ++ b.lits
  | .st size scale g d a b => enc 25 (size ++ scale) g d a.code b.code ++ a.lits ++ b.lits
  | .sld size scale g d a b => enc 26 (size ++ scale) g d a.code b.code ++ a.lits ++ b.lits
  | .sst size scale g d a b => enc 27 (size ++ scale) g d a.code b.code ++ a.lits ++ b.lits
  | .ldsp size scale g d a b => enc 28 (size ++ scale) g d a.code b.code ++ a.lits ++ b.lits
  | .stsp size scale g d a b => enc 29 (size ++ scale) g d a.code b.code ++ a.lits ++ b.lits
  | .tld size g d a b => enc 30 (size ++ 0#2) g d a b
  | .tst size g d a b => enc 31 (size ++ 0#2) g d a b
  | .ldacq scope size g d a b => enc 32 (scope ++ size) g d a.code b.code ++ a.lits ++ b.lits
  | .strel scope size g d a b => enc 33 (scope ++ size) g d a.code b.code ++ a.lits ++ b.lits
  | .fence scope ack log g => enc 34 (scope ++ BitVec.ofBool ack ++ BitVec.ofBool log) g 0 0 0
  | .bar g d a b => enc 35 0 g d a.code b.code ++ a.lits ++ b.lits
  | .bara g d a b => enc 35 1 g d a.code b.code ++ a.lits ++ b.lits
  | .barw g d a b => enc 35 2 g d a.code b.code ++ a.lits ++ b.lits
  | .dbar g d => enc 35 3 g d 0 0
  | .waitw g d a b => enc 35 4 g d a.code b.code ++ a.lits ++ b.lits
  | .wakew g a => enc 35 5 g 0 a.code 0 ++ a.lits
  | .cpy g d a => enc 36 0 g d a.code 0 ++ a.lits
  | .give g a b => enc 36 1 g 0 a.code b.code ++ a.lits ++ b.lits
  | .take g a b => enc 36 2 g 0 a.code b.code ++ a.lits ++ b.lits
  | .hwait g d a => enc 36 3 g d a 0
  | .htest g d a => enc 36 4 g d a 0
  | .hcancel g a => enc 36 5 g 0 a 0
  | .hpass g d a b => enc 36 6 g d a b.code ++ b.lits
  | .spawn g d a b => enc 37 0 g d a.code b ++ a.lits
  | .steal g d b => enc 37 1 g d 0 b.code ++ b.lits
  | .tdone g d a b => enc 37 2 g d a.code b.code ++ a.lits ++ b.lits
  | .remq g d a b => enc 37 3 g d a.code b.code ++ a.lits ++ b.lits
  | .pwrget g d a => enc 37 4 g d a.code 0 ++ a.lits
  | .pwrrel g a => enc 37 5 g 0 a.code 0 ++ a.lits
  | .wsig g d a b => enc 38 0 g d a.code b ++ a.lits
  | .allred g d a b => enc 38 1 g d a.code b.code ++ a.lits ++ b.lits
  | .wincfg g d a b => enc 38 2 g d a.code b.code ++ a.lits ++ b.lits
  | .ntime g d a => enc 38 3 g d a.code 0 ++ a.lits
  | .skclr g a b => enc 39 0 g 0 a.code b.code ++ a.lits ++ b.lits
  | .skins g d a b => enc 39 1 g d a b.code ++ b.lits
  | .skrecon g d a => enc 39 2 g d a.code 0 ++ a.lits
  | .skstat g d a => enc 39 3 g d a 0
  | .aadd scope dbl g d a b => enc (5#3 ++ scope) (BitVec.ofBool dbl ++ 0#4) g d a.code b.code ++ a.lits ++ b.lits
  | .asub scope dbl g d a b => enc (5#3 ++ scope) (BitVec.ofBool dbl ++ 1#4) g d a.code b.code ++ a.lits ++ b.lits
  | .amin scope dbl g d a b => enc (5#3 ++ scope) (BitVec.ofBool dbl ++ 2#4) g d a.code b.code ++ a.lits ++ b.lits
  | .amax scope dbl g d a b => enc (5#3 ++ scope) (BitVec.ofBool dbl ++ 3#4) g d a.code b.code ++ a.lits ++ b.lits
  | .aminu scope dbl g d a b => enc (5#3 ++ scope) (BitVec.ofBool dbl ++ 4#4) g d a.code b.code ++ a.lits ++ b.lits
  | .amaxu scope dbl g d a b => enc (5#3 ++ scope) (BitVec.ofBool dbl ++ 5#4) g d a.code b.code ++ a.lits ++ b.lits
  | .aand scope dbl g d a b => enc (5#3 ++ scope) (BitVec.ofBool dbl ++ 6#4) g d a.code b.code ++ a.lits ++ b.lits
  | .aor scope dbl g d a b => enc (5#3 ++ scope) (BitVec.ofBool dbl ++ 7#4) g d a.code b.code ++ a.lits ++ b.lits
  | .axor scope dbl g d a b => enc (5#3 ++ scope) (BitVec.ofBool dbl ++ 8#4) g d a.code b.code ++ a.lits ++ b.lits
  | .axchg scope dbl g d a b => enc (5#3 ++ scope) (BitVec.ofBool dbl ++ 9#4) g d a.code b.code ++ a.lits ++ b.lits
  | .acas scope dbl g d a b => enc (5#3 ++ scope) (BitVec.ofBool dbl ++ 10#4) g d a.code b ++ a.lits
  | .afadd scope dbl g d a b => enc (5#3 ++ scope) (BitVec.ofBool dbl ++ 11#4) g d a.code b.code ++ a.lits ++ b.lits
  | .wload a b tok => encE 0 tok a b 0
  | .rload a b c tok => encE 1 tok a b c
  | .mmul a b c tok => encE 2 tok a b c
  | .chb a b c tok => encE 3 tok a b c
  | .che c tok => encE 4 tok 0 0 c
  | .accst a b c tok => encE 5 tok a b c
  | .nest a b c => encE 6 0 a b c
  | .go a => encE 7 0 a 0 0
  | .vcset a tok => encE 8 tok a 0 0
  | .shdw c tok => encE 9 tok 0 0 c
  | .scmt c tok => encE 10 tok 0 0 c
  | .sdsc c tok => encE 11 tok 0 0 c
  | .qfuse c => encE 12 0 0 0 c
  | .qsplit => encE 13 0 0 0 0
  | .movCompact a b => encC 1 a b
  | .addCompact a b => encC 2 a b
  | .subCompact a b => encC 3 a b
  | .andCompact a b => encC 4 a b
  | .orCompact a b => encC 5 a b
  | .xorCompact a b => encC 6 a b
  | .addImmCompact a b => encC 7 a b
  | .shlCompact a b => encC 8 a b
  | .shrCompact a b => encC 9 a b
  | .sarCompact a b => encC 10 a b
  | .movImmCompact a b => encC 11 a b
  | .vmovCompact a b => encC 12 a b
  | .vaddCompact a b => encC 13 a b
  | .vfaddCompact a b => encC 14 a b
  | .vfmulCompact a b => encC 15 a b
  | .kmovCompact a b => encC 16 a b
  | .nopCompact => encC 17 0 0
  | .xferCompact a b => encC 18 a b
  | .xfernCompact a b => encC 19 a b
  | .polLdi d imm => encP 0 d (imm.extractLsb' 5 3) (imm.extractLsb' 0 5)
  | .polLdih d imm => encP 1 d (imm.extractLsb' 5 3) (imm.extractLsb' 0 5)
  | .polAdd d a b => encP 2 d a (0#2 ++ b)
  | .polSub d a b => encP 3 d a (0#2 ++ b)
  | .polAnd d a b => encP 4 d a (0#2 ++ b)
  | .polOr d a b => encP 5 d a (0#2 ++ b)
  | .polXor d a b => encP 6 d a (0#2 ++ b)
  | .polMinu d a b => encP 7 d a (0#2 ++ b)
  | .polMaxu d a b => encP 8 d a (0#2 ++ b)
  | .polShl d a imm => encP 9 d a imm
  | .polShr d a imm => encP 10 d a imm
  | .polAddi d a imm => encP 11 d a imm
  | .polRqf d a f => encP 12 d a (0#2 ++ f)
  | .polRuf d a f => encP 13 d a (0#2 ++ f)
  | .polBeq a b off => encP 14 a b off
  | .polBne a b off => encP 15 a b off
  | .polBltu a b off => encP 16 a b off
  | .polBgeu a b off => encP 17 a b off
  | .polArgminq d a f => encP 18 d a (0#2 ++ f)
  | .polArgmaxq d a f => encP 19 d a (0#2 ++ f)
  | .polArgminu d a f => encP 20 d a (0#2 ++ f)
  | .polArgmaxu d a f => encP 21 d a (0#2 ++ f)
  | .polLdp d n => encP 22 d 0 (0#2 ++ n)
  | .polStp a n => encP 23 a 0 (0#2 ++ n)
  | .polDecPick a b => encP 24 0 a (0#2 ++ b)
  | .polDecKeep a b => encP 24 1 a (0#2 ++ b)
  | .polDecPreempt a b => encP 24 2 a (0#2 ++ b)
  | .polDecKill a b => encP 24 3 a (0#2 ++ b)
  | .polDecResume a b => encP 24 4 a (0#2 ++ b)
  | .polDecNotify a b => encP 24 5 a (0#2 ++ b)
  | .polDecSuspend a b => encP 24 6 a (0#2 ++ b)
  | .polDecFallback a b => encP 24 7 a (0#2 ++ b)
  | .policyDecisionStart .. => []
  | .budgetOverrun .. => []
  | .sliceEnd .. => []
  | .packageReset .. => []
  | .bootStage .. => []
  | .enumeration .. => []
  | .heartbeat .. => []
  | .isolation .. => []
  | .chipletSelfTest .. => []
  | .staleResponseDrop .. => []
  | .patrolScrub .. => []
  | .cxlDeviceLoss .. => []
  | .orngLimWrite .. => []
  | .orngSplitWrite .. => []
  | .wayCleaning .. => []
  | .orangeryEpoch => []
  | .pageWalk .. => []
  | .nextPageWalk .. => []
  | .faultResolve .. => []
  | .faultUnresolvable .. => []
  | .sideLogReplay .. => []
  | .loadPerform .. => []
  | .storePerform .. => []
  | .writePropagate .. => []
  | .cacheEviction .. => []
  | .acquire .. => []
  | .release .. => []
  | .atomicPerform .. => []
  | .writeErrorRemoval .. => []
  | .windowDeliver .. => []
  | .windowAck .. => []
  | .windowTimeout .. => []
  | .requestTimeout .. => []
  | .inboundRemoteAccess .. => []
  | .requestReissue .. => []
  | .flitAck .. => []
  | .linkWidthChange .. => []
  | .laneFailure .. => []
  | .timeSync .. => []
  | .reductionFold .. => []
  | .ueRequest .. => []
  | .managementRequest .. => []
  | .attestationRequest .. => []
  | .circWrite .. => []
  | .circuitUp .. => []
  | .circuitDown .. => []
  | .copyStart .. => []
  | .copyChunk .. => []
  | .copyCompletion .. => []
  | .sfuEntry .. => []
  | .engineEntryIssue .. => []
  | .engineEntryRetire .. => []
  | .nestEmit .. => []
  | .remqBlockDispatch .. => []
  | .reconcileMatch .. => []
  | .reconcileWaitExpiry .. => []
  | .sketchPeel .. => []
  | .fullSetTransfer .. => []
  | .spanTransaction .. => []
  | .spanEviction .. => []
  | .launchAppend .. => []
  | .groupStart .. => []
  | .taskStart .. => []
  | .heldFirePlace .. => []
  | .contextSave .. => []
  | .contextRestore .. => []
  | .migration .. => []
  | .opPointChange .. => []
  | .powerWindow .. => []
  | .asyncTrap .. => []
  | .waitwYield .. => []
  | .waitwReread .. => []
  | .waitwTimer .. => []
  | .ntimeDeadline .. => []
  | .wfiTimeout .. => []
  | .svnFuseWrite .. => []
  | .fenceCu .. => []
  | .fenceQuadrant .. => []
  | .fenceDramBank .. => []
  | .fenceLinkLane .. => []
  | .fenceDie .. => []
  | .registerWrite .. => []
  | .remoteResponse .. => []
  | .reconcileStart .. => []

/-- What this decoder reads from an instruction whose bits are `w`, numbered as the opcode table numbers them: 32 bits
are two halfwords followed by literal words of zeros, 16 bits are a compact instruction, or else a policy operation
(the two share their halfwords and are told apart only by who fetches them). -/
noncomputable def decodeTableWord (nbits w : Nat) : Option Instr :=
  if nbits = 32 then
    match decode (halves (BitVec.ofNat 32 w) ++ [0, 0, 0, 0]) with
    | .ok i => some i
    | .error _ => none
  else if nbits = 16 then
    match decode [BitVec.ofNat 16 w] with
    | .ok i => some i
    | .error _ =>
      match decPol (BitVec.ofNat 16 w) with
      | .ok i => some i
      | .error _ => none
  else none

end Sys2Proof
end

