-- ==== Sys2Proof/Machine/Table.lean ====
section
/-! DEFINITION. Sparse tables: a list of key and value pairs, keys rising. Registers, memory and every other
indexed store of the machine is one of these. Where absent means a default value, `set` keeps the canonical form
(no entry equals the default), so equal contents are equal lists. -/
namespace Sys2Proof.Machine

/-- A sparse table: entries at rising keys. -/
abbrev Tab (α : Type) := List (Nat × α)

/-- The entry at a key, if there is one. -/
def Tab.find? {α : Type} : Tab α → Nat → Option α
  | [], _ => none
  | (k, v) :: t, n => if k = n then some v else Tab.find? t n

/-- The entry at a key, or the default. -/
def Tab.get {α : Type} (d : α) (t : Tab α) (n : Nat) : α :=
  match Tab.find? t n with
  | some v => v
  | none => d

/-- Write an entry in key order, replacing the one that stands at the key. -/
def Tab.put {α : Type} : Tab α → Nat → α → Tab α
  | [], n, v => [(n, v)]
  | (k, w) :: t, n, v =>
    if n = k then (n, v) :: t
    else if n < k then (n, v) :: (k, w) :: t
    else (k, w) :: Tab.put t n v

/-- Remove the entry at a key. -/
def Tab.erase {α : Type} : Tab α → Nat → Tab α
  | [], _ => []
  | (k, w) :: t, n => if k = n then Tab.erase t n else (k, w) :: Tab.erase t n

/-- Write a value in a table whose absent entries are `d`: the default is written by removing the entry. -/
def Tab.set {α : Type} [DecidableEq α] (d : α) (t : Tab α) (n : Nat) (v : α) : Tab α :=
  if v = d then Tab.erase t n else Tab.put t n v

/-- The keys rise strictly. -/
def Tab.sorted {α : Type} : Tab α → Bool
  | [] => true
  | [_] => true
  | (k, _) :: (k', v') :: t => decide (k < k') && Tab.sorted ((k', v') :: t)

/-- The canonical form: keys rise strictly and no entry is the default. -/
def Tab.wf {α : Type} [DecidableEq α] (d : α) (t : Tab α) : Bool :=
  Tab.sorted t && t.all (fun e => decide (e.2 ≠ d))

/-- Remove every entry whose key lies in `lo` to `lo + n - 1`. -/
def Tab.dropRange {α : Type} (t : Tab α) (lo n : Nat) : Tab α :=
  t.filter (fun e => ! (decide (lo ≤ e.1) && decide (e.1 < lo + n)))

/-- The entries whose key lies in `lo` to `lo + n - 1`, keyed from 0. -/
def Tab.slice {α : Type} (t : Tab α) (lo n : Nat) : Tab α :=
  (t.filter (fun e => decide (lo ≤ e.1) && decide (e.1 < lo + n))).map (fun e => (e.1 - lo, e.2))

/-- Build a table by writing `f k` at every key of a list. -/
def Tab.fill {α : Type} [DecidableEq α] (d : α) (t : Tab α) (ks : List Nat) (f : Nat → α) : Tab α :=
  ks.foldl (fun acc k => Tab.set d acc k (f k)) t

/-- The element of a list at a position, or a default. -/
def nth {α : Type} (d : α) (l : List α) (n : Nat) : α := (l[n]?).getD d

/-- Replace the element of a list at a position; nothing where there is none. -/
def setNth {α : Type} : List α → Nat → α → List α
  | [], _, _ => []
  | _ :: t, 0, v => v :: t
  | h :: t, n + 1, v => h :: setNth t n v

/-- Remove the element of a list at a position. -/
def dropNth {α : Type} : List α → Nat → List α
  | [], _ => []
  | _ :: t, 0 => t
  | h :: t, n + 1 => h :: dropNth t n

end Sys2Proof.Machine
end

