-- ==== Sys2Proof/Machine/State.lean ====
section
/-! DEFINITION. The state of one GM8800 package as plain data: every piece of state the spec names (INVENTORY.md,
'## State'), the state after reset, and the reasons a step can stop. -/
namespace Sys2Proof.Machine

/-! ### Agents that execute Jexath (R95, R217) -/

/-- The three profiles (R95). -/
inductive Profile where
  | wave | sequencer | host
  deriving DecidableEq, Repr

/-- States of a handle (R72). -/
inductive HState where
  | idle | pending | done
  deriving DecidableEq, Repr

/-- A handle: its state, the 64-bit status of R73, the operation that will complete it, and the four words SKSTAT
returns for it (R286), empty where it was not last written by SKRECON. -/
structure Handle where
  st     : HState := .idle
  status : DWord := 0
  op     : Nat := 0
  stat   : List Word := []
  deriving DecidableEq, Repr

/-- An entry of the divergence stack (R294, R297). -/
structure DEntry where
  join  : DWord := 0
  defer : DWord := 0
  dmask : Mask := 0
  rmask : Mask := 0
  run2  : Bool := false
  deriving DecidableEq, Repr

/-- A pending transfer (R287): a target; a SPLIT's taken start, join point and the lanes of the two paths; a JOIN;
an ERET. -/
inductive Xfer where
  | none
  | jump (t : DWord)
  | split (taken join : DWord) (tm fm : Mask)
  | join
  | eret
  deriving DecidableEq, Repr

/-- A REP in progress (R113): its count, the next iteration and the three signed steps. -/
structure RepSt where
  cnt   : Nat
  i     : Nat
  stepd : BitVec 4
  stepa : BitVec 4
  stepb : BitVec 4
  deriving DecidableEq, Repr

/-- The run state (R95, R111): outside a run, `pc` is the header to fetch next; inside, the fetched code, the
instruction count, the passes left, the position and the pending transfer. `ilen` is the length in halfwords of the
instruction being issued; `resumed` says that the next issue is the first after an ERET, or of a REP that was interrupted (R113); `atEnd` that the
last instruction of a pass has retired and the end of the pass waits (R100, R221). -/
structure Run where
  inRun : Bool := false
  pc    : DWord := 0
  code  : List Half := []
  neg   : BitVec 3 := 0
  cnt   : Nat := 0
  left  : Nat := 0
  idx   : Nat := 0
  off   : Nat := 0
  ilen  : Nat := 0
  pend  : Xfer := .none
  rep   : Option RepSt := none
  resumed : Bool := false
  atEnd : Bool := false
  deriving DecidableEq, Repr

/-- What a waiting agent waits for. -/
inductive Wait where
  | none
  /-- held on a not-present fault at this address (R60) -/
  | held (va : DWord)
  /-- BAR after its arrival: the barrier and the phase token (R237) -/
  | barrier (addr : Nat) (tok : Word)
  /-- WAITW on this address: re-reading, out of its slot, made ready again, or answered by another package (R239) -/
  | waitw (ea : DWord) | waitwOut (ea : DWord) | waitwReady (ea : DWord) | waitwGot (ea : DWord) (v : Word)
  /-- DBAR and ALLRED after their arrival (R238, R260) -/
  | dbar (n : Nat)
  | allred (n : Nat)
  /-- ALLRED before its arrival, until its release is performed: its contribution, read at issue (R260) -/
  | contrib (c : List DWord)
  /-- a STEAL whose victim policy code names (R324); the answer once it has come -/
  | steal (ans : Option Word)
  /-- REMQ until its block is dispatched or refused (R326); the status once it has come -/
  | remq (ans : Option Word)
  /-- WFI since a moment; true once its millisecond has passed (R352) -/
  | wfi (out : Bool) (since : DWord)
  /-- NTIME until `ntime` reaches its deadline (R261) -/
  | ntime (dl : DWord)
  /-- REGROUP arrived first: address, partner and range word (R300) -/
  | regroup (pc : DWord) (partner : Word) (range : Word)
  /-- REGROUP answered with a status -/
  | regrouped (st : Word)
  /-- a load through a window until every response has arrived (R136) -/
  | winLoad
  /-- a store through windows of which this many posted writes have gone out (R136) -/
  | winStore (n : Nat)
  /-- FENCE until its acquire is performed (R234) -/
  | fence
  /-- TAKE until the operations that its plots were bound to have completed: copies and reconciliations (R65) -/
  | take (ops : List Nat)
  /-- a trap of this cause that has been entered, until the line of its table entry at this address homed on another package
  has come (R242, R348) -/
  | trapFar (c : Nat) (va : DWord)
  /-- the lines read so far of code or of an image homed on another package, and the next is awaited (R242) -/
  | far (lines : List (Nat × List Byte))
  /-- KEYKILL while the slot is KILLING (R35) -/
  | keykill (n : Nat)
  /-- POLSW until the partition's swaps exceed this count (R344) -/
  | polsw (n : Nat)
  /-- ended by HALT or by a trap without a handler, until its accesses are performed (R293, R349) -/
  | ending
  /-- any other instruction that waits and is issued again: TAKE, HWAIT, CPY and the like -/
  | again
  deriving DecidableEq, Repr

/-- Where an open access or a pending write goes (R218, R219): physical memory at an address through a page that is
or is not `unc`, under a key slot; an address homed on another package; a window. -/
inductive Loc where
  | mem (pa : Nat) (unc : Bool) (slot : BitVec 8)
  | remote (pkg : Nat) (va : DWord)
  | win (w off : Nat)
  deriving DecidableEq, Repr

/-- Where an access delivers: a scalar, a scalar pair, a vector register or pair in one lane; WAITW's comparison (R239); the
line of code or of an image that an agent waits for. -/
inductive Dest where
  | none
  | waitw
  | line
  | s (r : Nat)
  | sp (r : Nat)
  | v (r lane : Nat)
  | vp (r lane : Nat)
  deriving DecidableEq, Repr

/-- What an entry of the open accesses is (R220, R221, R232, R234). -/
inductive AccKind where
  | load
  | store
  | atomic (op : AtomOp)
  /-- a wave-order point (R232) -/
  | order
  /-- the release of a FENCE with its `log` and `ack` (R234); the acquire that follows it -/
  | fenceRel (log ack : Bool)
  | fenceAcq
  deriving DecidableEq, Repr

/-- An issued access that is not yet performed (R220). `acq` and `rel` mark LDACQ and STREL; `sx` is the size code of
a load (R128); `scope` is the level of its scope (R218); `va` the address for a later trap; accesses of one instruction
carry one `tag` (R129), which rises along the issue stream; `msk` is the part of each byte a store writes (R137);
`tid` the tensor of a tensor access; `born` the time of its issue (R243, R244). In a wave-order point `rel` marks that the agent's side log holds earlier writes. -/
structure Access where
  kind  : AccKind
  loc   : Loc := .mem 0 false 0
  size  : Nat := 0
  scope : Nat := 0
  acq   : Bool := false
  rel   : Bool := false
  data  : DWord := 0
  cmp   : DWord := 0
  dst   : Dest := .none
  sx    : Nat := 4
  va    : DWord := 0
  tag   : Nat := 0
  msk   : Byte := 0xFF
  tid   : Option Nat := none
  born  : DWord := 0
  deriving DecidableEq, Repr

/-- A pending write with the level it has reached (R222), the tag of its instruction, the part of each byte it
writes, the time of its issue, and the number of the step that made it pending. -/
structure PWrite where
  loc   : Loc
  bytes : List Byte
  level : Nat := 0
  va    : DWord := 0
  tag   : Nat := 0
  msk   : Byte := 0xFF
  tid   : Option Nat := none
  born  : DWord := 0
  row   : Bool := false
  seq   : Nat := 0
  deriving DecidableEq, Repr

/-- What a translation is for: a flat virtual address, or a tile of a tensor with a byte offset (R55). -/
inductive VKey where
  | flat (va : DWord)
  | tile (tid tile off : Nat)
  deriving DecidableEq, Repr

/-- A cached translation (R51, R57): for a partition, the page from `base` of `size` bytes (for a tile, the tile
number), and the leaf entry. -/
structure Xlat where
  part : Nat
  tid  : Option Nat
  base : Nat
  size : Nat
  pte  : DWord
  deriving DecidableEq, Repr

/-- A decoupled access queue's stream (R57): its current-page and next-page registers, where its last access lay and the
stride in bytes that led there, the page or tile whose walk is running, and the one whose walk found no translation. -/
structure Stream where
  cur    : Option Xlat := none
  next   : Option Xlat := none
  last   : Option VKey := none
  stride : Int := 0
  walk   : Option VKey := none
  tried  : Option VKey := none
  deriving DecidableEq, Repr

/-- A table entry that a walker keeps (R51): of a partition, the level it was read at, the part of the address it
stands for, and the entry, which names the next table. -/
structure Upper where
  part  : Nat
  level : Nat
  at_   : Nat
  pte   : DWord
  deriving DecidableEq, Repr

/-- An agent: a wave, a sequencer or a host core, with the state of R95, its control registers (R101), its trap bank
(R348) and its part of the ordering machine's state (R220). `inst` is its part of the launch at
its synchronisation level (R317), `lastT` the last reading of the time counter it was given (R254). -/
structure Agent where
  profile : Profile := .wave
  live    : Bool := true
  part    : Nat := 0
  launch  : Nat := 0
  die     : BitVec 8 := 0
  cu      : BitVec 8 := 0
  slot    : BitVec 4 := 0
  gw      : BitVec 4 := 0
  inst    : Nat := 0
  s       : Tab Word := []
  v       : Tab (Tab Word) := []
  k       : Tab Mask := []
  bt      : Tab DWord := []
  h       : Tab Handle := []
  d       : Tab Word := []
  x       : Tab Word := []
  rmode   : Word := 0
  seed    : Word := 0
  rstat   : Word := 0
  dmem    : Word := 0
  npdist  : Word := 1024
  repst   : Word := 0
  tcause  : Word := 0
  tepc    : DWord := 0
  tval    : DWord := 0
  dspill  : Word := 0
  stk     : List DEntry := []
  depth   : Nat := 0
  bankS   : Tab Word := []
  bankBt  : DWord := 0
  run     : Run := {}
  saved   : Run := {}
  strm    : Stream := {}
  opens   : List Access := []
  pend    : List PWrite := []
  mods    : List Nat := []
  nextTag : Nat := 0
  unrep   : Bool := false
  remVal  : DWord := 0
  engVal  : DWord := 0
  recVal  : DWord := 0
  stErr   : List DWord := []
  wait    : Wait := .none
  nDbar   : Nat := 0
  nAllred : Nat := 0
  lastT   : DWord := 0
  yielded : Bool := false
  deriving DecidableEq, Repr

/-! ### Compute units (R64, R192, R303) -/

/-- The owner bit of a plot and its binding (R64). -/
structure Plot where
  engine : Bool := false
  bound  : Option Nat := none
  deriving DecidableEq, Repr

/-- A window (R244, R246, R247): configuration word, binding, allowance units in use, the sent counts of each
agent of the group and path, keyed 4 × wave number + path, and the agents that wait for a unit, in the order in which
they asked. -/
structure Window where
  cfg  : DWord := 0
  bind : Option Nat := none
  used : Nat := 0
  sent : Tab Nat := []
  queue : List Nat := []
  deriving DecidableEq, Repr

/-- A task record (R311): entry address and six argument words. -/
structure TaskRec where
  entry : DWord := 0
  args  : List Word := []
  deriving DecidableEq, Repr

/-- The functions of the special-function unit (R183, R187). -/
inductive SfuOp where
  | rcp | rsq | sqrt | exp2 | log2 | sin | cos | tanh | act | atld
  deriving DecidableEq, Repr

/-- An activation-table bank (R185). -/
structure ActBank where
  xmin  : Word := 0
  xmax  : Word := 0
  flags : Word := 0
  coef  : Tab Word := []
  deriving DecidableEq, Repr

/-- An entry of the SFU queue (R183): the issuing agent, the function, its lanes and operands, the destination, the
bank captured or written, and the image an ATLD read. -/
structure SfuEntry where
  agent : Nat
  op    : SfuOp
  mask  : Mask := 0
  src   : Tab Word := []
  ftz   : Bool := false
  d     : Nat := 0
  bank  : Bool := false
  img   : ActBank := {}
  deriving DecidableEq, Repr

/-- A side-log entry (R61): what an instruction writes in one 64-byte line: byte offset within the line, value and the
part of the byte written, `va` the address of the lowest lane; for a reduction the operation and, for each lane, the offset and the operands; `tag` is its
instruction's, and `row` says that a row of an ACCST wrote it. -/
structure SideEnt where
  agent  : Nat
  part   : Nat
  launch : Nat
  die    : Nat
  inc    : BitVec 8
  key    : VKey
  va     : DWord := 0
  bytes  : List (Nat × Byte × Byte) := []
  op     : Option AtomOp := none
  size   : Nat := 0
  args   : List (Nat × DWord × DWord) := []
  scope  : Nat := 0
  copy   : Option Nat := none
  tag    : Nat := 0
  row    : Bool := false
  deriving DecidableEq, Repr

/-- What a unit is doing (R332). -/
inductive UState where
  | free | running | saving | restoring | reserved
  deriving DecidableEq, Repr

/-- A compute unit by its unit record index: CU 0–191, quadrant 192–223 (R332), with the state of the group that
holds it; `inst` and `dmem` are its group's part of the launch and its members (R317), `sliceAt` is when the group's present
slice began: its start, or the end of its last slice (R376). -/
structure UnitSt where
  holder : Option Nat := none
  ustate : UState := .free
  part   : Nat := 0
  launch : Nat := 0
  ord    : Nat := 0
  inst   : Nat := 0
  dmem   : Word := 0
  waves  : Nat := 0
  start  : DWord := 0
  sliceAt : DWord := 0
  leader : Nat := 0
  plots  : Tab Plot := []
  tags   : List Nat := []
  wins   : Tab Window := []
  deque  : List TaskRec := []
  tokens : Nat := 0
  sfu    : List SfuEntry := []
  act0   : ActBank := {}
  act1   : ActBank := {}
  front  : Bool := false
  slog   : List SideEnt := []
  slogQ  : List Nat := []
  temp   : Nat := 0
  deriving DecidableEq, Repr

/-! ### Quadrants (R192) -/

/-- A tile of raw element codes with its format and scales (R199, R201). Element (row, column) is keyed
256 × row + column; the scale of block j of row m is keyed 8 × m + j and absent scales are 127. -/
structure Tile where
  fmt    : Nat := 0
  xs     : Nat := 127
  blk    : Bool := false
  scales : Tab Nat := []
  el     : Tab Nat := []
  deriving DecidableEq, Repr

/-- A ring (R200): head, tail, tile count; format and scales per slot (the elements lie in the ring's plots). -/
structure Ring where
  head  : Nat := 0
  tail  : Nat := 0
  count : Nat := 0
  slots : Tab Tile := []
  deriving DecidableEq, Repr

/-- The special state of an anchored accumulator (R93). -/
inductive Spec where
  | none | nan | inf (neg : Bool)
  deriving DecidableEq, Repr

/-- A working accumulator: the exact sum and special state of an anchored chain (R93), or the running value of an
FP32 or FP64 chain (R92). -/
structure Acc where
  sum  : Int := 0
  spec : Spec := .none
  fp   : DWord := 0
  deriving DecidableEq, Repr

/-- An open chain (R203): kind 0 anchored, 1 FP32, 2 FP64; anchor; working accumulators keyed 256 × row + column;
shadow copy with flags (R209). -/
structure Chain where
  kind   : Nat := 0
  anchor : Int := 0
  work   : Tab Acc := []
  shadow : Option (Tab Acc) := none
  fsat   : Bool := false
  fnv    : Bool := false
  deriving DecidableEq, Repr

/-- An accumulator bank (R202). -/
structure Bank where
  fp64 : Bool := false
  rows : Nat := 0
  sat  : Bool := false
  nv   : Bool := false
  el   : Tab DWord := []
  deriving DecidableEq, Repr

/-- A level of the loop-nest table (R210). -/
structure NestLevel where
  count : Nat := 1
  steps : Tab Word := []
  deriving DecidableEq, Repr

/-- An engine command with the operands read at dispatch (R193). -/
structure Cmd where
  fn     : Nat := 0
  tok    : BitVec 4 := 0
  bank   : Nat := 0
  ring   : Nat := 0
  addr   : DWord := 0
  ctl    : Word := 0
  stride : Word := 0
  soff   : Word := 0
  imm    : Nat := 0
  anchor : Int := 0
  half   : Nat := 0
  desc   : Word := 0
  tag    : Nat := 0
  deriving DecidableEq, Repr

/-- A queue entry (R195): the command, whether it has issued, what a load entry has read for retirement or a store entry
for its stores, with the bank's rows and flags and the rows stored so far (R207), the value of the engine-fault trap it
raises at its end (R196, R204), and the pages whose faults were declared unresolvable (R62). -/
structure QEnt where
  cmd    : Cmd
  issued : Bool := false
  stage  : Option Tile := none
  rows   : Nat := 0
  flags  : Nat := 0
  done   : Nat := 0
  err    : Option DWord := none
  lost   : List VKey := []
  deriving DecidableEq, Repr

/-- What the dispatch model keeps of a bank (R194): chain open, its kind, shadow on, MMULs so far, bank kind FP64. -/
structure DmBank where
  chainOpen : Bool := false
  kind   : Nat := 0
  shadow : Bool := false
  count  : Nat := 0
  fp64   : Bool := false
  deriving DecidableEq, Repr

/-- The dispatch model (R194): banks, and the number and format of the last WLOAD dispatched. -/
structure DModel where
  banks  : Tab DmBank := []
  nW     : Nat := 0
  fmt    : Nat := 0
  deriving DecidableEq, Repr

/-- A command block that waits at a quadrant (R326): the issuing sequencer and the commands of the block, each the
word and its operand values; `done` counts those that were dispatched before them. -/
structure RemBlock where
  agent : Nat
  cmds  : List (Word × List Word)
  done  : Nat := 0
  deriving DecidableEq, Repr

/-- A quadrant's engine state (R192). -/
structure QuadSt where
  latch  : Tab Tile := []
  nW     : Nat := 0
  rings  : Tab Ring := []
  banks  : Tab Bank := []
  chains : Tab Chain := []
  vc     : Nat := 128
  shadowNest : Tab NestLevel := []
  activeNest : Tab NestLevel := []
  capture : Nat := 0
  body   : List Cmd := []
  gen    : Option (List Nat × Nat) := none
  loadQ  : List QEnt := []
  compQ  : List QEnt := []
  storeQ : List QEnt := []
  tok    : Tab Nat := []
  model  : DModel := {}
  fused  : Option Nat := none
  member : Option Nat := none
  inq    : List RemBlock := []
  loadS  : Stream := {}
  storeS : Stream := {}
  deriving DecidableEq, Repr

/-! ### Memory system (R28 to R44, R217 to R227, R262 to R273) -/

/-- A key slot (R32): 0 EMPTY, 1 LOADED, 2 KILLING; owner partition; shared bit; the identity of its key pair. -/
structure KeySlot where
  st     : Nat := 0
  owner  : Nat := 0
  shared : Bool := false
  key    : Nat := 0
  deriving DecidableEq, Repr

/-- MOESI states (R265). -/
inductive Moesi where
  | s | e | o | m
  deriving DecidableEq, Repr

/-- A peer's entry in a sector's sharer list (R262, R265): its index within its peer, its key slot, the span. The links
`ppeer`, `pidx`, `npeer` and `nidx` are those of the list's order. -/
structure SpanEnt where
  peer : Nat
  idx  : Nat := 0
  slot : BitVec 8 := 0
  st   : Moesi
  lo   : Nat
  hi   : Nat
  part : Nat
  deriving DecidableEq, Repr

/-- A not-present fault in the resident service's fault queue (R60): what was accessed, which agents, copies and
quadrants' load queues are held by it, and whether the page has been mapped while its side-log entries still replay. -/
structure FaultRec where
  part     : Nat
  key      : VKey
  perm     : Perm
  waiters  : List Nat := []
  copies   : List Nat := []
  queues   : List Nat := []
  resolved : Bool := false
  deriving DecidableEq, Repr

/-- A way on its way to a new owner (R40): the register value it takes once clean. -/
structure WayMove where
  kind  : Nat
  slot  : Nat
  owner : Nat
  deriving DecidableEq, Repr

/-- A line of the Orangery (R36): the sector it holds, the slot it is tagged with, valid and dirty bits of its four 64-byte blocks, and its bytes by their offset in the sector. -/
structure OLine where
  sector : Nat
  slot   : BitVec 8
  valid  : BitVec 4 := 0
  dirty  : BitVec 4 := 0
  data   : Tab Byte := []
  deriving DecidableEq, Repr

/-- The memory system beside the home copies: inner copies with the stamps of the steps that
put them there (`l1at`, `l2at`: twice the step's number, plus 1 for a write), the Orangery's cache lines keyed
32 × set + way, bytes modified in a peer cache, the span directory,
dropped lines, errors that the next read of a line will meet (`latent`), keys, accessed and dirty records, cached translations
and upper-level entries, faults, how each partition uses a frame, cached in bit 0 and uncached in bit 1 (R271; keyed
64 × frame + partition), the bytes whose contents are undefined for a partition that has used them in both ways (keyed
64 × address + partition), counters, the shadow-tag monitors (R41:
`hits` keyed 64 × partition + depth, the stacks of line numbers keyed 256 × partition + watched set), the code each
unit has fetched, by physical address, and the code that stood where its own stores have arrived since its last IFENCE
(R105, R352). -/
structure MemSys where
  l1       : Tab (Tab Byte) := []
  l2       : Tab (Tab Byte) := []
  l1at     : Tab (Tab Nat) := []
  l2at     : Tab (Tab Nat) := []
  stamp    : Nat := 1
  orng     : Tab OLine := []
  dirty    : Tab Byte := []
  dir      : Tab (List SpanEnt) := []
  dropped  : Tab Bool := []
  latent   : Tab Ecc := []
  lineKey  : Tab Nat := []
  keys     : Tab KeySlot := []
  nextKey  : Nat := 2
  frames   : Tab (BitVec 2) := []
  tlb      : List Xlat := []
  upper    : List Upper := []
  faults   : List FaultRec := []
  corrDram : Word := 0
  corrOrng : Word := 0
  corrCxl  : Word := 0
  thrDram  : Word := 0
  thrOrng  : Word := 0
  hits     : Tab Nat := []
  lru      : Tab (List Nat) := []
  moves    : Tab WayMove := []
  banksOff : Tab Bool := []
  uses     : Tab (BitVec 2) := []
  mixed    : Tab Bool := []
  code     : Tab (Tab Half) := []
  own      : Tab (Tab Half) := []
  deriving DecidableEq, Repr

/-! ### Rotunda's registers -/

/-- Rotunda's MMIO registers, each under its name; arrays are keyed by their index. -/
structure Rot where
  orngWay   : Tab Word := []
  orngLim   : Tab Word := []
  orngLimrej : Word := 0
  orngSplit : Tab Word := []
  ptRoot    : Tab DWord := []
  ttCtl     : Tab DWord := []
  circ      : Tab DWord := []
  circRej   : Word := 0
  ringReiss : DWord := 0
  domTmo    : Word := 8
  tqCfg     : Tab DWord := []
  tqHead    : Tab Nat := []
  tqTail    : Tab Nat := []
  tqAge     : Tab DWord := []
  pwrPool   : Tab Nat := []
  pwrHeld   : Tab Nat := []
  polCtl    : Tab DWord := []
  polCnt    : Tab Word := []
  polCls    : Tab Byte := []
  trapTab   : Tab DWord := []
  rsTrap    : DWord := 0
  errRing   : Tab DWord := []
  rsErr     : DWord := 0
  ringTail  : Tab Nat := []
  recCount  : Tab Nat := []
  incDrop   : DWord := 0
  fenceReq  : DWord := 0
  replThr   : Word := 1
  bootSt    : Word := 0
  svnFuse   : Nat := 0
  pkgPlim   : Word := 4000
  cap       : Tab Word := []
  capGen    : Word := 0
  degraded  : Bool := false
  replReq   : Bool := false
  nFenced   : Nat := 0
  deriving DecidableEq, Repr

/-! ### Dies, boot, identity, links -/

/-- A die's link (R15, R17). -/
inductive LinkSt where
  | down | up | fenced | resetting
  deriving DecidableEq, Repr

/-- A die as Rotunda knows it (R15, R319, R358, R360): link, incarnation, the units that its die record presented, units present, units
fenced, the queue identifiers assigned, microseconds without a heartbeat, operating-point class and the class it moves to, time of the
last enumeration. -/
structure Die where
  link   : LinkSt := .down
  inc    : BitVec 8 := 0
  present : Nat := 0
  units  : Nat := 0
  qids   : List Half := []
  fenced : Nat := 0
  silent : Nat := 0
  opc    : Nat := 0
  opcTo  : Nat := 0
  enumAt : Option DWord := none
  deriving DecidableEq, Repr

/-- A ring link (R251, R252): width in lanes, the next flit's number, flits not acknowledged with
their resends, up or down. -/
structure RingLink where
  width   : Nat := 16
  seq     : BitVec 8 := 0
  unacked : List (BitVec 8 × Nat) := []
  down    : Bool := false
  deriving DecidableEq, Repr

/-- An entry of the cores' event queue (R352): what it is and one number about it. -/
inductive HostEvent where
  | fault (part : Nat)
  | record (kind : Nat)
  | launchDone (launch : Nat) (killed : Bool) (armed : Nat)
  | mgmt
  | inbound
  | reply (n : Nat)
  deriving DecidableEq, Repr

/-- Platform state: dies, boot flash and fuses (the identity key among them, R366), CXL ports, links, identity, the packages
whose partitions are paired with a partition (R242), event queue, pod-ring ports enabled, the time of the last exchange with
the time master (R254). -/
structure Plat where
  dies     : Tab Die := []
  halted   : Bool := false
  flash    : Tab Byte := []
  rootHash : List Byte := []
  idKey    : Nat := 1
  certs    : List Byte := []
  meas     : Tab (List Byte) := []
  bootHash : List Byte := []
  bootSvn  : Nat := 0
  cxl      : Tab Nat := []
  cxlLost  : List Nat := []
  links    : Tab RingLink := []
  pkg      : BitVec 9 := 0
  dom      : BitVec 12 := 0
  domNs    : Half := 0xFFFF
  belowMs  : Nat := 0
  opLimit  : Tab Nat := []
  hostQ    : List HostEvent := []
  reports  : List (List Byte) := []
  podPorts : Nat := 0
  syncAt   : Option DWord := none
  pairs    : List (Nat × Nat) := []
  dropReq  : Nat := 0
  dropSide : Nat := 0
  dropInc  : Nat := 0
  deriving DecidableEq, Repr

/-! ### The hub scheduler (R303 to R321) -/

/-- A launch (R304, R305): its header's fields, the next ordinal and its place on the walk, the units its groups run on,
its saved contexts, the units a gang was placed on (R317), and when it entered its queue. -/
structure Launch where
  id      : Nat := 0
  part    : Nat := 0
  queue   : Nat := 0
  hdr     : DWord := 0
  entry   : DWord := 0
  kind    : Nat := 0
  waves   : Nat := 0
  prio    : Nat := 0
  opc     : Nat := 0
  ordered : Bool := false
  migr    : Bool := false
  sync    : Nat := 0
  ptok    : Nat := 0
  curve   : Nat := 0
  ext     : List Nat := []
  rmode   : Word := 0
  seed    : Word := 0
  spillq  : Nat := 0xFFFF
  code    : Nat := 0
  order   : List Nat := []
  desc    : List Word := []
  next    : Nat := 0
  walk    : Nat := 0
  live    : List Nat := []
  saved   : List Nat := []
  place   : List Nat := []
  since   : DWord := 0
  susp    : Bool := false
  deriving DecidableEq, Repr

/-- A dispatch packet in flight (R307): new loop-nest group, new task group, or resume of a saved context. -/
structure Packet where
  pkind  : Nat
  launch : Nat
  ord    : Nat := 0
  idx    : List Nat := []
  ctx    : Nat := 0
  code   : Nat := 0
  dest   : Nat := 0
  deriving DecidableEq, Repr

/-- A saved context (R355): the group's unit, its agents, its quadrants and the bytes of its scratchpads, with the
unit it was saved from. -/
structure Saved where
  from_  : Nat := 0
  launch : Nat := 0
  ord    : Nat := 0
  grp    : UnitSt := {}
  agents : Tab Agent := []
  quads  : Tab QuadSt := []
  spads  : Tab (Tab Byte) := []
  deriving DecidableEq, Repr

/-- An armed entry of the dependency table (R315): partition, launch, outstanding inputs, task record and up to two
input ranges. -/
structure DepEnt where
  part   : Nat
  launch : Nat
  count  : Nat
  task   : TaskRec
  inputs : List (DWord × Nat)
  deriving DecidableEq, Repr

/-- A fired task that is not placed yet (R315): its number, and the dies that tie for it, or the one it waits for; its input ranges. -/
structure HeldFire where
  id     : Nat
  launch : Nat
  part   : Nat
  task   : TaskRec
  dies   : List Nat
  inputs : List (DWord × Nat)
  deriving DecidableEq, Repr

/-- A flow-table entry (R314) with its arrival count and its next slot. -/
structure Flow where
  en    : Bool := false
  part  : Nat := 0
  tq    : Nat := 0
  lgslot : Nat := 0
  ep    : Word := 0
  svc   : Half := 0
  nslot : Nat := 0
  entry : DWord := 0
  buf   : DWord := 0
  count : Word := 0
  slot  : Nat := 0
  deriving DecidableEq, Repr

/-- A decision event (R329). `who` is the agent whose STEAL, the place of the held fire, or the launch of the job it
decides; `tail` the partition ring's tail after the record of a fault event (R338). -/
structure PolEvent where
  entry : Nat := 0
  trig  : Nat := 0
  q1    : Word := 0
  q2    : Word := 0
  q3    : Word := 0xFFFFFFFF
  who   : Nat := 0
  tail  : Nat := 0
  deriving DecidableEq, Repr

/-- A decision in progress (R328): its event, `q0`–`q7`, index, cycles spent, and the snapshot records. -/
structure Decision where
  ev   : PolEvent := {}
  q    : Tab Word := []
  pc   : Nat := 0
  cyc  : Nat := 0
  snapQ : Tab (List Word) := []
  snapU : Tab (List Word) := []
  deriving DecidableEq, Repr

/-- A partition's policy state (R328, R334, R343, R344): event queue, events that found it full, shadow and current image (empty: none), the
persistent words, the decision in progress, a POLSW that waits, the swaps made, and how many of the events whose condition
holds have been raised since work was last dispatched. -/
structure Pol where
  evq    : List PolEvent := []
  ovf    : List PolEvent := []
  shadow : List Half := []
  cur    : List Half := []
  pm     : Tab Word := []
  dec    : Option Decision := none
  swap   : Bool := false
  swaps  : Nat := 0
  due    : Nat := 0
  deriving DecidableEq, Repr

/-- The hub scheduler's state. -/
structure Hub where
  launches : Tab Launch := []
  nextId   : Nat := 1
  packets  : List Packet := []
  saves    : Tab Saved := []
  nextCtx  : Nat := 1
  parts    : Tab PartCfg := []
  deps     : Tab DepEnt := []
  fires    : List HeldFire := []
  flows    : Tab Flow := []
  pol      : Tab Pol := []
  taken    : Tab DWord := []
  ending   : List Nat := []
  deriving DecidableEq, Repr

/-! ### Fabric and engines -/

/-- What a posted entry does at its destination: writes bytes, or updates the flag word once the carried counts are
reached (R228, R229, R259). -/
inductive PostKind where
  | data
  | flag (val : DWord) (size : Nat) (add : Bool) (carry : List Nat)
  deriving DecidableEq, Repr

/-- A posted window entry in flight (R228): issuing agent and unit, its wave number in its group, window, binding, path, peer offset, bytes by
offset, the WSIG it is a part of, whether it has been delivered and with what status, whether its timeout has
counted it as acknowledged, the time of its issue (R244), the die that delivered it with its incarnation then, and whether its response has been
dropped for an old incarnation (R356). -/
structure Posted where
  agent  : Nat
  unit_  : Nat
  src    : Nat := 0
  win    : Nat
  bind   : Nat
  path   : Nat
  kind   : PostKind := .data
  off    : Nat := 0
  len    : Nat := 0
  bytes  : List (Nat × Byte) := []
  wsig   : Option Nat := none
  delivered : Bool := false
  ok     : Bool := true
  acked  : Bool := false
  born   : DWord := 0
  by_    : Option (Nat × BitVec 8) := none
  lostRsp : Bool := false
  deriving DecidableEq, Repr

/-- A window binding (R248, R249): source group and window, destination package and group (a group is named by its unit
while it runs, by its saved context while it is saved), the place of the bound unit behind the group's first, segment,
counter sets, arrival counts keyed 4 × source wave + path; `inward` marks a source on another package. -/
structure Binding where
  srcUnit : Nat
  dstPkg  : Nat
  dstUnit : Nat
  mem     : Nat := 0
  seg     : Nat := 0
  sets    : Nat := 1
  saved   : Bool := false
  ended   : Bool := false
  arr     : Tab Nat := []
  inward  : Bool := false
  deriving DecidableEq, Repr

/-- A WSIG in progress (R259): its agent, its group's window, the parts not acknowledged, which failed, the payload
length. -/
structure Wsig where
  agent : Nat
  unit_ : Nat
  win   : Nat
  left  : Nat
  badPay : Bool := false
  badFlag : Bool := false
  len   : Nat
  deriving DecidableEq, Repr

/-- One arrival at a DBAR or ALLRED (R238, R260): the member's place in the contributor order (R255), its agent, and
for ALLRED its operation, element count and elements. -/
structure Arrival where
  key   : Nat
  agent : Nat
  op    : Nat := 0
  cnt   : Nat := 0
  data  : List DWord := []
  deriving DecidableEq, Repr

/-- The n-th DBAR or ALLRED of one part of a launch (R317): who has arrived, how many must, and the result. -/
structure Redn where
  launch  : Nat
  inst    : Nat
  n       : Nat
  allred  : Bool
  members : Nat
  arr     : List Arrival := []
  result  : Option (Bool × List DWord) := none
  taken   : Nat := 0
  deriving DecidableEq, Repr

/-- A copy operation (R69 to R74): issuer, handle, unit, engine (0 to 47 a cluster's, 256 + q a quadrant's), the block's
fields, descriptors read and window bindings resolved at issue, the sequence states of its seed, how far it is, the
peer plots it has touched (256 × unit + plot), and `moved` before the first chunk that stands in a side log. -/
structure Copy where
  agent  : Nat
  hnd    : Nat
  unit_  : Nat
  engine : Nat
  part   : Nat
  launch : Nat := 0
  skind  : Nat := 0
  dkind  : Nat := 0
  ndim   : Nat := 1
  sfmt   : Nat := 0
  dfmt   : Nat := 0
  rm     : Nat := 0
  src    : DWord := 0
  dst    : DWord := 0
  sdesc  : Word := 0
  ddesc  : Word := 0
  ext    : List Nat := []
  sstr   : List Word := []
  dstr   : List Word := []
  x      : Tab Word := []
  sbind  : Option Nat := none
  dbind  : Option Nat := none
  moved  : Nat := 0
  running : Bool := false
  cancel : Bool := false
  merr   : Bool := false
  code   : Option Nat := none
  touched : List Nat := []
  npd    : Nat := 0
  sgen   : Stream := {}
  dgen   : Stream := {}
  deriving DecidableEq, Repr

/-- A reconciliation (R279 to R286): issuer, handle, engine (the link die), the block's fields, when it started, what was
read then, the peer it paired with, its outcome. -/
structure Recon where
  agent  : Nat
  hnd    : Nat
  unit_  : Nat
  engine : Nat
  part   : Nat
  launch : Nat := 0
  cls    : Word := 0
  dom    : BitVec 12 := 0
  pkg    : BitVec 9 := 0
  cells  : Nat := 0
  minc   : Nat := 0
  maxc   : Nat := 0
  rnd    : Nat := 0
  lim    : Nat := 0
  gf     : Bool := false
  mode   : Bool := false
  wait   : Nat := 1
  sk     : DWord := 0
  set    : DWord := 0
  nset   : Nat := 0
  out    : Nat := 0
  nout   : Nat := 0
  started : Option DWord := none
  cancel : Bool := false
  merr   : Bool := false
  sketch : List Byte := []
  entries : List (DWord × DWord) := []
  peer   : Option PeerRecon := none
  full   : Bool := false
  sent   : Nat := 0
  residual : Nat := 0
  npairs : Nat := 0
  reason : Nat := 0
  code   : Option Nat := none
  moved  : Nat := 0
  deriving DecidableEq, Repr

/-- The ring fabric's and the engines' state, operations keyed by a number of their own; `out` holds the responses sent to
other packages, oldest first. -/
structure Fab where
  posted  : Tab Posted := []
  binds   : Tab Binding := []
  wsigs   : Tab Wsig := []
  redns   : Tab Redn := []
  copies  : Tab Copy := []
  recons  : Tab Recon := []
  out     : List RemoteRsp := []
  nextOp  : Nat := 1
  deriving DecidableEq, Repr

/-! ### The package -/

/-- Who moves next: an agent by its number (wave: 16 × CU + slot; sequencer: 4096 + quadrant; core: 8192 + n), the
policy engine in a partition's decision, or nobody. -/
inductive Cur where
  | agent (id : Nat)
  | policy (p : Nat)
  | nobody
  deriving DecidableEq, Repr

/-- What the environment has happen next: a step of the package, or the turn passing to another mover. -/
inductive Action where
  | event (i : Instr)
  | turn (c : Cur)
  deriving DecidableEq, Repr

/-- The state of one package. `sched`, `stalled` and `free` are the model's own (log 7, log 8). -/
structure State where
  cur     : Cur := .nobody
  sched   : List Action := []
  stalled : Bool := false
  free    : Nat := 0
  ntime   : DWord := 0
  agents  : Tab Agent := []
  units   : Tab UnitSt := []
  quads   : Tab QuadSt := []
  mem     : List Host.Cell := []
  ms      : MemSys := {}
  rot     : Rot := {}
  plat    : Plat := {}
  hub     : Hub := {}
  fab     : Fab := {}
  deriving DecidableEq, Repr

/-- The capability table's words as the Reset column gives them, every unit present (R18, R19). DESIGN CHOICE (log 6), where the
spec gives no capacity of a CXL device: `cxl_gib` (word 12) is 0 beside an `n_cxl` of 8. -/
def capReset : List Word :=
  [0x01880000, 0x7, 0x08040208, 0x002000C0] ++ List.replicate 7 0xFFFFFFFF ++ [0x02000400, 0, 0x08100000, 0x057807D0]

/-- The package right after reset: nothing runs, nothing is enumerated, every register at its reset value; key slot 0
is loaded (R32). The defaults of the other fields are the reset values. -/
def State.reset : State :=
  { ms := { keys := [(0, { st := 1, owner := 0, shared := false, key := 1 })] },
    rot := { cap := capReset.zipIdx.filterMap (fun e => if e.1 = 0 then none else some (e.2, e.1)) } }

/-- Faults: the model stops. -/
inductive Fault where
  /-- Raised by a Jexath instruction's or policy operation's meaning when nobody is there to execute it: the current
  mover names no live agent and no decision in progress. `step` never lets this happen. Safe: the machine has no
  such situation. -/
  | noMover
  deriving DecidableEq, Repr

/-- Refusals: no meaning for the instruction. -/
inductive Refusal where
  /-- Raised by an arm of `exec` whose instruction has no meaning yet. Safe: nothing is claimed of it. -/
  | notModelled (mnemonic : String)
  deriving DecidableEq, Repr

end Sys2Proof.Machine
end

