-- ==== Sys2Proof/Machine/Operands.lean ====
section
/-! DEFINITION. The register files of an agent and the operand forms: scalars and pairs (R96), beat masks (R97),
vectors and predicates (R98), literals and discards (R107, R108), guards (R109), branch targets, handles and
descriptors (R99). Register numbers are the fields' values; 63 discards a destination. -/
namespace Sys2Proof.Machine

/-! ### Scalars -/

/-- The value of scalar register `r`; `s0` reads zero (R96). -/
def Agent.sGet (ag : Agent) (r : Nat) : Word := if r = 0 then 0 else Tab.get 0 ag.s r

/-- Write scalar register `r`: writes to `s0` and to code 63 are discarded (R96, R107). -/
def Agent.sSet (ag : Agent) (r : Nat) (w : Word) : Agent :=
  if r = 0 ∨ 63 ≤ r then ag else { ag with s := Tab.set 0 ag.s r w }

/-- The value of a scalar pair; pair 0 reads zero (R96). -/
def Agent.pGet (ag : Agent) (r : Nat) : DWord :=
  if r = 0 then 0 else ag.sGet (r + 1) ++ ag.sGet r

/-- Write a scalar pair: pair 0 and code 63 discard both halves (R96, R107). -/
def Agent.pSet (ag : Agent) (r : Nat) (x : DWord) : Agent :=
  if r = 0 ∨ 62 ≤ r then ag
  else (ag.sSet r (x.extractLsb' 0 32)).sSet (r + 1) (x.extractLsb' 32 32)

/-- A 32-bit scalar source: a register, or the literal as it stands (R108). -/
def Agent.src (ag : Agent) : Src → Word
  | .reg n => ag.sGet n.toNat
  | .lit w => w

/-- A 64-bit scalar source: a pair, or the literal sign-extended (R108). -/
def Agent.srcP (ag : Agent) : Src → DWord
  | .reg n => ag.pGet n.toNat
  | .lit w => w.signExtend 64

/-- An FP64 scalar source: a pair, or the literal as bits 63:32 (R108). -/
def Agent.srcD (ag : Agent) : Src → DWord
  | .reg n => ag.pGet n.toNat
  | .lit w => w ++ (0 : Word)

/-! ### Lane masks, predicates and guards -/

/-- The lanes set in a mask, ascending. -/
def lanesOf (m : Mask) : List Nat := (List.range 96).filter (fun l => m.getLsbD l)

/-- The mask of the lanes where `f` holds. -/
def maskOf (f : Nat → Bool) : Mask := (BitVec.ofBoolListLE ((List.range 96).map f)).setWidth 96

/-- The number of lanes in a mask. -/
def maskCount (m : Mask) : Nat := (lanesOf m).length

/-- The lowest lane of a mask. -/
def maskLow (m : Mask) : Option Nat := (lanesOf m).head?

/-- Lane `l` of 96 lanes is below a count. -/
def maskBelow (n : Nat) : Mask := maskOf (fun l => l < n)

/-- The beat masks of a wave as one mask: lane 32b + i is bit i of `bm`b (R97). -/
def Agent.beat (ag : Agent) : Mask := ag.sGet 62 ++ ag.sGet 61 ++ ag.sGet 60

/-- Write the beat masks (R97). -/
def Agent.setBeat (ag : Agent) (m : Mask) : Agent :=
  ((ag.sSet 60 (m.extractLsb' 0 32)).sSet 61 (m.extractLsb' 32 32)).sSet 62 (m.extractLsb' 64 32)

/-- Predicate `r`; `k0` reads all ones (R98). -/
def Agent.kGet (ag : Agent) (r : Nat) : Mask := if r = 0 then BitVec.allOnes 96 else Tab.get 0 ag.k r

/-- Write predicate `r` in the lanes of `act`; `k0` and code 63 discard (R98, R107). -/
def Agent.kSet (ag : Agent) (r : Nat) (act val : Mask) : Agent :=
  if r = 0 ∨ 8 ≤ r then ag
  else { ag with k := Tab.set 0 ag.k r ((Tab.get 0 ag.k r &&& ~~~act) ||| (val &&& act)) }

/-- The guard's value per lane: `k0` to `k3`, negated where the run header says so (R109, R111). -/
def Agent.guardMask (ag : Agent) (g : BitVec 2) : Mask :=
  let m := ag.kGet g.toNat
  if g ≠ 0 ∧ ag.run.neg.getLsbD (g.toNat - 1) then ~~~m else m

/-- Active(): the lanes whose beat-mask bit and guard value are both 1 (R109). -/
def Agent.active (ag : Agent) (g : BitVec 2) : Mask := ag.beat &&& ag.guardMask g

/-- An instruction produces its scalar results and side effects: always with guard `k0`, otherwise when at least one
lane is active (R109). -/
def Agent.fires (ag : Agent) (g : BitVec 2) : Bool := g == 0 || ag.active g != 0

/-! ### Vectors -/

/-- The vector register with value `f l` in lane `l`. -/
def lanes (f : Nat → Word) : Tab Word :=
  (List.range 96).filterMap (fun l => if f l = 0 then none else some (l, f l))

/-- Vector register `r` in lane `l` (R98). -/
def Agent.vGet (ag : Agent) (r l : Nat) : Word := Tab.get 0 (Tab.get [] ag.v r) l

/-- Write vector register `r` in the lanes of `act`; code 63 discards (R98, R107). -/
def Agent.vSet (ag : Agent) (r : Nat) (act : Mask) (f : Nat → Word) : Agent :=
  if 63 ≤ r then ag
  else
    let old := Tab.get [] ag.v r
    { ag with v := Tab.set [] ag.v r (lanes (fun l => if act.getLsbD l then f l else Tab.get 0 old l)) }

/-- Write one lane of a vector register. -/
def Agent.vSetLane (ag : Agent) (r l : Nat) (w : Word) : Agent :=
  if 63 ≤ r ∨ 96 ≤ l then ag
  else { ag with v := Tab.set [] ag.v r (Tab.set 0 (Tab.get [] ag.v r) l w) }

/-- A vector pair in lane `l` (R98). -/
def Agent.vpGet (ag : Agent) (r l : Nat) : DWord := ag.vGet (r + 1) l ++ ag.vGet r l

/-- Write a vector pair in the lanes of `act`; code 63 discards. -/
def Agent.vpSet (ag : Agent) (r : Nat) (act : Mask) (f : Nat → DWord) : Agent :=
  if 62 ≤ r then ag
  else (ag.vSet r act (fun l => (f l).extractLsb' 0 32)).vSet (r + 1) act (fun l => (f l).extractLsb' 32 32)

/-- A 32-bit vector source in lane `l`: a register, or the literal in every lane (R107, R108). -/
def Agent.vsrc (ag : Agent) (a : Src) (l : Nat) : Word :=
  match a with
  | .reg n => ag.vGet n.toNat l
  | .lit w => w

/-- A 64-bit integer vector source: a pair, or the literal sign-extended (R108). -/
def Agent.vsrcP (ag : Agent) (a : Src) (l : Nat) : DWord :=
  match a with
  | .reg n => ag.vpGet n.toNat l
  | .lit w => w.signExtend 64

/-- An FP64 vector source: a pair, or the literal as bits 63:32 (R108). -/
def Agent.vsrcD (ag : Agent) (a : Src) (l : Nat) : DWord :=
  match a with
  | .reg n => ag.vpGet n.toNat l
  | .lit w => w ++ (0 : Word)

/-! ### Branch targets, handles, descriptors -/

/-- Branch target register (R99). -/
def Agent.btGet (ag : Agent) (r : Nat) : DWord := Tab.get 0 ag.bt r
/-- Write a branch target register (R291). -/
def Agent.btSet (ag : Agent) (r : Nat) (x : DWord) : Agent := { ag with bt := Tab.set 0 ag.bt r x }
/-- Handle `n` (R72). -/
def Agent.hGet (ag : Agent) (n : Nat) : Handle := Tab.get {} ag.h n
/-- Write handle `n` (R72). -/
def Agent.hSet (ag : Agent) (n : Nat) (x : Handle) : Agent := { ag with h := Tab.set {} ag.h n x }
/-- Descriptor register `n` (R54). -/
def Agent.dGet (ag : Agent) (n : Nat) : Word := Tab.get 0 ag.d n

/-- `wid` (R103). -/
def Agent.wid (ag : Agent) : Word := ag.die ++ ag.cu ++ ag.slot ++ ag.gw ++ (0 : Byte)

/-! ### Bytes -/

/-- The little-endian value of bytes (R6). -/
def leVal : List Byte → Nat
  | [] => 0
  | b :: t => b.toNat + 256 * leVal t

/-- The `n` low bytes of a value, little-endian (R6). -/
def leBytes : Nat → Nat → List Byte
  | 0, _ => []
  | n + 1, x => BitVec.ofNat 8 x :: leBytes n (x / 256)

end Sys2Proof.Machine
end

