-- ==== Sys2Proof/Machine/Crypto.lean ====
section
/-! DEFINITION. The hash and the signature check the boot ROM and the measurement registers use (R362, R366): SHA-512 and
ECDSA over P-521. The spec names both by their standards; their constants are those standards' (log 29, PRESUMED). -/
namespace Sys2Proof.Machine

/-! ### SHA-512 -/

/-- The first half of the round constants. -/
def shaK0 : List DWord :=
  [0x428A2F98D728AE22, 0x7137449123EF65CD, 0xB5C0FBCFEC4D3B2F, 0xE9B5DBA58189DBBC,
   0x3956C25BF348B538, 0x59F111F1B605D019, 0x923F82A4AF194F9B, 0xAB1C5ED5DA6D8118,
   0xD807AA98A3030242, 0x12835B0145706FBE, 0x243185BE4EE4B28C, 0x550C7DC3D5FFB4E2,
   0x72BE5D74F27B896F, 0x80DEB1FE3B1696B1, 0x9BDC06A725C71235, 0xC19BF174CF692694,
   0xE49B69C19EF14AD2, 0xEFBE4786384F25E3, 0x0FC19DC68B8CD5B5, 0x240CA1CC77AC9C65,
   0x2DE92C6F592B0275, 0x4A7484AA6EA6E483, 0x5CB0A9DCBD41FBD4, 0x76F988DA831153B5,
   0x983E5152EE66DFAB, 0xA831C66D2DB43210, 0xB00327C898FB213F, 0xBF597FC7BEEF0EE4,
   0xC6E00BF33DA88FC2, 0xD5A79147930AA725, 0x06CA6351E003826F, 0x142929670A0E6E70,
   0x27B70A8546D22FFC, 0x2E1B21385C26C926, 0x4D2C6DFC5AC42AED, 0x53380D139D95B3DF,
   0x650A73548BAF63DE, 0x766A0ABB3C77B2A8, 0x81C2C92E47EDAEE6, 0x92722C851482353B]
/-- The second half of the round constants. -/
def shaK1 : List DWord :=
  [0xA2BFE8A14CF10364, 0xA81A664BBC423001, 0xC24B8B70D0F89791, 0xC76C51A30654BE30,
   0xD192E819D6EF5218, 0xD69906245565A910, 0xF40E35855771202A, 0x106AA07032BBD1B8,
   0x19A4C116B8D2D0C8, 0x1E376C085141AB53, 0x2748774CDF8EEB99, 0x34B0BCB5E19B48A8,
   0x391C0CB3C5C95A63, 0x4ED8AA4AE3418ACB, 0x5B9CCA4F7763E373, 0x682E6FF3D6B2B8A3,
   0x748F82EE5DEFB2FC, 0x78A5636F43172F60, 0x84C87814A1F0AB72, 0x8CC702081A6439EC,
   0x90BEFFFA23631E28, 0xA4506CEBDE82BDE9, 0xBEF9A3F7B2C67915, 0xC67178F2E372532B,
   0xCA273ECEEA26619C, 0xD186B8C721C0C207, 0xEADA7DD6CDE0EB1E, 0xF57D4F7FEE6ED178,
   0x06F067AA72176FBA, 0x0A637DC5A2C898A6, 0x113F9804BEF90DAE, 0x1B710B35131C471B,
   0x28DB77F523047D84, 0x32CAAB7B40C72493, 0x3C9EBE0A15C9BEBC, 0x431D67C49C100D4C,
   0x4CC5D4BECB3E42B6, 0x597F299CFC657E2A, 0x5FCB6FAB3AD6FAEC, 0x6C44198C4A475817]
/-- The round constants. -/
def shaK : List DWord := shaK0 ++ shaK1
/-- The initial hash value. -/
def shaH : List DWord :=
  [0x6A09E667F3BCC908, 0xBB67AE8584CAA73B, 0x3C6EF372FE94F82B, 0xA54FF53A5F1D36F1,
   0x510E527FADE682D1, 0x9B05688C2B3E6C1F, 0x1F83D9ABFB41BD6B, 0x5BE0CD19137E2179]

/-- The big-endian value of bytes. -/
def beVal (bs : List Byte) : Nat := bs.foldl (fun a b => 256 * a + b.toNat) 0
/-- The `n` low bytes of a value, big-endian. -/
def beBytes (n x : Nat) : List Byte := (leBytes n x).reverse

/-- One word of the message schedule from the words before it, newest first. -/
def shaNext (w : List DWord) : DWord :=
  let x := nth 0 w 14
  let y := nth 0 w 1
  (y.rotateRight 19 ^^^ y.rotateRight 61 ^^^ (y >>> 6)) + nth 0 w 6 +
    (x.rotateRight 1 ^^^ x.rotateRight 8 ^^^ (x >>> 7)) + nth 0 w 15

/-- The message schedule, newest first. -/
def shaSched : Nat → List DWord → List DWord
  | 0, w => w
  | n + 1, w => shaSched n (shaNext w :: w)

/-- One round over the eight working variables. -/
def shaRound (v : List DWord) (kw : DWord × DWord) : List DWord :=
  let a := nth 0 v 0
  let e := nth 0 v 4
  let t1 := nth 0 v 7 + (e.rotateRight 14 ^^^ e.rotateRight 18 ^^^ e.rotateRight 41) +
    ((e &&& nth 0 v 5) ^^^ (~~~e &&& nth 0 v 6)) + kw.1 + kw.2
  let t2 := (a.rotateRight 28 ^^^ a.rotateRight 34 ^^^ a.rotateRight 39) +
    ((a &&& nth 0 v 1) ^^^ (a &&& nth 0 v 2) ^^^ (nth 0 v 1 &&& nth 0 v 2))
  [t1 + t2, a, nth 0 v 1, nth 0 v 2, nth 0 v 3 + t1, e, nth 0 v 5, nth 0 v 6]

/-- One 128-byte block. -/
def shaBlock (h : List DWord) (bs : List Byte) : List DWord :=
  let w := (List.range 16).map (fun i => BitVec.ofNat 64 (beVal ((bs.drop (8 * i)).take 8)))
  let w := (shaSched 64 w.reverse).reverse
  (h.zip ((shaK.zip w).foldl shaRound h)).map (fun e => e.1 + e.2)

/-- The blocks of a padded message. -/
def shaBlocks : Nat → List DWord → List Byte → List DWord
  | 0, h, _ => h
  | n + 1, h, bs => shaBlocks n (shaBlock h (bs.take 128)) (bs.drop 128)

/-- SHA-512. -/
def sha512 (m : List Byte) : List Byte :=
  let pad := m ++ [0x80] ++ List.replicate ((239 - m.length % 128) % 128) 0 ++ beBytes 16 (8 * m.length)
  (shaBlocks (pad.length / 128) shaH pad).flatMap (fun x => beBytes 8 x.toNat)

/-! ### ECDSA over P-521 -/

/-- The field's prime. -/
def p521 : Nat := 2 ^ 521 - 1
/-- The curve's constant b. -/
def curveB : Nat := 0x51953EB9618E1C9A1F929A21A0B68540EEA2DA725B99B315F3B8B489918EF109E156193951EC7E937B1652C0BD3BB1BF073573DF883D2C34F1EF451FD46B503F00
/-- The base point's coordinates. -/
def curveG : Nat × Nat := (0xC6858E06B70404E9CD9E3ECB662395B4429C648139053FB521F828AF606B4D3DBAA14B5E77EFE75928FE1DC127A2FFA8DE3348B3C1856A429BF97E7E31C2E5BD66,
  0x11839296A789A3BC0045C8A5FB42C7D1BD998F54449579B446817AFBD17273E662C97EE72995EF42640C550B9013FAD0761353C7086A272C24088BE94769FD16650)
/-- The order of the base point. -/
def curveN : Nat := 0x1FFFFFFFFFFFFFFFFFFFFFFFFFFFFFFFFFFFFFFFFFFFFFFFFFFFFFFFFFFFFFFFFFA51868783BF2F966B7FCC0148F709A5D03BB5C9B8899C47AEBB6FB71E91386409

/-- `x` to the `e` modulo `m`, by the bits of `e`, least first. -/
def powMod (m : Nat) : Nat → Nat → Nat → Nat → Nat
  | 0, _, _, acc => acc
  | k + 1, x, e, acc => powMod m k (x * x % m) (e / 2) (if e % 2 = 1 then acc * x % m else acc)

/-- The inverse modulo a prime. -/
def invMod (m x : Nat) : Nat := powMod m 530 (x % m) (m - 2) 1

/-- A point in Jacobian coordinates: `(x, y, z)` stands for the affine point `(x / z², y / z³)`, and `z = 0` for the point at
infinity. -/
structure EcPoint where
  x : Nat
  y : Nat
  z : Nat
  deriving DecidableEq, Repr

/-- Twice a point of the curve y² = x³ − 3x + b. -/
def ecDouble (a : EcPoint) : EcPoint :=
  let yy := a.y * a.y % p521
  let s := 4 * a.x * yy % p521
  let zz := a.z * a.z % p521
  let m := 3 * (a.x + p521 - zz) * (a.x + zz) % p521
  let x := (m * m + 2 * (p521 - s)) % p521
  { x := x, y := (m * (s + p521 - x) + 8 * (p521 - yy * yy % p521)) % p521, z := 2 * a.y * a.z % p521 }

/-- The sum of two points. -/
def ecAdd (a b : EcPoint) : EcPoint :=
  if a.z = 0 then b
  else if b.z = 0 then a
  else
    let za := a.z * a.z % p521
    let zb := b.z * b.z % p521
    let ua := a.x * zb % p521
    let ub := b.x * za % p521
    let sa := a.y * b.z * zb % p521
    let sb := b.y * a.z * za % p521
    if ua = ub then (if sa = sb then ecDouble a else { x := 1, y := 1, z := 0 })
    else
      let h := (ub + p521 - ua) % p521
      let r := (sb + p521 - sa) % p521
      let hh := h * h % p521
      let hc := h * hh % p521
      let v := ua * hh % p521
      let x := (r * r + (p521 - hc) + 2 * (p521 - v)) % p521
      { x := x, y := (r * (v + p521 - x) + (p521 - sa * hc % p521)) % p521, z := a.z * b.z * h % p521 }

/-- A multiple of a point, by the bits of the factor, least first. -/
def ecMul : Nat → Nat → EcPoint → EcPoint → EcPoint
  | 0, _, _, acc => acc
  | k + 1, e, p, acc => ecMul k (e / 2) (ecDouble p) (if e % 2 = 1 then ecAdd acc p else acc)

/-- The point at infinity. -/
def ecInf : EcPoint := { x := 1, y := 1, z := 0 }
/-- The base point. -/
def ecBase : EcPoint := { x := curveG.1, y := curveG.2, z := 1 }
/-- The affine coordinates of a point. -/
def EcPoint.affine (p : EcPoint) : Nat × Nat :=
  (p.x * invMod p521 (p.z * p.z) % p521, p.y * invMod p521 (p.z * p.z * p.z) % p521)

/-- The public key of a private scalar: an uncompressed point (R366). -/
def ecPublic (key : Nat) : List Byte :=
  let a := (ecMul 521 key ecBase ecInf).affine
  0x04 :: beBytes 66 a.1 ++ beBytes 66 a.2

/-- The ECDSA signature of a digest, r then s of 66 bytes each, under a private scalar with a secret number (R366, R367). -/
def ecdsaSign (key secret : Nat) (digest : List Byte) : List Byte :=
  let k := secret % (curveN - 1) + 1
  let r := (ecMul 521 k ecBase ecInf).affine.1 % curveN
  beBytes 66 r ++ beBytes 66 (invMod curveN k * (beVal digest + r * key) % curveN)

/-- An uncompressed point of 133 bytes on the curve. -/
def ecPoint (bs : List Byte) : Option EcPoint :=
  let x := beVal ((bs.drop 1).take 66)
  let y := beVal ((bs.drop 67).take 66)
  if bs.length = 133 ∧ nth 0 bs 0 = 4 ∧ x < p521 ∧ y < p521 ∧ y * y % p521 = (x * x * x + 3 * (p521 - x) + curveB) % p521 then
    some { x := x, y := y, z := 1 }
  else none

/-- The signature, r then s of 66 bytes each, verifies under the point over the digest (R362). -/
def ecdsaOk (pub sig digest : List Byte) : Bool :=
  let r := beVal (sig.take 66)
  let t := beVal ((sig.drop 66).take 66)
  match ecPoint pub with
  | none => false
  | some q =>
    if r = 0 ∨ curveN ≤ r ∨ t = 0 ∨ curveN ≤ t then false
    else
      let w := invMod curveN t
      let sum := ecAdd (ecMul 521 (beVal digest * w % curveN) ecBase ecInf) (ecMul 521 (r * w % curveN) q ecInf)
      sum.z != 0 && sum.affine.1 % curveN == r

end Sys2Proof.Machine
end

