-- ==== Sys2Proof/Config.lean ====
section
/-! DEFINITION. The free values: constants without a body that stand where the spec gives an effect and no value.
Nothing in Lean can evaluate them. Each is applied to plain data that says which value is meant; a counter in the
state gives a fresh one each time. The log names each. -/
namespace Sys2Proof.Config

/-- Nanoseconds that pass at the n-th step (log 9). -/
opaque elapsed : Nat → Nat

/-- What a die's time counter is ahead of the package's, in ns, below the bound `tskew.pkg_ns` (R254, log 9);
reduced modulo 3 where it is used. -/
opaque dieSkew : Nat → Nat

/-- The 512-bit XTS key pair that Rotunda's hardware random source drew, by its identity (R32, R34, log 12). -/
opaque keyPair : Nat → BitVec 512

/-- Whether and in which of a partition's cache ways the n-th access at the home fills an Orangery line: reduced modulo
the number of those ways plus 1, 0 fills none (R36, log 28). -/
opaque fillWay : Nat → Nat

/-- A byte of a copy whose source and destination overlap, within the overlap (R71, log 20). -/
opaque overlapByte : Nat → Byte

/-- The bytes of a page mapped cached and uncached at once (R271, log 13). -/
opaque mixedByte : Nat → Byte

/-- The allowed path a posted write takes under path choice by load (R245, log 21). -/
opaque loadPath : Nat → Nat

/-- The secret number of the n-th ECDSA signature that Rotunda's signing engine makes (R366, R367, log 22). -/
opaque nonce : Nat → Nat

/-- What stands for an address where a tensor access has none: the `tval` of a tensor access's address trap and the
page address of a record about a tile (R345, R354, log 23). -/
opaque tensorAddr : Nat → BitVec 64

/-- What another package answers to a WINCFG (R258, R372, log 25): the place of a status among those it may give. -/
opaque peerStatus : Nat → Nat

/-- How an access of a copy at another package ends (R74, R253, log 26): 0 done, 1 engine-side plot missing, else an
error. -/
opaque farAnswer : Nat → Nat

/-- A byte that a copy reads at another package (log 26). -/
opaque farByte : Nat → Byte

/-- The kind byte of the record about an inbound access that fails (R253, log 34): the spec names none. -/
opaque inboundKind : Nat → Byte

/-- The kind byte of the record about a request that a flow table drops (R314, log 35): the spec names none. -/
opaque dropKind : Nat → Byte

/-- The kind byte of the record about a ring link that goes down (R251, log 112): the spec names none. -/
opaque linkKind : Nat → Byte

/-- The kind byte of the record about a refused launch (R305, log 55): the spec names none. -/
opaque refuseKind : Nat → Byte

/-- The waves and sequencers that a launch over the domain has on other packages (R255, R317, log 50). -/
opaque farMembers : Nat → Nat

end Sys2Proof.Config
end

