-- ==== Sys2Proof/Machine/Aes.lean ====
section
/-! DEFINITION. AES-256 in XTS mode as memory lines are encrypted (R31): the cipher and its inverse on 16-byte blocks, the
tweak of a line, and what a line written under one key pair reads as under another (R35, R56). -/
namespace Sys2Proof.Machine

/-! ### The field of AES -/

/-- Multiply by x modulo x^8 + x^4 + x^3 + x + 1. -/
def xtime (b : Byte) : Byte := (b <<< 1) ^^^ (if b.getLsbD 7 then 0x1B else 0)

/-- The product of two field elements, over the bits of the second from its bit `n - 1` down. -/
def gmulAux (a b : Byte) : Nat → Byte
  | 0 => 0
  | n + 1 => xtime (gmulAux a (b >>> 1) n) ^^^ (if b.getLsbD 0 then a else 0)
/-- The product of two field elements. -/
def gmul (a b : Byte) : Byte := gmulAux a b 8

/-- The inverse of a field element, x^254; of 0 it is 0. -/
def ginv (a : Byte) : Byte :=
  let a2 := gmul a a
  let a3 := gmul a2 a
  let a6 := gmul a3 a3
  let a7 := gmul a6 a
  let a14 := gmul a7 a7
  let a15 := gmul a14 a
  let a30 := gmul a15 a15
  let a31 := gmul a30 a
  let a62 := gmul a31 a31
  let a63 := gmul a62 a
  let a126 := gmul a63 a63
  let a127 := gmul a126 a
  gmul a127 a127

/-- The substitution of AES. -/
def sbox (a : Byte) : Byte :=
  let b := ginv a
  b ^^^ b.rotateLeft 1 ^^^ b.rotateLeft 2 ^^^ b.rotateLeft 3 ^^^ b.rotateLeft 4 ^^^ 0x63
/-- Its inverse. -/
def sboxInv (a : Byte) : Byte := ginv (a.rotateLeft 1 ^^^ a.rotateLeft 3 ^^^ a.rotateLeft 6 ^^^ 0x05)

/-! ### The key schedule -/

/-- XOR of two byte lists. -/
def xorBytes (a b : List Byte) : List Byte := List.zipWith (· ^^^ ·) a b

/-- The next word of the schedule from the last one and the one eight before; `i` is its number, `rc` the round constant
it would use. -/
def keyWord (i : Nat) (rc : Byte) (last back : List Byte) : List Byte :=
  let t :=
    if i % 8 = 0 then
      match last.map sbox with
      | [a, b, c, d] => [b ^^^ rc, c, d, a]
      | l => l
    else if i % 8 = 4 then last.map sbox
    else last
  xorBytes back t

/-- Extend the schedule, newest word first. -/
def keyWords : Nat → Nat → Byte → List (List Byte) → List (List Byte)
  | 0, _, _, ws => ws
  | n + 1, i, rc, ws =>
    keyWords n (i + 1) (if i % 8 = 0 then xtime rc else rc) (keyWord i rc (nth [] ws 0) (nth [] ws 7) :: ws)

/-- The 15 round keys of a 32-byte key, first to last. -/
def roundKeys (key : List Byte) : List (List Byte) :=
  let ws := (keyWords 52 8 1 ((List.range 8).map (fun i => (key.drop (4 * i)).take 4)).reverse).reverse
  (List.range 15).map (fun r => ((ws.drop (4 * r)).take 4).flatMap id)

/-! ### Blocks -/

/-- Rotate the rows of a block; column-major as AES lays it out. -/
def shiftRows (b : List Byte) : List Byte := (List.range 16).map (fun i => nth 0 b ((i + 4 * (i % 4)) % 16))
/-- The rotation back. -/
def shiftRowsInv (b : List Byte) : List Byte := (List.range 16).map (fun i => nth 0 b ((i + 12 * (i % 4)) % 16))

/-- Multiply each column by the circulant matrix of a row of coefficients. -/
def mixColumns (row : List Byte) (b : List Byte) : List Byte :=
  (List.range 16).map (fun i =>
    ((List.range 4).map (fun j => gmul (nth 0 row ((j + 4 - i % 4) % 4)) (nth 0 b (4 * (i / 4) + j)))).foldl (· ^^^ ·) 0)

/-- Encrypt a block: the first round key is added before the rounds, and the last round mixes no columns. -/
def aesRounds : List (List Byte) → List Byte → List Byte
  | [], b => b
  | [k], b => xorBytes (shiftRows (b.map sbox)) k
  | k :: ks, b => aesRounds ks (xorBytes (mixColumns [2, 3, 1, 1] (shiftRows (b.map sbox))) k)
/-- AES-256 of one block. -/
def aesEnc (key b : List Byte) : List Byte :=
  match roundKeys key with
  | [] => b
  | k :: ks => aesRounds ks (xorBytes b k)

/-- Decrypt a block; the round keys come last to first. -/
def aesRoundsInv : List (List Byte) → List Byte → List Byte
  | [], b => b
  | [k], b => xorBytes ((shiftRowsInv b).map sboxInv) k
  | k :: ks, b => aesRoundsInv ks (mixColumns [14, 11, 13, 9] (xorBytes ((shiftRowsInv b).map sboxInv) k))
/-- The inverse of AES-256 of one block. -/
def aesDec (key b : List Byte) : List Byte :=
  match (roundKeys key).reverse with
  | [] => b
  | k :: ks => aesRoundsInv ks (xorBytes b k)

/-! ### XTS (R31) -/

/-- Multiply the tweak by x in GF(2^128), little-endian. -/
def tweakNext (t : BitVec 128) : BitVec 128 := (t <<< 1) ^^^ (if t.getLsbD 127 then 0x87 else 0)
/-- The tweak `j` steps on. -/
def tweakAt (t : BitVec 128) : Nat → BitVec 128
  | 0 => t
  | j + 1 => tweakNext (tweakAt t j)

/-- The key pair that Rotunda drew for an identity: the data key and the tweak key (R32, R34, log 12). -/
def dataKey (k : Nat) : List Byte := leBytes 32 (Config.keyPair k).toNat
/-- The second key of a pair. -/
def tweakKey (k : Nat) : List Byte := leBytes 32 ((Config.keyPair k).toNat / 2 ^ 256)

/-- The whitening of the 16-byte block that holds a physical address: the tweak is the address's bits 51:6, and block j
of the line is j steps on (R31). -/
def xtsMask (k pa : Nat) : List Byte :=
  leBytes 16 (tweakAt (BitVec.ofNat 128 (leVal (aesEnc (tweakKey k) (leBytes 16 (pa / 64))))) (pa / 16 % 4)).toNat

/-- The ciphertext of the 16-byte block that holds a physical address, under a key pair (R31). -/
def xtsEnc (k pa : Nat) (b : List Byte) : List Byte :=
  xorBytes (aesEnc (dataKey k) (xorBytes b (xtsMask k pa))) (xtsMask k pa)
/-- What a key pair makes of a block of ciphertext. -/
def xtsDec (k pa : Nat) (b : List Byte) : List Byte :=
  xorBytes (aesDec (dataKey k) (xorBytes b (xtsMask k pa))) (xtsMask k pa)

/-- What a block of plain bytes written under key pair `kw` reads as under `kr` (R35, R56). -/
def crossRead (kw kr pa : Nat) (b : List Byte) : List Byte := xtsDec kr pa (xtsEnc kw pa b)

end Sys2Proof.Machine
end

