-- ==== Sys2Proof/Machine/Memory.lean ====
section
/-! DEFINITION. Physical memory (R21, R22, R31 to R36, R42), the package store and the home copy as byte maps (R218),
page tables and tensors (R45 to R58), and who may reach an address. -/
namespace Sys2Proof.Machine

/-! ### The physical map -/

/-- What a physical address names (R21). -/
inductive PaKind where
  | dram
  | carve (way : Nat)
  | quadSp (q : Nat)
  | cuSp (c : Nat)
  | mmio
  | cxl
  | none
  deriving DecidableEq, Repr

def carveBase : Nat := 0x10000000000
def quadSpBase : Nat := 0x20000000000
def cuSpBase : Nat := 0x20040000000
def mmioBase : Nat := 0x30000000000
def cxlBase : Nat := 0x100000000000

/-- The resource of a physical address (R21). -/
def paKind (pa : Nat) : PaKind :=
  if pa < 0x8000000000 then .dram
  else if carveBase ≤ pa ∧ pa < carveBase + 0x40000000 then .carve ((pa - carveBase) / 0x2000000)
  else if quadSpBase ≤ pa ∧ pa < quadSpBase + 0x20000000 then .quadSp ((pa - quadSpBase) / 0x1000000)
  else if cuSpBase ≤ pa ∧ pa < cuSpBase + 0x6000000 then .cuSp ((pa - cuSpBase) / 0x80000)
  else if mmioBase ≤ pa ∧ pa < mmioBase + 0x100000000 then .mmio
  else if cxlBase ≤ pa ∧ pa < cxlBase + 0x80000000000 then .cxl
  else .none

/-- The scratchpad of a unit as a physical address: CU 0 to 191, quadrant 192 to 223 (R14, R21, R332). -/
def spadBase (u : Nat) : Nat :=
  if u < 192 then cuSpBase + u * 0x80000 else quadSpBase + (u - 192) * 0x1000000

/-- The bytes of a unit's scratchpad (R64). -/
def spadSize (u : Nat) : Nat := if u < 192 then 0x80000 else 0x1000000

/-- The die of a unit by its unit record index (R14). -/
def unitDie (u : Nat) : Nat := if u < 192 then 10 + u / 48 else 2 + (u - 192) / 4
/-- The number of a unit within its die (R14). -/
def unitIdx (u : Nat) : Nat := if u < 192 then u % 48 else (u - 192) % 4

/-- Die `n` as Rotunda knows it. -/
def State.die (s : State) (n : Nat) : Die := Tab.get {} s.plat.dies n

/-- The unit is present, its die's link is open and it is not fenced (R15, R17, R360). -/
def State.unitUp (s : State) (u : Nat) : Bool :=
  let d := s.die (unitDie u)
  d.link == .up && d.units.testBit (unitIdx u)

/-- The smallest capacity in GiB of the trained CXL devices (R30). -/
def State.cxlMin (s : State) : Nat :=
  match s.plat.cxl with
  | [] => 0
  | e :: t => t.foldl (fun m x => min m x.2) e.2
/-- The capacity of the CXL tier in GiB (R30). -/
def State.cxlGib (s : State) : Nat := s.plat.cxl.length * s.cxlMin

/-- The address is backed for a partition's access (R22, R30, R39, R359). -/
def State.backed (s : State) (part pa : Nat) : Bool :=
  match paKind pa with
  | .dram => !(Tab.get false s.ms.banksOff (1024 * (pa / 0x1000 % 8) + pa / 0x8000 % 1024))
  | .carve w =>
    let r := Tab.get 0 s.rot.orngWay w
    r.extractLsb' 30 2 == 2 && (r.extractLsb' 0 6).toNat == part
  | .quadSp q => s.unitUp (192 + q)
  | .cuSp c => s.unitUp c
  | .mmio => false
  | .cxl =>
    let off := pa - cxlBase
    let n := s.plat.cxl.length
    decide (off < s.cxlGib * 0x40000000) &&
      !(s.plat.cxlLost.contains (nth 0 (s.plat.cxl.map (fun e => e.1)) (off / 0x1000 % n)))
  | .none => false

/-- The line is written to DRAM or CXL, so it is encrypted (R31). -/
def keyed (pa : Nat) : Bool :=
  match paKind pa with
  | .dram => true
  | .cxl => true
  | _ => false

/-- A partition may name a key slot (R32, R33). -/
def State.slotOk (s : State) (part : Nat) (slot : BitVec 8) : Bool :=
  let k := Tab.get {} s.ms.keys slot.toNat
  k.st == 1 && (k.owner == part || k.shared)

/-- The sharer list of a sector (R265). -/
def State.sharers (s : State) (sector : Nat) : List SpanEnt := Tab.get [] s.ms.dir sector
/-- A walk of the address's sector meets no entry of another partition (R270). -/
def State.spanOk (s : State) (part pa : Nat) : Bool := (s.sharers (pa / 256)).all (fun e => e.part == part)

/-- The home answers an access without an address error (R22, R33, R270). -/
def State.reachable (s : State) (part : Nat) (slot : BitVec 8) (pa : Nat) : Bool :=
  s.backed part pa && (!(keyed pa) || s.slotOk part slot) && s.spanOk part pa

/-! ### Bytes of the package store and of the home copy -/

/-- The canonical form of memory: addresses strictly rising, no entry equal to what an unlisted address reads as. -/
def Memory.wf (m : List Host.Cell) : Bool := Tab.wf 0 m

/-- What an address that memory does not list reads as (log 1). -/
def Memory.unlisted : Byte := 0

/-- The byte that memory itself holds at a physical address, in the clear. -/
def State.homeByte (s : State) (pa : Nat) : Byte := Tab.get 0 s.mem pa
/-- Change a byte of memory; the canonical form is kept. -/
def State.setHome (s : State) (pa : Nat) (b : Byte) : State := { s with mem := Tab.set 0 s.mem pa b }

/-- The line carries a dropped marker (R42). -/
def State.isDropped (s : State) (pa : Nat) : Bool := Tab.get false s.ms.dropped (pa / 64)

/-- The key a slot holds (R32). -/
def State.keyOf (s : State) (slot : BitVec 8) : Nat := (Tab.get {} s.ms.keys slot.toNat).key

/-- The 64 addresses of a line. -/
def lineAddrs (pa : Nat) : List Nat := (List.range 64).map (fun i => 64 * (pa / 64) + i)

/-- The 16 bytes of memory around an address that XTS transforms as one block (R31). -/
def State.blockOf (s : State) (pa : Nat) : List Byte := (List.range 16).map (fun i => s.homeByte (pa / 16 * 16 + i))

/-- What memory gives an access under a slot: a line written under another key decrypts to unrelated bits (R31, R35,
R56); a dropped line reads zero (R42). -/
def State.memRead (s : State) (slot : BitVec 8) (pa : Nat) : Byte :=
  if s.isDropped pa then 0
  else if keyed pa then
    match Tab.find? s.ms.lineKey (pa / 64) with
    | none => s.homeByte pa
    | some kw =>
      if kw = s.keyOf slot then s.homeByte pa else nth 0 (crossRead kw (s.keyOf slot) pa (s.blockOf pa)) (pa % 16)
  else s.homeByte pa

/-- Before memory writes a line under a slot: a line of another key is merged as the bits that decrypt under this one,
and then belongs to this slot's key (R28, R31, R35). -/
def State.rekey (s : State) (slot : BitVec 8) (pa : Nat) : State :=
  if !keyed pa then s
  else
    let k := s.keyOf slot
    match Tab.find? s.ms.lineKey (pa / 64) with
    | none => { s with ms := { s.ms with lineKey := Tab.put s.ms.lineKey (pa / 64) k } }
    | some kw =>
      if kw = k then s
      else
        let s' := (lineAddrs pa).foldl (fun t a => t.setHome a (s.memRead slot a)) s
        { s' with ms := { s'.ms with lineKey := Tab.put s'.ms.lineKey (pa / 64) k } }

/-- Before a write to a dropped line: the line is zeros and the marker is cleared (R42). -/
def State.undrop (s : State) (pa : Nat) : State :=
  if s.isDropped pa then
    let s' := (lineAddrs pa).foldl (fun t a => t.setHome a 0) s
    { s' with ms := { s'.ms with dropped := Tab.erase s'.ms.dropped (pa / 64) } }
  else s

/-- Write a byte of memory under a slot. -/
def State.memWrite (s : State) (slot : BitVec 8) (pa : Nat) (b : Byte) : State :=
  ((s.rekey slot pa).undrop pa).setHome pa b

/-! ### The Orangery's lines (R36) -/

/-- The block of a line that an address lies in is valid. -/
def OLine.has (l : OLine) (pa : Nat) : Bool := l.valid.getLsbD (pa % 256 / 64)
/-- The block of a line that an address lies in is dirty. -/
def OLine.isDirty (l : OLine) (pa : Nat) : Bool := l.dirty.getLsbD (pa % 256 / 64)
/-- The bit of the block of an address. -/
def blockBit (pa : Nat) : BitVec 4 := BitVec.ofNat 4 (2 ^ (pa % 256 / 64))

/-- The line of an address under a slot, and its place; a hit requires the slot it is tagged with (R36). -/
def State.oline? (s : State) (slot : BitVec 8) (pa : Nat) : Option (Nat × OLine) :=
  List.find? (fun (e : Nat × OLine) => e.2.sector == pa / 256 && e.2.slot == slot) s.ms.orng
/-- The line of an address under a slot, where its block is valid. -/
def State.hit? (s : State) (slot : BitVec 8) (pa : Nat) : Option (Nat × OLine) :=
  (s.oline? slot pa).filter (fun e => e.2.has pa)
/-- Replace the line at a place. -/
def State.putLine (s : State) (k : Nat) (l : OLine) : State := { s with ms := { s.ms with orng := Tab.put s.ms.orng k l } }
/-- Invalidate the line at a place. -/
def State.dropLineAt (s : State) (k : Nat) : State := { s with ms := { s.ms with orng := Tab.erase s.ms.orng k } }

/-- A byte at the home under a slot (R218 level 5): from the Orangery, else from memory. -/
def State.homeRead (s : State) (slot : BitVec 8) (pa : Nat) : Byte :=
  match s.hit? slot pa with
  | some e => Tab.get 0 e.2.data (pa % 256)
  | none => s.memRead slot pa

/-- Write a byte at the home under a slot: into the Orangery where it hits, else into memory. -/
def State.homeWrite (s : State) (slot : BitVec 8) (pa : Nat) (b : Byte) : State :=
  match s.hit? slot pa with
  | some (k, l) => s.putLine k { l with data := Tab.set 0 l.data (pa % 256) b, dirty := l.dirty ||| blockBit pa }
  | none => s.memWrite slot pa b

/-- Write the dirty blocks of a line back to memory (R35, R40). -/
def State.backLine (s : State) (l : OLine) : State :=
  (List.range 256).foldl (fun t i =>
    if l.isDirty i then t.memWrite l.slot (256 * l.sector + i) (Tab.get 0 l.data i) else t) s
/-- Write back the line at a place and invalidate it. -/
def State.evictLine (s : State) (k : Nat) : State :=
  match Tab.find? s.ms.orng k with
  | some l => (s.backLine l).dropLineAt k
  | none => s

/-! ### Spans (R262 to R268) -/

/-- The word of its sector that an address lies in (R262). -/
def wordIn (pa : Nat) : Nat := pa % 256 / 4
/-- An entry shares a word with a span. -/
def SpanEnt.meets (e : SpanEnt) (lo hi : Nat) : Bool := decide (e.lo ≤ hi) && decide (lo ≤ e.hi)
/-- The entry may hold modified words. -/
def SpanEnt.owns (e : SpanEnt) : Bool := e.st == .m || e.st == .o
/-- The physical addresses of an entry's bytes. -/
def SpanEnt.addrs (e : SpanEnt) (sector : Nat) : List Nat := List.range' (256 * sector + 4 * e.lo) (4 * (e.hi + 1 - e.lo))

/-- The entry that holds the word of an address modified. -/
def State.ownerOf (s : State) (pa : Nat) : Option SpanEnt :=
  (s.sharers (pa / 256)).find? (fun e => e.owns && e.meets (wordIn pa) (wordIn pa))

/-- The byte that a peer cache holds modified, for an access under the slot it was filled under (R56, R267). -/
def State.peerByte (s : State) (slot : BitVec 8) (pa : Nat) : Option Byte :=
  match Tab.find? s.ms.dirty pa, s.ownerOf pa with
  | some b, some e => if e.slot = slot then some b else none
  | some b, none => some b
  | none, _ => none

/-- One byte of the package store under a slot (R218 level 3): what a peer cache holds modified, else the home copy. -/
def State.pkRead (s : State) (slot : BitVec 8) (pa : Nat) : Byte := (s.peerByte slot pa).getD (s.homeRead slot pa)

/-- A read of the byte finds a dropped line: nothing above memory holds it (R42). -/
def State.lostAt (s : State) (slot : BitVec 8) (pa : Nat) : Bool :=
  s.isDropped pa && (s.hit? slot pa).isNone && (s.peerByte slot pa).isNone

/-- An error that no code corrects has struck the line since it was last read, and no peer holds the byte: its next reader
receives zeros (R42). -/
def State.struck (s : State) (slot : BitVec 8) (pa : Nat) : Bool :=
  Tab.get .clean s.ms.latent (pa / 64) == .uncorrected && (s.peerByte slot pa).isNone

/-- `n` bytes of the package store. -/
def State.pkReadN (s : State) (slot : BitVec 8) (pa n : Nat) : List Byte :=
  (List.range n).map (fun i => s.pkRead slot (pa + i))
/-- `n` bytes of the home copy. -/
def State.syReadN (s : State) (slot : BitVec 8) (pa n : Nat) : List Byte :=
  (List.range n).map (fun i => s.homeRead slot (pa + i))

/-- A byte of the package store as a partition's access sees it: undefined where the partition has used the page both
cached and uncached and the byte has not been written since it last did (R271, log 13). -/
def State.pkSee (s : State) (part : Nat) (slot : BitVec 8) (pa : Nat) : Byte :=
  if Tab.get false s.ms.mixed (64 * pa + part) then Config.mixedByte (pa + s.free)
  else if s.struck slot pa then 0
  else s.pkRead slot pa

/-- `n` bytes as a partition's access sees them. -/
def State.pkSeeN (s : State) (part : Nat) (slot : BitVec 8) (pa n : Nat) : List Byte :=
  (List.range n).map (fun i => s.pkSee part slot (pa + i))

/-- Record accesses of a frame: bit 0 read, bit 1 written (R63). -/
def State.touch (s : State) (pa : Nat) (m : BitVec 2) : State :=
  { s with ms := { s.ms with frames := Tab.set 0 s.ms.frames (pa / 4096) (Tab.get 0 s.ms.frames (pa / 4096) ||| m) } }

/-- Note how a partition uses a frame (R271): cached or uncached; one used in both ways has undefined contents. -/
def State.noteUse (s : State) (part pa : Nat) (unc : Bool) : State :=
  let k := 64 * (pa / 4096) + part
  let u := Tab.get 0 s.ms.uses k ||| (if unc then 2 else 1)
  { s with ms := { s.ms with
      uses := Tab.put s.ms.uses k u,
      mixed := if u = 3 then
          (List.range 4096).foldl (fun t i => Tab.put t (64 * (pa / 4096 * 4096 + i) + part) true) s.ms.mixed
        else s.ms.mixed } }

/-- A write of a byte defines its contents again for each partition that does not use its page in both ways (R271). -/
def State.mend (s : State) (pa : Nat) : State :=
  { s with ms := { s.ms with
      mixed := s.ms.mixed.filter (fun e => !(e.1 / 64 == pa && Tab.get 0 s.ms.uses (64 * (pa / 4096) + e.1 % 64) != 3)) } }

/-- Change one byte of the package store: held modified in a peer cache, or at the home, where every peer copy of the
byte ends (R16, R218). -/
def State.setPk (s : State) (slot : BitVec 8) (peer : Bool) (pa : Nat) (b : Byte) : State :=
  if peer then { s with ms := { s.ms with dirty := Tab.put s.ms.dirty pa b } }
  else
    let s := s.homeWrite slot pa b
    { s with ms := { s.ms with dirty := Tab.erase s.ms.dirty pa } }

/-- The entry numbers a peer uses. -/
def State.peerIdx (s : State) (peer : Nat) : List Nat :=
  s.ms.dir.flatMap (fun e => (e.2.filter (fun x => x.peer == peer)).map (fun x => x.idx))
/-- The least number that is not in a list. -/
def leastFree (used : List Nat) : Nat := ((List.range (used.length + 1)).find? (fun i => !used.contains i)).getD used.length
/-- A free entry of a peer's cache: its index has 18 bits (R265, log 114). -/
def State.freeIdx (s : State) (peer : Nat) : Option Nat :=
  let i := leastFree (s.peerIdx peer)
  if i < 262144 then some i else none

/-- What is left of an entry that loses the words of a span (R268): the second run takes a free entry. -/
def SpanEnt.lose (e : SpanEnt) (lo hi : Nat) (idx : Option Nat) : List SpanEnt :=
  (if e.lo < lo then [{ e with hi := lo - 1 }] else []) ++
    (if hi < e.hi then [{ e with lo := hi + 1, idx := if e.lo < lo then idx.getD e.idx else e.idx }] else [])

/-- An entry of a list would split, and its peer has no fifth entry of the sector or no entry at all for the second run
(R268). -/
def crowded (all : List SpanEnt) (free : Nat → Option Nat) (lo hi : Nat) (e : SpanEnt) : Bool :=
  decide (e.lo < lo) && decide (hi < e.hi) &&
    (decide (4 ≤ (all.filter (fun x => x.peer == e.peer)).length) || (free e.peer).isNone)

/-- Write back what an entry holds modified (R268). -/
def State.backEntry (s : State) (sector : Nat) (e : SpanEnt) : State :=
  if e.owns then (e.addrs sector).foldl
    (fun t a => match Tab.find? t.ms.dirty a with
      | some b => t.setPk e.slot false a b
      | none => t) s
  else s

/-- A list after its entries lose the words of a span: an entry that cannot split is dropped whole (R268). -/
def loseWords (free : Nat → Option Nat) (lo hi : Nat) : List SpanEnt → List SpanEnt → List SpanEnt
  | _, [] => []
  | all, e :: t =>
    if e.meets lo hi then
      if crowded all free lo hi e then loseWords free lo hi all t
      else e.lose lo hi (free e.peer) ++ loseWords free lo hi all t
    else e :: loseWords free lo hi all t

/-- A write that arrives at the home without a grant ends every peer copy of a span of its sector at once; what the entries
held modified is written back first (R16, R267, R268). -/
def State.ioLose (s : State) (sector lo hi : Nat) : State :=
  let es := s.sharers sector
  if es.any (fun e => e.meets lo hi) then
    let free := s.freeIdx
    let s := (es.filter (fun e => e.meets lo hi)).foldl (fun t e => t.backEntry sector e) s
    { s with ms := { s.ms with dir := Tab.set [] s.ms.dir sector (loseWords free lo hi es es) } }
  else s

/-- The same for the words of `n` bytes, one span a sector. -/
def State.ioLoseN (s : State) (pa n : Nat) : State :=
  (List.range' (pa / 256) ((pa + n - 1) / 256 + 1 - pa / 256)).foldl (fun t sec =>
    t.ioLose sec (if sec = pa / 256 then wordIn pa else 0) (if sec = (pa + n - 1) / 256 then wordIn (pa + n - 1) else 63)) s

/-- Write a byte of the package store under a slot: into a peer cache that holds its word, or at the home. -/
def State.pkWrite (s : State) (slot : BitVec 8) (peer : Bool) (pa : Nat) (b : Byte) : State :=
  ((s.touch pa 2).mend pa).setPk slot peer pa b

/-- Write consecutive bytes one after another. -/
def State.pkPutN (s : State) (slot : BitVec 8) (peer : Bool) : Nat → List Byte → State
  | _, [] => s
  | pa, b :: t => State.pkPutN (s.pkWrite slot peer pa b) slot peer (pa + 1) t

/-- One write of consecutive bytes: at the home it ends the peer copies of all its words first (R267, R268). -/
def State.pkWriteN (s : State) (slot : BitVec 8) (peer : Bool) (pa : Nat) (bs : List Byte) : State :=
  match bs with
  | [] => s
  | _ => (if peer then s else s.ioLoseN pa bs.length).pkPutN slot peer pa bs

/-- Write a byte of the package store back to the home copy (R218). -/
def State.writeBack (s : State) (pa : Nat) : State :=
  match Tab.find? s.ms.dirty pa with
  | some b => s.setPk (((s.ownerOf pa).map (fun e => e.slot)).getD 0) false pa b
  | none => s

/-! ### Scratchpads -/

/-- Read `n` bytes of a unit's scratchpad. -/
def State.spadRead (s : State) (u off n : Nat) : List Byte :=
  (List.range n).map (fun i => s.homeByte (spadBase u + off + i))

/-- Write bytes into a unit's scratchpad. -/
def State.spadWrite (s : State) (u : Nat) : Nat → List Byte → State
  | _, [] => s
  | off, b :: t => State.spadWrite (s.setHome (spadBase u + off) b) u (off + 1) t

/-! ### Page tables (R45 to R49) -/

/-- How a translation ends (R48, R55). -/
inductive XRes where
  | ok (x : Xlat)
  | notPresent
  | protect
  | bad
  deriving DecidableEq, Repr

/-- The bytes of a leaf's page by its `sz` (R47). -/
def pageBytes (sz : Nat) : Nat := nth 0x1000 [0x1000, 0x10000, 0x200000, 0x4000000, 0x80000000] sz
/-- The entries of a leaf's aligned group at its level (R46). -/
def groupEntries (sz : Nat) : Nat := nth 1 [1, 16, 1, 32, 2] sz
/-- A leaf size stands at this level (R48). -/
def leafLevel (level sz : Nat) : Bool :=
  (level == 0 && sz ≤ 1) || (level == 1 && (sz == 2 || sz == 3)) || (level == 2 && sz == 4)

/-- The physical address of an entry's `pfn` (R47). -/
def pteBase (e : DWord) : Nat := (e.extractLsb' 12 40).toNat * 4096
/-- An entry's key slot. -/
def pteSlot (e : DWord) : BitVec 8 := e.extractLsb' 56 8
/-- An entry's `unc` bit. -/
def pteUnc (e : DWord) : Bool := e.getLsbD 6

/-- The permission an access needs (R49). -/
def permOk (e : DWord) (need : Perm) : Bool :=
  match need with
  | .read => e.getLsbD 3
  | .write => e.getLsbD 4
  | .readWrite => e.getLsbD 3 && e.getLsbD 4
  | .fetch => e.getLsbD 5

/-- An 8-byte entry of a table at a physical address, read at package scope by a walker (R42, R48). -/
def State.tableEntry (s : State) (pa : Nat) : DWord :=
  if s.struck 0 pa then 0 else BitVec.ofNat 64 (leVal (s.pkReadN 0 pa 8))

/-- A leaf entry found at a level (R47, R48). -/
def leafResult (part level : Nat) (e : DWord) (va : Nat) (need : Perm) : XRes :=
  let sz := (e.extractLsb' 9 3).toNat
  let size := pageBytes sz
  if !leafLevel level sz || e.extractLsb' 52 4 != 0 || e.getLsbD 2 || pteBase e % size != 0 || !permOk e need then
    .protect
  else .ok { part := part, tid := none, base := va - va % size, size := size, pte := e }

/-- A walker's entry for an address at a level: one that it keeps, or the table's (R51). -/
def State.walkEntry (s : State) (part va level pa : Nat) : DWord :=
  match s.ms.upper.find? (fun u => u.part == part && u.level == level && u.at_ == va / 2 ^ (12 + 9 * level)) with
  | some u => u.pte
  | none => s.tableEntry pa

/-- The walk from a table down; the argument is the level plus one (R48). -/
def State.walk (s : State) (part va : Nat) (need : Perm) : Nat → Nat → XRes
  | 0, _ => .protect
  | level + 1, tbl =>
    let idx := va / 2 ^ (12 + 9 * level) % (if level = 4 then 256 else 512)
    let e := s.walkEntry part va level (tbl + 8 * idx)
    match (e.extractLsb' 0 2).toNat with
    | 0 => .notPresent
    | 1 =>
      if e.extractLsb' 52 12 != 0 || e.extractLsb' 2 10 != 0 then .protect
      else State.walk s part va need level (pteBase e)
    | 2 =>
      let n := groupEntries (e.extractLsb' 9 3).toNat
      if !leafLevel level (e.extractLsb' 9 3).toNat then .protect
      else if n = 1 then leafResult part level e va need
      else
        let first := s.tableEntry (tbl + 8 * (idx - idx % n))
        match (first.extractLsb' 0 2).toNat with
        | 0 => .notPresent
        | 2 => leafResult part level first va need
        | _ => .protect
    | _ => .protect

/-- The entries above a leaf that a walk reads, which its walker may keep (R51). -/
def State.walkPath (s : State) (part va : Nat) : Nat → Nat → List Upper
  | 0, _ => []
  | level + 1, tbl =>
    let idx := va / 2 ^ (12 + 9 * level) % (if level = 4 then 256 else 512)
    let e := s.walkEntry part va level (tbl + 8 * idx)
    if (e.extractLsb' 0 2).toNat = 1 then
      { part := part, level := level, at_ := va / 2 ^ (12 + 9 * level), pte := e } :: State.walkPath s part va level (pteBase e)
    else []

/-- Bits 63:56 of a flat address are zero (R45). -/
def flatOk (va : DWord) : Bool := va.extractLsb' 56 8 == 0

/-- A fresh walk of a flat address (R48, R50). -/
def State.walkFlat (s : State) (part : Nat) (va : Nat) (need : Perm) : XRes :=
  let root := Tab.get 0 s.rot.ptRoot part
  if root.getLsbD 0 then s.walk part va need 5 ((root.extractLsb' 12 40).toNat * 4096) else .notPresent

/-- A cached translation covers a flat address. -/
def Xlat.covers (x : Xlat) (part va : Nat) : Bool :=
  x.part == part && x.tid == none && decide (x.base ≤ va) && decide (va < x.base + x.size)

/-- What a cached translation answers (R49). -/
def Xlat.answer (x : Xlat) (need : Perm) : XRes := if permOk x.pte need then .ok x else .protect

/-- The cached translation that a stream finds for a page or tile (R51, R57). -/
def State.cached (s : State) (st : Stream) (hit : Xlat → Bool) : Option Xlat :=
  (st.cur.toList ++ st.next.toList ++ s.ms.tlb).find? hit

/-- Translate a flat address for a stream: by its page registers, a cached translation, or a walk (R48, R50, R51, R57). -/
def State.xlatFlat (s : State) (part : Nat) (st : Stream) (va : DWord) (need : Perm) : XRes :=
  if !flatOk va then .bad
  else if !(Tab.get 0 s.rot.ptRoot part).getLsbD 0 then .notPresent
  else
    match s.cached st (fun x => x.covers part va.toNat) with
    | some x => x.answer need
    | none => s.walkFlat part va.toNat need

/-- The physical address of a flat address under its translation. -/
def Xlat.flatPa (x : Xlat) (va : DWord) : Nat := pteBase x.pte + (va.toNat - x.base)

/-! ### Tensors (R52 to R56) -/

/-- A tensor record (R53). -/
structure Tensor where
  ndim  : Nat
  ebits : Nat
  ttab  : Nat
  ext   : List Nat
  lt    : List Nat
  deriving DecidableEq, Repr

/-- Bits of an element by `ebits` (R53). -/
def ebitsBits (e : Nat) : Nat := nth 0 [4, 0, 8, 16, 32, 64] e

/-- The tile's bytes (R53). -/
def Tensor.tileBytes (t : Tensor) : Nat := 2 ^ t.lt.sum * ebitsBits t.ebits / 8

/-- A record's rules hold (R53). -/
def Tensor.wf (t : Tensor) (flags : Nat) (pad : Bool) : Bool :=
  pad && flags == 1 && decide (1 ≤ t.ndim) && decide (t.ndim ≤ 10) && ebitsBits t.ebits != 0 && t.ttab % 8 == 0 &&
  (t.ext.zipIdx.all (fun p => if p.2 < t.ndim then decide (1 ≤ p.1) && decide (p.1 ≤ 2 ^ 31) else p.1 == 1)) &&
  (t.lt.zipIdx.all (fun p => decide (p.1 ≤ 35) && (decide (p.2 < t.ndim) || p.1 == 0))) &&
  decide (t.lt.sum ≤ 40) && decide (0x10000 ≤ t.tileBytes) && decide (t.tileBytes ≤ 0x80000000)

/-- The record of a tensor identifier of a partition; none where it is malformed or does not exist (R52, R53). -/
def State.tensor (s : State) (part tid : Nat) : Option Tensor :=
  let ctl := Tab.get 0 s.rot.ttCtl part
  let lg := min 20 (ctl.extractLsb' 0 5).toNat
  if !ctl.getLsbD 5 || decide (2 ^ lg ≤ tid) then none
  else
    let bs := s.pkReadN 0 ((ctl.extractLsb' 12 40).toNat * 4096 + 128 * tid) 128
    let fld := fun o n => leVal ((bs.drop o).take n)
    let t : Tensor :=
      { ndim := fld 0 1, ebits := fld 1 1, ttab := fld 8 8,
        ext := (List.range 10).map (fun i => fld (16 + 4 * i) 4), lt := (List.range 10).map (fun i => fld (56 + i) 1) }
    if t.wf (fld 2 1) (fld 3 5 == 0 && fld 66 62 == 0) then some t else none

/-- The descriptor's tensor identifier, where the descriptor is valid (R54). -/
def descTid (d : Word) : Option Nat := if d.getLsbD 31 then some (d.extractLsb' 0 20).toNat else none

/-- Tile number and linear index of coordinates (R55). -/
def Tensor.locateAux : List Nat → List Nat → List Nat → Nat → Nat → Nat → Nat → Nat × Nat
  | c :: cs, e :: es, l :: ls, tile, lin, ts, est =>
    Tensor.locateAux cs es ls (tile + c / 2 ^ l * ts) (lin + c % 2 ^ l * est)
      (ts * ((e + 2 ^ l - 1) / 2 ^ l)) (est * 2 ^ l)
  | _, _, _, tile, lin, _, _ => (tile, lin)

/-- Tile, byte offset and, for a 4-bit element, whether it is the high nibble; none where a coordinate lies outside
(R55). -/
def Tensor.locate (t : Tensor) (c : List Nat) : Option (Nat × Nat × Bool) :=
  if (List.range 10).all (fun i => decide (nth 0 c i < nth 1 t.ext i)) then
    let (tile, lin) := Tensor.locateAux ((List.range 10).map (nth 0 c)) t.ext t.lt 0 0 1 1
    some (tile, lin * ebitsBits t.ebits / 8, t.ebits == 0 && lin % 2 == 1)
  else none

/-- A fresh walk of a tile (R55, R56). -/
def State.walkTile (s : State) (part tid : Nat) (t : Tensor) (tile : Nat) (need : Perm) : XRes :=
  let e := s.tableEntry (t.ttab + 8 * tile)
  match (e.extractLsb' 0 2).toNat with
  | 0 => .notPresent
  | 2 =>
    if e.extractLsb' 52 4 != 0 || e.extractLsb' 9 3 != 0 || e.getLsbD 2 || e.getLsbD 5 ||
        pteBase e % t.tileBytes != 0 || !permOk e need then .protect
    else .ok { part := part, tid := some tid, base := tile, size := t.tileBytes, pte := e }
  | _ => .protect

/-- Translate a tile for a stream (R51, R56, R57). -/
def State.xlatTile (s : State) (part : Nat) (st : Stream) (tid : Nat) (t : Tensor) (tile : Nat)
    (need : Perm) : XRes :=
  match s.cached st (fun x => x.part == part && x.tid == some tid && x.base == tile) with
  | some x => x.answer need
  | none => s.walkTile part tid t tile need

/-- The addresses of the table entries that a walk reads, beside the ones that its walker keeps (R48, R51). -/
def State.walkReads (s : State) (part va : Nat) : Nat → Nat → List Nat
  | 0, _ => []
  | level + 1, tbl =>
    let idx := va / 2 ^ (12 + 9 * level) % (if level = 4 then 256 else 512)
    let pa := tbl + 8 * idx
    let e := s.walkEntry part va level pa
    let here :=
      if s.ms.upper.any (fun u => u.part == part && u.level == level && u.at_ == va / 2 ^ (12 + 9 * level)) then [] else [pa]
    match (e.extractLsb' 0 2).toNat with
    | 1 => here ++ State.walkReads s part va level (pteBase e)
    | 2 =>
      let n := groupEntries (e.extractLsb' 9 3).toNat
      if n = 1 ∨ idx % n = 0 then here else here ++ [tbl + 8 * (idx - idx % n)]
    | _ => here

/-- The addresses that the walk for a key reads: table entries, and for a tile the entry of its table (R48, R55). -/
def State.keyReads (s : State) (part : Nat) (k : VKey) : List Nat :=
  match k with
  | .flat va =>
    let root := Tab.get 0 s.rot.ptRoot part
    if flatOk va && root.getLsbD 0 then s.walkReads part va.toNat 5 ((root.extractLsb' 12 40).toNat * 4096) else []
  | .tile tid tile _ => ((s.tensor part tid).map (fun t => t.ttab + 8 * tile)).toList

/-- Translate the key of a held or side-logged access afresh. -/
def State.walkKey (s : State) (part : Nat) (k : VKey) (need : Perm) : XRes :=
  match k with
  | .flat va => if flatOk va then s.walkFlat part va.toNat need else .bad
  | .tile tid tile _ =>
    match s.tensor part tid with
    | some t => s.walkTile part tid t tile need
    | none => .bad

/-- A walk for the translation alone, whatever the access will need; it never faults (R58). -/
def State.walkAny (s : State) (part : Nat) (k : VKey) : Option Xlat :=
  [Perm.read, Perm.write, Perm.fetch].findSome? (fun need => match s.walkKey part k need with
    | .ok x => some x
    | _ => none)

/-- A translation answers for a key. -/
def Xlat.serves (x : Xlat) (part : Nat) (k : VKey) : Bool :=
  match k with
  | .flat va => x.covers part va.toNat
  | .tile tid tile _ => x.part == part && x.tid == some tid && x.base == tile

/-- The key of the page or tile beside a translation. -/
def Xlat.beside (x : Xlat) (back : Bool) : VKey :=
  match x.tid with
  | none => .flat (BitVec.ofNat 64 (if back then x.base - 1 else x.base + x.size))
  | some t => .tile t (if back then x.base - 1 else x.base + 1) 0

/-- The bytes from one access of a stream to the next: 0 where they lie in different spaces (R57). -/
def VKey.stepTo (a b : VKey) (size : Nat) : Int :=
  match a, b with
  | .flat x, .flat y => (y.toNat : Int) - x.toNat
  | .tile t n o, .tile t' n' o' => if t = t' then ((n' : Int) - n) * size + ((o' : Int) - o) else 0
  | _, _ => 0
/-- Where a key lies in its page or tile. -/
def VKey.offIn (k : VKey) (x : Xlat) : Nat :=
  match k with
  | .flat va => va.toNat - x.base
  | .tile _ _ off => off

/-- A stream's page registers after an access to a key (R57): the page held in the next-page register becomes current,
any other new page empties it; within `npd` bytes of the page's end in the direction of the stride, the walk for the
page beside it starts, unless the stride is zero or larger than the page, or that page is held, being walked for, or the last
that was walked for from this page. DESIGN CHOICE (log 81), where the rule is silent: a walk that found no translation is not
tried again while the stream stays in the page and keeps its direction. -/
def Stream.enter (st : Stream) (npd : Nat) (k : VKey) (x : Xlat) : Stream :=
  let stride := match st.last with
    | some l => l.stepTo k x.size
    | none => 0
  let st : Stream := if st.cur = some x then st else { cur := some x }
  let st := { st with last := some k, stride := stride }
  let o := k.offIn x
  let near := if 0 < stride then decide (x.size ≤ o + npd) else decide (o < npd) && decide (0 < x.base)
  let nb := x.beside (decide (stride < 0))
  let held : Bool := st.next.any (fun (y : Xlat) => y.serves y.part nb)
  if npd ≠ 0 ∧ stride ≠ 0 ∧ stride.natAbs ≤ x.size ∧ near ∧ !held ∧ st.walk ≠ some nb ∧ st.tried ≠ some nb then
    { st with walk := some nb }
  else st

/-- The stream leaves its page for one whose walk is still running: it waits for the walk (R57). -/
def State.streamWaits (s : State) (part : Nat) (st : Stream) (k : VKey) : Bool :=
  !(st.cur.toList ++ st.next.toList).any (fun x => x.serves part k) &&
    match st.walk with
    | some w => (s.walkAny part w).any (fun x => x.serves part k)
    | none => false

/-- The walk for the neighbouring page ends: its translation stands in the next-page register, or the register stays
empty (R57, R58). -/
def State.streamWalked (s : State) (part : Nat) (st : Stream) : Stream :=
  match st.walk with
  | some w => { st with next := s.walkAny part w, walk := none, tried := some w }
  | none => st

/-- The distance of `npdist`, rounded down to a multiple of 64 (R58). -/
def npDistance (w : Word) : Nat := (w &&& 0x3FFFC0).toNat

/-- An agent's stream after an access: a wave alone has one (R57). -/
def Agent.enter (ag : Agent) (k : VKey) (x : Xlat) : Agent :=
  match ag.profile with
  | .wave => { ag with strm := ag.strm.enter (npDistance ag.npdist) k x }
  | _ => ag

/-- The physical address of a key under its translation. -/
def VKey.pa (k : VKey) (x : Xlat) : Nat :=
  match k with
  | .flat va => x.flatPa va
  | .tile _ _ off => pteBase x.pte + off

/-- Two keys lie in the same page of a size, or in the same tile. -/
def VKey.inPage (size : Nat) (a b : VKey) : Bool :=
  match a, b with
  | .flat x, .flat y => x.toNat / size == y.toNat / size
  | .tile t n _, .tile t' n' _ => t == t' && n == n'
  | _, _ => false

/-- Two keys lie in the same 4 KiB, or in the same tile: where no translation says more. -/
def VKey.samePage (a b : VKey) : Bool := VKey.inPage 4096 a b

/-- Two keys of a partition lie in the same page as the present translation of the first maps it (R62); in the same 4 KiB
where none does. -/
def State.samePage (s : State) (part : Nat) (a b : VKey) : Bool :=
  VKey.inPage (match a, s.walkAny part a with
    | .flat _, some x => x.size
    | _, _ => 4096) a b

end Sys2Proof.Machine
end

