-- ==== Sys2Proof/Machine/Records.lean ====
section
/-! DEFINITION. Reading and replacing agents and units, who moves, error records and fault events (R43, R329, R353, R354,
R378), and who owns a line. -/
namespace Sys2Proof.Machine

/-- The outcome of a step of this machine. -/
abbrev Out := Host.Outcome State Fault Refusal

/-! ### Agents and units -/

/-- An agent by its number. -/
def State.agent? (s : State) (id : Nat) : Option Agent := Tab.find? s.agents id
/-- Replace an agent. -/
def State.putAgent (s : State) (id : Nat) (ag : Agent) : State := { s with agents := Tab.put s.agents id ag }
/-- A unit by its unit record index (R332). -/
def State.unit (s : State) (u : Nat) : UnitSt := Tab.get {} s.units u
/-- Replace a unit. -/
def State.putUnit (s : State) (u : Nat) (x : UnitSt) : State := { s with units := Tab.put s.units u x }
/-- A quadrant by its unit index 0 to 31 (R14). -/
def State.quad (s : State) (q : Nat) : QuadSt := Tab.get {} s.quads q
/-- Replace a quadrant's engine state. -/
def State.putQuad (s : State) (q : Nat) (x : QuadSt) : State := { s with quads := Tab.put s.quads q x }
/-- Change an agent, if it exists. -/
def State.updAgent (s : State) (id : Nat) (f : Agent → Agent) : State :=
  match s.agent? id with
  | some ag => s.putAgent id (f ag)
  | none => s

/-- Agent numbers: a wave is 16 × CU + slot, a sequencer 4096 + quadrant, a core 8192 + its index. -/
def seqBase : Nat := 4096
def coreBase : Nat := 8192
/-- Agents of saved contexts: 32 to a context (R355). -/
def savedBase : Nat := 1048576
/-- Ended agents whose writes or window traffic still go on (R293). -/
def ghostBase : Nat := 4294967296

/-- The unit record index an agent runs on: its CU or its quadrant (R332). -/
def Agent.unit (ag : Agent) : Nat :=
  match ag.profile with
  | .wave => 48 * (ag.die.toNat - 10) + ag.cu.toNat
  | .sequencer => 192 + 4 * (ag.die.toNat - 2) + ag.cu.toNat
  | .host => 256

/-- The unit number an error record's event names: none for a core. -/
def Agent.unitWord (ag : Agent) : Word :=
  match ag.profile with
  | .host => 0xFFFFFFFF
  | _ => BitVec.ofNat 32 ag.unit

/-- The mover of a Jexath instruction: the live agent whose turn it is. -/
def State.mover (s : State) : Option (Nat × Agent) :=
  match s.cur with
  | .agent id =>
    match s.agent? id with
    | some ag => if ag.live then some (id, ag) else none
    | none => none
  | _ => none

/-- A meaning of a Jexath instruction over its mover. -/
def onMover (s : State) (k : Nat → Agent → State) : Out :=
  match s.mover with
  | some (id, ag) => .next (k id ag)
  | none => .fault .noMover

/-- The next free value's number; reading one advances the counter (log 8). -/
def State.draw (s : State) : Nat × State := (s.free, { s with free := s.free + 1 })

/-! ### Writes of the package store, and who waits on a line -/

/-- A core's addresses are physical while its partition's translation is off (log 17). -/
def Agent.physical (s : State) (ag : Agent) : Bool :=
  ag.profile == .host && !(Tab.get 0 s.rot.ptRoot ag.part).getLsbD 0

/-- The identity translation: read, write and fetch, cached, key slot 0. -/
def Xlat.identity (part : Nat) : Xlat := { part := part, tid := none, base := 0, size := 2 ^ 56, pte := 0x3A }

/-- Translate a flat address for an agent (R45 to R51, R57). -/
def State.xlatAg (s : State) (ag : Agent) (va : DWord) (need : Perm) : XRes :=
  if !flatOk va then .bad
  else if ag.physical s then .ok (Xlat.identity ag.part)
  else s.xlatFlat ag.part ag.strm va need

/-- Make ready the waves that wait on the line of a physical address, after a write reached the package store (R239). -/
def State.wakePa (s : State) (pa : Nat) : State :=
  { s with agents := s.agents.map (fun e =>
      match e.2.wait with
      | .waitwOut w =>
        if w.getLsbD 63 then e
        else
          match s.xlatAg e.2 w .read with
          | .ok x => if x.flatPa w / 64 = pa / 64 then (e.1, { e.2 with wait := .waitwReady w }) else e
          | _ => e
      | _ => e) }

/-- One write of consecutive bytes of the package store that reaches its lines: who waits on them is made ready (R239). -/
def State.pkStore (s : State) (slot : BitVec 8) (peer : Bool) (pa : Nat) (bs : List Byte) : State :=
  (List.range' (pa / 64) ((pa + bs.length - 1) / 64 + 1 - pa / 64)).foldl (fun t l => t.wakePa (64 * l)) (s.pkWriteN slot peer pa bs)

/-! ### Routes of the fabric (R243, R245, R251) -/

/-- The bridge station of a path, link die 14 or 15, is present (R245). -/
def State.stationUp (s : State) (path : Nat) : Bool := (s.die (14 + path / 2)).link == .up
/-- No bridge station is present: the package has no route off its ring (R245). -/
def State.noRoute (s : State) : Bool := !s.stationUp 0 && !s.stationUp 2

/-- The ring link that a path off the package takes: through the other station where its own is absent, and in the other
direction where the link has failed (R245). -/
def State.routeOf (s : State) (path : Nat) : Option Nat :=
  let up := fun (n : Nat) => !(Tab.get {} s.plat.links n).down
  let p := if s.stationUp path then path else path ^^^ 2
  if !s.stationUp p then none
  else if up p then some p
  else if up (p ^^^ 1) then some (p ^^^ 1)
  else none

/-- Send one flit of a path off the package; the sender holds it until it is acknowledged (R245, R251). -/
def State.sendFlit (s : State) (path : Nat) : State :=
  match s.routeOf path with
  | none => s
  | some n =>
    let l := Tab.get {} s.plat.links n
    { s with plat := { s.plat with
        links := Tab.put s.plat.links n { l with unacked := l.unacked ++ [(l.seq, 0)], seq := l.seq + 1 } } }

/-- Send one flit off the package on the lowest-numbered path that is available (R243). -/
def State.sendOff (s : State) : State :=
  match (List.range 4).find? (fun p => (s.routeOf p).isSome) with
  | some p => s.sendFlit p
  | none => s

/-! ### Error records and fault events -/

/-- The capacity of a ring by its `lgcap` field (R353). -/
def ringCap (lg : Nat) : Nat := 2 ^ (max 4 (min 16 lg))

/-- Append a record to ring `n` (partitions 0 to 63, 64 the resident service's), located by a register: written at
package scope with the tail after it, or counted only while the ring is not in use (R353). -/
def State.ringAppend (s : State) (n : Nat) (reg : DWord) (rec : List Byte) : State :=
  let tail := Tab.get 0 s.rot.ringTail n
  let s :=
    if reg.getLsbD 63 then
      let base := (reg.extractLsb' 12 40).toNat * 4096
      let cap := ringCap (reg.extractLsb' 0 5).toNat
      (s.pkStore 0 false (base + 64 + 32 * (tail % cap)) rec).pkStore 0 false base (leBytes 8 (tail + 1))
    else s
  { s with rot := { s.rot with ringTail := Tab.set 0 s.rot.ringTail n (tail + 1) } }

/-- A partition's policy state. -/
def State.pol (s : State) (p : Nat) : Pol := Tab.get {} s.hub.pol p
/-- Replace a partition's policy state. -/
def State.putPol (s : State) (p : Nat) (x : Pol) : State :=
  { s with hub := { s.hub with pol := Tab.put s.hub.pol p x } }

/-- The policy control register of a partition: reset budget 256, slice 20 (R342). -/
def State.polCtl (s : State) (p : Nat) : DWord := Tab.get 0x01000014 s.rot.polCtl p
/-- The partition's program decides its events; a number without a partition raises none (R328, R343). -/
def State.polRuns (s : State) (p : Nat) : Bool :=
  (s.polCtl p).getLsbD 63 && !(s.pol p).cur.isEmpty && (Tab.find? s.hub.parts p).isSome

/-- Increment one of the four counters of a partition: 0 `n_dec`, 1 `n_over`, 2 `n_rej`, 3 `n_ovf` (R342). -/
def State.polCount (s : State) (p i : Nat) : State :=
  { s with rot := { s.rot with polCnt := Tab.set 0 s.rot.polCnt (4 * p + i) (Tab.get 0 s.rot.polCnt (4 * p + i) + 1) } }

/-- Raise a decision event: into the queue of 64 entries, or, when it is full, to the fallback (R328). -/
def State.raiseEvent (s : State) (p : Nat) (e : PolEvent) : State :=
  let x := s.pol p
  if x.evq.length < 64 then s.putPol p { x with evq := x.evq ++ [e] }
  else
    let s := s.putPol p { x with ovf := x.ovf ++ [e] }
    if s.polRuns p then s.polCount p 3 else s

/-- The launch queue record of a launch with a group running or saved (R330, R378). -/
def State.launchRecord (s : State) (l : Nat) : Option Word :=
  match Tab.find? s.hub.launches l with
  | some x => if x.live.isEmpty && x.saved.isEmpty then none else some (BitVec.ofNat 32 (64 + x.queue))
  | none => none

/-- What an error record says of the job (R378): that it concerns none; nothing, so that it is every job's; which
launch, or which launches. -/
inductive JobRef where
  | noJob
  | everyJob
  | job (l : Nat)
  | jobs (ls : List Nat)
  deriving DecidableEq, Repr

/-- The launches an event is raised for, each a queue record and the launch (R329, R378). -/
def State.jobRecords (s : State) (p : Nat) (j : JobRef) : List (Word × Nat) :=
  let every :=
    let ws := s.hub.launches.filterMap (fun e =>
      if e.2.part = p then (s.launchRecord e.1).map (fun w => (w, e.1)) else none)
    if ws.isEmpty then [(0xFFFFFFFF, 0)] else ws
  let one := fun (l : Nat) =>
    if (Tab.find? s.hub.launches l).any (fun x => x.part != p) then every
    else
      match s.launchRecord l with
      | some w => [(w, l)]
      | none => [(0xFFFFFFFF, 0)]
  match j with
  | .noJob => [(0xFFFFFFFF, 0)]
  | .job l => one l
  | .jobs ls => ls.flatMap one
  | .everyJob => every

/-- An error record: kind, die of the first reader, slot, address, last word (R43, R354). -/
structure ErrRec where
  kind : Nat
  die  : Byte := 0
  slot : Byte := 0
  pa   : DWord := 0
  w12  : Word := 0
  deriving DecidableEq, Repr

/-- The 32 bytes of a record (R43). -/
def ErrRec.bytes (e : ErrRec) (part count : Nat) (time : DWord) : List Byte :=
  [BitVec.ofNat 8 e.kind, e.die, BitVec.ofNat 8 (part % 64), e.slot] ++ leBytes 8 e.pa.toNat ++ leBytes 4 e.w12.toNat ++
    leBytes 8 time.toNat ++ leBytes 4 count ++ leBytes 4 0

/-- Write an error record of a partition to its ring and to the resident service's, which the cores' event queue takes (log 51), and
raise the fault events (R43, R329, R352, R353, R378). -/
def State.record (s : State) (part : Nat) (e : ErrRec) (j : JobRef) (unit : Word) : State :=
  let key := 64 * e.kind + part
  let count := (Tab.get 0 s.rot.recCount key + 1) % 2 ^ 32
  let s := { s with rot := { s.rot with recCount := Tab.set 0 s.rot.recCount key count } }
  let bs := e.bytes part count s.ntime
  let s := s.ringAppend part (Tab.get 0 s.rot.errRing part) bs
  let s := s.ringAppend 64 s.rot.rsErr bs
  let s := { s with plat := { s.plat with hostQ := s.plat.hostQ ++ [HostEvent.record e.kind] } }
  let tail := Tab.get 0 s.rot.ringTail part
  (s.jobRecords part j).foldl
    (fun t w => t.raiseEvent part
      { entry := 2, trig := e.kind, q1 := unit, q2 := BitVec.ofNat 32 count, q3 := w.1, who := w.2, tail := tail }) s

/-- A record for the resident service alone: its ring and the cores' event queue (R42, R352, R353). -/
def State.recordRs (s : State) (part : Nat) (e : ErrRec) : State :=
  let key := 64 * e.kind + part
  let count := (Tab.get 0 s.rot.recCount key + 1) % 2 ^ 32
  let s := { s with rot := { s.rot with recCount := Tab.set 0 s.rot.recCount key count } }
  let s := s.ringAppend 64 s.rot.rsErr (e.bytes part count s.ntime)
  { s with plat := { s.plat with hostQ := s.plat.hostQ ++ [.record e.kind] } }

/-- Record what an access that its home answers with an error shows: a slot that may not be named (kind 0x20), or a
sector of another partition (kind 0x31); an unbacked address leaves no record (R22, R33, R270, R378). -/
def State.violation (s : State) (part : Nat) (slot : BitVec 8) (pa : Nat) (j : JobRef) (unit : Word) (die : Byte) : State :=
  if !s.backed part pa then s
  else if keyed pa && !s.slotOk part slot then
    s.record part { kind := 0x20, die := die, slot := slot, pa := BitVec.ofNat 64 (pa / 64 * 64) } j unit
  else if !s.spanOk part pa then
    s.record part { kind := 0x31, die := die, slot := slot, pa := BitVec.ofNat 64 (pa / 64 * 64) } j unit
  else s

/-- The job that a record about an agent's access names: a core belongs to no launch (R378). -/
def Agent.jobRef (ag : Agent) : JobRef := if ag.profile = .host then .everyJob else .job ag.launch

/-- The same for an access of an agent (R378): its launch and its unit. -/
def State.violationOf (s : State) (ag : Agent) (slot : BitVec 8) (pa : Nat) : State :=
  s.violation ag.part slot pa ag.jobRef ag.unitWord ag.die

/-- The owner of a physical line: the owner of the slot whose key it was written under, or of its carve-out way (R33,
R37). -/
def State.lineOwner (s : State) (pa : Nat) : Option (Nat × BitVec 8) :=
  match paKind pa with
  | .carve w =>
    let r := Tab.get 0 s.rot.orngWay w
    if r.extractLsb' 30 2 = 2 then some ((r.extractLsb' 0 6).toNat, r.extractLsb' 8 8) else none
  | _ =>
    (Tab.find? s.ms.lineKey (pa / 64)).bind (fun k =>
      (List.find? (fun (e : Nat × KeySlot) => e.2.st == 1 && e.2.key == k) s.ms.keys).map
        (fun e => (e.2.owner, BitVec.ofNat 8 e.1)))

/-- The record kind of a line that memory dropped, by where it lies (R43). -/
def dropKind (pa : Nat) : Nat :=
  match paKind pa with
  | .dram => 0x10
  | .cxl => 0x13
  | _ => 0x11

/-- A record about a dropped line or block (R42, R43, R378): it is the owning partition's; `part` and `slot` name the
access where the line has no owner. -/
def State.recordLoss (s : State) (kind part : Nat) (slot : BitVec 8) (pa : Nat) (die : Byte) (j : JobRef) (unit : Word) : State :=
  s.record (((s.lineOwner pa).map (fun e => e.1)).getD part)
    { kind := kind, die := die, slot := slot, pa := BitVec.ofNat 64 (pa / 64 * 64) } j unit
/-- The record of a read that finds a line dropped (R42). -/
def State.recordDrop (s : State) (part : Nat) (slot : BitVec 8) (pa : Nat) (die : Byte) (j : JobRef) (unit : Word) : State :=
  s.recordLoss (dropKind pa) part slot pa die j unit

end Sys2Proof.Machine
end

