-- ==== Sys2Proof/Machine/Coherence.lean ====
section
/-! DEFINITION. Span coherence (R262 to R273): the transactions of a sector, evictions, and the clean-up after a peer
is isolated. -/
namespace Sys2Proof.Machine

/-- The peer number of an agent's die (R265): the control die, the vector dies; an array die is no peer. -/
def Agent.peer (ag : Agent) : Nat :=
  match ag.profile with
  | .wave => ag.die.toNat - 8
  | .sequencer => 0
  | .host => 1

/-- The peer cache that an agent's access goes through (R16, R271): a home-side scratchpad or an uncached page has none. -/
def Agent.writePeer (ag : Agent) (unc : Bool) (pa : Nat) : Nat :=
  if unc then 0
  else
    match paKind pa with
    | .quadSp _ => 0
    | .cuSp _ => 0
    | _ => ag.peer

/-- Insert an entry: behind the last entry of its peer, else at the head (R266). -/
def insertSpan (e : SpanEnt) : List SpanEnt → List SpanEnt
  | [] => [e]
  | x :: t =>
    if x.peer = e.peer then
      let mine := (x :: t).takeWhile (fun y => y.peer == e.peer)
      mine ++ e :: (x :: t).dropWhile (fun y => y.peer == e.peer)
    else if (x :: t).any (fun y => y.peer == e.peer) then x :: insertSpan e t
    else e :: x :: t

/-- Replace a sector's list. -/
def State.putSharers (s : State) (sector : Nat) (es : List SpanEnt) : State :=
  { s with ms := { s.ms with dir := Tab.set [] s.ms.dir sector es } }

/-- An entry's state after it has answered a read shared by another peer (R267). -/
def SpanEnt.shared (e : SpanEnt) : SpanEnt :=
  { e with st := match e.st with
      | .m => .o
      | .o => .o
      | _ => .s }

/-- Make room for one more entry of a peer: its last entry of the sector is written back and leaves (R262, R269). -/
def State.spanRoom (s : State) (sector peer : Nat) : State :=
  let mine := (s.sharers sector).filter (fun e => e.peer == peer)
  match mine.getLast? with
  | some e => if 4 ≤ mine.length then (s.backEntry sector e).putSharers sector ((s.sharers sector).filter (fun x => x != e)) else s
  | none => s

/-- Every word of a span lies in entries of a peer that satisfy `ok`. -/
def spanHeld (es : List SpanEnt) (peer lo hi : Nat) (ok : SpanEnt → Bool) : Bool :=
  (List.range' lo (hi + 1 - lo)).all (fun w => es.any (fun e => e.peer == peer && e.meets w w && ok e))

/-- A peer's fill: its frame's grant is recorded (R63), and its entry, under a free index, enters the list (R266); a peer
without a free entry fills nothing. -/
def State.spanFill (s : State) (sector : Nat) (e : SpanEnt) (write : Bool) : State :=
  let s := (s.spanRoom sector e.peer).touch (256 * sector) (if write then 3 else 1)
  match s.freeIdx e.peer with
  | some i => s.putSharers sector (insertSpan { e with idx := i } (s.sharers sector))
  | none => s

/-- Entries that must be dropped whole because they would split and their peer has no entry for the second run write back
what they hold modified (R268). -/
def State.backCrowded (s : State) (sector lo hi : Nat) : State :=
  let es := s.sharers sector
  (es.filter (crowded es s.freeIdx lo hi)).foldl (fun t e => t.backEntry sector e) s

/-- A sector's entries but for some lose the words of a span (R267, R268). -/
def State.spanLose (s : State) (sector lo hi : Nat) (keep : SpanEnt → Bool) : State :=
  let es := s.sharers sector
  let s := s.backCrowded sector lo hi
  s.putSharers sector (es.flatMap (fun e => if keep e then [e] else loseWords s.freeIdx lo hi es [e]))

/-- The maximal runs of words of a span that satisfy `p`. -/
def wordRuns (p : Nat → Bool) (lo hi : Nat) : List (Nat × Nat) :=
  (List.range' lo (hi + 1 - lo)).foldl (fun acc w =>
    if !p w then acc
    else
      match acc.getLast? with
      | some (a, b) => if b + 1 = w then acc.dropLast ++ [(a, w)] else acc ++ [(w, w)]
      | none => [(w, w)]) []

/-- A transaction whose walk meets no entry of another partition (R267); an upgrade of a whole entry keeps its place. A read
fills the words that the peer does not hold yet. -/
def State.spanRun (s : State) (r : SpanReq) : State :=
  let es := s.sharers r.sector
  let mine : SpanEnt := { peer := r.peer, slot := r.slot, st := .m, lo := r.lo, hi := r.hi, part := r.part }
  match r.kind with
  | .readShared =>
    let missing := wordRuns (fun w => !es.any (fun e => e.peer == r.peer && e.meets w w)) r.lo r.hi
    if missing.isEmpty then s
    else
      let other := fun (e : SpanEnt) => e.peer != r.peer && e.meets r.lo r.hi
      let st : Moesi := if es.any other then .s else .e
      let s := s.putSharers r.sector (es.map (fun e => if other e then e.shared else e))
      missing.foldl (fun t w => t.spanFill r.sector { mine with st := st, lo := w.1, hi := w.2 } false) s
  | .readOwn =>
    if spanHeld es r.peer r.lo r.hi (fun e => e.st == .m || e.st == .e) then
      s.putSharers r.sector (es.map (fun e => if e.peer = r.peer ∧ e.meets r.lo r.hi then { e with st := .m } else e))
    else
      let same := fun (e : SpanEnt) => e.peer == r.peer && e.lo == r.lo && e.hi == r.hi
      let s := s.spanLose r.sector r.lo r.hi same
      if es.any same then
        (s.touch (256 * r.sector) 3).putSharers r.sector
          ((s.sharers r.sector).map (fun e => if same e then { e with st := .m } else e))
      else s.spanFill r.sector mine true
  | .ioRead => s.touch (256 * r.sector) 1
  | .ioWrite =>
    let s := (es.filter (fun e => e.meets r.lo r.hi)).foldl (fun t e => t.backEntry r.sector e) s
    (s.touch (256 * r.sector) 2).spanLose r.sector r.lo r.hi (fun _ => false)

/-- The die of a peer (R265). -/
def peerDie (peer : Nat) : Nat := if peer ≤ 1 then peer else 8 + peer
/-- A peer's link lets its requests through (R273): a fenced die's caches stay empty. -/
def State.peerUp (s : State) (peer : Nat) : Bool :=
  let l := (s.die (peerDie peer)).link
  peer == 0 || l == .up || (peer == 1 && l == .down)

/-- A request that a peer makes (R263, R271): it asks for the ownership of no more than a span it holds there, and for a sector
of a page that its partition uses, cached alone, under a slot that is not shared: no other page enters a list. -/
def State.spanAsked (s : State) (r : SpanReq) : Bool :=
  let es := s.sharers r.sector
  let cached := r.kind == .readShared || r.kind == .readOwn
  decide (r.lo ≤ r.hi) && decide (r.hi ≤ 63) && decide (r.peer ≤ 5) && (!cached || r.peer != 0) && s.peerUp r.peer &&
  (r.kind != .readOwn || es.all (fun e => !(e.peer == r.peer && e.meets r.lo r.hi) || (decide (e.lo ≤ r.lo) && decide (r.hi ≤ e.hi)))) &&
  (!cached || (Tab.get 0 s.ms.uses (64 * (256 * r.sector / 4096) + r.part) == 1 && !(Tab.get {} s.ms.keys r.slot.toNat).shared))

/-- SPAN_TRANSACTION (R263, R267, R270): a request that its home answers with an address error, because its walk meets an entry
of another partition or its slot may not be named, is recorded. -/
def execSpanTransaction (r : SpanReq) (s : State) : Out :=
  .next (
    let pa := 256 * r.sector
    if !s.spanAsked r || !s.backed r.part pa then s
    else if !s.reachable r.part r.slot pa then
      s.violation r.part r.slot pa .everyJob 0xFFFFFFFF (BitVec.ofNat 8 (peerDie r.peer))
    else s.spanRun r)

/-- SPAN_EVICTION (R269): the entry writes back what it still holds modified and leaves the list. -/
def execSpanEviction (sector n : Nat) (s : State) : Out :=
  .next (match (s.sharers sector)[n]? with
    | some e => (s.backEntry sector e).putSharers sector (dropNth (s.sharers sector) n)
    | none => s)

/-- The requests of a peer for the words that hold the bytes of an access, one a sector (R263); a fenced die's peer makes none
(R273). -/
def State.askWords (s : State) (kind : SpanKind) (peer part : Nat) (slot : BitVec 8) (pa n : Nat) : State :=
  if !s.peerUp peer then s
  else (List.range' (pa / 256) ((pa + n - 1) / 256 + 1 - pa / 256)).foldl (fun t sec =>
    t.spanRun { kind := kind, peer := peer, sector := sec, part := part, slot := slot,
                lo := if sec = pa / 256 then wordIn pa else 0,
                hi := if sec = (pa + n - 1) / 256 then wordIn (pa + n - 1) else 63 }) s

/-- The words of a span of an isolated peer revert to the home copy, entries that hold them lose them, and the
partition has its record (R273). -/
def State.revertSpan (s : State) (sector : Nat) (e : SpanEnt) : State :=
  let s := { s with ms := { s.ms with dirty := (e.addrs sector).foldl Tab.erase s.ms.dirty } }
  let s := s.spanLose sector e.lo e.hi (fun _ => false)
  s.record e.part { kind := 0x30, slot := e.slot, pa := BitVec.ofNat 64 (256 * sector),
                    w12 := BitVec.ofNat 32 (e.lo + 256 * e.hi) } .everyJob 0xFFFFFFFF

/-- The clean-up of every sector after a peer is isolated (R273). -/
def State.cleanPeer (s : State) (peer : Nat) : State :=
  s.ms.dir.foldl (fun t e =>
    let mine := e.2.filter (fun x => x.peer == peer)
    let t := t.putSharers e.1 ((t.sharers e.1).filter (fun x => x.peer != peer))
    (mine.filter SpanEnt.owns).foldl (fun u x => u.revertSpan e.1 x) t) s

end Sys2Proof.Machine
end

