-- ==== Sys2Proof/Machine/Orangery.lean ====
section
/-! DEFINITION. The Orangery's ways, lines and monitors (R36 to R41), and what the check codes find (R28, R42, R44). -/
namespace Sys2Proof.Machine

/-! ### Ways -/

/-- `kind` of a way (R37). -/
def wayKind (r : Word) : Nat := (r.extractLsb' 30 2).toNat
/-- `owner` of a way (R37). -/
def wayOwner (r : Word) : Nat := (r.extractLsb' 0 6).toNat
/-- A way register (R37). -/
def wayWord (kind slot owner : Nat) : Word := BitVec.ofNat 32 (kind * 2 ^ 30 + slot * 256 + owner)

/-- What a way is, or is on its way to be: kind and owner (R40). -/
def State.wayGoal (s : State) (w : Nat) : Nat × Nat :=
  match Tab.find? s.ms.moves w with
  | some m => (if m.kind = 4 then 1 else m.kind, m.owner)
  | none => let r := Tab.get 0 s.rot.orngWay w; (wayKind r, wayOwner r)

/-- The ways a partition holds, or is to hold, of a kind. -/
def State.waysOf (s : State) (p kind : Nat) : List Nat := (List.range 32).filter (fun w => s.wayGoal w == (kind, p))
/-- The ways whose register names a partition and a kind: none that is being cleaned (R37, R40). -/
def State.waysNow (s : State) (p kind : Nat) : List Nat :=
  (List.range 32).filter (fun w => let r := Tab.get 0 s.rot.orngWay w; wayKind r == kind && wayOwner r == p)
/-- The free ways. -/
def State.freeWays (s : State) : List Nat := (List.range 32).filter (fun w => wayKind (Tab.get 0 s.rot.orngWay w) == 0)
/-- The ways a partition holds in all. DESIGN CHOICE (log 79), where the rules are silent: a way in cleaning counts as its new
owner's. -/
def State.heldWays (s : State) (p : Nat) : Nat := (s.waysOf p 1).length + (s.waysOf p 2).length
/-- A limit register's fields: enabled, `cocap`, `ceil`, `floor` (R38). -/
def limEn (v : Word) : Bool := v.getLsbD 31
def limCocap (v : Word) : Nat := (v.extractLsb' 16 6).toNat
def limCeil (v : Word) : Nat := (v.extractLsb' 8 6).toNat
def limFloor (v : Word) : Nat := (v.extractLsb' 0 6).toNat
/-- A partition's limits. -/
def State.lim (s : State) (p : Nat) : Word := Tab.get 0 s.rot.orngLim p

/-- Begin to move a way: `kind` becomes 3 (R40). -/
def State.moveWay (s : State) (w : Nat) (m : WayMove) : State :=
  let r := Tab.get 0 s.rot.orngWay w
  { s with rot := { s.rot with orngWay := Tab.set 0 s.rot.orngWay w (r ||| 0xC0000000) },
           ms := { s.ms with moves := Tab.put s.ms.moves w m } }

/-- The sampled hits of a partition at a depth of its stack model (R41). -/
def State.hitsAt (s : State) (p d : Nat) : Nat := Tab.get 0 s.ms.hits (64 * p + d)
/-- A partition above its floor with a cache way to give. DESIGN CHOICE (log 79), where the rules are silent: the floor protects
a partition's ways whether it is enabled or not. -/
def State.canGive (s : State) (p : Nat) : Bool :=
  !(s.waysNow p 1).isEmpty && decide (limFloor (s.lim p) < s.heldWays p)
/-- The hits at a partition's deepest held position, at the depth of its `c_ways` (R39, R41). -/
def State.deepHits (s : State) (p : Nat) : Nat := s.hitsAt p (s.waysNow p 1).length

/-- The first of a list with the least value. -/
def leastBy (f : Nat → Nat) : List Nat → Option Nat
  | [] => none
  | p :: t =>
    match leastBy f t with
    | none => some p
    | some q => if f q < f p then some q else some p

/-- The donor of a way among the other partitions: fewest sampled hits at its deepest position, lowest number (R39). -/
def State.donor (s : State) (p : Nat) : Option Nat :=
  leastBy s.deepHits ((List.range 64).filter (fun q => q != p && s.canGive q))

/-- Take `n` carve-out ways for a partition in the order of R39: its own cache ways, free ways, other partitions. -/
def State.carveWays (s : State) (p slot : Nat) : Nat → State
  | 0 => s
  | n + 1 =>
    let w := match (s.waysNow p 1).head? with
      | some w => some w
      | none =>
        match s.freeWays.head? with
        | some w => some w
        | none => (s.donor p).bind (fun q => (s.waysNow q 1).head?)
    match w with
    | some w => State.carveWays (s.moveWay w { kind := 2, slot := slot, owner := p }) p slot n
    | none => s

/-- A carve-out change of a partition is in progress (R39). -/
def State.splitBusy (s : State) (p : Nat) : Bool :=
  s.ms.moves.any (fun e => e.2.owner == p && (e.2.kind == 2 || e.2.kind == 4))

/-- Clean and free cache ways until a partition meets a lowered `ceil` (R38). -/
def State.shrinkTo (s : State) (p ceil : Nat) : Nat → State
  | 0 => s
  | n + 1 =>
    if s.heldWays p ≤ ceil then s
    else
      match (s.waysNow p 1 ++ s.waysOf p 1).head? with
      | some w => State.shrinkTo (s.moveWay w { kind := 0, slot := 0, owner := 0 }) p ceil n
      | none => s

/-- A write of `orng_lim[p]` (R38). -/
def State.writeLim (s : State) (p : Nat) (v : Word) : State :=
  let v := v &&& 0x803F3F3F
  let floors := ((List.range 64).map (fun q =>
    let x := if q = p then v else s.lim q
    if limEn x then limFloor x else 0)).sum
  if limFloor v ≤ limCeil v ∧ limCeil v ≤ 32 ∧ limCocap v ≤ limCeil v ∧ (s.waysOf p 2).length ≤ limCocap v ∧ floors ≤ 32 then
    ({ s with rot := { s.rot with orngLim := Tab.set 0 s.rot.orngLim p v } }).shrinkTo p (limCeil v) 32
  else { s with rot := { s.rot with orngLimrej := s.rot.orngLimrej + 1 } }

/-- ORNG_LIM_WRITE (R38). -/
def execOrngLimWrite (p : Nat) (v : BitVec 32) (s : State) : Out := .next (if 63 < p then s else s.writeLim p v)

/-- The bytes of a carve-out way. -/
def wayBytes : Nat := 0x2000000

/-- A write of `orng_split[p]` (R39): a request granted whole or rejected. DESIGN CHOICE (log 116), where the rule is silent:
a decrease keeps the lowest-numbered carve-out ways and releases the others; a slot is LOADED for a partition where
the partition owns it, so that another's shared slot is not; `rej` stands until bit 31 is written as 1. -/
def State.writeSplit (s : State) (p : Nat) (v : Word) : State :=
  let old := Tab.get 0 s.rot.orngSplit p
  let put := fun (s : State) (x : Word) => { s with rot := { s.rot with orngSplit := Tab.set 0 s.rot.orngSplit p x } }
  let req := (v.extractLsb' 16 6).toNat
  let slot : BitVec 8 := v.extractLsb' 22 8
  let co := (s.waysOf p 2).length
  let own := (s.waysNow p 1).length
  let inc := req - co
  let outside := inc - own
  let supply := ((List.range 64).map (fun q =>
    if q = p then 0 else min (s.waysNow q 1).length (s.heldWays q - limFloor (s.lim q)))).sum
  let k := Tab.get {} s.ms.keys slot.toNat
  if limCocap (s.lim p) < req ∨ !(k.st == 1 && k.owner == p) ∨ s.splitBusy p ∨ s.freeWays.length + supply < outside ∨
      (0 < outside ∧ limCeil (s.lim p) < s.heldWays p + outside) then put s (old ||| 0x80000000)
  else
    let s := put s ((v &&& 0x3FFF0000) ||| (if v.getLsbD 31 then 0 else old &&& 0x80000000))
    if co ≤ req then s.carveWays p slot.toNat inc
    else ((s.waysOf p 2).drop req).foldl (fun t w => t.moveWay w { kind := 4, slot := 0, owner := p }) s

/-- ORNG_SPLIT_WRITE (R39). -/
def execOrngSplitWrite (p : Nat) (v : BitVec 32) (s : State) : Out := .next (if 63 < p then s else s.writeSplit p v)

/-- The value of `orng_split[p]` as it reads (R39). -/
def State.readSplit (s : State) (p : Nat) : Word :=
  (Tab.get 0 s.rot.orngSplit p &&& 0xBFFF0000) ||| (if s.splitBusy p then 0x40000000 else 0) |||
    BitVec.ofNat 32 ((s.waysNow p 2).length * 256 + (s.waysNow p 1).length)

/-- Forget everything at a range of physical addresses but the home copy's zeros. -/
def State.zeroRange (s : State) (lo n : Nat) : State :=
  { s with
    mem := Tab.dropRange s.mem lo n,
    ms := { s.ms with
      dirty := Tab.dropRange s.ms.dirty lo n,
      l1 := s.ms.l1.map (fun e => (e.1, Tab.dropRange e.2 lo n)),
      l2 := s.ms.l2.map (fun e => (e.1, Tab.dropRange e.2 lo n)),
      l1at := s.ms.l1at.map (fun e => (e.1, Tab.dropRange e.2 lo n)),
      l2at := s.ms.l2at.map (fun e => (e.1, Tab.dropRange e.2 lo n)),
      dir := Tab.dropRange s.ms.dir (lo / 256) (n / 256),
      dropped := Tab.dropRange s.ms.dropped (lo / 64) (n / 64),
      latent := Tab.dropRange s.ms.latent (lo / 64) (n / 64) } }

/-- The places of the Orangery's lines in a way. -/
def State.linesOf (s : State) (w : Nat) : List Nat := (s.ms.orng.map (fun e => e.1)).filter (fun k => k % 32 == w)

/-- WAY_CLEANING (R40): the end of a way's cleaning: its dirty blocks are written back, and in one step its lines are
invalid and its register has its new value; a carve-out way is zeros when it appears and when it leaves (R39). -/
def execWayCleaning (w : Nat) (s : State) : Out :=
  .next (match Tab.find? s.ms.moves w with
    | none => s
    | some m =>
      let s := (s.linesOf w).foldl State.evictLine s
      let s := if m.kind = 2 ∨ m.kind = 4 then s.zeroRange (carveBase + w * wayBytes) wayBytes else s
      { s with
        rot := { s.rot with orngWay := Tab.set 0 s.rot.orngWay w (wayWord (if m.kind = 4 then 1 else m.kind) m.slot m.owner) },
        ms := { s.ms with moves := Tab.erase s.ms.moves w } })

/-- Move one way to a partition: a free one, else the given donor's. -/
def State.giveWay (s : State) (p : Nat) (from_ : Option Nat) : State :=
  let w := match from_ with
    | none => s.freeWays.head?
    | some q => (s.waysNow q 1).head?
  match w with
  | some w => s.moveWay w { kind := 1, slot := 0, owner := p }
  | none => s

/-- The move of an epoch's end (R41). DESIGN CHOICE (log 116): a free way, whose loss is 0, goes before a partition whose loss
is 0. -/
def State.epochMove (s : State) : State :=
  let en := (List.range 64).filter (fun p => limEn (s.lim p))
  match en.find? (fun p => decide (s.heldWays p < limFloor (s.lim p))) with
  | some p =>
    if s.freeWays.isEmpty then
      match s.donor p with
      | some q => s.giveWay p (some q)
      | none => s
    else s.giveWay p none
  | none =>
    let takers := en.filter (fun p => decide (s.heldWays p < limCeil (s.lim p)))
    let gain := fun p => s.hitsAt p ((s.waysNow p 1).length + 1)
    match leastBy (fun p => 2 ^ 64 - gain p) takers with
    | none => s
    | some p =>
      if !s.freeWays.isEmpty then (if 64 ≤ gain p then s.giveWay p none else s)
      else
        match s.donor p with
        | some q => if s.deepHits q + 64 ≤ gain p then s.giveWay p (some q) else s
        | none => s

/-- ORANGERY_EPOCH (R41): at most one way moves, and the counters reset. -/
def execOrangeryEpoch (s : State) : Out :=
  let s := s.epochMove
  .next { s with ms := { s.ms with hits := [] } }

/-- An access at the home looks up a watched set: a hit is counted at its depth of the partition's stack (R41). -/
def State.sample (s : State) (part pa : Nat) : State :=
  let line := pa / 256
  if keyed pa ∧ line % 131072 % 512 = 0 ∧ limEn (s.lim part) then
    let key := 256 * part + line % 131072 / 512
    let st := Tab.get [] s.ms.lru key
    let d := st.idxOf line
    let h := 64 * part + d + 1
    { s with ms := { s.ms with
        lru := Tab.put s.ms.lru key ((line :: st.filter (fun x => x != line)).take 32),
        hits := if d < st.length then Tab.set 0 s.ms.hits h (Tab.get 0 s.ms.hits h + 1) else s.ms.hits } }
  else s

/-! ### Lines -/

/-- The set of an address (R36). -/
def setOf (pa : Nat) : Nat := pa / 256 % 131072

/-- Fill a block at a way of its set: into the line that stands there for its sector and slot, or in the place of
another, which is written back (R36). -/
def State.fillAt (s : State) (slot : BitVec 8) (pa w : Nat) : State :=
  let k := 32 * setOf pa + w
  let here := (Tab.find? s.ms.orng k).filter (fun l => l.sector == pa / 256 && l.slot == slot)
  let s := if here.isNone then s.evictLine k else s
  let l : OLine := here.getD { sector := pa / 256, slot := slot }
  s.putLine k { l with
    valid := l.valid ||| blockBit pa,
    data := (lineAddrs pa).foldl (fun t a => Tab.set 0 t (a % 256) (s.memRead slot a)) l.data }

/-- An access at the home that misses may fill its block (R36, R40, log 28): into the way that holds the line, unless that
is being cleaned, else into one of its partition's cache ways. -/
def State.fillLine (s : State) (part : Nat) (slot : BitVec 8) (pa : Nat) : State :=
  if !keyed pa || (s.hit? slot pa).isSome || s.isDropped pa then s
  else
    let cache := fun w => wayKind (Tab.get 0 s.rot.orngWay w) == 1
    let ways := match s.oline? slot pa with
      | some e => [e.1 % 32].filter cache
      | none => s.waysNow part 1
    if ways.isEmpty then s
    else
      let (n, s) := s.draw
      let r := Config.fillWay n % (ways.length + 1)
      if r = 0 then s else s.fillAt slot pa (nth 0 ways (r - 1))

/-! ### Errors of the stores -/

/-- A store corrected an error: its counter, and the resident service's record when it crosses the threshold (R42). -/
def State.corrected (s : State) (orng : Bool) (pa : Nat) : State :=
  let note := fun (s : State) (kind : Nat) (c thr : Word) =>
    if thr ≠ 0 ∧ c = thr then s.recordRs 0 { kind := kind, pa := BitVec.ofNat 64 (pa / 64 * 64) } else s
  match orng, paKind pa with
  | false, .dram =>
    let c := s.ms.corrDram + 1
    note { s with ms := { s.ms with corrDram := c } } 0x01 c s.ms.thrDram
  | false, .cxl => { s with ms := { s.ms with corrCxl := s.ms.corrCxl + 1 } }
  | _, _ =>
    let c := s.ms.corrOrng + 1
    note { s with ms := { s.ms with corrOrng := c } } 0x02 c s.ms.thrOrng

/-- Memory drops a line: its marker is set (R42). -/
def State.dropLine (s : State) (pa : Nat) : State :=
  { s with ms := { s.ms with dropped := Tab.set false s.ms.dropped (pa / 64) true } }

/-- A block of a line drops: it is no longer valid, and where it was dirty, memory holds it as a dropped line (R42). -/
def State.dropBlock (s : State) (k : Nat) (l : OLine) (pa : Nat) : State :=
  let s := if l.isDirty pa then s.dropLine pa else s
  s.putLine k { l with valid := l.valid &&& ~~~(blockBit pa), dirty := l.dirty &&& ~~~(blockBit pa) }

/-- A parity error in the tag of the line at a way of a set: the line is lost whether clean or dirty, memory stays as last written
back, and the way's owner has its record (R44). DESIGN CHOICE (log 131), where the rules are silent: no reader and no slot are
named, so that the record's die and slot bytes are 0. -/
def State.loseLine (s : State) (w set : Nat) : State :=
  let r := Tab.get 0 s.rot.orngWay w
  if (wayKind r = 1 ∨ wayKind r = 3) ∧ (Tab.find? s.ms.orng (32 * set + w)).isSome then
    (s.dropLineAt (32 * set + w)).record (wayOwner r) { kind := 0x12, w12 := BitVec.ofNat 32 set } .everyJob 0xFFFFFFFF
  else s

/-- Every one of `n` bytes is held modified by a peer, so that a read of them does not reach the home's store (R267). -/
def State.peerHolds (s : State) (slot : BitVec 8) (pa n : Nat) : Bool :=
  (List.range' pa n).all (fun a => (s.peerByte slot a).isSome)

/-- What the check codes find at a read of bytes of one line at the home, in the Orangery where it hits and else in memory: a
corrected error is counted, an uncorrected one drops the block or the line (R42, R44). A read that brings no finding of its
own meets what has struck the line since (log 127). The answer is the record kind of a block that the reader finds dropped
(R43). Scratchpads have no such code. DESIGN CHOICE (log 131), where the rule is silent: a dropped block of a carve-out way,
which has no memory behind it, keeps a dropped marker until it is written. -/
def State.eccEvent (s : State) (slot : BitVec 8) (pa n : Nat) (e : Ecc) : State × Option Nat :=
  let orng := match paKind pa with
    | .carve _ => true
    | _ => false
  if s.peerHolds slot pa n then (s, none)
  else
    let e := if e = .clean then Tab.get .clean s.ms.latent (pa / 64) else e
    let s := { s with ms := { s.ms with latent := Tab.erase s.ms.latent (pa / 64) } }
    match e with
    | .clean => (s, none)
    | .corrected =>
      if keyed pa then (s.corrected (s.hit? slot pa).isSome pa, none)
      else if orng then (s.corrected true pa, none)
      else (s, none)
    | .uncorrected =>
      if keyed pa then
        match s.hit? slot pa with
        | some (k, l) => (s.dropBlock k l pa, some 0x11)
        | none => (s.dropLine pa, some (dropKind pa))
      else if orng then (s.dropLine pa, some 0x11)
      else (s, none)
    | .lostTag w _ => (if keyed pa then s.loseLine w (setOf pa) else s, none)

/-- A read that arrives at the package store (R41, R42, R63): the frame's record, the sample, what the check codes find, and a
fill. The answer is the record kind of a line or block that the reader finds dropped: it then receives zeros. -/
def State.arriveRead (s : State) (part : Nat) (slot : BitVec 8) (pa n : Nat) (ecc : Ecc) : State × Option Nat :=
  let s := (s.touch pa 1).sample part pa
  let (s, k) := s.eccEvent slot pa n ecc
  match k with
  | some k => (s, some k)
  | none =>
    if (List.range' pa n).any (s.lostAt slot) then (s, some (dropKind pa)) else (s.fillLine part slot pa, none)

/-- The step says with `later` that an error strikes a line after the visit, which its next read meets (R42, log 127). -/
def State.strike (s : State) (pa : Nat) (ecc : Ecc) : State :=
  match ecc with
  | .corrected => { s with ms := { s.ms with latent := Tab.put s.ms.latent (pa / 64) ecc } }
  | .uncorrected => { s with ms := { s.ms with latent := Tab.put s.ms.latent (pa / 64) ecc } }
  | _ => s

/-- PATROL_SCRUB (R28, R42): a DRAM line is visited; a line dropped so has no first reader. -/
def execPatrolScrub (line : Nat) (ecc : Ecc) (later : Bool) (s : State) : Out :=
  let pa := 64 * line
  .next (if later then s.strike pa ecc
    else if paKind pa ≠ .dram then s
    else
      match ecc with
      | .corrected => s.corrected false pa
      | .uncorrected =>
        let s := s.dropLine pa
        match s.lineOwner pa with
        | some (p, n) => s.recordDrop p n pa 0 .everyJob 0xFFFFFFFF
        | none => s
      | _ => s)

/-- A dirty block is found bad when its line is written back: memory holds a dropped line, and its owner has the record (R42,
R43, R378). -/
def State.badWriteBack (s : State) (k pa : Nat) : State :=
  match Tab.find? s.ms.orng k with
  | some l =>
    if l.sector = pa / 256 ∧ l.has pa ∧ l.isDirty pa then
      let own := wayOwner (Tab.get 0 s.rot.orngWay (k % 32))
      ((s.dropBlock k l pa).evictLine k).recordLoss 0x11 own l.slot pa 0 .everyJob 0xFFFFFFFF
    else s
  | none => s

end Sys2Proof.Machine
end

