-- ==== Sys2Proof/Machine/Flags.lean ====
section
/-! DEFINITION. The sticky flags of `rstat` (R88, R102), the integer functions of the scalar and vector units
(R150 to R158, R162, R164), the conditions (R155), and the packing of narrow elements in a lane (R168 to R170). -/
namespace Sys2Proof.Machine

/-! ### Flags -/

/-- The five arithmetic flags in their `rstat` places: `nx` 0, `uf` 1, `of` 2, `dz` 3, `nv` 4 (R102). -/
abbrev Fl := BitVec 5

def flNX : Fl := 1
def flUF : Fl := 2
def flOF : Fl := 4
def flDZ : Fl := 8
def flNV : Fl := 16

/-- `nv` where a condition holds. -/
def nvIf (c : Bool) : Fl := if c then flNV else 0

/-- `rstat.merr` (R42, R62). -/
def rsMerr : Word := 0x200
/-- `rstat.rerr`. -/
def rsRerr : Word := 0x400
/-- `rstat.alost`. -/
def rsAlost : Word := 0x800

/-- OR bits into the sticky status. -/
def Agent.orStat (ag : Agent) (w : Word) : Agent := { ag with rstat := ag.rstat ||| w }

/-- OR arithmetic flags into the sticky status (R88). -/
def Agent.orFlags (ag : Agent) (f : Fl) : Agent := ag.orStat (f.setWidth 32)

/-! ### Integer functions -/

/-- The high word of the signed product (R150). -/
def mulhS (a b : Word) : Word := (a.signExtend 64 * b.signExtend 64).extractLsb' 32 32
/-- The high word of the unsigned product (R150). -/
def mulhU (a b : Word) : Word := (a.zeroExtend 64 * b.zeroExtend 64).extractLsb' 32 32

/-- Signed quotient toward zero; all ones for a zero divisor; −2^31 ÷ −1 is −2^31 (R151). -/
def divS (a b : Word) : Word := if b = 0 then 0xFFFFFFFF else a.sdiv b
/-- Unsigned quotient; all ones for a zero divisor (R151). -/
def divU (a b : Word) : Word := if b = 0 then 0xFFFFFFFF else a.udiv b
/-- Signed remainder with the dividend's sign; the dividend for a zero divisor (R151). -/
def remS (a b : Word) : Word := if b = 0 then a else a.srem b
/-- Unsigned remainder; the dividend for a zero divisor (R151). -/
def remU (a b : Word) : Word := if b = 0 then a else a.umod b
/-- The flag of a division (R151). -/
def divFlag (b : Word) : Fl := if b = 0 then flDZ else 0

/-- Left shift; a count of the width or more gives 0 (R152, R157). -/
def shlN {w : Nat} (a : BitVec w) (n : Nat) : BitVec w := if n < w then a <<< n else 0
/-- Logical right shift; a count of the width or more gives 0 (R152, R157). -/
def shrN {w : Nat} (a : BitVec w) (n : Nat) : BitVec w := if n < w then a >>> n else 0
/-- Arithmetic right shift; a count of the width or more gives copies of the sign (R152, R157). -/
def sarN {w : Nat} (a : BitVec w) (n : Nat) : BitVec w := a.sshiftRight (if n < w then n else w - 1)
/-- Left rotation by the count modulo 32 (R152). -/
def rolW (a b : Word) : Word := a.rotateLeft (b.toNat % 32)

/-- MIN: a if a < b, else b, signed (R150). -/
def minS (a b : Word) : Word := if a.slt b then a else b
def maxS (a b : Word) : Word := if b.slt a then a else b
def minU (a b : Word) : Word := if a.ult b then a else b
def maxU (a b : Word) : Word := if b.ult a then a else b

/-- Zero bits above the highest one bit among the `n` low bits of `x`. -/
def clzAux (x : Nat) : Nat → Nat
  | 0 => 0
  | n + 1 => if x.testBit n then 0 else 1 + clzAux x n
/-- One bits among the `n` low bits of `x`. -/
def popAux (x : Nat) : Nat → Nat
  | 0 => 0
  | n + 1 => (if x.testBit n then 1 else 0) + popAux x n
/-- CLZ (R150). -/
def clzW (a : Word) : Word := BitVec.ofNat 32 (clzAux a.toNat 32)
/-- POPC (R150). -/
def popW (a : Word) : Word := BitVec.ofNat 32 (popAux a.toNat 32)

/-- The effective width of a bit field: cut at bit 31 (R154). -/
def bfWidth (c : Word) : Nat :=
  min ((c.extractLsb' 8 5).toNat + 1) (32 - (c.extractLsb' 0 5).toNat)
/-- The low `w` bits of `a`, sign-extended from bit `w - 1` where `sx`. -/
def lowBits (a : Word) (w : Nat) (sx : Bool) : Word :=
  if sx then sarN (shlN a (32 - w)) (32 - w) else shrN (shlN a (32 - w)) (32 - w)
/-- BFX (R154). -/
def bfxW (a c : Word) : Word := lowBits (a >>> (c.extractLsb' 0 5).toNat) (bfWidth c) (c.getLsbD 16)
/-- BFI into `old` (R154). -/
def bfiW (old a c : Word) : Word :=
  let p := (c.extractLsb' 0 5).toNat
  let mask := (lowBits (0xFFFFFFFF : Word) (bfWidth c) false) <<< p
  (old &&& ~~~mask) ||| ((a <<< p) &&& mask)

/-- ADDA's scaled index (R158): bits 29:0 signed, times 2 to bits 31:30. -/
def addaOffset (b : Word) : DWord := (b.extractLsb' 0 30).signExtend 64 <<< (b.extractLsb' 30 2).toNat

/-- The conditions of R155. -/
inductive Cond where
  | eq | ne | lt | ltu | le | leu | gt | gtu | ge | geu
  deriving DecidableEq, Repr

/-- When a condition holds (R155). -/
def Cond.holds (c : Cond) (a b : Word) : Bool :=
  match c with
  | .eq => a == b
  | .ne => a != b
  | .lt => a.slt b
  | .ltu => a.ult b
  | .le => a.sle b
  | .leu => a.ule b
  | .gt => b.slt a
  | .gtu => b.ult a
  | .ge => b.sle a
  | .geu => b.ule a

/-- 1 or 0. -/
def boolW (b : Bool) : Word := if b then 1 else 0

/-- Clamp an integer to the signed `n`-bit range (R9). -/
def satS (x : Int) (n : Nat) : Int := max (-(2 ^ (n - 1))) (min x (2 ^ (n - 1) - 1))
/-- Clamp an integer to the unsigned `n`-bit range (R9). -/
def satU (x : Int) (n : Nat) : Int := max 0 (min x (2 ^ n - 1))
/-- VADDS (R162). -/
def addSat (a b : Word) : Word := BitVec.ofInt 32 (satS (a.toInt + b.toInt) 32)
/-- VSUBS (R162). -/
def subSat (a b : Word) : Word := BitVec.ofInt 32 (satS (a.toInt - b.toInt) 32)
/-- VABS (R162). -/
def absW (a : Word) : Word := if a.msb then -a else a

/-- Byte `j` of a word. -/
def byteOf (a : Word) (j : Nat) : Byte := a.extractLsb' (8 * j) 8
/-- VDOT4's addend (R164). -/
def dot4 (a b : Word) : Int :=
  ((List.range 4).map (fun j => (byteOf a j).toInt * (byteOf b j).toInt)).sum
/-- VDOT4U's addend (R164). -/
def dot4u (a b : Word) : Nat :=
  ((List.range 4).map (fun j => (byteOf a j).toNat * (byteOf b j).toNat)).sum

/-! ### Packing -/

/-- A word from fields: field `i` of `n`, `w` bits each, in bits w·i upward. -/
def packFields (w n : Nat) (f : Nat → Nat) : Nat :=
  ((List.range n).map (fun i => (f i % 2 ^ w) * 2 ^ (w * i))).sum

/-- PK4 (R168). -/
def pk4 (a b : Word) : Word :=
  BitVec.ofNat 32 (packFields 4 8 (fun i =>
    if i < 4 then (byteOf a i).toNat else (byteOf b (i - 4)).toNat))
/-- UPK4 under control `c` (R168). -/
def upk4 (a c : Word) : Word :=
  let hi := (c.extractLsb' 0 1).toNat
  BitVec.ofNat 32 (packFields 8 4 (fun j =>
    let n : BitVec 4 := a.extractLsb' (4 * (4 * hi + j)) 4
    if c.getLsbD 1 then (n.signExtend 8).toNat else n.toNat))
/-- PK6's stream of 16 elements of 6 bits, element `i` being byte i mod 4 of word i div 4 (R169). -/
def pk6 (f : Nat → Word) : Nat :=
  packFields 6 16 (fun i => (byteOf (f (i / 4)) (i % 4)).toNat)
/-- Word `w` of the four words that UPK6 writes from a 96-bit stream (R169). -/
def upk6 (stream : Nat) (w : Nat) : Word :=
  BitVec.ofNat 32 (packFields 8 4 (fun j => (stream / 2 ^ (6 * (4 * w + j))) % 64))
/-- PKTS (R170). -/
def pkts (a b : Word) : Word :=
  BitVec.ofNat 32 (packFields 8 4 (fun j => (byteOf a j).toNat % 16 * 16 + (byteOf b j).toNat % 16))
/-- A TS8 term in units of 2^−3 (R82, R170). -/
def tsTerm (neg : Bool) (c : Nat) : Int :=
  if c = 0 then 0 else (if neg then -1 else 1) * 2 ^ (c - 1)
/-- A TS8 byte's weight in units of 2^−3 (R82, R170). -/
def tsWeight (t : Byte) : Int :=
  tsTerm (t.getLsbD 7) (t.extractLsb' 4 3).toNat + tsTerm (t.getLsbD 3) (t.extractLsb' 0 3).toNat
/-- UPKTS under control `c` (R170). -/
def upkts (a c : Word) : Word :=
  let sel := (c.extractLsb' 0 1).toNat
  BitVec.ofNat 32 (packFields 16 2 (fun h => (BitVec.ofInt 16 (tsWeight (byteOf a (2 * sel + h)))).toNat))

/-! ### The lane sequences of stochastic rounding -/

/-- NextDraw: the next state, which is also the draw (R86). -/
def nextDraw (x : Word) : Word :=
  let x := x ^^^ (x <<< 13)
  let x := x ^^^ (x >>> 17)
  x ^^^ (x <<< 5)

/-- SeedLanes for lane `l` (R86). -/
def seedLane (seed : Word) (l : Nat) : Word :=
  let x := seed ^^^ (0x9E3779B9 * BitVec.ofNat 32 (l + 1))
  if x = 0 then 0x6D2B79F5 else x

/-- The 96 lane states that a seed gives (R86). -/
def seedLanes (seed : Word) : Tab Word := lanes (seedLane seed)

end Sys2Proof.Machine
end

