-- ==== Sys2Proof/Machine/Num.lean ====
section
/-! DEFINITION. The number formats and their rounding (R78 to R90, R181, R182): a code is decoded into an exact value,
operations are exact, and one rounding makes the result. -/
namespace Sys2Proof.Machine

/-- The element formats in the order of their codes (R70), and INT64 (R181). -/
inductive Fmt where
  | fp64 | fp32 | fp16 | bf16 | e4m3 | e5m2 | f6 | f4 | n4 | int8 | uint8 | int16 | int32 | ts8 | int64
  deriving DecidableEq, Repr

/-- The format of a code 0 to 13 (R70). -/
def Fmt.ofCode (n : Nat) : Option Fmt :=
  [Fmt.fp64, .fp32, .fp16, .bf16, .e4m3, .e5m2, .f6, .f4, .n4, .int8, .uint8, .int16, .int32, .ts8][n]?

/-- Bits of an element (R78, R80, R82). -/
def Fmt.bits : Fmt → Nat
  | .fp64 | .int64 => 64
  | .fp32 | .int32 => 32
  | .fp16 | .bf16 | .int16 => 16
  | .e4m3 | .e5m2 | .int8 | .uint8 | .ts8 => 8
  | .f6 => 6
  | .f4 | .n4 => 4

/-- A floating-point format's fraction bits, bias and largest finite value `sig` × 2^`q` (R78). -/
structure FpDesc where
  fw   : Nat
  bias : Nat
  sig  : Nat
  q    : Int
  deriving DecidableEq, Repr

/-- The floating-point formats (R78). -/
def Fmt.fp : Fmt → Option FpDesc
  | .fp64 => some { fw := 52, bias := 1023, sig := 2 ^ 53 - 1, q := 971 }
  | .fp32 => some { fw := 23, bias := 127, sig := 2 ^ 24 - 1, q := 104 }
  | .fp16 => some { fw := 10, bias := 15, sig := 2 ^ 11 - 1, q := 5 }
  | .bf16 => some { fw := 7, bias := 127, sig := 2 ^ 8 - 1, q := 120 }
  | .e5m2 => some { fw := 2, bias := 15, sig := 7, q := 13 }
  | .e4m3 => some { fw := 3, bias := 7, sig := 14, q := 5 }
  | .f6 => some { fw := 2, bias := 3, sig := 7, q := 2 }
  | .f4 => some { fw := 1, bias := 1, sig := 3, q := 1 }
  | _ => none

/-- The exponent of the format's finest grid. -/
def FpDesc.qmin (f : FpDesc) : Int := 1 - (f.bias : Int) - (f.fw : Int)

/-- The range of an integer format (R80). -/
def Fmt.range : Fmt → Int × Int
  | .int64 => (-(2 ^ 63), 2 ^ 63 - 1)
  | .int32 => (-(2 ^ 31), 2 ^ 31 - 1)
  | .int16 => (-(2 ^ 15), 2 ^ 15 - 1)
  | .int8 => (-128, 127)
  | .uint8 => (0, 255)
  | .n4 => (-8, 7)
  | _ => (0, 0)

/-- A decoded value: a NaN, signalling or not; an infinity; (−1)^neg × m × 2^e. -/
inductive FVal where
  | nan (sig : Bool)
  | inf (neg : Bool)
  | fin (neg : Bool) (m : Nat) (e : Int)
  deriving DecidableEq, Repr

def FVal.isSig : FVal → Bool
  | .nan s => s
  | _ => false
def FVal.isNan : FVal → Bool
  | .nan _ => true
  | _ => false
def FVal.isInf : FVal → Bool
  | .inf _ => true
  | _ => false
def FVal.isZero : FVal → Bool
  | .fin _ m _ => m == 0
  | _ => false
def FVal.neg : FVal → Bool
  | .nan _ => false
  | .inf n => n
  | .fin n _ _ => n
def FVal.negate : FVal → FVal
  | .nan s => .nan s
  | .inf n => .inf (!n)
  | .fin n m e => .fin (!n) m e

/-- An integer as a value. -/
def FVal.ofInt (x : Int) : FVal := .fin (decide (x < 0)) x.natAbs 0

/-- Does the format's all-ones exponent hold infinities and NaNs (R79)? -/
def Fmt.ieee : Fmt → Bool
  | .fp64 | .fp32 | .fp16 | .bf16 | .e5m2 => true
  | _ => false

/-- The canonical NaN; +0 where the format has none (R79, R89). -/
def Fmt.nanBits : Fmt → Nat
  | .fp64 => 0x7FF8000000000000
  | .fp32 => 0x7FC00000
  | .fp16 => 0x7E00
  | .bf16 => 0x7FC0
  | .e5m2 => 0x7E
  | .e4m3 => 0x7F
  | _ => 0

/-- The value of a floating-point code (R78, R79). -/
def decodeFp (f : Fmt) (d : FpDesc) (x : Nat) : FVal :=
  let x := x % 2 ^ f.bits
  let neg := x.testBit (f.bits - 1)
  let ex := x / 2 ^ d.fw % 2 ^ (f.bits - 1 - d.fw)
  let fr := x % 2 ^ d.fw
  let top := 2 ^ (f.bits - 1 - d.fw) - 1
  if f.ieee && ex == top then
    if fr = 0 then .inf neg else .nan (!(fr.testBit (d.fw - 1)))
  else if f = .e4m3 && ex == top && fr == 7 then .nan false
  else if ex = 0 then .fin neg fr d.qmin
  else .fin neg (2 ^ d.fw + fr) (d.qmin + (ex : Int) - 1)

/-- The two's-complement value of the low `w` bits. -/
def sxInt (w x : Nat) : Int :=
  let x := x % 2 ^ w
  if x.testBit (w - 1) then (x : Int) - 2 ^ w else (x : Int)

/-- The value of an element code of any format (R78 to R82). -/
def Fmt.decode (f : Fmt) (x : Nat) : FVal :=
  match f.fp with
  | some d => decodeFp f d x
  | none =>
    match f with
    | .ts8 => let w := tsWeight (BitVec.ofNat 8 x); .fin (decide (w < 0)) w.natAbs (-3)
    | .uint8 => .fin false (x % 256) 0
    | _ => .ofInt (sxInt f.bits x)

/-- A code is subnormal: exponent field zero, fraction non-zero (R78). -/
def Fmt.isSub (f : Fmt) (x : Nat) : Bool :=
  match f.fp with
  | some d => x / 2 ^ d.fw % 2 ^ (f.bits - 1 - d.fw) == 0 && x % 2 ^ d.fw != 0
  | none => false

/-- The sign bit of a code alone. -/
def Fmt.signOnly (f : Fmt) (x : Nat) : Nat := if x.testBit (f.bits - 1) then 2 ^ (f.bits - 1) else 0

/-- FlushIn (R175). -/
def Fmt.flushIn (f : Fmt) (ftz : Bool) (x : Nat) : Nat := if ftz && f.isSub x then f.signOnly x else x
/-- FlushOut (R175). -/
def Fmt.flushOut (f : Fmt) (ftz : Bool) (r : Nat × Fl) : Nat × Fl :=
  if ftz && f.isSub r.1 then (f.signOnly r.1, r.2 ||| flUF ||| flNX) else r

/-! ### Rounding -/

/-- Round the magnitude m × 2^e, plus something below 2^e that is not zero where `st`, to a multiple of 2^q
(R84, R87): the multiple, and whether it differs. `d` is the draw of RS. -/
def roundGrid (mode : Nat) (neg : Bool) (d m : Nat) (e : Int) (st : Bool) (q : Int) : Nat × Bool :=
  if q ≤ e then (m <<< (e - q).toNat, st)
  else
    let sh := (q - e).toNat
    let k := m >>> sh
    let rem := m % 2 ^ sh
    let inexact := rem != 0 || st
    let up : Bool :=
      match mode with
      | 0 => decide (2 * rem > 2 ^ sh) || (2 * rem == 2 ^ sh && (st || k % 2 == 1))
      | 1 => false
      | 2 => !neg
      | 3 => neg
      | _ => decide (rem * 2 ^ 32 / 2 ^ sh + d ≥ 2 ^ 32)
    (if inexact && up then k + 1 else k, inexact)

/-- The result when the rounded magnitude exceeds the largest finite value (R89). -/
def overflowBits (f : Fmt) (d : FpDesc) (mode : Nat) (neg : Bool) : Nat :=
  let sign := if neg then 2 ^ (f.bits - 1) else 0
  let largest := (d.q - d.qmin).toNat * 2 ^ d.fw + d.sig
  let inf := (2 ^ (f.bits - 1 - d.fw) - 1) * 2 ^ d.fw
  let toInf := f.ieee && f != .e5m2 && (mode == 0 || mode == 4 || (mode == 2 && !neg) || (mode == 3 && neg))
  sign + (if toInf then inf else largest)

/-- Round a finite magnitude to a floating-point format (R84, R88, R89): code and flags. -/
def roundFp (f : Fmt) (d : FpDesc) (mode dr : Nat) (neg : Bool) (m : Nat) (e : Int) (st : Bool) : Nat × Fl :=
  let sign := if neg then 2 ^ (f.bits - 1) else 0
  if m = 0 && !st then (sign, 0)
  else
    let lead : Int := e + (Nat.log2 m : Int)
    let q := max (lead - d.fw) d.qmin
    let (k, inexact) := roundGrid mode neg dr m e st q
    if q > d.q || (q == d.q && decide (k > d.sig)) then (overflowBits f d mode neg, flOF ||| flNX)
    else
      let tiny : Bool :=
        decide (lead < 1 - (d.bias : Int)) &&
          (let (k2, _) := roundGrid mode neg dr m e st (lead - d.fw)
           decide (((k2 : Int) * 1) < 2 ^ ((1 - (d.bias : Int)) - (lead - d.fw)).toNat))
      (sign + ((q - d.qmin).toNat * 2 ^ d.fw + k),
        (if inexact then flNX else 0) ||| (if inexact && tiny then flUF else 0))

/-- Round a value to an integer range (R89): value and flags. -/
def roundInt (mode dr : Nat) (lo hi : Int) (v : FVal) : Int × Fl :=
  match v with
  | .nan _ => (0, flNV)
  | .inf n => (if n then lo else hi, flNV)
  | .fin n m e =>
    let (k, inexact) := roundGrid mode n dr m e false 0
    let x : Int := if n then -(k : Int) else k
    if x < lo then (lo, flNV)
    else if hi < x then (hi, flNV)
    else (x, if inexact then flNX else 0)

/-- Round(x, fmt, mode) with the outcomes of R89: code and flags. `dr` is the draw of RS (R87). -/
def roundTo (f : Fmt) (mode dr : Nat) (v : FVal) : Nat × Fl :=
  match f.fp with
  | some d =>
    match v with
    | .nan s => (f.nanBits, nvIf (s || f == .f6 || f == .f4))
    | .inf n =>
      if f.ieee then ((if n then 2 ^ (f.bits - 1) else 0) + (2 ^ (f.bits - 1 - d.fw) - 1) * 2 ^ d.fw, 0)
      else ((if n then 2 ^ (f.bits - 1) else 0) + ((d.q - d.qmin).toNat * 2 ^ d.fw + d.sig), flNV)
    | .fin n m e => roundFp f d mode dr n m e false
  | none =>
    let (x, fl) := roundInt mode dr f.range.1 f.range.2 v
    ((x % 2 ^ f.bits).toNat, fl)

/-! ### Exact arithmetic -/

/-- The exact product; invalid for 0 × ∞ (R176). -/
def fvMul (a b : FVal) : FVal × Bool :=
  match a, b with
  | .nan s, y => (.nan false, s || y.isSig)
  | x, .nan s => (.nan false, s || x.isSig)
  | .inf n, y => if y.isZero then (.nan false, true) else (.inf (n != y.neg), false)
  | x, .inf n => if x.isZero then (.nan false, true) else (.inf (n != x.neg), false)
  | .fin n m e, .fin n' m' e' => (.fin (n != n') (m * m') (e + e'), false)

/-- The signed integer n at exponent e brought to exponent q ≤ e. -/
def scaleTo (n : Bool) (m : Nat) (e q : Int) : Int :=
  let k : Int := (m <<< (e - q).toNat : Nat)
  if n then -k else k

/-- The exact sum; invalid for opposite infinities; an exact zero of opposite signs is +0, −0 under RD
(R84, R176). -/
def fvAdd (mode : Nat) (a b : FVal) : FVal × Bool :=
  match a, b with
  | .nan s, y => (.nan false, s || y.isSig)
  | x, .nan s => (.nan false, s || x.isSig)
  | .inf n, .inf n' => if n = n' then (.inf n, false) else (.nan false, true)
  | .inf n, .fin .. => (.inf n, false)
  | .fin .., .inf n => (.inf n, false)
  | .fin n m e, .fin n' m' e' =>
    if m = 0 ∧ m' = 0 then (.fin (if n = n' then n else mode == 3) 0 0, false)
    else
      let q := min e e'
      let x := scaleTo n m e q + scaleTo n' m' e' q
      if x = 0 then (.fin (mode == 3) 0 0, false) else (.fin (decide (x < 0)) x.natAbs q, false)

/-- Compare two values that are no NaN: −1, 0 or 1; the zeros are equal. -/
def fvCmp (a b : FVal) : Int :=
  match a, b with
  | .inf n, .inf n' => if n = n' then 0 else if n then -1 else 1
  | .inf n, _ => if n then -1 else 1
  | _, .inf n => if n then 1 else -1
  | .fin n m e, .fin n' m' e' =>
    let q := min e e'
    let x := scaleTo n m e q - scaleTo n' m' e' q
    if x < 0 then -1 else if x = 0 then 0 else 1
  | _, _ => 0

/-- The arithmetic functions of R176. -/
inductive FOp where
  | add | sub | mul | fma | fms | fnma
  deriving DecidableEq, Repr

/-- The exact value an arithmetic function rounds, and whether the operation is invalid (R176). -/
def FOp.exact (o : FOp) (mode : Nat) (a b c : FVal) : FVal × Bool :=
  match o with
  | .add => fvAdd mode a b
  | .sub => fvAdd mode a b.negate
  | .mul => fvMul a b
  | .fma => let p := fvMul a b; let r := fvAdd mode p.1 c; (r.1, p.2 || r.2)
  | .fms => let p := fvMul a b; let r := fvAdd mode p.1 c.negate; (r.1, p.2 || r.2)
  | .fnma => let p := fvMul a b; let r := fvAdd mode p.1.negate c; (r.1, p.2 || r.2)

/-- One lane of a vector arithmetic instruction on codes of a format: result code and flags (R176). -/
def fArith (f : Fmt) (o : FOp) (mode dr : Nat) (ftz : Bool) (a b c : Nat) : Nat × Fl :=
  let r := o.exact mode (f.decode (f.flushIn ftz a)) (f.decode (f.flushIn ftz b)) (f.decode (f.flushIn ftz c))
  let x := roundTo f mode dr r.1
  f.flushOut ftz (x.1, x.2 ||| nvIf r.2)

/-- VFMIN and VFMAX on codes (R177): −0 below +0. -/
def fMinMax (f : Fmt) (wantMax : Bool) (ftz : Bool) (a b : Nat) : Nat × Fl :=
  let a := f.flushIn ftz a
  let b := f.flushIn ftz b
  let x := f.decode a
  let y := f.decode b
  let fl := nvIf (x.isSig || y.isSig)
  if x.isNan && y.isNan then (f.nanBits, fl)
  else if x.isNan then (b, fl)
  else if y.isNan then (a, fl)
  else
    let c := fvCmp x y
    let less := decide (c < 0) || (c == 0 && x.neg && !y.neg)
    let more := decide (0 < c) || (c == 0 && y.neg && !x.neg)
    (if wantMax then (if less then b else a) else (if more then b else a), fl)

/-- VFCLASS of an FP32 code (R178). -/
def fClass (ftz : Bool) (a : Nat) : Nat :=
  let a := Fmt.fp32.flushIn ftz a
  2 ^ (match Fmt.fp32.decode a with
    | .inf true => 0
    | .inf false => 7
    | .nan true => 8
    | .nan false => 9
    | .fin n m _ =>
      if m = 0 then (if n then 3 else 4)
      else if Fmt.fp32.isSub a then (if n then 2 else 5)
      else (if n then 1 else 6))

/-- VFRND of an FP32 code (R179). -/
def fRound (mode dr : Nat) (ftz : Bool) (a : Nat) : Nat × Fl :=
  let a := Fmt.fp32.flushIn ftz a
  match Fmt.fp32.decode a with
  | .nan s => (Fmt.fp32.nanBits, nvIf s)
  | .inf _ => (a, 0)
  | .fin n m e =>
    if m = 0 then (a, 0)
    else
      let (k, inexact) := roundGrid mode n dr m e false 0
      if inexact then ((roundTo .fp32 0 0 (.fin n k 0)).1, flNX) else (a, 0)

/-- The conditions of VFCMP (R180). -/
inductive FCond where
  | eq | ne | lt | le | gt | ge | un | ord
  deriving DecidableEq, Repr

/-- VFCMP on codes: whether the condition holds, and the flags (R180). -/
def fCompare (f : Fmt) (c : FCond) (ftz : Bool) (a b : Nat) : Bool × Fl :=
  let x := f.decode (f.flushIn ftz a)
  let y := f.decode (f.flushIn ftz b)
  let nan := x.isNan || y.isNan
  let sig := nvIf (x.isSig || y.isSig)
  let o := fvCmp x y
  match c with
  | .eq => (!nan && o == 0, sig)
  | .ne => (nan || o != 0, sig)
  | .lt => (!nan && decide (o < 0), nvIf nan)
  | .le => (!nan && decide (o ≤ 0), nvIf nan)
  | .gt => (!nan && decide (0 < o), nvIf nan)
  | .ge => (!nan && decide (0 ≤ o), nvIf nan)
  | .un => (nan, sig)
  | .ord => (!nan, sig)

/-! ### Conversions -/

/-- The kinds of a conversion (R181). -/
inductive CvtKind where
  | exact | rounding | saturating
  deriving DecidableEq, Repr

/-- The conversion pairs in the order of their codes: destination, source, kind (R181). -/
def cvtPairs : List (Fmt × Fmt × CvtKind) :=
  [(.fp64, .fp32, .exact),
   (.fp16, .fp32, .rounding), (.bf16, .fp32, .rounding), (.e4m3, .fp32, .rounding), (.e5m2, .fp32, .rounding),
   (.f6, .fp32, .rounding), (.f4, .fp32, .rounding), (.n4, .fp32, .rounding),
   (.int8, .fp32, .rounding), (.uint8, .fp32, .rounding), (.int16, .fp32, .rounding), (.int32, .fp32, .rounding),
   (.fp32, .fp64, .rounding),
   (.fp32, .fp16, .exact), (.fp32, .bf16, .exact), (.fp32, .e4m3, .exact), (.fp32, .e5m2, .exact),
   (.fp32, .f6, .exact), (.fp32, .f4, .exact), (.fp32, .n4, .exact),
   (.fp32, .int8, .exact), (.fp32, .uint8, .exact), (.fp32, .int16, .exact),
   (.fp32, .int32, .rounding), (.int32, .fp64, .rounding), (.fp64, .int32, .exact),
   (.int64, .fp64, .rounding), (.fp64, .int64, .rounding),
   (.int8, .int32, .saturating), (.uint8, .int32, .saturating), (.int16, .int32, .saturating)]

/-- The kind of a pair of formats, if VCVT has it (R181). -/
def cvtKind (dst src : Fmt) : Option CvtKind :=
  ((cvtPairs.find? (fun p => p.1 == dst && p.2.1 == src)).map (fun p => p.2.2))

/-- Convert an element code (R182): the destination's code and the flags. -/
def convertCode (dst src : Fmt) (k : CvtKind) (mode dr : Nat) (ftz : Bool) (x : Nat) : Nat × Fl :=
  let v := src.decode (src.flushIn ftz (x % 2 ^ src.bits))
  match k with
  | .exact => roundTo dst 0 0 v
  | .rounding => dst.flushOut ftz (roundTo dst mode dr v)
  | .saturating => roundTo dst 1 0 v

/-- A destination code in a lane word or pair (R181): INT8, INT16, N4 sign-extended, the others zero-extended. -/
def placeCode (dst : Fmt) (x : Nat) : Nat :=
  match dst with
  | .int8 => (sxInt 8 x % 2 ^ 32).toNat
  | .int16 => (sxInt 16 x % 2 ^ 32).toNat
  | .n4 => (sxInt 4 x % 2 ^ 32).toNat
  | _ => x

/-! ### Packed runs (R83) -/

/-- Element `i` of a packed run of bytes, bytes beyond the list being zero. -/
def packGet (f : Fmt) (bs : List Byte) (i : Nat) : Nat :=
  leVal (bs.drop (f.bits * i / 8) |>.take 9) / 2 ^ (f.bits * i % 8) % 2 ^ f.bits

/-- The bytes of a packed run of `n` elements. -/
def packRun (f : Fmt) (els : List Nat) : List Byte :=
  let total := (els.zipIdx.map (fun p => (p.1 % 2 ^ f.bits) * 2 ^ (f.bits * p.2))).sum
  leBytes ((f.bits * els.length + 7) / 8) total

/-- The bytes that `n` packed elements take. -/
def packBytes (f : Fmt) (n : Nat) : Nat := (f.bits * n + 7) / 8

end Sys2Proof.Machine
end

