-- ==== Sys2Proof/Machine/Sfu.lean ====
section
/-! DEFINITION. The functions of the special-function unit (R184, R186), correctly rounded to FP32 under RNE.
Reciprocal and roots are exact quotients and roots with a remainder. The exponential, logarithm, sine, cosine and
hyperbolic tangent are enclosed between two fixed-point bounds `p` bits below the point; when both bounds round to
one code, that code is the correctly rounded result, and otherwise the bounds are taken closer (log 16). -/
namespace Sys2Proof.Machine

/-- Floor of the square root, from bit `b - 1` down, given the part `r` found so far. -/
def isqrtAux (n : Nat) : Nat → Nat → Nat
  | 0, r => r
  | b + 1, r => isqrtAux n b (if (r + 2 ^ b) * (r + 2 ^ b) ≤ n then r + 2 ^ b else r)

/-- Floor of the square root of a number below 2^(2·128). -/
def isqrt (n : Nat) : Nat := isqrtAux n 128 0

/-- Division rounded up. -/
def cdiv (a b : Nat) : Nat := (a + b - 1) / b

/-- m × 2^e in units of 2^−p, rounded down. -/
def fixLo (p m : Nat) (e : Int) : Nat :=
  let s := e + (p : Int)
  if 0 ≤ s then m <<< s.toNat else m >>> (-s).toNat
/-- m × 2^e in units of 2^−p, rounded up. -/
def fixHi (p m : Nat) (e : Int) : Nat :=
  let s := e + (p : Int)
  if 0 ≤ s then m <<< s.toNat else cdiv m (2 ^ (-s).toNat)

/-- The exponential series from below at a point `y` of units 2^−p: `n` more terms, the `k`-th next, the last term `t`. -/
def expLoAux (p y : Nat) : Nat → Nat → Nat → Nat → Nat
  | 0, _, _, acc => acc
  | n + 1, k, t, acc =>
    let t := t * y / (k * 2 ^ p)
    expLoAux p y n (k + 1) t (acc + t)
/-- The exponential series from above; the tail is below the last term. -/
def expHiAux (p y : Nat) : Nat → Nat → Nat → Nat → Nat
  | 0, _, t, acc => acc + t + 1
  | n + 1, k, t, acc =>
    let t := cdiv (t * y) (k * 2 ^ p)
    expHiAux p y n (k + 1) t (acc + t)
/-- Bounds of e^y for bounds of y in [0, 1). -/
def expBounds (p ylo yhi : Nat) : Nat × Nat :=
  (expLoAux p ylo (p / 4) 1 (2 ^ p) (2 ^ p), expHiAux p yhi (p / 4) 1 (2 ^ p) (2 ^ p))

/-- Bounds of ln 2 = 2 Σ 3^−(2k+1) / (2k+1). -/
def ln2Bounds (p : Nat) : Nat × Nat :=
  let n := p / 3 + 4
  let s := ((List.range n).map (fun k => 2 ^ (p + 1) / (3 ^ (2 * k + 1) * (2 * k + 1)))).sum
  (s, s + n + 2)

/-- Σ (−1)^k / ((2k+1) m^(2k+1)) in units of 2^−p, the terms rounded down. -/
def atanInv (p m n : Nat) : Int :=
  ((List.range n).map (fun k =>
    (if k % 2 = 0 then (1 : Int) else -1) * ((2 ^ p / ((2 * k + 1) * m ^ (2 * k + 1)) : Nat) : Int))).sum
/-- Bounds of π = 16 atan(1/5) − 4 atan(1/239). -/
def piBounds (p : Nat) : Nat × Nat :=
  let n := p / 4 + 5
  let c := 16 * atanInv p 5 n - 4 * atanInv p 239 n
  ((c - 20 * ((n : Int) + 1)).toNat, (c + 20 * ((n : Int) + 1)).toNat)

/-- Powers for the logarithm series from below. -/
def lnLoAux (p z2 : Nat) : Nat → Nat → Nat → Nat → Nat
  | 0, _, _, acc => acc
  | n + 1, k, t, acc => lnLoAux p z2 n (k + 1) (t * z2 / 2 ^ p) (acc + t / (2 * k + 1))
/-- Powers for the logarithm series from above. -/
def lnHiAux (p z2 : Nat) : Nat → Nat → Nat → Nat → Nat
  | 0, _, t, acc => acc + t + 1
  | n + 1, k, t, acc => lnHiAux p z2 n (k + 1) (cdiv (t * z2) (2 ^ p)) (acc + cdiv t (2 * k + 1))
/-- Bounds of ln(m / 2^s) for 2^s ≤ m < 2^(s+1): 2 atanh((m − 2^s) / (m + 2^s)). -/
def lnBounds (p m s : Nat) : Nat × Nat :=
  let zlo := (m - 2 ^ s) * 2 ^ p / (m + 2 ^ s)
  let zhi := cdiv ((m - 2 ^ s) * 2 ^ p) (m + 2 ^ s)
  (2 * lnLoAux p (zlo * zlo / 2 ^ p) (p / 3 + 4) 0 zlo 0,
   2 * lnHiAux p (cdiv (zhi * zhi) (2 ^ p)) (p / 3 + 4) 0 zhi 0)

/-- The sine series at a point `y`, terms rounded down; each term is within 3 units. -/
def sinAux (p y2 : Nat) : Nat → Nat → Nat → Int → Int
  | 0, _, _, acc => acc
  | n + 1, k, t, acc =>
    sinAux p y2 n (k + 1) (t * y2 / 2 ^ p / ((2 * k + 2) * (2 * k + 3)))
      (if k % 2 = 0 then acc + (t : Int) else acc - (t : Int))
/-- The sine at a point, in units of 2^−p. -/
def sinPoint (p y : Nat) : Int := sinAux p (y * y / 2 ^ p) (p / 6 + 4) 0 y 0
/-- Bounds of the sine for bounds of y in [0, π/2]. -/
def sinBounds (p ylo yhi : Nat) : Nat × Nat :=
  ((sinPoint p ylo - 4 * (p : Int)).toNat, (sinPoint p yhi + 4 * (p : Int)).toNat)

/-- Bounds of 2^f for 0 ≤ f < 1 given as m × 2^e. -/
def exp2Bounds (p m : Nat) (e : Int) : Nat × Nat :=
  let (llo, lhi) := ln2Bounds p
  expBounds p (fixLo p m e * llo / 2 ^ p) (cdiv (fixHi p m e * lhi) (2 ^ p))

/-- Squares `n` times, from below and above. -/
def squares (p : Nat) : Nat → Nat × Nat → Nat × Nat
  | 0, b => b
  | n + 1, (lo, hi) => squares p n (lo * lo / 2 ^ p, cdiv (hi * hi) (2 ^ p))

/-- Bounds of tanh x for x = m × 2^e, 0 < x < 32: (E − 1) / (E + 1) with E = e^(2x) = (e^(x/64))^128. -/
def tanhBounds (p m : Nat) (e : Int) : Nat × Nat :=
  let (lo, hi) := squares p 7 (expBounds p (fixLo p m (e - 6)) (fixHi p m (e - 6)))
  ((lo - 2 ^ p) * 2 ^ p / (lo + 2 ^ p), cdiv ((hi - 2 ^ p) * 2 ^ p) (hi + 2 ^ p))

/-- Round to FP32 a value that is no dyadic number and lies strictly between bounds in units of 2^−p times 2^x,
taking the first precision at which both bounds agree. -/
def zivRound (neg : Bool) (x : Int) (bounds : Nat → Nat × Nat) : List Nat → Nat × Fl
  | [] => (0, flNX)
  | p :: rest =>
    let (lo, hi) := bounds p
    let d := { fw := 23, bias := 127, sig := 2 ^ 24 - 1, q := 104 : FpDesc }
    let r := roundFp .fp32 d 0 0 neg lo (x - (p : Int)) true
    let r' := roundFp .fp32 d 0 0 neg (hi - 1) (x - (p : Int)) true
    match rest with
    | [] => r
    | _ => if r = r' then r else zivRound neg x bounds rest

/-- The precisions tried. -/
def zivBits : List Nat := [320, 640, 1280]

/-- Round a quotient or root: an exact magnitude with a remainder. -/
def roundSticky (neg : Bool) (m : Nat) (e : Int) (st : Bool) : Nat × Fl :=
  roundFp .fp32 { fw := 23, bias := 127, sig := 2 ^ 24 - 1, q := 104 } 0 0 neg m e st

/-- An infinity, one and a zero of FP32. -/
def infW (neg : Bool) : Nat := if neg then 0xFF800000 else 0x7F800000
def zeroW (neg : Bool) : Nat := if neg then 0x80000000 else 0
def oneW (neg : Bool) : Nat := if neg then 0xBF800000 else 0x3F800000
/-- An invalid operation's result. -/
def invalidW : Nat × Fl := (Fmt.fp32.nanBits, flNV)

/-- 1/x (R184). -/
def sfuRcp : FVal → Nat × Fl
  | .nan s => (Fmt.fp32.nanBits, nvIf s)
  | .inf n => (zeroW n, 0)
  | .fin n m e =>
    if m = 0 then (infW n, flDZ)
    else roundSticky n (2 ^ 90 / m) (-90 - e) (2 ^ 90 % m != 0)

/-- 1/√x (R184). -/
def sfuRsq : FVal → Nat × Fl
  | .nan s => (Fmt.fp32.nanBits, nvIf s)
  | .inf n => if n then invalidW else (0, 0)
  | .fin n m e =>
    if m = 0 then (infW n, flDZ)
    else if n then invalidW
    else
      let (m, e) := if e % 2 = 0 then (m, e) else (2 * m, e - 1)
      let r := isqrt (2 ^ 180 / m)
      roundSticky false r (-90 - e / 2) (r * r * m != 2 ^ 180)

/-- √x (R184). -/
def sfuSqrt : FVal → Nat × Fl
  | .nan s => (Fmt.fp32.nanBits, nvIf s)
  | .inf n => if n then invalidW else (infW false, 0)
  | .fin n m e =>
    if m = 0 then (zeroW n, 0)
    else if n then invalidW
    else
      let (m, e) := if e % 2 = 0 then (m, e) else (2 * m, e - 1)
      let r := isqrt (m * 2 ^ 80)
      roundSticky false r (e / 2 - 40) (r * r != m * 2 ^ 80)

/-- 2^x (R184). -/
def sfuExp2 : FVal → Nat × Fl
  | .nan s => (Fmt.fp32.nanBits, nvIf s)
  | .inf n => (if n then 0 else infW false, 0)
  | .fin n m e =>
    if m = 0 then (oneW false, 0)
    else if 0 ≤ e + (Nat.log2 m : Int) - 9 then
      -- |x| is 512 or more
      if n then roundSticky false 1 (-1000) true else roundSticky false 1 1000 true
    else if 0 ≤ e then
      let k : Int := (m <<< e.toNat : Nat)
      roundSticky false 1 (if n then -k else k) false
    else
      let sh := (-e).toNat
      let ip : Int := (m / 2 ^ sh : Nat)
      let fr := m % 2 ^ sh
      if fr = 0 then roundSticky false 1 (if n then -ip else ip) false
      else if n then zivRound false (-ip - 1) (fun p => exp2Bounds p (2 ^ sh - fr) e) zivBits
      else zivRound false ip (fun p => exp2Bounds p fr e) zivBits

/-- log2 x (R184). -/
def sfuLog2 : FVal → Nat × Fl
  | .nan s => (Fmt.fp32.nanBits, nvIf s)
  | .inf n => if n then invalidW else (infW false, 0)
  | .fin n m e =>
    if m = 0 then (infW true, flDZ)
    else if n then invalidW
    else
      let s := Nat.log2 m
      let ex : Int := e + (s : Int)
      if m = 2 ^ s then roundTo .fp32 0 0 (.ofInt ex)
      else
        let frac := fun p =>
          let (lo, hi) := lnBounds p m s
          let (l2lo, l2hi) := ln2Bounds p
          (lo * 2 ^ p / l2hi, cdiv (hi * 2 ^ p) l2lo)
        if 0 ≤ ex then
          zivRound false 0 (fun p => let (lo, hi) := frac p; (ex.toNat * 2 ^ p + lo, ex.toNat * 2 ^ p + hi)) zivBits
        else
          zivRound true 0 (fun p =>
            let (lo, hi) := frac p
            ((-ex).toNat * 2 ^ p - hi, (-ex).toNat * 2 ^ p - lo)) zivBits

/-- sin(πx) for a positive dyadic x = m × 2^e with e < 0 that is no multiple of 1/2, times a sign. -/
def sinPiDyadic (neg : Bool) (m : Nat) (e : Int) : Nat × Fl :=
  let sh := (-e).toNat
  let r := m % 2 ^ (sh + 1)
  let neg := neg != decide (2 ^ sh ≤ r)
  let r := r % 2 ^ sh
  let t := if 2 * r ≤ 2 ^ sh then r else 2 ^ sh - r
  zivRound neg 0 (fun p =>
    let (plo, phi) := piBounds p
    sinBounds p (fixLo p t e * plo / 2 ^ p) (cdiv (fixHi p t e * phi) (2 ^ p))) zivBits

/-- sin(πx) (R184). -/
def sfuSin : FVal → Nat × Fl
  | .nan s => (Fmt.fp32.nanBits, nvIf s)
  | .inf _ => invalidW
  | .fin n m e =>
    if m = 0 then (0, 0)
    else if 0 ≤ e ∨ m % 2 ^ (-e).toNat = 0 then (zeroW n, 0)
    else
      let sh := (-e).toNat
      if 2 * m % 2 ^ sh = 0 then (oneW (n != decide ((2 * m / 2 ^ sh) % 4 = 3)), 0)
      else sinPiDyadic n m e

/-- cos(πx) = sin(π(|x| + 1/2)) (R184). -/
def sfuCos : FVal → Nat × Fl
  | .nan s => (Fmt.fp32.nanBits, nvIf s)
  | .inf _ => invalidW
  | .fin _ m e =>
    if m = 0 then (oneW false, 0)
    else if 0 ≤ e then (oneW (decide ((m <<< e.toNat) % 2 = 1)), 0)
    else
      let sh := (-e).toNat
      if m % 2 ^ sh = 0 then (oneW (decide (m / 2 ^ sh % 2 = 1)), 0)
      else if 2 * m % 2 ^ sh = 0 then (0, 0)
      else sinPiDyadic false (2 * m + 2 ^ sh) (e - 1)

/-- tanh x (R184). -/
def sfuTanh : FVal → Nat × Fl
  | .nan s => (Fmt.fp32.nanBits, nvIf s)
  | .inf n => (oneW n, 0)
  | .fin n m e =>
    if m = 0 then (zeroW n, 0)
    else
      let lead := e + (Nat.log2 m : Int)
      if 5 ≤ lead then roundSticky n (2 ^ 60 - 1) (-60) true
      else if lead < -40 then roundSticky n (m * 2 ^ 60 - 1) (e - 60) true
      else zivRound n 0 (fun p => tanhBounds p m e) zivBits

/-- Is an activation-table header valid (R185)? -/
def ActBank.valid (b : ActBank) : Bool :=
  match Fmt.fp32.decode b.xmin.toNat, Fmt.fp32.decode b.xmax.toNat with
  | .fin n m e, .fin n' m' e' => decide (fvCmp (.fin n m e) (.fin n' m' e') < 0)
  | _, _ => false

/-- The floor of a quotient of two finite values, the divisor positive. -/
def fvFloorDiv (a b : FVal) : Int :=
  match a, b with
  | .fin n m e, .fin n' m' e' =>
    let q := min e e'
    scaleTo n m e q / scaleTo n' m' e' q
  | _, _ => 0

/-- SACT of FlushIn(a) on a bank (R186), before FlushOut. -/
def sfuAct (b : ActBank) (a : FVal) : Nat × Fl :=
  if !b.valid then invalidW
  else match a with
    | .nan s => (Fmt.fp32.nanBits, nvIf s)
    | _ =>
      let xmin := Fmt.fp32.decode b.xmin.toNat
      let xmax := Fmt.fp32.decode b.xmax.toNat
      let lo := if fvCmp a xmin < 0 then xmin else a
      let xe := if b.flags.getLsbD 0 || a.isInf then (if fvCmp xmax lo < 0 then xmax else lo) else a
      let width := (fvAdd 0 xmax xmin.negate).1
      let off := (fvAdd 0 xe xmin.negate).1
      let i := (max 0 (min 255 (fvFloorDiv (fvMul off (.fin false 1 8)).1 width))).toNat
      let t := (fvAdd 0 off (fvMul (.fin true i (-8)) width).1).1
      let c := fun j => Fmt.fp32.decode (Tab.get 0 b.coef (3 * i + j)).toNat
      let p1 := fvMul (c 1) t
      let p2 := fvMul (c 2) (fvMul t t).1
      let s1 := fvAdd 0 (c 0) p1.1
      let s2 := fvAdd 0 s1.1 p2.1
      let r := roundTo .fp32 0 0 s2.1
      (r.1, r.2 ||| nvIf (p1.2 || p2.2 || s1.2 || s2.2))

/-- One lane of an SFU entry: result code and flags (R184, R186); the bank matters to SACT alone. -/
def sfuLane (op : SfuOp) (b : ActBank) (ftz : Bool) (a : Nat) : Nat × Fl :=
  let v := Fmt.fp32.decode (Fmt.fp32.flushIn ftz a)
  Fmt.fp32.flushOut ftz
    (match op with
     | .rcp => sfuRcp v
     | .rsq => sfuRsq v
     | .sqrt => sfuSqrt v
     | .exp2 => sfuExp2 v
     | .log2 => sfuLog2 v
     | .sin => sfuSin v
     | .cos => sfuCos v
     | .tanh => sfuTanh v
     | .act => sfuAct b v
     | .atld => (0, 0))

end Sys2Proof.Machine
end

