-- ==== Sys2Proof/Machine/Ops.lean ====
section
/-! DEFINITION. The named operations every meaning is written over: an agent's reads of the package store (R42, R63, R263),
the SFU's execution (R183), the end of an instruction and of a pass (R111 to R114, R287), the divergence stack (R294 to
R297), taking an exception (R345, R348, R349) and returning from one (R350). -/
namespace Sys2Proof.Machine

/-! ### An agent's reads of the package store -/

/-- An agent's read of bytes of the package store (R63, R263, R271): its die's peer cache asks for their words, the use of the page is
noted, and the read arrives. The answer is the record kind of a line or block that it finds dropped. -/
def State.agentRead (s : State) (ag : Agent) (unc : Bool) (slot : BitVec 8) (pa n : Nat) (ecc : Ecc) : State × Option Nat :=
  let peer := ag.writePeer unc pa
  let s := s.noteUse ag.part pa unc
  let s := if peer ≠ 0 then s.askWords .readShared peer ag.part slot pa n else s
  s.arriveRead ag.part slot pa n ecc

/-- What a walk for a key leaves behind: its entries have been read at package scope, and one that lies in a dropped line
has its record (R41, R42, R48). -/
def State.noteWalk (s : State) (part : Nat) (k : VKey) : State :=
  (s.keyReads part k).foldl (fun t pa =>
    match t.arriveRead part 0 pa 8 .clean with
    | (t, some kind) => t.recordLoss kind part 0 pa 0 .everyJob 0xFFFFFFFF
    | (t, none) => t) s

/-- The key of a translation's page or tile. -/
def Xlat.key (x : Xlat) : VKey :=
  match x.tid with
  | none => .flat (BitVec.ofNat 64 x.base)
  | some t => .tile t x.base 0

/-- What a stream's use of a translation leaves behind: where no register and no cache keeps it, a walk has read its entries (R48,
R51, R57). -/
def State.noteXlat (s : State) (st : Stream) (x : Xlat) : State :=
  if (s.cached st (fun y => y == x)).isSome then s else s.noteWalk x.part x.key
/-- What an agent's use of a translation leaves behind; an access to physical addresses walks nothing. -/
def State.noteAgXlat (s : State) (ag : Agent) (x : Xlat) : State := if ag.physical s then s else s.noteXlat ag.strm x

/-- What a read by an agent of `n` bytes of the package store through a translation leaves behind (R41, R42, R63, R263, R271):
the walk for the translation, what the read records, and a record and `merr` where the line is dropped. -/
def State.noteRead (s : State) (id : Nat) (ag : Agent) (x : Xlat) (pa n : Nat) : State :=
  match (s.noteAgXlat ag x).agentRead ag (pteUnc x.pte) (pteSlot x.pte) pa n .clean with
  | (s, some k) => (s.recordLoss k ag.part (pteSlot x.pte) pa ag.die ag.jobRef ag.unitWord).updAgent id (fun a => a.orStat rsMerr)
  | (s, none) => s

/-! ### The special-function unit -/

/-- Execute one entry of a CU's SFU queue: its lanes, its flags, or a bank's load (R183, R187). -/
def State.sfuExec (s : State) (u : Nat) (e : SfuEntry) : State :=
  let x := s.unit u
  match e.op with
  | .atld =>
    s.putUnit u (if e.bank then { x with act1 := e.img } else { x with act0 := e.img })
  | op =>
    s.updAgent e.agent (fun ag =>
      let r := fun l => sfuLane op (if e.bank then x.act1 else x.act0) e.ftz (Tab.get 0 e.src l).toNat
      let fl := (lanesOf e.mask).foldl (fun f l => f ||| (r l).2) (0 : Fl)
      (ag.vSet e.d e.mask (fun l => BitVec.ofNat 32 (r l).1)).orFlags fl)

/-- Execute the `n` oldest entries. -/
def State.sfuRun (s : State) (u : Nat) : Nat → State
  | 0 => s
  | n + 1 =>
    match (s.unit u).sfu with
    | [] => s
    | e :: rest => State.sfuRun ((s.putUnit u { s.unit u with sfu := rest }).sfuExec u e) u n

/-- The agent has an entry in its CU's queue. -/
def State.sfuBusy (s : State) (id : Nat) (ag : Agent) : Bool :=
  ag.profile == .wave && (s.unit ag.unit).sfu.any (fun e => e.agent == id)

/-- How many entries the SFU executes until none of the agent's is left: it takes them strictly in order. -/
def sfuUpTo (id : Nat) : List SfuEntry → Nat → Nat → Nat
  | [], _, last => last
  | e :: t, n, last => sfuUpTo id t (n + 1) (if e.agent = id then n + 1 else last)

/-- Complete every entry of an agent (R190). -/
def State.drainSfu (s : State) (id : Nat) (ag : Agent) : State :=
  if ag.profile = .wave then s.sfuRun ag.unit (sfuUpTo id (s.unit ag.unit).sfu 0 0) else s

/-! ### Addresses of an agent -/

/-- The agent's writes to a page may stand modified in a peer cache: a wave or a core, not an array die, and not an
uncached page (R16, R49). -/
def Agent.peerCached (ag : Agent) (unc : Bool) : Bool := ag.profile != .sequencer && !unc

/-! ### Position in the run -/

/-- The address of a halfword of the run's code: the header is 4 bytes (R111). -/
def Run.addr (r : Run) (off : Nat) : DWord := r.pc + 4 + BitVec.ofNat 64 (2 * off)
/-- RunEnd(): the halfword after the run's last instruction and literal words (R292). -/
def Run.end_ (r : Run) : DWord := r.addr r.code.length
/-- The first 32 bits of the instruction being issued, a compact form zero-extended (R345). -/
def Run.word (r : Run) : DWord :=
  let h := nth 0 r.code r.off
  if h.getLsbD 0 then (wordAt (nth 0 r.code (r.off + 1)) h).zeroExtend 64 else h.zeroExtend 64
where
  /-- Two halfwords as a word, the first in bits 15:0 (R105). -/
  wordAt (hi lo : Half) : Word := hi ++ lo

/-- The address of the instruction being issued; of its REP, within one (R114); of the header, outside a run. -/
def Run.here (r : Run) : DWord :=
  if r.inRun then
    match r.rep with
    | some _ => r.addr (r.off - 2)
    | none => r.addr r.off
  else r.pc

/-- The agent with its REP interrupted: `repst` holds the iteration not performed, and the run stands at the REP, which
takes it up when it is issued again (R113, R114). -/
def Agent.atRep (ag : Agent) : Agent :=
  match ag.run.rep with
  | some p =>
    { ag with
      repst := 0x80000000 ||| BitVec.ofNat 32 (p.i % 64),
      run := { ag.run with rep := none, off := ag.run.off - 2, idx := ag.run.idx - 1, resumed := true } }
  | none => ag

/-! ### Taking an exception -/

/-- `tcause.inh`: the agent is in a handler (R346). -/
def Agent.inh (ag : Agent) : Bool := ag.tcause.getLsbD 31
/-- `tcause.mid`: a saved run state is held for ERET (R346). -/
def Agent.mid (ag : Agent) : Bool := ag.tcause.getLsbD 29

/-- The pending bit of an asynchronous cause (R346). -/
def pendBit (c : Nat) : Word := if c = 0x20 then 0x40000 else if c = 0x21 then 0x20000 else 0x10000

/-- `tcause` after a trap of cause `c`: `inh` and `mid` set, `async` and `code` as the cause, its pending bit clear
(R346, R348). -/
def tcauseTaken (old : Word) (c : Nat) : Word :=
  let pend := old &&& 0x70000 &&& (if 0x20 ≤ c then ~~~(pendBit c) else 0xFFFFFFFF)
  0xA0000000 ||| (if 0x20 ≤ c then 0x40000000 else 0) ||| pend ||| BitVec.ofNat 32 (c % 256)

/-- Where an open access delivers once s56 to s59 and the trap bank have been swapped: a register of the bank is
numbered 128 above the register it swaps with (R100, R348). -/
def Dest.swap : Dest → Dest
  | .s r => if 56 ≤ r ∧ r ≤ 59 then .s (r + 128) else if 128 ≤ r then .s (r - 128) else .s r
  | .sp r => if 56 ≤ r ∧ r ≤ 59 then .sp (r + 128) else if 128 ≤ r then .sp (r - 128) else .sp r
  | d => d

/-- Swap s56 to s59 and bt7 with the trap bank (R348). -/
def Agent.swapBank (ag : Agent) : Agent :=
  let old := ag
  let ag := { ag with opens := ag.opens.map (fun (e : Access) => { e with dst := e.dst.swap }) }
  let s := [56, 57, 58, 59].foldl (fun t r => Tab.set 0 t r (Tab.get 0 old.bankS r)) ag.s
  let b := [56, 57, 58, 59].foldl (fun t r => Tab.set 0 t r (Tab.get 0 old.s r)) ag.bankS
  { ag with s := s, bankS := b, bt := Tab.set 0 ag.bt 7 old.bankBt, bankBt := Tab.get 0 ag.bt 7 }

/-- The trap table's register for an agent: its partition's, or the resident service's for a core (R347). -/
def State.trapReg (s : State) (ag : Agent) : DWord :=
  match ag.profile with
  | .host => s.rot.rsTrap
  | _ => Tab.get 0 s.rot.trapTab ag.part

/-- The section of the trap table for a profile (R347). -/
def trapSection : Profile → Nat
  | .wave => 0
  | .sequencer => 512
  | .host => 1024

/-- A flat address is homed on another package (R242). -/
def State.isRemote (s : State) (ag : Agent) (va : DWord) : Bool :=
  !ag.physical s && va.getLsbD 55 && va.extractLsb' 46 9 != s.plat.pkg

/-- The address of the trap table's entry for a cause (R347). -/
def State.trapVa (s : State) (ag : Agent) (c : Nat) : DWord :=
  (((s.trapReg ag).extractLsb' 12 44).zeroExtend 64 <<< 12) + BitVec.ofNat 64 (trapSection ag.profile + 8 * c)
/-- The table is in use and its entry for a cause is homed on another package (R242, R347). -/
def State.trapFar (s : State) (ag : Agent) (c : Nat) : Bool := (s.trapReg ag).getLsbD 0 && s.isRemote ag (s.trapVa ag c)

/-- Where the trap table's entry for a cause lies on this package: its physical address and translation (R347). -/
def State.trapEntry (s : State) (ag : Agent) (c : Nat) : Option (Nat × Xlat) :=
  let va := s.trapVa ag c
  if !(s.trapReg ag).getLsbD 0 || s.isRemote ag va then none
  else
    match s.xlatAg ag va .read with
    | .ok x => some (x.flatPa va, x)
    | _ => none

/-- The handler's first run header for a cause: none where the table is not in use, cannot be read, or holds 0
(R347, R348). -/
def State.handler (s : State) (ag : Agent) (c : Nat) : Option DWord :=
  (s.trapEntry ag c).bind fun (pa, x) =>
    if s.reachable ag.part (pteSlot x.pte) pa then
      let h := BitVec.ofNat 64 (leVal (s.pkSeeN ag.part (pteSlot x.pte) pa 8))
      if h = 0 then none else some h
    else none

/-- What reading the trap table's entry leaves behind (R33, R42, R63). -/
def State.noteTrapRead (s : State) (id : Nat) (ag : Agent) (c : Nat) : State :=
  match s.trapEntry ag c with
  | some (pa, x) =>
    if s.reachable ag.part (pteSlot x.pte) pa then s.noteRead id ag x pa 8
    else s.violationOf ag (pteSlot x.pte) pa
  | none => s

/-- An agent ends without a handler: as by HALT, with a record of kind 0x33 or 0x34; a core halts until its next
reset, which is reported (R349). -/
def State.endByTrap (s : State) (id : Nat) (ag : Agent) (kind c : Nat) (tepc : DWord) : State :=
  match ag.profile with
  | .host =>
    let s := s.putAgent id { ag with live := false, wait := .none }
    { s with plat := { s.plat with hostQ := s.plat.hostQ ++ [.record kind] } }
  | _ =>
    let s := s.putAgent id { ag with wait := .ending, stk := [], depth := 0, run := {} }
    s.record ag.part { kind := kind, die := ag.die, pa := tepc, w12 := BitVec.ofNat 32 c } (.job ag.launch) ag.unitWord

/-- Begin to read the line of an address homed on another package (R242, R243). -/
def Agent.askLine (ag : Agent) (now va : DWord) : Agent :=
  let e : Access := { kind := .load, loc := .remote (va.extractLsb' 46 9).toNat (va &&& ~~~(0x3F : DWord)), size := 64,
                      dst := .line, va := va, tag := ag.nextTag + 1, born := now }
  { ag with nextTag := ag.nextTag + 1, opens := ag.opens ++ [e] }

/-- A trap that has been entered goes to its handler, or ends its agent where the entry holds none (R348, R349). -/
def State.enterHandler (s : State) (id : Nat) (ag : Agent) (c : Nat) (tepc : DWord) (h : Option DWord) : State :=
  match h with
  | some h => s.putAgent id { ag with run := { pc := h }, wait := .none }
  | none => s.endByTrap id ag 0x33 c tepc

/-- The line of a trap table's entry has come from another package: its handler, none where it holds 0 or the home answered
with an error (R242, R347, R348). -/
def State.trapLine (s : State) (id : Nat) (ag : Agent) (c : Nat) (va : DWord) (line : List Byte) (err : Bool) : State :=
  let h := BitVec.ofNat 64 (leVal ((line.drop (va.toNat % 64)).take 8))
  s.enterHandler id { ag with wait := .none } c ag.tepc (if err || h = 0 then none else some h)

/-- Take a trap of cause `c` (R348, R349): `ag.run` is the state at which execution resumes. An asynchronous cause
within a handler stays pending with its value; a synchronous one there is a double trap. A table entry homed on another
package is read there first (R242). -/
def takeTrap (s : State) (id : Nat) (ag : Agent) (c : Nat) (tepc tval : DWord) : State :=
  let ag := { ag with wait := .none }
  if ag.inh then
    if 0x20 ≤ c then
      s.putAgent id
        { ag with
          tcause := ag.tcause ||| pendBit c,
          remVal := if c = 0x20 then tval else ag.remVal,
          engVal := if c = 0x21 then tval else ag.engVal,
          recVal := if c = 0x22 then tval else ag.recVal }
    else s.endByTrap id ag 0x34 c tepc
  else
    let s := (s.putAgent id ag).drainSfu id ag
    match s.agent? id with
    | none => s
    | some ag =>
      let ag := { ag with tcause := tcauseTaken ag.tcause c, tepc := tepc, tval := tval, saved := ag.run }
      let ag := ag.swapBank
      if s.trapFar ag c then
        let va := s.trapVa ag c
        s.sendOff.putAgent id { ag.askLine s.ntime va with run := {}, wait := .trapFar c va }
      else
        let h := s.handler ag c
        let s := (s.putAgent id ag).noteTrapRead id ag c
        s.enterHandler id ((s.agent? id).getD ag) c tepc h

/-- A synchronous trap of the instruction being issued: it has no effect, and execution resumes at it (R345). -/
def trapHere (s : State) (id : Nat) (ag : Agent) (c : Nat) (tval : DWord) : State :=
  takeTrap s id ag.atRep c ag.run.here tval

/-- The illegal-instruction, illegal-profile and absent-unit traps of the instruction being issued (R118, R345). -/
def trapWord (s : State) (id : Nat) (ag : Agent) (c : Nat) : State := trapHere s id ag c ag.run.word

/-- An engine fault becomes pending: `tval` is of the first to retire (R196). -/
def Agent.engineFault (ag : Agent) (v : Option DWord) : Agent :=
  match v with
  | none => ag
  | some x => if ag.tcause.getLsbD 17 then ag else { ag with tcause := ag.tcause ||| pendBit 0x21, engVal := x }

/-- An error meets a write after its issue: a store's is the address trap at the next boundary (R130), one of a row of an ACCST an
engine fault (R196). -/
def Agent.writeFault (ag : Agent) (row : Bool) (va : DWord) : Agent :=
  if row then ag.engineFault (some va) else { ag with stErr := ag.stErr ++ [va] }

/-! ### Waking WAITW in a scratchpad (R239) -/

/-- Make ready the waves that wait on a line of a CU's scratchpad, after a write of `n` bytes there (R239). -/
def State.wakeSp (s : State) (u off n : Nat) : State :=
  { s with agents := s.agents.map (fun e =>
      match e.2.wait with
      | .waitwOut w =>
        let o := (w.extractLsb' 0 32).toNat
        if w.getLsbD 63 ∧ e.2.unit = u ∧ 0 < n ∧ off / 64 ≤ o / 64 ∧ o / 64 ≤ (off + n - 1) / 64 then
          (e.1, { e.2 with wait := .waitwReady w })
        else e
      | _ => e) }

/-- Write bytes into a unit's scratchpad as an access there, which wakes its waiters (R239). -/
def State.spadStore (s : State) (u off : Nat) (bs : List Byte) : State := (s.spadWrite u off bs).wakeSp u off bs.length

/-! ### The divergence stack -/

/-- The entries the spill region holds (R296). -/
def Agent.spillCap (ag : Agent) : Nat := min 4080 (ag.dspill.extractLsb' 19 13).toNat
/-- The own-scratchpad offset of entry `n` of the region, counted from 1 (R296). -/
def Agent.spillOff (ag : Agent) (n : Nat) : Nat := (ag.dspill.extractLsb' 4 15).toNat * 16 + 48 * (n - 1)

/-- A mask as 12 bytes, lane l in bit l mod 8 of byte l div 8 (R297). -/
def maskBytes (m : Mask) : List Byte := leBytes 12 m.toNat

/-- The 48 bytes of a spilled entry (R297). -/
def DEntry.bytes (e : DEntry) : List Byte :=
  leBytes 8 e.join.toNat ++ leBytes 8 e.defer.toNat ++ maskBytes e.dmask ++ maskBytes e.rmask ++
    leBytes 8 (if e.run2 then 1 else 0)

/-- The entry that 48 bytes hold, as they stand (R297). -/
def DEntry.ofBytes (bs : List Byte) : DEntry :=
  { join := BitVec.ofNat 64 (leVal (bs.take 8)), defer := BitVec.ofNat 64 (leVal ((bs.drop 8).take 8)),
    dmask := BitVec.ofNat 96 (leVal ((bs.drop 16).take 12)), rmask := BitVec.ofNat 96 (leVal ((bs.drop 28).take 12)),
    run2 := (nth 0 bs 40).getLsbD 0 }

/-- Push an entry; the oldest of the 16 in the unit moves to the region when they are full (R296). -/
def State.pushEntry (s : State) (ag : Agent) (e : DEntry) : State × Agent :=
  if ag.depth < 16 then (s, { ag with stk := e :: ag.stk, depth := ag.depth + 1 })
  else
    let old := (ag.stk.getLast?).getD {}
    (s.spadStore ag.unit (ag.spillOff (ag.depth - 15)) old.bytes,
      { ag with stk := e :: ag.stk.dropLast, depth := ag.depth + 1 })

/-- Pop the top entry; the newest entry of the region comes back to the unit (R296). -/
def State.popEntry (s : State) (ag : Agent) : Agent :=
  let fill := if 16 < ag.depth then [DEntry.ofBytes (s.spadRead ag.unit (ag.spillOff (ag.depth - 16)) 48)] else []
  { ag with stk := ag.stk.drop 1 ++ fill, depth := ag.depth - 1 }

/-- A wave-order point: nothing later is performed before what has been issued, side-logged writes included (R62,
R232). -/
def State.orderPoint (s : State) (id : Nat) (ag : Agent) : Agent :=
  let logged := s.units.any (fun e => e.2.slog.any (fun x => x.agent == id && x.copy.isNone))
  if ag.opens.isEmpty && !logged then ag
  else { ag with opens := ag.opens ++ [{ kind := .order, rel := logged, tag := ag.nextTag }] }

/-! ### The end of an instruction and of a pass -/

/-- Go to a target at the end of a pass; its address is checked when its header is fetched (R287). -/
def gotoTarget (s : State) (id : Nat) (ag : Agent) (t : DWord) : State := s.putAgent id { ag with run := { pc := t } }

/-- Return from a handler at the end of its pass (R350). -/
def returnFromTrap (s : State) (id : Nat) (ag : Agent) : State :=
  let mid := ag.mid
  let ag := ag.swapBank
  let ag := { ag with tcause := ag.tcause &&& 0x5FFFFFFF }
  if mid then s.putAgent id { ag with run := { ag.saved with resumed := true }, saved := {} }
  else gotoTarget s id ag ag.tepc

/-- An access that delivers to one of the beat masks s60 to s62 is open: changing them waits for it (R97, R100). -/
def Agent.beatOwed (ag : Agent) : Bool :=
  ag.opens.any fun e => match e.dst with
    | .s r => decide (60 ≤ r) && decide (r ≤ 62)
    | .sp r => decide (59 ≤ r) && decide (r ≤ 62)
    | _ => false

/-- An acquire, a FENCE or a wave-order point of the agent is not complete: no later access may be performed (R221). -/
def Agent.barred (ag : Agent) : Bool :=
  ag.opens.any fun e => e.acq || match e.kind with
    | .order => true
    | .fenceRel _ _ => true
    | .fenceAcq => true
    | _ => false

/-- The end of a SPLIT's or JOIN's pass must wait (R100, R221, R296): for an open load to a beat mask, or, where it spills
or fills an entry, for what bars the wave's accesses. -/
def Agent.endHeld (ag : Agent) : Bool :=
  match ag.run.pend with
  | .split _ _ _ _ => ag.beatOwed || (decide (16 ≤ ag.depth) && ag.barred)
  | .join => ag.beatOwed || (decide (16 < ag.depth) && (ag.stk.head?.map (fun e => e.run2)).getD false && ag.barred)
  | _ => false

/-- The end of a pass (R111, R287, R294, R295): carry out the pending transfer, or begin the next pass, or leave the
run; an end that must wait stays at the end of the pass. -/
def endPass (s : State) (id : Nat) (ag : Agent) : State :=
  let r := ag.run
  if ag.endHeld then { s.putAgent id { ag with run := { r with atEnd := true } } with stalled := true }
  else match r.pend with
  | .none =>
    if 1 < r.left then
      s.putAgent id { ag with run := { r with left := r.left - 1, off := 0, idx := 0, rep := none, resumed := false } }
    else s.putAgent id { ag with run := { pc := r.end_ } }
  | .jump t => gotoTarget s id ag t
  | .split taken join tm fm =>
    let fall := r.end_
    let first := decide (maskCount fm < maskCount tm) || (maskCount tm == maskCount fm && taken.ult fall)
    let (start, lns, other, olns) := if first then (taken, tm, fall, fm) else (fall, fm, taken, tm)
    let (s, ag) := s.pushEntry ag { join := join, defer := other, dmask := olns, rmask := tm ||| fm, run2 := false }
    gotoTarget s id (s.orderPoint id (ag.setBeat lns)) start
  | .join =>
    match ag.stk with
    | [] => gotoTarget s id ag r.end_
    | e :: rest =>
      if e.run2 then gotoTarget s id (s.orderPoint id ((s.popEntry ag).setBeat e.rmask)) e.join
      else gotoTarget s id (s.orderPoint id ({ ag with stk := { e with run2 := true } :: rest }.setBeat e.dmask)) e.defer
  | .eret => returnFromTrap s id ag

/-- The instruction after the one that has completed (R111, R113, R114). -/
def nextInstr (s : State) (id : Nat) (ag : Agent) : State :=
  let r := ag.run
  let ag := { ag with run := { r with off := r.off + r.ilen, idx := r.idx + 1, rep := none, resumed := false } }
  if r.idx + 1 < r.cnt then s.putAgent id ag else endPass s id ag

/-- The instruction being issued has completed: its next iteration under REP, the next instruction, or the end of the
pass. -/
def retire (s : State) (id : Nat) (ag : Agent) : State :=
  let ag := { ag with wait := .none }
  match ag.run.rep with
  | some p =>
    if p.i + 1 < p.cnt then
      s.putAgent id { ag with run := { ag.run with rep := some { p with i := p.i + 1 }, resumed := false } }
    else nextInstr s id ag
  | none => nextInstr s id ag

/-- The instruction waits: it is issued again at a later turn; the machine lets others move (R237 to R239). -/
def waitFor (s : State) (id : Nat) (ag : Agent) (w : Wait) : State :=
  { s.putAgent id { ag with wait := w } with stalled := true }

/-- Take a trap at the boundary after the instruction being issued has completed (R345). -/
def retireThenTrap (s : State) (id : Nat) (ag : Agent) (c : Nat) (tval : DWord) : State :=
  let s := retire s id ag
  match s.agent? id with
  | some ag => takeTrap s id ag c ag.run.here tval
  | none => s

/-! ### Issue -/

/-- Issue an instruction (R109, R118, R119): with a guard field other than 0 outside the wave profile it is illegal;
in a profile that `legal` excludes it raises the illegal-profile trap. -/
def issue (legal : Profile → Bool) (g : BitVec 2) (s : State) (k : Nat → Agent → State) : Out :=
  onMover s fun id ag =>
    if ag.profile ≠ .wave ∧ g ≠ 0 then trapWord s id ag 0x01
    else if !legal ag.profile then trapWord s id ag 0x03
    else k id ag

def anyProfile : Profile → Bool := fun _ => true
def waveOnly : Profile → Bool
  | .wave => true
  | _ => false
def seqOnly : Profile → Bool
  | .sequencer => true
  | _ => false
def hostOnly : Profile → Bool
  | .host => true
  | _ => false
def notHost : Profile → Bool
  | .host => false
  | _ => true
def notSeq : Profile → Bool
  | .sequencer => false
  | _ => true

/-- Issue an instruction whose effects happen once, and only when its guard fires (R109); a slot that does not fire
retires. -/
def issueOnce (legal : Profile → Bool) (g : BitVec 2) (s : State) (k : Nat → Agent → State) : Out :=
  issue legal g s fun id ag =>
    if ag.profile = .wave ∧ !ag.fires g then retire s id ag else k id ag

/-- An instruction that changes its agent's registers alone, once under its guard. -/
def regOp (legal : Profile → Bool) (g : BitVec 2) (s : State) (f : Agent → Agent) : Out :=
  issueOnce legal g s fun id ag => retire s id (f ag)

/-- A vector instruction: it changes its wave's registers in the active lanes (R98, R109). -/
def vecOp (g : BitVec 2) (s : State) (f : Mask → Agent → Agent) : Out :=
  issue waveOnly g s fun id ag => retire s id (f (ag.active g) ag)

end Sys2Proof.Machine
end

