-- ==== Sys2Proof/Machine/Access.lean ====
section
/-! DEFINITION. What every memory access is made of: sizes and delivery (R128), plots and tags of the own scratchpad
(R64, R66, R135, R236), translation of an instruction's lanes with its faults in the order of R130, holds and side logs
(R60, R61), the issue of flat accesses (R220), windows and their posted writes (R136, R228, R244 to R247), and the
conditions of acquires and releases (R221, R224, R225). -/
namespace Sys2Proof.Machine

/-! ### Sizes and delivery -/

/-- The bytes of an access by its size code (R116, R128). -/
def sizeBytes (sz : Nat) : Nat := nth 4 [1, 1, 2, 2, 4, 8] sz

/-- What a load writes to a 32-bit register (R128); codes 8 to 11 are the low and the high nibble, sign- and
zero-extended (R137). -/
def loadWord (sx : Nat) (x : DWord) : Word :=
  match sx with
  | 0 => (x.extractLsb' 0 8).signExtend 32
  | 1 => (x.extractLsb' 0 8).zeroExtend 32
  | 2 => (x.extractLsb' 0 16).signExtend 32
  | 3 => (x.extractLsb' 0 16).zeroExtend 32
  | 8 => (x.extractLsb' 0 4).signExtend 32
  | 9 => (x.extractLsb' 0 4).zeroExtend 32
  | 10 => (x.extractLsb' 4 4).signExtend 32
  | 11 => (x.extractLsb' 4 4).zeroExtend 32
  | _ => x.extractLsb' 0 32

/-- Deliver a loaded or old value to its register; a scalar numbered from 128 stands in the trap bank. -/
def Agent.deliver (ag : Agent) (d : Dest) (sx : Nat) (x : DWord) : Agent :=
  match d with
  | .none => ag
  | .waitw => ag
  | .line => ag
  | .s r =>
    if 128 ≤ r then { ag with bankS := Tab.set 0 ag.bankS (r - 128) (loadWord sx x) } else ag.sSet r (loadWord sx x)
  | .sp r =>
    if 128 ≤ r then
      { ag with bankS := Tab.set 0 (Tab.set 0 ag.bankS (r - 128) (x.extractLsb' 0 32)) (r - 127) (x.extractLsb' 32 32) }
    else ag.pSet r x
  | .v r l => ag.vSetLane r l (loadWord sx x)
  | .vp r l => if 62 ≤ r then ag else (ag.vSetLane r l (x.extractLsb' 0 32)).vSetLane (r + 1) l (x.extractLsb' 32 32)

/-- The vector destination of a lane, a pair for a doubleword. -/
def vDest (sz r l : Nat) : Dest := if 63 ≤ r then .none else if sz = 5 then .vp r l else .v r l
/-- The scalar destination, a pair for a doubleword. -/
def sDest (sz r : Nat) : Dest := if 63 ≤ r then .none else if sz = 5 then .sp r else .s r

/-- A lane's store data, a pair for a doubleword (R128). -/
def Agent.vData (ag : Agent) (sz r l : Nat) : DWord := if sz = 5 then ag.vpGet r l else (ag.vGet r l).zeroExtend 64
/-- The scalar store data. -/
def Agent.sData (ag : Agent) (sz r : Nat) : DWord := if sz = 5 then ag.pGet r else (ag.sGet r).zeroExtend 64

/-! ### Plots and barrier objects -/

/-- The bytes of a plot of a unit (R64). -/
def plotSize (u : Nat) : Nat := if u < 192 then 0x1000 else 0x10000
/-- The plots a range of a unit's scratchpad touches (R64). -/
def plotsOf (u off n : Nat) : List Nat :=
  if n = 0 then [] else List.range' (off / plotSize u) ((off + n - 1) / plotSize u + 1 - off / plotSize u)
/-- A plot of a unit. -/
def UnitSt.plot (x : UnitSt) (p : Nat) : Plot := Tab.get {} x.plots p
/-- Change a plot. -/
def UnitSt.setPlot (x : UnitSt) (p : Nat) (v : Plot) : UnitSt := { x with plots := Tab.set {} x.plots p v }
/-- The first engine-side plot that a range touches (R66). -/
def State.enginePlot (s : State) (u off n : Nat) : Option Nat :=
  (plotsOf u off n).find? (fun p => ((s.unit u).plot p).engine)
/-- A range overlaps a barrier object (R135, R236). -/
def UnitSt.overTag (x : UnitSt) (off n : Nat) : Bool := x.tags.any (fun t => decide (t < off + n) && decide (off < t + 8))

/-! ### Order among an agent's accesses (R221) -/

/-- Two accesses touch a common byte. -/
def Access.overlaps (a b : Access) : Bool :=
  match a.loc, b.loc with
  | .mem p _ _, .mem q _ _ => decide (p < q + b.size) && decide (q < p + a.size)
  | .remote k v, .remote k' v' => k == k' && decide (v.toNat < v'.toNat + b.size) && decide (v'.toNat < v.toNat + a.size)
  | .win w o, .win w' o' => w == w' && decide (o < o' + b.size) && decide (o' < o + a.size)
  | _, _ => false

/-! ### Acquire and release (R219, R224, R225) -/

/-- The scope an agent's access at a scope code acts at on a flat path (R219, R138): a sequencer's and a core's
levels 1 and 2 are the package store. -/
def Agent.flatScope (ag : Agent) (sc : Nat) : Nat :=
  if ag.profile = .wave then sc else if sc = 1 ∨ sc = 2 then 3 else sc

/-- The level a written byte must have reached for a release at a scope (R218, R222): its home, for a path that ends
at the package store. -/
def PWrite.reached (w : PWrite) (sc : Nat) : Bool := decide (sc ≤ w.level)

/-- No side log holds an entry of the agent itself (R225, R234): an engine's entries are its operation's. -/
def State.slogClear (s : State) (id : Nat) : Bool :=
  s.units.all (fun e => e.2.slog.all (fun x => x.agent != id || x.copy.isSome))

/-- The accesses of a sequencer's queue entries are its own (R231): none dispatched before a tag is issued and not
retired. -/
def State.entriesDone (s : State) (ag : Agent) (tag : Nat) : Bool :=
  match ag.profile with
  | .sequencer =>
    let q := s.quad (ag.unit - 192)
    (q.loadQ ++ q.compQ ++ q.storeQ).all (fun e => !e.issued || decide (tag ≤ e.cmd.tag))
  | _ => true

/-- Every queue entry of a sequencer dispatched before the instruction of a tag has retired (R195, R234). -/
def State.dispatchedDone (s : State) (ag : Agent) (tag : Nat) : Bool :=
  match ag.profile with
  | .sequencer =>
    let q := s.quad (ag.unit - 192)
    (q.loadQ ++ q.compQ ++ q.storeQ).all (fun e => decide (tag ≤ e.cmd.tag))
  | _ => true

/-- Whether every access of the agent issued before the one tagged `tag` is performed, and its pending writes have
reached the scope's level (R225). -/
def State.releaseReady (s : State) (id : Nat) (ag : Agent) (sc tag : Nat) : Bool :=
  ag.opens.all (fun e => decide (tag ≤ e.tag)) && s.entriesDone ag tag &&
  ag.pend.all (fun w => decide (tag ≤ w.tag) || w.reached sc) &&
  (sc == 0 || s.slogClear id)

/-- A release at `sy`: write back to the home copies what the agent's earlier writes left modified (R225). -/
def State.writeBackOf (s : State) (id : Nat) : State :=
  match s.agent? id with
  | some ag => (ag.mods.foldl State.writeBack s).putAgent id { ag with mods := [] }
  | none => s

/-- The physical bytes that some agent's pending writes hold at a level of an instance: they are not made absent
(R224). -/
def State.pinned (s : State) (level idx pa : Nat) : Bool :=
  s.agents.any fun e =>
    let u := e.2.unit
    e.2.profile == .wave && (if level = 1 then u == idx else u / 4 == idx) &&
    e.2.pend.any fun w => w.level == level && match w.loc with
      | .mem p _ _ => decide (p ≤ pa) && decide (pa < p + w.bytes.length)
      | _ => false

/-- Empty an inner instance except for pinned bytes: level 1 by CU, level 2 by cluster (R224). -/
def State.emptyLevel (s : State) (level idx : Nat) : State :=
  if level = 1 then
    { s with ms := { s.ms with
        l1 := Tab.put s.ms.l1 idx ((Tab.get [] s.ms.l1 idx).filter (fun e => s.pinned 1 idx e.1)),
        l1at := Tab.put s.ms.l1at idx ((Tab.get [] s.ms.l1at idx).filter (fun e => s.pinned 1 idx e.1)) } }
  else
    { s with ms := { s.ms with
        l2 := Tab.put s.ms.l2 idx ((Tab.get [] s.ms.l2 idx).filter (fun e => s.pinned 2 idx e.1)),
        l2at := Tab.put s.ms.l2at idx ((Tab.get [] s.ms.l2at idx).filter (fun e => s.pinned 2 idx e.1)) } }

/-- An acquire at a scope by an agent (R224): the inner levels on its paths below the scope's level become absent.
Only a wave's path has inner levels (R219). -/
def State.acquire (s : State) (ag : Agent) (sc : Nat) : State :=
  if ag.profile = .wave then
    let s := if 2 ≤ sc then s.emptyLevel 1 ag.unit else s
    if 3 ≤ sc then s.emptyLevel 2 (ag.unit / 4) else s
  else s

/-! ### Remote errors -/

/-- A remote error reaches an agent: `rerr` is set and, if `rstat.rte` is 1, the remote-error trap is pending with the
failing address (R136, R143, R253, R345). -/
def Agent.remoteErr (ag : Agent) (va : DWord) : Agent :=
  let ag := ag.orStat rsRerr
  if ag.rstat.getLsbD 31 then { ag with tcause := ag.tcause ||| pendBit 0x20, remVal := va } else ag

/-- A remote error that a window access's instruction reports where it completes (R234, R238). -/
def Agent.reportErr (ag : Agent) : Agent :=
  if ag.unrep then
    let ag := { ag with unrep := false }
    if ag.rstat.getLsbD 31 then { ag with tcause := ag.tcause ||| pendBit 0x20, remVal := 0 } else ag
  else ag

/-! ### The lanes of a memory instruction -/

/-- One lane's access: the lane, its address for a trap, the key to translate, its bytes and its data. -/
structure Lane where
  l    : Nat
  va   : DWord
  key  : VKey
  n    : Nat
  dst  : Dest := .none
  sx   : Nat := 4
  data : DWord := 0
  cmp  : DWord := 0
  msk  : Byte := 0xFF
  deriving DecidableEq, Repr

/-- Where a lane's access goes. -/
inductive Target where
  | mem (pa : Nat) (x : Xlat)
  | remote (pkg : Nat)
  | absent
  | walking
  | protect
  deriving DecidableEq, Repr

/-- A side-log entry lies in the page of a key, as it is mapped now (R62). -/
def State.sameEnt (s : State) (e : SideEnt) (part : Nat) (k : VKey) : Bool := e.part == part && s.samePage part e.key k
/-- Some side log holds an entry of a page (R62). -/
def State.logged (s : State) (part : Nat) (k : VKey) : Bool := s.units.any (fun e => e.2.slog.any (fun x => s.sameEnt x part k))

/-- Where a translated access of a partition goes: a page whose side-log entries have not all replayed is not present for
it (R62). -/
def State.placed (s : State) (part : Nat) (k : VKey) (r : XRes) : Target :=
  match r with
  | .ok x => if s.logged part k then .absent else .mem (k.pa x) x
  | .notPresent => .absent
  | _ => .protect

/-- Translate a key for a stream of a partition (R48, R55, R57). -/
def State.streamTarget (s : State) (part : Nat) (st : Stream) (need : Perm) (k : VKey) : Target :=
  if (s.cached st (fun x => x.serves part k)).isNone && s.streamWaits part st k then .walking
  else
    match k with
    | .flat va => s.placed part k (s.xlatFlat part st va need)
    | .tile tid tile _ =>
      match s.tensor part tid with
      | none => .protect
      | some t => s.placed part k (s.xlatTile part st tid t tile need)

/-- Translate a key for an agent (R242, R48, R55). -/
def State.target (s : State) (ag : Agent) (need : Perm) (k : VKey) : Target :=
  match k with
  | .flat va =>
    if s.isRemote ag va then .remote (va.extractLsb' 46 9).toNat
    else if ag.physical s then s.placed ag.part k (s.xlatAg ag va need)
    else s.streamTarget ag.part ag.strm need k
  | .tile _ _ _ => s.streamTarget ag.part ag.strm need k

/-- Translate every lane in ascending order; each translation enters the agent's page registers (R57), and a lane that
waits for a walk holds up those behind it. -/
def State.targets (s : State) (need : Perm) : Agent → List Lane → Agent × List (Lane × Target)
  | ag, [] => (ag, [])
  | ag, x :: t =>
    match s.target ag need x.key with
    | .walking => (ag, [(x, .walking)])
    | r =>
      let ag := match r with
        | .mem _ y => ag.enter x.key y
        | _ => ag
      let (ag, rest) := State.targets s need ag t
      (ag, (x, r) :: rest)

/-- The MMIO block of an address answers: Rotunda's always, another die's while its link is open (R17, R21). -/
def State.mmioUp (s : State) (pa : Nat) : Bool :=
  paKind pa == .mmio && (let d := (pa - mmioBase) / 0x10000000
    d == 0 || (s.die d).link == .up)

/-- The home answers the access (R17, R22, R23, R33): a core alone reaches MMIO. -/
def State.answers (s : State) (ag : Agent) (x : Xlat) (pa : Nat) : Bool :=
  s.reachable ag.part (pteSlot x.pte) pa || (ag.profile == .host && s.mmioUp pa)

/-- The place of an access under its translation. -/
def Target.loc (va : DWord) : Target → Loc
  | .mem pa x => .mem pa (pteUnc x.pte) (pteSlot x.pte)
  | .remote p => .remote p va
  | _ => .mem 0 false 0

/-- The open access of a lane (R220). -/
def Lane.access (x : Lane) (t : Target) (kind : AccKind) (scope tag : Nat) : Access :=
  { kind := kind, loc := t.loc x.va, size := x.n, scope := scope, data := x.data, cmp := x.cmp, dst := x.dst, sx := x.sx,
    va := x.va, tag := tag, msk := x.msk,
    tid := match x.key with
      | .tile n _ _ => some n
      | .flat _ => none }

/-! ### Faults, holds and side logs (R60 to R62) -/

/-- A fault of the page of a key, as it is mapped now (R60, R62). -/
def State.sameFault (s : State) (f : FaultRec) (part : Nat) (k : VKey) : Bool := f.part == part && s.samePage part f.key k

/-- Raise a not-present fault after the walk that met it, or join the one that stands for the page, mapped but not yet settled
ones too (R48, R60): the waiter is an agent or a copy. DESIGN CHOICE (log 115): several accesses to one page or tile are one entry, with the first's address
and kind. -/
def State.raiseFault (s : State) (part : Nat) (k : VKey) (perm : Perm) (ag cp : Option Nat) : State :=
  let add := fun (f : FaultRec) =>
    { f with waiters := f.waiters ++ (ag.toList.filter (fun a => !f.waiters.contains a)),
             copies := f.copies ++ (cp.toList.filter (fun c => !f.copies.contains c)) }
  let s := s.noteWalk part k
  if s.ms.faults.any (fun f => s.sameFault f part k) then
    { s with ms := { s.ms with faults := s.ms.faults.map (fun f => if s.sameFault f part k then add f else f) } }
  else
    { s with
      ms := { s.ms with faults := s.ms.faults ++ [add { part := part, key := k, perm := perm }] },
      plat := { s.plat with hostQ := s.plat.hostQ ++ [.fault part] } }

/-- A page mapped again whose side-log entries still replay: held accesses of the page go on waiting (R62). -/
def State.replaying (s : State) (part : Nat) (k : VKey) : Bool :=
  s.ms.faults.any (fun f => s.sameFault f part k && f.resolved)

/-- The entries a unit's side log can hold (R61). -/
def slogCap (u : Nat) : Nat := if u < 192 then 128 else 256

/-- The 64-byte line of a key. -/
def VKey.line : VKey → VKey
  | .flat va => .flat (va &&& ~~~(0x3F : DWord))
  | .tile t n off => .tile t n (off - off % 64)
/-- The offset of a key within its line. -/
def VKey.inLine : VKey → Nat
  | .flat va => va.toNat % 64
  | .tile _ _ off => off % 64

/-- Write bytes over those a side-log entry already holds: the part each one writes (R61, R129). -/
def mergeBytes (old : List (Nat × Byte × Byte)) : List (Nat × Byte × Byte) → List (Nat × Byte × Byte)
  | [] => old
  | (o, b, m) :: t =>
    match old.find? (fun e => e.1 == o) with
    | some (_, b', m') =>
      mergeBytes (old.map (fun e => if e.1 == o then (o, (b' &&& ~~~m) ||| (b &&& m), m' ||| m) else e)) t
    | none => mergeBytes (old ++ [(o, b &&& m, m)]) t

/-- Put one lane's part into the entries of its instruction: one entry a line (R61). -/
def addEntry (es : List SideEnt) (e : SideEnt) : List SideEnt :=
  if es.any (fun x => x.key == e.key) then
    es.map (fun x => if x.key == e.key then
      { x with bytes := mergeBytes x.bytes e.bytes, args := x.args ++ e.args } else x)
  else es ++ [e]

/-- The side-log entries of an instruction's absent lanes, ascending (R61). -/
def State.sideEntries (s : State) (id : Nat) (ag : Agent) (op : Option AtomOp) (scope : Nat) (ls : List Lane) :
    List SideEnt :=
  ls.foldl (fun es x =>
    let base : SideEnt :=
      { agent := id, part := ag.part, launch := ag.launch, die := ag.die.toNat, inc := (s.die ag.die.toNat).inc,
        key := x.key.line, va := x.va, op := op, size := x.n, scope := scope, tag := ag.nextTag + 1 }
    addEntry es (match op with
      | none =>
        { base with bytes := ((leBytes x.n x.data.toNat).zipIdx.map (fun p => (x.key.inLine + p.2, p.1 &&& x.msk, x.msk))) }
      | some _ => { base with args := [(x.key.inLine, x.data, x.cmp)] })) []

/-- An agent may enter `n` entries in its unit's log: they are free, and nobody has waited longer (R61). -/
def UnitSt.slogFree (x : UnitSt) (u id n : Nat) : Bool :=
  decide (x.slog.length + n ≤ slogCap u) && (x.slogQ.isEmpty || x.slogQ.head? == some id)

/-- Wait for free side-log entries, in the order of asking (R61). -/
def State.waitSlog (s : State) (id : Nat) (ag : Agent) : State :=
  let x := s.unit ag.unit
  waitFor (s.putUnit ag.unit { x with slogQ := if x.slogQ.contains id then x.slogQ else x.slogQ ++ [id] }) id ag .again

/-- An asker that goes on without an entry of the log waits there no longer (R61). -/
def State.leaveSlog (s : State) (u asker : Nat) : State :=
  let x := s.unit u
  if x.slogQ.contains asker then s.putUnit u { x with slogQ := x.slogQ.filter (fun a => a != asker) } else s

/-- Hold an agent on a lane's not-present page (R60). -/
def State.hold (s : State) (id : Nat) (ag : Agent) (x : Lane) (need : Perm) : State :=
  let s := s.raiseFault ag.part x.key need (some id) none
  waitFor s id ag (.held x.va)

/-! ### Routes and timeouts of the fabric (R243 to R245, R251) -/

/-- The time in ns that a request to an address of another package waits for its response (R243). -/
def State.domTmo (s : State) : Nat := 1000 * max 1 (min 8192 (s.rot.domTmo.extractLsb' 0 16).toNat)
/-- The time in ns that a window access waits for its response or acknowledgement (R244). -/
def winTmo (cfg : DWord) : Nat :=
  let t := (cfg.extractLsb' 54 4).toNat
  1000 * (if t = 0 then 8 else 2 ^ t)
/-- A time has passed since a moment. -/
def State.past (s : State) (born : DWord) (t : Nat) : Bool := decide (born.toNat + t ≤ s.ntime.toNat)

/-- An open access has waited for its response as long as it may (R243, R244). -/
def State.overdue (s : State) (ag : Agent) (e : Access) : Bool :=
  match e.loc with
  | .remote _ _ => s.past e.born s.domTmo
  | .win w _ => s.past e.born (winTmo (Tab.get {} (s.unit ag.unit).wins w).cfg)
  | .mem _ _ _ => false

/-- The flits of an instruction's accesses to another package: one each, on the lowest-numbered path that is available (R243). -/
def State.sendFar (s : State) (ts : List (Lane × Target)) : State :=
  ts.foldl (fun t p => match p.2 with
    | .remote _ => t.sendOff
    | _ => t) s

/-! ### Issue of flat and tensor accesses -/

/-- The lowest lane that fails a condition of R130: the address trap names its address. -/
def badLane (ls : List Lane) (bad : Lane → Bool) : Option Lane := ls.find? bad

/-- The address of a lane is malformed: bits 63:56, or alignment (R45, R128). -/
def Lane.bad (x : Lane) : Bool :=
  match x.key with
  | .flat va => !flatOk va || va.toNat % x.n != 0
  | .tile _ _ _ => false

/-- Raise the address trap of the instruction being issued. -/
def addrTrap (s : State) (id : Nat) (ag : Agent) (va : DWord) : State := trapHere s id ag 0x05 va

/-- What the accesses of an instruction leave behind in reaching their pages: the walks for the translations they use (R48, R57). -/
def State.noteLanes (s : State) (ag : Agent) (ts : List (Lane × Target)) : State :=
  ((ts.filterMap (fun p => match p.2 with
    | .mem _ x => some x
    | _ => none)).eraseDups).foldl (fun t x => t.noteAgXlat ag x) s

/-- Issue the returning accesses of an instruction (loads, atomics with a destination): the checks of R130 in their
order, a hold on the first page that is not present, an address trap where the home answers with an error, and
otherwise one open access a lane (R60, R130, R220). `fin` ends the instruction. -/
def issueReturning (s : State) (id : Nat) (ag : Agent) (need : Perm) (ls : List Lane)
    (mk : Lane → Target → Nat → Access) (fin : State → Agent → State) : State :=
  match badLane ls Lane.bad with
  | some x => addrTrap s id ag x.va
  | none =>
    let asker := ag
    let (ag, ts) := s.targets need ag ls
    match ts.find? (fun p => p.2 == .protect) with
    | some p => addrTrap s id ag p.1.va
    | none =>
      match ts.find? (fun p => p.2 == .absent || p.2 == .walking || s.replaying ag.part p.1.key) with
      | some p => if p.2 = .walking then waitFor s id ag .again else s.hold id ag p.1 need
      | none =>
        match ts.find? (fun p => match p.2 with
          | .mem pa x => !s.answers ag x pa
          | _ => false) with
        | some p =>
          let s := match p.2 with
            | .mem pa x => s.violationOf ag (pteSlot x.pte) pa
            | _ => s
          addrTrap s id ag p.1.va
        | none =>
          let tag := ag.nextTag + 1
          fin ((s.noteLanes asker ts).sendFar ts) { ag with nextTag := tag, opens := ag.opens ++ ts.map (fun p => { mk p.1 p.2 tag with born := s.ntime }) }

/-- Issue the accesses of an instruction that returns nothing (stores, reductions): lanes whose page is not present
enter the side log, all entries together, and the others are open accesses (R60, R61, R130). `rel` is the scope of a
release that must be met before its store enters a side log (R227). -/
def issuePosted (s : State) (id : Nat) (ag : Agent) (need : Perm) (op : Option AtomOp) (scope : Nat) (rel : Option Nat)
    (ls : List Lane) (mk : Lane → Target → Nat → Access) (fin : State → Agent → State) : State :=
  match badLane ls Lane.bad with
  | some x => addrTrap (s.leaveSlog ag.unit id) id ag x.va
  | none =>
    let asker := ag
    let (ag, ts) := s.targets need ag ls
    match ts.find? (fun p => p.2 == .protect) with
    | some p => addrTrap (s.leaveSlog ag.unit id) id ag p.1.va
    | none =>
      if ts.any (fun p => p.2 == .walking) then waitFor s id ag .again
      else
      let gone := (ts.filter (fun p => p.2 == .absent)).map (fun p => p.1)
      let here := ts.filter (fun p => p.2 != .absent)
      let tag := ag.nextTag + 1
      let ag' := { ag with nextTag := tag, opens := ag.opens ++ here.map (fun p => { mk p.1 p.2 tag with born := s.ntime }) }
      if gone.isEmpty then fin (((s.leaveSlog ag.unit id).noteLanes asker here).sendFar here) ag'
      else
        let es := s.sideEntries id ag op scope gone
        let u := s.unit ag.unit
        let ready := match rel with
          | some sc => s.releaseReady id ag sc tag
          | none => true
        if !ready then waitFor s id ag .again
        else if u.slogFree ag.unit id es.length then
          let s := s.putUnit ag.unit { u with slog := u.slog ++ es, slogQ := u.slogQ.filter (fun a => a != id) }
          let s := if rel = some 5 then ag'.mods.foldl State.writeBack s else s
          let ag' := if rel = some 5 then { ag' with mods := [] } else ag'
          let s := gone.foldl (fun t y => t.raiseFault ag.part y.key need none none) s
          fin ((s.noteLanes asker here).sendFar here) ag'
        else s.waitSlog id ag

/-! ### Lines homed on another package (R242) -/

/-- The halfword of an address in the lines that an agent has read from another package. -/
def Agent.farHalf (ag : Agent) (va : DWord) : Option Half :=
  match ag.wait with
  | .far ls => (ls.find? (fun e => e.1 == va.toNat / 64)).map
      (fun e => BitVec.ofNat 16 (leVal ((e.2.drop (va.toNat % 64)).take 2)))
  | _ => none

/-- Read the line of an address homed on another package, and wait for it (R242, R253). -/
def State.askFar (s : State) (id : Nat) (ag : Agent) (va : DWord) : State :=
  let got := match ag.wait with
    | .far ls => ls
    | _ => []
  if ag.opens.any (fun o => o.dst == .line) then waitFor s id ag (.far got)
  else
    waitFor s.sendOff id (ag.askLine s.ntime va) (.far got)

/-! ### Scratchpad addresses (R126) -/

/-- What a scratchpad address names for an agent. -/
inductive SpLoc where
  | own (off : Nat)
  | win (w off : Nat)
  | none
  deriving DecidableEq, Repr

/-- The resource of `n` bytes at a scratchpad address (R126). -/
def spLoc (u a n : Nat) : SpLoc :=
  if a + n ≤ spadSize u then .own a
  else if 0x1000000 ≤ a ∧ a + n ≤ 0x1800000 ∧ (a - 0x1000000) % 0x80000 + n ≤ 0x80000 then
    .win ((a - 0x1000000) / 0x80000) ((a - 0x1000000) % 0x80000)
  else .none

/-- Window `w` of a unit's group. -/
def UnitSt.win (x : UnitSt) (w : Nat) : Window := Tab.get {} x.wins w
/-- Change a window. -/
def UnitSt.putWin (x : UnitSt) (w : Nat) (v : Window) : UnitSt := { x with wins := Tab.put x.wins w v }
/-- The window is configured (R244). -/
def Window.on (w : Window) : Bool := w.cfg.getLsbD 63

/-- A scratchpad address of an agent names a resource that is there (R126). -/
def State.spOk (s : State) (ag : Agent) (a n : Nat) : Bool :=
  match spLoc ag.unit a n with
  | .own _ => true
  | .win w _ => ((s.unit ag.unit).win w).on
  | .none => false

/-! ### Windows -/

/-- The allowed paths of a configuration word (R244). -/
def winPaths (cfg : DWord) : List Nat := (List.range 4).filter (fun p => cfg.getLsbD (58 + p))

/-- The path a posted write takes: by hash of its line's address, or by load (R245, log 21). -/
def winPath (cfg : DWord) (off fresh : Nat) : Nat :=
  let ps := winPaths cfg
  let h := if cfg.getLsbD 62 then Config.loadPath fresh else (off / 64 % 16) ^^^ (off / 1024 % 16)
  nth 0 ps (h % ps.length)

/-- The window number of a sender: a wave's number in its group, 0 for a sequencer. -/
def Agent.gwN (ag : Agent) : Nat := if ag.profile = .wave then ag.gw.toNat else 0

/-- Bytes of a window that an unacknowledged posted write of the agent through it overlaps (R228). -/
def State.winBusy (s : State) (id u w : Nat) (offs : List Nat) : Bool :=
  s.fab.posted.any fun e =>
    e.2.agent == id && e.2.unit_ == u && e.2.win == w && !e.2.acked &&
    (e.2.bytes.any (fun b => offs.contains b.1) ||
      match e.2.kind with
      | .flag _ n _ _ => offs.any (fun o => decide (e.2.off ≤ o) && decide (o < e.2.off + n))
      | .data => false)

/-- The askers for a unit of a window's allowance that still wait for one (R246). -/
def State.winQueue (s : State) (w : Window) : List Nat :=
  w.queue.filter fun a =>
    match s.agent? a with
    | some ag => ag.live && ag.wait != .none
    | none => false

/-- Send one posted write or ordered flag through a window: none while no unit of its allowance is free for it, or an
earlier write of the agent to its bytes is not acknowledged (R136, R139, R228, R246, R247). A flag carries the sent
counts taken before its own. -/
def State.post (s : State) (id : Nat) (ag : Agent) (w off len : Nat) (bytes : List (Nat × Byte))
    (flag : Option (DWord × Nat × Bool)) (wsig : Option Nat) : Option State :=
  let x := s.unit ag.unit
  let win := x.win w
  let offs := bytes.map (fun b => b.1) ++ (match flag with
    | some (_, n, _) => (List.range n).map (fun i => off + i)
    | none => [])
  let q := s.winQueue win
  if s.winBusy id ag.unit w offs then none
  else if decide (win.used < (win.cfg.extractLsb' 46 8).toNat) && (q.isEmpty || q.head? == some id) then
    let (n, s) := s.draw
    let p := winPath win.cfg off n
    let carry := (List.range 4).map (fun i => Tab.get 0 win.sent (4 * ag.gwN + i))
    let key := 4 * ag.gwN + p
    let win := { win with used := win.used + 1, queue := q.filter (fun a => a != id),
                          sent := Tab.set 0 win.sent key ((Tab.get 0 win.sent key + 1) % 65536) }
    let k : PostKind := match flag with
      | some (v, sz, add) => .flag v sz add carry
      | none => .data
    let e : Posted := { agent := id, unit_ := ag.unit, src := ag.gwN, win := w, bind := win.bind.getD 0, path := p, kind := k,
                        off := off, len := len, bytes := bytes, wsig := wsig, born := s.ntime }
    let s := s.putUnit ag.unit (x.putWin w win)
    some { s with fab := { s.fab with posted := Tab.put s.fab.posted s.fab.nextOp e, nextOp := s.fab.nextOp + 1 } }
  else none

/-- Ask for a unit of a window's allowance (R246). -/
def State.askWin (s : State) (id u w : Nat) : State :=
  let x := s.unit u
  let win := x.win w
  let q := s.winQueue win
  s.putUnit u (x.putWin w { win with queue := if q.contains id then q else q ++ [id] })

/-- An agent has a posted write or ordered flag that is not acknowledged, a WSIG's payload included (R234, R238, R259). -/
def State.postedOpen (s : State) (id : Nat) : Bool :=
  s.fab.posted.any (fun e => e.2.agent == id && !e.2.acked && (e.2.wsig == none || e.2.kind == .data))

/-! ### Waking WAITW (R239, R240) -/

/-- Two addresses lie in one 64-byte line (R239). -/
def sameLine (a b : DWord) : Bool := a.toNat / 64 == b.toNat / 64

/-- The physical line an address of an agent names, where it is translated. -/
def State.physLine (s : State) (ag : Agent) (ea : DWord) : Option Nat :=
  if ea.getLsbD 63 then none
  else
    match s.xlatAg ag ea .read with
    | .ok x => some (x.flatPa ea / 64)
    | _ => none

/-- Make ready the waves of the waker's partition that wait on a line (R240): the same line by its address, or through
another mapping of it; a scratchpad line is the CU's own. -/
def State.wake (s : State) (ag : Agent) (ea : DWord) : State :=
  { s with agents := s.agents.map (fun e =>
      match e.2.wait with
      | .waitwOut w =>
        if e.2.part = ag.part ∧ (if ea.getLsbD 63 then sameLine w ea ∧ e.2.unit = ag.unit
            else sameLine w ea ∨ (!w.getLsbD 63 ∧ (s.physLine ag ea).isSome ∧ s.physLine e.2 w = s.physLine ag ea)) then
          (e.1, { e.2 with wait := .waitwReady w })
        else e
      | _ => e) }

/-! ### Atomic arithmetic (R141) -/

/-- The new value of an atomic on `8 × bytes` bits; ACAS answers the old value where the comparison fails. -/
def atomNew (op : AtomOp) (dbl : Bool) (old b cmp : DWord) : DWord :=
  let w := fun (x : DWord) => if dbl then x else (x.extractLsb' 0 32).zeroExtend 64
  let lt := fun (x y : DWord) => if dbl then x.slt y else (x.extractLsb' 0 32).slt (y.extractLsb' 0 32)
  match op with
  | .add => w (old + b)
  | .sub => w (old - b)
  | .min => if lt b old then w b else old
  | .max => if lt old b then w b else old
  | .minu => if (w b).ult (w old) then w b else old
  | .maxu => if (w old).ult (w b) then w b else old
  | .and => w (old &&& b)
  | .or => w (old ||| b)
  | .xor => w (old ^^^ b)
  | .xchg => w b
  | .cas => if w old = w cmp then w b else old
  | .fadd =>
    let f := if dbl then Fmt.fp64 else Fmt.fp32
    BitVec.ofNat 64 (roundTo f 0 0 (fvAdd 0 (f.decode (w old).toNat) (f.decode (w b).toNat)).1).1

/-- An atomic writes: not so an ACAS whose comparison fails (R141). -/
def atomWrites (op : AtomOp) (dbl : Bool) (old cmp : DWord) : Bool :=
  match op with
  | .cas => if dbl then old == cmp else old.extractLsb' 0 32 == cmp.extractLsb' 0 32
  | _ => true

end Sys2Proof.Machine
end

