-- ==== Sys2Proof/Machine/LoadStore.lean ====
section
/-! DEFINITION. The loads and stores: LD, ST, SLD, SST (R125, R132 to R134), LDSP, STSP (R126, R135, R136), TLD, TST
(R137), LDACQ, STREL (R127, R138, R139). -/
namespace Sys2Proof.Machine

/-! ### Flat addresses -/

/-- The flat address of base, signed offset and scale (R125). -/
def flatEa (base : DWord) (off : Word) (scale : Nat) : DWord := base + (off.signExtend 64 <<< scale)

/-- The scalar base of a memory instruction: a pair, or the sign-extended literal. -/
def Agent.base (ag : Agent) (a : Src) : DWord := ag.srcP a

/-- The lanes of LD or ST (R132, R133). -/
def flatLanes (ag : Agent) (size : BitVec 3) (scale g : BitVec 2) (d : BitVec 6) (a b : Src) : List Lane :=
  (lanesOf (ag.active g)).map fun l =>
    let ea := flatEa (ag.base a) (ag.vsrc b l) scale.toNat
    { l := l, va := ea, key := .flat ea, n := sizeBytes size.toNat, dst := vDest size.toNat d.toNat l,
      sx := size.toNat, data := ag.vData size.toNat d.toNat l }

/-- The one access of SLD or SST (R134). -/
def flatScalar (ag : Agent) (size : BitVec 3) (scale : BitVec 2) (d : BitVec 6) (a b : Src) : List Lane :=
  let ea := flatEa (ag.base a) (ag.src b) scale.toNat
  [{ l := 0, va := ea, key := .flat ea, n := sizeBytes size.toNat, dst := sDest size.toNat d.toNat,
     sx := size.toNat, data := ag.sData size.toNat d.toNat }]

/-- An open load (R223). -/
def mkLoad (x : Lane) (t : Target) (tag : Nat) : Access := x.access t .load 0 tag
/-- An open store (R222). -/
def mkStore (x : Lane) (t : Target) (tag : Nat) : Access := x.access t .store 0 tag

/-- LD (R132). -/
def execLd (size : BitVec 3) (scale g : BitVec 2) (d : BitVec 6) (a b : Src) (s : State) : Out :=
  issue waveOnly g s fun id ag =>
    issueReturning s id ag .read (flatLanes ag size scale g d a b) mkLoad (fun s ag => retire s id ag)

/-- ST (R133). -/
def execSt (size : BitVec 3) (scale g : BitVec 2) (d : BitVec 6) (a b : Src) (s : State) : Out :=
  issue waveOnly g s fun id ag =>
    issuePosted s id ag .write none 0 none (flatLanes ag size scale g d a b) mkStore (fun s ag => retire s id ag)

/-- SLD (R134). -/
def execSld (size : BitVec 3) (scale g : BitVec 2) (d : BitVec 6) (a b : Src) (s : State) : Out :=
  issueOnce notSeq g s fun id ag =>
    issueReturning s id ag .read (flatScalar ag size scale d a b) mkLoad (fun s ag => retire s id ag)

/-- SST (R134). -/
def execSst (size : BitVec 3) (scale g : BitVec 2) (d : BitVec 6) (a b : Src) (s : State) : Out :=
  issueOnce notSeq g s fun id ag =>
    issuePosted s id ag .write none 0 none (flatScalar ag size scale d a b) mkStore (fun s ag => retire s id ag)

/-! ### Scratchpad addresses -/

/-- One lane's scratchpad access: lane, address, bytes, destination, data. -/
structure SpLane where
  l    : Nat
  a    : Nat
  n    : Nat
  dst  : Dest := .none
  sx   : Nat := 4
  data : DWord := 0
  cmp  : DWord := 0
  deriving DecidableEq, Repr

/-- The lanes of LDSP or STSP: each active lane of a wave, one access of a sequencer (R135). -/
def spLanes (ag : Agent) (size : BitVec 3) (scale g : BitVec 2) (d : BitVec 6) (a b : Src) : List SpLane :=
  let sz := size.toNat
  match ag.profile with
  | .wave =>
    (lanesOf (ag.active g)).map fun l =>
      { l := l, a := (ag.src a + (ag.vsrc b l <<< scale.toNat)).toNat, n := sizeBytes sz, dst := vDest sz d.toNat l,
        sx := sz, data := ag.vData sz d.toNat l }
  | _ =>
    [{ l := 0, a := (ag.src a + (ag.src b <<< scale.toNat)).toNat, n := sizeBytes sz, dst := sDest sz d.toNat,
       sx := sz, data := ag.sData sz d.toNat }]

/-- The scratchpad access is malformed, or names nothing (R126, R128). -/
def State.spBad (s : State) (ag : Agent) (x : SpLane) : Bool := x.a % x.n != 0 || !s.spOk ag x.a x.n

/-- The offset of an access that names the own scratchpad (R126). -/
def SpLane.own? (u : Nat) (x : SpLane) : Option Nat :=
  match spLoc u x.a x.n with
  | .own o => some o
  | _ => none

/-- The traps of an own-scratchpad access at issue (R130): address, plot ownership, and, for a writing access, barrier
clobber; the cause and `tval` of the first condition, of its lowest lane. -/
def State.spTrap (s : State) (ag : Agent) (writes : Bool) (ls : List SpLane) : Option (Nat × DWord) :=
  let u := ag.unit
  match ls.find? (s.spBad ag) with
  | some x => some (0x05, BitVec.ofNat 64 x.a)
  | none =>
    match ls.findSome? (fun x => (x.own? u).bind (fun o => s.enginePlot u o x.n)) with
    | some p => some (0x06, BitVec.ofNat 64 p)
    | none =>
      match ls.find? (fun x => writes && match x.own? u with
        | some o => (s.unit u).overTag o x.n
        | none => false) with
      | some x => some (0x07, BitVec.ofNat 64 x.a)
      | none => none

/-- The value an own-scratchpad access reads (R219). -/
def State.spWord (s : State) (u off n : Nat) : DWord := BitVec.ofNat 64 (leVal (s.spadRead u off n))

/-- The own-scratchpad lanes of a load, delivered at issue (R135, R219). -/
def State.ownLoads (s : State) (ag : Agent) (ls : List SpLane) : Agent :=
  ls.foldl (fun t x => match x.own? ag.unit with
    | some o => t.deliver x.dst x.sx (s.spWord ag.unit o x.n)
    | none => t) ag

/-- The own-scratchpad lanes of a store, in ascending order (R129, R135). -/
def State.ownStores (s : State) (ag : Agent) (ls : List SpLane) : State :=
  ls.foldl (fun t x => match x.own? ag.unit with
    | some o => t.spadStore ag.unit o (leBytes x.n x.data.toNat)
    | none => t) s

/-- Put bytes into the groups of an instruction's window lanes, by window and 64-byte line, ascending (R136). -/
def addGroup : List (Nat × Nat × List (Nat × Byte)) → Nat → Nat → List (Nat × Byte) → List (Nat × Nat × List (Nat × Byte))
  | [], w, ln, bs => [(w, ln, bs)]
  | (w', ln', bs') :: t, w, ln, bs =>
    if w = w' ∧ ln = ln' then
      (w, ln, bs.foldl (fun acc p => if acc.any (fun q => q.1 == p.1)
        then acc.map (fun q => if q.1 == p.1 then p else q) else acc ++ [p]) bs') :: t
    else if w < w' ∨ (w = w' ∧ ln < ln') then (w, ln, bs) :: (w', ln', bs') :: t
    else (w', ln', bs') :: addGroup t w ln bs

/-- The remote accesses of an instruction's window lanes (R136). -/
def winGroups (u : Nat) (ls : List SpLane) : List (Nat × Nat × List (Nat × Byte)) :=
  ls.foldl (fun gs x => match spLoc u x.a x.n with
    | .win w o => addGroup gs w (o / 64) ((leBytes x.n x.data.toNat).zipIdx.map (fun p => (o + p.2, p.1)))
    | _ => gs) []

/-- The offset of the lowest byte of a group and the bytes it spans. -/
def groupSpan (bs : List (Nat × Byte)) : Nat × Nat :=
  let lo := bs.foldl (fun m p => min m p.1) (nth (0, 0) bs 0).1
  let hi := bs.foldl (fun m p => max m p.1) lo
  (lo, hi + 1 - lo)

/-- Send the remaining posted writes of a window store; it stalls where no unit of the allowance is free (R136). A
window that another agent has unbound meanwhile counts as an error acknowledgement (log 24). -/
def State.sendGroups (s : State) (id : Nat) (ag : Agent) : List (Nat × Nat × List (Nat × Byte)) → Nat → State
  | [], _ => retire s id ag
  | (w, _, bs) :: t, n =>
    if ((s.unit ag.unit).win w).on then
      let (lo, len) := groupSpan bs
      match s.post id ag w lo len bs none none with
      | some s => State.sendGroups s id ag t (n + 1)
      | none => waitFor (s.askWin id ag.unit w) id ag (.winStore n)
    else State.sendGroups s id { (ag.orStat rsRerr) with unrep := true } t (n + 1)

/-- The open accesses of a window load's lanes, issued at a time (R136, R244). -/
def winLoads (now : DWord) (u tag : Nat) (ls : List SpLane) : List Access :=
  ls.filterMap fun x => match spLoc u x.a x.n with
    | .win w o => some { kind := .load, loc := .win w o, size := x.n, dst := x.dst, sx := x.sx,
                         va := BitVec.ofNat 64 x.a, tag := tag, born := now }
    | _ => none

/-- Some open access goes through a window. -/
def Agent.winOpen (ag : Agent) : Bool := ag.opens.any fun e => match e.loc with
  | .win _ _ => true
  | _ => false

/-- LDSP (R135, R136). -/
def execLdsp (size : BitVec 3) (scale g : BitVec 2) (d : BitVec 6) (a b : Src) (s : State) : Out :=
  issue notHost g s fun id ag =>
    if ag.wait = .winLoad then
      if ag.winOpen then waitFor s id ag .winLoad else retire s id ag
    else
      let ls := spLanes ag size scale g d a b
      let u := ag.unit
      match s.spTrap ag false ls with
      | some (c, v) => trapHere s id ag c v
      | none =>
        let busy := (winGroups u ls).any (fun p => s.winBusy id u p.1 (p.2.2.map (fun q => q.1)))
        if (ag.barred && !ls.isEmpty) || busy then waitFor s id ag .again
        else
          let tag := ag.nextTag + 1
          let ws := winLoads s.ntime u tag ls
          let ag := s.ownLoads ag ls
          if ws.isEmpty then retire s id ag
          else waitFor s id { ag with nextTag := tag, opens := ag.opens ++ ws } .winLoad

/-- STSP (R135, R136). -/
def execStsp (size : BitVec 3) (scale g : BitVec 2) (d : BitVec 6) (a b : Src) (s : State) : Out :=
  issue notHost g s fun id ag =>
    let ls := spLanes ag size scale g d a b
    let gs := winGroups ag.unit ls
    match ag.wait with
    | .winStore n => s.sendGroups id ag (gs.drop n) n
    | _ =>
      match s.spTrap ag true ls with
      | some (c, v) => trapHere s id ag c v
      | none =>
        if ag.barred && !ls.isEmpty then waitFor s id ag .again
        else (s.ownStores ag ls).sendGroups id ag gs 0

/-! ### Tensor addresses -/

/-- The size codes that match a record's element size (R137). -/
def tensorSizeOk (ebits sz : Nat) : Bool :=
  match ebits with
  | 0 => sz == 0 || sz == 1
  | 2 => sz == 0 || sz == 1
  | 3 => sz == 2 || sz == 3
  | 4 => sz == 4
  | 5 => sz == 5
  | _ => false

/-- The element a lane of TLD or TST names: tile, byte offset, high nibble; none where a check of R55 or R137 fails. -/
def tensorLane (ag : Agent) (t : Tensor) (sz b l : Nat) : Option (Nat × Nat × Bool) :=
  if tensorSizeOk t.ebits sz && decide (b + t.ndim ≤ 63) then
    t.locate ((List.range t.ndim).map (fun i => (ag.vGet (b + i) l).toNat))
  else none

/-- The lanes of TLD or TST; none where a lane fails a check at issue (R54, R55, R137). The address a trap would
report is no flat address (log 23). -/
def State.tensorLanes (s : State) (ag : Agent) (size : BitVec 3) (g : BitVec 2) (d a b : BitVec 6) :
    Option (List Lane) :=
  let act := lanesOf (ag.active g)
  let sz := size.toNat
  match descTid (ag.dGet a.toNat) with
  | none => if act.isEmpty then some [] else none
  | some tid =>
    match s.tensor ag.part tid with
    | none => if act.isEmpty then some [] else none
    | some t =>
      act.mapM fun l =>
        (tensorLane ag t sz b.toNat l).map fun (tile, off, hi) =>
          let nib := t.ebits == 0
          let x := ag.vData sz d.toNat l
          { l := l, va := Config.tensorAddr (s.free + l), key := .tile tid tile off, n := sizeBytes sz,
            dst := vDest sz d.toNat l,
            sx := if nib then 8 + (if hi then 2 else 0) + sz else sz,
            data := if nib && hi then x <<< 4 else x,
            msk := if nib then (if hi then 0xF0 else 0x0F) else 0xFF }

/-- Give a tensor instruction its lanes, or the address trap of a failing check. -/
def withTensor (s : State) (id : Nat) (ag : Agent) (ls : Option (List Lane)) (k : State → List Lane → State) : State :=
  let s' := { s with free := s.free + 96 }
  match ls with
  | some ls => k s' ls
  | none => addrTrap s' id ag (Config.tensorAddr s.free)

/-- TLD (R137). -/
def execTld (size : BitVec 3) (g : BitVec 2) (d a b : BitVec 6) (s : State) : Out :=
  issue waveOnly g s fun id ag =>
    withTensor s id ag (s.tensorLanes ag size g d a b) fun s ls =>
      issueReturning s id ag .read ls mkLoad (fun s ag => retire s id ag)

/-- TST (R137). -/
def execTst (size : BitVec 3) (g : BitVec 2) (d a b : BitVec 6) (s : State) : Out :=
  issue waveOnly g s fun id ag =>
    withTensor s id ag (s.tensorLanes ag size g d a b) fun s ls =>
      issuePosted s id ag .write none 0 none ls mkStore (fun s ag => retire s id ag)

/-! ### Acquire load and release store -/

/-- The size code of LDACQ and STREL: 0 a word, 1 a doubleword (R116). -/
def acqSize (sz : BitVec 2) : Nat := if sz = 1 then 5 else 4

/-- The address of LDACQ or STREL (R138). -/
def Agent.acqEa (ag : Agent) (a b : Src) : DWord := ag.srcP a + (ag.src b).signExtend 64

/-- A tagged scratchpad address (R127): bits 62:32 must be zero. -/
def tagOk (ea : DWord) : Bool := ea.extractLsb' 32 31 == 0
/-- The scratchpad part of a tagged address. -/
def spPart (ea : DWord) : Nat := (ea.extractLsb' 0 32).toNat

/-- The one lane of a scratchpad access at a tagged address. -/
def acqLane (ag : Agent) (ea : DWord) (sz d : Nat) : SpLane :=
  { l := 0, a := spPart ea, n := sizeBytes sz, dst := sDest sz d, sx := sz, data := ag.sData sz d }

/-- A tagged access is malformed for LDACQ, atomics and waits: a core has no scratchpad, and no window is reached
(R127, R138, R142). -/
def State.tagBad (s : State) (ag : Agent) (ea : DWord) (n : Nat) : Bool :=
  ag.profile == .host || !tagOk ea || s.spBad ag { l := 0, a := spPart ea, n := n } ||
    match spLoc ag.unit (spPart ea) n with
    | .own _ => false
    | _ => true

/-- LDACQ (R127, R138). -/
def execLdacq (scope : BitVec 3) (size : BitVec 2) (g : BitVec 2) (d : BitVec 6) (a b : Src) (s : State) : Out :=
  issueOnce anyProfile g s fun id ag =>
    let ea := ag.acqEa a b
    let sz := acqSize size
    if ea.getLsbD 63 then
      if s.tagBad ag ea (sizeBytes sz) then addrTrap s id ag ea
      else
        let x := acqLane ag ea sz d.toNat
        match s.spTrap ag false [x] with
        | some (c, v) => trapHere s id ag c v
        | none =>
          if ag.barred then waitFor s id ag .again
          else
            let s := s.acquire ag (ag.flatScope scope.toNat)
            retire s id (s.ownLoads ag [x])
    else
      let x : Lane := { l := 0, va := ea, key := .flat ea, n := sizeBytes sz, dst := sDest sz d.toNat, sx := sz }
      issueReturning s id ag .read [x]
        (fun x t tag => { x.access t .load (ag.flatScope scope.toNat) tag with acq := true })
        (fun s ag => retire s id ag)

/-- A release whose store stands in the own scratchpad or in a window: ready once the agent's earlier accesses are
performed at the scope (R225, R229). -/
def State.releaseNow (s : State) (id : Nat) (ag : Agent) (sc : Nat) : Bool :=
  !ag.barred && s.releaseReady id ag sc (ag.nextTag + 1)

/-- The release itself: at `sy` it begins the write-backs (R225). -/
def State.released (s : State) (id sc : Nat) : State := if sc = 5 then s.writeBackOf id else s

/-- STREL (R127, R138, R139). -/
def execStrel (scope : BitVec 3) (size : BitVec 2) (g : BitVec 2) (d : BitVec 6) (a b : Src) (s : State) : Out :=
  issueOnce anyProfile g s fun id ag =>
    let ea := ag.acqEa a b
    let sz := acqSize size
    let sc := ag.flatScope scope.toNat
    if ea.getLsbD 63 then
      let x := acqLane ag ea sz d.toNat
      if ag.profile = .host ∨ !tagOk ea then addrTrap s id ag ea
      else
        match s.spTrap ag true [x] with
        | some (c, v) => trapHere s id ag c (if c = 0x05 then ea else v)
        | none =>
          if !s.releaseNow id ag sc then waitFor s id ag .again
          else
            let s := s.released id sc
            let ag := (s.agent? id).getD ag
            match spLoc ag.unit x.a x.n with
            | .win w o =>
              match s.post id ag w o x.n [] (some (x.data, x.n, false)) none with
              | some s => retire s id ag
              | none => waitFor (s.askWin id ag.unit w) id ag .again
            | _ => retire (s.ownStores ag [x]) id ag
    else
      let x : Lane := { l := 0, va := ea, key := .flat ea, n := sizeBytes sz, data := ag.sData sz d.toNat }
      issuePosted s id ag .write none sc (some sc) [x]
        (fun x t tag => { x.access t .store sc tag with rel := true })
        (fun s ag => retire s id ag)

end Sys2Proof.Machine
end

