-- ==== Sys2Proof/Machine/Scalar.lean ====
section
/-! DEFINITION. The scalar instructions: majors 0x02, 0x03 and 0x04 (R149 to R158) and their compact forms (R110,
R159). Legal in every profile (R119). -/
namespace Sys2Proof.Machine

/-- A scalar function of two 32-bit sources, written once under the guard (R109, R149). -/
def scalar2 (g : BitVec 2) (d : BitVec 6) (a b : Src) (f : Word → Word → Word) (s : State) : Out :=
  regOp anyProfile g s fun ag => ag.sSet d.toNat (f (ag.src a) (ag.src b))

/-- A scalar function of one 32-bit source. -/
def scalar1 (g : BitVec 2) (d : BitVec 6) (a : Src) (f : Word → Word) (s : State) : Out :=
  regOp anyProfile g s fun ag => ag.sSet d.toNat (f (ag.src a))

/-- A division: its result, and `rstat.dz` for a zero divisor (R151). -/
def scalarDiv (g : BitVec 2) (d : BitVec 6) (a b : Src) (f : Word → Word → Word) (s : State) : Out :=
  regOp anyProfile g s fun ag => (ag.sSet d.toNat (f (ag.src a) (ag.src b))).orFlags (divFlag (ag.src b))

/-- A scalar function that also reads its destination (R153, R154). -/
def scalar3 (g : BitVec 2) (d : BitVec 6) (a b : Src) (f : Word → Word → Word → Word) (s : State) : Out :=
  regOp anyProfile g s fun ag => ag.sSet d.toNat (f (ag.sGet d.toNat) (ag.src a) (ag.src b))

/-- A comparison: 1 or 0 (R155). -/
def scalarCmp (c : Cond) (g : BitVec 2) (d : BitVec 6) (a b : Src) (s : State) : Out :=
  scalar2 g d a b (fun x y => boolW (c.holds x y)) s

/-- A pair function of two pairs (R157). -/
def pair2 (g : BitVec 2) (d : BitVec 6) (a b : Src) (f : DWord → DWord → DWord) (s : State) : Out :=
  regOp anyProfile g s fun ag => ag.pSet d.toNat (f (ag.srcP a) (ag.srcP b))

/-- A pair function of a pair and a 32-bit scalar (R157, R158). -/
def pairW (g : BitVec 2) (d : BitVec 6) (a b : Src) (f : DWord → Word → DWord) (s : State) : Out :=
  regOp anyProfile g s fun ag => ag.pSet d.toNat (f (ag.srcP a) (ag.src b))

/-! ### Major 0x02 -/

/-- ADD (R150). -/
def execAdd (g : BitVec 2) (d : BitVec 6) (a b : Src) (s : State) : Out :=
  scalar2 g d a b (· + ·) s
/-- SUB (R150). -/
def execSub (g : BitVec 2) (d : BitVec 6) (a b : Src) (s : State) : Out :=
  scalar2 g d a b (· - ·) s
/-- MUL (R150). -/
def execMul (g : BitVec 2) (d : BitVec 6) (a b : Src) (s : State) : Out :=
  scalar2 g d a b (· * ·) s
/-- MULH (R150). -/
def execMulh (g : BitVec 2) (d : BitVec 6) (a b : Src) (s : State) : Out :=
  scalar2 g d a b mulhS s
/-- MULHU (R150). -/
def execMulhu (g : BitVec 2) (d : BitVec 6) (a b : Src) (s : State) : Out :=
  scalar2 g d a b mulhU s
/-- DIV (R151). -/
def execDiv (g : BitVec 2) (d : BitVec 6) (a b : Src) (s : State) : Out :=
  scalarDiv g d a b divS s
/-- DIVU (R151). -/
def execDivu (g : BitVec 2) (d : BitVec 6) (a b : Src) (s : State) : Out :=
  scalarDiv g d a b divU s
/-- REM (R151). -/
def execRem (g : BitVec 2) (d : BitVec 6) (a b : Src) (s : State) : Out :=
  scalarDiv g d a b remS s
/-- REMU (R151). -/
def execRemu (g : BitVec 2) (d : BitVec 6) (a b : Src) (s : State) : Out :=
  scalarDiv g d a b remU s
/-- AND (R150). -/
def execAnd (g : BitVec 2) (d : BitVec 6) (a b : Src) (s : State) : Out :=
  scalar2 g d a b (· &&& ·) s
/-- OR (R150). -/
def execOr (g : BitVec 2) (d : BitVec 6) (a b : Src) (s : State) : Out :=
  scalar2 g d a b (· ||| ·) s
/-- XOR (R150). -/
def execXor (g : BitVec 2) (d : BitVec 6) (a b : Src) (s : State) : Out :=
  scalar2 g d a b (· ^^^ ·) s
/-- ANDN (R150). -/
def execAndn (g : BitVec 2) (d : BitVec 6) (a b : Src) (s : State) : Out :=
  scalar2 g d a b (fun x y => x &&& ~~~y) s
/-- SHL (R152). -/
def execShl (g : BitVec 2) (d : BitVec 6) (a b : Src) (s : State) : Out :=
  scalar2 g d a b (fun x y => shlN x y.toNat) s
/-- SHR (R152). -/
def execShr (g : BitVec 2) (d : BitVec 6) (a b : Src) (s : State) : Out :=
  scalar2 g d a b (fun x y => shrN x y.toNat) s
/-- SAR (R152). -/
def execSar (g : BitVec 2) (d : BitVec 6) (a b : Src) (s : State) : Out :=
  scalar2 g d a b (fun x y => sarN x y.toNat) s
/-- ROL (R152). -/
def execRol (g : BitVec 2) (d : BitVec 6) (a b : Src) (s : State) : Out :=
  scalar2 g d a b rolW s
/-- MIN (R150). -/
def execMin (g : BitVec 2) (d : BitVec 6) (a b : Src) (s : State) : Out :=
  scalar2 g d a b minS s
/-- MAX (R150). -/
def execMax (g : BitVec 2) (d : BitVec 6) (a b : Src) (s : State) : Out :=
  scalar2 g d a b maxS s
/-- MINU (R150). -/
def execMinu (g : BitVec 2) (d : BitVec 6) (a b : Src) (s : State) : Out :=
  scalar2 g d a b minU s
/-- MAXU (R150). -/
def execMaxu (g : BitVec 2) (d : BitVec 6) (a b : Src) (s : State) : Out :=
  scalar2 g d a b maxU s
/-- CLZ (R150). -/
def execClz (g : BitVec 2) (d : BitVec 6) (a : Src) (s : State) : Out :=
  scalar1 g d a clzW s
/-- POPC (R150). -/
def execPopc (g : BitVec 2) (d : BitVec 6) (a : Src) (s : State) : Out :=
  scalar1 g d a popW s
/-- BFX (R154). -/
def execBfx (g : BitVec 2) (d : BitVec 6) (a b : Src) (s : State) : Out :=
  scalar2 g d a b bfxW s
/-- BFI (R154). -/
def execBfi (g : BitVec 2) (d : BitVec 6) (a b : Src) (s : State) : Out :=
  scalar3 g d a b bfiW s
/-- SEL (R153). -/
def execSel (g : BitVec 2) (d : BitVec 6) (a b : Src) (s : State) : Out :=
  scalar3 g d a b (fun c x y => if c ≠ 0 then x else y) s
/-- MOV (R150). -/
def execMov (g : BitVec 2) (d : BitVec 6) (a : Src) (s : State) : Out :=
  scalar1 g d a id s

/-! ### Major 0x03 -/

/-- CMP_EQ (R155). -/
def execCmpEq (g : BitVec 2) (d : BitVec 6) (a b : Src) (s : State) : Out :=
  scalarCmp .eq g d a b s
/-- CMP_NE (R155). -/
def execCmpNe (g : BitVec 2) (d : BitVec 6) (a b : Src) (s : State) : Out :=
  scalarCmp .ne g d a b s
/-- CMP_LT (R155). -/
def execCmpLt (g : BitVec 2) (d : BitVec 6) (a b : Src) (s : State) : Out :=
  scalarCmp .lt g d a b s
/-- CMP_LTU (R155). -/
def execCmpLtu (g : BitVec 2) (d : BitVec 6) (a b : Src) (s : State) : Out :=
  scalarCmp .ltu g d a b s
/-- CMP_LE (R155). -/
def execCmpLe (g : BitVec 2) (d : BitVec 6) (a b : Src) (s : State) : Out :=
  scalarCmp .le g d a b s
/-- CMP_LEU (R155). -/
def execCmpLeu (g : BitVec 2) (d : BitVec 6) (a b : Src) (s : State) : Out :=
  scalarCmp .leu g d a b s
/-- CMP_GT (R155). -/
def execCmpGt (g : BitVec 2) (d : BitVec 6) (a b : Src) (s : State) : Out :=
  scalarCmp .gt g d a b s
/-- CMP_GTU (R155). -/
def execCmpGtu (g : BitVec 2) (d : BitVec 6) (a b : Src) (s : State) : Out :=
  scalarCmp .gtu g d a b s
/-- CMP_GE (R155). -/
def execCmpGe (g : BitVec 2) (d : BitVec 6) (a b : Src) (s : State) : Out :=
  scalarCmp .ge g d a b s
/-- CMP_GEU (R155). -/
def execCmpGeu (g : BitVec 2) (d : BitVec 6) (a b : Src) (s : State) : Out :=
  scalarCmp .geu g d a b s

/-! ### Major 0x04 -/

/-- ADD64 (R157). -/
def execAdd64 (g : BitVec 2) (d : BitVec 6) (a b : Src) (s : State) : Out :=
  pair2 g d a b (· + ·) s
/-- SUB64 (R157). -/
def execSub64 (g : BitVec 2) (d : BitVec 6) (a b : Src) (s : State) : Out :=
  pair2 g d a b (· - ·) s
/-- MUL64 (R157). -/
def execMul64 (g : BitVec 2) (d : BitVec 6) (a b : Src) (s : State) : Out :=
  pair2 g d a b (· * ·) s
/-- SHL64 (R157). -/
def execShl64 (g : BitVec 2) (d : BitVec 6) (a b : Src) (s : State) : Out :=
  pairW g d a b (fun x y => shlN x y.toNat) s
/-- SHR64 (R157). -/
def execShr64 (g : BitVec 2) (d : BitVec 6) (a b : Src) (s : State) : Out :=
  pairW g d a b (fun x y => shrN x y.toNat) s
/-- SAR64 (R157). -/
def execSar64 (g : BitVec 2) (d : BitVec 6) (a b : Src) (s : State) : Out :=
  pairW g d a b (fun x y => sarN x y.toNat) s
/-- ADDA (R158). -/
def execAdda (g : BitVec 2) (d : BitVec 6) (a b : Src) (s : State) : Out :=
  pairW g d a b (fun x y => x + addaOffset y) s

/-! ### Compact forms -/

/-- A compact register field as a register of the 32-bit form (R110). -/
def cReg (r : BitVec 5) : BitVec 6 := r.setWidth 6
/-- A compact immediate, sign-extended (R110). -/
def cSimm (i : BitVec 5) : Src := .lit (i.signExtend 32)
/-- A compact immediate, zero-extended (R110). -/
def cUimm (i : BitVec 5) : Src := .lit (i.setWidth 32)

/-- MOV_COMPACT (R110, R159). -/
def execMovCompact (a b : BitVec 5) (s : State) : Out :=
  scalar1 0 (cReg a) (.reg (cReg b)) id s
/-- ADD_COMPACT (R110, R159). -/
def execAddCompact (a b : BitVec 5) (s : State) : Out :=
  scalar2 0 (cReg a) (.reg (cReg a)) (.reg (cReg b)) (· + ·) s
/-- SUB_COMPACT (R110, R159). -/
def execSubCompact (a b : BitVec 5) (s : State) : Out :=
  scalar2 0 (cReg a) (.reg (cReg a)) (.reg (cReg b)) (· - ·) s
/-- AND_COMPACT (R110, R159). -/
def execAndCompact (a b : BitVec 5) (s : State) : Out :=
  scalar2 0 (cReg a) (.reg (cReg a)) (.reg (cReg b)) (· &&& ·) s
/-- OR_COMPACT (R110, R159). -/
def execOrCompact (a b : BitVec 5) (s : State) : Out :=
  scalar2 0 (cReg a) (.reg (cReg a)) (.reg (cReg b)) (· ||| ·) s
/-- XOR_COMPACT (R110, R159). -/
def execXorCompact (a b : BitVec 5) (s : State) : Out :=
  scalar2 0 (cReg a) (.reg (cReg a)) (.reg (cReg b)) (· ^^^ ·) s
/-- ADD_IMM_COMPACT (R110, R159). -/
def execAddImmCompact (a b : BitVec 5) (s : State) : Out :=
  scalar2 0 (cReg a) (.reg (cReg a)) (cSimm b) (· + ·) s
/-- SHL_COMPACT (R110, R159). -/
def execShlCompact (a b : BitVec 5) (s : State) : Out :=
  scalar2 0 (cReg a) (.reg (cReg a)) (cUimm b) (fun x y => shlN x y.toNat) s
/-- SHR_COMPACT (R110, R159). -/
def execShrCompact (a b : BitVec 5) (s : State) : Out :=
  scalar2 0 (cReg a) (.reg (cReg a)) (cUimm b) (fun x y => shrN x y.toNat) s
/-- SAR_COMPACT (R110, R159). -/
def execSarCompact (a b : BitVec 5) (s : State) : Out :=
  scalar2 0 (cReg a) (.reg (cReg a)) (cUimm b) (fun x y => sarN x y.toNat) s
/-- MOV_IMM_COMPACT (R110, R159). -/
def execMovImmCompact (a b : BitVec 5) (s : State) : Out :=
  scalar1 0 (cReg a) (cSimm b) id s

end Sys2Proof.Machine
end

