-- ==== Sys2Proof/Machine/VectorInt.lean ====
section
/-! DEFINITION. The vector integer, predicate, packing and lane-network instructions: majors 0x08 to 0x0B, 0x10, 0x12
(R160 to R172) and their compact forms (R173). Wave profile only (R119). Every source is read in every lane before a
destination is written (R10, R160). -/
namespace Sys2Proof.Machine

/-- A lane function of two 32-bit vector sources (R162). -/
def vector2 (g : BitVec 2) (d : BitVec 6) (a b : Src) (f : Word → Word → Word) (s : State) : Out :=
  vecOp g s fun act ag => ag.vSet d.toNat act (fun l => f (ag.vsrc a l) (ag.vsrc b l))

/-- A lane function of one 32-bit vector source (R162). -/
def vector1 (g : BitVec 2) (d : BitVec 6) (a : Src) (f : Word → Word) (s : State) : Out :=
  vecOp g s fun act ag => ag.vSet d.toNat act (fun l => f (ag.vsrc a l))

/-- A lane function that also reads its destination (R164). -/
def vector3 (g : BitVec 2) (d : BitVec 6) (a b : Src) (f : Word → Word → Word → Word) (s : State) : Out :=
  vecOp g s fun act ag => ag.vSet d.toNat act (fun l => f (ag.vGet d.toNat l) (ag.vsrc a l) (ag.vsrc b l))

/-- A comparison into a predicate, in the active lanes (R165). -/
def vectorCmp (c : Cond) (g : BitVec 2) (d : BitVec 6) (a b : Src) (s : State) : Out :=
  vecOp g s fun act ag => ag.kSet d.toNat act (maskOf (fun l => c.holds (ag.vsrc a l) (ag.vsrc b l)))

/-- A predicate operation on all 96 bits, once under the guard (R166). -/
def predOp (g : BitVec 2) (d : BitVec 6) (f : Agent → Mask) (s : State) : Out :=
  regOp waveOnly g s fun ag => ag.kSet d.toNat (BitVec.allOnes 96) (f ag)

/-- Word `b` of a mask (R97, R167). -/
def maskWord (m : Mask) (b : Nat) : Word := m.extractLsb' (32 * b) 32

/-- Write a mask to three consecutive scalars (R167, R299). -/
def Agent.sSet3 (ag : Agent) (d : Nat) (m : Mask) : Agent :=
  ((ag.sSet d (maskWord m 0)).sSet (d + 1) (maskWord m 1)).sSet (d + 2) (maskWord m 2)

/-- Three consecutive scalars as a mask (R167). -/
def Agent.sGet3 (ag : Agent) (a : Nat) : Mask := ag.sGet (a + 2) ++ ag.sGet (a + 1) ++ ag.sGet a

/-! ### Major 0x08 -/

/-- VADD (R162). -/
def execVadd (g : BitVec 2) (d : BitVec 6) (a b : Src) (s : State) : Out :=
  vector2 g d a b (· + ·) s
/-- VSUB (R162). -/
def execVsub (g : BitVec 2) (d : BitVec 6) (a b : Src) (s : State) : Out :=
  vector2 g d a b (· - ·) s
/-- VMUL (R162). -/
def execVmul (g : BitVec 2) (d : BitVec 6) (a b : Src) (s : State) : Out :=
  vector2 g d a b (· * ·) s
/-- VMULH (R162). -/
def execVmulh (g : BitVec 2) (d : BitVec 6) (a b : Src) (s : State) : Out :=
  vector2 g d a b mulhS s
/-- VAND (R162). -/
def execVand (g : BitVec 2) (d : BitVec 6) (a b : Src) (s : State) : Out :=
  vector2 g d a b (· &&& ·) s
/-- VOR (R162). -/
def execVor (g : BitVec 2) (d : BitVec 6) (a b : Src) (s : State) : Out :=
  vector2 g d a b (· ||| ·) s
/-- VXOR (R162). -/
def execVxor (g : BitVec 2) (d : BitVec 6) (a b : Src) (s : State) : Out :=
  vector2 g d a b (· ^^^ ·) s
/-- VSHL (R162). -/
def execVshl (g : BitVec 2) (d : BitVec 6) (a b : Src) (s : State) : Out :=
  vector2 g d a b (fun x y => shlN x y.toNat) s
/-- VSHR (R162). -/
def execVshr (g : BitVec 2) (d : BitVec 6) (a b : Src) (s : State) : Out :=
  vector2 g d a b (fun x y => shrN x y.toNat) s
/-- VSAR (R162). -/
def execVsar (g : BitVec 2) (d : BitVec 6) (a b : Src) (s : State) : Out :=
  vector2 g d a b (fun x y => sarN x y.toNat) s
/-- VMIN (R162). -/
def execVmin (g : BitVec 2) (d : BitVec 6) (a b : Src) (s : State) : Out :=
  vector2 g d a b minS s
/-- VMAX (R162). -/
def execVmax (g : BitVec 2) (d : BitVec 6) (a b : Src) (s : State) : Out :=
  vector2 g d a b maxS s
/-- VMINU (R162). -/
def execVminu (g : BitVec 2) (d : BitVec 6) (a b : Src) (s : State) : Out :=
  vector2 g d a b minU s
/-- VMAXU (R162). -/
def execVmaxu (g : BitVec 2) (d : BitVec 6) (a b : Src) (s : State) : Out :=
  vector2 g d a b maxU s
/-- VABS (R162). -/
def execVabs (g : BitVec 2) (d : BitVec 6) (a : Src) (s : State) : Out :=
  vector1 g d a absW s
/-- VNEG (R162). -/
def execVneg (g : BitVec 2) (d : BitVec 6) (a : Src) (s : State) : Out :=
  vector1 g d a (fun x => -x) s
/-- VCLZ (R162). -/
def execVclz (g : BitVec 2) (d : BitVec 6) (a : Src) (s : State) : Out :=
  vector1 g d a clzW s
/-- VPOPC (R162). -/
def execVpopc (g : BitVec 2) (d : BitVec 6) (a : Src) (s : State) : Out :=
  vector1 g d a popW s
/-- VADDS (R162). -/
def execVadds (g : BitVec 2) (d : BitVec 6) (a b : Src) (s : State) : Out :=
  vector2 g d a b addSat s
/-- VSUBS (R162). -/
def execVsubs (g : BitVec 2) (d : BitVec 6) (a b : Src) (s : State) : Out :=
  vector2 g d a b subSat s
/-- VMOV (R162). -/
def execVmov (g : BitVec 2) (d : BitVec 6) (a : Src) (s : State) : Out :=
  vector1 g d a id s
/-- VSEL (R163): the guard selects per lane and every beat-active lane is written. -/
def execVsel (g : BitVec 2) (d : BitVec 6) (a b : Src) (s : State) : Out :=
  issue waveOnly g s fun id ag =>
    retire s id (ag.vSet d.toNat ag.beat
      (fun l => if (ag.guardMask g).getLsbD l then ag.vsrc a l else ag.vsrc b l))

/-! ### Major 0x09 -/

/-- VMAD (R164). -/
def execVmad (g : BitVec 2) (d : BitVec 6) (a b : Src) (s : State) : Out :=
  vector3 g d a b (fun c x y => c + x * y) s
/-- VMADH (R164). -/
def execVmadh (g : BitVec 2) (d : BitVec 6) (a b : Src) (s : State) : Out :=
  vector3 g d a b (fun c x y => c + mulhS x y) s
/-- VDOT4 (R164). -/
def execVdot4 (g : BitVec 2) (d : BitVec 6) (a b : Src) (s : State) : Out :=
  vector3 g d a b (fun c x y => c + BitVec.ofInt 32 (dot4 x y)) s
/-- VDOT4U (R164). -/
def execVdot4u (g : BitVec 2) (d : BitVec 6) (a b : Src) (s : State) : Out :=
  vector3 g d a b (fun c x y => c + BitVec.ofNat 32 (dot4u x y)) s

/-! ### Major 0x0A -/

/-- VCMP_EQ (R165). -/
def execVcmpEq (g : BitVec 2) (d : BitVec 6) (a b : Src) (s : State) : Out :=
  vectorCmp .eq g d a b s
/-- VCMP_NE (R165). -/
def execVcmpNe (g : BitVec 2) (d : BitVec 6) (a b : Src) (s : State) : Out :=
  vectorCmp .ne g d a b s
/-- VCMP_LT (R165). -/
def execVcmpLt (g : BitVec 2) (d : BitVec 6) (a b : Src) (s : State) : Out :=
  vectorCmp .lt g d a b s
/-- VCMP_LTU (R165). -/
def execVcmpLtu (g : BitVec 2) (d : BitVec 6) (a b : Src) (s : State) : Out :=
  vectorCmp .ltu g d a b s
/-- VCMP_LE (R165). -/
def execVcmpLe (g : BitVec 2) (d : BitVec 6) (a b : Src) (s : State) : Out :=
  vectorCmp .le g d a b s
/-- VCMP_LEU (R165). -/
def execVcmpLeu (g : BitVec 2) (d : BitVec 6) (a b : Src) (s : State) : Out :=
  vectorCmp .leu g d a b s
/-- VCMP_GT (R165). -/
def execVcmpGt (g : BitVec 2) (d : BitVec 6) (a b : Src) (s : State) : Out :=
  vectorCmp .gt g d a b s
/-- VCMP_GTU (R165). -/
def execVcmpGtu (g : BitVec 2) (d : BitVec 6) (a b : Src) (s : State) : Out :=
  vectorCmp .gtu g d a b s
/-- VCMP_GE (R165). -/
def execVcmpGe (g : BitVec 2) (d : BitVec 6) (a b : Src) (s : State) : Out :=
  vectorCmp .ge g d a b s
/-- VCMP_GEU (R165). -/
def execVcmpGeu (g : BitVec 2) (d : BitVec 6) (a b : Src) (s : State) : Out :=
  vectorCmp .geu g d a b s

/-! ### Major 0x0B -/

/-- KAND (R166). -/
def execKand (g : BitVec 2) (d a b : BitVec 6) (s : State) : Out :=
  predOp g d (fun ag => ag.kGet a.toNat &&& ag.kGet b.toNat) s
/-- KOR (R166). -/
def execKor (g : BitVec 2) (d a b : BitVec 6) (s : State) : Out :=
  predOp g d (fun ag => ag.kGet a.toNat ||| ag.kGet b.toNat) s
/-- KXOR (R166). -/
def execKxor (g : BitVec 2) (d a b : BitVec 6) (s : State) : Out :=
  predOp g d (fun ag => ag.kGet a.toNat ^^^ ag.kGet b.toNat) s
/-- KNOT (R166). -/
def execKnot (g : BitVec 2) (d a : BitVec 6) (s : State) : Out :=
  predOp g d (fun ag => ~~~(ag.kGet a.toNat)) s
/-- KMOV (R166). -/
def execKmov (g : BitVec 2) (d a : BitVec 6) (s : State) : Out :=
  predOp g d (fun ag => ag.kGet a.toNat) s
/-- KFROMS (R167). -/
def execKfroms (g : BitVec 2) (d a : BitVec 6) (s : State) : Out :=
  predOp g d (fun ag => ag.sGet3 a.toNat) s
/-- KTOS (R167). -/
def execKtos (g : BitVec 2) (d a : BitVec 6) (s : State) : Out :=
  regOp waveOnly g s fun ag => ag.sSet3 d.toNat (ag.kGet a.toNat)

/-! ### Major 0x10 -/

/-- PK4 (R168). -/
def execPk4 (g : BitVec 2) (d : BitVec 6) (a b : Src) (s : State) : Out :=
  vector2 g d a b pk4 s
/-- UPK4 (R168). -/
def execUpk4 (g : BitVec 2) (d : BitVec 6) (a b : Src) (s : State) : Out :=
  vector2 g d a b upk4 s
/-- PK6 (R169): the 16 elements of four registers into three words of a lane. -/
def execPk6 (g : BitVec 2) (d a : BitVec 6) (s : State) : Out :=
  vecOp g s fun act ag =>
    let st := fun l => pk6 (fun w => ag.vGet (a.toNat + w) l)
    (List.range 3).foldl
      (fun t w => t.vSet (d.toNat + w) act (fun l => BitVec.ofNat 32 (st l / 2 ^ (32 * w)))) ag
/-- UPK6 (R169): three words of a lane into the 16 elements of four registers. -/
def execUpk6 (g : BitVec 2) (d a : BitVec 6) (s : State) : Out :=
  vecOp g s fun act ag =>
    let st := fun l => (ag.vGet (a.toNat + 2) l ++ ag.vGet (a.toNat + 1) l ++ ag.vGet a.toNat l).toNat
    (List.range 4).foldl (fun t w => t.vSet (d.toNat + w) act (fun l => upk6 (st l) w)) ag
/-- PKTS (R170). -/
def execPkts (g : BitVec 2) (d : BitVec 6) (a b : Src) (s : State) : Out :=
  vector2 g d a b pkts s
/-- UPKTS (R170). -/
def execUpkts (g : BitVec 2) (d : BitVec 6) (a b : Src) (s : State) : Out :=
  vector2 g d a b upkts s

/-! ### Major 0x12 -/

/-- The lane network (R172): lane l takes source lane `m l`, or zero. -/
def laneNet (g : BitVec 2) (d : BitVec 6) (a : Src) (m : Agent → Nat → Option Nat) (s : State) : Out :=
  vecOp g s fun act ag =>
    ag.vSet d.toNat act (fun l =>
      match m ag l with
      | some n => ag.vsrc a n
      | none => 0)
/-- NBL (R172): the left neighbour; mode 0 zero-fills at lane 0, mode 1 wraps. -/
def execNbl (g : BitVec 2) (d : BitVec 6) (a : Src) (b : BitVec 6) (s : State) : Out :=
  laneNet g d a (fun _ l => if l = 0 then (if b = 0 then none else some 95) else some (l - 1)) s
/-- NBR (R172): the right neighbour. -/
def execNbr (g : BitVec 2) (d : BitVec 6) (a : Src) (b : BitVec 6) (s : State) : Out :=
  laneNet g d a (fun _ l => if l = 95 then (if b = 0 then none else some 0) else some (l + 1)) s
/-- NROT (R172): the lane at a distance, modulo 96. -/
def execNrot (g : BitVec 2) (d : BitVec 6) (a b : Src) (s : State) : Out :=
  laneNet g d a (fun ag l => some ((l + (ag.vsrc b l).toNat) % 96)) s

/-! ### Compact forms -/

/-- VMOV_COMPACT (R110, R173). -/
def execVmovCompact (a b : BitVec 5) (s : State) : Out :=
  vector1 0 (cReg a) (.reg (cReg b)) id s
/-- VADD_COMPACT (R110, R173). -/
def execVaddCompact (a b : BitVec 5) (s : State) : Out :=
  vector2 0 (cReg a) (.reg (cReg a)) (.reg (cReg b)) (· + ·) s
/-- KMOV_COMPACT (R110, R173). -/
def execKmovCompact (a b : BitVec 5) (s : State) : Out :=
  predOp 0 (cReg a) (fun ag => ag.kGet b.toNat) s

end Sys2Proof.Machine
end

