-- ==== Sys2Proof/Machine/Control.lean ====
section
/-! DEFINITION. Runs and repetition (R105, R111 to R114), control transfer and divergence (R287 to R297), votes (R298,
R299) and REGROUP (R300 to R302). -/
namespace Sys2Proof.Machine

/-! ### Run headers -/

/-- The transfer-class instruction that begins a halfword sequence: XFER, XFERN, CALL, RET, SPLIT, JOIN, ERET, compact
forms included (R112). DEDUCED (log 124): a word of such a function with an illegal field counts too. -/
def isTransfer (hs : List Half) : Bool :=
  match hs with
  | [] => false
  | h :: t =>
    if h.getLsbD 0 then
      let f := Fld.unpack (wordOf h (nth 0 t 0))
      (f.maj == 5 && decide (1 ≤ f.fn.toNat) && decide (f.fn.toNat ≤ 6)) || (f.maj == 7 && f.fn == 1)
    else
      let op := (h.extractLsb' 1 5).toNat
      op == 18 || op == 19

/-- A 32-bit word of a major begins the sequence. -/
def isMajor (m : BitVec 6) (hs : List Half) : Bool :=
  match hs with
  | [] => false
  | h :: _ => h.getLsbD 0 && h.extractLsb' 1 6 == m

/-- The positions of a run's instructions in its code, and the halfwords they take (R105, R111). -/
def runLayout : Nat → List Half → Nat → List Nat → List Nat × Nat
  | 0, _, off, acc => (acc.reverse, off)
  | n + 1, hs, off, acc => runLayout n (hs.drop (ilen hs)) (off + ilen hs) (off :: acc)

/-- A run is malformed: a BLK among its instructions, more than one transfer-class instruction, or REP as the last
(R112). -/
def runBad (code : List Half) (ps : List Nat) : Bool :=
  ps.any (fun p => isMajor 0 (code.drop p)) ||
  decide (1 < (ps.filter (fun p => isTransfer (code.drop p))).length) ||
  (match ps.getLast? with
   | some p => isMajor 1 (code.drop p)
   | none => true)

/-- The halfwords fetched behind a run header: the longest run there can be (R111): 24 instructions of 6 halfwords. -/
def fetchHalves : Nat := 144

/-- The fetch unit of an agent: its CU or quadrant, or a core of its own. -/
def Agent.codeUnit (ag : Agent) : Nat := ag.unit + (if ag.profile = .host then ag.cu.toNat else 0)

/-- A halfword of code that a unit fetches: its physical address (that of a line of another package counts from 2^63),
the slot and kind of its page, and whether it comes from the package store now. -/
structure Fetched where
  pa    : Nat
  half  : Half
  x     : Option Xlat := none
  deriving DecidableEq, Repr

/-- The place of a halfword homed on another package among the fetched code. -/
def farCode (va : DWord) : Nat := 2 ^ 63 + va.toNat

/-- One halfword of code as a unit fetches it (R105): where its own store has arrived since its last IFENCE, what stood
there before (R352); else what it has fetched before and kept; else the package store. None where the page has no fetch
permission, the home answers with an error, or the line is homed on another package and has not come (R242). -/
def State.fetchHalf (s : State) (ag : Agent) (va : DWord) : Option Fetched :=
  let kept := fun (pa : Nat) => (Tab.find? (Tab.get [] s.ms.own ag.codeUnit) pa).orElse
    fun _ => Tab.find? (Tab.get [] s.ms.code ag.codeUnit) pa
  match s.target ag .fetch (.flat va) with
  | .mem pa x =>
    if s.reachable ag.part (pteSlot x.pte) pa then
      match kept pa with
      | some h => some { pa := pa, half := h }
      | none => some { pa := pa, half := BitVec.ofNat 16 (leVal (s.pkSeeN ag.part (pteSlot x.pte) pa 2)), x := some x }
    else none
  | .remote _ => ((kept (farCode va)).orElse fun _ => ag.farHalf va).map (fun h => { pa := farCode va, half := h })
  | _ => none

/-- The code behind a header, as far as it can be read, up to a number of halfwords. -/
def State.fetchCode (s : State) (ag : Agent) (va : DWord) : Nat → List Fetched
  | 0 => []
  | n + 1 =>
    match s.fetchHalf ag va with
    | some h => h :: State.fetchCode s ag (va + 2) n
    | none => []

/-- The unit keeps the code it has fetched (R105); what came from the package store has been read there, once a line
(R42, R63). -/
def State.keepCode (s : State) (id : Nat) (ag : Agent) (hs : List Fetched) : State :=
  let u := ag.codeUnit
  let fresh := hs.filterMap (fun h => h.x.map (fun x => (h.pa, x)))
  let once := fresh.zipIdx.filter (fun p => !((fresh.take p.2).any (fun q => q.1 / 64 == p.1.1 / 64)))
  let s := once.foldl (fun t p => t.noteRead id ag p.1.2 p.1.1 2) s
  { s with ms := { s.ms with
      code := Tab.put s.ms.code u (hs.foldl (fun t h => Tab.put t h.pa h.half) (Tab.get [] s.ms.code u)) } }

/-- Code at an address cannot be fetched for the run at a header (R48, R60, R105, R130, R242): a hold, a wait for a line of
another package, or the address trap. -/
def State.fetchStop (s : State) (id : Nat) (ag : Agent) (hdr va : DWord) : State :=
  match s.target ag .fetch (.flat va) with
  | .absent => s.hold id ag { l := 0, va := va, key := .flat va, n := 2 } .fetch
  | .walking => waitFor s id ag .again
  | .remote _ => s.askFar id ag va
  | .mem pa x => takeTrap (s.violationOf ag (pteSlot x.pte) pa) id ag 0x05 hdr va
  | .protect => takeTrap s id ag 0x05 hdr va

/-- BLK (R111, R112): the run's code is fetched once, checked, and its first pass begins. A page of the code that
cannot be fetched raises the address trap at the header. -/
def execBlk (neg : BitVec 3) (rep cnt : BitVec 6) (s : State) : Out :=
  onMover s fun id ag =>
    let hdr := ag.run.pc
    let word : DWord := (Fld.pack { fn := 0, b := 0#3 ++ neg, a := rep, d := cnt, g := 0, maj := 0 }).zeroExtend 64
    let bad := takeTrap s id ag 0x02 hdr word
    if ag.run.inRun then trapWord s id ag 0x01
    else if cnt = 0 ∨ 24 < cnt.toNat then bad
    else
      let got := s.fetchCode ag (hdr + 4) fetchHalves
      let raw := got.map (fun h => h.half)
      let (ps, len) := runLayout cnt.toNat raw 0 []
      if raw.length < len then
        s.fetchStop id ag hdr (hdr + 4 + BitVec.ofNat 64 (2 * raw.length))
      else if runBad (raw.take len) ps then bad
      else
        (s.keepCode id ag (got.take len)).updAgent id fun ag =>
          { ag with
            wait := .none,
            run := { inRun := true, pc := hdr, code := raw.take len, neg := neg, cnt := cnt.toNat, left := rep.toNat + 1,
                     resumed := ag.run.resumed } }

/-! ### Repetition -/

/-- The majors REP may stand before (R114). -/
def repMajor (m : Nat) : Bool := (decide (2 ≤ m) && decide (m ≤ 4)) || (decide (8 ≤ m) && decide (m ≤ 18)) ||
  (decide (24 ≤ m) && decide (m ≤ 31))

/-- A field of the stepped instruction in an iteration; none where it leaves 0 to 62, or steps from code 63 (R113). -/
def stepField (c : BitVec 6) (step : BitVec 4) (i : Nat) : Option (BitVec 6) :=
  if step = 0 then some c
  else
    let v : Int := (c.toNat : Int) + (i : Int) * step.toInt
    if c = 63 ∨ v < 0 ∨ 62 < v then none else some (BitVec.ofNat 6 v.toNat)

/-- The word of the stepped instruction in an iteration (R113). -/
def stepWord (w : Word) (p : RepSt) (i : Nat) : Option Word :=
  let f := Fld.unpack w
  match stepField f.d p.stepd i, stepField f.a p.stepa i, stepField f.b p.stepb i with
  | some d, some a, some b => some (Fld.pack { f with d := d, a := a, b := b })
  | _, _, _ => none

/-- The instruction of a word of a repeatable major decodes, whatever its literal words hold. -/
def wordOk (w : Word) : Bool :=
  match dec32 w 0 0 with
  | .ok _ => true
  | .error _ => false

/-- The field is a register pair: code 1 is illegal in it and code 2 is legal (R107). -/
def pairField (mk : BitVec 6 → Word) : Bool := !wordOk (mk 1) && wordOk (mk 2)

/-- The checks REP makes before any iteration (R113, R114). DEDUCED (log 125): an illegal word of a repeatable major traps at REP, as
one of a major that may not be repeated. -/
def repOk (w : Word) (p : RepSt) : Bool :=
  let f := Fld.unpack w
  repMajor f.maj.toNat &&
  (List.range p.cnt).all (fun i => match stepWord w p i with
    | some w => wordOk w
    | none => false) &&
  !(p.stepd.getLsbD 0 && pairField (fun c => Fld.pack { f with d := c })) &&
  !(p.stepa.getLsbD 0 && pairField (fun c => Fld.pack { f with a := c })) &&
  !(p.stepb.getLsbD 0 && pairField (fun c => Fld.pack { f with b := c }))

/-- REP (R113, R114): it checks the instruction after it and begins its iterations, at `repst.idx` when the agent
resumes at an interrupted REP. -/
def execRep (stepb stepa stepd : BitVec 4) (cnt : BitVec 6) (s : State) : Out :=
  onMover s fun id ag =>
    let r := ag.run
    let h := nth 0 r.code (r.off + 2)
    let w := wordOf h (nth 0 r.code (r.off + 3))
    let n := cnt.toNat + 1
    let p : RepSt := { cnt := n, i := 0, stepd := stepd, stepa := stepa, stepb := stepb }
    if !r.inRun || !h.getLsbD 0 || !repOk w p then trapWord s id ag 0x01
    else
      let first := if r.resumed && ag.repst.getLsbD 31 then (ag.repst.extractLsb' 0 6).toNat else 0
      let ag := { ag with repst := ag.repst &&& 0x7FFFFFFF, wait := .none }
      if first < n then
        s.putAgent id
          { ag with run := { r with off := r.off + 2, idx := r.idx + 1, resumed := false, rep := some { p with i := first } } }
      else nextInstr s id { ag with run := { r with ilen := 2 + ilen (r.code.drop (r.off + 2)), idx := r.idx + 1 } }

/-! ### Transfers -/

/-- PREP (R291): the literal is an offset from the PREP's first halfword. -/
def execPrep (g : BitVec 2) (d : BitVec 6) (a : Src) (s : State) : Out :=
  regOp anyProfile g s fun ag =>
    ag.btSet d.toNat (match a with
      | .lit w => ag.run.here + w.signExtend 64
      | .reg n => ag.pGet n.toNat)

/-- Record a taken transfer (R287, R292). -/
def Agent.transfer (ag : Agent) (x : Xfer) : Agent := { ag with run := { ag.run with pend := x } }

/-- A conditional transfer (R292). -/
def xferIf (g : BitVec 2) (a : Nat) (b : Src) (taken : Word → Bool) (s : State) : Out :=
  regOp anyProfile g s fun ag => if taken (ag.src b) then ag.transfer (.jump (ag.btGet a)) else ag

/-- XFER (R292). -/
def execXfer (g : BitVec 2) (a : BitVec 6) (b : Src) (s : State) : Out := xferIf g a.toNat b (· ≠ 0) s
/-- XFERN (R292). -/
def execXfern (g : BitVec 2) (a : BitVec 6) (b : Src) (s : State) : Out := xferIf g a.toNat b (· = 0) s
/-- CALL (R292): it writes its link only when it is taken. -/
def execCall (g : BitVec 2) (d a : BitVec 6) (b : Src) (s : State) : Out :=
  regOp anyProfile g s fun ag =>
    if ag.src b ≠ 0 then (ag.transfer (.jump (ag.btGet a.toNat))).pSet d.toNat ag.run.end_ else ag
/-- RET (R292). -/
def execRet (g : BitVec 2) (a : BitVec 6) (b : Src) (s : State) : Out := xferIf g a.toNat b (· ≠ 0) s
/-- XFER, compact (R110, R290). -/
def execXferCompact (a b : BitVec 5) (s : State) : Out := xferIf 0 a.toNat (.reg (b.zeroExtend 6)) (· ≠ 0) s
/-- XFERN, compact (R110, R290). -/
def execXfernCompact (a b : BitVec 5) (s : State) : Out := xferIf 0 a.toNat (.reg (b.zeroExtend 6)) (· = 0) s

/-- The 48 bytes of region entry `n` cannot be spilled or filled (R296, reason 2). -/
def State.spillBad (s : State) (ag : Agent) (n : Nat) : Bool :=
  let o := ag.spillOff n
  decide (spadSize ag.unit < o + 48) || (s.enginePlot ag.unit o 48).isSome || (s.unit ag.unit).overTag o 48

/-- SPLIT (R294, R296). -/
def execSplit (d a b : BitVec 6) (s : State) : Out :=
  issue waveOnly 0 s fun id ag =>
    if 16 + ag.spillCap < ag.depth + 1 ∨ 4096 < ag.depth + 1 then trapHere s id ag 0x09 1
    else if 16 ≤ ag.depth ∧ s.spillBad ag (ag.depth - 15) then trapHere s id ag 0x09 2
    else
      let m := ag.beat
      let k := ag.kGet d.toNat
      retire s id (ag.transfer (.split (ag.btGet a.toNat) (ag.btGet b.toNat) (m &&& k) (m &&& ~~~k)))

/-- JOIN (R295, R296). -/
def execJoin (s : State) : Out :=
  issue waveOnly 0 s fun id ag =>
    match ag.stk with
    | [] => trapHere s id ag 0x09 3
    | e :: _ =>
      if e.run2 ∧ 16 < ag.depth ∧ s.spillBad ag (ag.depth - 16) then trapHere s id ag 0x09 2
      else retire s id (ag.transfer .join)

/-- YIELD (R293): the wave lets the others issue at the end of its run. -/
def execYield (g : BitVec 2) (s : State) : Out :=
  regOp anyProfile g s fun ag => if ag.profile = .wave then { ag with yielded := true } else ag

/-- HALT (R293): the agent ends once its accesses are performed; a core stays halted. -/
def execHalt (g : BitVec 2) (s : State) : Out :=
  issueOnce anyProfile g s fun id ag =>
    match ag.profile with
    | .host => s.putAgent id { ag with live := false, wait := .none }
    | _ => waitFor s id { ag with stk := [], depth := 0 } .ending

/-- NOP (R293). -/
def execNop (g : BitVec 2) (s : State) : Out := regOp anyProfile g s id
/-- NOP, compact. -/
def execNopCompact (s : State) : Out := regOp anyProfile 0 s id

/-! ### Votes -/

/-- A vote over the active lanes whose predicate bit is 1 (R299). -/
def vote (g : BitVec 2) (a : BitVec 6) (s : State) (f : Agent → Mask → Mask → Agent) : Out :=
  regOp waveOnly g s fun ag => f ag (ag.active g) (ag.active g &&& ag.kGet a.toNat)

/-- VANY (R299). -/
def execVany (g : BitVec 2) (d a : BitVec 6) (s : State) : Out :=
  vote g a s fun ag _ p => ag.sSet d.toNat (boolW (p != 0))
/-- VALL (R299). -/
def execVall (g : BitVec 2) (d a : BitVec 6) (s : State) : Out :=
  vote g a s fun ag act p => ag.sSet d.toNat (boolW (p == act))
/-- VBAL (R299). -/
def execVbal (g : BitVec 2) (d a : BitVec 6) (s : State) : Out :=
  vote g a s fun ag _ p => ag.sSet3 d.toNat p
/-- VCNT (R299). -/
def execVcnt (g : BitVec 2) (d a : BitVec 6) (s : State) : Out :=
  vote g a s fun ag _ p => ag.sSet d.toNat (BitVec.ofNat 32 (maskCount p))
/-- VFFS (R299). -/
def execVffs (g : BitVec 2) (d a : BitVec 6) (s : State) : Out :=
  vote g a s fun ag _ p => ag.sSet d.toNat (match maskLow p with
    | some l => BitVec.ofNat 32 l
    | none => 0xFFFFFFFF)
/-- VBCAST (R299): the lane is read whatever its activity. -/
def execVbcast (g : BitVec 2) (d : BitVec 6) (a b : Src) (s : State) : Out :=
  regOp waveOnly g s fun ag =>
    let n := (ag.src b).toNat
    ag.sSet d.toNat (if n < 96 then ag.vsrc a n else 0)

/-! ### REGROUP -/

/-- The live wave of a unit's group with a wave number (R148, R300): one that is ending is no longer live. -/
def State.waveOf (s : State) (u gw : Nat) : Option (Nat × Agent) :=
  List.find? (fun (e : Nat × Agent) => e.2.profile == .wave && e.2.live && e.2.wait != .ending && e.2.unit == u && e.2.gw.toNat == gw)
    s.agents

/-- The lanes a fused wave takes its values from: true for the survivor's (R301). -/
def fuseSrc (w x : Mask) : List (Bool × Nat) :=
  (lanesOf w).map (fun l => (true, l)) ++ (lanesOf x).map (fun l => (false, l))

/-- A pending write among those of another agent, behind the ones that became pending no later (R222, R232). -/
def insertPend (l : List PWrite) (p : PWrite) : List PWrite :=
  l.takeWhile (fun o => decide (o.seq ≤ p.seq)) ++ p :: l.dropWhile (fun o => decide (o.seq ≤ p.seq))

/-- The survivor's registers after a fusion (R301); the pending writes of both stand in the order of their age. -/
def fuse (w x : Agent) (lo hi : Nat) : Agent :=
  let src := fuseSrc w.beat x.beat
  let n := src.length
  let at_ := fun i => nth (true, 0) src i
  let pick := fun (b : Bool) => if b then w else x
  let newV := fun (r : Nat) => lanes fun i =>
    if n ≤ i then 0
    else
      let (b, j) := at_ i
      if b ∧ j = i then w.vGet r i else if lo ≤ r ∧ r ≤ hi then (pick b).vGet r j else 0
  let newK := fun (r : Nat) => maskOf fun i =>
    decide (i < n) && ((pick (at_ i).1).kGet r).getLsbD (at_ i).2
  let newX := fun (i : Nat) => if n ≤ i then Tab.get 0 w.x i else Tab.get 0 (pick (at_ i).1).x (at_ i).2
  { w with
    v := Tab.fill [] [] (List.range 63) newV,
    k := Tab.fill 0 [] [1, 2, 3, 4, 5, 6, 7] newK,
    x := Tab.fill 0 [] (List.range 96) newX,
    rstat := w.rstat ||| x.rstat,
    pend := x.pend.foldl insertPend w.pend,
    unrep := w.unrep || x.unrep,
    stErr := w.stErr ++ x.stErr,
    mods := w.mods ++ x.mods,
    nextTag := max w.nextTag x.nextTag }.setBeat (maskBelow n)

/-- Fuse two waves: the lower number survives and becomes the agent of both; the other retires, and its slot is free
(R232, R301, R375). -/
def State.fuseWaves (s : State) (wi xi : Nat) (w x : Agent) (lo hi : Nat) : State :=
  let s := s.putAgent wi (fuse w x lo hi)
  { s with
    agents := Tab.erase s.agents xi,
    fab := { s.fab with posted := s.fab.posted.map (fun e => if e.2.agent = xi then (e.1, { e.2 with agent := wi }) else e) } }

/-- A wave's earlier accesses are all performed, its side-logged writes included (R227, R232). -/
def State.allPerformed (s : State) (id : Nat) (ag : Agent) : Bool := ag.opens.isEmpty && s.slogClear id

/-- Some handle of a wave is pending (R302). -/
def Agent.handleOpen (ag : Agent) : Bool := ag.h.any (fun e => e.2.st == .pending)

/-- The waves of a unit that wait at a REGROUP for the wave with this number and do not match it: it has arrived at another
(R300). -/
def State.jilt (s : State) (u gw : Nat) (but : Option Nat) : State :=
  { s with agents := s.agents.map (fun e =>
      match e.2.wait with
      | .regroup _ p _ =>
        if e.2.unit = u ∧ p.toNat = gw ∧ some e.1 ≠ but then (e.1, { e.2 with wait := .regrouped 2 }) else e
      | _ => e) }

/-- A wave of a unit has ended: the waves that wait at a REGROUP for it learn so, before its slot can hold another (R300). -/
def State.widow (s : State) (u gw : Nat) : State :=
  { s with agents := s.agents.map (fun e =>
      match e.2.wait with
      | .regroup _ p _ => if e.2.unit = u ∧ p.toNat = gw then (e.1, { e.2 with wait := .regrouped 0 }) else e
      | _ => e) }

/-- Some wave of a unit waits at a REGROUP for the wave with this number. -/
def State.courted (s : State) (u gw : Nat) : Bool :=
  s.agents.any (fun e => match e.2.wait with
    | .regroup _ p _ => e.2.unit == u && p.toNat == gw
    | _ => false)

/-- REGROUP (R300 to R302). A wave that arrives and does not match the waves that wait for it gives them status 2; where
its own partner has not arrived, it then goes on with status 2 itself (log 113). -/
def execRegroup (d : BitVec 6) (a b : Src) (s : State) : Out :=
  issue waveOnly 0 s fun id ag =>
    let done := fun (s : State) (ag : Agent) (st : Word) => retire s id (ag.sSet d.toNat st)
    let u := ag.unit
    let gw := ag.gw.toNat
    match ag.wait with
    | .regrouped st => done s ag st
    | .regroup pc p r => if (s.waveOf u p.toNat).isNone then done s ag 0 else waitFor s id ag (.regroup pc p r)
    | _ =>
      if ag.stk ≠ [] then trapHere s id ag 0x09 4
      else if s.sfuBusy id ag || ag.handleOpen || !s.allPerformed id ag then waitFor s id ag .again
      else
        let partner := ag.src a
        let range := ag.src b
        let here := ag.run.here
        if partner.toNat = gw then done (s.jilt u gw none) ag 2
        else
          match s.waveOf u partner.toNat with
          | none => done (s.jilt u gw none) ag 0
          | some (xi, x) =>
            match x.wait with
            | .regroup pc p r =>
              if pc = here ∧ p.toNat = gw ∧ r = range then
                if x.handleOpen then waitFor s id ag .again
                else
                  let s := s.jilt u gw (some xi)
                  if 96 < maskCount ag.beat + maskCount x.beat then
                    done (s.putAgent xi { x with wait := .regrouped 3 }) ag 3
                  else
                    let lo := (range.extractLsb' 0 6).toNat
                    let hi := min 62 (range.extractLsb' 8 6).toNat
                    if gw < x.gw.toNat then
                      let s := s.fuseWaves id xi ag x lo hi
                      done s ((s.agent? id).getD ag) 1
                    else s.fuseWaves xi id { x with wait := .regrouped 1 } ag lo hi
              else done ((s.jilt u gw none).putAgent xi { x with wait := .regrouped 2 }) ag 2
            | _ =>
              if s.courted u gw then done (s.jilt u gw none) ag 2
              else waitFor s id ag (.regroup here partner range)

end Sys2Proof.Machine
end

