-- ==== Sys2Proof/Machine/Async.lean ====
section
/-! DEFINITION. The asynchronous instructions (R64 to R74, R144 to R148): CPY's command block and checks, GIVE, TAKE,
handles. -/
namespace Sys2Proof.Machine

/-! ### Completion of an operation -/

/-- Finish the handle of an operation in one agent (R72). -/
def Agent.finishOp (ag : Agent) (op : Nat) (status : DWord) (stat : List Word) : Agent :=
  { ag with h := ag.h.map (fun e =>
      if e.2.st = .pending ∧ e.2.op = op then (e.1, { st := .done, status := status, op := 0, stat := stat }) else e) }

/-- Return to unit side the plots bound to an operation (R65). -/
def UnitSt.unbindOp (x : UnitSt) (op : Nat) : UnitSt :=
  { x with plots := x.plots.filter (fun e => e.2.bound != some op) }

/-- An operation completes: its handle is done and its plots flip back in one step, in a saved context too (R65, R68,
R72). -/
def State.finishOp (s : State) (op : Nat) (status : DWord) (stat : List Word) : State :=
  { s with
    agents := s.agents.map (fun e => (e.1, e.2.finishOp op status stat)),
    units := s.units.map (fun e => (e.1, e.2.unbindOp op)),
    hub := { s.hub with saves := s.hub.saves.map (fun e =>
      (e.1, { e.2 with grp := e.2.grp.unbindOp op,
                       agents := e.2.agents.map (fun a => (a.1, a.2.finishOp op status stat)) })) } }

/-- A status word (R73). -/
def hStatus (code moved : Nat) : DWord := BitVec.ofNat 64 (code * 2 ^ 60 + moved % 2 ^ 40)

/-- The handle is pending. -/
def Agent.hPending (ag : Agent) (n : Nat) : Bool := (ag.hGet n).st == .pending

/-! ### CPY -/

/-- The copy engine an agent uses: its cluster's, or its quadrant's (R69, R144). -/
def Agent.engine (ag : Agent) : Nat := if ag.unit < 192 then ag.unit / 4 else 64 + ag.unit

/-- The byte range an endpoint's elements span, from its first to behind its last byte (R70). -/
def copySpan (base : Nat) (str : List Word) (ext : List Nat) (bits : Nat) : Int × Int :=
  let p := (str.zip ext).map (fun e => ((e.2 : Int) - 1) * e.1.toInt)
  let lo := (p.map (fun x => min 0 x)).sum
  let hi := (p.map (fun x => max 0 x)).sum
  (((base : Int) * 8 + lo * bits) / 8, ((base : Int) * 8 + hi * bits + bits + 7) / 8)

/-- An endpoint of a block is well formed for a unit (R70): its zero bits, dimension 0's stride on a 4-bit or 6-bit
side, its range in the own scratchpad. -/
def endpointOk (u kind : Nat) (ep : DWord) (str : List Word) (ext : List Nat) (bits : Nat) : Bool :=
  (match kind with
   | 0 => true
   | 1 => ep.extractLsb' 4 60 == 0
   | 2 => decide (ep.toNat < spadSize u)
   | _ => ep.extractLsb' 19 41 == 0) &&
  (kind == 1 || decide (8 ≤ bits) || nth 0 str 0 == 1) &&
  (kind != 2 ||
    (let r := copySpan ep.toNat str ext bits
     decide (0 ≤ r.1) && decide (r.2 ≤ spadSize u)))

/-- Two element formats may stand in one copy (R70). -/
def copyPair (d f : Fmt) : Bool := d == f || ((cvtKind d f).isSome && d != .ts8 && f != .ts8)

/-- Read a command block of a unit: none where it is malformed (R70). -/
def parseCopy (u : Nat) (bs : List Byte) : Option Copy :=
  let w := fun o => BitVec.ofNat 32 (leVal ((bs.drop o).take 4))
  let ctl : Word := w 0
  let ext := (List.range 10).map (fun i => (w (24 + 4 * i)).toNat)
  let sstr := (List.range 10).map (fun i => w (64 + 4 * i))
  let dstr := (List.range 10).map (fun i => w (104 + 4 * i))
  let src : DWord := w 12 ++ w 8
  let dst : DWord := w 20 ++ w 16
  let sk := (ctl.extractLsb' 29 3).toNat
  let dk := (ctl.extractLsb' 26 3).toNat
  let nd := (ctl.extractLsb' 22 4).toNat
  let sf := (ctl.extractLsb' 18 4).toNat
  let df := (ctl.extractLsb' 14 4).toNat
  let rm := (ctl.extractLsb' 11 3).toNat
  match Fmt.ofCode sf, Fmt.ofCode df with
  | some f, some d =>
    if ctl.extractLsb' 0 11 = 0 ∧ w 4 = 0 ∧ leVal ((bs.drop 144).take 16) = 0 ∧ sk < 4 ∧ dk < 4 ∧ 1 ≤ nd ∧ nd ≤ 10 ∧
        rm ≠ 5 ∧ rm ≠ 6 ∧ ext.zipIdx.all (fun e => if e.2 < nd then e.1 != 0 else e.1 == 1) ∧
        ext.foldl (· * ·) 1 < 2 ^ 40 ∧ copyPair d f ∧ endpointOk u sk src sstr ext f.bits ∧
        endpointOk u dk dst dstr ext d.bits then
      some { agent := 0, hnd := 0, unit_ := u, engine := 0, part := 0, skind := sk, dkind := dk, ndim := nd, sfmt := sf,
             dfmt := df, rm := rm, src := src, dst := dst, ext := ext, sstr := sstr, dstr := dstr }
    else none
  | _, _ => none

/-- The bits of a format code. -/
def fmtBits (c : Nat) : Nat := match Fmt.ofCode c with
  | some f => f.bits
  | none => 8

/-- The own-scratchpad plots a copy's endpoints touch, from the lowest to the highest byte of each (R144). -/
def Copy.plots (c : Copy) : List Nat :=
  let one := fun (kind : Nat) (ep : DWord) (str : List Word) (fmt : Nat) =>
    if kind = 2 then
      let r := copySpan ep.toNat str c.ext (fmtBits fmt)
      plotsOf c.unit_ r.1.toNat (r.2 - r.1).toNat
    else []
  (one 2 c.src c.sstr c.sfmt |>.filter (fun _ => c.skind == 2)) ++
    (one 2 c.dst c.dstr c.dfmt |>.filter (fun _ => c.dkind == 2))

/-- The first plot of a list that is not on engine side and unbound (R65, R144). -/
def UnitSt.notFree (x : UnitSt) (ps : List Nat) : Option Nat :=
  ps.find? (fun p => !((x.plot p).engine && (x.plot p).bound.isNone))

/-- Bind plots to an operation. -/
def UnitSt.bindPlots (x : UnitSt) (ps : List Nat) (op : Nat) : UnitSt :=
  ps.foldl (fun t p => t.setPlot p { engine := true, bound := some op }) x

/-- Operations that stand in an engine's queue and have not started (R69, R280). -/
def State.copyQueue (s : State) (e : Nat) : Nat :=
  (s.fab.copies.filter (fun c => c.2.engine == e && !c.2.running)).length

/-- The binding of a window of a unit, where it is configured (R249). -/
def State.winBind (s : State) (u : Nat) (ep : DWord) : Option Nat :=
  let w := (s.unit u).win (ep.extractLsb' 60 4).toNat
  if w.on then w.bind else none

/-- CPY (R144, R70, R65, R67, R69, R72). A malformed block completes at once with code 3. -/
def execCpy (g : BitVec 2) (d : BitVec 6) (a : Src) (s : State) : Out :=
  issueOnce notHost g s fun id ag =>
    let u := ag.unit
    let p := (ag.src a).toNat
    if p % 32 ≠ 0 ∨ spadSize u < p + 160 then addrTrap s id ag (BitVec.ofNat 64 p)
    else
      match s.enginePlot u p 160 with
      | some k => trapHere s id ag 0x06 (BitVec.ofNat 64 k)
      | none =>
        if ag.barred then waitFor s id ag .again
        else
          match parseCopy u (s.spadRead u p 160) with
          | none =>
            if ag.hPending d.toNat then waitFor s id ag .again
            else retire s id (ag.hSet d.toNat { st := .done, status := hStatus 3 0 })
          | some c =>
            match (s.unit u).notFree c.plots with
            | some k => trapHere s id ag 0x06 (BitVec.ofNat 64 k)
            | none =>
              if ag.hPending d.toNat || decide (32 ≤ s.copyQueue ag.engine) || !s.releaseReady id ag 3 (ag.nextTag + 1) then
                waitFor s id ag .again
              else
                let n := s.fab.nextOp
                let c := { c with
                  agent := id, hnd := d.toNat, engine := ag.engine, part := ag.part, launch := ag.launch,
                  rm := if c.rm = 7 then (ag.rmode.extractLsb' 0 3).toNat else c.rm,
                  sdesc := ag.dGet (c.src.extractLsb' 0 4).toNat, ddesc := ag.dGet (c.dst.extractLsb' 0 4).toNat,
                  x := seedLanes ag.seed, npd := npDistance ag.npdist,
                  sbind := if c.skind = 3 then s.winBind u c.src else none,
                  dbind := if c.dkind = 3 then s.winBind u c.dst else none }
                let s := s.putUnit u ((s.unit u).bindPlots c.plots n)
                let s := { s with fab := { s.fab with copies := Tab.put s.fab.copies n c, nextOp := n + 1 } }
                retire s id (ag.hSet d.toNat { st := .pending, op := n })

/-! ### GIVE and TAKE -/

/-- The plots of a unit's scratchpad (R64). -/
def plotCount (u : Nat) : Nat := if u < 192 then 128 else 256

/-- GIVE and TAKE: the range of plots, or the address trap (R145). DESIGN CHOICE (log 23), where R345 names a lane's address and the
range has none: `tval` is the first plot number. -/
def plotRange (g : BitVec 2) (a b : Src) (s : State) (k : Nat → Agent → List Nat → State) : Out :=
  issueOnce notHost g s fun id ag =>
    let p := (ag.src a).toNat
    let n := (ag.src b).toNat
    if n = 0 then retire s id ag
    else if plotCount ag.unit < p + n then addrTrap s id ag (BitVec.ofNat 64 p)
    else k id ag (List.range' p n)

/-- GIVE (R145, R65): a release at `pk`, then every plot moves to engine side, unbound. -/
def execGive (g : BitVec 2) (a b : Src) (s : State) : Out :=
  plotRange g a b s fun id ag ps =>
    let x := s.unit ag.unit
    match ps.find? (fun p => (x.plot p).engine) with
    | some p => trapHere s id ag 0x06 (BitVec.ofNat 64 p)
    | none =>
      if !s.releaseNow id ag 3 then waitFor s id ag .again
      else retire (s.putUnit ag.unit (ps.foldl (fun t p => t.setPlot p { engine := true }) x)) id ag

/-- An operation has not completed (R65). -/
def State.opOpen (s : State) (n : Nat) : Bool := (Tab.find? s.fab.copies n).isSome || (Tab.find? s.fab.recons n).isSome

/-- TAKE (R145, R65): unbound plots return at once; it waits until the operations to which the others are bound have
completed, then acquires at `pk` (R230). -/
def execTake (g : BitVec 2) (a b : Src) (s : State) : Out :=
  plotRange g a b s fun id ag ps =>
    let finish := fun (s : State) (ops : List Nat) =>
      if ops.any s.opOpen then waitFor s id ag (.take ops) else retire (s.acquire ag 3) id ag
    match ag.wait with
    | .take ops => finish s ops
    | _ =>
      let x := s.unit ag.unit
      let ops := ps.filterMap (fun p => (x.plot p).bound)
      finish (s.putUnit ag.unit (ps.foldl (fun t p => if (t.plot p).bound.isNone then t.setPlot p {} else t) x)) ops

/-! ### Handles -/

/-- The status a read of a handle gives: code 15 while it is idle (R72). -/
def Handle.read (h : Handle) : DWord := if h.st = .idle then hStatus 15 0 else h.status

/-- The code of a status (R73). -/
def hCode (x : DWord) : Nat := (x.extractLsb' 60 4).toNat

/-- What an agent takes from reading a done handle's code (R146): code 6 sets `rerr`, and makes the remote-error trap
pending where `rte` is 1. -/
def Agent.readCode (ag : Agent) (c : Nat) : Agent := if c = 6 then ag.remoteErr 0 else ag

/-- HWAIT (R146): a read of a done handle observes its operation (R230); code 7 raises the peel-failure trap unless
`pfm` is 1. -/
def execHwait (g : BitVec 2) (d a : BitVec 6) (s : State) : Out :=
  issueOnce notHost g s fun id ag =>
    let h := ag.hGet a.toNat
    if h.st = .pending then waitFor s id ag .again
    else
      let x := h.read
      let s := if h.st = .done then s.acquire ag 3 else s
      let ag := (ag.pSet d.toNat x).readCode (if h.st = .done then hCode x else 0)
      if h.st = .done ∧ hCode x = 7 ∧ !ag.rstat.getLsbD 30 then retireThenTrap s id ag 0x08 x
      else retire s id ag

/-- HTEST (R146): 1 if the handle is done, and then it observes the operation (R230). -/
def execHtest (g : BitVec 2) (d a : BitVec 6) (s : State) : Out :=
  issueOnce notHost g s fun id ag =>
    let done := (ag.hGet a.toNat).st == .done
    retire (if done then s.acquire ag 3 else s) id (ag.sSet d.toNat (boolW done))

/-- Request the cancellation of an operation (R147). -/
def State.cancelOp (s : State) (n : Nat) : State :=
  { s with fab := { s.fab with
      copies := s.fab.copies.map (fun e => if e.1 = n then (e.1, { e.2 with cancel := true }) else e),
      recons := s.fab.recons.map (fun e => if e.1 = n then (e.1, { e.2 with cancel := true }) else e) } }

/-- HCANCEL (R147). -/
def execHcancel (g : BitVec 2) (a : BitVec 6) (s : State) : Out :=
  issueOnce notHost g s fun id ag =>
    let h := ag.hGet a.toNat
    retire (if h.st = .pending then s.cancelOp h.op else s) id ag

/-- HPASS (R148): the handle moves to a wave of the group, with its operation. DESIGN CHOICE (log 23), where R345 names a lane's
address and a wave number is none: the `tval` of its address trap is the wave number. -/
def execHpass (g : BitVec 2) (d a : BitVec 6) (b : Src) (s : State) : Out :=
  issueOnce waveOnly g s fun id ag =>
    let n := (ag.src b).toNat
    let h := ag.hGet a.toNat
    if n = ag.gw.toNat then
      if d = a then retire s id ag
      else if ag.hPending d.toNat then waitFor s id ag .again
      else retire s id ((ag.hSet a.toNat {}).hSet d.toNat h)
    else
      match s.waveOf ag.unit n with
      | none => addrTrap s id ag (BitVec.ofNat 64 n)
      | some (ti, t) =>
        if t.hPending d.toNat then waitFor s id ag .again
        else retire (s.putAgent ti (t.hSet d.toNat h)) id (ag.hSet a.toNat {})

end Sys2Proof.Machine
end

