-- ==== Sys2Proof/Machine/Sched.lean ====
section
/-! DEFINITION. The hub scheduler: task queues and deques (R311 to R313), the dependency table (R315), the walker (R309),
dispatch packets and the start, end and completion of groups and launches (R303 to R320), and the names of agents and
groups across a save (R303, R355). -/
namespace Sys2Proof.Machine

/-! ### Names of agents and groups -/

/-- A saved context as a group's number; a running group's number is its unit's (R249). -/
def savedGroup (ctx : Nat) : Nat := savedBase + ctx
/-- A wave or sequencer of a saved context. -/
def savedAgent (ctx gw : Nat) : Nat := savedBase + 32 * ctx + gw

/-- Rename the issuers of a quadrant's command blocks. -/
def QuadSt.renameBlocks (q : QuadSt) (f : Nat → Nat) : QuadSt :=
  { q with inq := q.inq.map (fun b => { b with agent := f b.agent }) }

/-- Rename agents wherever an operation in flight names one. -/
def State.renameAgent (s : State) (f : Nat → Nat) : State :=
  { s with
    fab := { s.fab with
      posted := s.fab.posted.map (fun e => (e.1, { e.2 with agent := f e.2.agent })),
      wsigs := s.fab.wsigs.map (fun e => (e.1, { e.2 with agent := f e.2.agent })),
      copies := s.fab.copies.map (fun e => (e.1, { e.2 with agent := f e.2.agent })),
      recons := s.fab.recons.map (fun e => (e.1, { e.2 with agent := f e.2.agent })),
      redns := s.fab.redns.map (fun e => (e.1, { e.2 with arr := e.2.arr.map (fun a => { a with agent := f a.agent }) })) },
    units := s.units.map (fun e => (e.1, { e.2 with slog := e.2.slog.map (fun x => { x with agent := f x.agent }) })),
    quads := s.quads.map (fun e => (e.1, e.2.renameBlocks f)),
    hub := { s.hub with saves := s.hub.saves.map (fun e =>
      (e.1, { e.2 with quads := e.2.quads.map (fun q => (q.1, q.2.renameBlocks f)) })) },
    ms := { s.ms with faults := s.ms.faults.map (fun x => { x with waiters := x.waiters.filter (fun a => f a == a) }) } }

/-- Rename a group wherever a posted write or a binding names it. -/
def State.renameGroup (s : State) (f : Nat → Nat) : State :=
  { s with fab := { s.fab with
      posted := s.fab.posted.map (fun e => (e.1, { e.2 with unit_ := f e.2.unit_ })),
      wsigs := s.fab.wsigs.map (fun e => (e.1, { e.2 with unit_ := f e.2.unit_ })),
      copies := s.fab.copies.map (fun e => (e.1, { e.2 with touched := e.2.touched.map (fun t => 256 * f (t / 256) + t % 256) })),
      binds := s.fab.binds.map (fun e =>
        (e.1, { e.2 with srcUnit := if e.2.inward then e.2.srcUnit else f e.2.srcUnit })) } }

/-- Change an agent, live or in a saved context. -/
def State.updAny (s : State) (id : Nat) (f : Agent → Agent) : State :=
  match s.agent? id with
  | some ag => s.putAgent id (f ag)
  | none =>
    { s with hub := { s.hub with saves := s.hub.saves.map (fun e =>
        (e.1, { e.2 with agents := e.2.agents.map (fun a => if a.1 = id then (a.1, f a.2) else a) })) } }

/-- An agent that runs or stands in a saved context. -/
def State.anyAgent? (s : State) (id : Nat) : Option Agent :=
  match s.agent? id with
  | some ag => some ag
  | none => s.hub.saves.findSome? (fun e => Tab.find? e.2.agents id)

/-- The agents of a group's unit. -/
def State.agentsOn (s : State) (u : Nat) : List (Nat × Agent) :=
  s.agents.filter (fun e => e.2.live && e.2.profile != .host && e.2.unit == u)

/-! ### Records and queues -/

/-- The 32 bytes of a task record (R311). -/
def TaskRec.bytes (r : TaskRec) : List Byte :=
  leBytes 8 r.entry.toNat ++ (List.range 6).flatMap (fun i => leBytes 4 (nth 0 r.args i).toNat)
/-- The task record of 32 bytes (R311). -/
def TaskRec.ofBytes (bs : List Byte) : TaskRec :=
  { entry := BitVec.ofNat 64 (leVal (bs.take 8)),
    args := (List.range 6).map (fun i => BitVec.ofNat 32 (leVal ((bs.drop (8 + 4 * i)).take 4))) }

/-- A task queue's register (R313). -/
def State.tqReg (s : State) (p n : Nat) : DWord := Tab.get 0 s.rot.tqCfg (64 * p + n)
/-- Its capacity. -/
def tqCap (r : DWord) : Nat := 2 ^ (max 4 (min 20 (r.extractLsb' 0 5).toNat))
/-- The records waiting in a task queue. -/
def State.tqDepth (s : State) (p n : Nat) : Nat := Tab.get 0 s.rot.tqTail (64 * p + n) - Tab.get 0 s.rot.tqHead (64 * p + n)
/-- The queue is in use (R313). -/
def State.tqOn (s : State) (p n : Nat) : Bool := (s.tqReg p n).getLsbD 63
/-- The queue is full. -/
def State.tqFull (s : State) (p n : Nat) : Bool := decide (tqCap (s.tqReg p n) ≤ s.tqDepth p n)
/-- The key of a waiting record's entry time. -/
def tqKey (p n i : Nat) : Nat := (64 * p + n) * 1048576 + i % 1048576

/-- Append a record to a task queue (R313). -/
def State.tqAppend (s : State) (p n : Nat) (r : TaskRec) : State :=
  let reg := s.tqReg p n
  let i := Tab.get 0 s.rot.tqTail (64 * p + n)
  let s := s.pkStore 0 false ((reg.extractLsb' 12 40).toNat * 4096 + 32 * (i % tqCap reg)) r.bytes
  { s with rot := { s.rot with tqTail := Tab.put s.rot.tqTail (64 * p + n) (i + 1),
                               tqAge := Tab.put s.rot.tqAge (tqKey p n i) s.ntime } }

/-- Note that work was taken from a queue record (R330). -/
def State.took (s : State) (p rec : Nat) : State :=
  { s with hub := { s.hub with taken := Tab.put s.hub.taken (128 * p + rec) s.ntime } }

/-- Take the head record of a task queue that holds one (R313). -/
def State.tqPop (s : State) (p n : Nat) : TaskRec × State :=
  let reg := s.tqReg p n
  let i := Tab.get 0 s.rot.tqHead (64 * p + n)
  let r := TaskRec.ofBytes (s.pkReadN 0 ((reg.extractLsb' 12 40).toNat * 4096 + 32 * (i % tqCap reg)) 32)
  (r, ({ s with rot := { s.rot with tqHead := Tab.put s.rot.tqHead (64 * p + n) (i + 1),
                                    tqAge := Tab.erase s.rot.tqAge (tqKey p n i) } }).took p n)

/-- The records a deque holds at most (R312). -/
def dequeCap : Nat := 64

/-- A launch by its number. -/
def State.launch? (s : State) (l : Nat) : Option Launch := Tab.find? s.hub.launches l
/-- Replace a launch. -/
def State.putLaunch (s : State) (x : Launch) : State :=
  { s with hub := { s.hub with launches := Tab.put s.hub.launches x.id x } }

/-- A unit runs a task group of a launch (R311). -/
def State.taskGroup (s : State) (u l : Nat) : Bool :=
  let x := s.unit u
  x.ustate == .running && x.launch == l && match s.launch? l with
    | some y => y.kind == 2
    | none => false

/-! ### Power tokens -/

/-- The tokens of a partition's pool that are not held (R320). -/
def State.pwrFree (s : State) (p : Nat) : Nat := Tab.get 0 s.rot.pwrPool p - Tab.get 0 s.rot.pwrHeld p
/-- Debit tokens from a pool. -/
def State.pwrTake (s : State) (p n : Nat) : State :=
  { s with rot := { s.rot with pwrHeld := Tab.set 0 s.rot.pwrHeld p (Tab.get 0 s.rot.pwrHeld p + n) } }
/-- Return tokens to a pool. -/
def State.pwrGive (s : State) (p n : Nat) : State :=
  { s with rot := { s.rot with pwrHeld := Tab.set 0 s.rot.pwrHeld p (Tab.get 0 s.rot.pwrHeld p - n) } }

/-! ### Units -/

/-- The quadrant set that a shape code names with a unit as its leader; a CU alone (R303, R304). -/
def unitSet (kind waves u : Nat) : List Nat :=
  if kind ≠ 1 then [u]
  else
    let i := u % 4
    match waves with
    | 0 => [u]
    | 1 => if i = 0 ∨ i = 2 then [u, u + 1] else []
    | 2 => if i = 0 ∨ i = 1 then [u, u + 2] else []
    | 3 => if i = 0 then [u, u + 1, u + 2, u + 3] else []
    | _ => []

/-- A packet is on its way to the unit, or to the quadrant set it is a member of. -/
def State.onWay (s : State) (u : Nat) : Bool :=
  s.hub.packets.any (fun k => match s.launch? k.launch with
    | some x => (unitSet x.kind x.waves k.dest).contains u
    | none => k.dest == u)

/-- The unit is held by the partition, present and free (R310, R333). -/
def State.unitFree (s : State) (p u : Nat) : Bool :=
  let x := s.unit u
  x.holder == some p && s.unitUp u && x.ustate == .free && !s.onWay u

/-- The unit is of the kind a launch runs on (R304). -/
def kindFits (kind u : Nat) : Bool := if kind = 1 then decide (192 ≤ u) && decide (u < 224) else decide (u < 192)

/-- A group of the launch can be placed on the unit (R310). -/
def State.placeOk (s : State) (x : Launch) (u : Nat) : Bool :=
  let us := unitSet x.kind x.waves u
  kindFits x.kind u && !us.isEmpty && us.all (s.unitFree x.part)

/-- The units a group of the launch can be placed on, ascending. -/
def State.places (s : State) (x : Launch) : List Nat := (List.range 224).filter (s.placeOk x)

/-- Units for `n` groups placed together, beginning with one that is named, none used twice. -/
def State.gangPlaces (s : State) (x : Launch) (n u : Nat) : List Nat :=
  let step := fun (acc : List Nat) (v : Nat) =>
    let used := acc.flatMap (unitSet x.kind x.waves)
    if acc.length < n ∧ (unitSet x.kind x.waves v).all (fun m => !used.contains m) then acc ++ [v] else acc
  (u :: s.places x).foldl step []

/-! ### The walker (R309) -/

/-- The smallest power of two that is at least `n`. -/
def pow2Up (n : Nat) : Nat := if n ≤ 1 then 1 else 2 ^ (Nat.log2 (n - 1) + 1)

/-- The even-numbered bits of `d`, packed. -/
def evenBits (d : Nat) : Nat := ((List.range 32).map (fun i => if d.testBit (2 * i) then 2 ^ i else 0)).sum

/-- HilbertPoint (R309), one level a step. -/
def hilbertAux (S : Nat) : Nat → Nat → Nat → Nat → Nat → Nat × Nat
  | 0, _, _, x, y => (x, y)
  | n + 1, s, t, x, y =>
    if S ≤ s then (x, y)
    else
      let rx := t / 2 % 2
      let ry := (t % 2 + rx) % 2
      let (x, y) := if ry = 0 then
          let (x, y) := if rx = 1 then (s - 1 - x, s - 1 - y) else (x, y)
          (y, x)
        else (x, y)
      hilbertAux S n (2 * s) (t / 4) (x + s * rx) (y + s * ry)

/-- The positions of one plane on the walk, those that are skipped included (R309). -/
def Launch.planePoints (x : Launch) : Nat :=
  let e0 := nth 1 x.ext 0
  let e1 := nth 1 x.ext 1
  let S := pow2Up (max e0 e1)
  match x.curve with
  | 0 => e0 * e1
  | 1 => S * S
  | 2 => S * S
  | _ => ((e0 + 15) / 16) * ((e1 + 15) / 16) * 256

/-- The point of a plane at a position of the walk (R309). -/
def Launch.planePoint (x : Launch) (d : Nat) : Nat × Nat :=
  let e0 := nth 1 x.ext 0
  let e1 := nth 1 x.ext 1
  let S := pow2Up (max e0 e1)
  match x.curve with
  | 0 => (d % e0, d / e0)
  | 1 => (evenBits d, evenBits (d / 2))
  | 2 => hilbertAux S 32 1 d 0 0
  | _ =>
    let w := (e0 + 15) / 16
    let b := d / 256
    let e := nth 0 x.order (d % 256)
    (16 * (b % w) + e % 16, 16 * (b / w) + e / 16)

/-- The next point at or after a walk position that lies within the extents: its position and its indices (R309). -/
def Launch.seek (x : Launch) : Nat → Nat → Option (Nat × List Nat)
  | 0, _ => none
  | n + 1, w =>
    let pts := x.planePoints
    let (a, b) := x.planePoint (w % pts)
    if a < nth 1 x.ext 0 ∧ b < nth 1 x.ext 1 then some (w, [a, b, w / pts]) else Launch.seek x n (w + 1)

/-- The groups of a launch: its iterations, or its task groups (R304, R309). -/
def Launch.total (x : Launch) : Nat := if x.kind = 2 then nth 1 x.ext 0 else nth 1 x.ext 0 * nth 1 x.ext 1 * nth 1 x.ext 2

/-- It is gang-scheduled (R317). -/
def Launch.gang (x : Launch) : Bool := decide (2 ≤ x.sync)

/-- The launch is waiting: an ordinal not yet dispatched, or a saved group (R330). -/
def Launch.waiting (x : Launch) : Bool := decide (x.next < x.total) || !x.saved.isEmpty

/-- The head launch of a launch queue (R330). -/
def State.headLaunch (s : State) (p q : Nat) : Option Launch :=
  (List.find? (fun (e : Nat × Launch) => e.2.part == p && e.2.queue == q && e.2.waiting) s.hub.launches).map (fun e => e.2)

/-! ### Dispatch -/

/-- The class a die is to run at for a group of the launch, within the limit of R27 (R319). -/
def State.opWant (s : State) (x : Launch) (die : Nat) : Nat := min (Tab.get 7 s.plat.opLimit die) x.opc

/-- Raise the operating point of a die for a group (R319). -/
def State.raiseOp (s : State) (x : Launch) (die : Nat) : State :=
  let d := s.die die
  { s with plat := { s.plat with dies := Tab.put s.plat.dies die { d with opcTo := max d.opcTo (s.opWant x die) } } }

/-- Send a dispatch packet: it debits the group's tokens (R307, R320). -/
def State.sendPacket (s : State) (x : Launch) (k : Packet) : State :=
  let s := (s.pwrTake x.part x.ptok).raiseOp x (unitDie k.dest)
  { s with hub := { s.hub with packets := s.hub.packets ++ [{ k with code := x.code }] } }

/-- Dispatch the next ordinal of a launch to a unit (R309, R310, R311). -/
def State.dispatchNext (s : State) (l u : Nat) : State :=
  match s.launch? l with
  | none => s
  | some x =>
    if x.kind = 2 then
      let s := s.putLaunch { x with next := x.next + 1, place := x.place ++ [u] }
      s.sendPacket x { pkind := 1, launch := l, ord := x.next, dest := u }
    else
      match x.seek (x.planePoints + 1) x.walk with
      | none => s
      | some (w, idx) =>
        let s := s.putLaunch { x with next := x.next + 1, walk := w + 1, place := x.place ++ [u] }
        s.sendPacket x { pkind := 0, launch := l, ord := x.next, idx := idx, dest := u }

/-- Send the packet that resumes a saved context on a unit (R303, R307, R355): its group's members are reserved. -/
def State.resumeOn (s : State) (l ctx u : Nat) : State :=
  match s.launch? l with
  | none => s
  | some x => s.sendPacket x { pkind := 2, launch := l, ctx := ctx, dest := u }

/-- The saved contexts of a launch that no packet resumes yet, by ascending ordinal (R310, R340). -/
def State.savedOf (s : State) (x : Launch) : List Nat :=
  let cs := x.saved.filter (fun c => !s.hub.packets.any (fun k => k.pkind == 2 && k.ctx == c))
  cs.insertionSort (fun a b => (Tab.get { from_ := 0, launch := 0 } s.hub.saves a).ord
    ≤ (Tab.get { from_ := 0, launch := 0 } s.hub.saves b).ord)

/-- A packet with no unit yet: it waits for one (R358). -/
def noDest : Nat := 1000

/-- A packet of a launch waits for a unit after its own was lost (R358). -/
def State.stranded (s : State) (x : Launch) : Bool := s.hub.packets.any (fun k => k.launch == x.id && k.dest == noDest)

/-- A packet's place in the order of its launch's work: a saved group before a new ordinal, each by its ordinal (R310, R340). -/
def State.packetRank (s : State) (k : Packet) : Nat :=
  if k.pkind = 2 then (Tab.get { from_ := 0, launch := 0 } s.hub.saves k.ctx).ord else 2 ^ 40 + k.ord

/-- The groups one dispatch of the launch places: all of a gang's, else one (R317). -/
def State.batch (s : State) (x : Launch) : Nat :=
  let sv := (s.savedOf x).length
  if x.gang then (if sv = 0 then x.total - x.next else sv) else 1

/-- The head launch of a queue holds work that can be dispatched now (R331): it is not suspended; work of it that lost its unit
goes first (R310, R318, R358); an ordered launch dispatches no new ordinal while a group of it is being saved (R318); a gang's
groups all find units and tokens. -/
def State.launchReady (s : State) (x : Launch) : Bool :=
  !x.susp && !s.stranded x && (decide (x.next < x.total) || !(s.savedOf x).isEmpty) &&
  (!x.ordered || !(s.savedOf x).isEmpty || x.live.all (fun u => (s.unit u).ustate != .saving)) &&
  (!x.gang ||
    ((!(s.savedOf x).isEmpty || decide (x.next < x.total)) &&
      (x.saved.isEmpty || decide ((s.savedOf x).length = x.saved.length)) && x.live.isEmpty &&
      decide (s.batch x * x.ptok ≤ s.pwrFree x.part) &&
      (match s.places x with
       | [] => false
       | u :: _ => decide (s.batch x ≤ (s.gangPlaces x (s.batch x) u).length))))

/-- Dispatch from the head launch: the lowest-ordinal saved group first, otherwise the next ordinal; a gang as one (R310,
R317, R340). -/
def State.dispatch (s : State) (x : Launch) (u : Nat) : State :=
  let s := s.took x.part (64 + x.queue)
  let us := if x.gang then s.gangPlaces x (s.batch x) u else [u]
  match s.savedOf x with
  | [] => us.foldl (fun t v => t.dispatchNext x.id v) s
  | cs => (cs.zip us).foldl (fun t e => t.resumeOn x.id e.1 e.2) s

/-! ### Starting a group -/

/-- `s1` at a start (R308, R242). -/
def State.startS1 (s : State) : Word := BitVec.ofNat 32 (s.plat.dom.toNat * 2 ^ 20 + s.plat.pkg.toNat)

/-- The place of a unit at a level: the group's unit, its cluster (a quadrant is its own), its die (R317). -/
def levelPlace (level u : Nat) : Nat :=
  match level with
  | 1 => u
  | 2 => if u < 192 then u / 4 else 1000 + u
  | 3 => unitDie u
  | _ => 0

/-- The part of the launch that a group belongs to at its level (R317): a group is named by its ordinal, which it keeps
wherever it runs. -/
def Launch.instOf (x : Launch) (u ord : Nat) : Nat := if x.sync = 1 then ord else levelPlace x.sync u

/-- `dmem` of an agent of a launch (R317): level 5 counts the members on the other packages too (log 50). -/
def Launch.dmem (x : Launch) (u : Nat) : Word :=
  let per := if x.kind = 1 then 1 else x.waves
  let n := if x.sync = 1 then per
    else per * (x.place.filter (fun v => levelPlace x.sync v == levelPlace x.sync u)).length
  let n := if x.sync = 5 then n + Config.farMembers x.id else n
  if x.sync = 0 then 0 else BitVec.ofNat 32 (x.sync * 2 ^ 29 + n % 65536)

/-- An agent at the start of its group or task (R308); `args` are `s2` to `s7`. -/
def State.newAgent (s : State) (x : Launch) (profile : Profile) (u gw : Nat) (entry : DWord) (args : List Word) : Agent :=
  let regs := (s.startS1 :: args).zipIdx.foldl (fun t e => Tab.set 0 t (e.2 + 1) e.1) ([] : Tab Word)
  let d := x.desc.zipIdx.foldl (fun t e => Tab.set 0 t e.2 e.1) ([] : Tab Word)
  let ag : Agent :=
    { profile := profile, part := x.part, launch := x.id, die := BitVec.ofNat 8 (unitDie u), cu := BitVec.ofNat 8 (unitIdx u),
      slot := BitVec.ofNat 4 gw, gw := BitVec.ofNat 4 gw, inst := (s.unit u).inst, s := regs, d := d,
      rmode := x.rmode, seed := x.seed, dmem := (s.unit u).dmem, run := { pc := entry } }
  match profile with
  | .wave => { ag with x := seedLanes x.seed }.setBeat (BitVec.allOnes 96)
  | _ => ag

/-- The number of the agent in a slot of a unit. -/
def agentOf (u gw : Nat) : Nat := if u < 192 then 16 * u + gw else seqBase + (u - 192)

/-- Start an agent: its start is an acquire at `pk` (R308). -/
def State.startAgent (s : State) (x : Launch) (u gw : Nat) (entry : DWord) (args : List Word) : State :=
  let ag := s.newAgent x (if u < 192 then .wave else .sequencer) u gw entry args
  (s.acquire ag 3).putAgent (agentOf u gw) ag

/-- Start a task in a slot of a task group (R308, R311). -/
def State.startTask (s : State) (x : Launch) (u gw : Nat) (r : TaskRec) : State := s.startAgent x u gw r.entry r.args

/-- The arguments of an iteration: `s2` to `s7` (R308). -/
def Launch.iterArgs (x : Launch) (ord : Nat) (idx : List Nat) : List Word :=
  [BitVec.ofNat 32 ord] ++ (List.range 3).map (fun i => BitVec.ofNat 32 (nth 0 idx i)) ++ [BitVec.ofNat 32 x.total, 0]

/-- The plots that are bound to an operation of a group that has left the unit: they flip back when it completes (R66,
R293). -/
def UnitSt.boundPlots (x : UnitSt) : Tab Plot := x.plots.filter (fun e => e.2.bound.isSome)

/-- The unit of a new group: every plot on unit side and unbound, no tags, windows or deque; the activation banks and the side
log stay with the CU (R64, R189, R236, R244, R308). -/
def UnitSt.newGroup (x : UnitSt) (l : Launch) (ord waves tokens : Nat) (now : DWord) (leader : Nat) : UnitSt :=
  { x with ustate := .running, part := l.part, launch := l.id, ord := ord, inst := l.instOf leader ord, dmem := l.dmem leader,
           waves := waves, start := now, sliceAt := now, leader := leader,
           plots := [], tags := [], wins := [], deque := [], tokens := tokens }

/-- Start the group of a packet at its unit (R303, R308, R311): reserve the members, zero the scratchpads, start the waves or the
sequencer. -/
def State.startGroup (s : State) (x : Launch) (k : Packet) : State :=
  let u := k.dest
  let us := unitSet x.kind x.waves u
  let n := if x.kind = 1 then 1 else x.waves
  let s := us.foldl (fun t v =>
    let y := (t.unit v).newGroup x k.ord n (if v = u then x.ptok else 0) s.ntime u
    let t := t.putUnit v (if v = u then y else { y with ustate := .reserved })
    let t := { t with mem := Tab.dropRange t.mem (spadBase v) (spadSize v), ms := { t.ms with code := Tab.erase t.ms.code v, own := Tab.erase t.ms.own v } }
    if 192 ≤ v then t.putQuad (v - 192) {} else t) s
  let s := s.putLaunch { x with live := x.live ++ [u] }
  if x.kind = 2 then
    if k.ord = 0 then s.startAgent x u 0 x.entry (List.replicate 6 0) else s
  else (List.range n).foldl (fun t gw => t.startAgent x u gw x.entry (x.iterArgs k.ord k.idx)) s

/-! ### Ending groups and launches -/

/-- Release what a group's windows reserved (R248, R249): its own bindings go, those to it find it ended. -/
def State.dropBindings (s : State) (g : Nat) : State :=
  { s with fab := { s.fab with
      binds := (s.fab.binds.filter (fun e => e.2.inward || e.2.srcUnit != g)).map (fun e =>
        if e.2.dstPkg = s.plat.pkg.toNat ∧ e.2.dstUnit = g ∧ !e.2.saved then (e.1, { e.2 with ended := true }) else e) } }

/-- The unit a group left: free, what stays with the CU kept (R66, R189, R332). -/
def UnitSt.freed (x : UnitSt) : UnitSt :=
  { plots := x.boundPlots, holder := x.holder, act0 := x.act0, act1 := x.act1, front := x.front, slog := x.slog, slogQ := [], temp := x.temp,
    sfu := x.sfu }

/-- Forget a group's number: no later acknowledgement returns to another group on the unit. -/
def State.forgetGroup (s : State) (g : Nat) : State := (s.dropBindings g).renameGroup (fun v => if v = g then ghostBase else v)

/-- Refuse the command blocks that wait at a quadrant whose group leaves it: status 2 (R326). DESIGN CHOICE (log 128), where the
rule is silent: so is a block of which commands are dispatched, where the group ends or is lost. -/
def State.refuseBlocks (s : State) (q : Nat) : State :=
  (s.quad q).inq.foldl (fun t b => t.updAny b.agent (fun ag => match ag.wait with
    | .remq none => { ag with wait := .remq (some 2) }
    | _ => ag)) s

/-- Free the unit or the quadrant set of a group that has ended or left, and return its tokens (R316, R320). -/
def State.freeUnit (s : State) (u : Nat) : State :=
  let x := s.unit u
  let s := s.pwrGive x.part x.tokens
  let us := if 192 ≤ u then (List.range' 192 32).filter (fun v => v = u ∨ ((s.unit v).ustate = .reserved ∧ (s.unit v).leader = u))
    else [u]
  us.foldl (fun t v => (if 192 ≤ v then (t.refuseBlocks (v - 192)).putQuad (v - 192) {} else t).putUnit v (t.unit v).freed) s

/-- The entries of a launch that are still armed are freed, its held fires are dropped, and its completion is reported
(R316). -/
def State.completeLaunch (s : State) (l : Nat) (killed : Bool) : State :=
  let armed := (s.hub.deps.filter (fun e => e.2.launch == l)).length
  { s with
    hub := { s.hub with launches := Tab.erase s.hub.launches l, deps := s.hub.deps.filter (fun e => e.2.launch != l),
                        fires := s.hub.fires.filter (fun f => f.launch != l) },
    plat := { s.plat with hostQ := s.plat.hostQ ++ [.launchDone l killed armed] } }

/-- The agent ends: what it has in flight goes on without it, its pending writes under a number of their own; an entry of its
CU's SFU queue that a kill cuts off is dropped (R183, R293, R338). -/
def State.retireAgent (s : State) (id : Nat) : State :=
  match s.agent? id with
  | none => s
  | some ag =>
    let g := ghostBase + s.fab.nextOp
    let s := s.renameAgent (fun a => if a = id then g else a)
    let s := { s with units := s.units.map (fun (e : Nat × UnitSt) => (e.1, { e.2 with sfu := e.2.sfu.filter (fun x => x.agent != id) })) }
    let s := { s with agents := Tab.erase s.agents id, fab := { s.fab with nextOp := s.fab.nextOp + 1 } }
    if ag.pend.isEmpty && ag.mods.isEmpty then s
    else s.putAgent g { ag with live := false, wait := .none, opens := [], h := [], stk := [], depth := 0, run := {} }

/-- End the group on a unit: its launch no longer counts it (R293, R316). -/
def State.endGroup (s : State) (u : Nat) : State :=
  let l := (s.unit u).launch
  let s := (s.forgetGroup u).freeUnit u
  match s.launch? l with
  | some x => s.putLaunch { x with live := x.live.filter (fun v => v != u) }
  | none => s

/-- The agents of a launch, live ones in running and in saved groups. -/
def State.launchAgents (s : State) (l : Nat) : List Nat :=
  (s.agents.filter (fun e => e.2.live && e.2.launch == l && e.2.profile != .host)).map (fun e => e.1) ++
    s.hub.saves.flatMap (fun e => if e.2.launch = l then e.2.agents.map (fun a => a.1) else [])

/-- Whether a launch is complete (R316): a loop-nest launch once every ordinal is dispatched and every group has ended; a
task launch, whose first wave starts with its first group, once no wave of it is live and no deque holds a record. -/
def State.launchOver (s : State) (x : Launch) : Bool :=
  (if x.kind = 2 then decide (1 ≤ x.next) && !s.hub.packets.any (fun k => k.launch == x.id && k.pkind == 1 && k.ord == 0)
    else decide (x.total ≤ x.next) && !s.hub.packets.any (fun k => k.launch == x.id)) &&
  (if x.kind = 2 then
    (s.launchAgents x.id).isEmpty && x.live.all (fun u => (s.unit u).deque.isEmpty) &&
      x.saved.all (fun c => (Tab.get {} s.hub.saves c).grp.deque.isEmpty)
  else x.live.isEmpty && x.saved.isEmpty)

/-- Drop a saved context. -/
def State.dropSaved (s : State) (c : Nat) : State :=
  let s := s.forgetGroup (savedGroup c)
  { s with
    hub := { s.hub with saves := Tab.erase s.hub.saves c },
    fab := { s.fab with binds := s.fab.binds.map (fun e =>
      if e.2.saved ∧ e.2.dstUnit = c then (e.1, { e.2 with ended := true }) else e) } }

/-- Take back the packets of a launch that are in flight, with their tokens (R316, R320, R338). -/
def State.dropPackets (s : State) (x : Launch) : State :=
  let n := (s.hub.packets.filter (fun k => k.launch == x.id)).length
  let s := s.pwrGive x.part (n * x.ptok)
  { s with hub := { s.hub with packets := s.hub.packets.filter (fun k => k.launch != x.id) } }

/-- Complete a launch if it is over; a task launch's groups end with it, those on their way too (R316). -/
def State.checkLaunch (s : State) (l : Nat) : State :=
  match s.launch? l with
  | none => s
  | some x =>
    if s.launchOver x then
      let s := x.live.foldl (fun t u => t.endGroup u) s
      let s := x.saved.foldl (fun t c => t.dropSaved c) s
      (s.dropPackets x).completeLaunch l false
    else s

/-- An agent's end is complete (R293): its group ends with its last wave; a task group's slot is free again. -/
def State.endAgent (s : State) (id : Nat) : State :=
  match s.agent? id with
  | none => s
  | some ag =>
    let u := ag.unit
    let s := (s.retireAgent id).widow u ag.gw.toNat
    let task := match s.launch? ag.launch with
      | some x => x.kind == 2
      | none => false
    let s := if !task && (s.agentsOn u).isEmpty && ((s.unit u).ustate == .running || (s.unit u).ustate == .saving) then s.endGroup u else s
    s.checkLaunch ag.launch

/-- Remove the agents of a group with all they have open (R338, R358). -/
def State.killAgents (s : State) (u : Nat) : State := (s.agentsOn u).foldl (fun t e => t.retireAgent e.1) s

/-- KILL of a launch (R338): its groups end without being saved, and its completion is reported as killed. -/
def State.killLaunch (s : State) (l : Nat) : State :=
  match s.launch? l with
  | none => s
  | some x =>
    let s := x.live.foldl (fun t u => (t.killAgents u).endGroup u) s
    let s := x.saved.foldl (fun t c => t.dropSaved c) s
    (s.dropPackets x).completeLaunch l true

/-! ### Pre-emption -/

/-- A gang is being pre-empted: another group of it is being saved, or is saved and not on its way back (R317). -/
def State.gangLeaves (s : State) (l u : Nat) : Bool :=
  match s.launch? l with
  | some x => x.gang && ((x.live.any (fun v => v != u && (s.unit v).ustate == .saving)) || !(s.savedOf x).isEmpty)
  | none => false

/-- Begin the save of the group on a unit (R355); every group of a gang with it, one whose packet is on its way as soon as it has
come (R317). -/
def State.preempt (s : State) (u : Nat) : State :=
  let one := fun (t : State) (v : Nat) =>
    let x := t.unit v
    if x.ustate = .running then t.putUnit v { x with ustate := .saving } else t
  match s.launch? (s.unit u).launch with
  | some x => if x.gang then x.live.foldl one s else one s u
  | none => one s u

/-! ### The dependency table (R315) -/

/-- The entries of the dependency table (R315). -/
def depEntries : Nat := 65536

/-- The entry an index names in a partition's range. -/
def State.depIndex (s : State) (p i : Nat) : Option Nat :=
  match Tab.find? s.hub.parts p with
  | some c => if c.depLo + i < min c.depHi depEntries then some (c.depLo + i) else none
  | none => none

/-- The bytes of an input range that a vector die's cache holds (R315). -/
def State.heldBytes (s : State) (p die : Nat) (r : DWord × Nat) : Nat :=
  ((List.range r.2).filter (fun i =>
    match s.walkFlat p (r.1.toNat + i) .read with
    | .ok x =>
      let pa := pteBase x.pte + (r.1.toNat + i - x.base)
      (Tab.get [] s.ms.dir (pa / 256)).any (fun e =>
        e.peer + 8 == die && decide (e.lo ≤ pa % 256 / 4) && decide (pa % 256 / 4 ≤ e.hi))
    | _ => false)).length

/-- A vector die holds a task group of the launch (R315). -/
def State.dieHasGroup (s : State) (l die : Nat) : Bool :=
  (List.range 48).any (fun c => s.taskGroup (48 * (die - 10) + c) l)

/-- The dies that tie for a fired task: those of the greatest share among the dies with a task group (R315). -/
def State.tiedDies (s : State) (l p : Nat) (inputs : List (DWord × Nat)) : List Nat :=
  let ds := [10, 11, 12, 13].filter (s.dieHasGroup l)
  let share := fun d => (inputs.map (s.heldBytes p d)).sum
  let best := (ds.map share).foldl max 0
  ds.filter (fun d => share d == best)

/-- Put a fired task on the lowest-numbered CU of a die with a free deque record, else in `spillq`, else hold it
(R315). -/
def State.placeFire (s : State) (l p : Nat) (r : TaskRec) (inputs : List (DWord × Nat)) (die : Option Nat) : State :=
  let cu := die.bind (fun d => (List.range 48).map (fun c => 48 * (d - 10) + c) |>.find? (fun u =>
    s.taskGroup u l && decide ((s.unit u).deque.length < dequeCap)))
  match cu with
  | some u => s.putUnit u { s.unit u with deque := (s.unit u).deque ++ [r] }
  | none =>
    match s.launch? l with
    | some x =>
      if x.spillq ≠ 0xFFFF ∧ s.tqOn p x.spillq ∧ !s.tqFull p x.spillq then s.tqAppend p x.spillq r
      else
        let f : HeldFire := { id := s.fab.nextOp, launch := l, part := p, task := r, dies := die.toList, inputs := inputs }
        { s with hub := { s.hub with fires := s.hub.fires ++ [f] }, fab := { s.fab with nextOp := s.fab.nextOp + 1 } }
    | none => s

/-- A dependency entry fires (R315): where dies tie and policy code is in use, its dispatch entry point picks the die. -/
def State.fire (s : State) (e : Nat) (x : DepEnt) : State :=
  let s := { s with hub := { s.hub with deps := Tab.erase s.hub.deps e } }
  let ds := s.tiedDies x.launch x.part x.inputs
  if 1 < ds.length ∧ s.polRuns x.part then
    let n := s.fab.nextOp
    let f : HeldFire := { id := n, launch := x.launch, part := x.part, task := x.task, dies := ds, inputs := x.inputs }
    let s := { s with hub := { s.hub with fires := s.hub.fires ++ [f] }, fab := { s.fab with nextOp := n + 1 } }
    let q1 := (ds.map (fun d => 2 ^ (d - 10))).sum
    s.raiseEvent x.part { trig := 3, q1 := BitVec.ofNat 32 q1, q3 := 0, who := n }
  else s.placeFire x.launch x.part x.task x.inputs ds.head?

end Sys2Proof.Machine
end

