-- ==== Sys2Proof/Machine/Sync.lean ====
section
/-! DEFINITION. Ordering and synchronisation: FENCE (R234), barriers (R235 to R237), DBAR (R238, R317), WAITW and WAKEW
(R239, R240). -/
namespace Sys2Proof.Machine

/-! ### FENCE -/

/-- The order entries of an agent's open accesses that a FENCE waits for. -/
def Agent.fencing (ag : Agent) : Bool := ag.opens.any fun e => match e.kind with
  | .fenceRel _ _ => true
  | .fenceAcq => true
  | _ => false

/-- FENCE (R234): its release and its acquire are steps of the ordering machine; the agent waits for them, and a
FENCE.ack reports an error acknowledgement. -/
def execFence (scope : BitVec 3) (ack log : Bool) (g : BitVec 2) (s : State) : Out :=
  issueOnce anyProfile g s fun id ag =>
    match ag.wait with
    | .fence =>
      if ag.fencing then waitFor s id ag .fence
      else retire s id (if ack then ag.reportErr else ag)
    | _ =>
      let sc := ag.flatScope scope.toNat
      let tag := ag.nextTag + 1
      waitFor s id
        { ag with nextTag := tag,
                  opens := ag.opens ++ [{ kind := .fenceRel log ack, scope := sc, tag := tag },
                                        { kind := .fenceAcq, scope := sc, tag := tag }] } .fence

/-! ### Barriers -/

/-- The word of a barrier object (R236). -/
def barWord (phase : Word) (expected arrived : Nat) : DWord :=
  (phase.zeroExtend 64 <<< 32) ||| BitVec.ofNat 64 (expected * 65536 + arrived)
/-- `phase` (R236). -/
def barPhase (w : DWord) : Word := w.extractLsb' 32 32
/-- `expected` (R236). -/
def barExpected (w : DWord) : Nat := (w.extractLsb' 16 5).toNat
/-- `arrived` (R236). -/
def barArrived (w : DWord) : Nat := (w.extractLsb' 0 5).toNat

/-- The doubleword at an own-scratchpad offset. -/
def State.barAt (s : State) (u off : Nat) : DWord := s.spWord u off 8
/-- Write a barrier's word. -/
def State.putBar (s : State) (u off : Nat) (w : DWord) : State := s.spadStore u off (leBytes 8 w.toNat)

/-- The address check of the barrier instructions (R237): the trap it raises. -/
def State.barTrap (s : State) (u a : Nat) : Option (Nat × DWord) :=
  if a % 8 ≠ 0 ∨ spadSize u < a + 8 then some (0x05, BitVec.ofNat 64 a)
  else
    match s.enginePlot u a 8 with
    | some p => some (0x06, BitVec.ofNat 64 p)
    | none => none

/-- The end of a barrier wait (R237): wait until the phase differs from the token, acquire at `gp`, write the phase. -/
def barWait (s : State) (id : Nat) (ag : Agent) (d a : Nat) (tok : Word) : State :=
  let ph := barPhase (s.barAt ag.unit a)
  if ph = tok then waitFor s id ag (.barrier a tok)
  else retire (s.acquire ag 1) id (ag.sSet d ph)

/-- Arrive at a barrier: in one step the count, and the phase's advance when it is complete (R237). -/
def State.arrive (s : State) (u a : Nat) : State :=
  let w := s.barAt u a
  let n := barArrived w + 1
  s.putBar u a (if n = barExpected w then barWord (barPhase w + 1) (barExpected w) 0
    else barWord (barPhase w) (barExpected w) n)

/-- BAR and BARA (R237). -/
def barrierOp (arriveOnly : Bool) (g : BitVec 2) (d : BitVec 6) (a b : Src) (s : State) : Out :=
  issueOnce waveOnly g s fun id ag =>
    let u := ag.unit
    let p := (ag.src a).toNat
    match ag.wait with
    | .barrier q tok => barWait s id ag d.toNat q tok
    | _ =>
      match s.barTrap u p with
      | some (c, v) => trapHere s id ag c v
      | none =>
        let n := (ag.src b).toNat
        let w := s.barAt u p
        let tagged := (s.unit u).tags.contains p
        let clobber := trapHere s id ag 0x07 (BitVec.ofNat 64 p)
        if tagged ∧ n = 0 ∧ arriveOnly ∧ barArrived w = 0 then
          let x := s.unit u
          retire (s.putUnit u { x with tags := x.tags.filter (fun t => t != p) }) id (ag.sSet d.toNat (barPhase w))
        else if (tagged ∧ n ≠ barExpected w) ∨ (!tagged ∧ (n = 0 ∨ 16 < n)) then clobber
        else
          let s := if tagged then s
            else
              let x := s.unit u
              (s.putUnit u { x with tags := p :: x.tags }).putBar u p (barWord 0 n 0)
          if !s.releaseNow id ag 1 then waitFor s id ag .again
          else
            let ph := barPhase (s.barAt u p)
            let s := s.arrive u p
            if arriveOnly then retire s id (ag.sSet d.toNat ph)
            else barWait s id ag d.toNat p ph

/-- BAR (R237). -/
def execBar (g : BitVec 2) (d : BitVec 6) (a b : Src) (s : State) : Out := barrierOp false g d a b s
/-- BARA (R237). -/
def execBara (g : BitVec 2) (d : BitVec 6) (a b : Src) (s : State) : Out := barrierOp true g d a b s
/-- BARW (R237). -/
def execBarw (g : BitVec 2) (d : BitVec 6) (a b : Src) (s : State) : Out :=
  issueOnce waveOnly g s fun id ag =>
    match ag.wait with
    | .barrier q tok => barWait s id ag d.toNat q tok
    | _ =>
      let p := (ag.src a).toNat
      match s.barTrap ag.unit p with
      | some (c, v) => trapHere s id ag c v
      | none =>
        if !(s.unit ag.unit).tags.contains p then trapHere s id ag 0x07 (BitVec.ofNat 64 p)
        else if ag.barred then waitFor s id ag .again
        else barWait s id ag d.toNat p (ag.src b)

/-! ### DBAR -/

/-- The level of the agent's synchronisation domain (R317): 0 none. -/
def Agent.domLevel (ag : Agent) : Nat := (ag.dmem.extractLsb' 29 3).toNat
/-- The members of the domain (R317). -/
def Agent.domMembers (ag : Agent) : Nat := (ag.dmem.extractLsb' 0 16).toNat

/-- The scope of DBAR and ALLRED at a level (R238). -/
def domScope (level : Nat) : Nat := nth 4 [0, 1, 2, 3, 3, 4] level

/-- The member's place in the contributor order: package, die, unit index, wave number (R255). -/
def State.memberKey (s : State) (ag : Agent) : Nat :=
  ((s.plat.pkg.toNat * 256 + ag.die.toNat) * 256 + ag.unit) * 16 + ag.gwN

/-- The number of the n-th DBAR or ALLRED of the agent's domain, if someone has arrived at it (R238, R260). -/
def State.redn (s : State) (ag : Agent) (all : Bool) (n : Nat) : Option (Nat × Redn) :=
  List.find? (fun (e : Nat × Redn) => e.2.launch == ag.launch && e.2.inst == ag.inst && e.2.n == n && e.2.allred == all)
    s.fab.redns

/-- Record an arrival (R238, R260). -/
def State.arriveAt (s : State) (ag : Agent) (all : Bool) (n : Nat) (a : Arrival) : State :=
  match s.redn ag all n with
  | some (k, r) => { s with fab := { s.fab with redns := Tab.put s.fab.redns k { r with arr := r.arr ++ [a] } } }
  | none =>
    let r : Redn := { launch := ag.launch, inst := ag.inst, n := n, allred := all, members := ag.domMembers, arr := [a] }
    { s with fab := { s.fab with redns := Tab.put s.fab.redns s.fab.nextOp r, nextOp := s.fab.nextOp + 1 } }

/-- One member has gone on; the record is dropped with the last (R317). -/
def State.takeResult (s : State) (k : Nat) (r : Redn) : State :=
  let t := if r.taken + 1 = r.members then Tab.erase s.fab.redns k
    else Tab.put s.fab.redns k { r with taken := r.taken + 1 }
  { s with fab := { s.fab with redns := t } }

/-- DBAR (R238); without a domain it is a `fence.wv.ack`, which waits for a sequencer's queue entries too (R195, R234). -/
def execDbar (g : BitVec 2) (d : BitVec 6) (s : State) : Out :=
  issueOnce notHost g s fun id ag =>
    let sc := domScope ag.domLevel
    let finish := fun (s : State) (ag : Agent) (n : Nat) =>
      match s.redn ag false n with
      | some (k, r) =>
        if r.members ≤ r.arr.length then
          let s := (s.acquire ag (ag.flatScope sc)).takeResult k r
          retire s id (ag.reportErr.sSet d.toNat (BitVec.ofNat 32 n))
        else waitFor s id ag (.dbar n)
      | none => waitFor s id ag (.dbar n)
    match ag.wait with
    | .dbar n => finish s ag n
    | _ =>
      if ag.domLevel = 0 then
        if !s.releaseNow id ag 0 || !s.dispatchedDone ag (ag.nextTag + 1) || s.postedOpen id then waitFor s id ag .again
        else retire s id (ag.reportErr.sSet d.toNat 0)
      else if !s.releaseNow id ag (ag.flatScope sc) || s.postedOpen id then waitFor s id ag .again
      else
        let n := ag.nDbar + 1
        let s := s.arriveAt ag false n { key := s.memberKey ag, agent := id }
        finish s { ag with nDbar := n } n

/-! ### WAITW, WAKEW -/

/-- WAITW re-reads: out of its slot it stays so (R239). -/
def waitwAgain (s : State) (id : Nat) (ag : Agent) (ea : DWord) : State :=
  waitFor s id ag (match ag.wait with
    | .waitwOut _ => .waitwOut ea
    | _ => .waitw ea)

/-- WAITW has read its word: it goes on once the word differs, as an acquire (R239). -/
def waitwRead (s : State) (id : Nat) (ag : Agent) (d : Nat) (ea : DWord) (v cmp : Word) (sc : Nat) : State :=
  if v = cmp then waitwAgain s id ag ea else retire (s.acquire ag sc) id (ag.sSet d v)

/-- WAITW (R239). -/
def execWaitw (g : BitVec 2) (d : BitVec 6) (a b : Src) (s : State) : Out :=
  issueOnce waveOnly g s fun id ag =>
    let ea := ag.srcP a
    let cmp := ag.src b
    if ea.getLsbD 63 then
      if s.tagBad ag ea 4 then addrTrap s id ag ea
      else
        match s.enginePlot ag.unit (spPart ea) 4 with
        | some p => trapHere s id ag 0x06 (BitVec.ofNat 64 p)
        | none =>
          if ag.barred then waitFor s id ag .again
          else waitwRead s id ag d.toNat ea ((s.spWord ag.unit (spPart ea) 4).extractLsb' 0 32) cmp 1
    else
      let x : Lane := { l := 0, va := ea, key := .flat ea, n := 4 }
      match ag.wait with
      | .waitwGot _ v => waitwRead s id { ag with wait := .none } d.toNat ea v cmp 3
      | _ =>
        if x.bad then addrTrap s id ag ea
        else
          match s.target ag .read x.key with
          | .protect => addrTrap s id ag ea
          | .absent => s.hold id ag x .read
          | .walking => waitwAgain s id ag ea
          | .remote p =>
            if ag.opens.any (fun o => o.dst == .waitw) then waitwAgain s id ag ea
            else
              let tag := ag.nextTag + 1
              waitwAgain s.sendOff id
                { ag with nextTag := tag,
                          opens := ag.opens ++ [{ kind := .load, loc := .remote p ea, size := 4, acq := true, scope := 3,
                                                  dst := .waitw, va := ea, tag := tag, born := s.ntime }] } ea
          | .mem pa y =>
            let asker := ag
            let ag := ag.enter x.key y
            if s.replaying ag.part x.key then s.hold id ag x .read
            else if !s.answers ag y pa then addrTrap (s.violationOf ag (pteSlot y.pte) pa) id ag ea
            else
              let acc : Access := { kind := .load, loc := .mem pa (pteUnc y.pte) (pteSlot y.pte), size := 4 }
              if ag.barred || ag.opens.any (fun o => o.overlaps acc) then waitwAgain s id ag ea
              else
                let s := (((s.noteAgXlat asker y).putAgent id ag).acquire ag 3).noteRead id ag y pa 4
                waitwRead s id ((s.agent? id).getD ag) d.toNat ea
                  (BitVec.ofNat 32 (leVal (s.pkSeeN ag.part (pteSlot y.pte) pa 4))) cmp 3

/-- WAKEW (R240). -/
def execWakew (g : BitVec 2) (a : Src) (s : State) : Out :=
  issueOnce waveOnly g s fun id ag =>
    let ea := ag.srcP a
    let own := ea.getLsbD 63
    if (if own then s.tagBad ag ea 1 else !flatOk ea) then addrTrap s id ag ea
    else if !s.releaseNow id ag (if own then 1 else 3) then waitFor s id ag .again
    else retire (s.wake ag ea) id ag

end Sys2Proof.Machine
end

