-- ==== Sys2Proof/Machine/VectorFloat.lean ====
section
/-! DEFINITION. Vector floating point: majors 0x0C to 0x0F (R174 to R182), VSCALE (R171) and the compact forms of R191.
Wave profile only (R119). -/
namespace Sys2Proof.Machine

/-- `rmode.rm` (R85). -/
def Agent.rm (ag : Agent) : Nat := (ag.rmode.extractLsb' 0 3).toNat
/-- `rmode.ftz` (R85). -/
def Agent.ftz (ag : Agent) : Bool := ag.rmode.getLsbD 3
/-- The rounding mode of a rounding-code field: 7 is `rmode.rm` (R84, R174). -/
def Agent.mode (ag : Agent) (b : BitVec 6) : Nat := if b = 7 then ag.rm else b.toNat

/-- Under RS each active lane draws once (R86, R175). -/
def Agent.drawLanes (ag : Agent) (mode : Nat) (act : Mask) : Agent :=
  if mode = 4 then
    { ag with x := lanes (fun l => if act.getLsbD l then nextDraw (Tab.get 0 ag.x l) else Tab.get 0 ag.x l) }
  else ag

/-- The draw of a lane, made by `drawLanes` (R86). -/
def Agent.drawOf (ag : Agent) (l : Nat) : Nat := (nextDraw (Tab.get 0 ag.x l)).toNat

/-- The OR of the flags over the lanes of a mask (R88). -/
def orLanes (act : Mask) (f : Nat → Fl) : Fl := (lanesOf act).foldl (fun x l => x ||| f l) 0

/-- Write lane results with their flags: 32-bit codes (R175). -/
def Agent.putF (ag : Agent) (d : Nat) (act : Mask) (r : Nat → Nat × Fl) : Agent :=
  (ag.vSet d act (fun l => BitVec.ofNat 32 (r l).1)).orFlags (orLanes act (fun l => (r l).2))
/-- Write lane results with their flags: 64-bit codes in a pair. -/
def Agent.putD (ag : Agent) (d : Nat) (act : Mask) (r : Nat → Nat × Fl) : Agent :=
  (ag.vpSet d act (fun l => BitVec.ofNat 64 (r l).1)).orFlags (orLanes act (fun l => (r l).2))

/-- An FP32 arithmetic function (R176). -/
def fp32Op (o : FOp) (g : BitVec 2) (d : BitVec 6) (a b : Src) (s : State) : Out :=
  vecOp g s fun act ag =>
    (ag.drawLanes ag.rm act).putF d.toNat act (fun l =>
      fArith .fp32 o ag.rm (ag.drawOf l) ag.ftz (ag.vsrc a l).toNat (ag.vsrc b l).toNat (ag.vGet d.toNat l).toNat)

/-- An FP64 arithmetic function on pairs (R176). -/
def fp64Op (o : FOp) (g : BitVec 2) (d : BitVec 6) (a b : Src) (s : State) : Out :=
  vecOp g s fun act ag =>
    (ag.drawLanes ag.rm act).putD d.toNat act (fun l =>
      fArith .fp64 o ag.rm (ag.drawOf l) ag.ftz (ag.vsrcD a l).toNat (ag.vsrcD b l).toNat (ag.vpGet d.toNat l).toNat)

/-- A bit function of FlushIn(a), without flags (R178). -/
def fp32Bits (f : Word → Word) (g : BitVec 2) (d : BitVec 6) (a : Src) (s : State) : Out :=
  vecOp g s fun act ag =>
    ag.vSet d.toNat act (fun l => f (BitVec.ofNat 32 (Fmt.fp32.flushIn ag.ftz (ag.vsrc a l).toNat)))

/-- A float comparison into a predicate (R180). -/
def floatCmp (c : FCond) (dbl : Bool) (g : BitVec 2) (d : BitVec 6) (a b : Src) (s : State) : Out :=
  vecOp g s fun act ag =>
    let r := fun l =>
      if dbl then fCompare .fp64 c ag.ftz (ag.vsrcD a l).toNat (ag.vsrcD b l).toNat
      else fCompare .fp32 c ag.ftz (ag.vsrc a l).toNat (ag.vsrc b l).toNat
    (ag.kSet d.toNat act (maskOf (fun l => (r l).1))).orFlags (orLanes act (fun l => (r l).2))

/-! ### Major 0x0C -/

/-- VFADD (R176). -/
def execVfadd (g : BitVec 2) (d : BitVec 6) (a b : Src) (s : State) : Out :=
  fp32Op .add g d a b s
/-- VFSUB (R176). -/
def execVfsub (g : BitVec 2) (d : BitVec 6) (a b : Src) (s : State) : Out :=
  fp32Op .sub g d a b s
/-- VFMUL (R176). -/
def execVfmul (g : BitVec 2) (d : BitVec 6) (a b : Src) (s : State) : Out :=
  fp32Op .mul g d a b s
/-- VFMA (R176). -/
def execVfma (g : BitVec 2) (d : BitVec 6) (a b : Src) (s : State) : Out :=
  fp32Op .fma g d a b s
/-- VFMS (R176). -/
def execVfms (g : BitVec 2) (d : BitVec 6) (a b : Src) (s : State) : Out :=
  fp32Op .fms g d a b s
/-- VFNMA (R176). -/
def execVfnma (g : BitVec 2) (d : BitVec 6) (a b : Src) (s : State) : Out :=
  fp32Op .fnma g d a b s
/-- VFMIN (R177). -/
def execVfmin (g : BitVec 2) (d : BitVec 6) (a b : Src) (s : State) : Out :=
  vecOp g s fun act ag =>
    ag.putF d.toNat act (fun l => fMinMax .fp32 false ag.ftz (ag.vsrc a l).toNat (ag.vsrc b l).toNat)
/-- VFMAX (R177). -/
def execVfmax (g : BitVec 2) (d : BitVec 6) (a b : Src) (s : State) : Out :=
  vecOp g s fun act ag =>
    ag.putF d.toNat act (fun l => fMinMax .fp32 true ag.ftz (ag.vsrc a l).toNat (ag.vsrc b l).toNat)
/-- VFABS (R178). -/
def execVfabs (g : BitVec 2) (d : BitVec 6) (a : Src) (s : State) : Out :=
  fp32Bits (fun x => x &&& 0x7FFFFFFF) g d a s
/-- VFNEG (R178). -/
def execVfneg (g : BitVec 2) (d : BitVec 6) (a : Src) (s : State) : Out :=
  fp32Bits (fun x => x ^^^ 0x80000000) g d a s
/-- VFCLASS (R178). -/
def execVfclass (g : BitVec 2) (d : BitVec 6) (a : Src) (s : State) : Out :=
  vecOp g s fun act ag =>
    ag.vSet d.toNat act (fun l => BitVec.ofNat 32 (fClass ag.ftz (ag.vsrc a l).toNat))
/-- VFRND (R179). -/
def execVfrnd (g : BitVec 2) (d : BitVec 6) (a : Src) (b : BitVec 6) (s : State) : Out :=
  vecOp g s fun act ag =>
    (ag.drawLanes (ag.mode b) act).putF d.toNat act (fun l =>
      fRound (ag.mode b) (ag.drawOf l) ag.ftz (ag.vsrc a l).toNat)

/-! ### Major 0x0D -/

/-- VDADD (R176). -/
def execVdadd (g : BitVec 2) (d : BitVec 6) (a b : Src) (s : State) : Out :=
  fp64Op .add g d a b s
/-- VDSUB (R176). -/
def execVdsub (g : BitVec 2) (d : BitVec 6) (a b : Src) (s : State) : Out :=
  fp64Op .sub g d a b s
/-- VDMUL (R176). -/
def execVdmul (g : BitVec 2) (d : BitVec 6) (a b : Src) (s : State) : Out :=
  fp64Op .mul g d a b s
/-- VDFMA (R176). -/
def execVdfma (g : BitVec 2) (d : BitVec 6) (a b : Src) (s : State) : Out :=
  fp64Op .fma g d a b s
/-- VDMIN (R177). -/
def execVdmin (g : BitVec 2) (d : BitVec 6) (a b : Src) (s : State) : Out :=
  vecOp g s fun act ag =>
    ag.putD d.toNat act (fun l => fMinMax .fp64 false ag.ftz (ag.vsrcD a l).toNat (ag.vsrcD b l).toNat)
/-- VDMAX (R177). -/
def execVdmax (g : BitVec 2) (d : BitVec 6) (a b : Src) (s : State) : Out :=
  vecOp g s fun act ag =>
    ag.putD d.toNat act (fun l => fMinMax .fp64 true ag.ftz (ag.vsrcD a l).toNat (ag.vsrcD b l).toNat)

/-! ### Major 0x0E -/

/-- VFCMP_EQ (R180). -/
def execVfcmpEq (dbl : Bool) (g : BitVec 2) (d : BitVec 6) (a b : Src) (s : State) : Out :=
  floatCmp .eq dbl g d a b s
/-- VFCMP_NE (R180). -/
def execVfcmpNe (dbl : Bool) (g : BitVec 2) (d : BitVec 6) (a b : Src) (s : State) : Out :=
  floatCmp .ne dbl g d a b s
/-- VFCMP_LT (R180). -/
def execVfcmpLt (dbl : Bool) (g : BitVec 2) (d : BitVec 6) (a b : Src) (s : State) : Out :=
  floatCmp .lt dbl g d a b s
/-- VFCMP_LE (R180). -/
def execVfcmpLe (dbl : Bool) (g : BitVec 2) (d : BitVec 6) (a b : Src) (s : State) : Out :=
  floatCmp .le dbl g d a b s
/-- VFCMP_GT (R180). -/
def execVfcmpGt (dbl : Bool) (g : BitVec 2) (d : BitVec 6) (a b : Src) (s : State) : Out :=
  floatCmp .gt dbl g d a b s
/-- VFCMP_GE (R180). -/
def execVfcmpGe (dbl : Bool) (g : BitVec 2) (d : BitVec 6) (a b : Src) (s : State) : Out :=
  floatCmp .ge dbl g d a b s
/-- VFCMP_UN (R180). -/
def execVfcmpUn (dbl : Bool) (g : BitVec 2) (d : BitVec 6) (a b : Src) (s : State) : Out :=
  floatCmp .un dbl g d a b s
/-- VFCMP_ORD (R180). -/
def execVfcmpOrd (dbl : Bool) (g : BitVec 2) (d : BitVec 6) (a b : Src) (s : State) : Out :=
  floatCmp .ord dbl g d a b s

/-! ### Major 0x0F -/

/-- The pair of formats of a conversion's code; code 31 is not assigned and never decoded (R181). -/
def cvtPair (p : BitVec 5) : Fmt × Fmt × CvtKind := nth (.fp64, .fp32, .exact) cvtPairs p.toNat

/-- The source code of a conversion in a lane: a register or pair; a literal as its format takes it (R108, R181). -/
def Agent.cvtSrc (ag : Agent) (src : Fmt) (a : Src) (l : Nat) : Nat :=
  match src with
  | .fp64 => (ag.vsrcD a l).toNat
  | .int64 => (ag.vsrcP a l).toNat
  | _ => (ag.vsrc a l).toNat

/-- VCVT (R181, R182). -/
def execVcvt (pair : BitVec 5) (g : BitVec 2) (d : BitVec 6) (a : Src) (b : BitVec 6) (s : State) : Out :=
  vecOp g s fun act ag =>
    let (dst, src, kind) := cvtPair pair
    let mode := ag.mode b
    let draws := if kind = .rounding then ag.drawLanes mode act else ag
    let r := fun l => convertCode dst src kind mode (ag.drawOf l) ag.ftz (ag.cvtSrc src a l)
    if dst.bits = 64 then draws.putD d.toNat act r
    else draws.putF d.toNat act (fun l => (placeCode dst (r l).1, (r l).2))

/-- VSCALE (R171): the X8 byte of a lane's beat scales its value. -/
def execVscale (g : BitVec 2) (d : BitVec 6) (a b : Src) (s : State) : Out :=
  vecOp g s fun act ag =>
    (ag.drawLanes ag.rm act).putF d.toNat act (fun l =>
      let x := (byteOf (ag.vsrc b l) (l / 32)).toNat
      if x = 255 then (Fmt.fp32.nanBits, 0)
      else
        match fvMul (Fmt.fp32.decode (Fmt.fp32.flushIn ag.ftz (ag.vsrc a l).toNat)) (.fin false 1 ((x : Int) - 127)) with
        | (v, nv) =>
          let r := roundTo .fp32 ag.rm (ag.drawOf l) v
          Fmt.fp32.flushOut ag.ftz (r.1, r.2 ||| nvIf nv))

/-! ### Compact forms -/

/-- VFADD_COMPACT (R110, R191). -/
def execVfaddCompact (a b : BitVec 5) (s : State) : Out :=
  fp32Op .add 0 (cReg a) (.reg (cReg a)) (.reg (cReg b)) s
/-- VFMUL_COMPACT (R110, R191). -/
def execVfmulCompact (a b : BitVec 5) (s : State) : Out :=
  fp32Op .mul 0 (cReg a) (.reg (cReg a)) (.reg (cReg b)) s

end Sys2Proof.Machine
end

