-- ==== Sys2Proof/Machine/System.lean ====
section
/-! DEFINITION. The system instructions: major 0x07 (R101 to R104, R350 to R352), the keys (R32 to R35), HARVEST (R63),
MAPINV (R51), and the loading of policy images (R339, R343, R344). -/
namespace Sys2Proof.Machine

/-! ### TRAP, ERET -/

/-- TRAP (R345, R352): the software trap, taken after TRAP has completed. -/
def execTrap (g : BitVec 2) (a : Src) (s : State) : Out :=
  issueOnce anyProfile g s fun id ag => retireThenTrap s id ag 0x0B ((ag.src a).zeroExtend 64)

/-- ERET (R350): illegal outside a handler, whatever the guard holds (R109); it takes effect at the end of its pass. -/
def execEret (g : BitVec 2) (s : State) : Out :=
  issue anyProfile g s fun id ag =>
    if !ag.inh then trapWord s id ag 0x01
    else if ag.fires g then retire s id (ag.transfer .eret)
    else retire s id ag

/-! ### Control registers -/

/-- The profiles that have a control register (R101). -/
def csrHere (p : Profile) (n : BitVec 6) : Bool :=
  match n.toNat, p with
  | 0, .host => false
  | 1, .host => false
  | 3, .host => false
  | 6, .host => false
  | 12, .sequencer => false
  | 12, .host => false
  | _, _ => true

/-- An agent's reading of the time counter: its die's counter is ahead of the package's by less than the bound that
`tskew.pkg_ns` gives, and no reading is below an earlier one of the agent (R254, log 9). -/
def State.time (s : State) (ag : Agent) : DWord :=
  let t := s.ntime + BitVec.ofNat 64 (Config.dieSkew ag.die.toNat % 3)
  if t.ult ag.lastT then ag.lastT else t

/-- `tskew` (R254). -/
def State.tskew (s : State) : Word := s.plat.domNs ++ (2 : Half)

/-- The value of a control register (R101 to R104). -/
def State.csr (s : State) (ag : Agent) (n : BitVec 6) : DWord :=
  match n.toNat with
  | 0 => ag.rmode.zeroExtend 64
  | 1 => ag.seed.zeroExtend 64
  | 2 => ag.rstat.zeroExtend 64
  | 3 => ag.dmem.zeroExtend 64
  | 4 => s.time ag
  | 5 => s.tskew.zeroExtend 64
  | 6 => ag.npdist.zeroExtend 64
  | 7 => ag.repst.zeroExtend 64
  | 8 => ag.wid.zeroExtend 64
  | 9 => ag.tcause.zeroExtend 64
  | 10 => ag.tepc
  | 11 => ag.tval
  | 12 => ag.dspill.zeroExtend 64
  | _ => 0

/-- Write a control register with its side effects (R7, R58, R85, R86, R102, R104, R296, R346). -/
def Agent.csrWrite (ag : Agent) (n : BitVec 6) (x : DWord) : Agent :=
  let w := x.extractLsb' 0 32
  match n.toNat with
  | 0 => if 5 ≤ (w.extractLsb' 0 3).toNat then ag else { ag with rmode := w &&& 0x1F }
  | 1 =>
    if ag.rmode.getLsbD 4 ∨ ag.profile ≠ .wave then { ag with seed := w } else { ag with seed := w, x := seedLanes w }
  | 2 => { ag with rstat := (ag.rstat &&& 0x00000E1F &&& ~~~w) ||| (w &&& 0xC0000000) }
  | 6 => { ag with npdist := w &&& 0x3FFFFF }
  | 7 => { ag with repst := w &&& 0x8000003F }
  | 10 => { ag with tepc := x, tcause := ag.tcause &&& 0xDFFFFFFF, saved := if ag.mid then {} else ag.saved }
  | 11 => { ag with tval := x }
  | 12 => if 16 < ag.depth then ag else { ag with dspill := w &&& 0xFFFFFFF0 }
  | _ => ag

/-- CSRR (R101, R352): of `rstat`, it waits for the agent's SFU entries (R183). -/
def execCsrr (g : BitVec 2) (d a : BitVec 6) (s : State) : Out :=
  issue anyProfile g s fun id ag =>
    if !csrHere ag.profile a then trapWord s id ag 0x03
    else if ag.profile = .wave ∧ !ag.fires g then retire s id ag
    else if a = 2 ∧ s.sfuBusy id ag then waitFor s id ag .again
    else
      let x := s.csr ag a
      let ag := if a = 4 then { ag with lastT := x } else ag
      retire s id (if csr64 a then ag.pSet d.toNat x else ag.sSet d.toNat (x.extractLsb' 0 32))

/-- CSRW (R101, R352). -/
def execCsrw (g : BitVec 2) (d : BitVec 6) (a : Src) (s : State) : Out :=
  issue anyProfile g s fun id ag =>
    if !csrHere ag.profile d then trapWord s id ag 0x03
    else if ag.profile = .wave ∧ !ag.fires g then retire s id ag
    else if d = 2 ∧ s.sfuBusy id ag then waitFor s id ag .again
    else retire s id (ag.csrWrite d (if csr64 d then ag.srcP a else (ag.src a).zeroExtend 64))

/-- A word of the capability table (R18, R19). -/
def State.capWord (s : State) (n : Nat) : Word :=
  if n = 15 then s.rot.capGen else if n < 16 then Tab.get 0 s.rot.cap n else 0

/-- The presence bit of an optional unit (R2, R4, R19): 0 FP64 array mode, 1 reconcile engine, 2 shadow accumulators. -/
def State.hasUnit (s : State) (n : Nat) : Bool := (s.capWord 1).getLsbD n

/-- CAPR (R352). -/
def execCapr (g : BitVec 2) (d : BitVec 6) (a : Src) (s : State) : Out :=
  regOp anyProfile g s fun ag => ag.sSet d.toNat (s.capWord (ag.src a).toNat)

/-! ### Waiting and fetching -/

/-- WFI (R352): it waits for an entry of the cores' event queue, or a millisecond. -/
def execWfi (g : BitVec 2) (s : State) : Out :=
  issue hostOnly g s fun id ag =>
    match ag.wait with
    | .wfi out t => if out || !s.plat.hostQ.isEmpty then retire s id ag else waitFor s id ag (.wfi false t)
    | _ => if !s.plat.hostQ.isEmpty then retire s id ag else waitFor s id ag (.wfi false s.ntime)

/-- IFENCE (R352): a release at `pk`, then the unit's fetched code is discarded. -/
def execIfence (g : BitVec 2) (s : State) : Out :=
  issueOnce anyProfile g s fun id ag =>
    if !s.releaseReady id ag 3 (ag.nextTag + 1) then waitFor s id ag .again
    else
      let s := { s with ms := { s.ms with code := Tab.erase s.ms.code ag.codeUnit, own := Tab.erase s.ms.own ag.codeUnit } }
      retire s id ag

/-! ### MAPINV and HARVEST -/

/-- The range of MAPINV and HARVEST (R352): a partition, and all of it, one tensor, or flat pages. -/
inductive MapRange where
  | all
  | tensor (tid : Nat)
  | pages (lo hi : Nat)
  deriving DecidableEq, Repr

/-- The partition and the range that pair A and the control word name (R352). -/
def mapRange (a : DWord) (ctl n : Word) : Nat × MapRange :=
  let lo := a.toNat / 4096 * 4096
  ((ctl.extractLsb' 0 6).toNat,
    if ctl.getLsbD 8 then .all
    else if ctl.getLsbD 9 then .tensor (a.extractLsb' 0 20).toNat
    else .pages lo (lo + 4096 * n.toNat))

/-- A range of 0 pages: nothing is in it (R352). -/
def MapRange.isEmpty : MapRange → Bool
  | .pages lo hi => decide (hi ≤ lo)
  | _ => false

/-- A cached translation lies in the range. -/
def MapRange.hits (m : MapRange) (x : Xlat) : Bool :=
  match m, x.tid with
  | .all, _ => true
  | .tensor t, some u => t == u
  | .pages lo hi, none => decide (lo < hi) && decide (x.base < hi) && decide (lo < x.base + x.size)
  | _, _ => false

/-- An access at a flat address or in a tensor lies in the range. -/
def MapRange.meets (m : MapRange) (tid : Option Nat) (va : DWord) : Bool :=
  match m, tid with
  | .all, _ => true
  | .tensor t, some u => t == u
  | .pages lo hi, none => decide (lo < hi) && decide (lo ≤ va.toNat + 64) && decide (va.toNat < hi)
  | _, _ => false

/-- A side-log entry lies in the range. -/
def MapRange.meetsKey (m : MapRange) (k : VKey) : Bool :=
  match k with
  | .flat va => m.meets none va
  | .tile t _ _ => m.meets (some t) 0

/-- Every access of the range translated so far has been accepted by its home, and no side-log entry of the range is
left (R51). -/
def State.mapQuiet (s : State) (p : Nat) (m : MapRange) : Bool :=
  s.agents.all (fun e => e.2.part != p ||
    (e.2.opens.all (fun o => match o.loc with
        | .mem _ _ _ => !m.meets o.tid o.va || o.kind == .order
        | _ => true) &&
      e.2.pend.all (fun w => match w.loc with
        | .mem _ _ _ => !m.meets w.tid w.va
        | _ => true))) &&
  s.units.all (fun e => e.2.slog.all (fun x => x.part != p || !m.meetsKey x.key))

/-- A walker's upper-level entry stands for addresses of the range. -/
def MapRange.above (m : MapRange) (u : Upper) : Bool :=
  let span := 2 ^ (12 + 9 * u.level)
  match m with
  | .all => true
  | .tensor _ => false
  | .pages lo hi => decide (lo < hi) && decide (u.at_ * span < hi) && decide (lo < (u.at_ + 1) * span)

/-- Empty a stream's page registers of what is not kept; the walk for a neighbouring page is given up (R51, R57). -/
def Stream.keep (st : Stream) (f : Xlat → Bool) : Stream :=
  { st with cur := st.cur.filter f, next := st.next.filter f, walk := none, tried := none }

/-- Drop every cached translation, upper-level entry and page register of the range (R51); from then on the partition's
pages count as mapped anew (R271). -/
def State.dropXlat (s : State) (p : Nat) (m : MapRange) : State :=
  let keep := fun (x : Xlat) => !(x.part == p && m.hits x)
  let agent := fun (a : Agent) => { a with strm := a.strm.keep keep }
  let quad := fun (q : QuadSt) => { q with loadS := q.loadS.keep keep, storeS := q.storeS.keep keep }
  { s with
    ms := { s.ms with
      tlb := s.ms.tlb.filter keep,
      upper := s.ms.upper.filter (fun u => !(u.part == p && m.above u)),
      uses := if m.isEmpty then s.ms.uses else s.ms.uses.filter (fun e => e.1 % 64 != p) },
    agents := s.agents.map (fun e => (e.1, agent e.2)),
    quads := s.quads.map (fun e => (e.1, quad e.2)),
    fab := { s.fab with copies := s.fab.copies.map (fun e =>
      (e.1, { e.2 with sgen := e.2.sgen.keep keep, dgen := e.2.dgen.keep keep })) },
    hub := { s.hub with saves := s.hub.saves.map (fun e =>
      (e.1, { e.2 with agents := e.2.agents.map (fun x => (x.1, agent x.2)), quads := e.2.quads.map (fun x => (x.1, quad x.2)) })) } }

/-- The range a MAPINV or HARVEST names in an agent's registers. -/
def Agent.mapRange (ag : Agent) (a : Src) (b : BitVec 6) : Nat × MapRange :=
  Machine.mapRange (ag.srcP a) (ag.sGet b.toNat) (ag.sGet (b.toNat + 1))

/-- MAPINV (R51, R352): 0 pages does nothing. -/
def execMapinv (g : BitVec 2) (a : Src) (b : BitVec 6) (s : State) : Out :=
  issue hostOnly g s fun id ag =>
    let (p, m) := ag.mapRange a b
    if s.mapQuiet p m then
      let s := s.dropXlat p m
      retire s id ((s.agent? id).getD ag)
    else waitFor s id ag .again

/-- The leaf entries of a table that translate addresses of a range (R46 to R48): the physical address of the entry,
or of the first of its group, and the entry. The first argument is the level plus one. -/
def State.leaves (s : State) (m : MapRange) : Nat → Nat → Nat → List (Nat × DWord)
  | 0, _, _ => []
  | level + 1, tbl, base =>
    let span := 2 ^ (12 + 9 * level)
    (List.range (if level = 4 then 256 else 512)).flatMap fun i =>
      let lo := base + i * span
      let touched := match m with
        | .all => true
        | .pages l h => decide (l < h) && decide (lo < h) && decide (l < lo + span)
        | .tensor _ => false
      if !touched then []
      else
        let e := s.tableEntry (tbl + 8 * i)
        match (e.extractLsb' 0 2).toNat with
        | 1 => State.leaves s m level (pteBase e) lo
        | 2 =>
          let n := groupEntries (e.extractLsb' 9 3).toNat
          let j := i - i % n
          [(tbl + 8 * j, s.tableEntry (tbl + 8 * j))]
        | _ => []

/-- The tile entries of a tensor (R53, R56). -/
def State.tileLeaves (s : State) (p tid : Nat) : List (Nat × DWord × Nat) :=
  match s.tensor p tid with
  | none => []
  | some t =>
    let n := ((List.range 10).map (fun i => (nth 1 t.ext i + 2 ^ nth 0 t.lt i - 1) / 2 ^ nth 0 t.lt i)).foldl (· * ·) 1
    (List.range n).filterMap fun i =>
      let e := s.tableEntry (t.ttab + 8 * i)
      if e.extractLsb' 0 2 = 2 then some (t.ttab + 8 * i, e, t.tileBytes) else none

/-- The tensor identifiers of a partition's table (R52). -/
def State.tensorIds (s : State) (p : Nat) : List Nat :=
  let ctl := Tab.get 0 s.rot.ttCtl p
  if ctl.getLsbD 5 then List.range (2 ^ min 20 (ctl.extractLsb' 0 5).toNat) else []

/-- The entries HARVEST visits, with the bytes each one maps (R63). -/
def State.harvestList (s : State) (p : Nat) (m : MapRange) : List (Nat × DWord × Nat) :=
  let root := Tab.get 0 s.rot.ptRoot p
  let flat := if root.getLsbD 0 then
      ((s.leaves m 5 ((root.extractLsb' 12 40).toNat * 4096) 0).dedup).map
        (fun e => (e.1, e.2, pageBytes (e.2.extractLsb' 9 3).toNat))
    else []
  match m with
  | .tensor t => s.tileLeaves p t
  | .pages _ _ => flat
  | .all => flat ++ (s.tensorIds p).flatMap (s.tileLeaves p)

/-- HARVEST of one entry (R63): OR `a` and `d` from the records of its frames, and clear them. -/
def State.harvestEntry (s : State) (x : Nat × DWord × Nat) : State :=
  let (pa, e, size) := x
  let lo := pteBase e / 4096
  let n := (size + 4095) / 4096
  let hit := s.ms.frames.filter (fun f => decide (lo ≤ f.1) && decide (f.1 < lo + n))
  let a := hit.any (fun f => f.2 != 0)
  let d := hit.any (fun f => f.2.getLsbD 1)
  let s := { s with ms := { s.ms with frames := Tab.dropRange s.ms.frames lo n } }
  if a || d then
    let e' := e ||| (if a then 0x80 else 0) ||| (if d then 0x100 else 0)
    s.pkStore 0 false pa (leBytes 8 e'.toNat)
  else s

/-- HARVEST (R63, R352). -/
def execHarvest (g : BitVec 2) (a : Src) (b : BitVec 6) (s : State) : Out :=
  issue hostOnly g s fun id ag =>
    let (p, m) := ag.mapRange a b
    retire ((s.harvestList p m).foldl State.harvestEntry s) id ag

/-! ### Keys -/

/-- KEYSET (R34, R352): an empty slot is loaded with a fresh key. -/
def execKeyset (g : BitVec 2) (d : BitVec 6) (a : Src) (s : State) : Out :=
  issue hostOnly g s fun id ag =>
    let w := ag.src a
    let n := (w.extractLsb' 0 8).toNat
    if (Tab.get {} s.ms.keys n).st = 0 then
      let k : KeySlot := { st := 1, owner := (w.extractLsb' 8 6).toNat, shared := w.getLsbD 16, key := s.ms.nextKey }
      let s := { s with ms := { s.ms with keys := Tab.put s.ms.keys n k, nextKey := s.ms.nextKey + 1 } }
      retire s id (ag.sSet d.toNat 0)
    else retire s id (ag.sSet d.toNat 1)

/-- Invalidate, without write-back, what peer caches hold of spans filled under a slot (R35, step 2). -/
def State.dropSpans (s : State) (slot : BitVec 8) : State :=
  let gone := s.ms.dir.flatMap (fun e => (e.2.filter (fun x => x.slot == slot)).flatMap (fun x => x.addrs e.1))
  { s with ms := { s.ms with
      dirty := s.ms.dirty.filter (fun e => !gone.contains e.1),
      dir := (s.ms.dir.map (fun e => (e.1, e.2.filter (fun x => x.slot != slot)))).filter (fun e => !e.2.isEmpty) } }

/-- Write back and invalidate every Orangery line tagged with a slot (R35, step 3). -/
def State.dropTagged (s : State) (slot : BitVec 8) : State :=
  ((s.ms.orng.filter (fun e => e.2.slot == slot)).map (fun e => e.1)).foldl State.evictLine s

/-- The address lies in a carve-out way tagged with a slot, one that is being cleaned included (R35, step 4). -/
def State.taggedWay (s : State) (slot : BitVec 8) (pa : Nat) : Bool :=
  match paKind pa with
  | .carve w =>
    let r := Tab.get 0 s.rot.orngWay w
    decide (2 ≤ (r.extractLsb' 30 2).toNat) && r.extractLsb' 8 8 == slot
  | _ => false

/-- Destroy a key slot (R35, steps 2 to 5); the bytes under it in the inner levels of the waves' paths go with it. -/
def State.killKey (s : State) (n : Nat) : State :=
  let slot := BitVec.ofNat 8 n
  let k := (Tab.get {} s.ms.keys n).key
  let mine := fun (pa : Nat) => Tab.find? s.ms.lineKey (pa / 64) == some k || s.taggedWay slot pa
  let drop := fun (t : Tab Byte) => t.filter (fun e => !mine e.1)
  let l1 := s.ms.l1.map (fun e => (e.1, drop e.2))
  let l2 := s.ms.l2.map (fun e => (e.1, drop e.2))
  let s := (s.dropSpans slot).dropTagged slot
  let s := { s with ms := { s.ms with l1 := l1, l2 := l2 } }
  let ways := (List.range 32).filter (fun w => s.taggedWay slot (carveBase + w * wayBytes))
  let s := ways.foldl (fun t w => t.zeroRange (carveBase + w * wayBytes) wayBytes) s
  { s with ms := { s.ms with keys := Tab.erase s.ms.keys n } }

/-- KEYKILL (R35, R352): slot 0 and slots that are not loaded are left as they are. A loaded slot becomes KILLING in one
step, from which accesses that name it are refused, and is destroyed in a later one. -/
def execKeykill (g : BitVec 2) (d : BitVec 6) (a : Src) (s : State) : Out :=
  issue hostOnly g s fun id ag =>
    let n := ((ag.src a).extractLsb' 0 8).toNat
    let k := Tab.get {} s.ms.keys n
    match ag.wait with
    | .keykill m => retire (s.killKey m) id (ag.sSet d.toNat 0)
    | _ =>
      if n ≠ 0 ∧ k.st = 1 then
        waitFor { s with ms := { s.ms with keys := Tab.put s.ms.keys n { k with st := 2 } } } id ag (.keykill n)
      else retire s id (ag.sSet d.toNat 1)

/-! ### Policy images -/

/-- The operation code of a policy halfword (R335). -/
def polOp (h : Half) : Nat := (h.extractLsb' 11 5).toNat

/-- The cycles of an operation; a branch costs one more when taken (R336). -/
def polCycles (op : Nat) : Nat :=
  if op = 12 ∨ op = 13 ∨ op = 22 ∨ op = 23 then 2
  else if op = 18 ∨ op = 19 then 12
  else if op = 20 ∨ op = 21 then 34
  else 1

/-- The longest-path costs of the operations of an image, from its last back, nearest first (R339): every branch counts
as taken. -/
def polCosts : List Half → List Nat
  | [] => []
  | h :: t =>
    let rest := polCosts t
    let op := polOp h
    let c :=
      if op = 24 then 1
      else if 14 ≤ op ∧ op ≤ 17 then 2 + max (nth 0 rest 0) (nth 0 rest ((h.extractLsb' 0 5).toNat - 1))
      else polCycles op + nth 0 rest 0
    c :: rest

/-- The first halfword that is reserved, or whose branch leaves the image: code and index (R343). -/
def polScan (n : Nat) : List Half → Nat → Option (Nat × Nat)
  | [], _ => none
  | h :: t, i =>
    if !polOk h then some (2, i)
    else if 14 ≤ polOp h ∧ polOp h ≤ 17 ∧ n ≤ i + (h.extractLsb' 0 5).toNat then some (3, i)
    else polScan n t (i + 1)

/-- The verdict on an image (R343): code, index, longest-path cost. -/
def polCheck (img : List Half) (pending : Bool) : Nat × Nat × Nat :=
  match polScan img.length img 0 with
  | some (c, i) => (c, i, 0)
  | none =>
    if polOp (nth 0 img (img.length - 1)) ≠ 24 then (4, img.length - 1, 0)
    else
      let c := nth 0 (polCosts img) 0
      if 256 < c then (5, 0, c) else if pending then (6, 0, c) else (0, 0, c)

/-- The status word of POLLD (R343). -/
def polStatus (v : Nat × Nat × Nat) : Word := BitVec.ofNat 32 (v.1 + 16 * v.2.1 + 65536 * min 65535 v.2.2)

/-- The halfwords of an image, or the address at which its reading stops and why (R130, R242, R343). -/
def State.readImage (s : State) (ag : Agent) (va : DWord) : Nat → List Half → Except (DWord × Target) (List Half)
  | 0, acc => .ok acc.reverse
  | n + 1, acc =>
    match s.target ag .read (.flat va) with
    | .mem pa x =>
      if s.reachable ag.part (pteSlot x.pte) pa then
        State.readImage s ag (va + 2) n (BitVec.ofNat 16 (leVal (s.pkSeeN ag.part (pteSlot x.pte) pa 2)) :: acc)
      else .error (va, .mem pa x)
    | .remote p =>
      match ag.farHalf va with
      | some h => State.readImage s ag (va + 2) n (h :: acc)
      | none => .error (va, .remote p)
    | t => .error (va, t)

/-- What reading an image of this package leaves behind, once a line (R42, R63). -/
def State.noteImage (s : State) (id : Nat) (ag : Agent) (va : DWord) (n : Nat) : State :=
  let vas := ((List.range n).map (fun i => va + BitVec.ofNat 64 (2 * i))).filter (fun a => a == va || a.toNat % 64 == 0)
  vas.foldl (fun t a => match s.target ag .read (.flat a) with
    | .mem pa x => t.noteRead id ag x pa 2
    | _ => t) s

/-- An image the resident service loads into a partition extends its measurement register (R366). -/
def State.measure (s : State) (p : Nat) (image : List Byte) : State :=
  let m := Tab.get (List.replicate 64 0) s.plat.meas p
  { s with plat := { s.plat with meas := Tab.put s.plat.meas p (sha512 (m ++ sha512 image)) } }

/-- The bytes of an image of halfwords. -/
def imageBytes (img : List Half) : List Byte := img.flatMap (fun h => leBytes 2 h.toNat)

/-- POLLD (R343, R366). -/
def execPolld (g : BitVec 2) (d : BitVec 6) (a b : Src) (s : State) : Out :=
  issue hostOnly g s fun id ag =>
    let va := ag.srcP a
    let ctl := ag.src b
    let p := (ctl.extractLsb' 0 6).toNat
    let n := (ctl.extractLsb' 16 10).toNat
    if !flatOk va || va.getLsbD 0 then addrTrap s id ag va
    else if n = 0 ∨ 512 < n then retire s id (ag.sSet d.toNat 1)
    else
      match s.readImage ag va n [] with
      | .error (e, .absent) => s.hold id ag { l := 0, va := e, key := .flat e, n := 2 } .read
      | .error (_, .walking) => waitFor s id ag .again
      | .error (e, .remote _) => s.askFar id ag e
      | .error (e, .mem pa y) => addrTrap (s.violationOf ag (pteSlot y.pte) pa) id ag e
      | .error (e, .protect) => addrTrap s id ag e
      | .ok img =>
        let v := polCheck img (s.pol p).swap
        let s := (s.putAgent id ag).noteImage id ag va n
        let ag := (s.agent? id).getD ag
        let s := if v.1 = 0 then (s.putPol p { s.pol p with shadow := img }).measure p (imageBytes img) else s
        retire s id (ag.sSet d.toNat (polStatus v))

/-- Make a partition's shadow image current, at a decision boundary (R344). -/
def Pol.swapIn (x : Pol) : Pol := { x with cur := x.shadow, shadow := [], pm := [], swap := false, swaps := x.swaps + 1 }

/-- POLSW (R344). -/
def execPolsw (g : BitVec 2) (d : BitVec 6) (a : Src) (s : State) : Out :=
  issue hostOnly g s fun id ag =>
    let p := ((ag.src a).extractLsb' 0 6).toNat
    let x := s.pol p
    match ag.wait with
    | .polsw n => if n < x.swaps then retire s id (ag.sSet d.toNat 0) else waitFor s id ag (.polsw n)
    | _ =>
      if x.shadow.isEmpty then retire s id (ag.sSet d.toNat 1)
      else if x.dec.isNone then retire (s.putPol p x.swapIn) id (ag.sSet d.toNat 0)
      else waitFor (s.putPol p { x with swap := true }) id ag (.polsw x.swaps)

end Sys2Proof.Machine
end

