-- ==== Sys2Proof/Machine/Fabric.lean ====
section
/-! DEFINITION. The fabric instructions (R244 to R249, R254, R255, R258 to R261): WSIG, ALLRED, WINCFG, NTIME. -/
namespace Sys2Proof.Machine

/-! ### WSIG -/

/-- The control word of WSIG is malformed (R259). -/
def wsigBad (c : Word) : Bool := c &&& 0xFFFFFEE0 != 0 || decide (16 < (c.extractLsb' 0 5).toNat)

/-- The window and offset of a WSIG part (R259): 4-aligned, in a configured window. -/
def State.wsigPart (s : State) (ag : Agent) (a n : Nat) : Option (Nat × Nat) :=
  match spLoc ag.unit a n with
  | .win w o => if a % 4 = 0 ∧ ((s.unit ag.unit).win w).on then some (w, o) else none
  | _ => none

/-- The parts of a WSIG with their addresses checked (R259): window, payload offset, flag offset; or the address that
fails. -/
def State.wsigParts (s : State) (ag : Agent) (pay flg src len : Nat) : Except Nat (Nat × Nat × Nat) :=
  match s.wsigPart ag pay (max 1 (4 * len)), s.wsigPart ag flg 4 with
  | none, _ => .error pay
  | _, none => .error flg
  | some (w, o), some (w', o') =>
    if w ≠ w' then .error flg
    else if len ≠ 0 ∧ o / 64 ≠ (o + 4 * len - 1) / 64 then .error pay
    else if src % 4 ≠ 0 ∨ spadSize ag.unit < src + 4 * len then .error src
    else .ok (w, o, o')

/-- Send the flag of a WSIG whose payload has gone out (R259). -/
def State.wsigFlag (s : State) (id : Nat) (ag : Agent) (op w o : Nat) (v : Word) (add : Bool) : State :=
  match s.post id ag w o 4 [] (some (v.zeroExtend 64, 4, add)) (some op) with
  | some s => retire s id ag
  | none => waitFor (s.askWin id ag.unit w) id ag (.winStore 1)

/-- WSIG (R259, R229). Its flag is a release at `dm` (log 27). -/
def execWsig (g : BitVec 2) (d : BitVec 6) (a : Src) (b : BitVec 6) (s : State) : Out :=
  issueOnce notHost g s fun id ag =>
    let r := fun i => ag.sGet (b.toNat + i)
    let ctl := r 3
    let len := (ctl.extractLsb' 0 5).toNat
    let add := ctl.getLsbD 8
    let src := (ag.src a).toNat
    match ag.wait with
    | .winStore _ =>
      match s.wsigPart ag (r 1).toNat 4 with
      | some (w, o) => s.wsigFlag id ag (ag.hGet d.toNat).op w o (r 2) add
      | none => retire s id ag
    | _ =>
      if ag.hPending d.toNat then waitFor s id ag .again
      else if wsigBad ctl then retire s id (ag.hSet d.toNat { st := .done, status := hStatus 3 0 })
      else
        match s.wsigParts ag (r 0).toNat (r 1).toNat src len with
        | .error e => addrTrap s id ag (BitVec.ofNat 64 e)
        | .ok (w, po, fo) =>
          match s.enginePlot ag.unit src (4 * len) with
          | some k => trapHere s id ag 0x06 (BitVec.ofNat 64 k)
          | none =>
            if !s.releaseNow id ag 4 then waitFor s id ag .again
            else
              let op := s.fab.nextOp
              let bs := (s.spadRead ag.unit src (4 * len)).zipIdx.map (fun e => (po + e.2, e.1))
              let x : Wsig := { agent := id, unit_ := ag.unit, win := w, left := if len = 0 then 1 else 2, len := len }
              let t := { s with fab := { s.fab with wsigs := Tab.put s.fab.wsigs op x, nextOp := op + 1 } }
              let ag' := ag.hSet d.toNat { st := .pending, op := op }
              if len = 0 then
                match t.post id ag' w fo 4 [] (some ((r 2).zeroExtend 64, 4, add)) (some op) with
                | some t => retire t id ag'
                | none => waitFor (s.askWin id ag.unit w) id ag .again
              else
                match t.post id ag' w po (4 * len) bs none (some op) with
                | some t => t.wsigFlag id ag' op w fo (r 2) add
                | none => waitFor (s.askWin id ag.unit w) id ag .again

/-! ### ALLRED -/

/-- The element size of an ALLRED's operation (R260). -/
def redSize (op : Nat) : Nat := if op = 1 then 8 else 4

/-- The control word of ALLRED is malformed (R260). -/
def redBad (c : Word) : Bool :=
  let n := (c.extractLsb' 8 5).toNat
  let op := (c.extractLsb' 0 4).toNat
  c &&& 0xFFFFE0F0 != 0 || decide (9 < op) || n == 0 || decide (16 < n) || (op == 1 && decide (8 < n))

/-- One step of the fold (R94, R260). -/
def redOp (op : Nat) (a b : DWord) : DWord :=
  match op with
  | 0 => atomNew .add false a b 0
  | 1 => atomNew .add true a b 0
  | 2 => atomNew .fadd false a b 0
  | 3 => atomNew .min false a b 0
  | 4 => atomNew .max false a b 0
  | 5 => atomNew .minu false a b 0
  | 6 => atomNew .maxu false a b 0
  | 7 => atomNew .and false a b 0
  | 8 => atomNew .or false a b 0
  | _ => atomNew .xor false a b 0

/-- The range of an ALLRED lies, aligned, in unit-side own scratchpad (R260). -/
def State.redRange (s : State) (ag : Agent) (a n size : Nat) : Bool :=
  a % size == 0 && decide (a + n ≤ spadSize ag.unit) && (s.enginePlot ag.unit a n).isNone

/-- The elements of a contribution. -/
def elemsOf (size cnt : Nat) (bs : List Byte) : List DWord :=
  (List.range cnt).map (fun i => BitVec.ofNat 64 (leVal ((bs.drop (size * i)).take size)))

/-- ALLRED (R260): read the contribution, release, contribute, wait until the domain's contributions are folded, write the result,
acquire. -/
def execAllred (g : BitVec 2) (d : BitVec 6) (a b : Src) (s : State) : Out :=
  issueOnce notHost g s fun id ag =>
    let ctl := ag.src b
    let op := (ctl.extractLsb' 0 4).toNat
    let cnt := (ctl.extractLsb' 8 5).toNat
    let size := redSize op
    let pa := (ag.src a).toNat
    let pd := (ag.sGet d.toNat).toNat
    let sc := ag.flatScope (domScope ag.domLevel)
    let put := fun (s : State) (r : List DWord) => s.spadStore ag.unit pd (r.flatMap (fun x => leBytes size x.toNat))
    let finish := fun (s : State) (ag : Agent) (n : Nat) =>
      match s.redn ag true n with
      | some (k, r) =>
        match r.result with
        | some (ok, xs) =>
          let s := if ok then put s xs else put s (List.replicate cnt 0)
          retire ((s.acquire ag sc).takeResult k r) id (if ok then ag else ag.orStat rsRerr)
        | none => waitFor s id ag (.allred n)
      | none => waitFor s id ag (.allred n)
    let go := fun (s : State) (c : List DWord) =>
      if !s.releaseNow id ag (if ag.domLevel = 0 then 0 else sc) then waitFor s id ag (.contrib c)
      else if ag.domLevel = 0 then retire (put s c) id ag
      else
        let n := ag.nAllred + 1
        let s := s.arriveAt ag true n { key := s.memberKey ag, agent := id, op := op, cnt := cnt, data := c }
        finish s { ag with nAllred := n } n
    match ag.wait with
    | .allred n => finish s ag n
    | .contrib c => go s c
    | _ =>
      if redBad ctl || !s.redRange ag pa (size * cnt) size || !s.redRange ag pd (size * cnt) size then
        addrTrap s id ag (ctl.zeroExtend 64)
      else if ag.barred then waitFor s id ag .again
      else go s (elemsOf size cnt (s.spadRead ag.unit pa (size * cnt)))

/-! ### WINCFG -/

/-- The configuration word is malformed (R244, R258). -/
def winBad (w : DWord) : Bool :=
  let die := (w.extractLsb' 33 4).toNat
  w.extractLsb' 58 4 == 0 || decide (14 ≤ (w.extractLsb' 54 4).toNat) || w.extractLsb' 46 8 == 0 ||
    w.extractLsb' 5 20 != 0 || (decide (10 ≤ die) && decide (die ≤ 13) && w.extractLsb' 0 5 != 0)

/-- The unit record index of a die's unit, where the die has it (R14, R244). -/
def peerUnit (die unit : Nat) : Option Nat :=
  if 2 ≤ die ∧ die ≤ 9 ∧ unit < 4 then some (192 + 4 * (die - 2) + unit)
  else if 10 ≤ die ∧ die ≤ 13 ∧ unit < 48 then some (48 * (die - 10) + unit)
  else none

/-- The counter sets in use at a unit (R248). -/
def State.setsUsed (s : State) (u : Nat) : Nat :=
  (s.fab.binds.filterMap (fun e =>
    if e.2.dstPkg = s.plat.pkg.toNat ∧ !e.2.saved ∧ !e.2.ended ∧ e.2.dstUnit + e.2.mem = u then some e.2.sets else none)).sum

/-- The answer of a unit of this package to a request for counter sets, in the order of R258's table: a status, or the
group's unit and the place of the bound unit behind it. -/
def State.bindAnswer (s : State) (part die unit sets : Nat) : Except Nat (Nat × Nat) :=
  match peerUnit die unit with
  | none => .error 2
  | some u =>
    let x := s.unit u
    if !s.unitUp u then .error 2
    else if x.holder.isSome ∧ x.holder ≠ some part then .error 3
    else
      let g := if x.ustate = .reserved then x.leader else u
      if (s.unit g).ustate ≠ .running ∨ (s.unit g).part ≠ part then .error 6
      else if 256 < s.setsUsed u + sets then .error 4
      else .ok (g, u - g)

/-- Traffic of a window of a group that is not yet acknowledged or, for an ordered flag, delivered (R258 step 2). -/
def State.winTraffic (s : State) (u w : Nat) : Bool :=
  s.fab.posted.any (fun e => e.2.unit_ == u && e.2.win == w && (!e.2.acked || (e.2.kind != .data && !e.2.delivered))) ||
    s.fab.wsigs.any (fun e => e.2.unit_ == u && e.2.win == w)

/-- WINCFG's status and the window after it (R258). A peer on another package is the paired partition's or none that binds; which
of the statuses that remain it answers is not said here (R372, log 25). -/
def State.winConfig (s : State) (ag : Agent) (w : Nat) (cfg : DWord) : Word × State :=
  let u := ag.unit
  let x := s.unit u
  let s := match (x.win w).bind with
    | some n => { s with fab := { s.fab with binds := Tab.erase s.fab.binds n } }
    | none => s
  let off := fun (st : Word) (s : State) => (st, s.putUnit u (x.putWin w {}))
  let on := fun (s : State) (pkg g mem : Nat) =>
    let n := s.fab.nextOp
    let sets := if ag.profile = .wave then x.waves else 1
    let bd : Binding := { srcUnit := u, dstPkg := pkg, dstUnit := g, mem := mem, seg := (cfg.extractLsb' 0 5).toNat, sets := sets }
    let s := { s with fab := { s.fab with binds := Tab.put s.fab.binds n bd, nextOp := n + 1 } }
    ((0 : Word), s.putUnit u (x.putWin w { cfg := cfg, bind := some n }))
  let pkg := (cfg.extractLsb' 37 9).toNat
  let die := (cfg.extractLsb' 33 4).toNat
  let unit := (cfg.extractLsb' 25 8).toNat
  if !cfg.getLsbD 63 then off 1 s
  else if winBad cfg then off 5 s
  else if pkg = s.plat.pkg.toNat then
    match s.bindAnswer ag.part die unit (if ag.profile = .wave then x.waves else 1) with
    | .error st => off (BitVec.ofNat 32 st) s
    | .ok (g, mem) => on s pkg g mem
  else if (peerUnit die unit).isNone || s.noRoute then off 2 s
  else
    let (n, s) := s.draw
    if !s.plat.pairs.contains (ag.part, pkg) then off (if Config.peerStatus n % 2 = 0 then 3 else 2) s
    else match Config.peerStatus n % 5 with
    | 0 => on s pkg unit 0
    | k => off (nth 2 [0, 2, 3, 4, 6] k) s

/-- WINCFG (R258). -/
def execWincfg (g : BitVec 2) (d : BitVec 6) (a b : Src) (s : State) : Out :=
  issueOnce notHost g s fun id ag =>
    let w := (ag.src b).toNat
    if 15 < w then addrTrap s id ag (BitVec.ofNat 64 w)
    else if s.winTraffic ag.unit w then waitFor s id ag .again
    else
      let (st, s) := s.winConfig ag w (ag.srcP a)
      retire s id (ag.sSet d.toNat st)

/-! ### NTIME -/

/-- The agent's pair A is pair 0: no deadline (R261). -/
def noDeadline : Src → Bool
  | .reg n => n == 0
  | .lit _ => false

/-- NTIME (R261). -/
def execNtime (g : BitVec 2) (d : BitVec 6) (a : Src) (s : State) : Out :=
  issueOnce anyProfile g s fun id ag =>
    let t := s.time ag
    let dl := ag.srcP a
    if !noDeadline a ∧ t.ult dl then waitFor s id ag (.ntime dl)
    else retire s id (({ ag with lastT := t } : Agent).pSet d.toNat t)

end Sys2Proof.Machine
end

