-- ==== Sys2Proof/Machine/Sketch.lean ====
section
/-! DEFINITION. Sketches (R275 to R278), the reconciliation block (R279), SKRECON (R280), SKSTAT (R286), and what the
reconcile engine computes (R282 to R284). -/
namespace Sys2Proof.Machine

/-! ### Cells and hashes -/

/-- A cell of a sketch (R275). -/
structure Cell where
  count : Word := 0
  chk   : Word := 0
  kx    : DWord := 0
  px    : DWord := 0
  deriving DecidableEq, Repr

/-- The bytes of a cell. -/
def cellBytes : Nat := 24
/-- A cell from its bytes (R275). -/
def Cell.ofBytes (bs : List Byte) : Cell :=
  { count := BitVec.ofNat 32 (leVal (bs.take 4)), chk := BitVec.ofNat 32 (leVal ((bs.drop 4).take 4)),
    kx := BitVec.ofNat 64 (leVal ((bs.drop 8).take 8)), px := BitVec.ofNat 64 (leVal ((bs.drop 16).take 8)) }
/-- The bytes of a cell (R275). -/
def Cell.bytes (c : Cell) : List Byte :=
  leBytes 4 c.count.toNat ++ leBytes 4 c.chk.toNat ++ leBytes 8 c.kx.toNat ++ leBytes 8 c.px.toNat
/-- The cells of a sketch. -/
def cellsOf : Nat → List Byte → List Cell
  | 0, _ => []
  | n + 1, bs => Cell.ofBytes (bs.take cellBytes) :: cellsOf n (bs.drop cellBytes)

/-- The mixed value of mode 0 (R276). -/
def skMix (k p : DWord) : DWord := k ^^^ (p * 0xC2B2AE3D27D4EB4F)
/-- The multipliers of mode 0 (R276). -/
def skMul : List DWord := [0x9E3779B97F4A7C15, 0xBF58476D1CE4E5B9, 0x94D049BB133111EB]
/-- Cell(j) of an entry in a sketch of three subtables of `t` cells (R276). -/
def skCell (mode : Bool) (k p : DWord) (t j : Nat) : Nat :=
  j * t + (if mode then (k.extractLsb' (16 * j) 16).toNat % t
    else (skMix k p * nth 0 skMul j).toNat / 2 ^ 32 * t / 2 ^ 32)
/-- The check hash of an entry (R276). -/
def skChk (mode : Bool) (k p : DWord) : Word :=
  if mode then k.extractLsb' 0 32 ^^^ k.extractLsb' 32 32 else (skMix k p * 0xD6E8FEB86659FD93).extractLsb' 32 32

/-- Insert an entry in a cell, or with `-1` remove it (R278, R282). -/
def Cell.put (c : Cell) (mode : Bool) (k p : DWord) (n : Word) : Cell :=
  { count := c.count + n, chk := c.chk ^^^ skChk mode k p, kx := c.kx ^^^ k, px := c.px ^^^ p }

/-! ### SKCLR and SKINS -/

/-- The traps of a sketch's range in the own scratchpad (R277, R278). -/
def State.skTrap (s : State) (u a n : Nat) : Option (Nat × DWord) :=
  if a % 8 ≠ 0 ∨ spadSize u < a + n then some (0x05, BitVec.ofNat 64 a)
  else
    match s.enginePlot u a n with
    | some p => some (0x06, BitVec.ofNat 64 p)
    | none => if (s.unit u).overTag a n then some (0x07, BitVec.ofNat 64 a) else none

/-- SKCLR (R277). -/
def execSkclr (g : BitVec 2) (a b : Src) (s : State) : Out :=
  issueOnce waveOnly g s fun id ag =>
    let p := (ag.src a).toNat
    let n := cellBytes * (ag.src b).toNat
    if n = 0 then retire s id ag
    else
      match s.skTrap ag.unit p n with
      | some (c, v) => trapHere s id ag c v
      | none => if ag.barred then waitFor s id ag .again else retire (s.spadStore ag.unit p (List.replicate n 0)) id ag

/-- The control word of SKINS is malformed (R278). -/
def skinsBad (c : Word) : Bool :=
  let n := (c.extractLsb' 0 18).toNat
  c.extractLsb' 18 13 != 0 || decide (n < 3) || n % 3 != 0

/-- Insert an entry in the sketch at an own-scratchpad offset (R278). -/
def State.skInsert (s : State) (u a : Nat) (mode : Bool) (n : Nat) (k p : DWord) : State :=
  [0, 1, 2].foldl (fun t j =>
    let o := a + cellBytes * skCell mode k p (n / 3) j
    t.spadStore u o ((Cell.ofBytes (t.spadRead u o cellBytes)).put mode k p 1).bytes) s

/-- SKINS (R278). -/
def execSkins (g : BitVec 2) (d a : BitVec 6) (b : Src) (s : State) : Out :=
  issue waveOnly g s fun id ag =>
    let act := lanesOf (ag.active g)
    let p := (ag.sGet a.toNat).toNat
    let ctl := ag.sGet (a.toNat + 1)
    let n := (ctl.extractLsb' 0 18).toNat
    if act.isEmpty then retire s id ag
    else if skinsBad ctl then addrTrap s id ag (BitVec.ofNat 64 p)
    else
      match s.skTrap ag.unit p (cellBytes * n) with
      | some (c, v) => trapHere s id ag c v
      | none =>
        if ag.barred then waitFor s id ag .again
        else retire (act.foldl (fun t l => t.skInsert ag.unit p (ctl.getLsbD 31) n (ag.vpGet d.toNat l) (ag.vsrcP b l)) s) id ag

/-! ### SKRECON and SKSTAT -/

/-- The link dies that are present, ascending (R280): where the capability table still counts one that has been isolated, it is
one of those that are not fenced. -/
def State.linkDies (s : State) : List Nat :=
  let up := [14, 15].filter (fun d => (s.die d).link == .up)
  if up.length = ((s.capWord 2).extractLsb' 8 8).toNat then up else [14, 15].filter (fun d => (s.die d).link != .fenced)

/-- Read a reconciliation block of a unit (R279): the fields, and whether it is malformed. -/
def parseRecon (u : Nat) (bs : List Byte) : Recon × Bool :=
  let w := fun o => BitVec.ofNat 32 (leVal ((bs.drop o).take 4))
  let half := fun o => leVal ((bs.drop o).take 2)
  let peer : Word := w 4
  let ctl : Word := w 20
  let rnd := (ctl.extractLsb' 24 4).toNat
  let lim := (ctl.extractLsb' 21 3).toNat
  let cells := (w 8).toNat
  let minc := (w 12).toNat
  let maxc := (w 16).toNat
  let gf := ctl.getLsbD 20
  let mode := ctl.getLsbD 19
  let sk : DWord := w 28 ++ w 24
  let set : DWord := w 36 ++ w 32
  let grow := if gf then 4 else 2
  let r : Recon :=
    { agent := 0, hnd := 0, unit_ := u, engine := 0, part := 0, cls := w 0, dom := peer.extractLsb' 20 12,
      pkg := peer.extractLsb' 11 9, cells := cells, minc := minc, maxc := maxc, rnd := rnd, lim := lim, gf := gf,
      mode := mode, wait := max 1 (ctl.extractLsb' 8 8).toNat, sk := sk, set := set, nset := (w 40).toNat, out := half 44,
      nout := half 46 }
  let own := sk.getLsbD 63
  (r,
    peer.extractLsb' 0 11 != 0 || ctl.extractLsb' 28 4 != 0 || ctl.extractLsb' 16 3 != 0 || ctl.extractLsb' 0 8 != 0 ||
    leVal (bs.drop 48) != 0 || minc % 3 != 0 || maxc % 3 != 0 || cells % 3 != 0 ||
    decide (minc < (if mode then 6 else 48)) || decide (196608 < maxc) || decide (maxc < minc) ||
    cells != min (minc * grow ^ rnd) maxc || decide (lim < rnd) || set.extractLsb' 0 4 != 0 || r.nout == 0 ||
    (own && (sk.extractLsb' 32 31 != 0 || decide (spadSize u < spPart sk + cellBytes * cells))) ||
    decide (plotCount u < r.out + r.nout))

/-- The own-scratchpad plots of a reconciliation: its output, and its sketch where that lies there (R280). -/
def Recon.plots (r : Recon) : List Nat :=
  (if r.sk.getLsbD 63 then plotsOf r.unit_ (spPart r.sk) (cellBytes * r.cells) else []) ++ List.range' r.out r.nout

/-- The four words SKSTAT returns (R286). -/
def Recon.stat (r : Recon) : List Word :=
  [BitVec.ofNat 32 r.residual, BitVec.ofNat 32 r.npairs, BitVec.ofNat 32 (min r.sent (2 ^ 32 - 1)),
   BitVec.ofNat 32 (r.reason + 16 * r.rnd)]

/-- SKRECON (R279, R280). -/
def execSkrecon (g : BitVec 2) (d : BitVec 6) (a : Src) (s : State) : Out :=
  issue waveOnly g s fun id ag =>
    if !s.hasUnit 1 then trapWord s id ag 0x04
    else if !ag.fires g then retire s id ag
    else
      let u := ag.unit
      let p := (ag.src a).toNat
      if p % 32 ≠ 0 ∨ spadSize u < p + 64 then addrTrap s id ag (BitVec.ofNat 64 p)
      else
        match s.enginePlot u p 64 with
        | some k => trapHere s id ag 0x06 (BitVec.ofNat 64 k)
        | none =>
          if ag.barred then waitFor s id ag .again
          else
            let (r, bad) := parseRecon u (s.spadRead u p 64)
            if bad then
              if ag.hPending d.toNat then waitFor s id ag .again
              else
                let st := ({ r with reason := 6 } : Recon).stat
                retire s id (ag.hSet d.toNat { st := .done, status := hStatus 3 0, stat := st })
            else
              match (s.unit u).notFree r.plots with
              | some k => trapHere s id ag 0x06 (BitVec.ofNat 64 k)
              | none =>
                let e := nth 14 s.linkDies (r.cls.toNat % s.linkDies.length)
                let queued := (s.fab.recons.filter (fun x => x.2.engine == e && x.2.started.isNone)).length
                if ag.hPending d.toNat || decide (32 ≤ queued) || !s.releaseReady id ag 5 (ag.nextTag + 1) then
                  waitFor s id ag .again
                else
                  let s := s.released id 5
                  let ag := (s.agent? id).getD ag
                  let n := s.fab.nextOp
                  let r := { r with agent := id, hnd := d.toNat, engine := e, part := ag.part, launch := ag.launch }
                  let s := s.putUnit u ((s.unit u).bindPlots r.plots n)
                  let s := { s with fab := { s.fab with recons := Tab.put s.fab.recons n r, nextOp := n + 1 } }
                  retire s id (ag.hSet d.toNat { st := .pending, op := n })

/-- SKSTAT (R286). -/
def execSkstat (g : BitVec 2) (d a : BitVec 6) (s : State) : Out :=
  issue waveOnly g s fun id ag =>
    if !s.hasUnit 1 then trapWord s id ag 0x04
    else if !ag.fires g then retire s id ag
    else
      let h := ag.hGet a.toNat
      if h.st = .pending then waitFor s id ag .again
      else
        let ws := if h.stat.isEmpty then [0, 0, 0, 15] else h.stat
        let s := if h.st = .done then s.acquire ag 3 else s
        retire s id (ws.zipIdx.foldl (fun t e => t.sSet (d.toNat + e.2) e.1) ag)

/-! ### The peel (R282) -/

/-- The peer's sketch subtracted from this one, cell by cell. -/
def skSub (a b : Cell) : Cell :=
  { count := a.count - b.count, chk := a.chk ^^^ b.chk, kx := a.kx ^^^ b.kx, px := a.px ^^^ b.px }

/-- Cell `i` of the difference is pure. -/
def Cell.pure (c : Cell) (mode : Bool) (t i : Nat) : Bool :=
  (c.count == 1 || c.count == -1) && c.chk == skChk mode c.kx c.px && [0, 1, 2].any (fun j => skCell mode c.kx c.px t j == i)

/-- Remove an entry from its cells. -/
def skRemove (mode : Bool) (t : Nat) (cs : List Cell) (k p : DWord) (n : Word) : List Cell :=
  [0, 1, 2].foldl (fun acc j =>
    let i := skCell mode k p t j
    setNth acc i ((nth {} acc i).put mode k p (-n))) cs

/-- A record of the output: key, payload, side (R283). -/
abbrev PeelRec := DWord × DWord × Nat

/-- One ascending pass over the cells; at most `cap` pairs are emitted in all. -/
def peelPass (mode : Bool) (t cap : Nat) : List Nat → List Cell → List PeelRec → List Cell × List PeelRec
  | [], cs, out => (cs, out)
  | i :: rest, cs, out =>
    let c := nth {} cs i
    if c.pure mode t i ∧ out.length < cap then
      peelPass mode t cap rest (skRemove mode t cs c.kx c.px c.count)
        (out ++ [(c.kx, c.px, if c.count = 1 then 0 else 1)])
    else peelPass mode t cap rest cs out

/-- The passes until one makes no progress; each emits at least one of at most `cells` pairs. -/
def peelAll (mode : Bool) (t cap : Nat) : Nat → List Cell → List PeelRec → List Cell × List PeelRec
  | 0, cs, out => (cs, out)
  | n + 1, cs, out =>
    let (cs', out') := peelPass mode t cap (List.range cs.length) cs out
    if out'.length = out.length then (cs, out) else peelAll mode t cap n cs' out'

/-- The peel of two sketches: the cells that are left and the pairs in the order emitted (R282). -/
def peel (mode : Bool) (mine peer : List Cell) : List Cell × List PeelRec :=
  let n := mine.length
  peelAll mode (n / 3) n (n + 1) (mine.zipWith skSub peer) []

/-- Key, payload, side as one number for the order of R284. -/
def recOrder (a b : PeelRec) : Bool :=
  let v := fun (x : PeelRec) => (x.1.toNat * 2 ^ 64 + x.2.1.toNat) * 2 + x.2.2
  decide (v a ≤ v b)

/-- The pairs in exactly one of two arrays, ascending (R284). -/
def fullDiff (mine peer : List (DWord × DWord)) : List PeelRec :=
  let only := fun (xs ys : List (DWord × DWord)) (side : Nat) =>
    (xs.filter (fun e => !ys.contains e)).map (fun (e : DWord × DWord) => ((e.1, e.2, side) : PeelRec))
  (only mine peer 0 ++ only peer mine 1).insertionSort (fun a b => recOrder a b = true)

/-- The 24 bytes of an output record (R283). -/
def recBytes (rnd : Nat) (r : PeelRec) : List Byte :=
  leBytes 8 r.1.toNat ++ leBytes 8 r.2.1.toNat ++ leBytes 4 r.2.2 ++ leBytes 4 rnd

end Sys2Proof.Machine
end

