-- ==== Sys2Proof/Machine/Platform.lean ====
section
/-! DEFINITION. Dies and the package: the loss of a CXL device (R30), the capability table (R18 to R20), enumeration, heartbeats, isolation and self-test
(R15, R17, R356 to R358), fencing (R359, R360), links (R251, R252), start-up (R361 to R364), and power (R27, R319,
R371). -/
namespace Sys2Proof.Machine

/-! ### The CXL tier -/

/-- The first 4 KiB block of a leaf that lies on a CXL port (R30). -/
def State.onPort (s : State) (port : Nat) (e : DWord) (size : Nat) : Option Nat :=
  let n := s.plat.cxl.length
  (List.range ((size + 4095) / 4096)).map (fun i => pteBase e + 4096 * i) |>.find? (fun pa =>
    paKind pa == .cxl && nth 0 (s.plat.cxl.map (fun c => c.1)) ((pa - cxlBase) / 4096 % n) == port)

/-- CXL_DEVICE_LOSS (R30): the device's blocks become unbacked, and each partition with a page there has a record. -/
def execCxlDeviceLoss (port : Nat) (s : State) : Out :=
  .next (if s.plat.cxl.all (fun e => e.1 != port) || s.plat.cxlLost.contains port then s
    else
      let hit := fun (p : Nat) => (s.harvestList p .all).findSome?
        (fun x => (s.onPort port x.2.1 x.2.2).map (fun pa => (pa, pteSlot x.2.1)))
      let s' := { s with plat := { s.plat with cxlLost := s.plat.cxlLost ++ [port] } }
      (List.range 64).foldl (fun t p => match hit p with
        | some (pa, slot) => t.record p { kind := 0x14, slot := slot, pa := BitVec.ofNat 64 pa } .everyJob 0xFFFFFFFF
        | none => t) s')

/-! ### The capability table -/

/-- The dies of a kind that are present: open, and for a compute die with a unit left (R19). -/
def State.diesUp (s : State) (ds : List Nat) : Nat :=
  (ds.filter (fun d => (s.die d).link == .up && (decide (14 ≤ d) || (s.die d).units != 0))).length

/-- The units from `lo` that are present, as a mask. -/
def State.unitMask (s : State) (lo n : Nat) : Nat := ((List.range n).map (fun i => if s.unitUp (lo + i) then 2 ^ i else 0)).sum

/-- The words of the capability table (R18, R19). -/
def State.capWords (s : State) : List Nat :=
  let bit := fun (n : Nat) (b : Bool) => if b then 2 ^ n else 0
  let cmask := s.unitMask 0 192
  let qmask := s.unitMask 192 32
  let pop := fun (x n : Nat) => ((List.range n).filter (fun i => x.testBit i)).length
  let links := s.diesUp [14, 15]
  [0x01880000,
   bit 5 s.rot.replReq + bit 4 s.rot.degraded + bit 3 (decide (0 < s.plat.podPorts)) + bit 2 true + bit 1 (decide (0 < links)) + bit 0 true,
   s.diesUp (List.range' 2 8) * 2 ^ 24 + s.diesUp (List.range' 10 4) * 2 ^ 16 + links * 256 + s.plat.cxl.length,
   pop qmask 32 * 65536 + pop cmask 192,
   qmask] ++
  (List.range 6).map (fun i => cmask / 2 ^ (32 * i) % 2 ^ 32) ++
  [(8192 - s.ms.banksOff.length) / 16 * 65536 + 1024, min 8192 s.cxlGib, 4 * links * 2 ^ 24 + 256 * 4096, 1400 * 65536 + 2000]

/-- Build the table's words. -/
def State.buildCap (s : State) : State :=
  { s with rot := { s.rot with cap := s.capWords.zipIdx.foldl (fun t e => Tab.set 0 t e.2 (BitVec.ofNat 32 e.1)) [] } }
/-- The part code of the capability table (R19): which GM8000 part this is. -/
def State.partCode (s : State) : Nat := ((Tab.get 0 s.rot.cap 0).extractLsb' 16 8).toNat
/-- Increment `gen`. -/
def State.bumpGen (s : State) : State := { s with rot := { s.rot with capGen := s.rot.capGen + 1 } }
/-- A rewrite is in progress: `gen` is odd (R20). -/
def State.capBusy (s : State) : Bool := s.rot.capGen.getLsbD 0
/-- Begin a rewrite of the table: `gen` becomes odd; one that is in progress covers this change too (R20). -/
def State.rewriteCap (s : State) : State := if s.capBusy then s else s.bumpGen
/-- The next step of a rewrite in progress (R20): the words are rewritten, and once they stand, `gen` becomes even. -/
def State.capStep (s : State) : State :=
  if !s.capBusy then s
  else if s.buildCap.rot.cap = s.rot.cap then s.bumpGen
  else s.buildCap

/-! ### Fencing -/

/-- Replace a die. -/
def State.putDie (s : State) (n : Nat) (d : Die) : State := { s with plat := { s.plat with dies := Tab.put s.plat.dies n d } }

/-- Count fenced units and request a replacement at the threshold (R360). -/
def State.countFenced (s : State) (n : Nat) : State :=
  let k := s.rot.nFenced + n
  let thr := (s.rot.replThr.extractLsb' 0 8).toNat
  { s with rot := { s.rot with nFenced := k, degraded := true, replReq := s.rot.replReq || (thr != 0 && decide (thr ≤ k)) } }

/-- Bytes 12 to 15 of a record of kind 0x35 (R354). -/
def fenceWord (kind die index : Nat) : Word := BitVec.ofNat 32 (kind * 2 ^ 28 + die % 256 * 2 ^ 20 + index % 2 ^ 20)

/-- The launch whose group is on a unit, a member of a quadrant set included. -/
def State.jobOn (s : State) (u : Nat) : Option Nat :=
  let x := s.unit u
  match x.ustate with
  | .free => none
  | .reserved => some (s.unit x.leader).launch
  | _ => some x.launch

/-- The record of fenced units: one to each partition that held some of them, for each launch that had a group there, and to
the resident service, which has it alone where none held them (R353, R360, R378). -/
def State.recordFence (s : State) (us : List Nat) (w : Word) : State :=
  let e : ErrRec := { kind := 0x35, w12 := w }
  let ps := (us.filterMap (fun u => (s.unit u).holder)).eraseDups
  if ps.isEmpty then s.recordRs 0 e
  else ps.foldl (fun t p =>
    let used := us.filter (fun u => (s.unit u).holder == some p && (s.jobOn u).isSome)
    match used with
    | [] => t.record p e .noJob 0xFFFFFFFF
    | u :: _ => t.record p e (.jobs (used.filterMap s.jobOn).eraseDups) (BitVec.ofNat 32 u)) s

/-- Remove an agent with everything it has not performed (R358). -/
def State.loseAgent (s : State) (id : Nat) : State :=
  { s with
    agents := Tab.erase s.agents id,
    fab := { s.fab with
      posted := s.fab.posted.filter (fun e => e.2.agent != id),
      wsigs := s.fab.wsigs.filter (fun e => e.2.agent != id) } }

/-- Every agent of a unit is lost, those that have ended and whose writes still go on among them (R358). -/
def State.loseAgents (s : State) (u : Nat) : State :=
  (s.agents.filter (fun e => e.2.profile != .host && e.2.unit == u)).foldl (fun t e => t.loseAgent e.1) s

/-- The group that runs on a unit is lost with everything its agents have not performed, with its record, and its launch may be
complete with that (R316, R354, R358, R378). -/
def State.loseGroup (s : State) (u : Nat) : State :=
  let x := s.unit u
  match x.ustate with
  | .free => s.loseAgents u
  | .reserved => s.loseAgents u
  | _ =>
    let s := s.record x.part { kind := 0x32, w12 := BitVec.ofNat 32 (if u < 192 then u else u - 192) } (.job x.launch) (BitVec.ofNat 32 u)
    ((s.loseAgents u).endGroup u).checkLaunch x.launch

/-- A unit's presence bit clears (R360). -/
def State.fenceBit (s : State) (u : Nat) : State :=
  let d := s.die (unitDie u)
  (s.putDie (unitDie u) { d with units := d.units &&& (2 ^ 48 - 1 - 2 ^ unitIdx u), fenced := d.fenced ||| 2 ^ unitIdx u }).countFenced 1

/-- Fence a unit (R360): its group is pre-empted, or lost where the unit no longer answers, and its presence bit clears. -/
def State.fenceUnit (s : State) (u : Nat) (answers : Bool) : State :=
  let g := if (s.unit u).ustate = .reserved then (s.unit u).leader else u
  (if answers then s.preempt g
    else
      let t := s.loseGroup g
      t.putUnit u { t.unit u with slog := [], slogQ := [] }).fenceBit u

/-- FENCE_CU (R360). The step says whether the unit still answers (log 77). -/
def execFenceCu (die c : Nat) (answers : Bool) (s : State) : Out :=
  let u := 48 * (die - 10) + c
  .next (if 10 ≤ die ∧ die ≤ 13 ∧ c < 48 ∧ s.unitUp u then
    ((s.recordFence [u] (fenceWord 0 die c)).fenceUnit u answers).rewriteCap else s)

/-- FENCE_QUADRANT (R360). -/
def execFenceQuadrant (die q : Nat) (answers : Bool) (s : State) : Out :=
  let u := 192 + 4 * (die - 2) + q
  .next (if 2 ≤ die ∧ die ≤ 9 ∧ q < 4 ∧ s.unitUp u then
    ((s.recordFence [u] (fenceWord 1 die q)).fenceUnit u answers).rewriteCap else s)

/-- FENCE_DRAM_BANK (R359, R360): the bank's lines become unbacked. -/
def execFenceDramBank (stack bank : Nat) (s : State) : Out :=
  .next (if 7 < stack ∨ 1023 < bank ∨ Tab.get false s.ms.banksOff (1024 * stack + bank) then s
    else
      let s := { s with ms := { s.ms with banksOff := Tab.set false s.ms.banksOff (1024 * stack + bank) true } }
      ((s.recordRs 0 { kind := 0x35, w12 := fenceWord 2 stack bank }).countFenced 1).rewriteCap)

/-- A link by its number: 0 to 3 the ring links, 16 + die a die's own (log 30). -/
def State.link (s : State) (n : Nat) : RingLink := Tab.get {} s.plat.links n
/-- Replace a link. -/
def State.putLink (s : State) (n : Nat) (l : RingLink) : State := { s with plat := { s.plat with links := Tab.put s.plat.links n l } }
/-- The width a link falls to when a lane fails: x16, x8, x4, then none (R252). -/
def narrower (w : Nat) : Nat := if w = 16 then 8 else if w = 8 then 4 else 0

/-- A link goes down, and the resident service has a record (R251, log 112). -/
def State.downLink (s : State) (n : Nat) : State :=
  let (k, s) := (s.putLink n { s.link n with down := true, unacked := [] }).draw
  s.recordRs 0 { kind := (Config.linkKind k).toNat }

/-- A forced change of width: every unacknowledged flit is sent again (R252). -/
def State.narrow (s : State) (n width : Nat) : State :=
  let l := s.link n
  if width = 0 then s.downLink n
  else s.putLink n { l with width := width, unacked := l.unacked.map (fun f => (f.1, f.2 + 1)) }

/-- FENCE_LINK_LANE (R359, R360): the link's width falls. -/
def execFenceLinkLane (die lane : Nat) (s : State) : Out :=
  .next (if (s.die die).link ≠ .up ∨ 15 < lane then s
    else
      let s := s.narrow (16 + die) (narrower (s.link (16 + die)).width)
      ((s.recordRs 0 { kind := 0x35, w12 := fenceWord 3 die lane }).countFenced 1).rewriteCap)

/-- The units of a die. -/
def dieUnits (die : Nat) : List Nat :=
  if 10 ≤ die ∧ die ≤ 13 then List.range' (48 * (die - 10)) 48 else if 2 ≤ die ∧ die ≤ 9 then List.range' (192 + 4 * (die - 2)) 4 else []

/-- FENCE_DIE (R359, R360): every unit of the die, each holder with one record; the link of a die without units closes.
Rotunda, die 0, stands behind no link of its own (log 77). -/
def execFenceDie (die : Nat) (answers : Bool) (s : State) : Out :=
  .next (if ((s.die die).link ≠ .up ∧ die ≠ 0) ∨ 15 < die then s
    else
      let us := (dieUnits die).filter s.unitUp
      let t := s.recordFence us (fenceWord 4 die 0)
      let t := if us.isEmpty then t.countFenced 1 else us.foldl (fun t u => t.fenceUnit u answers) t
      let d := t.die die
      (t.putDie die { d with link := if die = 0 ∨ !(dieUnits die).isEmpty then d.link else .fenced, units := 0, fenced := 2 ^ 48 - 1 }).rewriteCap)

/-! ### Links -/

/-- The fewest resends that take a link down (R251). -/
def resendLimit : Nat := 16

/-- FLIT_ACK (R251): flits below the base are accepted, those the bitmap names are sent again, the others of its 64 are
accepted; a flit that is named again after 16 resends takes the link down. -/
def execFlitAck (link : Nat) (base : BitVec 8) (bitmap : BitVec 64) (s : State) : Out :=
  let l := s.link link
  let next := l.unacked.filterMap (fun f =>
    let i := (f.1 - base).toNat
    if i < 64 then (if bitmap.getLsbD i then some (f.1, f.2 + 1) else none) else if i < 128 then some f else none)
  .next (if l.down then s
    else if next.any (fun f => decide (resendLimit < f.2)) then s.downLink link
    else s.putLink link { l with unacked := next })

/-- LINK_WIDTH_CHANGE (R252): the resident service lowers a link's width. -/
def execLinkWidthChange (link width : Nat) (s : State) : Out :=
  let l := s.link link
  .next (if (width = 8 ∨ width = 4) ∧ width < l.width ∧ !l.down then s.putLink link { l with width := width } else s)

/-- The die of a link by its number: a ring link is a bridge station's (R245, log 30). -/
def linkDie (n : Nat) : Nat := if n < 16 then 14 + n / 2 else n - 16

/-- LANE_FAILURE (R252, R359, R360): hardware fences the lane, which is numbered by the width that is left (log 77). -/
def execLaneFailure (link width : Nat) (s : State) : Out :=
  let l := s.link link
  .next (if l.down ∨ l.width ≤ width ∨ (width ≠ 8 ∧ width ≠ 4 ∧ width ≠ 0) then s
    else
      let s := s.narrow link width
      ((s.recordRs 0 { kind := 0x35, w12 := fenceWord 3 (linkDie link) width }).countFenced 1).rewriteCap)

/-! ### Isolation -/

/-- The units of a partition that ends are quiet (R369): what its agents wrote is performed, its copies are done, and its side-log
entries are replayed or discarded. -/
def State.partQuiet (s : State) (p : Nat) : Bool :=
  s.agents.all (fun e => e.2.part != p || e.2.profile == .host || (!e.2.live && e.2.pend.isEmpty)) &&
  s.fab.copies.all (fun e => e.2.part != p) && s.fab.recons.all (fun e => e.2.part != p) &&
  s.units.all (fun e => e.2.slog.all (fun x => x.part != p))

/-- The last steps of a job's end, once its units are quiet (R369): its key slots are destroyed, and its units have no holder. -/
def State.endPart (s : State) (p : Nat) : State :=
  let mine := s.ms.keys.filter (fun (e : Nat × KeySlot) => e.1 != 0 && e.2.st == 1 && e.2.owner == p && !e.2.shared)
  let s := mine.foldl (fun t e => t.killKey e.1) s
  let units := s.units.map (fun (e : Nat × UnitSt) => if e.2.holder = some p then (e.1, { e.2 with holder := none }) else e)
  { s with units := units, hub := { s.hub with parts := Tab.erase s.hub.parts p, ending := s.hub.ending.filter (fun q => q != p) } }

/-- The partitions whose end has waited for their units end, where these are quiet now. -/
def State.endParts (s : State) : State := (s.hub.ending.filter s.partQuiet).foldl State.endPart s

/-- HEARTBEAT (R358): every 10 µs. The temperature classes of the die's units come with its answer (R332, log 3). A rewrite of
the capability table that is in progress makes its next step with a heartbeat (R20, log 6), and so does the end of a partition
(R369, log 129). -/
def execHeartbeat (die : Nat) (answered : Bool) (temps : List Nat) (s : State) : Out :=
  let s := s.capStep.endParts
  let d := s.die die
  .next (if d.link ≠ .up ∨ die < 1 ∨ 15 < die then s
    else
      let s := s.putDie die { d with silent := if answered then 0 else d.silent + 10 }
      if answered then
        ((dieUnits die).zip temps).foldl (fun t e => t.putUnit e.1 { t.unit e.1 with temp := e.2 % 8 }) s
      else s)

/-- Circuits with an endpoint on a die go down (R358). -/
def State.dropCircuits (s : State) (die : Nat) : State :=
  { s with rot := { s.rot with circ := s.rot.circ.map (fun e =>
      if (e.2.extractLsb' 48 8).toNat = die ∨ (e.2.extractLsb' 40 8).toNat = die then
        (e.1, e.2 &&& 0x9FFFFFFFFFFFFFFF) else e) } }

/-- Send a packet on to the lowest free unit that takes it, or let it wait (R310, R358). -/
def State.redirect (s : State) (k : Packet) : Packet :=
  match s.launch? k.launch with
  | some x => { k with dest := (s.places x).headD noDest }
  | none => { k with dest := noDest }

/-- Re-dispatch the packets on their way to a die, one after another, in the order given (R310, R358). -/
def State.redispatch (s : State) (die : Nat) : List Packet → State
  | [] => s
  | k :: t =>
    if k.dest ≠ noDest ∧ unitDie k.dest = die then
      let s := { s with hub := { s.hub with packets := s.hub.packets.filter (fun q => q != k) } }
      let k' := s.redirect k
      State.redispatch { s with hub := { s.hub with packets := s.hub.packets ++ [k'] } } die t
    else State.redispatch s die t

/-- ISOLATION (R358, R273): a chiplet silent for 100 µs. Operations of its engines end with it; a request at an isolated
link die's reconcile engine completes with address-error status. -/
def execIsolation (die : Nat) (s : State) : Out :=
  let d := s.die die
  .next (if d.link ≠ .up ∨ d.silent < 100 ∨ die < 2 ∨ 15 < die then s
    else
      let s := (s.putDie die { d with link := .fenced }).dropCircuits die
      let s := if 10 ≤ die ∧ die ≤ 13 then s.cleanPeer (die - 8) else s
      let s := (dieUnits die).foldl State.loseGroup s
      let gone := fun (u : Nat) => (dieUnits die).contains u
      let s := { s with
        fab := { s.fab with
          copies := s.fab.copies.filter (fun (e : Nat × Copy) => !gone e.2.unit_),
          recons := (s.fab.recons.filter (fun (e : Nat × Recon) => !gone e.2.unit_)).map (fun (e : Nat × Recon) =>
            if e.2.engine = die then (e.1, { e.2 with code := some 2 }) else e) },
        units := s.units.map (fun (e : Nat × UnitSt) => if gone e.1 then (e.1, { holder := e.2.holder, temp := e.2.temp }) else e),
        quads := s.quads.filter (fun (e : Nat × QuadSt) => !gone (192 + e.1)),
        ms := { s.ms with
          l1 := s.ms.l1.filter (fun (e : Nat × Tab Byte) => !gone e.1),
          l2 := s.ms.l2.filter (fun (e : Nat × Tab Byte) => !(10 ≤ die && die ≤ 13 && e.1 / 12 + 10 == die)),
          l1at := s.ms.l1at.filter (fun (e : Nat × Tab Nat) => !gone e.1),
          l2at := s.ms.l2at.filter (fun (e : Nat × Tab Nat) => !(10 ≤ die && die ≤ 13 && e.1 / 12 + 10 == die)),
          code := s.ms.code.filter (fun (e : Nat × Tab Half) => !gone e.1),
          own := s.ms.own.filter (fun (e : Nat × Tab Half) => !gone e.1) },
        mem := (dieUnits die).foldl (fun m u => Tab.dropRange m (spadBase u) (spadSize u)) s.mem }
      let s := s.redispatch die (s.hub.packets.insertionSort (fun a b => s.packetRank a ≤ s.packetRank b))
      s.putDie die { (s.die die) with link := .resetting, units := 0, silent := 0 })

/-- CHIPLET_SELF_TEST (R358): the reset chiplet presents its units and waits for its enumeration. -/
def execChipletSelfTest (die mask : Nat) (s : State) : Out :=
  let d := s.die die
  .next (if d.link = .resetting then s.putDie die { d with link := .down, present := mask % 2 ^ (dieUnits die).length } else s)

/-- The queue identifiers of a die's units: Cat(die, unit) (R15). -/
def queueIds (die : Nat) : List Half := (List.range (dieUnits die).length).map (fun i => BitVec.ofNat 16 (256 * die + i))

/-- Enumerate a die whose record presents the units of a mask (R15): its queue identifiers are assigned, its incarnation rises and
its link opens; units that are missing are fenced (R360). -/
def State.enumerate (s : State) (die mask : Nat) : State :=
  let d := s.die die
  let n := (dieUnits die).length
  let all := 2 ^ n - 1
  let bad := (all ^^^ (mask % 2 ^ n &&& all)) &&& (all ^^^ (d.fenced &&& all))
  let up := { d with link := .up, inc := d.inc + 1, present := mask % 2 ^ n, units := mask % 2 ^ n &&& (all ^^^ (d.fenced &&& all)),
                     qids := queueIds die, fenced := d.fenced ||| bad, silent := 0, enumAt := some s.ntime }
  let s := s.putDie die up
  let k := ((List.range n).filter (fun i => bad.testBit i)).length
  if k = 0 then s else s.countFenced k

/-- Enumerate a die, with the records of the units that fail (R15, R360). -/
def State.introduce (s : State) (die mask : Nat) : State :=
  let bad := (dieUnits die).filter (fun u => !(mask.testBit (unitIdx u)) && !((s.die die).fenced.testBit (unitIdx u)))
  let kind := if 10 ≤ die then 0 else 1
  bad.foldl (fun t u => t.recordFence [u] (fenceWord kind die (unitIdx u))) (s.enumerate die mask)

/-- A die that does not enumerate is fenced whole (R360, R364). -/
def State.fenceAbsent (s : State) (die : Nat) : State :=
  let s := (s.putDie die { s.die die with link := .fenced, fenced := 2 ^ 48 - 1 }).countFenced (max 1 (dieUnits die).length)
  s.recordRs 0 { kind := 0x35, w12 := fenceWord 4 die 0 }

/-- ENUMERATION (R15, R20, R357): of a chiplet that has presented its units, no sooner than 16 ms after the last. -/
def execEnumeration (die : Nat) (s : State) : Out :=
  let d := s.die die
  let soon : Bool := match d.enumAt with
    | some t => (s.ntime - t).ult 16000000
    | none => false
  .next (if d.link ≠ .down ∨ soon ∨ 15 < die ∨ die < 1 ∨ (s.rot.bootSt.extractLsb' 24 8).toNat < 3 then s
    else (s.introduce die d.present).rewriteCap)

/-- STALE_RESPONSE_DROP (R356): a response of an old incarnation of the requester or the responder. -/
def execStaleResponseDrop (reqDie : Nat) (reqInc : BitVec 8) (rspDie : Nat) (rspInc : BitVec 8) (s : State) : Out :=
  .next (if (s.die reqDie).inc ≠ reqInc ∨ (s.die rspDie).inc ≠ rspInc then
    { s with rot := { s.rot with incDrop := s.rot.incDrop + 1 } } else s)

/-! ### Start-up -/

/-- Where the firmware slots begin in the boot flash (log 31). -/
def slotBase (b : Bool) : Nat := if b then 0x8000000 else 0
/-- Bytes of the boot flash. -/
def State.flashBytes (s : State) (off n : Nat) : List Byte := (List.range n).map (fun i => Tab.get 0 s.plat.flash (off + i))

/-- A firmware slot: its header and its body (R361). -/
def State.fwHeader (s : State) (b : Bool) : List Byte := s.flashBytes (slotBase b) 512
/-- The length field of a header. -/
def fwLen (h : List Byte) : Nat := leVal ((h.drop 12).take 4)
/-- The security version of a header. -/
def fwSvn (h : List Byte) : Nat := leVal ((h.drop 8).take 4)
/-- The header's bytes that no field covers are zero (R361, R362). -/
def fwPad (h : List Byte) : Bool :=
  h.zipIdx.all (fun e => e.1 == 0 || decide (e.2 < 24) || (decide (64 ≤ e.2) && decide (e.2 < 197)) || (decide (200 ≤ e.2) && decide (e.2 < 332)))

/-- The first check of R362 that a slot fails; 0 where it passes all. -/
def State.fwCheck (s : State) (b : Bool) : Nat :=
  let h := s.fwHeader b
  let len := fwLen h
  if leVal (h.take 4) ≠ 0x4A584657 ∨ len % 64 ≠ 0 ∨ len < 64 ∨ 0x4000000 < len ∨ !fwPad h then 1
  else if sha512 ((h.drop 64).take 133) ≠ s.plat.rootHash then 2
  else
    let digest := sha512 (h.take 200 ++ s.flashBytes (slotBase b + 512) len)
    if !ecdsaOk ((h.drop 64).take 133) ((h.drop 200).take 132) digest then 3
    else if fwSvn h < s.rot.svnFuse then 4 else 0

/-- The sixteen cores begin at a physical entry address (R13, R362, log 17). -/
def State.startCores (s : State) (entry : DWord) : State :=
  (List.range 16).foldl (fun t n =>
    t.putAgent (coreBase + n) { profile := .host, die := 1, cu := BitVec.ofNat 8 n, run := { pc := entry } }) s

/-- The ROM boots a slot that passed: its body is copied to the carve-out, and the cores start from the copy (R362,
log 31). -/
def State.bootSlot (s : State) (b : Bool) : State :=
  let h := s.fwHeader b
  let body := s.flashBytes (slotBase b + 512) (fwLen h)
  let ways := (fwLen h + wayBytes - 1) / wayBytes
  let s := { s with
    rot := { s.rot with orngWay := (List.range ways).foldl (fun t w => Tab.set 0 t w (wayWord 2 0 0)) s.rot.orngWay },
    plat := { s.plat with halted := false, bootHash := sha512 (h.take 200 ++ body), bootSvn := fwSvn h } }
  let s := body.zipIdx.foldl (fun t e => t.setHome (carveBase + e.2) e.1) s
  s.startCores (BitVec.ofNat 64 (leVal ((h.drop 16).take 8)))

/-- A field of `boot_st` is written (R363). -/
def bootField (w : Word) (lo len v : Nat) : Word := (w &&& ~~~(BitVec.ofNat 32 ((2 ^ len - 1) * 2 ^ lo))) ||| BitVec.ofNat 32 (v * 2 ^ lo)
/-- Stage 1 of start-up is complete with the slot that booted (R363, R364). -/
def bootedWord (w : Word) (slot : Nat) : Word := bootField (bootField w 24 8 1) 0 1 slot

/-- PACKAGE_RESET (R32, R362, R363): everything returns to its reset value but the flash, the fuses and, over a warm
reset, `boot_st`; slot A is tried, then slot B. DESIGN CHOICE (log 75): a start-up writes the fields of `boot_st` of what it does,
a check that fails, the slot that boots and the stage that completes, and leaves the others. -/
def execPackageReset (cold : Bool) (s : State) : Out :=
  let t : State := { State.reset with
    free := s.free,
    rot := { State.reset.rot with svnFuse := s.rot.svnFuse, bootSt := if cold then 0 else s.rot.bootSt },
    plat := { State.reset.plat with flash := s.plat.flash, rootHash := s.plat.rootHash, certs := s.plat.certs, idKey := s.plat.idKey } }
  let a := t.fwCheck false
  .next (if a = 0 then
      let t := t.bootSlot false
      { t with rot := { t.rot with bootSt := bootedWord t.rot.bootSt 0 } }
    else
      let t := { t with rot := { t.rot with bootSt := bootField t.rot.bootSt 8 4 a } }
      let b := t.fwCheck true
      if b = 0 then
        let t := t.bootSlot true
        { t with rot := { t.rot with bootSt := bootedWord t.rot.bootSt 1 } }
      else { t with rot := { t.rot with bootSt := bootField t.rot.bootSt 16 4 b }, plat := { t.plat with halted := true } })

/-- A partition as stage 7 or a management request creates it: its units, its range of the dependency table, a
measurement register of zeros (R315, R364, R366, R368); a CU that passes to it has its activation tables zeroed and `front` 0
(R189). -/
def State.createPart (s : State) (c : PartCfg) : State :=
  let s := { s with hub := { s.hub with parts := Tab.put s.hub.parts c.part c },
                    plat := { s.plat with meas := Tab.erase s.plat.meas c.part } }
  (c.units.filter (fun u => decide (u < 224) && (s.unit u).holder.isNone)).foldl
    (fun t u => t.putUnit u { t.unit u with holder := some c.part, act0 := {}, act1 := {}, front := false }) s

/-- A key slot is loaded with a fresh key for its owner (R34). -/
def State.loadKey (s : State) (e : Nat × Nat × Bool) : State :=
  let k : KeySlot := { st := 1, owner := e.2.1 % 64, shared := e.2.2, key := s.ms.nextKey }
  { s with ms := { s.ms with keys := Tab.put s.ms.keys e.1 k, nextKey := s.ms.nextKey + 1 } }

/-- What stage 7 loads can be loaded (R364): each key slot is empty, each policy image passes POLLD's checks (R343). -/
def State.loadable (s : State) (c : BootCfg) : Bool :=
  c.keys.all (fun e => decide (e.1 < 256) && (Tab.get {} s.ms.keys e.1).st == 0) && decide ((c.keys.map (fun e => e.1)).Nodup) &&
  c.images.all (fun e => decide (e.1 < 64) && decide (1 ≤ e.2.length) && decide (e.2.length ≤ 512) && (polCheck e.2 false).1 == 0)

/-- Stage 7 (R364): partitions, key slots, trap tables and policy images are loaded, and what else a partition runs from; each
image extends its partition's measurement (R366); partitions are paired with other packages' (R242). -/
def State.loadParts (s : State) (c : BootCfg) : State :=
  let s := c.parts.foldl State.createPart s
  let s := c.keys.foldl State.loadKey s
  let s := { s with
    rot := { s.rot with
      trapTab := c.traps.foldl (fun t e => Tab.set 0 t (e.1 % 64) (e.2 &&& 0x00FFFFFFFFFFF001)) s.rot.trapTab,
      rsTrap := c.rsTrap &&& 0x00FFFFFFFFFFF001 },
    plat := { s.plat with pairs := c.pairs } }
  let s := c.objects.foldl (fun t e => t.measure (e.1 % 64) e.2) s
  c.images.foldl (fun t e => (t.putPol e.1 { t.pol e.1 with shadow := e.2, cur := e.2 }).measure e.1 (imageBytes e.2)) s

/-- BOOT_STAGE (R364): a stage completes after the one before it. With the stores come the correction thresholds (R42) and the CXL
ports, with the domain its epoch and the pod-ring ports; the capability table shows them (log 119). -/
def execBootStage (n : Nat) (cfg : BootCfg) (s : State) : Out :=
  let stage := (s.rot.bootSt.extractLsb' 24 8).toNat
  .next (if s.plat.halted || stage + 1 != n || decide (8 < n) || stage == 0 then s
    else
      let t := { s with rot := { s.rot with bootSt := (s.rot.bootSt &&& 0x00FFFFFF) ||| BitVec.ofNat 32 (n * 2 ^ 24) } }
      match n with
      | 3 =>
        let seen := cfg.dies.filter (fun d => decide (1 ≤ d.1) && decide (d.1 ≤ 15))
        let t := seen.foldl (fun u d => u.introduce d.1 d.2) t
        let lost := (List.range' 1 15).filter (fun d => !seen.any (fun e => e.1 == d))
        (lost.foldl State.fenceAbsent t).buildCap
      | 5 => ({ t with
          plat := { t.plat with cxl :=
            (cfg.cxl.filter (fun (e : Nat × Nat) => decide (e.1 < 8))).foldl (fun l (e : Nat × Nat) => Tab.put l e.1 e.2) [] },
          ms := { t.ms with thrDram := cfg.thrDram, thrOrng := cfg.thrOrng } }).rewriteCap
      | 6 =>
        let u := { t with
          plat := { t.plat with pkg := cfg.pkg, dom := cfg.dom, domNs := 40, podPorts := cfg.podPorts },
          ntime := if t.ntime.ult cfg.epoch then cfg.epoch else t.ntime }
        if cfg.podPorts = 0 then u else u.rewriteCap
      | 7 => if s.loadable cfg then t.loadParts cfg else s
      | _ => t)

/-- Raise the fuse counter; a value at or below it is ignored (R365). -/
def State.writeSvn (s : State) (v : Nat) : State :=
  if s.rot.svnFuse < v % 2 ^ 32 then { s with rot := { s.rot with svnFuse := v % 2 ^ 32 } } else s
/-- SVN_FUSE_WRITE (R365). -/
def execSvnFuseWrite (v : Nat) (s : State) : Out := .next (s.writeSvn v)

/-! ### Power -/

/-- The highest class of the launches resident on a die, within its limit; 0 with none (R319). -/
def State.residentClass (s : State) (die : Nat) : Nat :=
  (s.hub.launches.map (fun e =>
    if e.2.live.any (fun u => unitDie u == die) ∨ s.hub.packets.any (fun k => k.launch == e.1 && k.dest != noDest && unitDie k.dest == die) then
      e.2.opc else 0)).foldl max 0

/-- OP_POINT_CHANGE (R319): the die runs at the highest class of its resident launches, within the limit of R27. -/
def execOpPointChange (die : Nat) (s : State) : Out :=
  let d := s.die die
  let c := min (Tab.get 7 s.plat.opLimit die) (s.residentClass die)
  .next (if d.link = .up then s.putDie die { d with opc := c, opcTo := c } else s)

/-- Lower the operating point of a list of dies by one class, where one of them is above the lowest: each from the class it runs
at, which is then its limit (R27). -/
def State.lowerOp (s : State) (ds : List Nat) : Option State :=
  let can := ds.filter (fun d => decide (0 < (s.die d).opc))
  if can.isEmpty then none
  else
    some (can.foldl (fun t d =>
      let x := t.die d
      let u := t.putDie d { x with opc := x.opc - 1, opcTo := x.opc - 1 }
      { u with plat := { u.plat with opLimit := Tab.set 7 u.plat.opLimit d (x.opc - 1) } }) s)

/-- Raise the limits of a list of dies by one class, where one of them is below the top. -/
def State.raiseLimit (s : State) (ds : List Nat) : Option State :=
  let l := fun d => Tab.get 7 s.plat.opLimit d
  let can := ds.filter (fun d => decide (l d < 7))
  if can.isEmpty then none
  else some { s with plat := { s.plat with opLimit := can.foldl (fun t d => Tab.set 7 t d (l d + 1)) s.plat.opLimit } }

/-- The package limit in W (R371). -/
def State.wattLimit (s : State) : Nat := min 4000 (max 1000 (s.rot.pkgPlim.extractLsb' 0 16).toNat)

/-- POWER_WINDOW (R27, R371): the draw of a 1 ms window. DESIGN CHOICE (log 117): the rule says that the points are restored and
neither in which order nor how fast; the model raises one class a window, the vector dies before the array dies. -/
def execPowerWindow (draw : Nat) (s : State) : Out :=
  let arrays := List.range' 2 8
  let vectors := List.range' 10 4
  let ms := if draw < s.wattLimit - 200 then s.plat.belowMs + 1 else 0
  let t := { s with plat := { s.plat with belowMs := ms } }
  .next (if s.wattLimit < draw then
      match t.lowerOp arrays with
      | some u => u
      | none => (t.lowerOp vectors).getD t
    else if 5 ≤ ms then
      match t.raiseLimit vectors with
      | some u => u
      | none => (t.raiseLimit arrays).getD t
    else t)

end Sys2Proof.Machine
end

