-- ==== Sys2Proof/Machine/Mmio.lean ====
section
/-! DEFINITION. Rotunda's MMIO block (R7, R21, R365): what each register reads as and what a write to it does; the
connection table (R76) and the flow tables (R314); REGISTER_WRITE. -/
namespace Sys2Proof.Machine

/-! ### The connection table (R76) -/

/-- The two dies a circuit word names are distinct and present, as a copy or memory traffic can use them (R76). -/
def State.circDies (s : State) (v : DWord) : Bool :=
  let a := (v.extractLsb' 48 8).toNat
  let b := (v.extractLsb' 40 8).toNat
  a != b && [a, b].all (fun d => d == 0 || (decide (d ≤ 15) && (s.die d).link == .up))

/-- A write of a connection-table entry (R76): `en` decides the state it enters. DESIGN CHOICE (log 120): a write with `en` 1 that
names other dies to a circuit already up leaves it up with the new dies; the rule is silent. -/
def State.writeCirc (s : State) (c : Nat) (v : DWord) : State :=
  let old := Tab.get 0 s.rot.circ c
  let st := (old.extractLsb' 61 2).toNat
  if (st ≠ 0 ∧ st ≠ 2) ∨ !s.circDies v then { s with rot := { s.rot with circRej := s.rot.circRej + 1 } }
  else
    let next := if v.getLsbD 63 then (if st = 2 then 2 else 1) else if st = 2 then 3 else 0
    let w := (v &&& 0x80FFFF0000000000) ||| BitVec.ofNat 64 (next * 2 ^ 61)
    { s with rot := { s.rot with circ := Tab.set 0 s.rot.circ c w } }

/-- CIRC_WRITE (R76). -/
def execCircWrite (c : Nat) (v : BitVec 64) (s : State) : Out := .next (if 255 < c then s else s.writeCirc c v)

/-- A circuit passes from one state to another. -/
def State.circStep (s : State) (c from_ goal : Nat) : State :=
  let w := Tab.get 0 s.rot.circ c
  if (w.extractLsb' 61 2).toNat = from_ then
    { s with rot := { s.rot with circ := Tab.set 0 s.rot.circ c ((w &&& 0x9FFFFFFFFFFFFFFF) ||| BitVec.ofNat 64 (goal * 2 ^ 61)) } }
  else s

/-- CIRCUIT_UP (R76). -/
def execCircuitUp (c : Nat) (s : State) : Out := .next (s.circStep c 1 2)
/-- CIRCUIT_DOWN (R76). -/
def execCircuitDown (c : Nat) (s : State) : Out := .next (s.circStep c 3 0)

/-! ### Reading -/

/-- The index of an offset in an array of `n` registers of `w` bytes at a base. -/
def arrayAt (off base n w : Nat) : Option Nat := if base ≤ off ∧ off < base + n * w then some ((off - base) / w) else none

/-- The flow-table entry and the doubleword of it that an offset of the MMIO space names: link die d's table begins its
block (R314, log 36). -/
def flowAt (off : Nat) : Option (Nat × Nat) :=
  if 0xE0000000 ≤ off ∧ off < 0xE0020000 then some ((off - 0xE0000000) / 32, off / 8 % 4)
  else if 0xF0000000 ≤ off ∧ off < 0xF0020000 then some (4096 + (off - 0xF0000000) / 32, off / 8 % 4)
  else none

/-- A doubleword of a flow-table entry (R314). -/
def Flow.dword (f : Flow) : Nat → DWord
  | 0 => f.ep ++ (BitVec.ofNat 8 f.lgslot ++ BitVec.ofNat 8 f.tq ++ BitVec.ofNat 8 f.part ++ (if f.en then (1 : Byte) else 0))
  | 1 => (0 : Word) ++ (BitVec.ofNat 16 f.nslot ++ f.svc)
  | 2 => f.entry
  | _ => f.buf

/-- Write a doubleword of a flow-table entry (R314). -/
def Flow.putDword (f : Flow) (v : DWord) : Nat → Flow
  | 0 => { f with en := v.getLsbD 0, part := (v.extractLsb' 8 6).toNat, tq := (v.extractLsb' 16 8).toNat,
                  lgslot := (v.extractLsb' 24 8).toNat, ep := v.extractLsb' 32 32 }
  | 1 => { f with svc := v.extractLsb' 0 16, nslot := (v.extractLsb' 16 16).toNat }
  | 2 => { f with entry := v }
  | _ => { f with buf := v }

/-- The 64-bit registers: their value, by the offset of their first byte. -/
def State.reg64 (s : State) (off : Nat) : Option DWord :=
  let get := fun (base n : Nat) (t : Tab DWord) => (arrayAt off base n 8).map (fun i => Tab.get 0 t i)
  ((get 0x220000 64 s.rot.ptRoot).orElse fun _ =>
    (get 0x220200 64 s.rot.ttCtl).orElse fun _ =>
    (get 0x240000 256 s.rot.circ).orElse fun _ =>
    (get 0x280000 4096 s.rot.tqCfg).orElse fun _ =>
    ((arrayAt off 0x2A0000 64 8).map s.polCtl).orElse fun _ =>
    (get 0x2C0000 64 s.rot.trapTab).orElse fun _ =>
    (get 0x2C0200 64 s.rot.errRing)).orElse fun _ =>
  ((flowAt off).map (fun e => (Tab.get {} s.hub.flows e.1).dword e.2)).orElse fun _ =>
  match off with
  | 0x260000 => some s.rot.ringReiss
  | 0x2C0400 => some s.rot.rsTrap
  | 0x2C0408 => some s.rot.rsErr
  | 0x2C0410 => some s.rot.incDrop
  | 0x2C0500 => some ((s.rot.fenceReq &&& 0x3FFFFFFFFFFFFFFF) ||| (if s.capBusy then 0x4000000000000000 else 0))
  | _ => none

/-- `pwr_pool[p]` as it reads (R320). -/
def State.readPool (s : State) (p : Nat) : Word := BitVec.ofNat 32 (s.pwrFree p % 4096 * 65536 + Tab.get 0 s.rot.pwrPool p)

/-- The 32-bit registers: their value, by the offset of their first byte. DESIGN CHOICE (log 32): the rules put each store's
correction counter in the block and give none an offset (R42), so that no offset reads one. -/
def State.reg32 (s : State) (off : Nat) : Option Word :=
  ((arrayAt off 0x200000 32 4).map (fun w => Tab.get 0 s.rot.orngWay w)).orElse fun _ =>
    ((arrayAt off 0x201000 64 4).map s.lim).orElse fun _ =>
    ((arrayAt off 0x201400 64 4).map s.readSplit).orElse fun _ =>
    ((arrayAt off 0x288000 64 4).map s.readPool).orElse fun _ =>
    ((arrayAt off 0x2A0400 256 4).map (fun i => Tab.get 0 s.rot.polCnt i)).orElse fun _ =>
    ((arrayAt off 0x2A0800 1280 4).map (fun i =>
      BitVec.ofNat 32 (leVal ((List.range 4).map (fun j => Tab.get 0 s.rot.polCls (4 * i + j)))))).orElse fun _ =>
    match off with
    | 0x201800 => some s.rot.orngLimrej
    | 0x240800 => some s.rot.circRej
    | 0x260010 => some s.rot.domTmo
    | 0x2C0508 => some s.rot.replThr
    | 0x2E0000 => some s.rot.bootSt
    | 0x2E0008 => some (BitVec.ofNat 32 s.rot.svnFuse)
    | 0x2E0010 => some s.rot.pkgPlim
    | _ => none

/-- The 32-bit word at a 4-aligned offset of the block; an offset that no register has reads zero (log 32). -/
def State.mmioWord (s : State) (off : Nat) : Word :=
  match s.reg64 (off / 8 * 8) with
  | some x => x.extractLsb' (8 * (off % 8)) 32
  | none => (s.reg32 off).getD 0

/-- A byte of the block. -/
def State.mmioByte (s : State) (off : Nat) : Byte := (s.mmioWord (off / 4 * 4)).extractLsb' (8 * (off % 4)) 8

/-! ### Writing -/

/-- A write of `fence_req` (R359): its fields, and the fence it starts; it is ignored while a fence is in progress, until the
capability table has been rewritten. A unit answers while its die answers its heartbeats (log 77). -/
def State.writeFence (s : State) (v : DWord) : State :=
  if s.capBusy then s else
  let s := { s with rot := { s.rot with fenceReq := v &&& 0xFFFFFFFF } }
  let die := (v.extractLsb' 20 8).toNat
  let idx := (v.extractLsb' 0 20).toNat
  let answers := (s.die die).silent == 0
  let run := fun (o : Out) => match o with
    | .next t => t
    | _ => s
  if v.getLsbD 63 then
    match (v.extractLsb' 28 4).toNat with
    | 0 => run (execFenceCu die idx answers s)
    | 1 => run (execFenceQuadrant die idx answers s)
    | 2 => run (execFenceDramBank die idx s)
    | 3 => run (execFenceLinkLane die idx s)
    | 4 => if idx = 0 then run (execFenceDie die answers s) else s
    | _ => s
  else s

/-- A write of a 64-bit register (R7): reserved and read-only fields keep their value. -/
def State.put64 (s : State) (off : Nat) (v : DWord) : State :=
  let r := s.rot
  match arrayAt off 0x220000 64 8, arrayAt off 0x220200 64 8, arrayAt off 0x240000 256 8, arrayAt off 0x280000 4096 8,
    arrayAt off 0x2A0000 64 8, arrayAt off 0x2C0000 64 8, arrayAt off 0x2C0200 64 8 with
  | some i, _, _, _, _, _, _ => { s with rot := { r with ptRoot := Tab.set 0 r.ptRoot i (v &&& 0x000FFFFFFFFFF001) } }
  | _, some i, _, _, _, _, _ => { s with rot := { r with ttCtl := Tab.set 0 r.ttCtl i (v &&& 0x000FFFFFFFFFF03F) } }
  | _, _, some i, _, _, _, _ => s.writeCirc i v
  | _, _, _, some i, _, _, _ => { s with rot := { r with tqCfg := Tab.set 0 r.tqCfg i (v &&& 0x800FFFFFFFFFF01F) } }
  | _, _, _, _, some i, _, _ => { s with rot := { r with polCtl := Tab.set 0x01000014 r.polCtl i (v &&& 0x8000FFFF01FF07FF) } }
  | _, _, _, _, _, some i, _ => { s with rot := { r with trapTab := Tab.set 0 r.trapTab i (v &&& 0x00FFFFFFFFFFF001) } }
  | _, _, _, _, _, _, some i => { s with rot := { r with errRing := Tab.set 0 r.errRing i (v &&& 0x800FFFFFFFFFF01F) } }
  | _, _, _, _, _, _, _ =>
    match off with
    | 0x2C0400 => { s with rot := { r with rsTrap := v &&& 0x00FFFFFFFFFFF001 } }
    | 0x2C0408 => { s with rot := { r with rsErr := v &&& 0x800FFFFFFFFFF01F } }
    | 0x2C0500 => s.writeFence v
    | _ =>
      match flowAt off with
      | some (i, j) => { s with hub := { s.hub with flows := Tab.put s.hub.flows i ((Tab.get {} s.hub.flows i).putDword v j) } }
      | none => s

/-- A write of a 32-bit register (R7). -/
def State.put32 (s : State) (off : Nat) (v : Word) : State :=
  let r := s.rot
  match arrayAt off 0x201000 64 4, arrayAt off 0x201400 64 4, arrayAt off 0x288000 64 4, arrayAt off 0x2A0800 1280 4 with
  | some i, _, _, _ => s.writeLim i v
  | _, some i, _, _ => s.writeSplit i v
  | _, _, some i, _ => { s with rot := { r with pwrPool := Tab.set 0 r.pwrPool i (v.extractLsb' 0 12).toNat } }
  | _, _, _, some i =>
    { s with rot := { r with polCls := (List.range 4).foldl (fun t j => Tab.set 0 t (4 * i + j) (v.extractLsb' (8 * j) 8)) r.polCls } }
  | _, _, _, _ =>
    match off with
    | 0x260010 => { s with rot := { r with domTmo := v &&& 0xFFFF } }
    | 0x2C0508 => { s with rot := { r with replThr := v &&& 0xFF } }
    | 0x2E0008 => s.writeSvn v.toNat
    | 0x2E0010 => { s with rot := { r with pkgPlim := v &&& 0xFFFF } }
    | _ => s

/-- Bytes written over a value at an offset within it. -/
def overBytes (w old at_ n v : Nat) : Nat :=
  leVal ((leBytes w old).zipIdx.map (fun e =>
    if at_ ≤ e.2 ∧ e.2 < at_ + n then BitVec.ofNat 8 (v / 256 ^ (e.2 - at_)) else e.1))

/-- A write of `n` bytes at an offset of the block: to one register, the rest of which is written as it reads; eight
bytes over two 32-bit registers write both (log 32). -/
def State.mmioWrite (s : State) (off n : Nat) (v : DWord) : State :=
  match s.reg64 (off / 8 * 8) with
  | some x => s.put64 (off / 8 * 8) (BitVec.ofNat 64 (overBytes 8 x.toNat (off % 8) n v.toNat))
  | none =>
    if n = 8 then (s.put32 off (v.extractLsb' 0 32)).put32 (off + 4) (v.extractLsb' 32 32)
    else s.put32 (off / 4 * 4) (BitVec.ofNat 32 (overBytes 4 (s.mmioWord (off / 4 * 4)).toNat (off % 4) n v.toNat))

/-- REGISTER_WRITE (R7, R365, R369): the resident service writes the register at an offset of the MMIO space, Rotunda's
block first; the block of a die whose link is not open answers with an error and is not written (R17). -/
def execRegisterWrite (off : Nat) (v : BitVec 64) (s : State) : Out :=
  .next (if !s.mmioUp (mmioBase + off) then s
    else if (s.reg64 off).isSome then s.put64 off v else s.put32 off (v.extractLsb' 0 32))

end Sys2Proof.Machine
end

