-- ==== Sys2Proof/Machine/Order.lean ====
section
/-! DEFINITION. The steps of the ordering machine (R217 to R234): performing loads, stores and atomics, moving pending
writes outward, eviction, acquires and releases, error responses, and what comes back over the fabric (R136, R143,
R239, R243, R253). -/
namespace Sys2Proof.Machine

/-! ### What a byte reads as -/

/-- The byte a pending write holds for a physical address. -/
def PWrite.at? (w : PWrite) (pa : Nat) : Option Byte :=
  match w.loc with
  | .mem p _ _ => if p ≤ pa then w.bytes[pa - p]? else none
  | _ => none

/-- A byte with the part that a mask selects replaced. -/
def merge (old new msk : Byte) : Byte := (old &&& ~~~msk) ||| (new &&& msk)

/-- A byte under an agent's own pending writes, oldest first (R223). -/
def Agent.view (ag : Agent) (pa : Nat) (b : Byte) : Byte :=
  ag.pend.foldl (fun acc w => match w.at? pa with
    | some x => merge acc x w.msk
    | none => acc) b

/-- A wave's access to a page that is not `unc` has the levels 1 and 2 on its path (R219). -/
def Agent.hasInner (ag : Agent) (unc : Bool) : Bool := ag.profile == .wave && !unc

/-- What the instance at level 1 or 2 on an agent's path holds of a byte (R218). -/
def State.innerAt (s : State) (ag : Agent) (level pa : Nat) : Option Byte :=
  if level = 1 then Tab.find? (Tab.get [] s.ms.l1 ag.unit) pa else Tab.find? (Tab.get [] s.ms.l2 (ag.unit / 4)) pa

/-- When a byte came to an inner instance: twice the number of the step, plus 1 for a write that propagated there. -/
def State.innerStamp (s : State) (ag : Agent) (level pa : Nat) : Nat :=
  if level = 1 then Tab.get 0 (Tab.get [] s.ms.l1at ag.unit) pa else Tab.get 0 (Tab.get [] s.ms.l2at (ag.unit / 4)) pa

/-- A byte at the inner instance of a level on an agent's path is held there by a pending write. -/
def State.pinnedFor (s : State) (ag : Agent) (level pa : Nat) : Bool := s.pinned level (if level = 1 then ag.unit else ag.unit / 4) pa

/-- The value that the instances from a level outward give: the innermost that holds one (R223, R374). -/
def State.from_ (s : State) (ag : Agent) (level : Nat) (unc : Bool) (slot : BitVec 8) (pa : Nat) : Byte :=
  let home := s.pkSee ag.part slot pa
  if !ag.hasInner unc then home
  else if level ≤ 1 then ((s.innerAt ag 1 pa).orElse fun _ => s.innerAt ag 2 pa).getD home
  else if level = 2 then (s.innerAt ag 2 pa).getD home
  else home

/-- No inner instance on an agent's path from a level outward holds the byte: it comes from the package store. -/
def State.atHome (s : State) (ag : Agent) (level : Nat) (unc : Bool) (pa : Nat) : Bool :=
  !(ag.hasInner unc && ((decide (level ≤ 1) && (s.innerAt ag 1 pa).isSome) || (decide (level ≤ 2) && (s.innerAt ag 2 pa).isSome)))

/-- An agent's own pending writes give the whole byte (R223). -/
def Agent.ownByte (ag : Agent) (pa : Nat) : Bool := ag.pend.any (fun w => (w.at? pa).isSome && w.msk == 0xFF)

/-- Put a byte into the instance at level 1 or 2 of an agent's path: the copy of a read, or a write. -/
def State.putInner (s : State) (ag : Agent) (level : Nat) (wrote : Bool) (pa : Nat) (b : Byte) : State :=
  let t := 2 * s.ms.stamp + (if wrote then 1 else 0)
  if level = 1 then
    let u := ag.unit
    { s with ms := { s.ms with l1 := Tab.put s.ms.l1 u (Tab.put (Tab.get [] s.ms.l1 u) pa b),
                               l1at := Tab.put s.ms.l1at u (Tab.put (Tab.get [] s.ms.l1at u) pa t) } }
  else
    let c := ag.unit / 4
    { s with ms := { s.ms with l2 := Tab.put s.ms.l2 c (Tab.put (Tab.get [] s.ms.l2 c) pa b),
                               l2at := Tab.put s.ms.l2at c (Tab.put (Tab.get [] s.ms.l2at c) pa t) } }

/-- Make bytes absent at a level of an instance (R223). -/
def State.dropInner (s : State) (level idx : Nat) (addrs : List Nat) : State :=
  if level = 1 then
    { s with ms := { s.ms with l1 := Tab.put s.ms.l1 idx (addrs.foldl Tab.erase (Tab.get [] s.ms.l1 idx)),
                               l1at := Tab.put s.ms.l1at idx (addrs.foldl Tab.erase (Tab.get [] s.ms.l1at idx)) } }
  else
    { s with ms := { s.ms with l2 := Tab.put s.ms.l2 idx (addrs.foldl Tab.erase (Tab.get [] s.ms.l2 idx)),
                               l2at := Tab.put s.ms.l2at idx (addrs.foldl Tab.erase (Tab.get [] s.ms.l2at idx)) } }

/-- A later step at an inner instance. -/
def State.tick2 (s : State) : State := { s with ms := { s.ms with stamp := s.ms.stamp + 1 } }

/-- The bytes of one aligned access stand together at a level: all are there, those that reads put there came in one step,
and what was written came after them. Then no other agent's aligned store shows in part (R128). -/
def State.levelWhole (s : State) (ag : Agent) (level : Nat) (addrs : List Nat) : Bool :=
  let st := (addrs.filter (fun a => !s.pinnedFor ag level a)).map (s.innerStamp ag level)
  addrs.all (fun a => (s.innerAt ag level a).isSome) &&
    match st.filter (fun t => t % 2 == 0) with
    | [] => true
    | t :: r => r.all (fun x => x == t) && st.all (fun x => x % 2 == 0 || decide (t < x))

/-- Before an aligned access reads its bytes at a level: where they do not stand together there, those that no pending write
holds become absent (R128, R223). -/
def State.settleLevel (s : State) (ag : Agent) (level : Nat) (addrs : List Nat) : State :=
  if s.levelWhole ag level addrs then s
  else s.dropInner level (if level = 1 then ag.unit else ag.unit / 4) (addrs.filter (fun a => !s.pinnedFor ag level a))

/-- The same for the inner levels from one outward (R128). -/
def State.settleRead (s : State) (ag : Agent) (level : Nat) (unc : Bool) (addrs : List Nat) : State :=
  if !ag.hasInner unc || decide (2 < level) then s
  else
    let s := if level ≤ 1 then s.settleLevel ag 1 addrs else s
    let rest := if level ≤ 1 then addrs.filter (fun a => (s.innerAt ag 1 a).isNone) else addrs
    if rest.isEmpty then s else s.settleLevel ag 2 rest

/-- Install clean copies after a read above level 1 (R223): bit 0 asks for level 1, bit 1 for level 2. Nothing replaces
what a level already holds. -/
def State.installAll (s : State) (ag : Agent) (unc : Bool) (slot : BitVec 8) (install : Nat) (addrs : List Nat) : State :=
  if !ag.hasInner unc then s
  else
    addrs.foldl (fun t a =>
      let b := t.from_ ag 1 unc slot a
      let t := if install.testBit 1 && (t.innerAt ag 1 a).isNone && (t.innerAt ag 2 a).isNone then t.putInner ag 2 false a b else t
      if install.testBit 0 && (t.innerAt ag 1 a).isNone then t.putInner ag 1 false a b else t) s.tick2

/-! ### When an open access may be performed (R221) -/

/-- An entry that later accesses wait for. -/
def Access.holds (e : Access) : Bool := e.acq || match e.kind with
  | .order => true
  | .fenceRel _ _ => true
  | .fenceAcq => true
  | _ => false

/-- The open access at a place may be performed: no earlier one of another instruction touches its bytes, nor an earlier
lane of its own store (R129), and no acquire, FENCE or wave-order point before it is incomplete. -/
def Agent.mayPerform (ag : Agent) (n : Nat) (e : Access) : Bool :=
  (ag.opens.take n).all (fun o => !o.holds && !(o.overlaps e && (o.tag != e.tag || e.kind == .store)))

/-- Wave-order points with nothing before them, in the side log neither, are passed (R232). -/
def dropOrder : List Access → List Access
  | [] => []
  | e :: t => if e.kind = .order ∧ !e.rel then dropOrder t else e :: t

/-- Remove an open access. -/
def Agent.closed (ag : Agent) (n : Nat) : Agent := { ag with opens := dropOrder (dropNth ag.opens n) }

/-- Run an event on the open access at a place of an agent. -/
def onOpen (s : State) (id n : Nat) (k : Agent → Access → State) : Out :=
  .next (match s.agent? id with
    | some ag =>
      match ag.opens[n]? with
      | some e => if ag.mayPerform n e then k ag e else s
      | none => s
    | none => s)

/-! ### Loads -/

/-- The record and the status of an agent whose read found a line or block dropped (R42). -/
def State.noteLoss (s : State) (id : Nat) (ag : Agent) (k : Option Nat) (slot : BitVec 8) (pa : Nat) : State :=
  match k with
  | some k => (s.recordLoss k ag.part slot pa ag.die ag.jobRef ag.unitWord).updAgent id (fun a => a.orStat rsMerr)
  | none => s

/-- An address error at the home after issue: a record where the rules give one, and the trap at the next boundary (R33, R130,
R270). -/
def State.lateError (s : State) (id : Nat) (ag : Agent) (slot : BitVec 8) (e : Access) : State :=
  let s := match e.loc with
    | .mem pa _ _ => s.violationOf ag slot pa
    | _ => s
  s.updAgent id (fun a => { a with stErr := a.stErr ++ [e.va] })

/-- A core's access reaches an MMIO block that answers (R17, R23). -/
def State.mmioOk (s : State) (ag : Agent) (pa : Nat) : Bool := ag.profile == .host && s.mmioUp pa

/-- Accesses of one instruction that name one address and one width (R129). -/
def Access.sameAs (o e : Access) : Bool := o.tag == e.tag && o.kind == e.kind && o.loc == e.loc && o.size == e.size

/-- LOAD_PERFORM (R223, R224): an LDACQ's acquire comes with it; the lanes of one instruction that name one address are performed
together (R129); a dropped line gives zeros, sets `merr` and is recorded (R42); one that its home answers with an address
error leaves its destination unwritten and traps at the agent's next boundary (R130, log 33). -/
def execLoadPerform (id n install : Nat) (ecc : Ecc) (s : State) : Out :=
  onOpen s id n fun ag e =>
    match e.kind, e.loc with
    | .load, .mem pa unc slot =>
      let drop := fun (a : Agent) => { a with opens := dropOrder (a.opens.filter (fun o => !o.sameAs e)) }
      let give := fun (a : Agent) (x : DWord) => (a.opens.filter (fun o => o.sameAs e)).foldl (fun a o => a.deliver o.dst o.sx x) (drop a)
      let s := if e.acq then s.acquire ag e.scope else s
      if paKind pa = .mmio then
        if !s.mmioOk ag pa then (s.putAgent id (drop ag)).lateError id ag slot e
        else s.putAgent id (give ag (BitVec.ofNat 64 (leVal ((List.range e.size).map (fun i => s.mmioByte (pa - mmioBase + i))))))
      else if !s.reachable ag.part slot pa then (s.putAgent id (drop ag)).lateError id ag slot e
      else
        let addrs := (List.range' pa e.size).filter (fun a => !ag.ownByte a)
        let s := s.settleRead ag 1 unc addrs
        let (s, k) := if addrs.any (s.atHome ag 1 unc) then s.agentRead ag unc slot pa e.size ecc else (s, none)
        let x := BitVec.ofNat 64 (leVal ((List.range' pa e.size).map
          (fun a => ag.view a (if k.isSome then 0 else s.from_ ag 1 unc slot a))))
        let s := if k.isSome then s else s.installAll ag unc slot install addrs
        (s.putAgent id (give ag x)).noteLoss id ag k slot pa
    | _, _ => s

/-! ### Stores -/

/-- A later lane of the same store writes all that this one writes (R129). -/
def Agent.covered (ag : Agent) (n : Nat) (e : Access) : Bool :=
  (ag.opens.drop (n + 1)).any (fun o => o.tag == e.tag && o.kind == .store && o.loc == e.loc && e.msk &&& ~~~o.msk == 0)

/-- STORE_PERFORM (R222, R225): the write enters the pending writes at level 0; a release waits for its condition. A
core's write to an MMIO register is the register's. -/
def execStorePerform (id n : Nat) (s : State) : Out :=
  onOpen s id n fun ag e =>
    if e.kind ≠ .store then s
    else if e.rel && !s.releaseReady id ag e.scope e.tag then s
    else
      let s := if e.rel && e.scope == 5 then s.writeBackOf id else s
      let ag := (s.agent? id).getD ag
      let put := fun (s : State) (ag : Agent) => s.tick2.putAgent id
        { ag.closed n with pend := ag.pend ++ [{ loc := e.loc, bytes := leBytes e.size e.data.toNat, va := e.va, tag := e.tag,
                                                 msk := e.msk, tid := e.tid, born := e.born, seq := s.ms.stamp }] }
      if ag.covered n e then s.putAgent id (ag.closed n)
      else
        match e.loc with
        | .mem pa _ _ =>
          if paKind pa = .mmio then
            let s := s.putAgent id (ag.closed n)
            if s.mmioOk ag pa then s.mmioWrite (pa - mmioBase) e.size e.data
            else s.updAgent id (fun a => { a with stErr := a.stErr ++ [e.va] })
          else put s ag
        | _ => put s ag

/-- Two pending writes share a byte. -/
def PWrite.overlaps (a b : PWrite) : Bool :=
  match a.loc, b.loc with
  | .mem p _ _, .mem q _ _ => decide (p < q + b.bytes.length) && decide (q < p + a.bytes.length)
  | .remote k v, .remote k' v' =>
    k == k' && decide (v.toNat < v'.toNat + b.bytes.length) && decide (v'.toNat < v.toNat + a.bytes.length)
  | _, _ => false

/-- A pending write may move on: no older one of the agent that overlaps it is at its level or below (R222). -/
def Agent.mayMove (ag : Agent) (n : Nat) (w : PWrite) : Bool :=
  (ag.pend.take n).all (fun o => !(o.overlaps w && decide (o.level ≤ w.level)))

/-- Write a pending write's bytes into an inner instance; where it holds nothing, the rest of a byte comes from
outside. -/
def State.spill (s : State) (ag : Agent) (level : Nat) (unc : Bool) (slot : BitVec 8) (pa : Nat) (w : PWrite) : State :=
  w.bytes.zipIdx.foldl (fun t e =>
    t.putInner ag level true (pa + e.2) (merge (t.from_ ag level unc slot (pa + e.2)) e.1 w.msk)) s.tick2

/-- The code that stands where a unit's own stores arrive stays what its fetches find until its next IFENCE (R105, R352). -/
def State.shadowCode (s : State) (unit_ : Option Nat) (slot : BitVec 8) (pa n : Nat) : State :=
  match unit_ with
  | none => s
  | some u =>
    let old := Tab.get [] s.ms.own u
    let t := (List.range' (pa / 2) ((pa + n - 1) / 2 + 1 - pa / 2)).foldl (fun (t : Tab Half) h =>
      if (Tab.find? t (2 * h)).isSome then t
      else Tab.put t (2 * h) (BitVec.ofNat 16 (leVal (s.pkReadN slot (2 * h) 2)))) old
    { s with ms := { s.ms with own := Tab.put s.ms.own u t } }

/-- A write arrives at the package store: in a die's peer cache as its owner, or at the home, where it may fill a block (R16, R36,
R63, R222, R263). `unit_` is the unit whose store it is. -/
def State.arriveWrite (s : State) (unit_ : Option Nat) (part peer : Nat) (slot : BitVec 8) (pa : Nat) (bs : List Byte) (msk : Byte) :
    State :=
  let cached := peer != 0 && s.peerUp peer
  let s := s.shadowCode unit_ slot pa bs.length
  let s := if cached then s.askWords .readOwn peer part slot pa bs.length else s.fillLine part slot pa
  let s := s.pkWriteN slot cached pa (bs.zipIdx.map (fun e => merge (s.pkRead slot (pa + e.2)) e.1 msk))
  (s.sample part pa).wakePa pa

/-- Replace a pending write. -/
def Agent.putPend (ag : Agent) (n : Nat) (w : PWrite) : Agent := { ag with pend := setNth ag.pend n w }

/-- WRITE_PROPAGATE (R222): one level outward; at its home a write leaves the pending writes. A write to another package
arrives there, while the package has a route and its response is in time (R243, R245, R253). -/
def execWritePropagate (id n : Nat) (s : State) : Out :=
  .next (match s.agent? id with
    | none => s
    | some ag =>
      match ag.pend[n]? with
      | none => s
      | some w =>
        if !ag.mayMove n w then s
        else
          match w.loc with
          | .mem pa unc slot =>
            if !s.reachable ag.part slot pa then s
            else if ag.hasInner unc ∧ w.level < 2 then
              (s.spill ag (w.level + 1) unc slot pa w).putAgent id (ag.putPend n { w with level := w.level + 1 })
            else
              let peer := ag.writePeer unc pa
              let s := (s.noteUse ag.part pa unc).arriveWrite (some ag.codeUnit) ag.part peer slot pa w.bytes w.msk
              s.updAgent id (fun a => { a with
                pend := dropNth a.pend n,
                mods := if peer ≠ 0 then a.mods ++ List.range' pa w.bytes.length else a.mods })
          | _ => if s.noRoute || s.past w.born s.domTmo then s else s.putAgent id { ag with pend := dropNth ag.pend n })

/-- WRITE_ERROR_REMOVAL (R130, R227, R253): the home answers a pending write with an error; from the own package the
address trap, or for a row of an ACCST the engine fault, follows at the next boundary, from another a remote error. -/
def execWriteErrorRemoval (id n : Nat) (s : State) : Out :=
  .next (match s.agent? id with
    | none => s
    | some ag =>
      match ag.pend[n]? with
      | none => s
      | some w =>
        let ag' := { ag with pend := dropNth ag.pend n }
        match w.loc with
        | .mem pa _ slot =>
          if s.reachable ag.part slot pa then s
          else (s.violationOf ag slot pa).putAgent id (ag'.writeFault w.row w.va)
        | _ => s.putAgent id (ag'.remoteErr w.va))

/-- CACHE_EVICTION (R223): a byte at level 1 of a CU or level 2 of a cluster that no pending write holds there is made
absent. Other caches let go too: 0 code that a unit has fetched, 3 the Orangery's line of a set at a way (R36), 4 a cached
translation, 5 a table entry that a walker keeps (R51); 6 a line of the Orangery one of whose dirty blocks proves bad as it is
written back (R42). -/
def execCacheEviction (level idx pa : Nat) (s : State) : Out :=
  .next (match level with
    | 0 => { s with ms := { s.ms with code := Tab.put s.ms.code idx (Tab.erase (Tab.get [] s.ms.code idx) pa) } }
    | 1 => if s.pinned 1 idx pa then s else s.dropInner 1 idx [pa]
    | 2 => if s.pinned 2 idx pa then s else s.dropInner 2 idx [pa]
    | 3 => if idx < 32 then s.evictLine (32 * setOf pa + idx) else s
    | 4 => { s with ms := { s.ms with tlb := dropNth s.ms.tlb idx } }
    | 5 => { s with ms := { s.ms with upper := dropNth s.ms.upper idx } }
    | 6 => if idx < 32 then s.badWriteBack (32 * setOf pa + idx) pa else s
    | _ => s)

/-! ### FENCE -/

/-- A sequencer's queues are empty (R195, R234). -/
def State.queuesEmpty (s : State) (ag : Agent) : Bool :=
  match ag.profile with
  | .sequencer =>
    let q := s.quad (ag.unit - 192)
    q.loadQ.isEmpty && q.compQ.isEmpty && q.storeQ.isEmpty && q.gen.isNone
  | _ => true

/-- RELEASE (R225, R234): a FENCE's release, once its conditions hold. -/
def execRelease (id n : Nat) (s : State) : Out :=
  onOpen s id n fun ag e =>
    match e.kind with
    | .fenceRel log ack =>
      if n = 0 ∧ s.releaseReady id ag e.scope e.tag ∧ (!log || s.slogClear id) ∧ (!ack || !s.postedOpen id) ∧
          s.dispatchedDone ag e.tag then
        let s := if e.scope = 5 then s.writeBackOf id else s
        s.updAgent id (fun a => a.closed n)
      else s
    | _ => s

/-- ACQUIRE (R224, R234): a FENCE's acquire, once its release is performed. -/
def execAcquire (id n : Nat) (s : State) : Out :=
  onOpen s id n fun ag e =>
    if n = 0 ∧ e.kind = .fenceAcq then (s.acquire ag e.scope).putAgent id (ag.closed n) else s

/-! ### Atomics -/

/-- The level at which an atomic is performed (R142). -/
def Agent.atomLevel (ag : Agent) (unc : Bool) (scope : Nat) : Nat :=
  if !ag.hasInner unc then 3 else if scope ≤ 1 then 1 else if scope = 2 then 2 else 3

/-- Perform one lane of an atomic at its instance (R141, R226, R374): the state and the old value, which is zeros where the
read found its line dropped (R42). Where the location is absent there, the value that the atomic finds is installed, which
shows where a compare fails. -/
def State.atomAt (s : State) (ag : Agent) (op : AtomOp) (e : Access) (level pa : Nat) (unc : Bool) (slot : BitVec 8)
    (gone : Bool) : State × DWord :=
  let addrs := List.range' pa e.size
  let old := if gone then 0 else BitVec.ofNat 64 (leVal (addrs.map (s.from_ ag level unc slot)))
  let dbl := e.size == 8
  let bs := leBytes e.size (atomNew op dbl old e.data e.cmp).toNat
  if !atomWrites op dbl old e.cmp then
    (if level < 3 && !gone then addrs.foldl (fun t a =>
        if (t.innerAt ag level a).isNone then t.putInner ag level false a (s.from_ ag level unc slot a) else t) s.tick2
      else s, old)
  else if level < 3 then (bs.zipIdx.foldl (fun t b => t.putInner ag level true (pa + b.2) b.1) s.tick2, old)
  else (s.arriveWrite (some ag.codeUnit) ag.part 0 slot pa bs 0xFF, old)

/-- Perform the lanes of one atomic instruction that name one address, ascending, in one step (R129). -/
def State.atomLanes (s : State) (id : Nat) (op : AtomOp) (level pa : Nat) (unc : Bool) (slot : BitVec 8) (gone : Bool) :
    List Access → State
  | [] => s
  | e :: t =>
    match s.agent? id with
    | none => s
    | some ag =>
      let (s, old) := s.atomAt ag op e level pa unc slot gone
      let w : PWrite := { loc := e.loc, bytes := leBytes e.size (atomNew op (e.size == 8) old e.data e.cmp).toNat,
                          level := level, va := e.va, tag := e.tag, seq := s.ms.stamp }
      let wrote := decide (level < 3) && atomWrites op (e.size == 8) old e.cmp
      let s := s.updAgent id (fun a =>
        { a.deliver e.dst e.sx old with pend := if wrote then a.pend ++ [w] else a.pend })
      State.atomLanes s id op level pa unc slot (gone && !atomWrites op (e.size == 8) old e.cmp) t

/-- ATOMIC_PERFORM (R226): at the instance that R142 names, after the agent's older overlapping writes have reached it. -/
def execAtomicPerform (id n : Nat) (ecc : Ecc) (s : State) : Out :=
  onOpen s id n fun ag e =>
    match e.kind, e.loc with
    | .atomic op, .mem pa unc slot =>
      let same := fun (o : Access) => o.tag == e.tag && o.kind == e.kind && o.loc == e.loc
      let level := ag.atomLevel unc e.scope
      let close := fun (a : Agent) => { a with opens := dropOrder (a.opens.filter (fun o => !same o)) }
      let w : PWrite := { loc := e.loc, bytes := List.replicate e.size 0 }
      if (ag.opens.take n).any same then s
      else if !ag.pend.all (fun o => !o.overlaps w || decide (level ≤ o.level)) then s
      else if paKind pa = .mmio then
        if !s.mmioOk ag pa then (s.putAgent id (close ag)).lateError id ag slot e
        else
          let old := BitVec.ofNat 64 (leVal ((List.range e.size).map (fun i => s.mmioByte (pa - mmioBase + i))))
          let s := s.putAgent id ((close ag).deliver e.dst e.sx old)
          if atomWrites op (e.size == 8) old e.cmp then s.mmioWrite (pa - mmioBase) e.size (atomNew op (e.size == 8) old e.data e.cmp) else s
      else if !s.reachable ag.part slot pa then (s.putAgent id (close ag)).lateError id ag slot e
      else
        let s := s.settleRead ag level unc (List.range' pa e.size)
        let far := decide (3 ≤ level) || (List.range' pa e.size).any (s.atHome ag level unc)
        let (s, k) := if far then (s.noteUse ag.part pa unc).arriveRead ag.part slot pa e.size ecc else (s, none)
        let s := s.atomLanes id op level pa unc slot k.isSome (ag.opens.filter same)
        (s.updAgent id close).noteLoss id ag k slot pa
    | _, _ => s

/-! ### Responses -/

/-- What an error or a timeout gives a remote access (R136, R143, R253): zeros, `rerr`, `alost` where the atomic was
applied. -/
def Agent.failOpen (ag : Agent) (e : Access) (applied : Bool) : Agent :=
  let ag := (ag.deliver e.dst e.sx 0).remoteErr e.va
  match e.kind with
  | .atomic _ => if applied then ag.orStat rsAlost else ag
  | _ => ag

/-- The unit behind a binding of this package: none where its group is saved or has ended (R249). -/
def State.bindUnit (s : State) (b : Binding) : Option Nat :=
  if b.saved || b.ended || !s.unitUp (b.dstUnit + b.mem) then none
  else some (b.dstUnit + b.mem)

/-- The peer scratchpad range that `n` bytes at an offset of a window reach: unit and offset (R244). -/
def Binding.spot (b : Binding) (u off n : Nat) : Option (Nat × Nat) :=
  let o := b.seg * 0x80000 + off
  if o + n ≤ spadSize u then some (u, o) else none

/-- Note an inbound access that did not happen (R253): a record to the resident service and an entry of the event
queue (log 34). -/
def State.inboundError (s : State) (part : Nat) : State :=
  let (n, s) := s.draw
  let s := s.recordRs part { kind := (Config.inboundKind n).toNat }
  { s with plat := { s.plat with hostQ := s.plat.hostQ ++ [.inbound] } }

/-- The partition of the group behind a binding. -/
def State.bindPart (s : State) (b : Binding) : Nat :=
  if b.saved then (Tab.get {} s.hub.saves b.dstUnit).grp.part else (s.unit b.dstUnit).part

/-- Give a response to the open accesses of one line of a window load; all of them fail together (R136). `late` is a timeout; an
error at a peer of this package is noted there (R253). -/
def State.answerLine (s : State) (id : Nat) (ag : Agent) (e : Access) (w off : Nat) (r : RemoteRsp) (late : Bool) : State :=
  let x := s.unit ag.unit
  let b := (x.win w).bind.bind (fun n => Tab.find? s.fab.binds n)
  let mine := fun (o : Access) => o.tag == e.tag && match o.loc with
    | .win w' o' => w' == w && o' / 64 == off / 64
    | _ => false
  let here := match b with
    | some b => b.dstPkg == s.plat.pkg.toNat
    | none => true
  let spot := fun (o : Access) => match b, o.loc with
    | some b, .win _ o' =>
      (s.bindUnit b).bind (fun u => (b.spot u o' o.size).filter (fun (p : Nat × Nat) => (s.enginePlot p.1 p.2 o.size).isNone))
    | _, _ => none
  let value := fun (o : Access) => match o.loc with
    | .win _ o' => BitVec.ofNat 64 (leVal ((r.line.drop (o' % 64)).take o.size))
    | _ => 0
  let group := ag.opens.filter mine
  let lost := here && group.any (fun o => (spot o).isNone)
  let bad := late || lost || (!here && (r.err || s.noRoute))
  let ag := group.foldl (fun a o =>
    if bad then a.deliver o.dst o.sx 0
    else
      match here, spot o with
      | true, some p => a.deliver o.dst o.sx (s.spWord p.1 p.2 o.size)
      | _, _ => a.deliver o.dst o.sx (value o)) ag
  let ag := { ag with opens := dropOrder (ag.opens.filter (fun o => !mine o)) }
  let s := if lost && !late then s.inboundError ((b.map s.bindPart).getD ag.part) else s
  s.putAgent id (if bad then ag.remoteErr ((group.head?.map (fun o => o.va)).getD e.va) else ag)

/-- A byte that a pending write holds for an address homed on another package. -/
def PWrite.farAt? (w : PWrite) (pkg a : Nat) : Option Byte :=
  match w.loc with
  | .remote k v => if k = pkg ∧ v.toNat ≤ a then w.bytes[a - v.toNat]? else none
  | _ => none
/-- A loaded value of another package under an agent's own pending writes (R223). -/
def Agent.farView (ag : Agent) (pkg : Nat) (va : DWord) (n : Nat) (x : DWord) : DWord :=
  BitVec.ofNat 64 (leVal ((leBytes n x.toNat).zipIdx.map (fun e =>
    ag.pend.foldl (fun acc w => match w.farAt? pkg (va.toNat + e.2) with
      | some b => merge acc b w.msk
      | none => acc) e.1)))

/-- The response to an access homed on another package (R143, R242, R253): the lanes of one load that name one address all have
its value (R129), WAITW goes on with its word (R239), and a line of code or of an image joins those that its agent has
read, one of a trap table gives its handler (R348). -/
def State.answerFar (s : State) (id n : Nat) (ag : Agent) (e : Access) (pkg : Nat) (va : DWord) (r : RemoteRsp) : State :=
  let s := if e.acq then s.acquire ag e.scope else s
  let v := if r.err then 0
    else match e.kind with
    | .load => ag.farView pkg va e.size r.data
    | _ => r.data
  let es := if e.kind = .load then ag.opens.filter (fun o => o.sameAs e) else [e]
  let left := if e.kind = .load then { ag with opens := dropOrder (ag.opens.filter (fun o => !o.sameAs e)) } else ag.closed n
  let ag := es.foldl (fun a o => if r.err then a.failOpen o r.applied else a.deliver o.dst o.sx v) left
  let bytes := (List.range 64).map (fun i => if r.err then 0 else nth 0 r.line i)
  match e.dst, ag.wait with
  | .line, .trapFar c tv => s.trapLine id ag c tv bytes r.err
  | _, _ => s.putAgent id (match e.dst, ag.wait with
    | .waitw, .waitw ea => { ag with wait := .waitwGot ea (v.extractLsb' 0 32) }
    | .waitw, .waitwOut ea => { ag with wait := .waitwGot ea (v.extractLsb' 0 32) }
    | .waitw, .waitwReady ea => { ag with wait := .waitwGot ea (v.extractLsb' 0 32) }
    | .line, .far ls => { ag with wait := .far (ls ++ [(va.toNat / 64, bytes)]) }
    | _, _ => ag)

/-- An open access gets its response: `late` is a timeout. An atomic is performed at its home after the agent's older overlapping
writes have arrived there (R226) and after the earlier lanes of its instruction at its address (R129); without a route the response is an error (R245). -/
def State.answerOpen (s : State) (id n : Nat) (ag : Agent) (e : Access) (r : RemoteRsp) (late : Bool) : State :=
  match e.loc with
  | .win w off => s.answerLine id ag e w off r late
  | .remote pkg va =>
    let w : PWrite := { loc := e.loc, bytes := List.replicate e.size 0 }
    let older := match e.kind with
      | .atomic _ => ag.pend.any (fun o => o.overlaps w && decide (o.tag < e.tag)) || (ag.opens.take n).any (fun o => o.sameAs e)
      | _ => false
    if e.kind == .store || (older && !late) then s
    else s.answerFar id n ag e pkg va (if s.noRoute then { r with err := true, applied := false } else r)
  | _ => s

/-- REMOTE_RESPONSE (R143, R253): to a load, a returning atomic or a reduction homed on another package, or to the
window load of one line, which reads its peer scratchpad now (R228). One that comes after its timeout is dropped. -/
def execRemoteResponse (id n : Nat) (r : RemoteRsp) (s : State) : Out :=
  onOpen s id n fun ag e => if s.overdue ag e then s else s.answerOpen id n ag e r false

/-- REQUEST_TIMEOUT (R136, R243, R244): no response came in time. -/
def execRequestTimeout (id n : Nat) (s : State) : Out :=
  onOpen s id n fun ag e =>
    if s.overdue ag e then s.answerOpen id n ag e { data := 0, err := true, applied := false, line := [] } true else s

end Sys2Proof.Machine
end

