-- ==== Sys2Proof/Machine/Wire.lean ====
section
/-! DEFINITION. The steps of the ring fabric and the load-store domain (R228, R229, R246 to R255): delivery and
acknowledgement of window traffic, timeouts, reissues, inbound accesses, reductions, time. -/
namespace Sys2Proof.Machine

/-! ### Delivery (R228, R229) -/

/-- The arrival counts of a binding's source wave have reached those a flag carries (R229, R247). -/
def Binding.reached (b : Binding) (src : Nat) (carry : List Nat) : Bool :=
  (List.range 4).all fun p => (Tab.get 0 b.arr (4 * src + p) + 65536 - nth 0 carry p) % 65536 < 0x8000

/-- Count an arrival on a path (R228). -/
def Binding.count (b : Binding) (src path : Nat) : Binding :=
  { b with arr := Tab.set 0 b.arr (4 * src + path) ((Tab.get 0 b.arr (4 * src + path) + 1) % 65536) }

/-- The peer bytes of a window write: none where the access does not happen there (R136, R253). -/
def State.landing (s : State) (b : Binding) (off len : Nat) (offs : List Nat) : Option (Nat × Nat) :=
  match s.bindUnit b with
  | none => none
  | some u =>
    match b.spot u off len with
    | none => none
    | some (v, o) =>
      if (s.enginePlot v o len).isSome || offs.any (fun a => (s.unit v).overTag (o + (a - off)) 1) then none else some (v, o)

/-- Write a window write's bytes, or update its flag word in one step, at its landing place (R229, R259). -/
def State.land (s : State) (u o off : Nat) (bytes : List (Nat × Byte)) (k : PostKind) : State :=
  match k with
  | .data => bytes.foldl (fun t e => (t.setHome (spadBase u + o + (e.1 - off)) e.2).wakeSp u (o + (e.1 - off)) 1) s
  | .flag v n add _ =>
    let old := s.spWord u o n
    (s.spadWrite u o (leBytes n (if add then old + v else v).toNat)).wakeSp u o n

/-- The bytes a window write writes, by offset. -/
def landOffs (off : Nat) (bytes : List (Nat × Byte)) : PostKind → List Nat
  | .data => bytes.map (fun e => e.1)
  | .flag _ n _ _ => List.range' off n

/-- A flag may be delivered. -/
def Binding.ready (b : Binding) (src : Nat) : PostKind → Bool
  | .data => true
  | .flag _ _ _ carry => b.reached src carry

/-- The state of a group, which runs on a unit or stands in a saved context. -/
def State.groupOf (s : State) (g : Nat) : UnitSt :=
  if g < savedBase then s.unit g
  else ((List.find? (fun (e : Nat × Saved) => savedGroup e.1 == g) s.hub.saves).map (fun e => e.2.grp)).getD {}

/-- Change a posted entry. -/
def State.putPosted (s : State) (n : Nat) (e : Posted) : State := { s with fab := { s.fab with posted := Tab.put s.fab.posted n e } }

/-- WINDOW_DELIVER (R228, R229, R249, R253): on this package at the peer's scratchpad; on another, it arrives there, as flits of a ring
link, while the package has a route (R245, R251). -/
def execWindowDeliver (n : Nat) (s : State) : Out :=
  .next (match Tab.find? s.fab.posted n with
    | none => s
    | some e =>
      if e.delivered then s
      else
        match Tab.find? s.fab.binds e.bind with
        | none => s.putPosted n { e with delivered := true, ok := false }
        | some b =>
          if b.dstPkg ≠ s.plat.pkg.toNat then (s.sendFlit e.path).putPosted n { e with delivered := true, ok := !s.noRoute }
          else if !b.ready e.src e.kind then s
          else
            match s.landing b e.off e.len (landOffs e.off e.bytes e.kind) with
            | none => (s.putPosted n { e with delivered := true, ok := false }).inboundError (s.bindPart b)
            | some (u, o) =>
              let s := s.land u o e.off e.bytes e.kind
              let s := { s with fab := { s.fab with binds := Tab.put s.fab.binds e.bind (b.count e.src e.path) } }
              let d := unitDie u
              s.putPosted n { e with delivered := true, by_ := some (d, (s.die d).inc) })

/-! ### Acknowledgement (R228, R246) -/

/-- Change the state of a group, which runs on a unit or stands in a saved context. -/
def State.updGroup (s : State) (g : Nat) (f : UnitSt → UnitSt) : State :=
  if g < savedBase then s.putUnit g (f (s.unit g))
  else if g < ghostBase then
    { s with hub := { s.hub with saves := s.hub.saves.map (fun e =>
        if savedGroup e.1 = g then (e.1, { e.2 with grp := f e.2.grp }) else e) } }
  else s

/-- A unit of a window's allowance returns (R246). -/
def State.giveUnit (s : State) (e : Posted) : State :=
  s.updGroup e.unit_ (fun x => let w := x.win e.win; x.putWin e.win { w with used := w.used - 1 })

/-- A part of a WSIG is acknowledged; with the last, its handle is done (R259). -/
def State.wsigAck (s : State) (op : Nat) (flag ok : Bool) : State :=
  match Tab.find? s.fab.wsigs op with
  | none => s
  | some x =>
    let x := { x with left := x.left - 1, badPay := x.badPay || (!ok && !flag), badFlag := x.badFlag || (!ok && flag) }
    if x.left = 0 then
      let s := { s with fab := { s.fab with wsigs := Tab.erase s.fab.wsigs op } }
      s.finishOp op (if x.badPay then hStatus 6 0 else if x.badFlag then hStatus 6 x.len else hStatus 0 x.len) []
    else { s with fab := { s.fab with wsigs := Tab.put s.fab.wsigs op x } }

/-- The source's side of an acknowledgement (R234, R246). -/
def State.ackPosted (s : State) (e : Posted) (ok : Bool) : State :=
  let s := s.giveUnit e
  let s := match e.wsig with
    | some op => s.wsigAck op (match e.kind with
      | .flag _ _ _ _ => true
      | .data => false) ok
    | none => s
  if ok then s
  else s.updAny e.agent (fun ag => { ag.orStat rsRerr with unrep := ag.unrep || e.wsig.isNone })

/-- The write's acknowledgement was sent before the reset of the die that sent it (R356). -/
def State.staleAck (s : State) (e : Posted) : Bool := e.by_.any (fun d => (s.die d.1).inc != d.2)
/-- The write has waited for its acknowledgement as long as its window has it wait (R244). -/
def State.postedLate (s : State) (e : Posted) : Bool := s.past e.born (winTmo ((s.groupOf e.unit_).win e.win).cfg)

/-- WINDOW_ACK (R228, R246, R356): after delivery; one that comes after its timeout counts no more than the timeout does, and one
of an old incarnation is dropped and counted, so that the write meets its timeout. -/
def execWindowAck (n : Nat) (ok : Bool) (s : State) : Out :=
  .next (match Tab.find? s.fab.posted n with
    | none => s
    | some e =>
      if !e.delivered || (e.lostRsp && !e.acked) then s
      else if !e.acked && s.staleAck e then
        { s.putPosted n { e with lostRsp := true } with rot := { s.rot with incDrop := s.rot.incDrop + 1 } }
      else
        let t := { s with fab := { s.fab with posted := Tab.erase s.fab.posted n } }
        let here := match Tab.find? s.fab.binds e.bind with
          | some b => b.dstPkg == s.plat.pkg.toNat
          | none => true
        if e.acked then t else t.ackPosted e (!s.postedLate e && (if here then e.ok else e.ok && ok)))

/-- WINDOW_TIMEOUT (R228, R244, R246): the write has not been acknowledged within its window's timeout, and counts as acknowledged
with error. -/
def execWindowTimeout (n : Nat) (s : State) : Out :=
  .next (match Tab.find? s.fab.posted n with
    | none => s
    | some e =>
      if e.acked || !s.postedLate e then s
      else (s.putPosted n { e with acked := true }).ackPosted e false)

/-- A flat address is homed on another package (R242). -/
def State.farVa (s : State) (va : DWord) : Bool := va.getLsbD 55 && va.extractLsb' 46 9 != s.plat.pkg

/-- A side of a copy is reached over a ring: a flat address of another package, or a window, this package's own among them (R246,
R250). -/
def State.farSide (s : State) (kind : Nat) (ep : DWord) (bind : Option Nat) : Bool :=
  match kind with
  | 0 => s.farVa ep
  | 3 => (bind.bind (fun n => Tab.find? s.fab.binds n)).isSome
  | _ => false
/-- An entry of a load queue reads rows at flat addresses of another package (R196, R242). -/
def State.farEntry (s : State) (e : QEnt) : Bool :=
  !e.issued && (e.cmd.fn == 0 || e.cmd.fn == 1) && e.cmd.ctl.extractLsb' 22 2 == 0 && s.farVa e.cmd.addr

/-- REQUEST_REISSUE (R250): a request that its destination refused twice goes out again: a posted entry, a copy or a reconciliation
by its number, or an access of an agent or of a sequencer's load queue that its home or its window has not answered. It keeps
path and sent count. -/
def execRequestReissue (n : Nat) (s : State) : Out :=
  let posted := match Tab.find? s.fab.posted n with
    | some e => !e.delivered && !e.acked
    | none => false
  let copy := match Tab.find? s.fab.copies n with
    | some c => c.running && (s.farSide c.skind c.src c.sbind || s.farSide c.dkind c.dst c.dbind)
    | none => false
  let away := fun (l : Loc) => match l with
    | .mem _ _ _ => false
    | _ => true
  let agent := match s.agent? n with
    | some ag => ag.opens.any (fun o => away o.loc) || ag.pend.any (fun w => away w.loc) ||
        (ag.profile == .sequencer && (s.quad (ag.unit - 192)).loadQ.any s.farEntry)
    | none => false
  let recon := match Tab.find? s.fab.recons n with
    | some r => r.started.isNone && (s.farVa r.sk || s.farVa r.set)
    | none => false
  .next (if posted || copy || agent || recon then { s with rot := { s.rot with ringReiss := s.rot.ringReiss + 1 } } else s)

/-! ### Inbound accesses (R243, R253) -/

/-- Send a response to another package, as a flit of a ring link. -/
def State.reply (s : State) (r : RemoteRsp) : State :=
  let s := s.sendOff
  { s with fab := { s.fab with out := s.fab.out ++ [r] } }
/-- Answer an inbound access with a value. -/
def State.replyVal (s : State) (x : DWord) : State := s.reply { data := x, err := false, applied := false, line := [] }
/-- Answer an inbound access with bytes. -/
def State.replyBytes (s : State) (bs : List Byte) : State :=
  s.reply { data := BitVec.ofNat 64 (leVal (bs.take 8)), err := false, applied := false, line := bs }
/-- Answer an inbound access with an error (R253). -/
def State.refuse (s : State) (part : Nat) : State :=
  (s.inboundError part).reply { data := 0, err := true, applied := false, line := [] }

/-- The physical address of an inbound flat access of a partition: none where its address or translation fails. -/
def State.inboundXlat (s : State) (part : Nat) (va : DWord) (n : Nat) (need : Perm) : Option (Nat × BitVec 8) :=
  if !flatOk va || va.toNat % n != 0 then none
  else
    match s.walkFlat part va.toNat need with
    | .ok x => some (x.flatPa va, pteSlot x.pte)
    | _ => none

/-- Run an inbound flat access at its place; one that the home answers with an error is recorded as its rule says and
refused (R33, R253, R270). -/
def State.inboundAt (s : State) (part : Nat) (va : DWord) (n : Nat) (need : Perm) (k : State → Nat → BitVec 8 → State) : State :=
  let r := s.inboundXlat part va (max 1 n) need
  let s := s.noteWalk part (.flat va)
  match r with
  | none => s.refuse part
  | some (pa, slot) =>
    if s.reachable part slot pa then k s pa slot
    else (s.violation part slot pa .everyJob 0xFFFFFFFF 0).refuse part

/-- The read of an inbound access arrives; the answer says whether it finds a dropped line, whose record names no job (R42, R378). -/
def State.inboundRead (s : State) (part : Nat) (slot : BitVec 8) (pa n : Nat) (ecc : Ecc) : State × Bool :=
  match s.arriveRead part slot pa n ecc with
  | (s, some k) => (s.recordLoss k part slot pa 0 .everyJob 0xFFFFFFFF, true)
  | (s, none) => (s, false)

/-- The bytes of a peer's plots that a copy's access through a window reaches, or the code that ends the copy (R74): each plot must be
on engine side; a write to a barrier object fails (R236, R253). DESIGN CHOICE (log 121): a plot bound to a handle of the peer
serves a copy as one bound to none; the rule is silent. -/
def State.copySpot (s : State) (b : Binding) (off n : Nat) (writes : Bool) : Except Nat (Nat × Nat) :=
  match (s.bindUnit b).bind (fun u => b.spot u off n) with
  | none => .error 6
  | some (v, o) =>
    if (plotsOf v o n).any (fun p => !((s.unit v).plot p).engine) then .error 4
    else if writes && (s.unit v).overTag o n then .error 6
    else .ok (v, o)

/-- A binding whose source is on another package. -/
def State.inward? (s : State) (b : Nat) : Option Binding := (Tab.find? s.fab.binds b).filter (fun x => x.inward)

/-- Run an inbound copy access at the plots it reaches; a unit-side plot is answered with code 4 (R74). -/
def State.inboundCopy (s : State) (b off n : Nat) (writes : Bool) (k : Nat → Nat → State) : State :=
  match s.inward? b with
  | none => s.refuse 0
  | some x =>
    match s.copySpot x off n writes with
    | .ok (u, o) => k u o
    | .error 4 => s.reply { data := 4, err := true, applied := false, line := [] }
    | .error _ => s.refuse (s.bindPart x)

/-- A contribution from another package to a reduction over the domain (R255, R260): the launch's members are one group at level
5. -/
def State.contribute (s : State) (launch n : Nat) (allred : Bool) (a : Arrival) : State :=
  match s.launch? launch with
  | none => s
  | some x =>
    if x.sync ≠ 5 ∨ a.key / 0x100000 = s.plat.pkg.toNat then s
    else
      let m := ((x.dmem 0).extractLsb' 0 16).toNat
      match List.find? (fun (e : Nat × Redn) => e.2.launch == launch && e.2.n == n && e.2.allred == allred) s.fab.redns with
      | some (k, r) =>
        if r.members ≤ r.arr.length ∨ r.arr.any (fun y => y.key == a.key) then s
        else { s with fab := { s.fab with redns := Tab.put s.fab.redns k { r with arr := r.arr ++ [a], taken := r.taken + 1 } } }
      | none =>
        let r : Redn := { launch := launch, inst := x.instOf 0 0, n := n, allred := allred, members := m, arr := [a], taken := 1 }
        { s with fab := { s.fab with redns := Tab.put s.fab.redns s.fab.nextOp r, nextOp := s.fab.nextOp + 1 } }

/-- INBOUND_REMOTE_ACCESS (R74, R243, R248, R249, R253, R255, R272). -/
def execInboundRemoteAccess (r : Inbound) (ecc : Ecc) (s : State) : Out :=
  .next (match r with
    | .flatLoad p va n =>
      s.inboundAt p va n .read fun s pa slot =>
        let (t, gone) := s.inboundRead p slot pa n ecc
        t.replyBytes (if gone then List.replicate n 0 else t.pkReadN slot pa n)
    | .flatStore p va bs =>
      s.inboundAt p va bs.length .write fun s pa slot => (s.arriveWrite none p 0 slot pa bs 0xFF).replyVal 0
    | .flatAtomic p va op dbl v cmp =>
      let n := if dbl then 8 else 4
      s.inboundAt p va n .readWrite fun s pa slot =>
        let (t, gone) := s.inboundRead p slot pa n ecc
        let old := if gone then 0 else BitVec.ofNat 64 (leVal (t.pkReadN slot pa n))
        let t := if atomWrites op dbl old cmp then t.arriveWrite none p 0 slot pa (leBytes n (atomNew op dbl old v cmp).toNat) 0xFF else t
        t.replyVal old
    | .winWrite b src path off bytes =>
      match s.inward? b with
      | none => s.refuse 0
      | some x =>
        let hi := bytes.foldl (fun m e => max m e.1) off
        match s.landing x off (hi + 1 - off) (bytes.map (fun e => e.1)) with
        | none => s.refuse (s.bindPart x)
        | some (u, o) =>
          let s := s.land u o off bytes .data
          { s with fab := { s.fab with binds := Tab.put s.fab.binds b (x.count src path) } }.replyVal 0
    | .winFlag b src path off v n add carry =>
      match s.inward? b with
      | none => s.refuse 0
      | some x =>
        if !x.reached src carry then s
        else
          match s.landing x off n (List.range' off n) with
          | none => s.refuse (s.bindPart x)
          | some (u, o) =>
            let s := s.land u o off [] (.flag v n add carry)
            { s with fab := { s.fab with binds := Tab.put s.fab.binds b (x.count src path) } }.replyVal 0
    | .winLoad b off n =>
      match s.inward? b with
      | none => s.refuse 0
      | some x =>
        match s.landing x off n [] with
        | none => s.refuse (s.bindPart x)
        | some (u, o) => s.replyBytes (s.spadRead u o n)
    | .bindReq pkg u sets part =>
      match s.bindAnswer part (unitDie u) (unitIdx u) sets with
      | .error st => s.replyVal (BitVec.ofNat 64 st)
      | .ok (g, mem) =>
        let n := s.fab.nextOp
        let b : Binding := { srcUnit := pkg, dstPkg := s.plat.pkg.toNat, dstUnit := g, mem := mem, sets := sets, inward := true }
        { s with fab := { s.fab with binds := Tab.put s.fab.binds n b, nextOp := n + 1 } }.replyVal 0
    | .bindRelease b =>
      if (s.inward? b).isSome then { s with fab := { s.fab with binds := Tab.erase s.fab.binds b } }.replyVal 0 else s
    | .copyRead b off n => s.inboundCopy b off n false fun u o => s.replyBytes (s.spadRead u o n)
    | .copyWrite b off bs => s.inboundCopy b off bs.length true fun u o => (s.spadStore u o bs).replyVal 0
    | .copyFlip b plots =>
      match s.inward? b with
      | none => s
      | some x =>
        if x.ended then s
        else s.updGroup (if x.saved then savedGroup x.dstUnit else x.dstUnit + x.mem) (fun y => plots.foldl (fun y p => y.setPlot p {}) y)
    | .contribution l n allred key op cnt data => s.contribute l n allred { key := key, agent := ghostBase, op := op, cnt := cnt, data := data })

/-! ### Reductions and time -/

/-- The left fold of the contributions in contributor order (R94, R255, R260); false where `op` or `cnt` differ. -/
def foldArrivals (as_ : List Arrival) : Bool × List DWord :=
  match as_.insertionSort (fun a b => a.key ≤ b.key) with
  | [] => (false, [])
  | a :: t =>
    if t.any (fun b => b.op != a.op || b.cnt != a.cnt) then (false, [])
    else (true, t.foldl (fun acc b => acc.zipWith (redOp a.op) b.data) a.data)

/-- REDUCTION_FOLD (R255, R260): the contributions of an ALLRED all of whose members have arrived. -/
def execReductionFold (n : Nat) (s : State) : Out :=
  .next (match Tab.find? s.fab.redns n with
    | some r =>
      if r.allred && r.result.isNone && decide (r.members ≤ r.arr.length) then
        { s with fab := { s.fab with redns := Tab.put s.fab.redns n { r with result := some (foldArrivals r.arr) } } }
      else s
    | none => s)

/-- TIME_SYNC (R254): the exchange of every 125 µs moves the counters forward by at most 12 ns, never back. -/
def execTimeSync (corr : Nat) (s : State) : Out :=
  let soon := s.plat.syncAt.any (fun t => !s.past t 125000)
  .next (if soon then s
    else { s with ntime := s.ntime + BitVec.ofNat 64 (min corr 12), plat := { s.plat with syncAt := some s.ntime } })

end Sys2Proof.Machine
end

