-- ==== Sys2Proof/Machine/Faults.lean ====
section
/-! DEFINITION. Walks, not-present faults and side logs (R48, R57 to R62, R227), asynchronous traps (R345, R348), and the
events that end the waits of WAITW, NTIME and WFI (R239, R261, R352). -/
namespace Sys2Proof.Machine

/-! ### Walks -/

/-- The key a walk names: a flat address, or a tensor identifier in bits 19:0 with the tile number above it. -/
def walkName (key : DWord) (tile : Bool) : VKey :=
  if tile then .tile (key.extractLsb' 0 20).toNat (key.extractLsb' 20 44).toNat 0 else .flat key

/-- Keep a translation (R51). -/
def State.keepXlat (s : State) (x : Xlat) : State :=
  if s.ms.tlb.contains x then s else { s with ms := { s.ms with tlb := s.ms.tlb ++ [x] } }

/-- Keep the upper-level entries that a walk of a flat address read (R51). -/
def State.keepUpper (s : State) (part : Nat) (k : VKey) : State :=
  match k with
  | .flat va =>
    let root := Tab.get 0 s.rot.ptRoot part
    if root.getLsbD 0 && flatOk va then
      let us := s.walkPath part va.toNat 5 ((root.extractLsb' 12 40).toNat * 4096)
      { s with ms := { s.ms with upper := s.ms.upper ++ us.filter (fun u => !s.ms.upper.contains u) } }
    else s
  | .tile _ _ _ => s

/-- PAGE_WALK (R48, R51, R59): the entries a walk reads and its translation may serve later ones; a walk that ends in a fault
leaves it to the access that asked, which holds, enters a side log or traps (R60). -/
def execPageWalk (part : Nat) (key : BitVec 64) (tile : Bool) (need : Perm) (s : State) : Out :=
  let k := walkName key tile
  .next (match s.walkKey part k need with
    | .ok x => ((s.noteWalk part k).keepUpper part k).keepXlat x
    | .notPresent => (s.noteWalk part k).keepUpper part k
    | _ => s.noteWalk part k)

/-- The partition and the stream of a decoupled access queue. -/
def State.streamOf (s : State) (r : StreamRef) : Option (Nat × Stream) :=
  match r with
  | .agent id => (s.agent? id).map (fun ag => (ag.part, ag.strm))
  | .copySrc n => (Tab.find? s.fab.copies n).map (fun c => (c.part, c.sgen))
  | .copyDst n => (Tab.find? s.fab.copies n).map (fun c => (c.part, c.dgen))
  | .quadLoad q => some ((s.unit (192 + q)).part, (s.quad q).loadS)
  | .quadStore q => some ((s.unit (192 + q)).part, (s.quad q).storeS)
/-- The reads of the walk that a stream has running (R48, R57). -/
def State.noteStream (s : State) (r : StreamRef) : State :=
  match s.streamOf r with
  | some (part, st) =>
    match st.walk with
    | some k => s.noteWalk part k
    | none => s
  | none => s

/-- NEXT_PAGE_WALK (R57, R58): the walk that a decoupled access queue started for its neighbouring page or tile ends: an agent's
stream, a copy's address generators, a quadrant's load and store queues. -/
def execNextPageWalk (r : StreamRef) (s : State) : Out :=
  let s := s.noteStream r
  .next (match r with
    | .agent id => s.updAgent id (fun ag => { ag with strm := s.streamWalked ag.part ag.strm })
    | .copySrc n => { s with fab := { s.fab with copies := s.fab.copies.map (fun e =>
        if e.1 = n then (e.1, { e.2 with sgen := s.streamWalked e.2.part e.2.sgen }) else e) } }
    | .copyDst n => { s with fab := { s.fab with copies := s.fab.copies.map (fun e =>
        if e.1 = n then (e.1, { e.2 with dgen := s.streamWalked e.2.part e.2.dgen }) else e) } }
    | .quadLoad q => { s with quads := s.quads.map (fun e =>
        if e.1 = q then (e.1, { e.2 with loadS := s.streamWalked (s.unit (192 + q)).part e.2.loadS }) else e) }
    | .quadStore q => { s with quads := s.quads.map (fun e =>
        if e.1 = q then (e.1, { e.2 with storeS := s.streamWalked (s.unit (192 + q)).part e.2.storeS }) else e) })

/-! ### Faults -/

/-- Let the agents that a fault holds issue their accesses again. -/
def State.releaseHeld (s : State) (ids : List Nat) : State :=
  { s with agents := s.agents.map (fun e =>
      match e.2.wait with
      | .held _ => if ids.contains e.1 then (e.1, { e.2 with wait := .again }) else e
      | _ => e) }

/-- A page whose entries have all replayed: its fault leaves the queue and the accesses it held are answered (R62). -/
def State.settle (s : State) (part : Nat) (k : VKey) : State :=
  if s.logged part k then s
  else
    let done := s.ms.faults.filter (fun f => s.sameFault f part k && f.resolved)
    let s := { s with ms := { s.ms with faults := s.ms.faults.filter (fun f => !(s.sameFault f part k && f.resolved)) } }
    s.releaseHeld (done.flatMap (fun f => f.waiters))

/-- FAULT_RESOLVE (R60, R62): the page of the n-th fault is mapped, and with it every fault within the page as it is mapped; its
side-log entries replay first. -/
def execFaultResolve (n : Nat) (s : State) : Out :=
  .next (match s.ms.faults[n]? with
    | some f =>
      if f.resolved || s.walkKey f.part f.key f.perm == .notPresent then s
      else
        let s := s.noteWalk f.part f.key
        let s := { s with ms := { s.ms with faults := s.ms.faults.map (fun g =>
          if s.sameFault g f.part f.key then { g with resolved := true } else g) } }
        s.settle f.part f.key
    | none => s)

/-- The address of the page or tile a record names (R354): a tile has no flat address (log 23). -/
def State.pageName (s : State) (k : VKey) : State × DWord :=
  match k with
  | .flat va => (s, va &&& ~~~(0xFFF : DWord))
  | .tile _ _ _ => let (n, s) := s.draw; (s, Config.tensorAddr n &&& ~~~(0xFFF : DWord))

/-- The first discarded chunk of a copy decides its status (R73): code 2, and `moved` counts the elements before that chunk. -/
def Copy.discard (c : Copy) (before : Nat) : Copy := { c with code := some (c.code.getD 2), moved := min c.moved before }

/-- The chunk of a copy behind so many elements is discarded: the copy ends before it, and none of its later chunks is written; an
earlier chunk still waits for its own page (R71, R73). -/
def State.discardCopy (s : State) (n before : Nat) : State :=
  { s with
    fab := { s.fab with copies := s.fab.copies.map (fun y => if y.1 = n then (y.1, y.2.discard before) else y) },
    units := s.units.map (fun e => (e.1, { e.2 with
      slog := e.2.slog.filter (fun x => !(x.copy == some n && decide (before ≤ x.tag))) })) }

/-- A wave-order point that waits for entries of the agent's side log. -/
def Access.awaitsLog (o : Access) : Bool := o.kind == .order && o.rel

/-- A wave-order point is passed once the agent's earlier side-log entries are gone (R62, R232). -/
def State.orderDone (s : State) (id : Nat) : State :=
  let waits := fun (e : Nat × Agent) => e.1 == id && e.2.opens.any Access.awaitsLog
  if s.agents.any waits || s.hub.saves.any (fun e => e.2.agents.any waits) then
    let left := fun (o : Access) =>
      s.units.any (fun e => e.2.slog.any (fun x => x.agent == id && x.copy.isNone && decide (x.tag ≤ o.tag)))
    s.updAny id (fun ag => { ag with
      opens := dropOrder (ag.opens.map (fun o => if o.awaitsLog && !left o then { o with rel := false } else o)) })
  else s

/-- An entry may be replayed: its agent, saved ones too, has no earlier acquire, FENCE or wave-order point that is not
complete (R221, R232). -/
def State.mayReplay (s : State) (e : SideEnt) : Bool :=
  e.copy.isSome || match s.anyAgent? e.agent with
    | some ag => ag.opens.all (fun o => !(o.holds && decide (o.tag < e.tag)))
    | none => true

/-- Discard a page's entries from one unit's side log, with their record; a row of an ACCST ends in an engine fault (R62, R196,
R354, R378). -/
def State.discard (s : State) (part : Nat) (k : VKey) (u : Nat) : State :=
  let x := s.unit u
  let gone := x.slog.filter (fun e => e.part == part && e.key.samePage k)
  if gone.isEmpty then s
  else
    let s := s.putUnit u { x with slog := x.slog.filter (fun e => !(e.part == part && e.key.samePage k)) }
    let s := gone.foldl (fun t e => match e.copy with
      | none => t.updAny e.agent (fun ag => (ag.orStat rsMerr).engineFault (if e.row then some e.va else none))
      | some c => t.discardCopy c e.tag) s
    let s := gone.foldl (fun t e => t.orderDone e.agent) s
    let (s, pa) := s.pageName k
    s.record part { kind := 0x36, die := BitVec.ofNat 8 (unitDie u), pa := pa, w12 := BitVec.ofNat 32 gone.length }
      (.jobs ((gone.map (fun e => e.launch)).eraseDups)) (BitVec.ofNat 32 u)

/-- The entry that holds a load queue learns that a page stays unmapped (R62, R196). -/
def loseFirst (k : VKey) : List QEnt → List QEnt
  | [] => []
  | e :: t => if e.issued then e :: loseFirst k t else { e with lost := k :: e.lost } :: t

/-- FAULT_UNRESOLVABLE (R60, R62): held agents take the address trap, held copies complete with code 2, held queue entries
end with their fault, and the page's side-log entries are discarded. -/
def execFaultUnresolvable (n : Nat) (s : State) : Out :=
  .next (match s.ms.faults[n]? with
    | none => s
    | some f =>
      if f.resolved then s
      else
        let s := { s with ms := { s.ms with faults := dropNth s.ms.faults n } }
        let copies := s.fab.copies.map (fun (e : Nat × Copy) =>
          if f.copies.contains e.1 then (e.1, { e.2 with code := some (e.2.code.getD 2) }) else e)
        let recons := s.fab.recons.map (fun (e : Nat × Recon) =>
          if f.copies.contains e.1 then (e.1, { e.2 with code := some (e.2.code.getD 2) }) else e)
        let s := { s with fab := { s.fab with copies := copies, recons := recons } }
        let s := { s with quads := s.quads.map (fun (e : Nat × QuadSt) =>
          if f.queues.contains e.1 then (e.1, { e.2 with loadQ := loseFirst f.key e.2.loadQ }) else e) }
        let s := s.units.foldl (fun t (e : Nat × UnitSt) => t.discard f.part f.key e.1) s
        f.waiters.foldl (fun t id => match t.agent? id with
          | some ag =>
            match ag.wait with
            | .held va => takeTrap t id ag.atRep 0x05 ag.run.here va
            | _ => t
          | none => t) s)

/-- Write a side-log entry at its home: its bytes, or the lanes of its reduction one after another (R62, R227); a reduction that finds its line dropped meets zeros, a record and `merr` (R42, R378). -/
def State.replayAt (s : State) (u : Nat) (e : SideEnt) (pa : Nat) (slot : BitVec 8) : State :=
  let unit_ := if e.copy.isSome then none else (s.anyAgent? e.agent).map Agent.codeUnit
  match e.op with
  | none => e.bytes.foldl (fun t b => t.arriveWrite unit_ e.part 0 slot (pa + b.1) [b.2.1] b.2.2) s
  | some op =>
    e.args.foldl (fun t a =>
      let p := pa + a.1
      let (t, gone) := t.arriveRead e.part slot p e.size .clean
      let t := match gone with
        | some k => (t.recordLoss k e.part slot p (BitVec.ofNat 8 e.die) (.job e.launch) (BitVec.ofNat 32 u)).updAny e.agent (fun ag => ag.orStat rsMerr)
        | none => t
      let old := if gone.isSome then 0 else BitVec.ofNat 64 (leVal (t.pkReadN slot p e.size))
      if atomWrites op (e.size == 8) old a.2.2 then
        t.arriveWrite unit_ e.part 0 slot p (leBytes e.size (atomNew op (e.size == 8) old a.2.1 a.2.2).toNat) 0xFF
      else t) s

/-- A side-log entry's turn has come (R62): nothing older of its page, nor of its copy, stands before it, and its page is mapped and
replays. A copy's chunk that straddles two pages replays where its page needs no replay of its own. -/
def State.replayTurn (s : State) (x : UnitSt) (n : Nat) (e : SideEnt) : Bool :=
  (x.slog.take n).all (fun y => !(s.sameEnt y e.part e.key || (e.copy.isSome && y.copy == e.copy))) &&
    (s.replaying e.part e.key || (e.copy.isSome && !s.ms.faults.any (fun f => s.sameFault f e.part e.key))) && s.mayReplay e

/-- SIDE_LOG_REPLAY (R61, R62, R227): the oldest entry of its page in a unit's log, once the page is mapped; one of an
older incarnation of its die is discarded and counted, and an entry behind a barrier of its agent waits. A home that answers with
an error gives the issuer the address trap, with the address of its lowest lane there (R130, R345). -/
def execSideLogReplay (u n : Nat) (s : State) : Out :=
  .next (match (s.unit u).slog[n]? with
    | none => s
    | some e =>
      let x := s.unit u
      if !s.replayTurn x n e then s
      else
        let drop := fun (t : State) =>
          ((t.putUnit u { t.unit u with slog := dropNth (t.unit u).slog n }).orderDone e.agent).settle e.part e.key
        if e.inc ≠ (s.die e.die).inc then
          drop { s with rot := { s.rot with incDrop := s.rot.incDrop + 1 } }
        else
          let fail := fun (t : State) =>
            match e.copy with
            | none => (drop t).updAny e.agent (fun ag => ag.writeFault e.row e.va)
            | some c => (drop t).discardCopy c e.tag
          match s.walkKey e.part e.key (if e.op.isSome then .readWrite else .write) with
          | .notPresent => s
          | .ok y =>
            let pa := e.key.pa y
            if s.reachable e.part (pteSlot y.pte) pa then drop ((s.noteWalk e.part e.key).replayAt u e pa (pteSlot y.pte))
            else fail (s.violation e.part (pteSlot y.pte) pa (.job e.launch) (BitVec.ofNat 32 u) (BitVec.ofNat 8 e.die))
          | _ => fail s)

/-! ### Asynchronous traps -/

/-- Waits that hold off an asynchronous trap until they end: the instruction has had effects (R348). -/
def Wait.holdsTraps : Wait → Bool
  | .held _ => true
  | .barrier _ _ => true
  | .dbar _ => true
  | .allred _ => true
  | .contrib _ => true
  | .steal _ => true
  | .remq _ => true
  | .regroup _ _ _ => true
  | .regrouped _ => true
  | .winLoad => true
  | .winStore _ => true
  | .fence => true
  | .polsw _ => true
  | .keykill _ => true
  | .trapFar _ _ => true
  | .ending => true
  | _ => false

/-- The trap an agent owes at a boundary: an address error of a store first, then error record, engine fault, remote
error (R130, R348). -/
def Agent.dueTrap (ag : Agent) : Option (Nat × DWord × Agent) :=
  match ag.stErr with
  | va :: t => some (0x05, va, { ag with stErr := t })
  | [] =>
    if ag.inh then none
    else if ag.tcause.getLsbD 16 then some (0x22, ag.recVal, ag)
    else if ag.tcause.getLsbD 17 then some (0x21, ag.engVal, ag)
    else if ag.tcause.getLsbD 18 then some (0x20, ag.remVal, ag)
    else none

/-- Leave the queues in which an agent waits for a side-log entry or a unit of an allowance. -/
def State.leaveQueues (s : State) (id u : Nat) : State :=
  let x := s.unit u
  s.putUnit u { x with slogQ := x.slogQ.filter (fun a => a != id),
                       wins := x.wins.map (fun w => (w.1, { w.2 with queue := w.2.queue.filter (fun a => a != id) })) }

/-- ASYNC_TRAP (R345, R348): taken at a boundary between instructions; a wait that can be abandoned is. -/
def execAsyncTrap (id : Nat) (s : State) : Out :=
  .next (match s.agent? id with
    | none => s
    | some ag =>
      if !ag.live || ag.wait.holdsTraps then s
      else
        match ag.dueTrap with
        | none => s
        | some (c, v, ag) =>
          let s := if ag.profile = .host then s else s.leaveQueues id ag.unit
          takeTrap s id ag.atRep c ag.run.here v)

/-! ### The ends of waits -/

/-- Change the wait of an agent that has one. -/
def onWait (s : State) (id : Nat) (f : Agent → Wait → Option Wait) : Out :=
  .next (match s.agent? id with
    | some ag =>
      match f ag ag.wait with
      | some w => s.putAgent id { ag with wait := w }
      | none => s
    | none => s)

/-- WAITW_YIELD (R239). -/
def execWaitwYield (id : Nat) (s : State) : Out :=
  onWait s id fun _ w => match w with
    | .waitw ea => some (.waitwOut ea)
    | _ => none
/-- WAITW_TIMER (R239). -/
def execWaitwTimer (id : Nat) (s : State) : Out :=
  onWait s id fun _ w => match w with
    | .waitwOut ea => some (.waitwReady ea)
    | _ => none
/-- WAITW_REREAD (R239). -/
def execWaitwReread (id : Nat) (s : State) : Out :=
  onWait s id fun _ w => match w with
    | .waitwReady ea => some (.waitw ea)
    | _ => none
/-- NTIME_DEADLINE (R261). -/
def execNtimeDeadline (id : Nat) (s : State) : Out :=
  onWait s id fun ag w => match w with
    | .ntime dl => if (s.time ag).ult dl then none else some .again
    | _ => none
/-- WFI_TIMEOUT (R352). -/
def execWfiTimeout (id : Nat) (s : State) : Out :=
  onWait s id fun _ w => match w with
    | .wfi false t => if s.past t 1000000 then some (.wfi true t) else none
    | _ => none

end Sys2Proof.Machine
end

