-- ==== Sys2Proof/Machine/Copies.lean ====
section
/-! DEFINITION. The engines' steps: copies (R69, R71 to R74, R77), reconciliations (R280 to R284), and the SFU's queue
(R183). -/
namespace Sys2Proof.Machine

/-! ### Elements of a copy (R70, R71, R83) -/

/-- The elements of a copy. -/
def Copy.total (c : Copy) : Nat := c.ext.foldl (· * ·) 1

/-- The indices of an element in traversal order, dimension 0 fastest. -/
def elemIdx : List Nat → Nat → List Nat
  | [], _ => []
  | x :: t, e => e % x :: elemIdx t (e / x)

/-- One side of a copy: kind, endpoint, strides or origin, format, descriptor, binding. -/
structure Side where
  kind : Nat
  ep   : DWord
  str  : List Word
  fmt  : Fmt
  desc : Word
  bind : Option Nat
  deriving DecidableEq, Repr

/-- The format of a code. -/
def fmtOf (n : Nat) : Fmt := (Fmt.ofCode n).getD .int8

/-- The source side. -/
def Copy.srcSide (c : Copy) : Side :=
  { kind := c.skind, ep := c.src, str := c.sstr, fmt := fmtOf c.sfmt, desc := c.sdesc, bind := c.sbind }
/-- The destination side. -/
def Copy.dstSide (c : Copy) : Side :=
  { kind := c.dkind, ep := c.dst, str := c.dstr, fmt := fmtOf c.dfmt, desc := c.ddesc, bind := c.dbind }

/-- Where a byte of a side lies: memory, the own scratchpad, a window, or nowhere. -/
inductive Place where
  | key (k : VKey)
  | sp (off : Nat)
  | win (off : Nat)
  | bad
  deriving DecidableEq, Repr

/-- The bytes of an element: the bit at which it starts in the first one, and their places. -/
abbrev ElemAt := Nat × List Place

/-- The base of a side that is no tensor. -/
def Side.base (x : Side) : Nat := if x.kind = 3 then (x.ep.extractLsb' 0 19).toNat else x.ep.toNat

/-- The place of a byte address of a side that is no tensor. -/
def Side.place (x : Side) (a : Int) : Place :=
  if a < 0 then .bad
  else
    match x.kind with
    | 0 => if a.toNat < 2 ^ 56 then .key (.flat (BitVec.ofNat 64 a.toNat)) else .bad
    | 2 => .sp a.toNat
    | _ => if a.toNat < 0x80000 then .win a.toNat else .bad

/-- The place of a tensor's coordinates and the nibble (R55). -/
def State.tensorPlace (s : State) (part : Nat) (x : Side) (bits : Nat) (cs : List Nat) : Place × Nat :=
  match descTid x.desc with
  | none => (.bad, 0)
  | some tid =>
    match s.tensor part tid with
    | none => (.bad, 0)
    | some t =>
      if ebitsBits t.ebits ≠ bits then (.bad, 0)
      else
        match t.locate cs with
        | none => (.bad, 0)
        | some (tile, off, hi) => (.key (.tile tid tile off), if hi then 4 else 0)

/-- The next byte of a key. -/
def VKey.plus (k : VKey) (n : Nat) : VKey :=
  match k with
  | .flat va => .flat (va + BitVec.ofNat 64 n)
  | .tile t i off => .tile t i (off + n)

/-- The bytes of an element of a side by its indices. A 6-bit tensor is the stream's bytes as an 8-bit tensor (R53). -/
def State.elemAt (s : State) (part : Nat) (x : Side) (idx : List Nat) : ElemAt :=
  let bits := x.fmt.bits
  if x.kind = 1 then
    let org := (List.range 10).map (fun i => (nth 0 x.str i).toNat)
    let cs := (List.range 10).map (fun i => nth 0 org i + nth 0 idx i)
    if bits = 6 then
      let b := 6 * nth 0 idx 0
      let at_ := fun k => (s.tensorPlace part x 8 (setNth cs 0 (nth 0 org 0 + (b + k) / 8))).1
      (b % 8, (List.range ((b % 8 + 13) / 8)).map (fun i => at_ (8 * i - (if i = 0 then 0 else b % 8))))
    else
      match s.tensorPlace part x bits cs with
      | (.key k, sh) => (sh, (List.range ((bits + 7) / 8)).map (fun i => .key (k.plus i)))
      | (p, sh) => (sh, [p])
  else
    let bit : Int := (x.base : Int) * 8 + ((x.str.zip idx).map (fun e => e.1.toInt * (e.2 : Int))).sum * bits
    let sh := (bit % 8).toNat
    (sh, (List.range ((sh + bits + 7) / 8)).map (fun (i : Nat) => x.place (bit / 8 + i)))

/-- The 64-byte line of a place. -/
def Place.line : Place → Place
  | .key k => .key k.line
  | .sp o => .sp (o / 64)
  | .win o => .win (o / 64)
  | .bad => .bad

/-- The elements of the next chunk: from the first that is not written, those whose destination lies in its line, at most
64 bytes; an element that straddles two lines goes alone (R71). -/
def State.chunkAux (s : State) (c : Copy) (ln : Place) : Nat → Nat → List Nat
  | 0, _ => []
  | n + 1, e =>
    if c.total ≤ e then []
    else
      let ps := (s.elemAt c.part c.dstSide (elemIdx c.ext e)).2
      if ps.all (fun p => p.line == ln) then e :: State.chunkAux s c ln n (e + 1) else []

/-- The elements of the next chunk (R71). -/
def State.chunk (s : State) (c : Copy) : List Nat :=
  match (s.elemAt c.part c.dstSide (elemIdx c.ext c.moved)).2 with
  | [] => []
  | p :: _ =>
    match s.chunkAux c p.line (512 / c.dstSide.fmt.bits) c.moved with
    | [] => [c.moved]
    | es => es

/-! ### Reaching a place -/

/-- How an engine's access to a byte ends. -/
inductive Reach where
  | mem (pa : Nat) (x : Xlat)
  | sp (u off : Nat)
  | peer (u off : Nat)
  | far
  | absent (k : VKey)
  | walking
  | fail (code : Nat)
  | denied (pa : Nat) (slot : BitVec 8)
  deriving DecidableEq, Repr

/-- An engine's access to memory through its queue's stream (R22, R45, R57, R60, R242). -/
def State.reachKey (s : State) (part : Nat) (st : Stream) (k : VKey) (need : Perm) : Reach :=
  let bad := match k with
    | .flat va => !flatOk va
    | .tile _ _ _ => false
  let far := match k with
    | .flat va => s.farVa va
    | .tile _ _ _ => false
  if bad then .fail 2
  else if far then .far
  else
    match s.streamTarget part st need k with
    | .mem pa x =>
      if s.replaying part k then .absent k
      else if s.reachable part (pteSlot x.pte) pa then .mem pa x else .denied pa (pteSlot x.pte)
    | .absent => .absent k
    | .walking => .walking
    | _ => .fail 2

/-- A stream after an engine's access to a key (R57). -/
def Reach.enter (r : Reach) (npd : Nat) (k : VKey) (st : Stream) : Stream :=
  match r with
  | .mem _ x => st.enter npd k x
  | _ => st

/-- A copy's access to a byte of a window (R74): the peer's plot must be on engine side. -/
def State.reachWin (s : State) (bind : Option Nat) (off : Nat) (writes : Bool) : Reach :=
  match bind with
  | none => .fail 2
  | some n =>
    match Tab.find? s.fab.binds n with
    | none => .fail 6
    | some b =>
      if b.dstPkg ≠ s.plat.pkg.toNat then .far
      else
        match s.copySpot b off 1 writes with
        | .ok (v, o) => .peer v o
        | .error k => .fail k

/-- The access writes. -/
def permWrites : Perm → Bool
  | .write => true
  | .readWrite => true
  | _ => false

/-- The n-th copy's access to a byte: of its issuer's scratchpad, only in a plot bound to it (R66). -/
def State.reach (s : State) (n : Nat) (c : Copy) (x : Side) (need : Perm) (p : Place) : Reach :=
  match p with
  | .key k => s.reachKey c.part (if permWrites need then c.dgen else c.sgen) k need
  | .sp o =>
    let q := (s.unit c.unit_).plot (o / plotSize c.unit_)
    if q.engine && q.bound == some n then .sp c.unit_ o else .fail 2
  | .win o => s.reachWin x.bind o (permWrites need)
  | .bad => .fail 2

/-- The code with which an access ends a copy. -/
def Reach.code : Reach → Option Nat
  | .fail k => some k
  | .denied _ _ => some 2
  | _ => none

/-- How an access at another package ends (R74, R245, R253, log 26). DESIGN CHOICE (log 122): a copy whose flat endpoint at another
package errs ends with code 6, which the table gives for a window's far end alone. -/
def State.farCode (s : State) (win : Bool) : Option Nat × State :=
  if s.noRoute then (some 6, s)
  else
    let (n, s) := s.sendOff.draw
    match Config.farAnswer n with
    | 0 => (none, s)
    | 1 => (some (if win then 4 else 6), s)
    | _ => (some 6, s)

/-- The window of a copy's side has a unit of its allowance free (R74, R246): the window goes with its group, saved ones too (R72). -/
def State.winRoom (s : State) (x : Side) : Bool :=
  if x.kind ≠ 3 then true
  else
    match x.bind.bind (fun n => Tab.find? s.fab.binds n) with
    | none => true
    | some b =>
      let w := (s.groupOf b.srcUnit).win (x.ep.extractLsb' 60 4).toNat
      decide (w.used < (w.cfg.extractLsb' 46 8).toNat)

/-- A copy's access that errs at a peer of this package is noted there (R253). -/
def State.noteFar (s : State) (x : Side) (code : Nat) : State :=
  match x.bind.bind (fun n => Tab.find? s.fab.binds n) with
  | some b => if code = 6 ∧ b.dstPkg = s.plat.pkg.toNat then s.inboundError (s.bindPart b) else s
  | none => s

/-- The peer plots that accesses reached, as 256 × unit + plot. -/
def touchedBy (rs : List Reach) : List Nat :=
  rs.filterMap fun r => match r with
    | .peer u o => some (256 * u + o / plotSize u)
    | _ => none

/-- Change a copy. -/
def State.putCopy (s : State) (n : Nat) (c : Copy) : State := { s with fab := { s.fab with copies := Tab.put s.fab.copies n c } }

/-- The job that a record about a copy's access names (R378). -/
def Copy.violation (c : Copy) (s : State) (pa : Nat) (slot : BitVec 8) : State :=
  s.violation c.part slot pa (.job c.launch) (BitVec.ofNat 32 c.unit_) (BitVec.ofNat 8 (unitDie c.unit_))

/-- The first of accesses that ends a copy: its code, and where it is denied its place and slot. -/
def stopOf (rs : List Reach) : Option (Nat × Option (Nat × BitVec 8)) :=
  rs.findSome? (fun r => match r with
    | .fail k => some (k, none)
    | .denied pa slot => some (2, some (pa, slot))
    | _ => none)
/-- The first of accesses that meets a page that is not present. -/
def absentOf (rs : List Reach) : Option VKey :=
  rs.findSome? (fun r => match r with
    | .absent k => some k
    | _ => none)

/-- End a copy at its next chunk boundary with a code (R73). -/
def State.stopCopy (s : State) (n : Nat) (c : Copy) (code : Nat) : State := s.putCopy n { c with code := some (c.code.getD code) }

/-! ### Overlap (R71) -/

/-- A destination byte lies in the source's range: the same kind of endpoint and the same place, or for tensors the same
box of coordinates. -/
def Copy.overlapped (c : Copy) (idx : List Nat) (p : Place) : Bool :=
  let lies := fun (a : Nat) =>
    let r := copySpan c.srcSide.base c.sstr c.ext c.srcSide.fmt.bits
    decide (r.1 ≤ (a : Int)) && decide ((a : Int) < r.2)
  c.skind == c.dkind && match p with
    | .key (.flat va) => lies va.toNat
    | .sp o => lies o
    | .win o => c.sbind == c.dbind && lies o
    | .key (.tile _ _ _) =>
      descTid c.sdesc == descTid c.ddesc && (List.range 10).all (fun i =>
        let d := (nth 0 c.dstr i).toNat + nth 0 idx i
        let o := (nth 0 c.sstr i).toNat
        decide (o ≤ d) && decide (d < o + nth 1 c.ext i))
    | .bad => false

/-! ### Chunks -/

/-- Read a byte that an engine reached: zero in a line or block that the read found dropped (R42), a free value at another package
(log 26). -/
def State.engineByte (s : State) (part : Nat) (gone : List Nat) (r : Reach) (k : Nat) : Byte :=
  match r with
  | .mem pa x => if gone.contains (pa / 64 * 64) then 0 else s.pkSee part (pteSlot x.pte) pa
  | .sp u o => s.homeByte (spadBase u + o)
  | .peer u o => s.homeByte (spadBase u + o)
  | .far => Config.farByte (s.free + k)
  | _ => 0

/-- The package-store lines that accesses read, each once, with whether the page is uncached. -/
def memLines (rs : List Reach) : List (Nat × BitVec 8 × Bool) :=
  (rs.filterMap (fun r => match r with
    | .mem pa x => some (pa / 64 * 64, pteSlot x.pte, pteUnc x.pte)
    | _ => none)).eraseDups

/-- What an engine's accesses through a stream leave behind: the walks for the translations they use (R48, R57). -/
def State.noteReaches (s : State) (st : Stream) (rs : List Reach) : State :=
  ((rs.filterMap (fun r => match r with
    | .mem _ x => some x
    | _ => none)).eraseDups).foldl (fun t x => t.noteXlat st x) s

/-- An engine's reads arrive at the package store (R41, R42, R63, R271): a line or block found dropped is recorded. The answer is
the list of those lines. -/
def State.engineReads (s : State) (part launch unit_ : Nat) (ecc : Ecc) (rs : List Reach) : State × List Nat :=
  (memLines rs).zipIdx.foldl (fun (t : State × List Nat) e =>
    let (pa, slot, unc) := e.1
    match (t.1.noteUse part pa unc).arriveRead part slot pa 64 (if e.2 = 0 then ecc else .clean) with
    | (u, some k) => (u.recordLoss k part slot pa (BitVec.ofNat 8 (unitDie unit_)) (.job launch) (BitVec.ofNat 32 unit_), t.2 ++ [pa])
    | (u, none) => (u, t.2)) (s, [])

/-- Convert one element (R71, R182): equal formats keep their code; a rounding advances its lane's sequence. -/
def Copy.convert (c : Copy) (xs : Tab Word) (e code : Nat) : Nat × Tab Word :=
  let d := c.dstSide.fmt
  let f := c.srcSide.fmt
  if d = f then (code, xs)
  else
    match cvtKind d f with
    | none => (code, xs)
    | some k =>
      let l := e % 96
      let x := nextDraw (Tab.get 0 xs l)
      let draw := k == .rounding && c.rm == 4
      (((convertCode d f k c.rm x.toNat false code).1) % 2 ^ d.bits, if draw then Tab.set 0 xs l x else xs)

/-- A byte to write, with the part of it that is written. -/
structure OutByte where
  place : Place
  b     : Byte
  m     : Byte
  idx   : List Nat
  deriving DecidableEq, Repr

/-- Some element of a box lies at a distance, in elements, from its first: each dimension has a stride and an extent. -/
def strideHits : List (Int × Nat) → Int → Bool
  | [], d => d == 0
  | (st, n) :: t, d => (List.range n).any (fun i => strideHits t (d - st * i))

/-- The last element of a packed run of the copy (R83). DESIGN CHOICE (log 130), where the rule is silent on copies of several rows:
a run is a row of dimension 0 and goes on in the stream's next element where that is the copy's too. -/
def Copy.runEnd (c : Copy) (idx : List Nat) : Bool :=
  let str := (c.dstr.map (fun w => w.toInt)).zip c.ext
  nth 0 idx 0 + 1 == nth 1 c.ext 0 &&
    (c.dkind == 1 || !strideHits str (((c.dstr.zip idx).map (fun e => e.1.toInt * (e.2 : Int))).sum + 1))

/-- The bytes of an element at its places; the last of a run of 6-bit elements also clears the high bits of its byte
(R83), those of an element outside the copy among them (log 130). -/
def Copy.outBytes (c : Copy) (idx : List Nat) (at_ : ElemAt) (code : Nat) : List OutByte :=
  let bits := c.dstSide.fmt.bits
  let last := bits == 6 && c.runEnd idx
  let n := at_.2.length
  let width := if last then 8 * n - at_.1 else bits
  let v := leBytes n (code % 2 ^ bits * 2 ^ at_.1)
  let m := leBytes n ((2 ^ width - 1) * 2 ^ at_.1)
  (at_.2.zip (v.zip m)).map (fun e => { place := e.1, b := e.2.1, m := e.2.2, idx := idx })

/-- Write a byte that an engine reached, at its home (R222, R230). -/
def State.engineWrite (s : State) (part : Nat) (r : Reach) (b m : Byte) : State :=
  match r with
  | .mem pa x => (s.noteUse part pa (pteUnc x.pte)).arriveWrite none part 0 (pteSlot x.pte) pa [b] m
  | .sp u o => s.spadStore u o [merge (s.homeByte (spadBase u + o)) b m]
  | .peer u o => s.spadStore u o [merge (s.homeByte (spadBase u + o)) b m]
  | _ => s

/-- The number under which a copy waits for side-log entries (R61). -/
def copyAsker (n : Nat) : Nat := 1099511627776 + n

/-- The entries of a chunk in the side log of its issuer's unit, one a line; `tag` is the elements before the chunk (R61, R73). -/
def Copy.logEntries (c : Copy) (s : State) (n : Nat) (bs : List OutByte) : List SideEnt :=
  bs.foldl (fun es o => match o.place with
    | .key q => addEntry es
        { agent := c.agent, part := c.part, launch := c.launch, die := unitDie c.unit_, inc := (s.die (unitDie c.unit_)).inc,
          key := q.line, va := (match q with
            | .flat va => va
            | .tile _ _ _ => 0),
          copy := some n, tag := c.moved, bytes := [(q.inLine, o.b, o.m)] }
    | _ => es) []

/-- The copy has a chunk in a side log (R73). -/
def State.copyLogged (s : State) (n : Nat) : Bool := s.units.any (fun (e : Nat × UnitSt) => e.2.slog.any (fun (x : SideEnt) => x.copy == some n))

/-- A chunk enters the side log of its issuer's unit, or waits there for free entries in the order of asking (R60, R61). -/
def State.logChunk (s : State) (n : Nat) (c : Copy) (c' : Copy) (bs : List OutByte) (ks : List VKey) : State :=
  let u := s.unit c.unit_
  let es := c.logEntries s n bs
  let me := copyAsker n
  if u.slogFree c.unit_ me es.length then
    let s := s.putUnit c.unit_ { u with slog := u.slog ++ es, slogQ := u.slogQ.filter (fun a => a != me) }
    let s := ks.foldl (fun t k => if t.replaying c.part k then t else t.raiseFault c.part k .write none none) s
    s.putCopy n c'
  else s.putUnit c.unit_ { u with slogQ := if u.slogQ.contains me then u.slogQ else u.slogQ ++ [me] }

/-- The pages that accesses find not present, one key each line. -/
def absentKeys (rs : List Reach) : List VKey :=
  (rs.filterMap (fun r => match r with
    | .absent k => some k.line
    | _ => none)).eraseDups

/-- Write elements whose source has been read (R71, R74): all of their bytes, or none. The chunks of an element that straddles
two lines are written one after the other in one step (log 123). -/
def State.writeChunk (s : State) (n : Nat) (c : Copy) (es : List Nat) (bs : List OutByte) (xs : Tab Word) (touch : List Nat)
    (gone : Bool) : State :=
  let rs := bs.map (fun o => (o, s.reach n c c.dstSide .write o.place))
  let ends := rs.map (fun (e : OutByte × Reach) => e.2)
  let moved := c.moved + es.length
  let met := (c.touched ++ touch ++ touchedBy ends).eraseDups
  let gen := (rs.head?.map (fun e => match e.1.place with
    | .key k => e.2.enter c.npd k c.dgen
    | _ => c.dgen)).getD c.dgen
  let c' := { c with moved := moved, x := xs, merr := c.merr || gone, touched := met, dgen := gen }
  match stopOf ends with
  | some (k, v) =>
    let s := match v with
      | some (pa, slot) => c.violation s pa slot
      | none => s.noteFar c.dstSide k
    (s.leaveSlog c.unit_ (copyAsker n)).stopCopy n { c with touched := met } k
  | none =>
    if ends.any (· == .walking) then s
    else if (absentOf ends).isSome then s.logChunk n c c' bs (absentKeys ends)
    else if s.copyLogged n then s.leaveSlog c.unit_ (copyAsker n)
    else
      let s := (s.leaveSlog c.unit_ (copyAsker n)).noteReaches c.dgen ends
      let (stop, s) := if ends.any (· == .far) then s.farCode (c.dkind == 3) else (none, s)
      match stop with
      | some k => s.stopCopy n { c with touched := met } k
      | none =>
        let s := rs.foldl (fun t e =>
          if c.overlapped e.1.idx e.1.place then
            let (k, t) := t.draw
            t.engineWrite c.part e.2 (Config.overlapByte k) e.1.m
          else t.engineWrite c.part e.2 e.1.b e.1.m) s
        s.putCopy n c'

/-- The source stream of a copy after the elements of a chunk, each by its first byte (R57). -/
def Copy.sourceGen (c : Copy) (srcs : List ElemAt) (rd : List (Nat × List Reach)) : Stream :=
  (srcs.zip rd).foldl (fun st e => match e.1.2.head?, e.2.2.head? with
    | some (.key k), some r => r.enter c.npd k st
    | _, _ => st) c.sgen

/-- COPY_CHUNK (R71, R73, R74): the engine reads the next chunk's elements, converts them and writes their bytes; the path
over a circuit alters nothing (R77). -/
def execCopyChunk (n : Nat) (ecc : Ecc) (s : State) : Out :=
  .next (match Tab.find? s.fab.copies n with
    | none => s
    | some c =>
      if !c.running || c.cancel || c.code.isSome || decide (c.total ≤ c.moved) || !s.winRoom c.srcSide || !s.winRoom c.dstSide then s
      else
        let es := s.chunk c
        let idx := es.map (elemIdx c.ext)
        let srcs := idx.map (s.elemAt c.part c.srcSide)
        let rd := srcs.map (fun a => (a.1, a.2.map (s.reach n c c.srcSide .read)))
        let rs := rd.flatMap (fun e => e.2)
        let met := (c.touched ++ touchedBy rs).eraseDups
        match stopOf rs with
        | some (k, v) =>
          let s := match v with
            | some (pa, slot) => c.violation s pa slot
            | none => s.noteFar c.srcSide k
          s.stopCopy n { c with touched := met } k
        | none =>
          match absentOf rs with
          | some k => if s.replaying c.part k then s else s.raiseFault c.part k .read none (some n)
          | none =>
            if rs.any (· == .walking) then s
            else
              let (stop, s) := if rs.any (· == .far) then s.farCode (c.skind == 3) else (none, s)
              match stop with
              | some k => s.stopCopy n { c with touched := met } k
              | none =>
                let (s, gone) := (s.noteReaches c.sgen rs).engineReads c.part c.launch c.unit_ ecc rs
                let c := { c with sgen := c.sourceGen srcs rd }
                let code := fun (e : Nat × List Reach) =>
                  leVal (e.2.zipIdx.map (fun r => s.engineByte c.part gone r.1 r.2)) / 2 ^ e.1 % 2 ^ c.srcSide.fmt.bits
                let s' := if rs.any (· == .far) then { s with free := s.free + 64 } else s
                let (vs, xs) := (es.zip rd).foldl (fun (acc : List Nat × Tab Word) e =>
                  let r := c.convert acc.2 e.1 (code e.2)
                  (acc.1 ++ [r.1], r.2)) ([], c.x)
                let outs := (idx.zip vs).flatMap (fun e => c.outBytes e.1 (s.elemAt c.part c.dstSide e.1) e.2)
                s'.writeChunk n c es outs xs (touchedBy rs) (!gone.isEmpty))

/-- The oldest copy in an engine's queue that has not started. -/
def State.nextCopy (s : State) (e : Nat) : Option Nat :=
  (List.find? (fun (x : Nat × Copy) => x.2.engine == e && !x.2.running) s.fab.copies).map (fun x => x.1)

/-- COPY_START (R69): in queue order, up to 8 at once. -/
def execCopyStart (n : Nat) (s : State) : Out :=
  .next (match Tab.find? s.fab.copies n with
    | none => s
    | some c =>
      let busy := (s.fab.copies.filter (fun (x : Nat × Copy) => x.2.engine == c.engine && x.2.running)).length
      if c.running || s.nextCopy c.engine != some n || decide (8 ≤ busy) then s else s.putCopy n { c with running := true })

/-- The code of a copy that has ended (R73): code 5 takes precedence over 0 alone. -/
def Copy.endCode (c : Copy) : Nat :=
  match c.code with
  | some k => k
  | none => if c.cancel ∧ c.moved < c.total then 1 else if c.merr then 5 else 0

/-- COPY_COMPLETION (R65, R72 to R74): no chunk stands in a side log any more; the handle is done, the plots bound to it
and the peer plots it touched flip back, in one step. -/
def execCopyCompletion (n : Nat) (s : State) : Out :=
  .next (match Tab.find? s.fab.copies n with
    | none => s
    | some c =>
      if !c.running || !(c.code.isSome || c.cancel || decide (c.total ≤ c.moved)) || s.copyLogged n then s
      else
        let s := c.touched.foldl (fun t p => t.updGroup (p / 256) (fun x => x.setPlot (p % 256) {})) s
        let s := s.putUnit c.unit_ { s.unit c.unit_ with slogQ := (s.unit c.unit_).slogQ.filter (fun a => a != copyAsker n) }
        let s := { s with
          fab := { s.fab with copies := Tab.erase s.fab.copies n },
          ms := { s.ms with faults := s.ms.faults.map (fun (f : FaultRec) => { f with copies := f.copies.filter (fun k => k != n) }) } }
        s.finishOp n (hStatus c.endCode c.moved) [])

/-! ### The special-function unit -/

/-- SFU_ENTRY (R183): the head entry of a CU's queue. -/
def execSfuEntry (cu : Nat) (s : State) : Out := .next (if cu < 192 then s.sfuRun cu 1 else s)

/-! ### Reconciliations -/

/-- Change a reconciliation. -/
def State.putRecon (s : State) (n : Nat) (r : Recon) : State := { s with fab := { s.fab with recons := Tab.put s.fab.recons n r } }

/-- A reconciliation completes with a code and a reason (R283, R286). -/
def State.endRecon (s : State) (n : Nat) (r : Recon) (code reason moved : Nat) : State :=
  let r := if reason = 7 ∨ reason = 9 ∨ reason = 10 then { r with residual := 0, npairs := 0 } else r
  let s := { s with
    fab := { s.fab with recons := Tab.erase s.fab.recons n },
    ms := { s.ms with faults := s.ms.faults.map (fun (f : FaultRec) => { f with copies := f.copies.filter (fun k => k != n) }) } }
  s.finishOp n (hStatus code moved) ({ r with reason := reason } : Recon).stat

/-- Run a step of a reconciliation; one that is cancelled or has met an error completes instead (R72, R286). -/
def onRecon (s : State) (n : Nat) (k : Recon → State) : Out :=
  .next (match Tab.find? s.fab.recons n with
    | none => s
    | some r =>
      match r.code with
      | some 6 => s.endRecon n r 6 10 0
      | some c => s.endRecon n r c 7 0
      | none => if r.cancel then s.endRecon n r 1 9 0 else k r)

/-- What an engine's read of a range answers. -/
inductive RangeRead where
  | ok (bs : List Byte) (lines : List (Nat × BitVec 8))
  | absent (k : VKey)
  | fail (v : Option (Nat × BitVec 8))
  | far
  deriving DecidableEq, Repr

/-- Read a flat range at system scope (R16, R280), a piece within a page at a time. -/
def State.readSy (s : State) (part : Nat) : Nat → Nat → Nat → RangeRead
  | 0, _, _ => .ok [] []
  | f + 1, va, n =>
    if n = 0 then .ok [] []
    else
      let k := min n (4096 - va % 4096)
      match s.reachKey part {} (.flat (BitVec.ofNat 64 va)) .read with
      | .mem pa x =>
        let slot := pteSlot x.pte
        match State.readSy s part f (va + k) (n - k) with
        | .ok bs ls =>
          .ok ((List.range k).map (fun i => if s.struck slot (pa + i) then 0 else s.homeRead slot (pa + i)) ++ bs)
            ((List.range ((pa + k - 1) / 64 + 1 - pa / 64)).map (fun i => (64 * (pa / 64 + i), slot)) ++ ls)
        | r => r
      | .absent q => .absent q
      | .denied pa slot => .fail (some (pa, slot))
      | .far => .far
      | _ => .fail none

/-- A flat range as an engine reads it (R45). -/
def State.readRange (s : State) (part : Nat) (va : DWord) (n : Nat) : RangeRead :=
  if va.extractLsb' 56 8 ≠ 0 ∨ 2 ^ 56 < va.toNat + n then .fail none
  else s.readSy part (n / 4096 + 2) va.toNat n

/-- The entries of an array's bytes (R279). -/
def entriesOf : Nat → List Byte → List (DWord × DWord)
  | 0, _ => []
  | n + 1, bs =>
    (BitVec.ofNat 64 (leVal (bs.take 8)), BitVec.ofNat 64 (leVal ((bs.drop 8).take 8))) :: entriesOf n (bs.drop 16)

/-- Bytes of a range at another package (log 26). -/
def farBytes (free n : Nat) : List Byte := (List.range n).map (fun i => Config.farByte (free + i))

/-- A range that a reconciliation reads: its bytes, and the state with the walks and reads that arrive at the home (R41, R42, R48,
R63); or why it does not go on. -/
def State.reconRead (s : State) (n : Nat) (r : Recon) (va : DWord) (len : Nat) : Except State (List Byte × Bool × State) :=
  let unit := BitVec.ofNat 32 r.unit_
  let die := BitVec.ofNat 8 (unitDie r.unit_)
  match s.readRange r.part va len with
  | .ok bs ls =>
    let pages := if len = 0 then [] else List.range ((va.toNat % 4096 + len + 4095) / 4096)
    let s := pages.foldl (fun t i => t.noteWalk r.part (.flat (BitVec.ofNat 64 (va.toNat + 4096 * i)))) s
    let t := ls.foldl (fun (t : State × Bool) l =>
      match t.1.arriveRead r.part l.2 l.1 64 .clean with
      | (u, some k) => (u.recordLoss k r.part l.2 l.1 die (.job r.launch) unit, true)
      | (u, none) => (u, t.2)) (s, false)
    .ok (bs, t.2, t.1)
  | .absent k => .error (if s.replaying r.part k then s else s.raiseFault r.part k .read none (some n))
  | .fail v =>
    let s := match v with
      | some (pa, slot) => s.violation r.part slot pa (.job r.launch) unit die
      | none => s
    .error (s.endRecon n r 2 7 0)
  | .far =>
    let (stop, s) := s.farCode false
    match stop with
    | some _ => .error (s.endRecon n r 6 10 0)
    | none => .ok (farBytes s.free len, false, { s with free := s.free + len })

/-- Another pending request of this side for the same class and round keeps its pairing (R281). -/
def State.duplicate (s : State) (n : Nat) (r : Recon) : Bool :=
  s.fab.recons.any (fun (x : Nat × Recon) => x.1 != n && x.2.started.isSome && x.2.cls == r.cls && x.2.rnd == r.rnd)
/-- A reconciliation has waited for a match as long as it may (R281). -/
def State.waitOver (s : State) (r : Recon) : Bool := r.started.any (fun t => decide (t.toNat + r.wait * 1000000 ≤ s.ntime.toNat))

/-- Every plot of a reconciliation is still on engine side and bound to it: the engine touches no other (R66). -/
def State.reconOwns (s : State) (n : Nat) (r : Recon) : Bool :=
  r.plots.all (fun p => let q := (s.unit r.unit_).plot p; q.engine && q.bound == some n)

/-- RECONCILE_START (R280): in queue order, up to 8 at once; the engine reads the sketch and the entry array once. A reconciliation
one of whose plots a copy through a window has flipped back ends with code 2, like a copy that meets such a plot (R66, R74,
log 121). -/
def execReconcileStart (n : Nat) (s : State) : Out :=
  onRecon s n fun r =>
    let mine := fun (x : Nat × Recon) => x.2.engine == r.engine
    let busy := (s.fab.recons.filter (fun x => mine x && x.2.started.isSome)).length
    let first := (List.find? (fun (x : Nat × Recon) => mine x && x.2.started.isNone) s.fab.recons).map (fun x => x.1)
    if r.started.isSome || first != some n || decide (8 ≤ busy) then s
    else if s.duplicate n r then s.endRecon n r 6 4 0
    else if !s.reconOwns n r then s.endRecon n r 2 7 0
    else
      let sk := if r.sk.getLsbD 63 then .ok (s.spadRead r.unit_ (spPart r.sk) (cellBytes * r.cells), false, s)
        else s.reconRead n r r.sk (cellBytes * r.cells)
      match sk with
      | .error t => t
      | .ok (bs, e1, s) =>
        match s.reconRead n r r.set (16 * r.nset) with
        | .error t => t
        | .ok (es, e2, s) =>
          s.putRecon n { r with started := some s.ntime, merr := e1 || e2, sketch := bs, entries := entriesOf r.nset es }

/-- A peer's request is addressed to this reconciliation: each names the other's domain and package, and one class
(R281, R377). -/
def Recon.meets (s : State) (r : Recon) (p : PeerRecon) : Bool :=
  p.toDom == s.plat.dom && p.toPkg == s.plat.pkg && p.dom == r.dom && p.pkg == r.pkg && p.cls == r.cls

/-- The fields that decide the rounds agree (R281). -/
def Recon.agrees (r : Recon) (p : PeerRecon) : Bool :=
  p.rnd == r.rnd && p.cells == r.cells && p.mode == r.mode && p.minc == r.minc && p.maxc == r.maxc && p.lim == r.lim && p.gf == r.gf

/-- RECONCILE_MATCH (R281): a peer's request meets a pending one. One that comes after `wait`, a peer that is already paired and a
field that differs complete with code 6; otherwise they pair, and this side's sketch goes out. -/
def execReconcileMatch (n : Nat) (p : PeerRecon) (s : State) : Out :=
  onRecon s n fun r =>
    if r.started.isNone || r.peer.isSome || !r.meets s p then s
    else if s.waitOver r then s.endRecon n r 6 5 0
    else if p.paired || !r.agrees p then s.endRecon n r 6 4 0
    else s.putRecon n { r with peer := some p, sent := cellBytes * r.cells }

/-- RECONCILE_WAIT_EXPIRY (R281). -/
def execReconcileWaitExpiry (n : Nat) (s : State) : Out :=
  onRecon s n fun r => if r.peer.isNone && s.waitOver r then s.endRecon n r 6 5 0 else s

/-- Write the records, or report that the output is full (R283). -/
def State.emitPairs (s : State) (n : Nat) (r : Recon) (out : List PeelRec) (reason : Nat) : State :=
  let r := { r with npairs := out.length }
  if plotSize r.unit_ * r.nout / 24 < out.length then s.endRecon n r 7 2 0
  else if !s.reconOwns n r then s.endRecon n r 2 7 0
  else
    let s := s.spadStore r.unit_ (plotSize r.unit_ * r.out) (out.flatMap (recBytes r.rnd))
    if r.merr then s.endRecon n r 5 8 out.length else s.endRecon n r 0 reason out.length

/-- SKETCH_PEEL (R282, R283, R286): of the sketches that the two sides have exchanged; an exchange that fails ends the
reconciliation. -/
def execSketchPeel (n : Nat) (fail : Bool) (s : State) : Out :=
  onRecon s n fun r =>
    match r.peer with
    | none => s
    | some p =>
      if r.full then s
      else if fail then s.endRecon n r 6 10 0
      else
        let (left, out) := peel r.mode (cellsOf r.cells r.sketch) (cellsOf r.cells p.sketch)
        let residual := (left.filter (fun c => c != {})).length
        if residual = 0 then s.emitPairs n r out 0
        else if r.rnd < r.lim then s.endRecon n { r with residual := residual, npairs := out.length } 7 1 0
        else s.putRecon n { r with full := true, sent := r.sent + 16 * r.nset }

/-- FULL_SET_TRANSFER (R284, R286). -/
def execFullSetTransfer (n : Nat) (fail : Bool) (s : State) : Out :=
  onRecon s n fun r =>
    match r.peer with
    | none => s
    | some p => if r.full && fail then s.endRecon n r 6 10 0 else if r.full then s.emitPairs n r (fullDiff r.entries p.entries) 3 else s

end Sys2Proof.Machine
end

