-- ==== Sys2Proof/Machine/Array.lean ====
section
/-! DEFINITION. The systolic array (R75, R192 to R216, R373): dispatch and its model, queues, tokens, the weight latch,
rings, chains and banks, loop nests, fusion; and command blocks for another quadrant (R326). -/
namespace Sys2Proof.Machine

/-! ### Fused shapes (R214) -/

/-- A quadrant of a fused shape: its number, its place along k and along n. -/
structure Part where
  q   : Nat
  row : Nat
  col : Nat
  deriving DecidableEq, Repr

/-- The members of an edge code beside its leader: offset of the number, row, column. -/
def edgeParts : Nat → List Part
  | 0 => [⟨1, 0, 1⟩]
  | 1 => [⟨1, 0, 1⟩]
  | 2 => [⟨2, 1, 0⟩]
  | 3 => [⟨2, 1, 0⟩]
  | 4 => [⟨1, 0, 1⟩, ⟨2, 1, 0⟩, ⟨3, 1, 1⟩]
  | _ => []
/-- The leader of an edge code, within its die. -/
def edgeLeader (e : Nat) : Nat := nth 0 [0, 2, 0, 1, 0] e

/-- The parts of a quadrant with an edge. -/
def partsOf (q : Nat) (e : Option Nat) : List Part :=
  ⟨q, 0, 0⟩ :: match e with
    | some e => (edgeParts e).map (fun p => { p with q := q + p.q })
    | none => []
/-- The parts of a quadrant as it is fused. -/
def QuadSt.parts (x : QuadSt) (q : Nat) : List Part := partsOf q x.fused
/-- `fr` (R199). -/
def fusedRows (ps : List Part) : Nat := if ps.any (fun p => p.row == 1) then 2 else 1
/-- `fc` (R199). -/
def fusedCols (ps : List Part) : Nat := if ps.any (fun p => p.col == 1) then 2 else 1

/-! ### Commands (R193, R197) -/

/-- A command from its encoding fields and its operand values, operand a's registers first. The control word selects the
descriptor that is read with it; the own-scratchpad offset is the first word alone (R199, R373). -/
def mkCmd (fn a b c : Nat) (tok : BitVec 4) (ws : List Word) (desc : Nat → Word) (tag : Nat) : Cmd :=
  let w := nth (0 : Word) ws
  let kind := (w 2).extractLsb' 22 2
  let addr : DWord := if kind = 1 then (w 0).zeroExtend 64 else w 1 ++ w 0
  let base : Cmd := { fn := fn, tok := tok, tag := tag }
  match fn with
  | 0 => { base with addr := addr, ctl := w 2, stride := w 3, desc := desc ((w 2).extractLsb' 18 4).toNat }
  | 1 => { base with ring := c, addr := addr, ctl := w 2, stride := w 3, soff := w 4,
                     desc := desc ((w 2).extractLsb' 18 4).toNat }
  | 2 => { base with ring := a, imm := b, bank := c }
  | 3 => { base with anchor := (w 0).toInt, imm := b, bank := c }
  | 5 => { base with bank := c, addr := addr, ctl := w 2, stride := w 3, desc := desc ((w 2).extractLsb' 18 4).toNat }
  | 8 => { base with imm := (w 0).toNat }
  | _ => { base with bank := c }

/-- The source or destination kind of a command's control word. -/
def Cmd.kind (c : Cmd) : Nat := (c.ctl.extractLsb' 22 2).toNat
/-- Its format code. -/
def Cmd.fmt (c : Cmd) : Nat := (c.ctl.extractLsb' 0 4).toNat
/-- `fl` of ACCST. -/
def Cmd.fl (c : Cmd) : Bool := c.ctl.getLsbD 4
/-- `blk` of RLOAD. -/
def Cmd.blk (c : Cmd) : Bool := c.ctl.getLsbD 31
/-- The bits of its elements. -/
def Cmd.bits (c : Cmd) : Nat := fmtBits c.fmt

/-- The optional unit that a command needs (R2, R119, R194): FP64 array mode for an FP64 format, shadow accumulators. -/
def Cmd.needs (c : Cmd) : Option Nat :=
  match c.fn with
  | 0 => if c.fmt = 0 then some 0 else none
  | 1 => if c.fmt = 0 then some 0 else none
  | 3 => if c.imm % 4 = 2 then some 0 else none
  | 5 => if c.fmt = 0 then some 0 else none
  | 9 => some 2
  | 10 => some 2
  | 11 => some 2
  | _ => none
/-- The unit that a command needs is absent (R4). -/
def State.lacks (s : State) (c : Cmd) : Bool := c.needs.any (fun n => !s.hasUnit n)

/-- The queue of a command (R193). -/
def queueOf (fn : Nat) : Queue := if fn ≤ 1 then .load else if fn = 5 then .store else .compute
/-- The entries a queue holds (R192). -/
def queueCap : Queue → Nat
  | .load => 32
  | .compute => 32
  | .store => 16
/-- A queue of a quadrant. -/
def QuadSt.queue (x : QuadSt) : Queue → List QEnt
  | .load => x.loadQ
  | .compute => x.compQ
  | .store => x.storeQ
/-- Replace a queue. -/
def QuadSt.setQueue (x : QuadSt) (w : Queue) (es : List QEnt) : QuadSt :=
  match w with
  | .load => { x with loadQ := es }
  | .compute => { x with compQ := es }
  | .store => { x with storeQ := es }

/-! ### The dispatch model (R194) -/

/-- A bank of the model. -/
def DModel.bank (m : DModel) (n : Nat) : DmBank := Tab.get {} m.banks n
/-- Change a bank of the model. -/
def DModel.setBank (m : DModel) (n : Nat) (b : DmBank) : DModel := { m with banks := Tab.set {} m.banks n b }

/-- The model after a command. -/
def DModel.apply (m : DModel) (c : Cmd) : DModel :=
  let b := m.bank c.bank
  match c.fn with
  | 0 => { m with nW := m.nW + 1, fmt := c.fmt }
  | 2 => m.setBank c.bank { b with count := b.count + 1 }
  | 3 => m.setBank c.bank { b with chainOpen := true, kind := c.imm % 4, shadow := false, count := 0 }
  | 4 => m.setBank c.bank { b with chainOpen := false, fp64 := b.kind == 2 }
  | 9 => m.setBank c.bank { b with shadow := true }
  | 10 => m.setBank c.bank { b with shadow := false }
  | 11 => m.setBank c.bank { b with shadow := false }
  | _ => m

/-- A latch format fits a chain's kind (R204). -/
def latchFits (kind fmt : Nat) : Bool :=
  match kind with
  | 1 => fmt == 1
  | 2 => fmt == 0
  | _ => (decide (2 ≤ fmt) && decide (fmt ≤ 10)) || fmt == 13
/-- A pair of formats is legal for a chain's kind (R204). -/
def legalPair (kind latch tile : Nat) : Bool :=
  latchFits kind latch && (match kind with
    | 1 => tile == 1
    | 2 => tile == 0
    | _ => decide (2 ≤ tile) && decide (tile ≤ 10))

/-- An address or stride is misaligned for elements of 16 bits or more (R199). -/
def offGrid (bits x : Nat) : Bool := decide (16 ≤ bits) && x % (bits / 8) != 0

/-- A tensor operand's element width is not the format's (R199). -/
def State.ebitsBad (s : State) (part : Nat) (c : Cmd) : Bool :=
  match descTid c.desc with
  | none => false
  | some t =>
    match s.tensor part t with
    | some r => ebitsBits r.ebits != c.bits
    | none => false

/-- Condition 2 of WLOAD, RLOAD and ACCST (R199, R201, R207). -/
def State.operandBad (s : State) (part : Nat) (m : DModel) (c : Cmd) : Bool :=
  c.kind == 3 || (c.kind == 2 && (c.stride != 0 || c.bits == 6 || s.ebitsBad part c)) ||
  (c.kind != 2 && (offGrid c.bits c.addr.toNat || offGrid c.bits c.stride.toNat)) ||
  (match c.fn with
   | 0 => c.ctl.extractLsb' 4 14 != 0 || decide (13 < c.fmt) || (decide (c.fmt ≤ 1) && c.ctl.extractLsb' 24 8 != 127)
   | 1 => c.ctl.extractLsb' 24 7 != 0 || c.ctl.extractLsb' 4 14 != 0 || decide (13 < c.fmt) || (c.blk && c.kind == 2)
   | _ =>
     c.ctl.extractLsb' 24 8 != 0 || c.ctl.extractLsb' 5 13 != 0 ||
     decide ((if (m.bank c.bank).fp64 then 1 else 3) < c.fmt) ||
     (c.fl && (c.kind == 2 || (c.addr + 128 * c.stride.signExtend 64).toNat % 16 != 0)))

/-- The MMULs that a chain may hold (R204). -/
def chainLimit : Nat := 131072

/-- The condition that a queued command breaks at dispatch, given the model (R194, log 15). -/
def State.cmdCond (s : State) (part : Nat) (m : DModel) (c : Cmd) : Option Nat :=
  let b := m.bank c.bank
  match c.fn with
  | 0 => if s.operandBad part m c then some 2 else none
  | 1 => if s.operandBad part m c then some 2 else none
  | 2 =>
    if m.nW = 0 then some 1
    else if !b.chainOpen then some 4
    else if !latchFits b.kind m.fmt then some 5
    else if chainLimit ≤ b.count then some 6
    else none
  | 3 =>
    if b.chainOpen then some 3
    else if c.imm % 4 = 0 ∧ (c.anchor < -160 ∨ 127 < c.anchor) then some 2
    else none
  | 4 => if !b.chainOpen then some 4 else if b.shadow then some 7 else none
  | 5 => if s.operandBad part m c then some 2 else none
  | 8 => if 128 < c.imm then some 2 else none
  | 9 => if !b.chainOpen then some 4 else if b.shadow then some 7 else none
  | _ => if !b.shadow then some 7 else none

/-- Enter a command in its queue, if there is room (R193); a WLOAD takes the next number, an MMUL reads the last (R198). -/
def QuadSt.enqueue (x : QuadSt) (c : Cmd) : Option QuadSt :=
  let w := queueOf c.fn
  if queueCap w ≤ (x.queue w).length then none
  else
    let n := if c.fn = 0 then x.model.nW + 1 else x.model.nW
    let c : Cmd := { c with half := n }
    let e : QEnt := { cmd := c }
    some ({ x with model := x.model.apply c }.setQueue w (x.queue w ++ [e]))

/-! ### Loop nests (R210 to R212) -/

/-- A level of a table. -/
def nestLevel (t : Tab NestLevel) (l : Nat) : NestLevel := Tab.get {} t l
/-- The iterations of the active table. -/
def QuadSt.iters (x : QuadSt) : Nat := (List.range 6).foldl (fun n l => n * (nestLevel x.activeNest l).count) 1

/-- The grid an address must keep through the steps: the element's size, 16 bytes for a status record (R212, R207). -/
def Cmd.grid (c : Cmd) : Nat :=
  if c.fn = 2 ∨ c.kind = 2 then 1 else if c.fn = 5 ∧ c.fl then 16 else if 16 ≤ c.bits then c.bits / 8 else 1

/-- The condition that a body command breaks at its capture (R212). -/
def State.captureCond (s : State) (part : Nat) (x : QuadSt) (c : Cmd) : Option Nat :=
  let m := x.body.foldl DModel.apply x.model
  let j := x.body.length
  let here := (x.body.filter (fun d => d.fn == 2 && d.bank == c.bank)).length + 1
  if c.fn ≠ 0 ∧ c.fn ≠ 1 ∧ c.fn ≠ 2 ∧ c.fn ≠ 5 then some 8
  else
    match s.cmdCond part m c with
    | some n => some n
    | none =>
      if c.fn = 2 ∧ chainLimit < (x.model.bank c.bank).count + here * x.iters then some 6
      else if (List.range 6).any (fun l =>
          let v := nestLevel x.activeNest l
          decide (1 < v.count) && (Tab.get 0 v.steps j).toNat % c.grid != 0) then some 2
      else none

/-- An MMUL of the body would read a latch format that does not fit in a later iteration (R204, R212). -/
def wrapBad (m : DModel) (body : List Cmd) : Bool :=
  let go := body.foldl (fun (acc : DModel × Bool) c =>
    (acc.1.apply c, acc.2 || (c.fn == 2 && !latchFits (acc.1.bank c.bank).kind acc.1.fmt))) (body.foldl DModel.apply m, false)
  go.2

/-- Discard the commands captured so far (R212). -/
def State.dropCapture (s : State) (q : Nat) : State := s.putQuad q { s.quad q with capture := 0, body := [] }
/-- Discard a capture and trap (R212). -/
def captureTrap (s : State) (id : Nat) (ag : Agent) (q n : Nat) : State := trapHere (s.dropCapture q) id ag 0x0A (BitVec.ofNat 64 n)

/-- A word that is no instruction, while a sequencer captures: an engine command's discards what is captured (R194, R212). -/
def State.badWord (s : State) (ag : Agent) : State :=
  if ag.profile = .sequencer ∧ ag.run.word.extractLsb' 0 7 = 0x61 ∧ (s.quad (ag.unit - 192)).capture ≠ 0 then
    s.dropCapture (ag.unit - 192)
  else s

/-- Capture a body command; with the last the generator starts (R211, R212). -/
def captureCmd (s : State) (id : Nat) (ag : Agent) (q : Nat) (c : Cmd) : State :=
  let x := s.quad q
  match s.captureCond ag.part x c with
  | some n => captureTrap s id ag q n
  | none =>
    let body := x.body ++ [c]
    if x.capture = 1 then
      if 1 < x.iters ∧ wrapBad x.model body then captureTrap s id ag q 5
      else retire (s.putQuad q { x with capture := 0, body := body, gen := some (List.replicate 6 0, 0) }) id ag
    else retire (s.putQuad q { x with capture := x.capture - 1, body := body }) id ag

/-- The amount a body command's address moves in an iteration, level by level, for one operand part of a step. -/
def QuadSt.moved (x : QuadSt) (idx : List Nat) (j : Nat) (part : Word → Int) : Int :=
  ((List.range 6).map (fun l => Int.ofNat (nth 0 idx l) * part (Tab.get 0 (nestLevel x.activeNest l).steps j))).sum

/-- A body command in an iteration (R211, R373). -/
def QuadSt.stepped (x : QuadSt) (idx : List Nat) (j : Nat) (c : Cmd) : Cmd :=
  if c.fn = 2 then c
  else
    match c.kind with
    | 1 => { c with addr := (BitVec.ofInt 32 ((c.addr.extractLsb' 0 32).toInt + x.moved idx j BitVec.toInt)).zeroExtend 64 }
    | 2 =>
      let col := BitVec.ofInt 32 ((c.addr.extractLsb' 0 32).toInt + x.moved idx j (fun w => (w.extractLsb' 0 16).toInt))
      let row := BitVec.ofInt 32 ((c.addr.extractLsb' 32 32).toInt + x.moved idx j (fun w => (w.extractLsb' 16 16).toInt))
      { c with addr := row ++ col }
    | _ => { c with addr := BitVec.ofInt 64 (c.addr.toInt + x.moved idx j BitVec.toInt) }

/-- The indices after an iteration, i0 fastest; none after the last. -/
def nextIdx (counts : List Nat) : List Nat → Option (List Nat)
  | [] => none
  | i :: t =>
    match counts with
    | [] => none
    | n :: ns => if i + 1 < n then some ((i + 1) :: t) else (nextIdx ns t).map (fun r => 0 :: r)

/-- The group on a quadrant runs: its queues issue and its generator emits (R216). -/
def State.quadRuns (s : State) (q : Nat) : Bool := (s.unit (192 + q)).ustate == .running

/-- NEST_EMIT (R211): an emitted command is ordered as one dispatched now (R195). -/
def execNestEmit (q : Nat) (s : State) : Out :=
  let x := s.quad q
  .next (match x.gen with
    | none => s
    | some (idx, j) =>
      if !s.quadRuns q then s
      else
        let tag := ((s.agent? (seqBase + q)).map (fun ag => ag.nextTag)).getD 0
        match x.enqueue { x.stepped idx j (nth {} x.body j) with tag := tag } with
        | none => s
        | some y =>
          let gen := if j + 1 < x.body.length then some (idx, j + 1)
            else (nextIdx ((List.range 6).map (fun l => (nestLevel x.activeNest l).count)) idx).map (fun i => (i, 0))
          s.putQuad q { y with gen := gen, body := if gen.isNone then [] else y.body })

/-! ### Dispatch (R193, R194) -/

/-- The quadrant of a sequencer. -/
def Agent.quadNo (ag : Agent) : Nat := ag.unit - 192

/-- Dispatch a command that is queued, or capture it in a nest's body (R193, R194, R211). -/
def engineCmd (mk : Agent → Cmd) (s : State) : Out :=
  issue seqOnly 0 s fun id ag =>
    let q := ag.quadNo
    let x := s.quad q
    let c := mk ag
    if s.lacks c then trapWord (if x.capture ≠ 0 then s.dropCapture q else s) id ag 0x04
    else if x.gen.isSome then waitFor s id ag .again
    else if x.capture ≠ 0 then captureCmd s id ag q c
    else
      match s.cmdCond ag.part x.model c with
      | some n => trapHere s id ag 0x0A (BitVec.ofNat 64 n)
      | none =>
        match x.enqueue c with
        | none => waitFor s id ag .again
        | some y => retire (s.putQuad q y) id ag

/-- A command of the sequencer from its fields: pair 0 reads as zero (R96). -/
def Agent.cmd (ag : Agent) (fn a b c : Nat) (tok : BitVec 4) (regs : List Nat) : Cmd :=
  let k := mkCmd fn a b c tok (regs.map ag.sGet) ag.dGet ag.nextTag
  if a = 0 ∧ k.kind = 0 then { k with addr := 0 } else k

/-- WLOAD (R199). -/
def execWload (a b : BitVec 6) (tok : BitVec 4) (s : State) : Out :=
  engineCmd (fun ag => ag.cmd 0 a.toNat b.toNat 0 tok [a.toNat, a.toNat + 1, b.toNat, b.toNat + 1]) s
/-- RLOAD (R201). -/
def execRload (a b : BitVec 6) (c tok : BitVec 4) (s : State) : Out :=
  engineCmd (fun ag => ag.cmd 1 a.toNat b.toNat c.toNat tok [a.toNat, a.toNat + 1, b.toNat, b.toNat + 1, b.toNat + 2]) s
/-- MMUL (R204). -/
def execMmul (a b : BitVec 6) (c tok : BitVec 4) (s : State) : Out := engineCmd (fun ag => ag.cmd 2 a.toNat b.toNat c.toNat tok []) s
/-- CHB (R203). -/
def execChb (a b : BitVec 6) (c tok : BitVec 4) (s : State) : Out :=
  engineCmd (fun ag => ag.cmd 3 a.toNat b.toNat c.toNat tok [a.toNat]) s
/-- CHE (R205). -/
def execChe (c tok : BitVec 4) (s : State) : Out := engineCmd (fun ag => ag.cmd 4 0 0 c.toNat tok []) s
/-- ACCST (R207). -/
def execAccst (a b : BitVec 6) (c tok : BitVec 4) (s : State) : Out :=
  engineCmd (fun ag => ag.cmd 5 a.toNat b.toNat c.toNat tok [a.toNat, a.toNat + 1, b.toNat, b.toNat + 1]) s
/-- VCSET (R208). -/
def execVcset (a : BitVec 6) (tok : BitVec 4) (s : State) : Out := engineCmd (fun ag => ag.cmd 8 a.toNat 0 0 tok [a.toNat]) s
/-- SHDW (R209). -/
def execShdw (c tok : BitVec 4) (s : State) : Out := engineCmd (fun ag => ag.cmd 9 0 0 c.toNat tok []) s
/-- SCMT (R209). -/
def execScmt (c tok : BitVec 4) (s : State) : Out := engineCmd (fun ag => ag.cmd 10 0 0 c.toNat tok []) s
/-- SDSC (R209). -/
def execSdsc (c tok : BitVec 4) (s : State) : Out := engineCmd (fun ag => ag.cmd 11 0 0 c.toNat tok []) s

/-- A command that acts at dispatch: not while a nest emits, not in a body (R193, R211, R212). -/
def dispatchOp (s : State) (k : Nat → Agent → Nat → QuadSt → State) : Out :=
  issue seqOnly 0 s fun id ag =>
    let x := s.quad ag.quadNo
    if x.capture ≠ 0 then captureTrap s id ag ag.quadNo 8 else k id ag ag.quadNo x

/-- NEST (R210). -/
def execNest (a b : BitVec 6) (c : BitVec 4) (s : State) : Out :=
  dispatchOp s fun id ag q x =>
    let n := (ag.sGet a.toNat).toNat
    if x.gen.isSome then waitFor s id ag .again
    else if n = 0 ∨ 65536 < n then trapHere s id ag 0x0A 2
    else
      let l : NestLevel := { count := n, steps := Tab.fill 0 [] (List.range 8) (fun j => ag.sGet (b.toNat + j)) }
      retire (s.putQuad q { x with shadowNest := Tab.put x.shadowNest c.toNat l }) id ag

/-- GO (R211). -/
def execGo (a : BitVec 6) (s : State) : Out :=
  dispatchOp s fun id ag q x =>
    if x.gen.isSome then waitFor s id ag .again
    else retire (s.putQuad q { x with activeNest := x.shadowNest, capture := a.toNat, body := [] }) id ag

/-! ### Fusion (R214, R215) -/

/-- The `sat` and `nv` flags of a bank of a shape: those of its parts together (R202, R214). -/
def State.flagsOf (s : State) (ps : List Part) (n : Nat) : Bool × Bool :=
  let b := fun (p : Part) => Tab.get {} (s.quad p.q).banks n
  (ps.any (fun p => (b p).sat), ps.any (fun p => (b p).nv))
/-- Give a bank of every part of a shape these flags. -/
def State.putFlags (s : State) (ps : List Part) (n : Nat) (f : Bool × Bool) : State :=
  ps.foldl (fun t p =>
    let x := t.quad p.q
    t.putQuad p.q { x with banks := Tab.set {} x.banks n { (Tab.get {} x.banks n) with sat := f.1, nv := f.2 } }) s

/-- The queues have drained. -/
def QuadSt.drained (x : QuadSt) : Bool := x.loadQ.isEmpty && x.compQ.isEmpty && x.storeQ.isEmpty
/-- A chain is open on some bank of the model. -/
def DModel.anyOpen (m : DModel) : Bool := m.banks.any (fun e => e.2.chainOpen)

/-- The resets of QFUSE and QSPLIT. DESIGN CHOICE (log 72), where the rules say only that every ring becomes empty: its head and tail
go back to 0, which shows in the slot that the next RLOAD fills. `vc` is 128, token counts are 0, no latch half is valid, and the
kinds of the banks that the quadrant holds are its model's (R75, R192, R214, R215). -/
def QuadSt.unlatched (x : QuadSt) : QuadSt :=
  { x with vc := 128, tok := [], rings := [], latch := [], nW := 0,
           model := { banks := x.banks.filterMap (fun e => if e.2.fp64 then some (e.1, { fp64 := true }) else none) } }

/-- Reset every part of a shape, and say who leads it. -/
def State.resetParts (s : State) (ps : List Part) (lead : Option Nat) (edge : Option Nat) : State :=
  ps.foldl (fun t p =>
    t.putQuad p.q { (t.quad p.q).unlatched with fused := if lead = some p.q then edge else none,
                                                 member := if lead = some p.q then none else lead }) s

/-- QFUSE (R214). -/
def execQfuse (c : BitVec 4) (s : State) : Out :=
  dispatchOp s fun id ag q x =>
    let e := c.toNat
    let ps := partsOf q (some e)
    let reserved := fun (p : Part) => p.q == q || ((s.unit (192 + p.q)).ustate == .reserved && (s.unit (192 + p.q)).leader == 192 + q)
    if q % 4 ≠ edgeLeader e ∨ !ps.all reserved then trapHere s id ag 0x0A 9
    else if x.model.anyOpen || x.gen.isSome then trapHere s id ag 0x0A 10
    else if !x.drained then waitFor s id ag .again
    else retire ((s.resetParts (x.parts q) none none).resetParts ps (some q) (some e)) id ag

/-- QSPLIT (R215): each quadrant keeps its column part of every bank, with that bank's flags. -/
def execQsplit (s : State) : Out :=
  dispatchOp s fun id ag q x =>
    if x.model.anyOpen || x.gen.isSome then trapHere s id ag 0x0A 10
    else if x.fused.isNone then retire s id ag
    else if !x.drained then waitFor s id ag .again
    else
      let ps := x.parts q
      let s := (List.range 16).foldl (fun t n => t.putFlags ps n (s.flagsOf ps n)) s
      retire (s.resetParts ps none none) id ag

/-! ### Tokens (R75) -/

/-- The FIFOs a queue's token bits pop: 0 load→compute, 1 compute→store, 2 compute→load, 3 store→compute. -/
def popsOf (w : Queue) (tok : BitVec 4) : List Nat :=
  match w with
  | .load => if tok.getLsbD 2 then [2] else []
  | .compute => (if tok.getLsbD 0 then [0] else []) ++ (if tok.getLsbD 2 then [3] else [])
  | .store => if tok.getLsbD 0 then [1] else []
/-- The FIFOs a queue's token bits push. -/
def pushesOf (w : Queue) (tok : BitVec 4) : List Nat :=
  match w with
  | .load => if tok.getLsbD 1 then [0] else []
  | .compute => (if tok.getLsbD 1 then [1] else []) ++ (if tok.getLsbD 3 then [2] else [])
  | .store => if tok.getLsbD 3 then [3] else []

/-- A token count. -/
def QuadSt.tokAt (x : QuadSt) (f : Nat) : Nat := Tab.get 0 x.tok f
/-- Pop the tokens an entry pops; none where a FIFO is empty. -/
def QuadSt.pops (x : QuadSt) (fs : List Nat) : Option QuadSt :=
  if fs.any (fun f => x.tokAt f == 0) then none
  else some { x with tok := fs.foldl (fun t f => Tab.set 0 t f (Tab.get 0 t f - 1)) x.tok }
/-- Push the tokens an entry pushes; none where a FIFO would pass 16. -/
def QuadSt.pushes (x : QuadSt) (fs : List Nat) : Option QuadSt :=
  if fs.any (fun f => decide (16 ≤ x.tokAt f)) then none
  else some { x with tok := fs.foldl (fun t f => Tab.set 0 t f (Tab.get 0 t f + 1)) x.tok }

/-! ### What a load or store entry touches -/

/-- The place of a byte of an own-scratchpad operand. -/
def spPlace (a : Nat) : Place := .sp (a % 2 ^ 32)

/-- The bytes of element `n` of row `m` of a command's operand (R199, R83). -/
def State.cmdElem (s : State) (part : Nat) (c : Cmd) (m n : Nat) : ElemAt :=
  let bits := c.bits
  match c.kind with
  | 2 =>
    let x : Side := { kind := 1, ep := 0, str := [], fmt := fmtOf c.fmt, desc := c.desc, bind := none }
    let cs := [(c.addr.extractLsb' 0 32).toNat + n, (c.addr.extractLsb' 32 32).toNat + m] ++ List.replicate 8 0
    match s.tensorPlace part x bits cs with
    | (.key k, sh) => (sh, (List.range ((bits + 7) / 8)).map (fun i => .key (k.plus i)))
    | (p, sh) => (sh, [p])
  | 1 =>
    let a : Word := c.addr.extractLsb' 0 32 + BitVec.ofNat 32 m * c.stride + BitVec.ofNat 32 (n * bits / 8)
    let sh := n * bits % 8
    (sh, (List.range ((sh + bits + 7) / 8)).map (fun i => spPlace (a.toNat + i)))
  | _ =>
    let a : DWord := c.addr + BitVec.ofNat 64 m * c.stride.signExtend 64 + BitVec.ofNat 64 (n * bits / 8)
    let sh := n * bits % 8
    (sh, (List.range ((sh + bits + 7) / 8)).map (fun i => .key (.flat (a + BitVec.ofNat 64 i))))

/-- Byte `i` of a record at an offset of a command's address: its X8 bytes or its status record (R201, R207). -/
def cmdByte (c : Cmd) (off : DWord) (i : Nat) : Place :=
  match c.kind with
  | 1 => spPlace ((c.addr + off).extractLsb' 0 32 + BitVec.ofNat 32 i).toNat
  | _ => .key (.flat (c.addr + off + BitVec.ofNat 64 i))

/-- A sequencer's access to a byte by a queue entry, through the stream of its queue (R57, R196). -/
def State.reachSeq (s : State) (part u : Nat) (need : Perm) (p : Place) : Reach :=
  let x := s.quad (u - 192)
  match p with
  | .key k => s.reachKey part (if permWrites need then x.storeS else x.loadS) k need
  | .sp o => if o < spadSize u then .sp u o else .fail 2
  | _ => .fail 2

/-- A queue's stream after an entry's accesses (R57, R101). -/
def entered (npd : Nat) (st : Stream) (rs : List (Place × Reach)) : Stream :=
  rs.foldl (fun st r => match r.1 with
    | .key k => r.2.enter npd k st
    | _ => st) st

/-- A place lies in a plot on engine side (R66). -/
def State.placeBusy (s : State) (u : Nat) (p : Place) : Bool :=
  match p with
  | .sp o => (s.enginePlot u o 1).isSome
  | _ => false

/-- The address that a fault's `tval` names: bit 63 clear (R196); a tensor has no flat address (log 23). -/
def placeVa (s : State) (p : Place) : DWord :=
  (match p with
   | .key (.flat va) => va
   | .sp o => BitVec.ofNat 64 o
   | _ => Config.tensorAddr s.free) &&& 0x7FFFFFFFFFFFFFFF

/-- What the reads of a load entry come to: not yet, held on a page, or each place with how it was reached. -/
inductive Fetch where
  | wait
  | hold (k : VKey)
  | go (rs : List (Place × Reach))
  deriving DecidableEq, Repr

/-- A page an entry waits for was declared unresolvable. -/
def QEnt.gaveUp (e : QEnt) (k : VKey) : Bool := e.lost.any (fun l => l.samePage k)

/-- Reach the places of a load entry (R66, R196). -/
def State.fetchPlaces (s : State) (part u : Nat) (e : QEnt) (ps : List Place) : Fetch :=
  if ps.any (s.placeBusy u) then .wait
  else
    let rs := ps.map (fun p => (p, s.reachSeq part u .read p))
    let stop := rs.findSome? fun r => match r.2 with
      | .absent k => if e.gaveUp k && !s.replaying part k then none else some (Fetch.hold k)
      | .walking => some .wait
      | _ => none
    stop.getD (.go rs)

/-- An access could not be made. -/
def Reach.failed : Reach → Bool
  | .fail _ => true
  | .denied _ _ => true
  | .absent _ => true
  | _ => false

/-- Hold a quadrant's load queue on a page (R60). -/
def State.holdQueue (s : State) (q part : Nat) (k : VKey) : State :=
  if s.replaying part k then s
  else
    let s := s.raiseFault part k .read none none
    { s with ms := { s.ms with faults := s.ms.faults.map (fun (f : FaultRec) =>
        if s.sameFault f part k && !f.resolved && !f.queues.contains q then { f with queues := f.queues ++ [q] } else f) } }

/-- A byte that a load entry reads: its sequencer's own pending writes come first (R223). -/
def State.seqByte (s : State) (ag : Agent) (gone : List Nat) (p : Place) (r : Reach) (n : Nat) : Byte :=
  let b := s.engineByte ag.part gone r n
  match r, p with
  | .mem pa _, _ => ag.view pa b
  | .far, .key (.flat va) =>
    ag.pend.foldl (fun acc w => match w.farAt? (va.extractLsb' 46 9).toNat va.toNat with
      | some x => merge acc x w.msk
      | none => acc) b
  | _, _ => b

/-- Note what the reads of an entry show: a refused access, lines found dropped, which are answered (R42, R196, R378). -/
def State.seqReads (s : State) (id : Nat) (ag : Agent) (ecc : Ecc) (rs : List Reach) : State × List Nat :=
  let s := match rs.findSome? (fun r => match r with
    | .denied pa slot => some (pa, slot)
    | _ => none) with
  | some (pa, slot) => s.violationOf ag slot pa
  | none => s
  let (s, gone) := s.engineReads ag.part ag.launch ag.unit ecc rs
  (if gone.isEmpty then s else s.updAgent id (fun a => a.orStat rsMerr), gone)

/-- The access of an entry to one of its places is not answered: it failed, or another package did not answer it. -/
def Reach.lost (r : Reach) (farErr : Bool) : Bool := r.failed || (farErr && r == .far)

/-- The value of bytes that an entry reads at places, the n-th byte it reads first: zero where one could not be read. -/
def State.seqVal (s : State) (part u : Nat) (ag : Agent) (gone : List Nat) (farErr : Bool) (n : Nat) (ps : List Place) : Nat :=
  let rs := ps.map (fun p => (p, s.reachSeq part u .read p))
  if rs.any (fun r => r.2.lost farErr) then 0
  else leVal (rs.zipIdx.map (fun r => s.seqByte ag gone r.1.1 r.1.2 (n + r.2)))

/-! ### The weight latch and the rings (R198 to R201) -/

/-- A ring of a quadrant. -/
def QuadSt.ring (x : QuadSt) (r : Nat) : Ring := Tab.get {} x.rings r
/-- Replace a ring. -/
def QuadSt.setRing (x : QuadSt) (r : Nat) (v : Ring) : QuadSt := { x with rings := Tab.set {} x.rings r v }
/-- The scratchpad offset of a ring's slot. -/
def slotOff (r n : Nat) : Nat := r * 0x200000 + n % 16 * 0x20000
/-- Issued entries of a ring that have not retired: RLOADs, or MMULs that pop. -/
def inFlight (es : List QEnt) (r : Nat) : Nat :=
  (es.filter (fun e => e.issued && e.cmd.ring == r && (e.cmd.fn == 1 || (e.cmd.fn == 2 && e.cmd.imm == 0)))).length
/-- A slot lies in unit-side plots in every part (R66, R200). -/
def State.slotFree (s : State) (ps : List Part) (r n : Nat) : Bool :=
  ps.all (fun p => (s.enginePlot (192 + p.q) (slotOff r n) 0x20000).isNone)

/-- Every access that the sequencer of a quadrant issued before dispatching a command is performed, its stores in the side log
among them (R62, R195, R231). -/
def State.seqPerformed (s : State) (q : Nat) (ag : Agent) (tag : Nat) : Bool :=
  ag.opens.all (fun o => decide (tag < o.tag)) &&
  (s.unit (192 + q)).slog.all (fun e => e.agent != seqBase + q || e.copy.isSome || e.row || decide (tag < e.tag))

/-- The interlocks of a load entry (R195, R198, R200): the sequencer's earlier accesses are performed; a WLOAD waits for
the MMULs before it that read its half; an RLOAD for a free slot. -/
def State.loadReady (s : State) (q : Nat) (ag : Agent) (x : QuadSt) (c : Cmd) : Bool :=
  s.seqPerformed q ag c.tag &&
  (if c.fn = 0 then
    !x.compQ.any (fun e => e.cmd.fn == 2 && decide (e.cmd.half < c.half) && e.cmd.half % 2 == c.half % 2)
   else
    let r := x.ring c.ring
    let n := inFlight x.loadQ c.ring
    decide (r.count + n < 16) && s.slotFree (x.parts q) c.ring (r.tail + n))

/-- The rows and columns of a load entry's tile (R199, R201). -/
def tileSize (ps : List Part) (fn : Nat) : Nat × Nat :=
  if fn = 0 then (128 * fusedRows ps, 128 * fusedCols ps) else (128, 128 * fusedRows ps)

/-- Issue a load entry (R196, R199, R201): what it reads is staged until it retires. DESIGN CHOICE (log 71), where the rule calls the
row stride alone signed: the scale offset is sign-extended like it. -/
def State.issueLoad (s : State) (q : Nat) (id : Nat) (ag : Agent) (x : QuadSt) (e : QEnt) (ecc : Ecc)
    (put : State → QEnt → State) : State :=
  let c := e.cmd
  let u := 192 + q
  let ps := x.parts q
  let (rows, cols) := tileSize ps c.fn
  let at_ := (List.range rows).flatMap (fun m => (List.range cols).map (fun n => (256 * m + n, s.cmdElem ag.part c m n)))
  let per := 4 * fusedRows ps
  let xs := if c.fn = 1 ∧ c.blk then
      (List.range rows).flatMap (fun m => (List.range per).map (fun j =>
        (8 * m + j, cmdByte c (c.soff.signExtend 64 + BitVec.ofNat 64 (per * m)) j)))
    else []
  if !s.loadReady q ag x c then s
  else
    match s.fetchPlaces ag.part u e (at_.flatMap (fun a => a.2.2) ++ xs.map (fun a => a.2)) with
    | .wait => s
    | .hold k => s.holdQueue q ag.part k
    | .go rs =>
      let far := rs.any (fun r => r.2 == .far)
      let (stop, s) := if far then s.farCode false else (none, s)
      let err := (rs.find? (fun r => r.2.lost stop.isSome)).map (fun r => placeVa s r.1)
      let (s, gone) := (s.noteReaches x.loadS (rs.map (fun r => r.2))).seqReads id ag ecc (rs.map (fun r => r.2))
      let val := s.seqVal ag.part u ag gone stop.isSome
      let el := at_.filterMap (fun a =>
        let v := val (8 * a.1) a.2.2 / 2 ^ a.2.1 % 2 ^ c.bits
        if v = 0 then none else some (a.1, v))
      let sc := xs.filterMap (fun a =>
        let v := val (8 * (65536 + a.1)) [a.2]
        if v = 127 then none else some (a.1, v))
      let t : Tile := { fmt := c.fmt, xs := if c.fn = 0 then (c.ctl.extractLsb' 24 8).toNat else 127,
                        blk := c.fn == 1 && c.blk, scales := sc, el := el }
      let s := if far then { s with free := s.free + 1048576 } else s
      let z := s.quad q
      let s := s.putQuad q { z with loadS := entered (npDistance ag.npdist) z.loadS rs }
      put s { e with issued := true, stage := some t, err := err }

/-- The row bytes of a ring tile that a part holds: its own k-columns (R200, R214). -/
def ringRow (f : Fmt) (t : Tile) (p : Part) (m : Nat) : List Byte :=
  packRun f ((List.range 128).map (fun k => Tab.get 0 t.el (256 * m + 128 * p.row + k)))

/-- Retire an RLOAD: its slot in every part, tail and count (R200, R201). -/
def State.retireRload (s : State) (q : Nat) (c : Cmd) (t : Tile) : State :=
  let x := s.quad q
  let r := x.ring c.ring
  let f := fmtOf t.fmt
  let s := (x.parts q).foldl (fun s p => (List.range 128).foldl (fun s m =>
    s.spadStore (192 + p.q) (slotOff c.ring r.tail + m * 16 * f.bits) (ringRow f t p m)) s) s
  s.putQuad q (x.setRing c.ring { r with
    tail := (r.tail + 1) % 16, count := r.count + 1, slots := Tab.put r.slots r.tail { t with el := [] } })

/-! ### Chains (R92, R93, R202 to R206) -/

/-- Opposite infinities give a NaN (R93). -/
def mergeInf (x : Spec) (n : Bool) : Spec :=
  match x with
  | .none => .inf n
  | .inf m => if m = n then .inf n else .nan
  | .nan => .nan

/-- A finite value in units of 2^(E − 96), truncated toward zero (R93). -/
def anchorTrunc (anchor : Int) (neg : Bool) (m : Nat) (e : Int) : Int :=
  let d := e - (anchor - 96)
  let k : Nat := if 0 ≤ d then m <<< d.toNat else m >>> (-d).toNat
  if neg then -(k : Int) else k

/-- Add a product to a working accumulator of a chain (R92, R93). -/
def accumulate (kind : Nat) (anchor : Int) (a : Acc) (p : FVal) : Acc :=
  match kind with
  | 0 =>
    match p with
    | .nan _ => { a with spec := .nan }
    | .inf n => { a with spec := mergeInf a.spec n }
    | .fin n m e => { a with sum := a.sum + anchorTrunc anchor n m e }
  | k =>
    let f := if k = 1 then Fmt.fp32 else Fmt.fp64
    { a with fp := BitVec.ofNat 64 (roundTo f 0 0 (fvAdd 0 (f.decode a.fp.toNat) p).1).1 }

/-- The NaN state of a working element (R204). -/
def nanAcc (kind : Nat) : Acc :=
  match kind with
  | 0 => { spec := .nan }
  | 1 => { fp := BitVec.ofNat 64 Fmt.fp32.nanBits }
  | _ => { fp := BitVec.ofNat 64 Fmt.fp64.nanBits }

/-- How a working element starts from a bank's value (R203). -/
def startAcc (kind : Nat) (anchor : Int) (fp64 : Bool) (v : DWord) : Acc :=
  let f := if fp64 then Fmt.fp64 else Fmt.fp32
  match kind with
  | 0 => accumulate 0 anchor {} (f.decode v.toNat)
  | 1 => { fp := if fp64 then BitVec.ofNat 64 (roundTo .fp32 0 0 (f.decode v.toNat)).1 else v }
  | _ => { fp := if fp64 then v else BitVec.ofNat 64 (roundTo .fp64 0 0 (f.decode v.toNat)).1 }

/-- The value of a closed chain's element, and whether it clamped or is a NaN (R92, R93). -/
def finishAcc (kind : Nat) (anchor : Int) (a : Acc) : DWord × Bool × Bool :=
  match kind with
  | 0 =>
    match a.spec with
    | .nan => (BitVec.ofNat 64 Fmt.fp32.nanBits, false, true)
    | .inf n => (BitVec.ofNat 64 (roundTo .fp32 0 0 (.inf n)).1, false, false)
    | .none =>
      let lim : Int := 2 ^ 127
      let x := if lim ≤ a.sum then lim - 1 else if a.sum ≤ -lim then -(lim - 1) else a.sum
      (BitVec.ofNat 64 (roundTo .fp32 0 0 (.fin (decide (x < 0)) x.natAbs (anchor - 96))).1, x != a.sum || a.sum == lim || a.sum == -lim, false)
  | k =>
    let f := if k = 1 then Fmt.fp32 else Fmt.fp64
    (a.fp, false, (f.decode a.fp.toNat).isNan)

/-- The open chain of a bank. -/
def QuadSt.chain (x : QuadSt) (n : Nat) : Chain := Tab.get {} x.chains n
/-- A bank. -/
def QuadSt.bank (x : QuadSt) (n : Nat) : Bank := Tab.get {} x.banks n
/-- Replace a bank. -/
def QuadSt.setBank (x : QuadSt) (n : Nat) (b : Bank) : QuadSt := { x with banks := Tab.set {} x.banks n b }

/-- The X8 scale of a byte (R81). -/
def x8 (b : Nat) : FVal := if b = 255 then .nan false else .fin false 1 ((b : Int) - 127)

/-- Rebuild a table of 128 rows of 256: rows below `vc` by a function of row, column and old element, the others as they
are. -/
def mapRows {α : Type} [DecidableEq α] (d : α) (t : Tab α) (vc cols : Nat) (f : Nat → Nat → α → α) : Tab α :=
  (List.range 128).flatMap fun m =>
    let row := Tab.slice t (256 * m) 256
    if m < vc then
      (List.range cols).filterMap fun n =>
        let v := f m n (Tab.get d row n)
        if v = d then none else some (256 * m + n, v)
    else row.map (fun e => (256 * m + e.1, e.2))

/-- The weights of column `n` with the tile's scale, k ascending (R204). -/
def latchCol (t : Tile) (rows n : Nat) : List FVal :=
  (List.range rows).map (fun k => (fvMul ((fmtOf t.fmt).decode (Tab.get 0 t.el (256 * k + n))) (x8 t.xs)).1)

/-- The activations of row `m` that a part's slot holds, with their block scales (R200, R204). -/
def State.ringVals (s : State) (p : Part) (t : Tile) (off m : Nat) : List FVal :=
  let f := fmtOf t.fmt
  let bs := s.spadRead (192 + p.q) (off + m * 16 * f.bits) (16 * f.bits)
  (List.range 128).map (fun k =>
    (fvMul (f.decode (packGet f bs k)) (if t.blk then x8 (Tab.get 127 t.scales (8 * m + (128 * p.row + k) / 32)) else x8 127)).1)

/-- The interlocks of an MMUL (R198, R200): its weights have retired, its tile stands in the ring, in unit-side plots. -/
def State.mmulReady (s : State) (q : Nat) (x : QuadSt) (c : Cmd) : Bool :=
  let r := x.ring c.ring
  let n := inFlight x.compQ c.ring
  decide (c.half ≤ x.nW) && decide (n < r.count) && s.slotFree (x.parts q) c.ring (r.head + n)

/-- Perform an MMUL on a chain's accumulators (R204). The answer is the accumulators, and whether the pair is legal. -/
def State.mmulRun (s : State) (q : Nat) (x : QuadSt) (c : Cmd) : Tab Acc × Bool :=
  let ch := x.chain c.bank
  let r := x.ring c.ring
  let slot := (r.head + inFlight x.compQ c.ring) % 16
  let t : Tile := Tab.get {} r.slots slot
  let lat : Tile := Tab.get {} x.latch ((c.half + 1) % 2)
  let ps := x.parts q
  let cols := 128 * fusedCols ps
  let acc := ch.shadow.getD ch.work
  if !legalPair ch.kind lat.fmt t.fmt then (mapRows {} acc x.vc cols (fun _ _ _ => nanAcc ch.kind), false)
  else
    let ws := (List.range cols).map (latchCol lat (128 * fusedRows ps))
    let av := fun (g : Nat) => (List.range 128).map (fun m =>
      (List.range (fusedRows ps)).flatMap (fun k =>
        match ps.find? (fun p => p.row == k && p.col == g) with
        | some p => s.ringVals p t (slotOff c.ring slot) m
        | none => []))
    let as_ := (List.range (fusedCols ps)).map av
    (mapRows {} acc x.vc cols (fun m n a =>
      ((nth [] (nth [] as_ (n / 128)) m).zip (nth [] ws n)).foldl (fun b p => accumulate ch.kind ch.anchor b (fvMul p.1 p.2).1) a),
      true)

/-- The value of the engine-fault trap for an illegal pair (R196). -/
def pairFault (c : Cmd) : DWord := BitVec.ofNat 64 (2 ^ 63 + 256 + 16 * (c.ring % 16) + c.bank % 16)

/-- Open a chain (R203). -/
def State.openChain (s : State) (q : Nat) (x : QuadSt) (c : Cmd) : State :=
  let ps := x.parts q
  let kind := c.imm % 4
  let work : Tab Acc := if c.imm.testBit 2 then
      mapRows {} [] 128 (128 * fusedCols ps) (fun m n _ =>
        match ps.find? (fun p => p.row == 0 && p.col == n / 128) with
        | some p =>
          let b := (if p.q = q then x else s.quad p.q).bank c.bank
          startAcc kind c.anchor b.fp64 (Tab.get 0 b.el (256 * m + n % 128))
        | none => {})
    else []
  let s := s.putQuad q { x with chains := Tab.put x.chains c.bank { kind := kind, anchor := c.anchor, work := work } }
  if c.imm.testBit 3 then
    ps.foldl (fun t p => t.putQuad p.q ((t.quad p.q).setBank c.bank { (t.quad p.q).bank c.bank with sat := false, nv := false })) s
  else s

/-- Close a chain (R205): every part's bank takes its columns, in one step. -/
def State.closeChain (s : State) (q : Nat) (x : QuadSt) (c : Cmd) : State :=
  let ch := x.chain c.bank
  let ps := x.parts q
  let rows := (List.range 128).map (fun m => Tab.slice ch.work (256 * m) 256)
  let fin := fun (m n : Nat) => finishAcc ch.kind ch.anchor (Tab.get {} (nth [] rows m) n)
  let all := (List.range x.vc).flatMap (fun m => (List.range (128 * fusedCols ps)).map (fun n => (fin m n).2))
  let sat := all.any (fun f => f.1)
  let nv := all.any (fun f => f.2)
  let s := s.putQuad q { x with chains := Tab.erase x.chains c.bank }
  ps.foldl (fun t p =>
    let b := (t.quad p.q).bank c.bank
    let el := mapRows 0 b.el x.vc 128 (fun m n _ => (fin m (128 * p.col + n)).1)
    t.putQuad p.q ((t.quad p.q).setBank c.bank
      { fp64 := ch.kind == 2, rows := x.vc, sat := b.sat || sat, nv := b.nv || nv, el := el })) s

/-- SHDW, SCMT and SDSC at their issue (R209): the shadow's flags are the bank's, those of its parts together. -/
def State.shadowOp (s : State) (q : Nat) (x : QuadSt) (c : Cmd) : State :=
  let ch := x.chain c.bank
  let ps := x.parts q
  let put := fun (v : Chain) => s.putQuad q { x with chains := Tab.put x.chains c.bank v }
  let off : Chain := { ch with shadow := none, fsat := false, fnv := false }
  match c.fn with
  | 9 =>
    let f := s.flagsOf ps c.bank
    put { ch with shadow := some ch.work, fsat := f.1, fnv := f.2 }
  | 10 => (put { off with work := ch.shadow.getD ch.work }).putFlags ps c.bank (ch.fsat, ch.fnv)
  | _ => put off

/-- Issue a compute entry (R203 to R209): its effect is one step at its issue. -/
def State.issueCompute (s : State) (q : Nat) (x : QuadSt) (e : QEnt) (put : State → QEnt → State) : State :=
  let c := e.cmd
  let go := { e with issued := true }
  match c.fn with
  | 2 =>
    if !s.mmulReady q x c then s
    else
      let (acc, ok) := s.mmulRun q x c
      let ch := x.chain c.bank
      let ch := if ch.shadow.isSome then { ch with shadow := some acc } else { ch with work := acc }
      put (s.putQuad q { x with chains := Tab.put x.chains c.bank ch }) { go with err := if ok then none else some (pairFault c) }
  | 3 => put (s.openChain q x c) go
  | 4 => put (s.closeChain q x c) go
  | 8 => put (s.putQuad q { x with vc := c.imm }) go
  | _ => put (s.shadowOp q x c) go

/-! ### ACCST (R207) -/

/-- A bank's element as ACCST's format holds it: RNE, no flush (R89, R207). -/
def storeCode (fp64 : Bool) (ofmt : Nat) (v : DWord) : Nat :=
  (roundTo (fmtOf ofmt) 0 0 ((if fp64 then Fmt.fp64 else Fmt.fp32).decode v.toNat)).1

/-- The bytes of row `m` of a store entry with their places; row 128 is the status record. -/
def State.storeRow (s : State) (part cols : Nat) (e : QEnt) (m : Nat) : List (Place × Byte) :=
  let c := e.cmd
  let t := e.stage.getD {}
  if m = 128 then
    (leBytes 4 (e.flags % 4) ++ leBytes 4 e.rows ++ leBytes 8 0).zipIdx.map (fun b =>
      (cmdByte c (128 * c.stride.signExtend 64) b.2, b.1))
  else (List.range cols).flatMap (fun n =>
    (s.cmdElem part c m n).2.zip (leBytes (c.bits / 8) (Tab.get 0 t.el (256 * m + n))))

/-- The rows a store entry stores, its record last. -/
def QEnt.storeRows (e : QEnt) : List Nat := List.range e.rows ++ (if e.cmd.fl then [128] else [])

/-- Issue an ACCST (R195, R207): the bank is read, and its flags read and cleared, in one step. -/
def State.issueStore (s : State) (q : Nat) (ag : Agent) (x : QuadSt) (e : QEnt) (put : State → QEnt → State) : State :=
  let c := e.cmd
  let u := 192 + q
  let ps := x.parts q
  let cols := 128 * fusedCols ps
  let lead := x.bank c.bank
  let bankOf := fun (p : Part) => (if p.q = q then x else s.quad p.q).bank c.bank
  let el := (List.range lead.rows).flatMap (fun m => (List.range cols).filterMap (fun n =>
    match ps.find? (fun p => p.row == 0 && p.col == n / 128) with
    | some p =>
      let b := bankOf p
      let v := storeCode b.fp64 c.fmt (Tab.get 0 b.el (256 * m + n % 128))
      if v = 0 then none else some (256 * m + n, v)
    | none => none))
  let f := s.flagsOf ps c.bank
  let flags := (if f.1 then 1 else 0) + (if f.2 then 2 else 0)
  let go := { e with issued := true, stage := some { fmt := c.fmt, el := el }, rows := lead.rows, flags := flags }
  let places := go.storeRows.flatMap (fun m => (s.storeRow ag.part cols go m).map (fun b => b.1))
  if !s.seqPerformed q ag c.tag || places.any (s.placeBusy u) then s
  else
    let s := s.putQuad q x
    put (if c.fl then s.putFlags ps c.bank (false, false) else s) go

/-- Two places follow one another within a 64-byte line. -/
def Place.follows (a b : Place) : Bool :=
  match a, b with
  | .key k, .key k' => k' == k.plus 1 && k.line == k'.line
  | _, _ => false

/-- Bytes of a row in runs within one line. -/
def runsOf : List (Place × Byte) → List (List (Place × Byte))
  | [] => []
  | b :: t =>
    match runsOf t with
    | [] => [[b]]
    | (c :: r) :: rest => if b.1.follows c.1 then (b :: c :: r) :: rest else [b] :: (c :: r) :: rest
    | [] :: rest => [b] :: rest

/-- The number under which a quadrant's store queue waits for side-log entries (R61). -/
def rowAsker (q : Nat) : Nat := 16384 + q

/-- The side-log entries of a row's runs whose pages are not present (R61, R196). -/
def State.rowEntries (s : State) (id tag : Nat) (ag : Agent) (runs : List (VKey × DWord × List Byte)) : List SideEnt :=
  runs.foldl (fun es r => addEntry es
    { agent := id, part := ag.part, launch := ag.launch, die := ag.die.toNat, inc := (s.die ag.die.toNat).inc, key := r.1.line,
      va := r.2.1, bytes := r.2.2.zipIdx.map (fun b => (r.1.inLine + b.2, b.1, 0xFF)), size := r.2.2.length, tag := tag, row := true }) []

/-- Write a run of a row where it was reached: at a scratchpad, or as a pending write of the sequencer (R222, R231). The answer is
the first failing address. -/
def State.storeRun (s : State) (id tag : Nat) (ag : Agent) (va : DWord) (bs : List Byte) (r : Reach) : State × Option DWord :=
  let pend := fun (l : Loc) => s.updAgent id (fun a =>
    { a with pend := a.pend ++ [{ loc := l, bytes := bs, va := va, tag := tag, born := s.ntime, row := true }] })
  match r with
  | .mem pa x => (pend (.mem pa (pteUnc x.pte) (pteSlot x.pte)), none)
  | .sp u o => (s.spadStore u o bs, none)
  | .far => (pend (.remote (va.extractLsb' 46 9).toNat va), none)
  | .denied pa slot => (s.violationOf ag slot pa, some va)
  | .fail _ => (s, some va)
  | _ => (s, none)

/-- Store one row of an ACCST: none while its side-log entries find no room, where it waits in the order of asking, or a walk of
its stream runs; else the state and the first failing address (R57, R61, R196). -/
def State.storeOne (s : State) (id : Nat) (ag : Agent) (u tag : Nat) (bs : List (Place × Byte)) : State × Option (Option DWord) :=
  let x := s.quad (u - 192)
  let runs := (runsOf bs).filterMap (fun r => r.head?.map (fun b =>
    (b.1, placeVa s b.1, r.map (fun c => c.2), s.reachSeq ag.part u .write b.1)))
  let gone := runs.filterMap (fun r => match r.1, r.2.2.2 with
    | .key k, .absent _ => some (k, r.2.1, r.2.2.1)
    | _, _ => none)
  let es := s.rowEntries id tag ag gone
  let y := s.unit u
  let me := rowAsker (u - 192)
  if runs.any (fun r => r.2.2.2 == .walking) then (s, none)
  else if !es.isEmpty && !y.slogFree u me es.length then
    (s.putUnit u { y with slogQ := if y.slogQ.contains me then y.slogQ else y.slogQ ++ [me] }, none)
  else
    let s := s.noteReaches x.storeS (runs.map (fun r => r.2.2.2))
    let s := if es.isEmpty then s.leaveSlog u me else s.putUnit u { y with slog := y.slog ++ es, slogQ := y.slogQ.filter (fun a => a != me) }
    let s := gone.foldl (fun t k => if t.replaying ag.part k.1 then t else t.raiseFault ag.part k.1 .write none none) s
    let s := s.putQuad (u - 192) { x with storeS := entered (npDistance ag.npdist) x.storeS (runs.map (fun r => (r.1, r.2.2.2))) }
    let (s, err) := runs.foldl (fun (acc : State × Option DWord) r =>
      let (t, err) := acc.1.storeRun id tag ag r.2.1 r.2.2.1 r.2.2.2
      (t, acc.2.orElse (fun _ => err))) (s, none)
    (s, some err)

/-- Store the rows of an ACCST that are left, as far as the side log has room. -/
def State.storeRowsFrom (s : State) (id u cols : Nat) : List Nat → QEnt → State × QEnt
  | [], e => (s, e)
  | m :: t, e =>
    match s.agent? id with
    | none => (s, e)
    | some ag =>
      match s.storeOne id ag u e.cmd.tag (s.storeRow ag.part cols e m) with
      | (s, none) => (s, e)
      | (s, some err) => State.storeRowsFrom s id u cols t { e with done := e.done + 1, err := e.err.orElse (fun _ => err) }

/-! ### Issue and retirement (R195, R196) -/

/-- The first entry of a queue that has not issued, with its place. -/
def firstWaiting (es : List QEnt) : Option (Nat × QEnt) :=
  (es.zipIdx.find? (fun e => !e.1.issued)).map (fun e => (e.2, e.1))

/-- ENGINE_ENTRY_ISSUE (R75, R195, R196): the next entry of a queue, once its pops and its interlocks allow. -/
def execEngineEntryIssue (q : Nat) (which : Queue) (ecc : Ecc) (s : State) : Out :=
  let x := s.quad q
  let id := seqBase + q
  .next (match firstWaiting (x.queue which), s.agent? id with
    | some (i, e), some ag =>
      if !s.quadRuns q then s
      else
        match x.pops (popsOf which e.cmd.tok) with
        | none => s
        | some y =>
          let put := fun (t : State) (e : QEnt) =>
            let z := t.quad q
            t.putQuad q ({ z with tok := y.tok }.setQueue which (setNth (z.queue which) i e))
          match which with
          | .load => s.issueLoad q id ag x e ecc put
          | .compute => s.issueCompute q x e put
          | .store => s.issueStore q ag x e put
    | _, _ => s)

/-- What an entry does at retirement (R198, R200): the latch half, the ring's tail, the pop. -/
def State.retireEntry (s : State) (q : Nat) (e : QEnt) : State :=
  let x := s.quad q
  match e.cmd.fn with
  | 0 => s.putQuad q { x with latch := Tab.put x.latch ((e.cmd.half + 1) % 2) (e.stage.getD {}), nW := e.cmd.half }
  | 1 => s.retireRload q e.cmd (e.stage.getD {})
  | 2 =>
    if e.cmd.imm = 0 then
      let r := x.ring e.cmd.ring
      s.putQuad q (x.setRing e.cmd.ring { r with head := (r.head + 1) % 16, count := r.count - 1, slots := Tab.erase r.slots r.head })
    else s
  | _ => s

/-- ENGINE_ENTRY_RETIRE (R75, R195, R196): the head of a queue, once its pushes allow; an ACCST first stores its rows. -/
def execEngineEntryRetire (q : Nat) (which : Queue) (s : State) : Out :=
  let id := seqBase + q
  .next (match (s.quad q).queue which with
    | [] => s
    | e :: rest =>
      if !e.issued then s
      else
        let cols := 128 * fusedCols ((s.quad q).parts q)
        let (s, e) := if e.cmd.fn = 5 then s.storeRowsFrom id (192 + q) cols (e.storeRows.drop e.done) e else (s, e)
        let keep := s.putQuad q ((s.quad q).setQueue which (e :: rest))
        if e.cmd.fn = 5 ∧ e.done < e.storeRows.length then keep
        else
          match (s.quad q).pushes (pushesOf which e.cmd.tok) with
          | none => keep
          | some y =>
            let s := (s.putQuad q (y.setQueue which rest)).retireEntry q e
            s.updAgent id (fun ag => ag.engineFault e.err))

/-! ### Command blocks (R326) -/

/-- The operand registers of an engine command, operand a's first: how many values an entry of a block holds. -/
def blockOperands (fn : Nat) : Nat := nth 0 [4, 5, 0, 1, 0, 4, 0, 0, 1, 0, 0, 0] fn

/-- The function and the fields of an engine command that a block may hold. -/
def blockFields (w : Word) : Option (Nat × Nat × Nat × Nat × BitVec 4) :=
  match dec32 w 0 0 with
  | .ok (.wload a b t) => some (0, a.toNat, b.toNat, 0, t)
  | .ok (.rload a b c t) => some (1, a.toNat, b.toNat, c.toNat, t)
  | .ok (.mmul a b c t) => some (2, a.toNat, b.toNat, c.toNat, t)
  | .ok (.chb a b c t) => some (3, a.toNat, b.toNat, c.toNat, t)
  | .ok (.che c t) => some (4, 0, 0, c.toNat, t)
  | .ok (.accst a b c t) => some (5, a.toNat, b.toNat, c.toNat, t)
  | .ok (.vcset a t) => some (8, a.toNat, 0, 0, t)
  | .ok (.shdw c t) => some (9, 0, 0, c.toNat, t)
  | .ok (.scmt c t) => some (10, 0, 0, c.toNat, t)
  | .ok (.sdsc c t) => some (11, 0, 0, c.toNat, t)
  | _ => none

/-- A block's commands: none where it is malformed. -/
def parseBlock (head : List Byte) (body : List Byte) : Option (List (Word × List Word)) :=
  let n := leVal (head.take 4)
  if n = 0 ∨ 16 < n ∨ leVal (head.drop 4) ≠ 0 then none
  else
    let es := (List.range n).map (fun i =>
      let bs := (body.drop (32 * i)).take 32
      let w := fun (k : Nat) => BitVec.ofNat 32 (leVal ((bs.drop (4 * k)).take 4))
      (w 0, (List.range 7).map (fun k => w (k + 1))))
    if es.all (fun e => match blockFields e.1 with
      | some f => (e.2.drop (blockOperands f.1)).all (fun v => v == 0)
      | none => false) then some es else none

/-- REMQ cannot resolve its target (R326). -/
def State.remqRefused (s : State) (ag : Agent) (q : Nat) : Bool :=
  let u := s.unit (192 + q)
  decide (31 < q) || !s.unitUp (192 + q) || u.holder != some ag.part || (s.quad q).member.isSome || u.ustate != .running ||
    u.launch != ag.launch

/-- REMQ (R326). -/
def execRemq (g : BitVec 2) (d : BitVec 6) (a b : Src) (s : State) : Out :=
  issue seqOnly g s fun id ag =>
    let u := ag.unit
    let p := (ag.src a).toNat
    let q := (ag.src b).toNat
    let done := fun (s : State) (st : Nat) => retire s id (ag.sSet d.toNat (BitVec.ofNat 32 st))
    match ag.wait with
    | .remq none => waitFor s id ag (.remq none)
    | .remq (some st) => retire s id (ag.sSet d.toNat st)
    | _ =>
      if p % 64 ≠ 0 ∨ spadSize u < p + 32 then addrTrap s id ag (BitVec.ofNat 64 p)
      else
        match s.enginePlot u p 32 with
        | some k => trapHere s id ag 0x06 (BitVec.ofNat 64 k)
        | none =>
          let head := s.spadRead u p 32
          let len := 32 * min 16 (leVal (head.take 4))
          if spadSize u < p + 32 + len then addrTrap s id ag (BitVec.ofNat 64 p)
          else
            match s.enginePlot u (p + 32) len with
            | some k => trapHere s id ag 0x06 (BitVec.ofNat 64 k)
            | none =>
              if s.remqRefused ag q then done s 2
              else if decide (4 ≤ (s.quad q).inq.length) || !s.releaseNow id ag 3 then waitFor s id ag .again
              else
                match parseBlock head (s.spadRead u (p + 32) len) with
                | none => done s 3
                | some cs =>
                  let x := s.quad q
                  waitFor (s.putQuad q { x with inq := x.inq ++ [{ agent := id, cmds := cs }] }) id ag (.remq none)

/-- Dispatch a block's commands at a quadrant in order, as far as its queues have room (R193, R326): what is left of them, how many
are dispatched, and the status once none is left or one is refused. -/
def State.blockRun (s : State) (ag : Agent) (x : QuadSt) :
    List (Word × List Word) → Nat → QuadSt × List (Word × List Word) × Nat × Option Nat
  | [], j => (x, [], j, some 0)
  | (w, ws) :: t, j =>
    match blockFields w with
    | none => (x, [], j, some 3)
    | some (fn, a, b, c, tok) =>
      let k := mkCmd fn a b c tok ws ag.dGet ag.nextTag
      if s.lacks k || (s.cmdCond ag.part x.model k).isSome then (x, [], j, some (4 + 256 * j))
      else
        match x.enqueue k with
        | none => (x, (w, ws) :: t, j, none)
        | some y => State.blockRun s ag y t (j + 1)

/-- REMQ_BLOCK_DISPATCH (R326): commands of the oldest block of a quadrant at its sequencer's instruction boundary, outside a nest's
body and emission, as far as they go. A command that needs an absent unit is refused like one that would trap. -/
def execRemqBlockDispatch (q : Nat) (s : State) : Out :=
  let x := s.quad q
  .next (match x.inq, s.agent? (seqBase + q) with
    | b :: rest, some ag =>
      if x.capture ≠ 0 || x.gen.isSome || !s.quadRuns q || !(ag.wait == .none || ag.wait == .again) then s
      else
        match s.blockRun ag x b.cmds b.done with
        | (y, cs, j, none) => s.putQuad q { y with inq := { b with cmds := cs, done := j } :: rest }
        | (y, _, _, some st) =>
          (s.putQuad q { y with inq := rest }).updAny b.agent (fun a => match a.wait with
            | .remq none => { a with wait := .remq (some (BitVec.ofNat 32 st)) }
            | _ => a)
    | _, _ => s)

/-- A sequencer dispatches a block that has come to its quadrant ahead of its own next instruction (R326). -/
def State.blockFirst (s : State) (ag : Agent) : Bool :=
  ag.profile == .sequencer && (ag.wait == .none || ag.wait == .again) &&
    (let x := s.quad (ag.unit - 192); !x.inq.isEmpty && x.capture == 0)

end Sys2Proof.Machine
end

