-- ==== Sys2Proof/Machine/Atomics.lean ====
section
/-! DEFINITION. The atomics (R127, R129, R140 to R143). -/
namespace Sys2Proof.Machine

/-- The lanes of an atomic: each active lane of a wave, one access of a core (R140). A literal operand of an FP64 addition
is bits 63:32 (R108). -/
def atomLanes (ag : Agent) (op : AtomOp) (dbl : Bool) (g : BitVec 2) (d : Nat) (a b : Src) (cmp : Option Nat) : List Lane :=
  let n := if dbl then 8 else 4
  let sz := if dbl then 5 else 4
  match ag.profile with
  | .wave =>
    (lanesOf (ag.active g)).map fun l =>
      let ea := ag.vsrcP a l
      let data := match cmp with
        | some r => if dbl then ag.vpGet (r + 2) l else (ag.vGet (r + 1) l).zeroExtend 64
        | none => if dbl then (if op = .fadd then ag.vsrcD b l else ag.vsrcP b l) else (ag.vsrc b l).zeroExtend 64
      let c := match cmp with
        | some r => if dbl then ag.vpGet r l else (ag.vGet r l).zeroExtend 64
        | none => 0
      { l := l, va := ea, key := .flat ea, n := n, dst := vDest sz d l, sx := sz, data := data, cmp := c }
  | _ =>
    let ea := ag.srcP a
    let data := match cmp with
      | some r => if dbl then ag.pGet (r + 2) else (ag.sGet (r + 1)).zeroExtend 64
      | none => if dbl then (if op = .fadd then ag.srcD b else ag.srcP b) else (ag.src b).zeroExtend 64
    let c := match cmp with
      | some r => if dbl then ag.pGet r else (ag.sGet r).zeroExtend 64
      | none => 0
    [{ l := 0, va := ea, key := .flat ea, n := n, dst := sDest sz d, sx := sz,
       data := data, cmp := c }]

/-- The own-scratchpad access of a lane of an atomic. -/
def Lane.sp (x : Lane) : SpLane :=
  { l := x.l, a := spPart x.va, n := x.n, dst := x.dst, sx := x.sx, data := x.data, cmp := x.cmp }

/-- Perform an atomic's own-scratchpad lanes one after another, ascending (R129, R141, R142). -/
def ownAtomics (op : AtomOp) (dbl : Bool) : List SpLane → State → Agent → State × Agent
  | [], s, ag => (s, ag)
  | x :: t, s, ag =>
    match x.own? ag.unit with
    | some o =>
      let old := s.spWord ag.unit o x.n
      let new := atomNew op dbl old x.data x.cmp
      let s := if atomWrites op dbl old x.cmp then s.spadStore ag.unit o (leBytes x.n new.toNat) else s
      ownAtomics op dbl t s (ag.deliver x.dst x.sx old)
    | none => ownAtomics op dbl t s ag

/-- An atomic (R140 to R142): its lanes in the own scratchpad at issue, its flat lanes as open accesses; a reduction
may enter the side log. -/
def atomic (op : AtomOp) (scope : BitVec 3) (dbl : Bool) (g : BitVec 2) (d : BitVec 6) (a b : Src) (cmp : Option Nat)
    (s : State) : Out :=
  issue notSeq g s fun id ag =>
    if ag.profile = .wave ∧ !ag.fires g then retire s id ag
    else
      let ls := atomLanes ag op dbl g d.toNat a b cmp
      let own := (ls.filter (fun x => x.va.getLsbD 63)).map Lane.sp
      let flat := ls.filter (fun x => !x.va.getLsbD 63)
      let sc := if ag.profile = .host ∧ scope.toNat < 3 then 3 else scope.toNat
      match ls.find? (fun x => if x.va.getLsbD 63 then s.tagBad ag x.va x.n else x.bad) with
      | some x => addrTrap s id ag x.va
      | none =>
        match s.spTrap ag true own with
        | some (c, v) => trapHere s id ag c v
        | none =>
          if ag.barred && !own.isEmpty then waitFor s id ag .again
          else
            let fin := fun (s : State) (ag : Agent) =>
              let (s, ag) := ownAtomics op dbl own s ag
              retire s id ag
            let mk := fun (x : Lane) (t : Target) (tag : Nat) => x.access t (.atomic op) sc tag
            if d = 63 then issuePosted s id ag .readWrite (some op) sc none flat mk fin
            else issueReturning s id ag .readWrite flat mk fin

/-- AADD (R141). -/
def execAadd (scope : BitVec 3) (dbl : Bool) (g : BitVec 2) (d : BitVec 6) (a b : Src) (s : State) : Out :=
  atomic .add scope dbl g d a b none s
/-- ASUB (R141). -/
def execAsub (scope : BitVec 3) (dbl : Bool) (g : BitVec 2) (d : BitVec 6) (a b : Src) (s : State) : Out :=
  atomic .sub scope dbl g d a b none s
/-- AMIN (R141). -/
def execAmin (scope : BitVec 3) (dbl : Bool) (g : BitVec 2) (d : BitVec 6) (a b : Src) (s : State) : Out :=
  atomic .min scope dbl g d a b none s
/-- AMAX (R141). -/
def execAmax (scope : BitVec 3) (dbl : Bool) (g : BitVec 2) (d : BitVec 6) (a b : Src) (s : State) : Out :=
  atomic .max scope dbl g d a b none s
/-- AMINU (R141). -/
def execAminu (scope : BitVec 3) (dbl : Bool) (g : BitVec 2) (d : BitVec 6) (a b : Src) (s : State) : Out :=
  atomic .minu scope dbl g d a b none s
/-- AMAXU (R141). -/
def execAmaxu (scope : BitVec 3) (dbl : Bool) (g : BitVec 2) (d : BitVec 6) (a b : Src) (s : State) : Out :=
  atomic .maxu scope dbl g d a b none s
/-- AAND (R141). -/
def execAand (scope : BitVec 3) (dbl : Bool) (g : BitVec 2) (d : BitVec 6) (a b : Src) (s : State) : Out :=
  atomic .and scope dbl g d a b none s
/-- AOR (R141). -/
def execAor (scope : BitVec 3) (dbl : Bool) (g : BitVec 2) (d : BitVec 6) (a b : Src) (s : State) : Out :=
  atomic .or scope dbl g d a b none s
/-- AXOR (R141). -/
def execAxor (scope : BitVec 3) (dbl : Bool) (g : BitVec 2) (d : BitVec 6) (a b : Src) (s : State) : Out :=
  atomic .xor scope dbl g d a b none s
/-- AXCHG (R141). -/
def execAxchg (scope : BitVec 3) (dbl : Bool) (g : BitVec 2) (d : BitVec 6) (a b : Src) (s : State) : Out :=
  atomic .xchg scope dbl g d a b none s
/-- ACAS (R140, R141): the compare value in B, the new value in the register or pair after it. -/
def execAcas (scope : BitVec 3) (dbl : Bool) (g : BitVec 2) (d : BitVec 6) (a : Src) (b : BitVec 6) (s : State) : Out :=
  atomic .cas scope dbl g d a (.reg b) (some b.toNat) s
/-- AFADD (R141). -/
def execAfadd (scope : BitVec 3) (dbl : Bool) (g : BitVec 2) (d : BitVec 6) (a b : Src) (s : State) : Out :=
  atomic .fadd scope dbl g d a b none s

end Sys2Proof.Machine
end

