-- ==== Sys2Proof/Machine/Launching.lean ====
section
/-! DEFINITION. The hub scheduler's steps: launches (R304, R305), groups and tasks that start (R307, R308, R311), held
fires (R315), the save and the restore of contexts (R216, R233, R303, R355), migration (R321). -/
namespace Sys2Proof.Machine

/-! ### Launch headers (R304, R305) -/

/-- The hub's reads of bytes of a partition's memory at package scope, a piece within a line at a time (R33, R41, R42, R48, R63,
R271): each is a read that arrives at the home, or is refused there with its record, which names no job (R378). None where they
cannot be read. -/
def State.hubRead (s : State) (part : Nat) : Nat → Nat → Nat → State × Option (List Byte)
  | 0, _, _ => (s, some [])
  | f + 1, va, n =>
    if n = 0 then (s, some [])
    else
      let k := min n (64 - va % 64)
      let t := s.noteWalk part (.flat (BitVec.ofNat 64 va))
      match s.walkFlat part va .read with
      | .ok x =>
        let pa := x.flatPa (BitVec.ofNat 64 va)
        let slot := pteSlot x.pte
        if s.reachable part slot pa then
          let (t, gone) := (t.noteUse part pa (pteUnc x.pte)).inboundRead part slot pa k .clean
          let (t, rest) := State.hubRead t part f (va + k) (n - k)
          (t, rest.map (fun bs => (if gone then List.replicate k 0 else s.pkReadN slot pa k) ++ bs))
        else (t.violation part slot pa .everyJob 0xFFFFFFFF 0, none)
      | _ => (t, none)

/-- The hub's read of bytes at a flat address of a partition. -/
def State.readFlat (s : State) (part : Nat) (va : DWord) (n : Nat) : State × Option (List Byte) :=
  if !flatOk va || decide (2 ^ 56 < va.toNat + n) then (s, none) else s.hubRead part (n / 64 + 2) va.toNat n

/-- The bytes of a header are well formed, but for what its order and its descriptors name (R304). -/
def headerOk (bs : List Byte) : Bool :=
  let f := fun o n => leVal ((bs.drop o).take n)
  let kind := f 8 1
  let waves := f 9 1
  let e := [f 16 4, f 20 4, f 24 4]
  decide (kind ≤ 2) && (if kind = 1 then decide (waves ≤ 3) else decide (1 ≤ waves) && decide (waves ≤ 16)) &&
  decide (f 10 1 < 8) && decide (f 11 1 / 32 ≤ 5) && decide (f 12 2 < 4096) && decide (f 14 1 ≤ 3) && f 15 1 == 0 &&
  (if kind = 2 then decide (1 ≤ nth 0 e 0) && nth 0 e 1 == 1 && nth 0 e 2 == 1
   else e.all (fun x => decide (1 ≤ x) && decide (x ≤ 2 ^ 24)) && decide (e.foldl (· * ·) 1 ≤ 2 ^ 32)) &&
  decide (f 28 4 < 32) && decide (f 28 4 % 8 ≤ 4) && (decide (f 36 2 < 64) || f 36 2 == 0xFFFF) && f 48 16 == 0

/-- The launch of a header (R304). -/
def headerLaunch (id p q : Nat) (hdr : DWord) (bs order : List Byte) (now : DWord) : Launch :=
  let f := fun o n => leVal ((bs.drop o).take n)
  { id := id, part := p, queue := q, hdr := hdr, entry := BitVec.ofNat 64 (f 0 8), kind := f 8 1, waves := f 9 1,
    prio := f 10 1, opc := f 11 1 % 8, ordered := (f 11 1).testBit 3, migr := (f 11 1).testBit 4, sync := f 11 1 / 32,
    ptok := f 12 2, curve := f 14 1, ext := [f 16 4, f 20 4, f 24 4], rmode := BitVec.ofNat 32 (f 28 4),
    seed := BitVec.ofNat 32 (f 32 4), spillq := f 36 2, order := order.map (fun b => b.toNat),
    desc := (List.range 16).map (fun i => BitVec.ofNat 32 (f (64 + 4 * i) 4)), code := f 38 2, since := now }

/-- The descriptors of a header name tensors of the partition's table (R305). -/
def State.descsOk (s : State) (x : Launch) : Bool :=
  let ctl := Tab.get 0 s.rot.ttCtl x.part
  x.desc.all fun d =>
    match descTid d with
    | none => true
    | some t => ctl.getLsbD 5 && decide (t < 2 ^ (min 20 (ctl.extractLsb' 0 5).toNat))

/-- A partition holds a quadrant set of the shape that a launch asks for on some array die (R305). -/
def State.holdsSet (s : State) (x : Launch) : Bool :=
  x.kind != 1 || (List.range' 192 32).any (fun u =>
    let us := unitSet 1 x.waves u
    !us.isEmpty && us.all (fun v => (s.unit v).holder == some x.part))

/-- A gang's groups fit the partition's free units (R317). -/
def State.gangFits (s : State) (x : Launch) : Bool :=
  !x.gang || match s.places x with
    | [] => false
    | u :: _ => decide (x.total ≤ (s.gangPlaces x x.total u).length)

/-- The entry that a header's `code` names in its fat object's code table, each a profile (0 wave, 1 sequencer) and part
codes, is one of the launch's profile and of the executing part (R19, R307, log 118). -/
def State.codeOk (s : State) (x : Launch) (codes : List (Nat × List Nat)) : Bool :=
  match codes[x.code]? with
  | some (p, parts) => p == (if x.kind = 1 then 1 else 0) && parts.contains s.partCode
  | none => false

/-- The hub's read of a header and of its programmed order, which may be none (R304, R305). -/
def State.readHeader (s : State) (p : Nat) (hdr : DWord) : State × Option (List Byte × List Byte) :=
  if hdr.toNat % 64 ≠ 0 then (s, none)
  else
    match s.readFlat p hdr 128 with
    | (s, none) => (s, none)
    | (s, some bs) =>
      if leVal ((bs.drop 14).take 1) = 3 then
        let (s, os) := s.readFlat p (BitVec.ofNat 64 (leVal ((bs.drop 40).take 8))) 256
        (s, os.map (fun os => (bs, os)))
      else (s, some (bs, []))

/-- The launch that a header gives, unless it is refused (R305, R307). -/
def State.headerCheck (s : State) (p q : Nat) (hdr : DWord) (bs os : List Byte) (codes : List (Nat × List Nat)) : Option Launch :=
  let x := headerLaunch s.hub.nextId p q hdr bs os s.ntime
  if headerOk bs && (x.curve != 3 || (List.range 256).all (fun k => x.order.contains k)) && s.descsOk x && s.holdsSet x &&
      s.gangFits x && s.codeOk x codes then some x
  else none

/-- A launch is refused: an error record to the resident service, whose kind the spec does not name (R305, log 55). -/
def State.refuseLaunch (s : State) (p : Nat) (hdr : DWord) : State :=
  let (n, s) := s.draw
  s.recordRs p { kind := (Config.refuseKind n).toNat, pa := hdr }

/-- LAUNCH_APPEND (R305, R366): the resident service loads the launch's code objects into a partition and appends its header to a
launch queue; the hub checks it, its `code` against the code table of the fat object that the loader read. Each object loaded
extends the partition's measurement, then the header does. -/
def execLaunchAppend (p q : Nat) (hdr : BitVec 64) (codes : List (Nat × List Nat)) (objs : List (List (BitVec 8))) (s : State) : Out :=
  .next (if (s.rot.bootSt.extractLsb' 24 8).toNat < 7 ∨ (Tab.find? s.hub.parts p).isNone ∨ s.hub.ending.contains p ∨ 15 < q then s
    else
      let s := objs.foldl (fun t o => t.measure p o) s
      match s.readHeader p hdr with
      | (s, none) => s.refuseLaunch p hdr
      | (s, some (bs, os)) =>
        match s.headerCheck p q hdr bs os codes with
        | none => s.refuseLaunch p hdr
        | some x => (({ s with hub := { s.hub with nextId := s.hub.nextId + 1 } }).putLaunch x).measure p bs)

/-! ### Groups and tasks that start -/

/-- The die of a unit runs at the class that a group needs (R319). -/
def State.opReady (s : State) (x : Launch) (u : Nat) : Bool := decide (s.opWant x (unitDie u) ≤ (s.die (unitDie u)).opc)

/-- A packet that waits for a unit is sent to the lowest free one, once no other of its launch that waits goes before it (R310,
R358). -/
def State.aim (s : State) (k : Packet) : Packet :=
  if k.dest = noDest ∧ s.hub.packets.all (fun p => p.launch != k.launch || p.dest != noDest || decide (s.packetRank k ≤ s.packetRank p))
  then s.redirect k else k

/-- The group of a packet can start on the unit now (R319): no operation of a group that has left it holds a plot any more, since a
group starts with every plot unbound (R64). -/
def State.canStart (s : State) (x : Launch) (u : Nat) : Bool :=
  decide (u ≠ noDest) && s.opReady x u &&
  (unitSet x.kind x.waves u).all (fun v => s.unitUp v && (s.unit v).ustate == .free && (s.unit v).boundPlots.isEmpty)

/-- Run an event on the n-th packet in flight, which it takes; one that waits for a unit is first sent to one, whose die the
hub raises to the class it needs (R319, R358). -/
def onPacket (s : State) (n : Nat) (resume : Bool) (k : State → Launch → Packet → State) : Out :=
  .next (match s.hub.packets[n]? with
    | none => s
    | some p =>
      match s.launch? p.launch with
      | none => s
      | some x =>
        if p.dest = noDest then
          let p' := s.aim p
          if p'.dest = noDest then s
          else { s with hub := { s.hub with packets := setNth s.hub.packets n p' } }.raiseOp x (unitDie p'.dest)
        else if (p.pkind == 2) != resume || !s.canStart x p.dest then s
        else k { s with hub := { s.hub with packets := dropNth s.hub.packets n } } x p)

/-- A group has come to its unit: one of a suspended launch, or of a gang that is being pre-empted, is pre-empted at once (R317,
R338). -/
def State.settleIn (t : State) (x : Launch) (u : Nat) : State :=
  if x.susp || t.gangLeaves x.id u then t.preempt u else t

/-- GROUP_START (R303, R307, R308, R311, R319). -/
def execGroupStart (n : Nat) (s : State) : Out := onPacket s n false (fun s x k => (s.startGroup x k).settleIn x k.dest)

/-- TASK_START (R308, R311, R312): a free slot of a task group takes the tail record of its CU's deque. -/
def execTaskStart (cu slot : Nat) (s : State) : Out :=
  let u := s.unit cu
  .next (if 191 < cu ∨ u.waves ≤ slot ∨ !s.taskGroup cu u.launch ∨ (s.agent? (agentOf cu slot)).isSome then s
    else
      match u.deque.getLast?, s.launch? u.launch with
      | some r, some x => (s.putUnit cu { u with deque := u.deque.dropLast }).startTask x cu slot r
      | _, _ => s)

/-- HELD_FIRE_PLACE (R315): a held task that waits for no pick is placed once a record frees; where its die holds no task
group any more, the die is chosen anew. -/
def execHeldFirePlace (n : Nat) (s : State) : Out :=
  .next (match s.hub.fires[n]? with
    | none => s
    | some f =>
      if 1 < f.dies.length then s
      else
        let die := match f.dies.find? (s.dieHasGroup f.launch) with
          | some d => some d
          | none => (s.tiedDies f.launch f.part f.inputs).head?
        let t := { s with hub := { s.hub with fires := dropNth s.hub.fires n } }.placeFire f.launch f.part f.task f.inputs die
        if t.hub.fires.length < s.hub.fires.length then t else s)

/-! ### Saving a context (R355) -/

/-- What an agent's wait becomes in its saved context: none where the wait keeps the agent from its boundary. An access
that is held, WAITW, NTIME, FENCE, REGROUP, TAKE and what waits without effect are issued again at restore (R60, R145, R216, R239,
R261, R300); an arrival at a barrier, a DBAR or an ALLRED stands, and so does the end of an agent (R216, R237, R238, R260). DESIGN CHOICE
(log 128): so does a block that REMQ has sent, whose answer comes to the saved agent. -/
def Wait.kept : Wait → Option Wait
  | .none => some .none
  | .again => some .none
  | .held _ => some .none
  | .waitw _ => some .none
  | .waitwOut _ => some .none
  | .waitwReady _ => some .none
  | .ntime _ => some .none
  | .regroup _ _ _ => some .none
  | .fence => some .none
  | .far _ => some .none
  | .ending => some .ending
  | .take _ => some .none
  | .barrier a t => some (.barrier a t)
  | .dbar n => some (.dbar n)
  | .allred n => some (.allred n)
  | .contrib c => some (.contrib c)
  | .remq Option.none => some (.remq Option.none)
  | _ => Option.none

/-- The agent without the entries of an instruction that is issued again at restore: WAITW's read and a read of code or of
an image homed on another package, a FENCE's release and acquire. -/
def Agent.dropWaitw (ag : Agent) : Agent :=
  { ag with opens := ag.opens.filter (fun o => !(o.dst == .waitw || o.dst == .line || match o.kind with
    | .fenceRel _ _ => true
    | .fenceAcq => true
    | _ => false)) }

/-- An agent can be saved: it stands at a boundary, and its release at `pk` is met (R233, R355). -/
def Agent.savable (ag : Agent) : Bool :=
  ag.wait.kept.isSome && ag.dropWaitw.opens.all (fun o => o.kind == .order) && ag.pend.all (fun w => w.reached 3)

/-- The units of the group that a unit leads. -/
def State.groupUnits (s : State) (u : Nat) : List Nat :=
  if u < 192 then [u] else (List.range' 192 32).filter (fun v => v = u ∨ ((s.unit v).ustate = .reserved ∧ (s.unit v).leader = u))

/-- The head of a queue has done all its work but for a push that finds a token FIFO full (R75): it is saved so, and its push
waits for the restore, since the queue that would pop issues no more (R216). -/
def QuadSt.pushHeld (q : QuadSt) (w : Queue) : Bool :=
  match q.queue w with
  | e :: _ => e.issued && (q.pushes (pushesOf w e.cmd.tok)).isNone && (e.cmd.fn != 5 || decide (e.storeRows.length ≤ e.done))
  | [] => false
/-- The command blocks of which a quadrant has dispatched commands: they are saved with it, and go on at its restore, since the
status of a refused block says that none was dispatched (R216, R326, log 128). -/
def QuadSt.begunBlocks (q : QuadSt) : List RemBlock := q.inq.filter (fun b => b.done != 0)
/-- The quadrant without them. -/
def QuadSt.dropBegun (q : QuadSt) : QuadSt := { q with inq := q.inq.filter (fun b => b.done == 0) }

/-- The quadrant's queues have finished what they had issued (R216). -/
def QuadSt.settled (q : QuadSt) : Bool :=
  [Queue.load, .compute, .store].all (fun w => (q.queue w).all (fun e => !e.issued) || q.pushHeld w)

/-- The group of a unit can be saved now (R68, R216, R355). -/
def State.savable (s : State) (u : Nat) : Bool :=
  (s.agentsOn u).all (fun e => e.2.savable) && (s.unit u).plots.all (fun p => p.2.bound.isNone) &&
  (s.groupUnits u).all (fun v => decide (v < 192) || (s.quad (v - 192)).settled)

/-- An agent as its saved context holds it. -/
def Agent.toSaved (ag : Agent) : Agent :=
  let ag := ag.dropWaitw.atRep
  { ag with wait := (ag.wait.kept).getD .none, yielded := false, strm := {}, pend := [] }

/-- The bytes of a unit's scratchpad. -/
def State.spadOf (s : State) (v : Nat) : Tab Byte := Tab.slice s.mem (spadBase v) (spadSize v)

/-- Write bytes back into a unit's scratchpad, all of it. -/
def State.putSpad (s : State) (v : Nat) (bs : Tab Byte) : State :=
  let m := Tab.dropRange s.mem (spadBase v) (spadSize v)
  { s with mem := bs.foldl (fun (t : List Host.Cell) b => Tab.set 0 t (spadBase v + b.1) b.2) m }

/-- Forget faults held for agents and queues that are saved (R60). -/
def State.unhold (s : State) (ids qs : List Nat) : State :=
  { s with ms := { s.ms with faults := s.ms.faults.map (fun (f : FaultRec) =>
      { f with waiters := f.waiters.filter (fun a => !ids.contains a), queues := f.queues.filter (fun q => !qs.contains q) }) } }

/-- Save the group of a unit under the next context number (R68, R216, R233, R303, R320, R355): its agents, its quadrants,
its scratchpads, windows, deque and banks; its tokens return, and bindings to it wait with it (R249). -/
def State.saveGroup (s : State) (u : Nat) : State :=
  let c := s.hub.nextCtx
  let s := (s.agentsOn u).foldl (fun t e => (t.leaveQueues e.1 u).drainSfu e.1 e.2) s
  let x := s.unit u
  let us := s.groupUnits u
  let ags := s.agentsOn u
  let sv : Saved :=
    { from_ := u, launch := x.launch, ord := x.ord, grp := { x with tokens := 0, slog := [], slogQ := [], sfu := [] },
      agents := ags.map (fun e => (savedAgent c e.2.gw.toNat, e.2.toSaved)),
      quads := us.zipIdx.filterMap (fun v => if 192 ≤ v.1 then some (v.2, { s.quad (v.1 - 192) with inq := (s.quad (v.1 - 192)).begunBlocks, loadS := {}, storeS := {} }) else none),
      spads := us.zipIdx.map (fun v => (v.2, s.spadOf v.1)) }
  let name := fun (a : Nat) => match List.find? (fun (e : Nat × Agent) => e.1 == a) ags with
    | some e => savedAgent c e.2.gw.toNat
    | none => a
  let s := s.unhold (ags.map (fun e => e.1)) ((us.filter (fun v => decide (192 ≤ v))).map (fun v => v - 192))
  let s := (s.renameAgent name).renameGroup (fun g => if g = u then savedGroup c else g)
  let binds := s.fab.binds.map (fun (e : Nat × Binding) =>
    if e.2.dstPkg = s.plat.pkg.toNat ∧ e.2.dstUnit = u ∧ !e.2.saved ∧ !e.2.ended then (e.1, { e.2 with saved := true, dstUnit := c }) else e)
  let s := { s with
    agents := s.agents.filter (fun (e : Nat × Agent) => !(ags.any (fun a => a.1 == e.1))),
    fab := { s.fab with binds := binds },
    hub := { s.hub with saves := Tab.put s.hub.saves c sv, nextCtx := c + 1 } }
  let s := us.foldl (fun t v => if 192 ≤ v then t.putQuad (v - 192) (t.quad (v - 192)).dropBegun else t) s
  let s := s.freeUnit u
  match s.launch? x.launch with
  | some l => s.putLaunch { l with live := l.live.filter (fun v => v != u), saved := l.saved ++ [c] }
  | none => s

/-- CONTEXT_SAVE (R355). -/
def execContextSave (u : Nat) (s : State) : Out :=
  .next (if (s.unit u).ustate = .saving ∧ s.savable u then s.saveGroup u else s)

/-! ### Restoring a context (R355) -/

/-- An agent as it resumes on a unit: `wid` takes the new place, `gw` stays (R303). -/
def Agent.placed (ag : Agent) (u : Nat) : Agent :=
  { ag with die := BitVec.ofNat 8 (unitDie u), cu := BitVec.ofNat 8 (unitIdx u), slot := ag.gw }

/-- Restore a saved context on the unit of its packet (R233, R249, R303, R320, R355): an acquire at `pk` for each agent. -/
def State.restoreGroup (s : State) (x : Launch) (k : Packet) : State :=
  let u := k.dest
  match Tab.find? s.hub.saves k.ctx with
  | none => s
  | some sv =>
    let us := unitSet x.kind x.waves u
    let s := us.zipIdx.foldl (fun t v =>
      let y := t.unit v.1
      let z : UnitSt := if v.1 = u then
          { sv.grp with holder := y.holder, slog := y.slog, slogQ := [], temp := y.temp, sfu := y.sfu, ustate := .running,
                        start := t.ntime, sliceAt := t.ntime, leader := u, tokens := x.ptok,
                        act0 := if u < 192 then sv.grp.act0 else y.act0, act1 := if u < 192 then sv.grp.act1 else y.act1 }
        else { y with ustate := .reserved, part := x.part, launch := x.id, leader := u }
      let t := (t.putUnit v.1 z).putSpad v.1 (Tab.get [] sv.spads v.2)
      let t := { t with ms := { t.ms with code := Tab.erase t.ms.code v.1, own := Tab.erase t.ms.own v.1 } }
      if 192 ≤ v.1 then t.putQuad (v.1 - 192) (Tab.get {} sv.quads v.2) else t) s
    let name := fun (a : Nat) => match Tab.find? sv.agents a with
      | some ag => agentOf u ag.gw.toNat
      | none => a
    let s := (s.renameAgent name).renameGroup (fun g => if g = savedGroup k.ctx then u else g)
    let s := sv.agents.foldl (fun t e => (t.acquire (e.2.placed u) 3).putAgent (agentOf u e.2.gw.toNat) (e.2.placed u)) s
    let binds := s.fab.binds.map (fun (e : Nat × Binding) =>
      if e.2.saved ∧ e.2.dstUnit = k.ctx then (e.1, { e.2 with saved := false, dstUnit := u }) else e)
    let s := { s with fab := { s.fab with binds := binds }, hub := { s.hub with saves := Tab.erase s.hub.saves k.ctx } }
    s.putLaunch { x with live := x.live ++ [u], saved := x.saved.filter (fun c => c != k.ctx) }

/-- CONTEXT_RESTORE (R303, R355). -/
def execContextRestore (n : Nat) (s : State) : Out := onPacket s n true (fun s x k => (s.restoreGroup x k).settleIn x k.dest)

/-! ### Migration (R321) -/

/-- The hub may migrate the group of a unit to another unit now. -/
def State.mayMigrate (s : State) (u v : Nat) : Bool :=
  let y := s.unit u
  match s.launch? y.launch with
  | none => false
  | some x =>
    x.migr && !x.gang && !x.susp && y.ustate == .running && decide (y.start.toNat + 5000000 ≤ s.ntime.toNat) && y.temp == 7 &&
    (unitSet x.kind x.waves v).all (fun m => decide ((s.unit m).temp < y.temp)) && s.placeOk x v && s.savable u &&
    !s.hub.packets.any (fun k => k.launch == x.id && k.pkind == 2) && decide (x.ptok ≤ s.pwrFree x.part + y.tokens)

/-- MIGRATION (R321, R249): the group is saved and its resume is sent to the cooler unit. -/
def execMigration (u v : Nat) (s : State) : Out :=
  .next (if s.mayMigrate u v then
      let c := s.hub.nextCtx
      (s.saveGroup u).resumeOn (s.unit u).launch c v
    else s)

end Sys2Proof.Machine
end

