-- ==== Sys2Proof/Machine/Tasks.lean ====
section
/-! DEFINITION. The task instructions (R322 to R325, R327): SPAWN, STEAL, TDONE, PWRGET, PWRREL. -/
namespace Sys2Proof.Machine

/-- SPAWN's control word and count, with the record and the inputs read (R323). The answer is the status and the
state. -/
def State.spawn (s : State) (ag : Agent) (ctl cnt : Word) (r : TaskRec) (inputs : List (DWord × Nat)) : Nat × State :=
  let p := ag.part
  let idx := (ctl.extractLsb' 0 16).toNat
  match (ctl.extractLsb' 30 2).toNat with
  | 0 =>
    match s.launch? ag.launch with
    | none => (4, s)
    | some x =>
      let u := s.unit ag.unit
      if x.kind ≠ 2 then (4, s)
      else if u.deque.length < dequeCap then (0, s.putUnit ag.unit { u with deque := u.deque ++ [r] })
      else if x.spillq ≠ 0xFFFF ∧ s.tqOn p x.spillq ∧ !s.tqFull p x.spillq then (1, s.tqAppend p x.spillq r)
      else (2, s)
  | 1 =>
    if 63 < idx ∨ !s.tqOn p idx then (4, s)
    else if s.tqFull p idx then (2, s)
    else (0, s.tqAppend p idx r)
  | 2 =>
    match s.depIndex p idx with
    | none => (3, s)
    | some e =>
      if (Tab.find? s.hub.deps e).isSome then (3, s)
      else if cnt = 0 ∨ 65535 < cnt.toNat then (4, s)
      else
        let x : DepEnt := { part := p, launch := ag.launch, count := cnt.toNat, task := r, inputs := inputs }
        (0, { s with hub := { s.hub with deps := Tab.put s.hub.deps e x } })
  | _ => (4, s)

/-- The two input ranges of an inputs record (R323). -/
def inputRanges (bs : List Byte) : List (DWord × Nat) :=
  [0, 12].map (fun o => (BitVec.ofNat 64 (leVal ((bs.drop o).take 8)), leVal ((bs.drop (o + 8)).take 4)))

/-- SPAWN (R323): the reads are checked as LDSP's, then a release at `pk`. -/
def execSpawn (g : BitVec 2) (d : BitVec 6) (a : Src) (b : BitVec 6) (s : State) : Out :=
  issueOnce waveOnly g s fun id ag =>
    let p := (ag.src a).toNat
    let ctl := ag.sGet b.toNat
    let n := if ctl.extractLsb' 30 2 = 2 then 64 else 32
    if p % 32 ≠ 0 ∨ spadSize ag.unit < p + n then addrTrap s id ag (BitVec.ofNat 64 p)
    else
      match s.enginePlot ag.unit p n with
      | some k => trapHere s id ag 0x06 (BitVec.ofNat 64 k)
      | none =>
        if !s.releaseNow id ag 3 then waitFor s id ag .again
        else
          let r := TaskRec.ofBytes (s.spadRead ag.unit p 32)
          let ins := inputRanges (s.spadRead ag.unit (p + 32) 24)
          let (st, s) := s.spawn ag ctl (ag.sGet (b.toNat + 1)) r ins
          retire s id (ag.sSet d.toNat (BitVec.ofNat 32 st))

/-- A STEAL from a CU by a wave of another (R312, R324): the status, and the record moved. -/
def State.stealFrom (s : State) (ag : Agent) (v : Nat) : Nat × State :=
  let u := ag.unit
  if 191 < v ∨ v = u ∨ !s.taskGroup v ag.launch then (2, s)
  else
    let x := s.unit v
    match x.deque with
    | [] => (1, s)
    | r :: rest =>
      let y := s.unit u
      if dequeCap ≤ y.deque.length then (3, s)
      else (0, (s.putUnit v { x with deque := rest }).putUnit u { y with deque := y.deque ++ [r] })

/-- STEAL (R324): victim `0xFFFFFFFF` waits for the policy code's answer. -/
def execSteal (g : BitVec 2) (d : BitVec 6) (b : Src) (s : State) : Out :=
  issueOnce waveOnly g s fun id ag =>
    match ag.wait with
    | .steal none => waitFor s id ag (.steal none)
    | .steal (some st) => retire s id (ag.sSet d.toNat st)
    | _ =>
      let v := ag.src b
      if v = 0xFFFFFFFF then
        waitFor (s.raiseEvent ag.part { trig := 2, q1 := BitVec.ofNat 32 ag.unit, q3 := 0, who := id }) id ag (.steal none)
      else
        let (st, s) := s.stealFrom ag v.toNat
        retire s id (ag.sSet d.toNat (BitVec.ofNat 32 st))

/-- TDONE's decrement (R315, R325): the status. -/
def State.tdone (s : State) (ag : Agent) (i n : Nat) : Nat × State :=
  match s.depIndex ag.part i with
  | none => (2, s)
  | some e =>
    match Tab.find? s.hub.deps e with
    | none => (2, s)
    | some x =>
      if n = 0 ∨ x.count < n then (2, s)
      else if x.count = n then (1, s.fire e x)
      else (0, { s with hub := { s.hub with deps := Tab.put s.hub.deps e { x with count := x.count - n } } })

/-- TDONE (R325). -/
def execTdone (g : BitVec 2) (d : BitVec 6) (a b : Src) (s : State) : Out :=
  issueOnce waveOnly g s fun id ag =>
    if !s.releaseNow id ag 3 then waitFor s id ag .again
    else
      let (st, s) := s.tdone ag (ag.src a).toNat (ag.src b).toNat
      retire s id (ag.sSet d.toNat (BitVec.ofNat 32 st))

/-- PWRGET (R327). -/
def execPwrget (g : BitVec 2) (d : BitVec 6) (a : Src) (s : State) : Out :=
  issueOnce notHost g s fun id ag =>
    let n := min (min (ag.src a).toNat 4095) (s.pwrFree ag.part)
    let x := s.unit ag.unit
    let s := (s.pwrTake ag.part n).putUnit ag.unit { x with tokens := x.tokens + n }
    retire s id (ag.sSet d.toNat (BitVec.ofNat 32 n))

/-- PWRREL (R327). -/
def execPwrrel (g : BitVec 2) (a : Src) (s : State) : Out :=
  issueOnce notHost g s fun id ag =>
    let x := s.unit ag.unit
    let n := min (ag.src a).toNat x.tokens
    retire ((s.pwrGive ag.part n).putUnit ag.unit { x with tokens := x.tokens - n }) id ag

end Sys2Proof.Machine
end

