-- ==== Sys2Proof/Machine/Policy.lean ====
section
/-! DEFINITION. Policy code (R328 to R344, R376): the records, the events, the operations of a policy program, the checks of
its decisions, and the fixed fallback. -/
namespace Sys2Proof.Machine

/-! ### Records (R330 to R333) -/

/-- A number as a 32-bit field, saturating (R330). -/
def sat32 (n : Nat) : Word := BitVec.ofNat 32 (min n (2 ^ 32 - 1))
/-- Microseconds since a moment, saturating (R330, R332). -/
def State.usSince (s : State) (t : DWord) : Word := sat32 ((s.ntime.toNat - t.toNat) / 1000)
/-- A flag bit of a record. -/
def flagBit (n : Nat) (b : Bool) : Word := if b then 1#32 <<< n else 0

/-- When the oldest waiting record of a task queue entered it (R330). -/
def State.tqOldest (s : State) (p n : Nat) : DWord :=
  Tab.get s.ntime s.rot.tqAge (tqKey p n (Tab.get 0 s.rot.tqHead (64 * p + n)))

/-- A task queue holds work that can be taken (R331). -/
def State.tqReady (s : State) (p n : Nat) : Bool := s.tqOn p n && s.tqDepth p n != 0

/-- The free tokens of a pool cover a group of the launch (R320, R331). -/
def State.tokOk (s : State) (x : Launch) : Bool := decide (x.ptok ≤ s.pwrFree x.part)

/-- The waiting launches of a launch queue (R330). -/
def State.queueDepth (s : State) (p q : Nat) : Nat :=
  (s.hub.launches.filter (fun (e : Nat × Launch) => e.2.part == p && e.2.queue == q && e.2.waiting)).length

/-- Microseconds since work was last taken from a queue record; all ones if never (R330). -/
def State.lastField (s : State) (p i : Nat) : Word :=
  match Tab.find? s.hub.taken (128 * p + i) with
  | some t => s.usSince t
  | none => 0xFFFFFFFF

/-- A queue record (R330, R331): its eight fields. -/
def State.queueRec (s : State) (p i : Nat) : List Word :=
  let cls := (Tab.get 0 s.rot.polCls (80 * p + i)).zeroExtend 32
  if i < 64 then
    let d := s.tqDepth p i
    [sat32 d, if d = 0 then 0 else s.usSince (s.tqOldest p i), 0, cls, 0, 3, s.lastField p i,
     if s.tqOn p i then flagBit 4 true ||| flagBit 3 true ||| flagBit 1 (s.tqReady p i) ||| flagBit 0 true else 0]
  else if i < 80 then
    match s.headLaunch p (i - 64) with
    | some x =>
      [sat32 (s.queueDepth p (i - 64)), s.usSince x.since, BitVec.ofNat 32 x.prio, cls, BitVec.ofNat 32 x.ptok,
       BitVec.ofNat 32 x.kind, s.lastField p i,
       flagBit 6 x.gang ||| flagBit 5 x.ordered ||| flagBit 4 (s.tokOk x) ||| flagBit 2 true ||| flagBit 1 (s.launchReady x) |||
         flagBit 0 true]
    | none => [0, 0, 0, cls, 0, 0, s.lastField p i, flagBit 4 true ||| flagBit 2 true ||| flagBit 0 true]
  else List.replicate 8 0

/-- The record's unit is held by the partition (R332). -/
def State.unitHeld (s : State) (p u : Nat) : Bool := decide (u < 224) && (s.unit u).holder == some p
/-- It is present in the partition (R333). -/
def State.unitValid (s : State) (p u : Nat) : Bool := s.unitHeld p u && s.unitUp u

/-- The group on a unit is held by a fault (R60, R332): every live agent of it waits on a page that is not present, or its
quadrant's load queue does (log 64). -/
def State.unitHeldUp (s : State) (u : Nat) : Bool :=
  let ids := (s.agents.filter (fun e => e.2.live && e.2.profile != .host && e.2.unit == u)).map (fun e => e.2.wait)
  let held := fun (w : Wait) => match w with
    | .held _ => true
    | _ => false
  (!ids.isEmpty && ids.all held) || (decide (192 ≤ u) && s.ms.faults.any (fun f => f.queues.contains (u - 192)))

/-- The state field of a unit record (R332); a unit that a packet is on its way to reads as restoring. -/
def State.unitState (s : State) (u : Nat) : Nat :=
  match (s.unit u).ustate with
  | .free => if s.onWay u then 3 else 0
  | .running => if s.unitHeldUp u then 5 else 1
  | .saving => 2
  | .restoring => 3
  | .reserved => 4

/-- The unit runs a group that is neither being saved nor restored, and can be pre-empted: one that a fault holds too (R333,
R376). -/
def State.unitPre (s : State) (u : Nat) : Bool := (s.unit u).ustate == .running

/-- A slot of the unit's task group has no task (R333). -/
def State.taskSlot (s : State) (u : Nat) : Bool :=
  s.taskGroup u (s.unit u).launch && (List.range (s.unit u).waves).any (fun g => (s.agent? (agentOf u g)).isNone)

/-- The group's launch, and the unit that leads it. -/
def State.unitJob (s : State) (u : Nat) : Option Launch := (s.jobOn u).bind s.launch?
/-- The priority of the group on a unit (R332). -/
def State.unitPrio (s : State) (u : Nat) : Nat := match s.unitJob u with
  | some x => x.prio
  | none => 0
/-- The unit that leads the group on a unit. -/
def State.leaderOf (s : State) (u : Nat) : Nat := if (s.unit u).ustate = .reserved then (s.unit u).leader else u

/-- A unit record (R332, R333): its eight fields. -/
def State.unitRec (s : State) (p u : Nat) : List Word :=
  if !s.unitHeld p u then List.replicate 8 0
  else
    let x := s.unit u
    let y := s.unit (s.leaderOf u)
    let st := s.unitState u
    let busy := x.ustate != .free
    [BitVec.ofNat 32 st, match s.unitJob u with
      | some j => BitVec.ofNat 32 (64 + j.queue)
      | none => 0xFFFFFFFF,
     if busy then s.usSince y.start else 0, BitVec.ofNat 32 x.temp, BitVec.ofNat 32 x.deque.length,
     BitVec.ofNat 32 (s.unitPrio u), if busy then BitVec.ofNat 32 y.ord else 0,
     flagBit 6 (s.taskSlot u) ||| flagBit 5 (x.temp == 7) ||| flagBit 4 (s.unitPre u) ||| flagBit 3 (decide (192 ≤ u)) |||
       flagBit 2 (decide (u < 192)) ||| flagBit 1 (st == 0) ||| flagBit 0 (s.unitUp u)]

/-- The records of a list of indices, those that read zero left out. -/
def snapshot (n : Nat) (f : Nat → List Word) : Tab (List Word) :=
  ((List.range n).map (fun i => (i, f i))).filter (fun e => e.2.any (fun w => w != 0))

/-- A field of a snapshot's record; an index beyond the file reads zero (R330, R332). -/
def recField (t : Tab (List Word)) (i : Word) (f : Nat) : Word := nth 0 (Tab.get [] t i.toNat) f

/-! ### Starvation (R340) -/

/-- The wait of a queue, in ns: since work was last taken from it, or since its oldest waiting item entered (R340). -/
def State.queueWait (s : State) (p i : Nat) : Nat :=
  match Tab.find? s.hub.taken (128 * p + i) with
  | some t => s.ntime.toNat - t.toNat
  | none =>
    if i < 64 then (if s.tqDepth p i = 0 then 0 else s.ntime.toNat - (s.tqOldest p i).toNat)
    else match s.headLaunch p (i - 64) with
      | some x => s.ntime.toNat - x.since.toNat
      | none => 0

/-- The starvation bound in ns; 0 for none (R342). -/
def State.starveNs (s : State) (p : Nat) : Nat := ((s.polCtl p).extractLsb' 32 16).toNat * 1000000

/-- The queues among some that starve (R340). -/
def State.starving (s : State) (p : Nat) (qs : List Nat) : List Nat :=
  if s.starveNs p = 0 then [] else qs.filter (fun i => decide (s.starveNs p ≤ s.queueWait p i))

/-- A group of the launch can be placed beginning with the unit; for a gang, all its groups (R310, R317). -/
def State.pickOk (s : State) (x : Launch) (u : Nat) : Bool :=
  s.placeOk x u && (!x.gang || decide (s.batch x ≤ (s.gangPlaces x (s.batch x) u).length))

/-- The head launch of a launch queue record that is ready and has its tokens (R331). -/
def State.pickable (s : State) (p i : Nat) : Option Launch :=
  if i < 64 ∨ 79 < i then none
  else match s.headLaunch p (i - 64) with
    | some x => if s.launchReady x && s.tokOk x then some x else none
    | none => none

/-- The queue records that a dispatch of trigger 0 can serve: those whose kind also fits a free unit (R341). -/
def State.served0 (s : State) (p : Nat) : List Nat :=
  (List.range' 64 16).filter (fun i => match s.pickable p i with
    | some x => (List.range 224).any (s.pickOk x)
    | none => false)
/-- The queue records that a dispatch of trigger 1 can serve (R341). -/
def State.served1 (s : State) (p : Nat) : List Nat := (List.range 64).filter (s.tqReady p)

/-! ### Applying decisions (R338) -/

/-- The lowest slot of a task group without a task. -/
def State.lowSlot (s : State) (u : Nat) : Option Nat :=
  (List.range (s.unit u).waves).find? (fun g => (s.agent? (agentOf u g)).isNone)

/-- Work of the partition was dispatched: the events whose condition holds are raised from the first again. -/
def State.dueReset (s : State) (p : Nat) : State := s.putPol p { s.pol p with due := 0 }

/-- PICK of trigger 0: the head launch of the queue sends a group to the unit (R310, R338, R340). -/
def State.pick0 (s : State) (p i u : Nat) : State :=
  match s.headLaunch p (i - 64) with
  | some x => (s.dispatch x u).dueReset p
  | none => s

/-- PICK of trigger 1: the queue's head record starts in a free slot of the CU (R311). -/
def State.pick1 (s : State) (p i u : Nat) : State :=
  match s.lowSlot u, s.launch? (s.unit u).launch with
  | some g, some x =>
    let (r, s) := s.tqPop p i
    (s.startTask x u g r).dueReset p
  | _, _ => s

/-- PICK of trigger 2: the answer to the STEAL, and the record moved (R324, R338); no victim answers 1. -/
def State.pick2 (s : State) (e : PolEvent) (v : Word) : State :=
  match s.agent? e.who with
  | none => s
  | some ag =>
    match ag.wait with
    | .steal none =>
      let (st, s) := if v = 0xFFFFFFFF then (1, s) else s.stealFrom ag v.toNat
      s.updAgent e.who (fun a => { a with wait := .steal (some (BitVec.ofNat 32 st)) })
    | _ => s

/-- PICK of trigger 3: the held fire goes to the die (R315). -/
def State.pick3 (s : State) (e : PolEvent) (die : Nat) : State :=
  match s.hub.fires.find? (fun f => f.id == e.who) with
  | none => s
  | some f =>
    { s with hub := { s.hub with fires := s.hub.fires.filter (fun g => g.id != e.who) } }.placeFire f.launch f.part f.task f.inputs
      (some die)

/-- NOTIFY: every live wave and sequencer of the job takes the error-record trap (R338, R345). -/
def State.notifyJob (s : State) (e : PolEvent) : State :=
  (s.launchAgents e.who).foldl (fun t a => t.updAny a (fun ag =>
    { ag with tcause := ag.tcause ||| pendBit 0x22, recVal := BitVec.ofNat 64 e.tail })) s

/-- SUSPEND: every group of the job is pre-empted, and none is resumed (R338). -/
def State.suspendJob (s : State) (e : PolEvent) : State :=
  match s.launch? e.who with
  | none => s
  | some x => x.live.foldl (fun t u => t.preempt u) (s.putLaunch { x with susp := true })

/-- The decisions a program can end in (R338). -/
inductive DecKind where
  | pick | keep | preempt | kill | resume | notify | suspend
  deriving DecidableEq, Repr

/-- The event concerns a job (R329). -/
def PolEvent.hasJob (e : PolEvent) : Bool := e.q3 != 0xFFFFFFFF

/-- Apply a decision that passed its checks (R338). -/
def State.applyDec (s : State) (p : Nat) (e : PolEvent) (k : DecKind) (a b : Word) : State :=
  match k with
  | .pick =>
    match e.trig with
    | 0 => s.pick0 p a.toNat b.toNat
    | 1 => s.pick1 p a.toNat b.toNat
    | 2 => s.pick2 e b
    | _ => s.pick3 e (unitDie b.toNat)
  | .keep => s
  | .preempt => s.preempt a.toNat
  | .kill => if e.hasJob then s.killLaunch e.who else s
  | .resume => s
  | .notify => if e.hasJob then s.notifyJob e else s
  | .suspend => if e.hasJob then s.suspendJob e else s

/-! ### The checks (R340) -/

/-- The CUs with a task group of the stealer's launch, the stealer's own left out (R340, R341). -/
def State.victims (s : State) (e : PolEvent) : List Nat :=
  match s.agent? e.who with
  | none => []
  | some ag => (List.range 192).filter (fun v => s.taskGroup v ag.launch && BitVec.ofNat 32 v != e.q1)

/-- The checks of a PICK (R329, R340). -/
def State.pickPasses (s : State) (p : Nat) (e : PolEvent) (a b : Word) : Bool :=
  match e.trig with
  | 0 =>
    (match s.pickable p a.toNat with
     | some x => s.unitValid p b.toNat && s.pickOk x b.toNat
     | none => false) &&
    (let st := s.starving p (s.served0 p)
     st.isEmpty || st.contains a.toNat)
  | 1 =>
    decide (a.toNat < 64) && s.tqReady p a.toNat && b == e.q1 && s.unitValid p b.toNat && s.taskSlot b.toNat &&
    (let st := s.starving p (s.served1 p)
     st.isEmpty || st.contains a.toNat)
  | 2 => b == 0xFFFFFFFF || (s.unitValid p b.toNat && (s.victims e).contains b.toNat)
  | _ => decide (b.toNat < 192) && s.unitValid p b.toNat && e.q1.getLsbD (unitDie b.toNat - 10)

/-- The checks that a decision of the program must pass (R329, R340). -/
def State.decPasses (s : State) (p : Nat) (e : PolEvent) (k : DecKind) (a b : Word) : Bool :=
  match k with
  | .pick => e.entry == 0 && s.pickPasses p e a b
  | .keep => e.entry == 1
  | .preempt => e.entry == 1 && s.unitValid p a.toNat && s.unitPre a.toNat
  | .kill => e.entry == 2
  | .resume => e.entry == 2
  | .notify => e.entry == 2
  | .suspend => e.entry == 2

/-! ### The fallback (R341) -/

/-- The member of a list that is best under a strict order, the earliest of equals. -/
def bestOf (lt : Nat → Nat → Bool) : List Nat → Option Nat
  | [] => none
  | x :: t => some (t.foldl (fun b y => if lt y b then y else b) x)

/-- The priority and the age that the fallback compares: a queue record's (R330, R341). -/
def State.queuePrio (s : State) (p i : Nat) : Nat := (nth 0 (s.queueRec p i) 2).toNat
def State.queueAge (s : State) (p i : Nat) : Nat := (nth 0 (s.queueRec p i) 1).toNat

/-- Among queues: the highest priority, then the greatest age, then the lowest index; a starving one of greatest wait first
(R341). -/
def State.bestQueue (s : State) (p : Nat) (qs : List Nat) : Option Nat :=
  let prio := s.queuePrio p
  let age := s.queueAge p
  let wait := s.queueWait p
  let lt := fun i j => decide (prio j < prio i) || (prio i == prio j && decide (age j < age i))
  match s.starving p qs with
  | [] => bestOf lt qs
  | st => bestOf (fun i j => decide (wait j < wait i) || (wait i == wait j && lt i j)) st

/-- A ready launch queue of the unit's kind with at least some priority (R341). -/
def State.outranked (s : State) (p u prio : Nat) : Bool :=
  (List.range 16).any (fun q => match s.headLaunch p q with
    | some x => s.launchReady x && kindFits x.kind u && decide (prio ≤ x.prio)
    | none => false)

/-- The unit that gives way to a launch queue: pre-emptible, of its kind, the lowest priority below the queue's, then the
longest resident, then the lowest index (R341). -/
def State.yielding (s : State) (p : Nat) (x : Launch) : Option Nat :=
  let prio := s.unitPrio
  let res := fun u => (s.usSince (s.unit (s.leaderOf u)).start).toNat
  bestOf (fun u v => decide (prio u < prio v) || (prio u == prio v && decide (res v < res u)))
    ((List.range 224).filter (fun u => s.unitValid p u && s.unitPre u && kindFits x.kind u && decide (prio u < x.prio)))

/-- The fixed fallback (R341). -/
def State.fallback (s : State) (p : Nat) (e : PolEvent) : State :=
  match e.entry, e.trig with
  | 0, 0 =>
    match s.bestQueue p (s.served0 p) with
    | none => s
    | some i =>
      match s.pickable p i with
      | none => s
      | some x => match (List.range 224).find? (s.pickOk x) with
        | some u => s.pick0 p i u
        | none => s
  | 0, 1 =>
    match s.bestQueue p (s.served1 p) with
    | some i => if s.unitValid p e.q1.toNat && s.taskSlot e.q1.toNat then s.pick1 p i e.q1.toNat else s
    | none => s
  | 0, 2 =>
    let dq := fun v => (s.unit v).deque.length
    match bestOf (fun u v => decide (dq v < dq u)) ((s.victims e).filter (fun v => dq v != 0)) with
    | some v => s.pick2 e (BitVec.ofNat 32 v)
    | none => s.pick2 e 0xFFFFFFFF
  | 0, _ => match [10, 11, 12, 13].find? (fun d => e.q1.getLsbD (d - 10)) with
    | some d => s.pick3 e d
    | none => s
  | 1, 0 =>
    let u := e.q1.toNat
    if s.unitValid p u && s.unitPre u && s.outranked p u (s.unitPrio u) then s.preempt u else s
  | 1, _ => match s.headLaunch p (e.q2.toNat - 64) with
    | some x => match s.yielding p x with
      | some u => s.preempt u
      | none => s
    | none => s
  | _, _ => if e.hasJob then s.killLaunch e.who else s

/-! ### Events that a condition raises (R329) -/

/-- The decision events whose condition holds: dispatch 0 for each free unit, dispatch 1 for each free slot, pre-emption 1
for each ready launch queue that finds no free unit and outranks a running group (R329, log 91). -/
def State.dueEvents (s : State) (p : Nat) : List PolEvent :=
  let qs := (List.range 16).filterMap (fun q => (s.headLaunch p q).bind (fun x => if s.launchReady x then some (q, x) else none))
  let free := if qs.isEmpty then [] else (List.range 224).filter (s.unitFree p)
  let slots := (List.range 192).filter (fun u => s.unitValid p u && s.taskSlot u && (s.unit u).deque.isEmpty)
  let rank := qs.filter (fun (e : Nat × Launch) => (s.places e.2).isEmpty && (s.yielding p e.2).isSome)
  free.map (fun u => { q1 := BitVec.ofNat 32 u, q3 := 0 }) ++
    slots.map (fun u => { trig := 1, q1 := BitVec.ofNat 32 u, q3 := 0 }) ++
    rank.map (fun e => { entry := 1, trig := 1, q2 := BitVec.ofNat 32 (64 + e.1), q3 := 0 })

/-- Raise one of them while no other event of the partition waits; each in turn. -/
def State.raiseDue (s : State) (p : Nat) : State :=
  let x := s.pol p
  if !x.evq.isEmpty || !x.ovf.isEmpty then s
  else
    let es := s.dueEvents p
    match es[x.due % es.length]? with
    | some e => (s.putPol p { x with due := x.due + 1 }).raiseEvent p e
    | none => s

/-! ### Decisions (R328, R339) -/

/-- The cycle budget of a partition's decisions (R342). -/
def State.budget (s : State) (p : Nat) : Nat := min 256 (max 32 ((s.polCtl p).extractLsb' 16 9).toNat)

/-- The decision of a partition ends: a swap that waits is made (R344). -/
def State.endDec (s : State) (p : Nat) : State :=
  let x := { s.pol p with dec := none }
  s.putPol p (if x.swap then x.swapIn else x)

/-- The most decisions that run at once (R328). -/
def polEngines : Nat := 4

/-- `q0` to `q3` of an event (R329). -/
def PolEvent.regs (e : PolEvent) : Tab Word :=
  [BitVec.ofNat 32 (e.entry % 4 * 256 + e.trig % 256), e.q1, e.q2, e.q3].zipIdx.foldl (fun t w => Tab.set 0 t w.2 w.1) []

/-- Start the program on an event: the snapshot is taken, the registers are loaded (R328). -/
def State.startDec (s : State) (p : Nat) (e : PolEvent) : State :=
  let d : Decision := { ev := e, q := e.regs, snapQ := snapshot 80 (s.queueRec p), snapU := snapshot 224 (s.unitRec p) }
  s.putPol p { s.pol p with dec := some d }

/-- POLICY_DECISION_START (R328, R329): the next event of a partition. Events that found the queue full, and every event
while no program decides, go to the fallback. -/
def execPolicyDecisionStart (p : Nat) (s : State) : Out :=
  .next (match (s.pol p).ovf with
    | e :: r => (s.putPol p { s.pol p with ovf := r }).fallback p e
    | [] =>
      if (s.pol p).dec.isSome then s
      else
        let s := s.raiseDue p
        match (s.pol p).evq with
        | [] => s
        | e :: r =>
          let t := s.putPol p { s.pol p with evq := r }
          if !s.polRuns p then t.fallback p e
          else if polEngines ≤ (s.hub.pol.filter (fun (x : Nat × Pol) => x.2.dec.isSome)).length then s
          else t.startDec p e)

/-- The decision of a partition has overrun its budget: the fallback decides (R339). -/
def State.overrun (s : State) (p : Nat) (e : PolEvent) : State := ((s.polCount p 1).endDec p).fallback p e

/-- The cycles of the operation at the decision's index, a branch as not taken (R336). -/
def State.nextCost (s : State) (p : Nat) (d : Decision) : Nat := polCycles (polOp (nth 0 (s.pol p).cur d.pc))

/-- BUDGET_OVERRUN (R339): the next operation's cycles would exceed the budget. -/
def execBudgetOverrun (p : Nat) (s : State) : Out :=
  .next (match (s.pol p).dec with
    | some d => if s.budget p < d.cyc + s.nextCost p d then s.overrun p d.ev else s
    | none => s)

/-- The length of a slice in ns (R342). -/
def State.sliceNs (s : State) (p : Nat) : Nat := min 2000 (max 1 ((s.polCtl p).extractLsb' 0 11).toNat) * 50000

/-- SLICE_END (R376): a group's slice ends on its unit. -/
def execSliceEnd (u : Nat) (s : State) : Out :=
  let x := s.unit u
  .next (if x.ustate = .running ∧ x.sliceAt.toNat + s.sliceNs x.part ≤ s.ntime.toNat then
      (s.putUnit u { x with sliceAt := s.ntime }).raiseEvent x.part
        { entry := 1, trig := 0, q1 := BitVec.ofNat 32 u, q3 := 0 }
    else s)

/-! ### The operations (R334 to R337) -/

/-- Run an operation of the policy engine: the decision whose turn it is, its cycles spent (R336, R339). -/
def onDec (s : State) (cost : Decision → Nat) (k : Nat → Decision → State) : Out :=
  match s.cur with
  | .policy p =>
    match (s.pol p).dec with
    | some d =>
      .next (if s.budget p < d.cyc + cost d then s.overrun p d.ev else k p { d with cyc := d.cyc + cost d })
    | none => .fault .noMover
  | _ => .fault .noMover

/-- A register of the policy engine. -/
def Decision.get (d : Decision) (r : BitVec 3) : Word := Tab.get 0 d.q r.toNat
/-- Write a register and go to the next index. -/
def Decision.set (d : Decision) (r : BitVec 3) (v : Word) : Decision := { d with q := Tab.set 0 d.q r.toNat v, pc := d.pc + 1 }

/-- An operation that writes one register. -/
def polReg (s : State) (cost : Nat) (r : BitVec 3) (f : Decision → Word) : Out :=
  onDec s (fun _ => cost) fun p d => s.putPol p { s.pol p with dec := some (d.set r (f d)) }

/-- A forward branch (R335, R336). -/
def polBranch (s : State) (off : BitVec 5) (t : Decision → Bool) : Out :=
  onDec s (fun d => if t d then 2 else 1) fun p d =>
    s.putPol p { s.pol p with dec := some { d with pc := d.pc + (if t d then off.toNat else 1) } }

/-- A scan (R337): over the records that are valid and hold every bit of the mask, the index of the best field, ties to the
lowest index. -/
def polScanRecs (t : Tab (List Word)) (mask : Word) (f : Nat) (most : Bool) : Word :=
  let es := t.filter (fun e => (nth 0 e.2 7).getLsbD 0 && (nth 0 e.2 7 &&& mask) == mask)
  match es with
  | [] => 0xFFFFFFFF
  | e :: r =>
    let better := fun (x y : Nat × List Word) => if most then (nth 0 y.2 f).ult (nth 0 x.2 f) else (nth 0 x.2 f).ult (nth 0 y.2 f)
    BitVec.ofNat 32 (r.foldl (fun b x => if better x b then x else b) e).1

/-- LDI. -/
def execPolLdi (d : BitVec 3) (imm : BitVec 8) (s : State) : Out := polReg s 1 d fun _ => imm.zeroExtend 32
/-- LDIH. -/
def execPolLdih (d : BitVec 3) (imm : BitVec 8) (s : State) : Out := polReg s 1 d fun x => x.get d <<< 8 ||| imm.zeroExtend 32
/-- ADD. -/
def execPolAdd (d a b : BitVec 3) (s : State) : Out := polReg s 1 d fun x => x.get a + x.get b
/-- SUB. -/
def execPolSub (d a b : BitVec 3) (s : State) : Out := polReg s 1 d fun x => x.get a - x.get b
/-- AND. -/
def execPolAnd (d a b : BitVec 3) (s : State) : Out := polReg s 1 d fun x => x.get a &&& x.get b
/-- OR. -/
def execPolOr (d a b : BitVec 3) (s : State) : Out := polReg s 1 d fun x => x.get a ||| x.get b
/-- XOR. -/
def execPolXor (d a b : BitVec 3) (s : State) : Out := polReg s 1 d fun x => x.get a ^^^ x.get b
/-- MINU. -/
def execPolMinu (d a b : BitVec 3) (s : State) : Out := polReg s 1 d fun x => if (x.get b).ult (x.get a) then x.get b else x.get a
/-- MAXU. -/
def execPolMaxu (d a b : BitVec 3) (s : State) : Out := polReg s 1 d fun x => if (x.get a).ult (x.get b) then x.get b else x.get a
/-- SHL. -/
def execPolShl (d a : BitVec 3) (imm : BitVec 5) (s : State) : Out := polReg s 1 d fun x => x.get a <<< imm.toNat
/-- SHR. -/
def execPolShr (d a : BitVec 3) (imm : BitVec 5) (s : State) : Out := polReg s 1 d fun x => x.get a >>> imm.toNat
/-- ADDI. -/
def execPolAddi (d a : BitVec 3) (imm : BitVec 5) (s : State) : Out := polReg s 1 d fun x => x.get a + imm.signExtend 32
/-- RQF. -/
def execPolRqf (d a f : BitVec 3) (s : State) : Out := polReg s 2 d fun x => recField x.snapQ (x.get a) f.toNat
/-- RUF. -/
def execPolRuf (d a f : BitVec 3) (s : State) : Out := polReg s 2 d fun x => recField x.snapU (x.get a) f.toNat
/-- BEQ. -/
def execPolBeq (a b : BitVec 3) (off : BitVec 5) (s : State) : Out := polBranch s off fun x => x.get a == x.get b
/-- BNE. -/
def execPolBne (a b : BitVec 3) (off : BitVec 5) (s : State) : Out := polBranch s off fun x => x.get a != x.get b
/-- BLTU. -/
def execPolBltu (a b : BitVec 3) (off : BitVec 5) (s : State) : Out := polBranch s off fun x => (x.get a).ult (x.get b)
/-- BGEU. -/
def execPolBgeu (a b : BitVec 3) (off : BitVec 5) (s : State) : Out := polBranch s off fun x => !(x.get a).ult (x.get b)
/-- ARGMINQ. -/
def execPolArgminq (d a f : BitVec 3) (s : State) : Out := polReg s 12 d fun x => polScanRecs x.snapQ (x.get a) f.toNat false
/-- ARGMAXQ. -/
def execPolArgmaxq (d a f : BitVec 3) (s : State) : Out := polReg s 12 d fun x => polScanRecs x.snapQ (x.get a) f.toNat true
/-- ARGMINU. -/
def execPolArgminu (d a f : BitVec 3) (s : State) : Out := polReg s 34 d fun x => polScanRecs x.snapU (x.get a) f.toNat false
/-- ARGMAXU. -/
def execPolArgmaxu (d a f : BitVec 3) (s : State) : Out := polReg s 34 d fun x => polScanRecs x.snapU (x.get a) f.toNat true
/-- LDP. -/
def execPolLdp (d n : BitVec 3) (s : State) : Out :=
  onDec s (fun _ => 2) fun p x => s.putPol p { s.pol p with dec := some (x.set d (Tab.get 0 (s.pol p).pm n.toNat)) }
/-- STP. -/
def execPolStp (a n : BitVec 3) (s : State) : Out :=
  onDec s (fun _ => 2) fun p x =>
    s.putPol p { s.pol p with dec := some { x with pc := x.pc + 1 }, pm := Tab.set 0 (s.pol p).pm n.toNat (x.get a) }

/-- DEC (R338, R340, R342): the decision ends; one that passes its checks is counted and applied, one that fails them is
counted and replaced by the fallback. -/
def polDec (s : State) (k : DecKind) (a b : BitVec 3) : Out :=
  onDec s (fun _ => 1) fun p x =>
    if s.decPasses p x.ev k (x.get a) (x.get b) then ((s.polCount p 0).endDec p).applyDec p x.ev k (x.get a) (x.get b)
    else ((s.polCount p 2).endDec p).fallback p x.ev

/-- DEC PICK. -/
def execPolDecPick (a b : BitVec 3) (s : State) : Out := polDec s .pick a b
/-- DEC KEEP. -/
def execPolDecKeep (a b : BitVec 3) (s : State) : Out := polDec s .keep a b
/-- DEC PREEMPT. -/
def execPolDecPreempt (a b : BitVec 3) (s : State) : Out := polDec s .preempt a b
/-- DEC KILL. -/
def execPolDecKill (a b : BitVec 3) (s : State) : Out := polDec s .kill a b
/-- DEC RESUME. -/
def execPolDecResume (a b : BitVec 3) (s : State) : Out := polDec s .resume a b
/-- DEC NOTIFY. -/
def execPolDecNotify (a b : BitVec 3) (s : State) : Out := polDec s .notify a b
/-- DEC SUSPEND. -/
def execPolDecSuspend (a b : BitVec 3) (s : State) : Out := polDec s .suspend a b
/-- DEC FALLBACK (R338, R341): the fallback decides, and nothing is counted. -/
def execPolDecFallback (_a _b : BitVec 3) (s : State) : Out :=
  onDec s (fun _ => 1) fun p x => (s.endDec p).fallback p x.ev

end Sys2Proof.Machine
end

