-- ==== Sys2Proof/Machine/Requests.lean ====
section
/-! DEFINITION. Requests from outside the package: Ultra Ethernet requests and the flow tables (R314), management requests
(R368, R369), attestation (R366, R367). -/
namespace Sys2Proof.Machine

/-- The Ultra Ethernet ports of a link die are open (R364). -/
def State.portsOpen (s : State) (die : Nat) : Bool :=
  decide (8 ≤ (s.rot.bootSt.extractLsb' 24 8).toNat) && !s.plat.halted && (die == 14 || die == 15) && (s.die die).link == .up

/-- The flow-table entry of a link die that a request matches, the lowest-numbered one (R314). -/
def State.flowMatch (s : State) (r : UeReq) : Option (Nat × Flow) :=
  let lo := if r.die = 14 then 0 else 4096
  List.find? (fun (e : Nat × Flow) => decide (lo ≤ e.1) && decide (e.1 < lo + 4096) && e.2.en && e.2.ep == r.ep && e.2.svc == r.svc)
    s.hub.flows

/-- Drop a request: it is counted, and the resident service receives a record (R314, log 35). -/
def State.dropRequest (s : State) (part : Nat) : State :=
  let (n, s) := s.draw
  let s := { s with plat := { s.plat with dropReq := s.plat.dropReq + 1 } }
  s.recordRs part { kind := (Config.dropKind n).toNat }

/-- Where a link die's write of a byte of a partition goes: none where the partition's translation refuses it. -/
def State.linkPa (s : State) (part va : Nat) : Option (Nat × Xlat) :=
  match s.walkFlat part va .write with
  | .ok x => some (x.flatPa (BitVec.ofNat 64 va), x)
  | _ => none

/-- A link die writes bytes of a partition and flushes them: they reach the home, and every peer's copy is invalidated
(R16, R314). -/
def State.linkWrite (s : State) (part : Nat) : Nat → List Byte → State
  | _, [] => s
  | va, b :: t =>
    State.linkWrite (match s.linkPa part va with
      | some (pa, x) => (s.noteUse part pa (pteUnc x.pte)).arriveWrite none part 0 (pteSlot x.pte) pa [b] 0xFF
      | none => s) part (va + 1) t

/-- A link die's write of a byte reaches its home (R22, R33, R270). -/
def State.linkByte (s : State) (part va : Nat) : Bool :=
  (s.linkPa part va).any (fun (e : Nat × Xlat) => s.reachable part (pteSlot e.2.pte) e.1)
/-- The bytes of an entry's slot can be written (R314). -/
def State.linkOk (s : State) (part va n : Nat) : Bool :=
  flatOk (BitVec.ofNat 64 va) && decide (va + n ≤ 2 ^ 56) && (List.range n).all (fun i => s.linkByte part (va + i))

/-- The record of a link die's write that the home refuses, which names no job (R33, R270, R378). -/
def State.linkDenied (s : State) (die part va n : Nat) : State :=
  match ((List.range n).find? (fun i => !s.linkByte part (va + i))).bind (fun i => s.linkPa part (va + i)) with
  | some (pa, x) => s.violation part (pteSlot x.pte) pa .everyJob 0xFFFFFFFF (BitVec.ofNat 8 die)
  | none => s

/-- The record that a request appends to its task queue (R314). -/
def Flow.record (f : Flow) (r : UeReq) (va : Nat) : TaskRec :=
  { entry := f.entry,
    args := [BitVec.ofNat 32 va, BitVec.ofNat 32 (va / 2 ^ 32), BitVec.ofNat 32 r.payload.length, r.srcEp,
             r.srcSvc.zeroExtend 32, f.count] }

/-- The entry after an arrival: its count wraps, its slots are used in turn (R314). -/
def Flow.arrived (f : Flow) : Flow := { f with count := f.count + 1, slot := if f.slot + 1 < f.nslot then f.slot + 1 else 0 }

/-- The slot size of an entry (R314). -/
def Flow.slotSize (f : Flow) : Nat := 2 ^ max 6 (min 15 f.lgslot)

/-- UE_REQUEST (R314, R364, R368): a request that meets a full queue stays unacknowledged. -/
def execUeRequest (r : UeReq) (s : State) : Out :=
  .next (if !s.portsOpen r.die then s
    else
      match s.flowMatch r with
      | none => s.dropRequest 0
      | some (i, f) =>
        let va := f.buf.toNat + f.slot * f.slotSize
        if f.slotSize < r.payload.length then s.dropRequest f.part
        else if 16 ≤ i % 4096 ∧ (!s.tqOn f.part f.tq ∨ s.tqFull f.part f.tq) then s
        else if !s.linkOk f.part va r.payload.length then (s.linkDenied r.die f.part va r.payload.length).dropRequest f.part
        else
          let s := s.linkWrite f.part va r.payload
          let s := { s with hub := { s.hub with flows := Tab.put s.hub.flows i f.arrived } }
          if i % 4096 < 16 then { s with plat := { s.plat with hostQ := s.plat.hostQ ++ [.mgmt] } }
          else s.tqAppend f.part f.tq (f.record r va))

/-! ### Management (R368, R369) -/

/-- A reply of the resident service. -/
def State.answer (s : State) (bs : List Byte) : State := { s with plat := { s.plat with reports := s.plat.reports ++ [bs] } }

/-- The status that a management request reads: `boot_st`, the capability table, `repl_req` (R368, log 37). -/
def State.statusBytes (s : State) : List Byte :=
  leBytes 4 s.rot.bootSt.toNat ++ (List.range 15).flatMap (fun i => leBytes 4 (Tab.get 0 s.rot.cap i).toNat) ++
    leBytes 4 s.rot.capGen.toNat ++ [if s.rot.replReq then 1 else 0]

/-- Discard what waits in the task queues of a partition (R369). -/
def State.dropQueues (s : State) (p : Nat) : State :=
  let qs := List.range' (64 * p) 64
  { s with rot := { s.rot with
      tqHead := qs.foldl (fun t q => Tab.set 0 t q (Tab.get 0 s.rot.tqTail q)) s.rot.tqHead,
      tqAge := Tab.dropRange s.rot.tqAge (tqKey p 0 0) (64 * 1048576) } }

/-- A partition ends (R369): its flow entries close, its queues are discarded, its launches end and its units are quiesced; once
they are quiet, its key slots are destroyed. -/
def State.destroyPart (s : State) (p : Nat) : State :=
  if (Tab.find? s.hub.parts p).isNone then s
  else
    let flows := s.hub.flows.map (fun (e : Nat × Flow) => if e.2.part = p then (e.1, { e.2 with en := false }) else e)
    let s := { s with hub := { s.hub with flows := flows, ending := (p :: s.hub.ending).dedup } }
    let s := s.dropQueues p
    ((s.hub.launches.filter (fun (e : Nat × Launch) => e.2.part == p)).foldl (fun t e => t.killLaunch e.1) s).endParts

/-- The resident service takes a request out of its event queue, which a flow-table match has put there (R368): none while the
queue holds no request. -/
def State.takeRequest (s : State) : Option State :=
  if s.plat.hostQ.contains .mgmt then some { s with plat := { s.plat with hostQ := s.plat.hostQ.erase .mgmt } } else none

/-- MANAGEMENT_REQUEST (R338, R368): the resident service carries out a request that has come through its entries of a flow table,
the release of a suspended launch among it (log 65). -/
def execManagementRequest (r : MgmtReq) (s : State) : Out :=
  .next (match s.takeRequest with
    | none => s
    | some s =>
      match r with
      | .status => s.answer s.statusBytes
      | .createPart c => if 63 < c.part ∨ (Tab.find? s.hub.parts c.part).isSome then s else s.createPart c
      | .destroyPart p => s.destroyPart p
      | .orngSplit p v =>
        if 63 < p then s
        else
          let s := s.writeSplit p v
          s.answer (leBytes 4 (s.readSplit p).toNat)
      | .fence v => s.writeFence v
      | .release l => match s.launch? l with
        | some x => s.putLaunch { x with susp := false }
        | none => s
      | .powerLimit v => { s with rot := { s.rot with pkgPlim := v &&& 0xFFFF } })

/-! ### Attestation -/

/-- Bytes 0 to 223 of a report (R367); a number that names no partition asks for a package-only report. -/
def State.reportBody (s : State) (part : Nat) (nonce : List Byte) : List Byte :=
  let zero := List.replicate 64 (0 : Byte)
  leBytes 4 1 ++ leBytes 4 (Tab.get 0 s.rot.cap 0).toNat ++ (nonce ++ zero).take 64 ++ (s.plat.bootHash ++ zero).take 64 ++
    (if part < 64 then Tab.get zero s.plat.meas part else zero) ++ leBytes 8 s.ntime.toNat ++ leBytes 4 s.rot.capGen.toNat ++
    leBytes 4 (if part < 64 then part else 0xFFFFFFFF) ++ leBytes 4 s.plat.bootSvn ++ leBytes 4 0

/-- The identity public key, which the boot flash holds beside its certificate and under which a verifier checks a report (R366). -/
def State.idPublic (s : State) : List Byte := ecPublic s.plat.idKey

/-- Rotunda's signing engine signs bytes with the identity key: r, then s, 66 bytes each, the most significant first as the other
P-521 values of the start-up image (R362, R366, R367); how it draws its secret number is not said (log 22). -/
def State.sign (s : State) (n : Nat) (bs : List Byte) : List Byte :=
  ecdsaSign s.plat.idKey (Config.nonce n) (sha512 bs)

/-- ATTESTATION_REQUEST (R366, R367, R368): a request that has come through the resident service's flow entries is answered with
the signed report, and the two certificates. -/
def execAttestationRequest (part : Nat) (nonce : List (BitVec 8)) (s : State) : Out :=
  .next (match s.takeRequest with
    | none => s
    | some s =>
      let (n, s) := s.draw
      let body := s.reportBody part nonce
      (s.answer (body ++ s.sign n body)).answer s.plat.certs)

end Sys2Proof.Machine
end

