-- ==== Sys2Proof/Machine/Special.lean ====
section
/-! DEFINITION. The special-function instructions: major 0x11 (R183 to R188). Wave profile only. -/
namespace Sys2Proof.Machine

/-- The entries an SFU's queue holds (R183). -/
def sfuCap : Nat := 32

/-- Enter one entry into the CU's SFU queue, or wait at issue while it is full (R183). -/
def State.sfuEnter (s : State) (id : Nat) (ag : Agent) (e : UnitSt → SfuEntry) : State :=
  let x := s.unit ag.unit
  if x.sfu.length < sfuCap then retire (s.putUnit ag.unit { x with sfu := x.sfu ++ [e x] }) id ag
  else waitFor s id ag .again

/-- A special function of one vector source over the active lanes; a slot without an active lane and with a guard
enters nothing (R109, R183). The bank is the one `front` names at entry (R188). -/
def sfuOp (op : SfuOp) (g : BitVec 2) (d : BitVec 6) (a : Src) (s : State) : Out :=
  issueOnce waveOnly g s fun id ag =>
    s.sfuEnter id ag fun x =>
      { agent := id, op := op, mask := ag.active g, src := lanes (fun l => ag.vsrc a l), ftz := ag.ftz, d := d.toNat,
        bank := x.front }

/-- SRCP (R184). -/
def execSrcp (g : BitVec 2) (d : BitVec 6) (a : Src) (s : State) : Out := sfuOp .rcp g d a s
/-- SRSQ (R184). -/
def execSrsq (g : BitVec 2) (d : BitVec 6) (a : Src) (s : State) : Out := sfuOp .rsq g d a s
/-- SSQRT (R184). -/
def execSsqrt (g : BitVec 2) (d : BitVec 6) (a : Src) (s : State) : Out := sfuOp .sqrt g d a s
/-- SEXP2 (R184). -/
def execSexp2 (g : BitVec 2) (d : BitVec 6) (a : Src) (s : State) : Out := sfuOp .exp2 g d a s
/-- SLOG2 (R184). -/
def execSlog2 (g : BitVec 2) (d : BitVec 6) (a : Src) (s : State) : Out := sfuOp .log2 g d a s
/-- SSIN (R184). -/
def execSsin (g : BitVec 2) (d : BitVec 6) (a : Src) (s : State) : Out := sfuOp .sin g d a s
/-- SCOS (R184). -/
def execScos (g : BitVec 2) (d : BitVec 6) (a : Src) (s : State) : Out := sfuOp .cos g d a s
/-- STANH (R184). -/
def execStanh (g : BitVec 2) (d : BitVec 6) (a : Src) (s : State) : Out := sfuOp .tanh g d a s
/-- SACT (R186, R188). -/
def execSact (g : BitVec 2) (d : BitVec 6) (a : Src) (s : State) : Out := sfuOp .act g d a s

/-- The bytes of an activation-table image (R185). -/
def atImageBytes : Nat := 3088

/-- An image as a bank (R185): header words 0 to 2 and 768 coefficients from byte 16. -/
def bankOf (bs : List Byte) : ActBank :=
  let w := fun o => BitVec.ofNat 32 (leVal ((bs.drop o).take 4))
  { xmin := w 0, xmax := w 4, flags := w 8,
    coef := (List.range 768).filterMap (fun i => let c := w (16 + 4 * i); if c = 0 then none else some (i, c)) }

/-- ATLD (R185, R187). -/
def execAtld (g : BitVec 2) (a : Src) (s : State) : Out :=
  issueOnce waveOnly g s fun id ag =>
    let p := (ag.src a).toNat
    if p % 16 ≠ 0 ∨ spadSize ag.unit < p + atImageBytes then addrTrap s id ag (BitVec.ofNat 64 p)
    else
      match s.enginePlot ag.unit p atImageBytes with
      | some k => trapHere s id ag 0x06 (BitVec.ofNat 64 k)
      | none =>
        if ag.barred then waitFor s id ag .again
        else
          let img := bankOf (s.spadRead ag.unit p atImageBytes)
          s.sfuEnter id ag fun x => { agent := id, op := .atld, bank := !x.front, img := img }

/-- ATSWAP (R188): it enters the queue and completes at once. -/
def execAtswap (g : BitVec 2) (s : State) : Out :=
  issueOnce waveOnly g s fun id ag =>
    let x := s.unit ag.unit
    if x.sfu.length < sfuCap then retire (s.putUnit ag.unit { x with front := !x.front }) id ag
    else waitFor s id ag .again

end Sys2Proof.Machine
end

