-- ==== Sys2Proof/Machine/Dispatch.lean ====
section
/-! DEFINITION. Which meaning each instruction has: one arm per constructor of `Instr`, one direct call each. -/
namespace Sys2Proof.Machine

/-- The outcome of executing one instruction, or of one step of the package. -/
def exec (i : Instr) (s : State) : Host.Outcome State Fault Refusal :=
  match i with
  | .blk neg rep cnt => Sys2Proof.Machine.execBlk neg rep cnt s
  | .rep stepb stepa stepd cnt => Sys2Proof.Machine.execRep stepb stepa stepd cnt s
  | .add g d a b => Sys2Proof.Machine.execAdd g d a b s
  | .sub g d a b => Sys2Proof.Machine.execSub g d a b s
  | .mul g d a b => Sys2Proof.Machine.execMul g d a b s
  | .mulh g d a b => Sys2Proof.Machine.execMulh g d a b s
  | .mulhu g d a b => Sys2Proof.Machine.execMulhu g d a b s
  | .div g d a b => Sys2Proof.Machine.execDiv g d a b s
  | .divu g d a b => Sys2Proof.Machine.execDivu g d a b s
  | .rem g d a b => Sys2Proof.Machine.execRem g d a b s
  | .remu g d a b => Sys2Proof.Machine.execRemu g d a b s
  | .and g d a b => Sys2Proof.Machine.execAnd g d a b s
  | .or g d a b => Sys2Proof.Machine.execOr g d a b s
  | .xor g d a b => Sys2Proof.Machine.execXor g d a b s
  | .andn g d a b => Sys2Proof.Machine.execAndn g d a b s
  | .shl g d a b => Sys2Proof.Machine.execShl g d a b s
  | .shr g d a b => Sys2Proof.Machine.execShr g d a b s
  | .sar g d a b => Sys2Proof.Machine.execSar g d a b s
  | .rol g d a b => Sys2Proof.Machine.execRol g d a b s
  | .min g d a b => Sys2Proof.Machine.execMin g d a b s
  | .max g d a b => Sys2Proof.Machine.execMax g d a b s
  | .minu g d a b => Sys2Proof.Machine.execMinu g d a b s
  | .maxu g d a b => Sys2Proof.Machine.execMaxu g d a b s
  | .clz g d a => Sys2Proof.Machine.execClz g d a s
  | .popc g d a => Sys2Proof.Machine.execPopc g d a s
  | .bfx g d a b => Sys2Proof.Machine.execBfx g d a b s
  | .bfi g d a b => Sys2Proof.Machine.execBfi g d a b s
  | .sel g d a b => Sys2Proof.Machine.execSel g d a b s
  | .mov g d a => Sys2Proof.Machine.execMov g d a s
  | .cmpEq g d a b => Sys2Proof.Machine.execCmpEq g d a b s
  | .cmpNe g d a b => Sys2Proof.Machine.execCmpNe g d a b s
  | .cmpLt g d a b => Sys2Proof.Machine.execCmpLt g d a b s
  | .cmpLtu g d a b => Sys2Proof.Machine.execCmpLtu g d a b s
  | .cmpLe g d a b => Sys2Proof.Machine.execCmpLe g d a b s
  | .cmpLeu g d a b => Sys2Proof.Machine.execCmpLeu g d a b s
  | .cmpGt g d a b => Sys2Proof.Machine.execCmpGt g d a b s
  | .cmpGtu g d a b => Sys2Proof.Machine.execCmpGtu g d a b s
  | .cmpGe g d a b => Sys2Proof.Machine.execCmpGe g d a b s
  | .cmpGeu g d a b => Sys2Proof.Machine.execCmpGeu g d a b s
  | .add64 g d a b => Sys2Proof.Machine.execAdd64 g d a b s
  | .sub64 g d a b => Sys2Proof.Machine.execSub64 g d a b s
  | .mul64 g d a b => Sys2Proof.Machine.execMul64 g d a b s
  | .shl64 g d a b => Sys2Proof.Machine.execShl64 g d a b s
  | .shr64 g d a b => Sys2Proof.Machine.execShr64 g d a b s
  | .sar64 g d a b => Sys2Proof.Machine.execSar64 g d a b s
  | .adda g d a b => Sys2Proof.Machine.execAdda g d a b s
  | .prep g d a => Sys2Proof.Machine.execPrep g d a s
  | .xfer g a b => Sys2Proof.Machine.execXfer g a b s
  | .xfern g a b => Sys2Proof.Machine.execXfern g a b s
  | .call g d a b => Sys2Proof.Machine.execCall g d a b s
  | .ret g a b => Sys2Proof.Machine.execRet g a b s
  | .split d a b => Sys2Proof.Machine.execSplit d a b s
  | .join => Sys2Proof.Machine.execJoin s
  | .yield g => Sys2Proof.Machine.execYield g s
  | .halt g => Sys2Proof.Machine.execHalt g s
  | .nop g => Sys2Proof.Machine.execNop g s
  | .vany g d a => Sys2Proof.Machine.execVany g d a s
  | .vall g d a => Sys2Proof.Machine.execVall g d a s
  | .vbal g d a => Sys2Proof.Machine.execVbal g d a s
  | .vcnt g d a => Sys2Proof.Machine.execVcnt g d a s
  | .vffs g d a => Sys2Proof.Machine.execVffs g d a s
  | .vbcast g d a b => Sys2Proof.Machine.execVbcast g d a b s
  | .regroup d a b => Sys2Proof.Machine.execRegroup d a b s
  | .trap g a => Sys2Proof.Machine.execTrap g a s
  | .eret g => Sys2Proof.Machine.execEret g s
  | .csrr g d a => Sys2Proof.Machine.execCsrr g d a s
  | .csrw g d a => Sys2Proof.Machine.execCsrw g d a s
  | .capr g d a => Sys2Proof.Machine.execCapr g d a s
  | .wfi g => Sys2Proof.Machine.execWfi g s
  | .ifence g => Sys2Proof.Machine.execIfence g s
  | .mapinv g a b => Sys2Proof.Machine.execMapinv g a b s
  | .harvest g a b => Sys2Proof.Machine.execHarvest g a b s
  | .keyset g d a => Sys2Proof.Machine.execKeyset g d a s
  | .keykill g d a => Sys2Proof.Machine.execKeykill g d a s
  | .polld g d a b => Sys2Proof.Machine.execPolld g d a b s
  | .polsw g d a => Sys2Proof.Machine.execPolsw g d a s
  | .vadd g d a b => Sys2Proof.Machine.execVadd g d a b s
  | .vsub g d a b => Sys2Proof.Machine.execVsub g d a b s
  | .vmul g d a b => Sys2Proof.Machine.execVmul g d a b s
  | .vmulh g d a b => Sys2Proof.Machine.execVmulh g d a b s
  | .vand g d a b => Sys2Proof.Machine.execVand g d a b s
  | .vor g d a b => Sys2Proof.Machine.execVor g d a b s
  | .vxor g d a b => Sys2Proof.Machine.execVxor g d a b s
  | .vshl g d a b => Sys2Proof.Machine.execVshl g d a b s
  | .vshr g d a b => Sys2Proof.Machine.execVshr g d a b s
  | .vsar g d a b => Sys2Proof.Machine.execVsar g d a b s
  | .vmin g d a b => Sys2Proof.Machine.execVmin g d a b s
  | .vmax g d a b => Sys2Proof.Machine.execVmax g d a b s
  | .vminu g d a b => Sys2Proof.Machine.execVminu g d a b s
  | .vmaxu g d a b => Sys2Proof.Machine.execVmaxu g d a b s
  | .vabs g d a => Sys2Proof.Machine.execVabs g d a s
  | .vneg g d a => Sys2Proof.Machine.execVneg g d a s
  | .vclz g d a => Sys2Proof.Machine.execVclz g d a s
  | .vpopc g d a => Sys2Proof.Machine.execVpopc g d a s
  | .vadds g d a b => Sys2Proof.Machine.execVadds g d a b s
  | .vsubs g d a b => Sys2Proof.Machine.execVsubs g d a b s
  | .vmov g d a => Sys2Proof.Machine.execVmov g d a s
  | .vsel g d a b => Sys2Proof.Machine.execVsel g d a b s
  | .vmad g d a b => Sys2Proof.Machine.execVmad g d a b s
  | .vmadh g d a b => Sys2Proof.Machine.execVmadh g d a b s
  | .vdot4 g d a b => Sys2Proof.Machine.execVdot4 g d a b s
  | .vdot4u g d a b => Sys2Proof.Machine.execVdot4u g d a b s
  | .vcmpEq g d a b => Sys2Proof.Machine.execVcmpEq g d a b s
  | .vcmpNe g d a b => Sys2Proof.Machine.execVcmpNe g d a b s
  | .vcmpLt g d a b => Sys2Proof.Machine.execVcmpLt g d a b s
  | .vcmpLtu g d a b => Sys2Proof.Machine.execVcmpLtu g d a b s
  | .vcmpLe g d a b => Sys2Proof.Machine.execVcmpLe g d a b s
  | .vcmpLeu g d a b => Sys2Proof.Machine.execVcmpLeu g d a b s
  | .vcmpGt g d a b => Sys2Proof.Machine.execVcmpGt g d a b s
  | .vcmpGtu g d a b => Sys2Proof.Machine.execVcmpGtu g d a b s
  | .vcmpGe g d a b => Sys2Proof.Machine.execVcmpGe g d a b s
  | .vcmpGeu g d a b => Sys2Proof.Machine.execVcmpGeu g d a b s
  | .kand g d a b => Sys2Proof.Machine.execKand g d a b s
  | .kor g d a b => Sys2Proof.Machine.execKor g d a b s
  | .kxor g d a b => Sys2Proof.Machine.execKxor g d a b s
  | .knot g d a => Sys2Proof.Machine.execKnot g d a s
  | .kmov g d a => Sys2Proof.Machine.execKmov g d a s
  | .kfroms g d a => Sys2Proof.Machine.execKfroms g d a s
  | .ktos g d a => Sys2Proof.Machine.execKtos g d a s
  | .vfadd g d a b => Sys2Proof.Machine.execVfadd g d a b s
  | .vfsub g d a b => Sys2Proof.Machine.execVfsub g d a b s
  | .vfmul g d a b => Sys2Proof.Machine.execVfmul g d a b s
  | .vfma g d a b => Sys2Proof.Machine.execVfma g d a b s
  | .vfms g d a b => Sys2Proof.Machine.execVfms g d a b s
  | .vfnma g d a b => Sys2Proof.Machine.execVfnma g d a b s
  | .vfmin g d a b => Sys2Proof.Machine.execVfmin g d a b s
  | .vfmax g d a b => Sys2Proof.Machine.execVfmax g d a b s
  | .vfabs g d a => Sys2Proof.Machine.execVfabs g d a s
  | .vfneg g d a => Sys2Proof.Machine.execVfneg g d a s
  | .vfclass g d a => Sys2Proof.Machine.execVfclass g d a s
  | .vfrnd g d a b => Sys2Proof.Machine.execVfrnd g d a b s
  | .vdadd g d a b => Sys2Proof.Machine.execVdadd g d a b s
  | .vdsub g d a b => Sys2Proof.Machine.execVdsub g d a b s
  | .vdmul g d a b => Sys2Proof.Machine.execVdmul g d a b s
  | .vdfma g d a b => Sys2Proof.Machine.execVdfma g d a b s
  | .vdmin g d a b => Sys2Proof.Machine.execVdmin g d a b s
  | .vdmax g d a b => Sys2Proof.Machine.execVdmax g d a b s
  | .vfcmpEq dbl g d a b => Sys2Proof.Machine.execVfcmpEq dbl g d a b s
  | .vfcmpNe dbl g d a b => Sys2Proof.Machine.execVfcmpNe dbl g d a b s
  | .vfcmpLt dbl g d a b => Sys2Proof.Machine.execVfcmpLt dbl g d a b s
  | .vfcmpLe dbl g d a b => Sys2Proof.Machine.execVfcmpLe dbl g d a b s
  | .vfcmpGt dbl g d a b => Sys2Proof.Machine.execVfcmpGt dbl g d a b s
  | .vfcmpGe dbl g d a b => Sys2Proof.Machine.execVfcmpGe dbl g d a b s
  | .vfcmpUn dbl g d a b => Sys2Proof.Machine.execVfcmpUn dbl g d a b s
  | .vfcmpOrd dbl g d a b => Sys2Proof.Machine.execVfcmpOrd dbl g d a b s
  | .vcvt pair g d a b => Sys2Proof.Machine.execVcvt pair g d a b s
  | .pk4 g d a b => Sys2Proof.Machine.execPk4 g d a b s
  | .upk4 g d a b => Sys2Proof.Machine.execUpk4 g d a b s
  | .pk6 g d a => Sys2Proof.Machine.execPk6 g d a s
  | .upk6 g d a => Sys2Proof.Machine.execUpk6 g d a s
  | .pkts g d a b => Sys2Proof.Machine.execPkts g d a b s
  | .upkts g d a b => Sys2Proof.Machine.execUpkts g d a b s
  | .vscale g d a b => Sys2Proof.Machine.execVscale g d a b s
  | .srcp g d a => Sys2Proof.Machine.execSrcp g d a s
  | .srsq g d a => Sys2Proof.Machine.execSrsq g d a s
  | .ssqrt g d a => Sys2Proof.Machine.execSsqrt g d a s
  | .sexp2 g d a => Sys2Proof.Machine.execSexp2 g d a s
  | .slog2 g d a => Sys2Proof.Machine.execSlog2 g d a s
  | .ssin g d a => Sys2Proof.Machine.execSsin g d a s
  | .scos g d a => Sys2Proof.Machine.execScos g d a s
  | .stanh g d a => Sys2Proof.Machine.execStanh g d a s
  | .sact g d a => Sys2Proof.Machine.execSact g d a s
  | .atld g a => Sys2Proof.Machine.execAtld g a s
  | .atswap g => Sys2Proof.Machine.execAtswap g s
  | .nbl g d a b => Sys2Proof.Machine.execNbl g d a b s
  | .nbr g d a b => Sys2Proof.Machine.execNbr g d a b s
  | .nrot g d a b => Sys2Proof.Machine.execNrot g d a b s
  | .ld size scale g d a b => Sys2Proof.Machine.execLd size scale g d a b s
  | .st size scale g d a b => Sys2Proof.Machine.execSt size scale g d a b s
  | .sld size scale g d a b => Sys2Proof.Machine.execSld size scale g d a b s
  | .sst size scale g d a b => Sys2Proof.Machine.execSst size scale g d a b s
  | .ldsp size scale g d a b => Sys2Proof.Machine.execLdsp size scale g d a b s
  | .stsp size scale g d a b => Sys2Proof.Machine.execStsp size scale g d a b s
  | .tld size g d a b => Sys2Proof.Machine.execTld size g d a b s
  | .tst size g d a b => Sys2Proof.Machine.execTst size g d a b s
  | .ldacq scope size g d a b => Sys2Proof.Machine.execLdacq scope size g d a b s
  | .strel scope size g d a b => Sys2Proof.Machine.execStrel scope size g d a b s
  | .fence scope ack log g => Sys2Proof.Machine.execFence scope ack log g s
  | .bar g d a b => Sys2Proof.Machine.execBar g d a b s
  | .bara g d a b => Sys2Proof.Machine.execBara g d a b s
  | .barw g d a b => Sys2Proof.Machine.execBarw g d a b s
  | .dbar g d => Sys2Proof.Machine.execDbar g d s
  | .waitw g d a b => Sys2Proof.Machine.execWaitw g d a b s
  | .wakew g a => Sys2Proof.Machine.execWakew g a s
  | .cpy g d a => Sys2Proof.Machine.execCpy g d a s
  | .give g a b => Sys2Proof.Machine.execGive g a b s
  | .take g a b => Sys2Proof.Machine.execTake g a b s
  | .hwait g d a => Sys2Proof.Machine.execHwait g d a s
  | .htest g d a => Sys2Proof.Machine.execHtest g d a s
  | .hcancel g a => Sys2Proof.Machine.execHcancel g a s
  | .hpass g d a b => Sys2Proof.Machine.execHpass g d a b s
  | .spawn g d a b => Sys2Proof.Machine.execSpawn g d a b s
  | .steal g d b => Sys2Proof.Machine.execSteal g d b s
  | .tdone g d a b => Sys2Proof.Machine.execTdone g d a b s
  | .remq g d a b => Sys2Proof.Machine.execRemq g d a b s
  | .pwrget g d a => Sys2Proof.Machine.execPwrget g d a s
  | .pwrrel g a => Sys2Proof.Machine.execPwrrel g a s
  | .wsig g d a b => Sys2Proof.Machine.execWsig g d a b s
  | .allred g d a b => Sys2Proof.Machine.execAllred g d a b s
  | .wincfg g d a b => Sys2Proof.Machine.execWincfg g d a b s
  | .ntime g d a => Sys2Proof.Machine.execNtime g d a s
  | .skclr g a b => Sys2Proof.Machine.execSkclr g a b s
  | .skins g d a b => Sys2Proof.Machine.execSkins g d a b s
  | .skrecon g d a => Sys2Proof.Machine.execSkrecon g d a s
  | .skstat g d a => Sys2Proof.Machine.execSkstat g d a s
  | .aadd scope dbl g d a b => Sys2Proof.Machine.execAadd scope dbl g d a b s
  | .asub scope dbl g d a b => Sys2Proof.Machine.execAsub scope dbl g d a b s
  | .amin scope dbl g d a b => Sys2Proof.Machine.execAmin scope dbl g d a b s
  | .amax scope dbl g d a b => Sys2Proof.Machine.execAmax scope dbl g d a b s
  | .aminu scope dbl g d a b => Sys2Proof.Machine.execAminu scope dbl g d a b s
  | .amaxu scope dbl g d a b => Sys2Proof.Machine.execAmaxu scope dbl g d a b s
  | .aand scope dbl g d a b => Sys2Proof.Machine.execAand scope dbl g d a b s
  | .aor scope dbl g d a b => Sys2Proof.Machine.execAor scope dbl g d a b s
  | .axor scope dbl g d a b => Sys2Proof.Machine.execAxor scope dbl g d a b s
  | .axchg scope dbl g d a b => Sys2Proof.Machine.execAxchg scope dbl g d a b s
  | .acas scope dbl g d a b => Sys2Proof.Machine.execAcas scope dbl g d a b s
  | .afadd scope dbl g d a b => Sys2Proof.Machine.execAfadd scope dbl g d a b s
  | .wload a b tok => Sys2Proof.Machine.execWload a b tok s
  | .rload a b c tok => Sys2Proof.Machine.execRload a b c tok s
  | .mmul a b c tok => Sys2Proof.Machine.execMmul a b c tok s
  | .chb a b c tok => Sys2Proof.Machine.execChb a b c tok s
  | .che c tok => Sys2Proof.Machine.execChe c tok s
  | .accst a b c tok => Sys2Proof.Machine.execAccst a b c tok s
  | .nest a b c => Sys2Proof.Machine.execNest a b c s
  | .go a => Sys2Proof.Machine.execGo a s
  | .vcset a tok => Sys2Proof.Machine.execVcset a tok s
  | .shdw c tok => Sys2Proof.Machine.execShdw c tok s
  | .scmt c tok => Sys2Proof.Machine.execScmt c tok s
  | .sdsc c tok => Sys2Proof.Machine.execSdsc c tok s
  | .qfuse c => Sys2Proof.Machine.execQfuse c s
  | .qsplit => Sys2Proof.Machine.execQsplit s
  | .movCompact a b => Sys2Proof.Machine.execMovCompact a b s
  | .addCompact a b => Sys2Proof.Machine.execAddCompact a b s
  | .subCompact a b => Sys2Proof.Machine.execSubCompact a b s
  | .andCompact a b => Sys2Proof.Machine.execAndCompact a b s
  | .orCompact a b => Sys2Proof.Machine.execOrCompact a b s
  | .xorCompact a b => Sys2Proof.Machine.execXorCompact a b s
  | .addImmCompact a b => Sys2Proof.Machine.execAddImmCompact a b s
  | .shlCompact a b => Sys2Proof.Machine.execShlCompact a b s
  | .shrCompact a b => Sys2Proof.Machine.execShrCompact a b s
  | .sarCompact a b => Sys2Proof.Machine.execSarCompact a b s
  | .movImmCompact a b => Sys2Proof.Machine.execMovImmCompact a b s
  | .vmovCompact a b => Sys2Proof.Machine.execVmovCompact a b s
  | .vaddCompact a b => Sys2Proof.Machine.execVaddCompact a b s
  | .vfaddCompact a b => Sys2Proof.Machine.execVfaddCompact a b s
  | .vfmulCompact a b => Sys2Proof.Machine.execVfmulCompact a b s
  | .kmovCompact a b => Sys2Proof.Machine.execKmovCompact a b s
  | .nopCompact => Sys2Proof.Machine.execNopCompact s
  | .xferCompact a b => Sys2Proof.Machine.execXferCompact a b s
  | .xfernCompact a b => Sys2Proof.Machine.execXfernCompact a b s
  | .polLdi d imm => Sys2Proof.Machine.execPolLdi d imm s
  | .polLdih d imm => Sys2Proof.Machine.execPolLdih d imm s
  | .polAdd d a b => Sys2Proof.Machine.execPolAdd d a b s
  | .polSub d a b => Sys2Proof.Machine.execPolSub d a b s
  | .polAnd d a b => Sys2Proof.Machine.execPolAnd d a b s
  | .polOr d a b => Sys2Proof.Machine.execPolOr d a b s
  | .polXor d a b => Sys2Proof.Machine.execPolXor d a b s
  | .polMinu d a b => Sys2Proof.Machine.execPolMinu d a b s
  | .polMaxu d a b => Sys2Proof.Machine.execPolMaxu d a b s
  | .polShl d a imm => Sys2Proof.Machine.execPolShl d a imm s
  | .polShr d a imm => Sys2Proof.Machine.execPolShr d a imm s
  | .polAddi d a imm => Sys2Proof.Machine.execPolAddi d a imm s
  | .polRqf d a f => Sys2Proof.Machine.execPolRqf d a f s
  | .polRuf d a f => Sys2Proof.Machine.execPolRuf d a f s
  | .polBeq a b off => Sys2Proof.Machine.execPolBeq a b off s
  | .polBne a b off => Sys2Proof.Machine.execPolBne a b off s
  | .polBltu a b off => Sys2Proof.Machine.execPolBltu a b off s
  | .polBgeu a b off => Sys2Proof.Machine.execPolBgeu a b off s
  | .polArgminq d a f => Sys2Proof.Machine.execPolArgminq d a f s
  | .polArgmaxq d a f => Sys2Proof.Machine.execPolArgmaxq d a f s
  | .polArgminu d a f => Sys2Proof.Machine.execPolArgminu d a f s
  | .polArgmaxu d a f => Sys2Proof.Machine.execPolArgmaxu d a f s
  | .polLdp d n => Sys2Proof.Machine.execPolLdp d n s
  | .polStp a n => Sys2Proof.Machine.execPolStp a n s
  | .polDecPick a b => Sys2Proof.Machine.execPolDecPick a b s
  | .polDecKeep a b => Sys2Proof.Machine.execPolDecKeep a b s
  | .polDecPreempt a b => Sys2Proof.Machine.execPolDecPreempt a b s
  | .polDecKill a b => Sys2Proof.Machine.execPolDecKill a b s
  | .polDecResume a b => Sys2Proof.Machine.execPolDecResume a b s
  | .polDecNotify a b => Sys2Proof.Machine.execPolDecNotify a b s
  | .polDecSuspend a b => Sys2Proof.Machine.execPolDecSuspend a b s
  | .polDecFallback a b => Sys2Proof.Machine.execPolDecFallback a b s
  | .policyDecisionStart p => Sys2Proof.Machine.execPolicyDecisionStart p s
  | .budgetOverrun p => Sys2Proof.Machine.execBudgetOverrun p s
  | .sliceEnd u => Sys2Proof.Machine.execSliceEnd u s
  | .packageReset cold => Sys2Proof.Machine.execPackageReset cold s
  | .bootStage n cfg => Sys2Proof.Machine.execBootStage n cfg s
  | .enumeration die => Sys2Proof.Machine.execEnumeration die s
  | .heartbeat die answered temps => Sys2Proof.Machine.execHeartbeat die answered temps s
  | .isolation die => Sys2Proof.Machine.execIsolation die s
  | .chipletSelfTest die mask => Sys2Proof.Machine.execChipletSelfTest die mask s
  | .staleResponseDrop reqDie reqInc rspDie rspInc => Sys2Proof.Machine.execStaleResponseDrop reqDie reqInc rspDie rspInc s
  | .patrolScrub line ecc later => Sys2Proof.Machine.execPatrolScrub line ecc later s
  | .cxlDeviceLoss port => Sys2Proof.Machine.execCxlDeviceLoss port s
  | .orngLimWrite p v => Sys2Proof.Machine.execOrngLimWrite p v s
  | .orngSplitWrite p v => Sys2Proof.Machine.execOrngSplitWrite p v s
  | .wayCleaning w => Sys2Proof.Machine.execWayCleaning w s
  | .orangeryEpoch => Sys2Proof.Machine.execOrangeryEpoch s
  | .pageWalk part key tile need => Sys2Proof.Machine.execPageWalk part key tile need s
  | .nextPageWalk r => Sys2Proof.Machine.execNextPageWalk r s
  | .faultResolve n => Sys2Proof.Machine.execFaultResolve n s
  | .faultUnresolvable n => Sys2Proof.Machine.execFaultUnresolvable n s
  | .sideLogReplay u n => Sys2Proof.Machine.execSideLogReplay u n s
  | .loadPerform ag n install ecc => Sys2Proof.Machine.execLoadPerform ag n install ecc s
  | .storePerform ag n => Sys2Proof.Machine.execStorePerform ag n s
  | .writePropagate ag n => Sys2Proof.Machine.execWritePropagate ag n s
  | .cacheEviction level idx pa => Sys2Proof.Machine.execCacheEviction level idx pa s
  | .acquire ag n => Sys2Proof.Machine.execAcquire ag n s
  | .release ag n => Sys2Proof.Machine.execRelease ag n s
  | .atomicPerform ag n ecc => Sys2Proof.Machine.execAtomicPerform ag n ecc s
  | .writeErrorRemoval ag n => Sys2Proof.Machine.execWriteErrorRemoval ag n s
  | .windowDeliver n => Sys2Proof.Machine.execWindowDeliver n s
  | .windowAck n ok => Sys2Proof.Machine.execWindowAck n ok s
  | .windowTimeout n => Sys2Proof.Machine.execWindowTimeout n s
  | .requestTimeout ag n => Sys2Proof.Machine.execRequestTimeout ag n s
  | .inboundRemoteAccess r ecc => Sys2Proof.Machine.execInboundRemoteAccess r ecc s
  | .requestReissue n => Sys2Proof.Machine.execRequestReissue n s
  | .flitAck link base bitmap => Sys2Proof.Machine.execFlitAck link base bitmap s
  | .linkWidthChange link width => Sys2Proof.Machine.execLinkWidthChange link width s
  | .laneFailure link width => Sys2Proof.Machine.execLaneFailure link width s
  | .timeSync corr => Sys2Proof.Machine.execTimeSync corr s
  | .reductionFold n => Sys2Proof.Machine.execReductionFold n s
  | .ueRequest r => Sys2Proof.Machine.execUeRequest r s
  | .managementRequest r => Sys2Proof.Machine.execManagementRequest r s
  | .attestationRequest part nonce => Sys2Proof.Machine.execAttestationRequest part nonce s
  | .circWrite c v => Sys2Proof.Machine.execCircWrite c v s
  | .circuitUp c => Sys2Proof.Machine.execCircuitUp c s
  | .circuitDown c => Sys2Proof.Machine.execCircuitDown c s
  | .copyStart n => Sys2Proof.Machine.execCopyStart n s
  | .copyChunk n ecc => Sys2Proof.Machine.execCopyChunk n ecc s
  | .copyCompletion n => Sys2Proof.Machine.execCopyCompletion n s
  | .sfuEntry cu => Sys2Proof.Machine.execSfuEntry cu s
  | .engineEntryIssue q which ecc => Sys2Proof.Machine.execEngineEntryIssue q which ecc s
  | .engineEntryRetire q which => Sys2Proof.Machine.execEngineEntryRetire q which s
  | .nestEmit q => Sys2Proof.Machine.execNestEmit q s
  | .remqBlockDispatch q => Sys2Proof.Machine.execRemqBlockDispatch q s
  | .reconcileMatch n peer => Sys2Proof.Machine.execReconcileMatch n peer s
  | .reconcileWaitExpiry n => Sys2Proof.Machine.execReconcileWaitExpiry n s
  | .sketchPeel n fail => Sys2Proof.Machine.execSketchPeel n fail s
  | .fullSetTransfer n fail => Sys2Proof.Machine.execFullSetTransfer n fail s
  | .spanTransaction req => Sys2Proof.Machine.execSpanTransaction req s
  | .spanEviction sector n => Sys2Proof.Machine.execSpanEviction sector n s
  | .launchAppend p q hdr codes objs => Sys2Proof.Machine.execLaunchAppend p q hdr codes objs s
  | .groupStart n => Sys2Proof.Machine.execGroupStart n s
  | .taskStart cu slot => Sys2Proof.Machine.execTaskStart cu slot s
  | .heldFirePlace n => Sys2Proof.Machine.execHeldFirePlace n s
  | .contextSave u => Sys2Proof.Machine.execContextSave u s
  | .contextRestore n => Sys2Proof.Machine.execContextRestore n s
  | .migration u v => Sys2Proof.Machine.execMigration u v s
  | .opPointChange die => Sys2Proof.Machine.execOpPointChange die s
  | .powerWindow draw => Sys2Proof.Machine.execPowerWindow draw s
  | .asyncTrap ag => Sys2Proof.Machine.execAsyncTrap ag s
  | .waitwYield ag => Sys2Proof.Machine.execWaitwYield ag s
  | .waitwReread ag => Sys2Proof.Machine.execWaitwReread ag s
  | .waitwTimer ag => Sys2Proof.Machine.execWaitwTimer ag s
  | .ntimeDeadline ag => Sys2Proof.Machine.execNtimeDeadline ag s
  | .wfiTimeout ag => Sys2Proof.Machine.execWfiTimeout ag s
  | .svnFuseWrite v => Sys2Proof.Machine.execSvnFuseWrite v s
  | .fenceCu die c answers => Sys2Proof.Machine.execFenceCu die c answers s
  | .fenceQuadrant die q answers => Sys2Proof.Machine.execFenceQuadrant die q answers s
  | .fenceDramBank stack bank => Sys2Proof.Machine.execFenceDramBank stack bank s
  | .fenceLinkLane die lane => Sys2Proof.Machine.execFenceLinkLane die lane s
  | .fenceDie die answers => Sys2Proof.Machine.execFenceDie die answers s
  | .registerWrite off v => Sys2Proof.Machine.execRegisterWrite off v s
  | .remoteResponse ag n r => Sys2Proof.Machine.execRemoteResponse ag n r s
  | .reconcileStart n => Sys2Proof.Machine.execReconcileStart n s

end Sys2Proof.Machine
end

