-- ==== Sys2Proof/Machine/Interlock.lean ====
section
/-! DEFINITION. The scoreboard (R100, R183): the registers an instruction reads or writes, and the registers that open
loads, returning atomics and SFU entries will still write. -/
namespace Sys2Proof.Machine

/-- Consecutive registers of one file: vector or scalar, the first, how many. -/
structure Use where
  vec : Bool
  r   : Nat
  n   : Nat
  deriving DecidableEq, Repr

end Sys2Proof.Machine

namespace Sys2Proof
open Sys2Proof.Machine

/-- The registers a source names; none for a literal. -/
def Src.use (v : Bool) (n : Nat) : Src → List Use
  | .reg c => [⟨v, c.toNat, n⟩]
  | .lit _ => []

/-- The registers an instruction reads or writes, in the wave profile or outside it. -/
def Instr.uses (w : Bool) : Instr → List Use
  | .add _ d a b => [⟨false, d.toNat, 1⟩] ++ a.use false 1 ++ b.use false 1
  | .sub _ d a b => [⟨false, d.toNat, 1⟩] ++ a.use false 1 ++ b.use false 1
  | .mul _ d a b => [⟨false, d.toNat, 1⟩] ++ a.use false 1 ++ b.use false 1
  | .mulh _ d a b => [⟨false, d.toNat, 1⟩] ++ a.use false 1 ++ b.use false 1
  | .mulhu _ d a b => [⟨false, d.toNat, 1⟩] ++ a.use false 1 ++ b.use false 1
  | .div _ d a b => [⟨false, d.toNat, 1⟩] ++ a.use false 1 ++ b.use false 1
  | .divu _ d a b => [⟨false, d.toNat, 1⟩] ++ a.use false 1 ++ b.use false 1
  | .rem _ d a b => [⟨false, d.toNat, 1⟩] ++ a.use false 1 ++ b.use false 1
  | .remu _ d a b => [⟨false, d.toNat, 1⟩] ++ a.use false 1 ++ b.use false 1
  | .and _ d a b => [⟨false, d.toNat, 1⟩] ++ a.use false 1 ++ b.use false 1
  | .or _ d a b => [⟨false, d.toNat, 1⟩] ++ a.use false 1 ++ b.use false 1
  | .xor _ d a b => [⟨false, d.toNat, 1⟩] ++ a.use false 1 ++ b.use false 1
  | .andn _ d a b => [⟨false, d.toNat, 1⟩] ++ a.use false 1 ++ b.use false 1
  | .shl _ d a b => [⟨false, d.toNat, 1⟩] ++ a.use false 1 ++ b.use false 1
  | .shr _ d a b => [⟨false, d.toNat, 1⟩] ++ a.use false 1 ++ b.use false 1
  | .sar _ d a b => [⟨false, d.toNat, 1⟩] ++ a.use false 1 ++ b.use false 1
  | .rol _ d a b => [⟨false, d.toNat, 1⟩] ++ a.use false 1 ++ b.use false 1
  | .min _ d a b => [⟨false, d.toNat, 1⟩] ++ a.use false 1 ++ b.use false 1
  | .max _ d a b => [⟨false, d.toNat, 1⟩] ++ a.use false 1 ++ b.use false 1
  | .minu _ d a b => [⟨false, d.toNat, 1⟩] ++ a.use false 1 ++ b.use false 1
  | .maxu _ d a b => [⟨false, d.toNat, 1⟩] ++ a.use false 1 ++ b.use false 1
  | .clz _ d a => [⟨false, d.toNat, 1⟩] ++ a.use false 1
  | .popc _ d a => [⟨false, d.toNat, 1⟩] ++ a.use false 1
  | .bfx _ d a b => [⟨false, d.toNat, 1⟩] ++ a.use false 1 ++ b.use false 1
  | .bfi _ d a b => [⟨false, d.toNat, 1⟩] ++ a.use false 1 ++ b.use false 1
  | .sel _ d a b => [⟨false, d.toNat, 1⟩] ++ a.use false 1 ++ b.use false 1
  | .mov _ d a => [⟨false, d.toNat, 1⟩] ++ a.use false 1
  | .cmpEq _ d a b => [⟨false, d.toNat, 1⟩] ++ a.use false 1 ++ b.use false 1
  | .cmpNe _ d a b => [⟨false, d.toNat, 1⟩] ++ a.use false 1 ++ b.use false 1
  | .cmpLt _ d a b => [⟨false, d.toNat, 1⟩] ++ a.use false 1 ++ b.use false 1
  | .cmpLtu _ d a b => [⟨false, d.toNat, 1⟩] ++ a.use false 1 ++ b.use false 1
  | .cmpLe _ d a b => [⟨false, d.toNat, 1⟩] ++ a.use false 1 ++ b.use false 1
  | .cmpLeu _ d a b => [⟨false, d.toNat, 1⟩] ++ a.use false 1 ++ b.use false 1
  | .cmpGt _ d a b => [⟨false, d.toNat, 1⟩] ++ a.use false 1 ++ b.use false 1
  | .cmpGtu _ d a b => [⟨false, d.toNat, 1⟩] ++ a.use false 1 ++ b.use false 1
  | .cmpGe _ d a b => [⟨false, d.toNat, 1⟩] ++ a.use false 1 ++ b.use false 1
  | .cmpGeu _ d a b => [⟨false, d.toNat, 1⟩] ++ a.use false 1 ++ b.use false 1
  | .add64 _ d a b => [⟨false, d.toNat, 2⟩] ++ a.use false 2 ++ b.use false 2
  | .sub64 _ d a b => [⟨false, d.toNat, 2⟩] ++ a.use false 2 ++ b.use false 2
  | .mul64 _ d a b => [⟨false, d.toNat, 2⟩] ++ a.use false 2 ++ b.use false 2
  | .shl64 _ d a b => [⟨false, d.toNat, 2⟩] ++ a.use false 2 ++ b.use false 1
  | .shr64 _ d a b => [⟨false, d.toNat, 2⟩] ++ a.use false 2 ++ b.use false 1
  | .sar64 _ d a b => [⟨false, d.toNat, 2⟩] ++ a.use false 2 ++ b.use false 1
  | .adda _ d a b => [⟨false, d.toNat, 2⟩] ++ a.use false 2 ++ b.use false 1
  | .prep _ _ a => a.use false 2
  | .xfer _ _ b => b.use false 1
  | .xfern _ _ b => b.use false 1
  | .call _ d _ b => [⟨false, d.toNat, 2⟩] ++ b.use false 1
  | .ret _ _ b => b.use false 1
  | .vany _ d _ => [⟨false, d.toNat, 1⟩]
  | .vall _ d _ => [⟨false, d.toNat, 1⟩]
  | .vbal _ d _ => [⟨false, d.toNat, 3⟩]
  | .vcnt _ d _ => [⟨false, d.toNat, 1⟩]
  | .vffs _ d _ => [⟨false, d.toNat, 1⟩]
  | .vbcast _ d a b => [⟨false, d.toNat, 1⟩] ++ a.use true 1 ++ b.use false 1
  | .regroup d a b => [⟨false, d.toNat, 1⟩] ++ a.use false 1 ++ b.use false 1
  | .trap _ a => a.use false 1
  | .csrr _ d a => [⟨false, d.toNat, (if csr64 a then 2 else 1)⟩]
  | .csrw _ d a => a.use false (if csr64 d then 2 else 1)
  | .capr _ d a => [⟨false, d.toNat, 1⟩] ++ a.use false 1
  | .mapinv _ a b => a.use false 2 ++ [⟨false, b.toNat, 2⟩]
  | .harvest _ a b => a.use false 2 ++ [⟨false, b.toNat, 2⟩]
  | .keyset _ d a => [⟨false, d.toNat, 1⟩] ++ a.use false 1
  | .keykill _ d a => [⟨false, d.toNat, 1⟩] ++ a.use false 1
  | .polld _ d a b => [⟨false, d.toNat, 1⟩] ++ a.use false 2 ++ b.use false 1
  | .polsw _ d a => [⟨false, d.toNat, 1⟩] ++ a.use false 1
  | .vadd _ d a b => [⟨true, d.toNat, 1⟩] ++ a.use true 1 ++ b.use true 1
  | .vsub _ d a b => [⟨true, d.toNat, 1⟩] ++ a.use true 1 ++ b.use true 1
  | .vmul _ d a b => [⟨true, d.toNat, 1⟩] ++ a.use true 1 ++ b.use true 1
  | .vmulh _ d a b => [⟨true, d.toNat, 1⟩] ++ a.use true 1 ++ b.use true 1
  | .vand _ d a b => [⟨true, d.toNat, 1⟩] ++ a.use true 1 ++ b.use true 1
  | .vor _ d a b => [⟨true, d.toNat, 1⟩] ++ a.use true 1 ++ b.use true 1
  | .vxor _ d a b => [⟨true, d.toNat, 1⟩] ++ a.use true 1 ++ b.use true 1
  | .vshl _ d a b => [⟨true, d.toNat, 1⟩] ++ a.use true 1 ++ b.use true 1
  | .vshr _ d a b => [⟨true, d.toNat, 1⟩] ++ a.use true 1 ++ b.use true 1
  | .vsar _ d a b => [⟨true, d.toNat, 1⟩] ++ a.use true 1 ++ b.use true 1
  | .vmin _ d a b => [⟨true, d.toNat, 1⟩] ++ a.use true 1 ++ b.use true 1
  | .vmax _ d a b => [⟨true, d.toNat, 1⟩] ++ a.use true 1 ++ b.use true 1
  | .vminu _ d a b => [⟨true, d.toNat, 1⟩] ++ a.use true 1 ++ b.use true 1
  | .vmaxu _ d a b => [⟨true, d.toNat, 1⟩] ++ a.use true 1 ++ b.use true 1
  | .vabs _ d a => [⟨true, d.toNat, 1⟩] ++ a.use true 1
  | .vneg _ d a => [⟨true, d.toNat, 1⟩] ++ a.use true 1
  | .vclz _ d a => [⟨true, d.toNat, 1⟩] ++ a.use true 1
  | .vpopc _ d a => [⟨true, d.toNat, 1⟩] ++ a.use true 1
  | .vadds _ d a b => [⟨true, d.toNat, 1⟩] ++ a.use true 1 ++ b.use true 1
  | .vsubs _ d a b => [⟨true, d.toNat, 1⟩] ++ a.use true 1 ++ b.use true 1
  | .vmov _ d a => [⟨true, d.toNat, 1⟩] ++ a.use true 1
  | .vsel _ d a b => [⟨true, d.toNat, 1⟩] ++ a.use true 1 ++ b.use true 1
  | .vmad _ d a b => [⟨true, d.toNat, 1⟩] ++ a.use true 1 ++ b.use true 1
  | .vmadh _ d a b => [⟨true, d.toNat, 1⟩] ++ a.use true 1 ++ b.use true 1
  | .vdot4 _ d a b => [⟨true, d.toNat, 1⟩] ++ a.use true 1 ++ b.use true 1
  | .vdot4u _ d a b => [⟨true, d.toNat, 1⟩] ++ a.use true 1 ++ b.use true 1
  | .vcmpEq _ _ a b => a.use true 1 ++ b.use true 1
  | .vcmpNe _ _ a b => a.use true 1 ++ b.use true 1
  | .vcmpLt _ _ a b => a.use true 1 ++ b.use true 1
  | .vcmpLtu _ _ a b => a.use true 1 ++ b.use true 1
  | .vcmpLe _ _ a b => a.use true 1 ++ b.use true 1
  | .vcmpLeu _ _ a b => a.use true 1 ++ b.use true 1
  | .vcmpGt _ _ a b => a.use true 1 ++ b.use true 1
  | .vcmpGtu _ _ a b => a.use true 1 ++ b.use true 1
  | .vcmpGe _ _ a b => a.use true 1 ++ b.use true 1
  | .vcmpGeu _ _ a b => a.use true 1 ++ b.use true 1
  | .kfroms _ _ a => [⟨false, a.toNat, 3⟩]
  | .ktos _ d _ => [⟨false, d.toNat, 3⟩]
  | .vfadd _ d a b => [⟨true, d.toNat, 1⟩] ++ a.use true 1 ++ b.use true 1
  | .vfsub _ d a b => [⟨true, d.toNat, 1⟩] ++ a.use true 1 ++ b.use true 1
  | .vfmul _ d a b => [⟨true, d.toNat, 1⟩] ++ a.use true 1 ++ b.use true 1
  | .vfma _ d a b => [⟨true, d.toNat, 1⟩] ++ a.use true 1 ++ b.use true 1
  | .vfms _ d a b => [⟨true, d.toNat, 1⟩] ++ a.use true 1 ++ b.use true 1
  | .vfnma _ d a b => [⟨true, d.toNat, 1⟩] ++ a.use true 1 ++ b.use true 1
  | .vfmin _ d a b => [⟨true, d.toNat, 1⟩] ++ a.use true 1 ++ b.use true 1
  | .vfmax _ d a b => [⟨true, d.toNat, 1⟩] ++ a.use true 1 ++ b.use true 1
  | .vfabs _ d a => [⟨true, d.toNat, 1⟩] ++ a.use true 1
  | .vfneg _ d a => [⟨true, d.toNat, 1⟩] ++ a.use true 1
  | .vfclass _ d a => [⟨true, d.toNat, 1⟩] ++ a.use true 1
  | .vfrnd _ d a _ => [⟨true, d.toNat, 1⟩] ++ a.use true 1
  | .vdadd _ d a b => [⟨true, d.toNat, 2⟩] ++ a.use true 2 ++ b.use true 2
  | .vdsub _ d a b => [⟨true, d.toNat, 2⟩] ++ a.use true 2 ++ b.use true 2
  | .vdmul _ d a b => [⟨true, d.toNat, 2⟩] ++ a.use true 2 ++ b.use true 2
  | .vdfma _ d a b => [⟨true, d.toNat, 2⟩] ++ a.use true 2 ++ b.use true 2
  | .vdmin _ d a b => [⟨true, d.toNat, 2⟩] ++ a.use true 2 ++ b.use true 2
  | .vdmax _ d a b => [⟨true, d.toNat, 2⟩] ++ a.use true 2 ++ b.use true 2
  | .vfcmpEq dbl _ _ a b => a.use true (if dbl then 2 else 1) ++ b.use true (if dbl then 2 else 1)
  | .vfcmpNe dbl _ _ a b => a.use true (if dbl then 2 else 1) ++ b.use true (if dbl then 2 else 1)
  | .vfcmpLt dbl _ _ a b => a.use true (if dbl then 2 else 1) ++ b.use true (if dbl then 2 else 1)
  | .vfcmpLe dbl _ _ a b => a.use true (if dbl then 2 else 1) ++ b.use true (if dbl then 2 else 1)
  | .vfcmpGt dbl _ _ a b => a.use true (if dbl then 2 else 1) ++ b.use true (if dbl then 2 else 1)
  | .vfcmpGe dbl _ _ a b => a.use true (if dbl then 2 else 1) ++ b.use true (if dbl then 2 else 1)
  | .vfcmpUn dbl _ _ a b => a.use true (if dbl then 2 else 1) ++ b.use true (if dbl then 2 else 1)
  | .vfcmpOrd dbl _ _ a b => a.use true (if dbl then 2 else 1) ++ b.use true (if dbl then 2 else 1)
  | .vcvt pair _ d a _ => [⟨true, d.toNat, (if cvtDst64 pair then 2 else 1)⟩] ++ a.use true (if cvtSrc64 pair then 2 else 1)
  | .pk4 _ d a b => [⟨true, d.toNat, 1⟩] ++ a.use true 1 ++ b.use true 1
  | .upk4 _ d a b => [⟨true, d.toNat, 1⟩] ++ a.use true 1 ++ b.use true 1
  | .pk6 _ d a => [⟨true, d.toNat, 3⟩] ++ [⟨true, a.toNat, 4⟩]
  | .upk6 _ d a => [⟨true, d.toNat, 4⟩] ++ [⟨true, a.toNat, 3⟩]
  | .pkts _ d a b => [⟨true, d.toNat, 1⟩] ++ a.use true 1 ++ b.use true 1
  | .upkts _ d a b => [⟨true, d.toNat, 1⟩] ++ a.use true 1 ++ b.use true 1
  | .vscale _ d a b => [⟨true, d.toNat, 1⟩] ++ a.use true 1 ++ b.use true 1
  | .srcp _ d a => [⟨true, d.toNat, 1⟩] ++ a.use true 1
  | .srsq _ d a => [⟨true, d.toNat, 1⟩] ++ a.use true 1
  | .ssqrt _ d a => [⟨true, d.toNat, 1⟩] ++ a.use true 1
  | .sexp2 _ d a => [⟨true, d.toNat, 1⟩] ++ a.use true 1
  | .slog2 _ d a => [⟨true, d.toNat, 1⟩] ++ a.use true 1
  | .ssin _ d a => [⟨true, d.toNat, 1⟩] ++ a.use true 1
  | .scos _ d a => [⟨true, d.toNat, 1⟩] ++ a.use true 1
  | .stanh _ d a => [⟨true, d.toNat, 1⟩] ++ a.use true 1
  | .sact _ d a => [⟨true, d.toNat, 1⟩] ++ a.use true 1
  | .atld _ a => a.use false 1
  | .nbl _ d a _ => [⟨true, d.toNat, 1⟩] ++ a.use true 1
  | .nbr _ d a _ => [⟨true, d.toNat, 1⟩] ++ a.use true 1
  | .nrot _ d a b => [⟨true, d.toNat, 1⟩] ++ a.use true 1 ++ b.use true 1
  | .ld size _ _ d a b => [⟨true, d.toNat, (if size = 5 then 2 else 1)⟩] ++ a.use false 2 ++ b.use true 1
  | .st size _ _ d a b => [⟨true, d.toNat, (if size = 5 then 2 else 1)⟩] ++ a.use false 2 ++ b.use true 1
  | .sld size _ _ d a b => [⟨false, d.toNat, (if size = 5 then 2 else 1)⟩] ++ a.use false 2 ++ b.use false 1
  | .sst size _ _ d a b => [⟨false, d.toNat, (if size = 5 then 2 else 1)⟩] ++ a.use false 2 ++ b.use false 1
  | .ldsp size _ _ d a b => [⟨w, d.toNat, (if size = 5 then 2 else 1)⟩] ++ a.use false 1 ++ b.use w 1
  | .stsp size _ _ d a b => [⟨w, d.toNat, (if size = 5 then 2 else 1)⟩] ++ a.use false 1 ++ b.use w 1
  | .tld size _ d _ b => [⟨true, d.toNat, (if size = 5 then 2 else 1)⟩] ++ [⟨true, b.toNat, 10⟩]
  | .tst size _ d _ b => [⟨true, d.toNat, (if size = 5 then 2 else 1)⟩] ++ [⟨true, b.toNat, 10⟩]
  | .ldacq _ size _ d a b => [⟨false, d.toNat, (if size = 1 then 2 else 1)⟩] ++ a.use false 2 ++ b.use false 1
  | .strel _ size _ d a b => [⟨false, d.toNat, (if size = 1 then 2 else 1)⟩] ++ a.use false 2 ++ b.use false 1
  | .bar _ d a b => [⟨false, d.toNat, 1⟩] ++ a.use false 1 ++ b.use false 1
  | .bara _ d a b => [⟨false, d.toNat, 1⟩] ++ a.use false 1 ++ b.use false 1
  | .barw _ d a b => [⟨false, d.toNat, 1⟩] ++ a.use false 1 ++ b.use false 1
  | .dbar _ d => [⟨false, d.toNat, 1⟩]
  | .waitw _ d a b => [⟨false, d.toNat, 1⟩] ++ a.use false 2 ++ b.use false 1
  | .wakew _ a => a.use false 2
  | .cpy _ _ a => a.use false 1
  | .give _ a b => a.use false 1 ++ b.use false 1
  | .take _ a b => a.use false 1 ++ b.use false 1
  | .hwait _ d _ => [⟨false, d.toNat, 2⟩]
  | .htest _ d _ => [⟨false, d.toNat, 1⟩]
  | .hpass _ _ _ b => b.use false 1
  | .spawn _ d a b => [⟨false, d.toNat, 1⟩] ++ a.use false 1 ++ [⟨false, b.toNat, 2⟩]
  | .steal _ d b => [⟨false, d.toNat, 1⟩] ++ b.use false 1
  | .tdone _ d a b => [⟨false, d.toNat, 1⟩] ++ a.use false 1 ++ b.use false 1
  | .remq _ d a b => [⟨false, d.toNat, 1⟩] ++ a.use false 1 ++ b.use false 1
  | .pwrget _ d a => [⟨false, d.toNat, 1⟩] ++ a.use false 1
  | .pwrrel _ a => a.use false 1
  | .wsig _ _ a b => a.use false 1 ++ [⟨false, b.toNat, 4⟩]
  | .allred _ d a b => [⟨false, d.toNat, 1⟩] ++ a.use false 1 ++ b.use false 1
  | .wincfg _ d a b => [⟨false, d.toNat, 1⟩] ++ a.use false 2 ++ b.use false 1
  | .ntime _ d a => [⟨false, d.toNat, 2⟩] ++ a.use false 2
  | .skclr _ a b => a.use false 1 ++ b.use false 1
  | .skins _ d a b => [⟨true, d.toNat, 2⟩] ++ [⟨false, a.toNat, 2⟩] ++ b.use true 2
  | .skrecon _ _ a => a.use false 1
  | .skstat _ d _ => [⟨false, d.toNat, 4⟩]
  | .aadd _ dbl _ d a b => [⟨w, d.toNat, (if dbl then 2 else 1)⟩] ++ a.use w 2 ++ b.use w (if dbl then 2 else 1)
  | .asub _ dbl _ d a b => [⟨w, d.toNat, (if dbl then 2 else 1)⟩] ++ a.use w 2 ++ b.use w (if dbl then 2 else 1)
  | .amin _ dbl _ d a b => [⟨w, d.toNat, (if dbl then 2 else 1)⟩] ++ a.use w 2 ++ b.use w (if dbl then 2 else 1)
  | .amax _ dbl _ d a b => [⟨w, d.toNat, (if dbl then 2 else 1)⟩] ++ a.use w 2 ++ b.use w (if dbl then 2 else 1)
  | .aminu _ dbl _ d a b => [⟨w, d.toNat, (if dbl then 2 else 1)⟩] ++ a.use w 2 ++ b.use w (if dbl then 2 else 1)
  | .amaxu _ dbl _ d a b => [⟨w, d.toNat, (if dbl then 2 else 1)⟩] ++ a.use w 2 ++ b.use w (if dbl then 2 else 1)
  | .aand _ dbl _ d a b => [⟨w, d.toNat, (if dbl then 2 else 1)⟩] ++ a.use w 2 ++ b.use w (if dbl then 2 else 1)
  | .aor _ dbl _ d a b => [⟨w, d.toNat, (if dbl then 2 else 1)⟩] ++ a.use w 2 ++ b.use w (if dbl then 2 else 1)
  | .axor _ dbl _ d a b => [⟨w, d.toNat, (if dbl then 2 else 1)⟩] ++ a.use w 2 ++ b.use w (if dbl then 2 else 1)
  | .axchg _ dbl _ d a b => [⟨w, d.toNat, (if dbl then 2 else 1)⟩] ++ a.use w 2 ++ b.use w (if dbl then 2 else 1)
  | .acas _ dbl _ d a b => [⟨w, d.toNat, (if dbl then 2 else 1)⟩] ++ a.use w 2 ++ [⟨w, b.toNat, (if dbl then 4 else 2)⟩]
  | .afadd _ dbl _ d a b => [⟨w, d.toNat, (if dbl then 2 else 1)⟩] ++ a.use w 2 ++ b.use w (if dbl then 2 else 1)
  | .wload a b _ => [⟨false, a.toNat, 2⟩] ++ [⟨false, b.toNat, 2⟩]
  | .rload a b _ _ => [⟨false, a.toNat, 2⟩] ++ [⟨false, b.toNat, 3⟩]
  | .chb a _ _ _ => [⟨false, a.toNat, 1⟩]
  | .accst a b _ _ => [⟨false, a.toNat, 2⟩] ++ [⟨false, b.toNat, 2⟩]
  | .nest a b _ => [⟨false, a.toNat, 1⟩] ++ [⟨false, b.toNat, 8⟩]
  | .vcset a _ => [⟨false, a.toNat, 1⟩]
  | .movCompact a b => [⟨false, a.toNat, 1⟩, ⟨false, b.toNat, 1⟩]
  | .addCompact a b => [⟨false, a.toNat, 1⟩, ⟨false, b.toNat, 1⟩]
  | .subCompact a b => [⟨false, a.toNat, 1⟩, ⟨false, b.toNat, 1⟩]
  | .andCompact a b => [⟨false, a.toNat, 1⟩, ⟨false, b.toNat, 1⟩]
  | .orCompact a b => [⟨false, a.toNat, 1⟩, ⟨false, b.toNat, 1⟩]
  | .xorCompact a b => [⟨false, a.toNat, 1⟩, ⟨false, b.toNat, 1⟩]
  | .addImmCompact a _ => [⟨false, a.toNat, 1⟩]
  | .shlCompact a _ => [⟨false, a.toNat, 1⟩]
  | .shrCompact a _ => [⟨false, a.toNat, 1⟩]
  | .sarCompact a _ => [⟨false, a.toNat, 1⟩]
  | .movImmCompact a _ => [⟨false, a.toNat, 1⟩]
  | .vmovCompact a b => [⟨true, a.toNat, 1⟩, ⟨true, b.toNat, 1⟩]
  | .vaddCompact a b => [⟨true, a.toNat, 1⟩, ⟨true, b.toNat, 1⟩]
  | .vfaddCompact a b => [⟨true, a.toNat, 1⟩, ⟨true, b.toNat, 1⟩]
  | .vfmulCompact a b => [⟨true, a.toNat, 1⟩, ⟨true, b.toNat, 1⟩]
  | .xferCompact _ b => [⟨false, b.toNat, 1⟩]
  | .xfernCompact _ b => [⟨false, b.toNat, 1⟩]
  | .blk _ _ _
  | .rep _ _ _ _
  | .split _ _ _
  | .join
  | .yield _
  | .halt _
  | .nop _
  | .eret _
  | .wfi _
  | .ifence _
  | .kand _ _ _ _
  | .kor _ _ _ _
  | .kxor _ _ _ _
  | .knot _ _ _
  | .kmov _ _ _
  | .atswap _
  | .fence _ _ _ _
  | .hcancel _ _
  | .mmul _ _ _ _
  | .che _ _
  | .go _
  | .shdw _ _
  | .scmt _ _
  | .sdsc _ _
  | .qfuse _
  | .qsplit
  | .kmovCompact _ _
  | .nopCompact
  | .polLdi _ _
  | .polLdih _ _
  | .polAdd _ _ _
  | .polSub _ _ _
  | .polAnd _ _ _
  | .polOr _ _ _
  | .polXor _ _ _
  | .polMinu _ _ _
  | .polMaxu _ _ _
  | .polShl _ _ _
  | .polShr _ _ _
  | .polAddi _ _ _
  | .polRqf _ _ _
  | .polRuf _ _ _
  | .polBeq _ _ _
  | .polBne _ _ _
  | .polBltu _ _ _
  | .polBgeu _ _ _
  | .polArgminq _ _ _
  | .polArgmaxq _ _ _
  | .polArgminu _ _ _
  | .polArgmaxu _ _ _
  | .polLdp _ _
  | .polStp _ _
  | .polDecPick _ _
  | .polDecKeep _ _
  | .polDecPreempt _ _
  | .polDecKill _ _
  | .polDecResume _ _
  | .polDecNotify _ _
  | .polDecSuspend _ _
  | .polDecFallback _ _
  | .policyDecisionStart _
  | .budgetOverrun _
  | .sliceEnd _
  | .packageReset _
  | .bootStage _ _
  | .enumeration _
  | .heartbeat _ _ _
  | .isolation _
  | .chipletSelfTest _ _
  | .staleResponseDrop _ _ _ _
  | .patrolScrub _ _ _
  | .cxlDeviceLoss _
  | .orngLimWrite _ _
  | .orngSplitWrite _ _
  | .wayCleaning _
  | .orangeryEpoch
  | .pageWalk _ _ _ _
  | .nextPageWalk _
  | .faultResolve _
  | .faultUnresolvable _
  | .sideLogReplay _ _
  | .loadPerform _ _ _ _
  | .storePerform _ _
  | .writePropagate _ _
  | .cacheEviction _ _ _
  | .acquire _ _
  | .release _ _
  | .atomicPerform _ _ _
  | .writeErrorRemoval _ _
  | .windowDeliver _
  | .windowAck _ _
  | .windowTimeout _
  | .requestTimeout _ _
  | .inboundRemoteAccess _ _
  | .requestReissue _
  | .flitAck _ _ _
  | .linkWidthChange _ _
  | .laneFailure _ _
  | .timeSync _
  | .reductionFold _
  | .ueRequest _
  | .managementRequest _
  | .attestationRequest _ _
  | .circWrite _ _
  | .circuitUp _
  | .circuitDown _
  | .copyStart _
  | .copyChunk _ _
  | .copyCompletion _
  | .sfuEntry _
  | .engineEntryIssue _ _ _
  | .engineEntryRetire _ _
  | .nestEmit _
  | .remqBlockDispatch _
  | .reconcileMatch _ _
  | .reconcileWaitExpiry _
  | .sketchPeel _ _
  | .fullSetTransfer _ _
  | .spanTransaction _
  | .spanEviction _ _
  | .launchAppend _ _ _ _ _
  | .groupStart _
  | .taskStart _ _
  | .heldFirePlace _
  | .contextSave _
  | .contextRestore _
  | .migration _ _
  | .opPointChange _
  | .powerWindow _
  | .asyncTrap _
  | .waitwYield _
  | .waitwReread _
  | .waitwTimer _
  | .ntimeDeadline _
  | .wfiTimeout _
  | .svnFuseWrite _
  | .fenceCu _ _ _
  | .fenceQuadrant _ _ _
  | .fenceDramBank _ _
  | .fenceLinkLane _ _
  | .fenceDie _ _
  | .registerWrite _ _
  | .remoteResponse _ _ _
  | .reconcileStart _ => []

/-- The registers that an instruction still reads or writes in a slot whose guard is false in every beat-active lane: VSEL's
alone, which writes source B there (R109, R163). -/
def Instr.falseUses (w : Bool) : Instr → List Use
  | .vsel g d a b => (Instr.vsel g d a b).uses w
  | _ => []

/-- The registers that an instruction under `k0` still reads or writes with every beat mask bit 0: a scalar result needs its
operands, VBCAST's among them; any other instruction over lanes acts in none (R109). -/
def Instr.idleUses (w : Bool) : Instr → List Use
  | .vbcast g d a b => (Instr.vbcast g d a b).uses w
  | i => if (i.uses w).any (·.vec) then [] else i.uses w

end Sys2Proof

namespace Sys2Proof.Machine

/-- Two runs of registers share one. -/
def Use.meets (a b : Use) : Bool := a.vec == b.vec && decide (a.r < b.r + b.n) && decide (b.r < a.r + a.n)

/-- The registers a destination names. -/
def Dest.uses : Dest → List Use
  | .none => []
  | .waitw => []
  | .line => []
  | .s r => [⟨false, r, 1⟩]
  | .sp r => [⟨false, r, 2⟩]
  | .v r _ => [⟨true, r, 1⟩]
  | .vp r _ => [⟨true, r, 2⟩]

/-- The registers that an agent's earlier instructions have still to write (R100). -/
def State.owed (s : State) (id : Nat) (ag : Agent) : List Use :=
  ag.opens.flatMap (fun e => e.dst.uses) ++
    (if ag.profile = .wave then
      ((s.unit ag.unit).sfu.filter (fun e => e.agent == id && e.op != .atld)).map (fun e => ⟨true, e.d, 1⟩)
    else [])

/-- The guard field of the instruction being issued: a compact form has none (R109, R110). -/
def Agent.guardField (ag : Agent) : BitVec 2 :=
  let w := ag.run.word.extractLsb' 0 32
  if w.getLsbD 0 then (Fld.unpack w).g else 0

/-- The registers that a wave's instruction waits for (R100): in a slot without an active lane, what the slot still reads or
writes (R109). -/
def Agent.waveUses (ag : Agent) (i : Instr) : List Use :=
  if ag.active ag.guardField ≠ 0 then i.uses true
  else if ag.guardField = 0 then i.idleUses true
  else if ag.beat = 0 then []
  else i.falseUses true

/-- The instruction waits on the scoreboard (R100): one of its registers, or, in a wave, a beat mask, is owed; no load or SFU
entry writes a guard predicate. -/
def State.interlocked (s : State) (id : Nat) (ag : Agent) (i : Instr) : Bool :=
  let us := if ag.profile = .wave then ag.waveUses i ++ [⟨false, 60, 3⟩] else i.uses false
  (s.owed id ag).any (fun o => us.any (fun u => u.meets o))

end Sys2Proof.Machine
end

