-- ==== Sys2Proof/Machine/Turn.lean ====
section
/-! DEFINITION. Whose turn it is and what happens next: fetching and decoding the next instruction of an agent (R105, R111,
R112, R287), the interlock (R100), the end of agents (R293), the policy engine's next operation (R328, R334), and the order
in which the package's own steps happen (log 7). -/
namespace Sys2Proof.Machine

/-! ### Time -/

/-- Time passes (R254, log 9). -/
def State.tick (s : State) : State :=
  { s with ntime := s.ntime + BitVec.ofNat 64 (Config.elapsed s.free), free := s.free + 1 }

/-! ### An agent's next instruction -/

/-- The instruction that stands at the agent's position in its run; within a REP, the iteration's (R105, R113). -/
noncomputable def Run.next (r : Run) : Except Bad Instr :=
  let hs := r.code.drop r.off
  match r.rep with
  | none => decode hs
  | some p =>
    match hs with
    | h :: h1 :: rest =>
      match stepWord (wordOf h h1) p p.i with
      | some w => decode (halves w ++ rest)
      | none => .error .field
    | _ => .error .short

/-- The agent with the length of the instruction it issues. -/
def Agent.issuing (ag : Agent) : Agent := { ag with run := { ag.run with ilen := ilen (ag.run.code.drop ag.run.off) } }

/-- Issue the next instruction of a run, unless it waits on the scoreboard; an encoding without a meaning is illegal (R100,
R118), and discards a capture where it is an engine command's (R212). -/
noncomputable def State.inRunTurn (s : State) (id : Nat) (ag : Agent) : State × Option Instr :=
  match ag.run.next with
  | .ok i =>
    if s.interlocked id ag.issuing i then ({ s with stalled := true }, none)
    else (s.putAgent id ag.issuing, some i)
  | .error _ => (trapWord (s.badWord ag.issuing) id ag.issuing 0x01, none)

/-- Fetch the header of the next run (R111, R112, R287). -/
noncomputable def State.boundaryTurn (s : State) (id : Nat) (ag : Agent) : State × Option Instr :=
  let pc := ag.run.pc
  if ag.yielded then ({ s.putAgent id { ag with yielded := false } with stalled := true }, none)
  else if pc.getLsbD 0 || !flatOk pc then (takeTrap s id ag 0x05 pc pc, none)
  else
    match s.fetchHalf ag pc, s.fetchHalf ag (pc + 2) with
    | none, _ => (s.fetchStop id ag pc pc, none)
    | _, none => (s.fetchStop id ag pc (pc + 2), none)
    | some h, some h1 =>
      match decode [h.half, h1.half] with
      | .ok (.blk neg rep cnt) => (s.keepCode id ag [h, h1], some (.blk neg rep cnt))
      | _ => (takeTrap s id ag 0x02 pc ((wordOf h.half h1.half).zeroExtend 64), none)

/-! ### Agents that do not move -/

/-- Waits that another step of the package ends: the agent issues nothing meanwhile (R60, R239, R261). -/
def Wait.parked : Wait → Bool
  | .held _ => true
  | .waitwOut _ => true
  | .waitwReady _ => true
  | .ntime _ => true
  | .trapFar _ _ => true
  | _ => false

/-- The agent's group is being saved, and it stands where its context is saved (R355). -/
def State.frozen (s : State) (ag : Agent) : Bool :=
  ag.profile != .host && (s.unit ag.unit).ustate == .saving && ag.wait.kept.isSome

/-- The agent owes a trap that it takes at its next boundary (R345, R348). -/
def Agent.trapDue (ag : Agent) : Bool := !ag.wait.holdsTraps && ag.dueTrap.isSome

/-- An agent that ends has nothing open any more: its SFU entries are written, its accesses performed at level 0; a
sequencer's queues are empty (R195, R293). -/
def State.mayEnd (s : State) (id : Nat) (ag : Agent) : Bool :=
  ag.opens.all (fun o => o.kind == .order) && !s.sfuBusy id ag && s.queuesEmpty ag

/-- The agent has something to do at its turn; a block that has come to a sequencer goes first (R326). -/
def State.canMove (s : State) (id : Nat) (ag : Agent) : Bool :=
  ag.live && (if ag.wait = .ending then s.mayEnd id ag
    else !s.frozen ag && (ag.trapDue || (!ag.wait.parked && !s.blockFirst ag)))

/-- One turn of an agent: at the end of a pass whose masks still waited, the pass ends (R100, R294, R295). -/
noncomputable def State.agentTurn (s : State) (id : Nat) (ag : Agent) : State × Option Instr :=
  if !s.canMove id ag then ({ s with stalled := true }, none)
  else if ag.wait = .ending then (s.endAgent id, none)
  else if ag.trapDue then (s, some (.asyncTrap id))
  else if ag.run.inRun && ag.run.atEnd then (endPass s id { ag with run := { ag.run with atEnd := false } }, none)
  else if ag.run.inRun then s.inRunTurn id ag
  else s.boundaryTurn id ag

/-- One turn of the policy engine in a partition's decision (R328, R334). -/
noncomputable def State.policyTurn (s : State) (p : Nat) : State × Option Instr :=
  match (s.pol p).dec with
  | none => ({ s with stalled := true }, none)
  | some d =>
    match (s.pol p).cur[d.pc]? with
    | none => ((s.endDec p).fallback p d.ev, none)
    | some h =>
      match decPol h with
      | .ok i => (s, some i)
      | .error _ => ((s.endDec p).fallback p d.ev, none)

/-! ### The order of turns (log 7) -/

/-- Everyone who can move, agents first. -/
def State.movers (s : State) : List Cur :=
  (s.agents.filter (fun e => s.canMove e.1 e.2)).map (fun e => Cur.agent e.1) ++
    (s.hub.pol.filter (fun (e : Nat × Pol) => e.2.dec.isSome)).map (fun e => Cur.policy e.1)

/-- The member of a ring behind one that may be in it. -/
def ringNext (c : Cur) (ring : List Cur) : Cur :=
  match (ring.dropWhile (fun x => x != c)).drop 1 ++ ring with
  | x :: _ => x
  | [] => .nobody

/-- The turn passes on. -/
def State.pass (s : State) : State := { s with cur := ringNext s.cur s.movers, stalled := false }

/-- The steps of an agent's accesses and waits. -/
noncomputable def Agent.ownSteps (ag : Agent) (id : Nat) : List Instr :=
  let opens : List (List Instr) := (List.range ag.opens.length).map fun n =>
    [Instr.loadPerform id n 0 Ecc.clean, Instr.storePerform id n, Instr.atomicPerform id n Ecc.clean, Instr.acquire id n, Instr.release id n]
  let pend : List (List Instr) := ag.pend.zipIdx.map fun w =>
    Instr.writePropagate id w.2 :: (match w.1.loc with
      | .mem _ _ _ => [Instr.writeErrorRemoval id w.2]
      | _ => [])
  List.flatten [List.flatten opens, List.flatten pend,
    [Instr.waitwReread id, Instr.waitwTimer id, Instr.ntimeDeadline id, Instr.wfiTimeout id, Instr.nextPageWalk (.agent id)]]

/-- The steps of copies, reconciliations and reductions. -/
noncomputable def Fab.ownSteps (f : Fab) : List Instr :=
  let copies : List (List Instr) := f.copies.map fun e => [Instr.copyStart e.1, Instr.copyChunk e.1 Ecc.clean, Instr.copyCompletion e.1, Instr.nextPageWalk (.copySrc e.1),
    Instr.nextPageWalk (.copyDst e.1)]
  let recons : List (List Instr) := f.recons.map fun e =>
    [Instr.reconcileStart e.1, Instr.reconcileWaitExpiry e.1, Instr.sketchPeel e.1 false, Instr.fullSetTransfer e.1 false]
  let redns : List Instr := f.redns.map fun e => Instr.reductionFold e.1
  List.flatten [List.flatten copies, List.flatten recons, redns]

/-- The steps of window traffic (R136, R228), and the timeouts of accesses to other packages (R243, R244): what another package
answers comes from outside. -/
noncomputable def State.windowSteps (s : State) : List Instr :=
  let here := fun (b : Nat) => match Tab.find? s.fab.binds b with
    | some b => b.dstPkg == s.plat.pkg.toNat
    | none => true
  let posted : List (List Instr) := s.fab.posted.map fun e =>
    Instr.windowTimeout e.1 :: Instr.windowDeliver e.1 :: (if here e.2.bind then [Instr.windowAck e.1 true] else [])
  let reads : List (List Instr) := s.agents.map fun e =>
    (e.2.opens.zipIdx.filter (fun (x : Access × Nat) => match x.1.loc with
      | .win w _ => (((s.unit e.2.unit).win w).bind.map here).getD true
      | _ => false)).map fun x => Instr.remoteResponse e.1 x.2 { data := 0, err := false, applied := false, line := [] }
  let late : List (List Instr) := s.agents.map fun e =>
    (e.2.opens.zipIdx.filter (fun (x : Access × Nat) => s.overdue e.2 x.1)).map fun x => Instr.requestTimeout e.1 x.2
  List.flatten [List.flatten posted, List.flatten reads, List.flatten late]

/-- The steps of a unit. -/
noncomputable def UnitSt.ownSteps (x : UnitSt) (u : Nat) : List Instr :=
  let tasks : List Instr := (List.range x.waves).map fun g => Instr.taskStart u g
  let logs : List Instr := (List.range x.slog.length).map fun n => Instr.sideLogReplay u n
  List.flatten [[Instr.sfuEntry u, Instr.contextSave u, Instr.sliceEnd u], tasks, logs]

/-- The steps of a quadrant. -/
noncomputable def quadSteps (q : Nat) : List Instr :=
  [Instr.engineEntryIssue q .load .clean, Instr.engineEntryIssue q .compute .clean, Instr.engineEntryIssue q .store .clean,
   Instr.engineEntryRetire q .load, Instr.engineEntryRetire q .compute, Instr.engineEntryRetire q .store,
   Instr.nestEmit q, Instr.remqBlockDispatch q, Instr.nextPageWalk (.quadLoad q), Instr.nextPageWalk (.quadStore q)]

/-- The steps of the hub scheduler. -/
noncomputable def Hub.ownSteps (h : Hub) : List Instr :=
  let packets : List (List Instr) := (List.range h.packets.length).map fun n => [Instr.groupStart n, Instr.contextRestore n]
  let fires : List Instr := (List.range h.fires.length).map fun n => Instr.heldFirePlace n
  let parts : List Instr := h.parts.map fun e => Instr.policyDecisionStart e.1
  let pols : List Instr := h.pol.map fun e => Instr.policyDecisionStart e.1
  List.flatten [List.flatten packets, fires, parts, pols]

/-- The package's own steps that may be due, whoever's turn it is; what other packages, ports, devices and the resident
service do comes from outside. -/
noncomputable def State.candidates (s : State) : List Instr :=
  let agents : List (List Instr) := s.agents.map fun e => e.2.ownSteps e.1
  let units : List (List Instr) := s.units.map fun e => e.2.ownSteps e.1
  let quads : List (List Instr) := s.quads.map fun e => quadSteps e.1
  let dies : List Instr := s.plat.dies.map fun e => Instr.opPointChange e.1
  let ways : List Instr := s.ms.moves.map fun e => Instr.wayCleaning e.1
  let circ : List (List Instr) := s.rot.circ.map fun e => [Instr.circuitUp e.1, Instr.circuitDown e.1]
  let table : List Instr := if s.capBusy || !s.hub.ending.isEmpty then [Instr.heartbeat 0 true []] else []
  List.flatten [table, List.flatten agents, s.windowSteps, s.fab.ownSteps, List.flatten units, List.flatten quads, s.hub.ownSteps, dies, ways,
    List.flatten circ]

/-- The step changes something now. -/
def State.enabled (s : State) (i : Instr) : Bool :=
  match exec i s with
  | .next t => t != s
  | _ => false

/-- The first of the package's own steps that is due, counted from a place that moves on. -/
noncomputable def State.ownStep (s : State) : Option Instr :=
  let cs := s.candidates
  (cs.rotateLeft (s.free % (cs.length + 1))).find? s.enabled

/-- A turn is over: its mover waits, or others have waited long (log 7). -/
def State.turnOver (s : State) : Bool := s.stalled || s.free % 64 == 0

/-- What the next step does (log 7): what the environment has asked for; where a turn is over, one of the package's own
steps, and the turn passes on; else the mover's next instruction. -/
noncomputable def State.plan (s : State) : State × Option Instr :=
  match s.sched with
  | .turn c :: r => ({ s with sched := r, cur := c, stalled := false }, none)
  | .event i :: r => ({ s with sched := r }, if (encode i).isEmpty then some i else none)
  | [] =>
    if s.turnOver then (s.pass, s.pass.ownStep)
    else
      match s.cur with
      | .nobody => (s.pass, s.pass.ownStep)
      | .policy p => s.policyTurn p
      | .agent id =>
        match s.agent? id with
        | some ag => s.agentTurn id ag
        | none => ({ s with stalled := true }, none)

/-! ### Placing an instruction for the host -/

/-- The profile that an instruction is placed in: the sequencer's for what only a sequencer may issue, the host's for what
only a core may, else the wave's (R119). -/
def homeOf : Instr → Profile
  | .wload .. | .rload .. | .mmul .. | .chb .. | .che .. | .accst .. | .nest .. | .go .. | .vcset .. | .shdw .. | .scmt ..
  | .sdsc .. | .qfuse .. | .qsplit | .remq .. => .sequencer
  | .wfi _ | .mapinv .. | .harvest .. | .keyset .. | .keykill .. | .polld .. | .polsw .. => .host
  | _ => .wave

/-- The agent that an instruction is placed with, its number first. -/
def homeAgent : Profile → Nat × Agent
  | .wave => (0, { profile := .wave, die := 10 })
  | .sequencer => (seqBase, { profile := .sequencer, die := 2 })
  | .host => (coreBase, { profile := .host, die := 1 })

/-- Give an agent the turn, with a run (log 38). -/
def State.withRun (s : State) (p : Profile) (r : Run) : State :=
  let (id, d) := homeAgent p
  let ag := match s.agent? id with
    | some a => if a.profile = p then a else d
    | none => d
  { s with cur := .agent id, sched := [], stalled := false, free := s.free + (if s.free % 64 = 63 then 1 else 0) }.putAgent id
    { ag with live := true, run := r, wait := .none, yielded := false, opens := [], stErr := [], tcause := ag.tcause &&& 0xFFF8FFFF }

/-- A run of one instruction that has been fetched. -/
def oneRun (hs : List Half) : Run := { inRun := true, code := hs, cnt := 1, left := 1 }

/-- Where a run header is placed: a core's addresses are physical while its partition's translation is off (log 17). -/
def headerAt : Nat := 0x1000

/-- Place a run header, with zeros behind it, where a core fetches its next run; no cache holds another value of the place. -/
def State.withHeader (s : State) (w : Nat) : State :=
  let s := s.withRun .host { pc := BitVec.ofNat 64 headerAt }
  let mem := Tab.dropRange s.mem headerAt 1024
  let unit := (homeAgent .host).2.codeUnit
  { s with
    ms := { s.ms with
      dirty := Tab.dropRange s.ms.dirty headerAt 1024
      orng := s.ms.orng.filter (fun e => e.2.sector / 4 != headerAt / 1024)
      dropped := Tab.dropRange s.ms.dropped (headerAt / 64) 16
      lineKey := Tab.dropRange s.ms.lineKey (headerAt / 64) 16
      latent := Tab.dropRange s.ms.latent (headerAt / 64) 16
      mixed := Tab.dropRange s.ms.mixed (64 * headerAt) (64 * 1024)
      code := Tab.erase s.ms.code unit
      own := Tab.erase s.ms.own unit },
    mem := (leBytes 4 w).zipIdx.foldl (fun (t : List Host.Cell) b => Tab.set 0 t (headerAt + b.2) b.1) mem,
    rot := { s.rot with ptRoot := Tab.erase s.rot.ptRoot 0 } }

/-- Place an operation of policy code: a decision of partition 0 stands before it (log 38). -/
def State.withPolicy (s : State) (h : Half) : State :=
  let d : Decision := {}
  { s with cur := .policy 0, sched := [], stalled := false, free := s.free + (if s.free % 64 = 63 then 1 else 0) }.putPol 0
    { s.pol 0 with cur := [h], dec := some d }

end Sys2Proof.Machine
end

