-- ==== Sys2Proof/Machine/Step.lean ====
section
/-! DEFINITION. One step of the package. -/
namespace Sys2Proof.Machine

/-- One step: time passes, and what `State.plan` says happens. -/
noncomputable def step (s : State) : Host.Outcome State Fault Refusal :=
  match s.tick.plan with
  | (t, some i) => exec i t
  | (t, none) => .next t

/-- The state with an instruction placed where the next step fetches it (log 38): in the run that a wave, a sequencer or a
core has fetched, whichever may issue it; a run header in memory before a core; an operation of policy code in a decision
in progress. -/
noncomputable def State.withFetchWord (s : State) (nbits w : Nat) : State :=
  let hs := if nbits = 16 then [BitVec.ofNat 16 w] else halves (BitVec.ofNat 32 w) ++ [0, 0, 0, 0]
  match decode hs with
  | .ok (.blk _ _ _) => s.withHeader w
  | .ok i => s.withRun (homeOf i) (oneRun (hs.take (ilen hs)))
  | .error _ => if nbits = 16 then s.withPolicy (BitVec.ofNat 16 w) else s.withRun .wave (oneRun (hs.take 2))

end Sys2Proof.Machine
end

