-- ==== Sys2Proof/Safety.lean ====
section
/-! DEFINITION. What counts as a safe run, and the terms that claims use: who has the turn, which guards let an
instruction act, and which registers and states an instruction leaves alone. -/
namespace Sys2Proof

open Sys2Proof.Machine

/-- The package goes on from a state: its next step answers a next state. -/
def GoesOn (s : State) : Prop := ∃ t, step s = Host.Outcome.next t

/-- What every step keeps: memory stands in its canonical form (log 1). -/
def Machine.State.Inv (s : State) : Prop := Memory.wf s.mem = true

/-- The live agent whose turn it is may issue an instruction with this guard field and its guard fires (R109). -/
def Machine.Agent.Issues (ag : Agent) (g : BitVec 2) : Prop :=
  (ag.profile = .wave → ag.fires g = true) ∧ (ag.profile ≠ .wave → g = 0)

/-- The policy engine has the turn in a decision of a partition, and the decision's budget covers `n` more cycles (R336,
R339). -/
def Machine.State.Decides (s : State) (p : Nat) (d : Decision) (n : Nat) : Prop :=
  s.cur = .policy p ∧ (s.pol p).dec = some d ∧ d.cyc + n ≤ s.budget p

/-- Every byte of memory reads in `t` as it read in `s`: in the package store and in its home copy, under every key slot, and in
memory itself (R31, R218). -/
def Machine.State.SameBytes (s t : State) : Prop :=
  ∀ slot pa, t.pkRead slot pa = s.pkRead slot pa ∧ t.homeRead slot pa = s.homeRead slot pa ∧ t.homeByte pa = s.homeByte pa

/-- The instruction that stands at the agent's position in its run is `i`, with the literal words behind it (R105, R108). -/
def Machine.Agent.stands (ag : Agent) (i : Instr) : Prop :=
  ag.run.inRun = true ∧ ag.run.rep = none ∧ decode (ag.run.code.drop ag.run.off) = .ok i

/-- The guard field, the first destination register and how many registers of the scalar instructions of majors 2 to 4 and of
their compact forms (R149, R156, R159). -/
def Instr.scalarDest : Instr → Option (BitVec 2 × Nat × Nat)
  | .add g d _ _ => some (g, d.toNat, 1)
  | .sub g d _ _ => some (g, d.toNat, 1)
  | .mul g d _ _ => some (g, d.toNat, 1)
  | .mulh g d _ _ => some (g, d.toNat, 1)
  | .mulhu g d _ _ => some (g, d.toNat, 1)
  | .div g d _ _ => some (g, d.toNat, 1)
  | .divu g d _ _ => some (g, d.toNat, 1)
  | .rem g d _ _ => some (g, d.toNat, 1)
  | .remu g d _ _ => some (g, d.toNat, 1)
  | .and g d _ _ => some (g, d.toNat, 1)
  | .or g d _ _ => some (g, d.toNat, 1)
  | .xor g d _ _ => some (g, d.toNat, 1)
  | .andn g d _ _ => some (g, d.toNat, 1)
  | .shl g d _ _ => some (g, d.toNat, 1)
  | .shr g d _ _ => some (g, d.toNat, 1)
  | .sar g d _ _ => some (g, d.toNat, 1)
  | .rol g d _ _ => some (g, d.toNat, 1)
  | .min g d _ _ => some (g, d.toNat, 1)
  | .max g d _ _ => some (g, d.toNat, 1)
  | .minu g d _ _ => some (g, d.toNat, 1)
  | .maxu g d _ _ => some (g, d.toNat, 1)
  | .clz g d _ => some (g, d.toNat, 1)
  | .popc g d _ => some (g, d.toNat, 1)
  | .bfx g d _ _ => some (g, d.toNat, 1)
  | .bfi g d _ _ => some (g, d.toNat, 1)
  | .sel g d _ _ => some (g, d.toNat, 1)
  | .mov g d _ => some (g, d.toNat, 1)
  | .cmpEq g d _ _ => some (g, d.toNat, 1)
  | .cmpNe g d _ _ => some (g, d.toNat, 1)
  | .cmpLt g d _ _ => some (g, d.toNat, 1)
  | .cmpLtu g d _ _ => some (g, d.toNat, 1)
  | .cmpLe g d _ _ => some (g, d.toNat, 1)
  | .cmpLeu g d _ _ => some (g, d.toNat, 1)
  | .cmpGt g d _ _ => some (g, d.toNat, 1)
  | .cmpGtu g d _ _ => some (g, d.toNat, 1)
  | .cmpGe g d _ _ => some (g, d.toNat, 1)
  | .cmpGeu g d _ _ => some (g, d.toNat, 1)
  | .add64 g d _ _ => some (g, d.toNat, 2)
  | .sub64 g d _ _ => some (g, d.toNat, 2)
  | .mul64 g d _ _ => some (g, d.toNat, 2)
  | .shl64 g d _ _ => some (g, d.toNat, 2)
  | .shr64 g d _ _ => some (g, d.toNat, 2)
  | .sar64 g d _ _ => some (g, d.toNat, 2)
  | .adda g d _ _ => some (g, d.toNat, 2)
  | .movCompact a _ => some (0, a.toNat, 1)
  | .addCompact a _ => some (0, a.toNat, 1)
  | .subCompact a _ => some (0, a.toNat, 1)
  | .andCompact a _ => some (0, a.toNat, 1)
  | .orCompact a _ => some (0, a.toNat, 1)
  | .xorCompact a _ => some (0, a.toNat, 1)
  | .addImmCompact a _ => some (0, a.toNat, 1)
  | .shlCompact a _ => some (0, a.toNat, 1)
  | .shrCompact a _ => some (0, a.toNat, 1)
  | .sarCompact a _ => some (0, a.toNat, 1)
  | .movImmCompact a _ => some (0, a.toNat, 1)
  | _ => none

/-- The divisions, which alone among the scalar instructions may set a flag (R150, R151). -/
def Instr.divides : Instr → Bool
  | .div _ _ _ _ => true
  | .divu _ _ _ _ => true
  | .rem _ _ _ _ => true
  | .remu _ _ _ _ => true
  | _ => false

/-- The guard field, the first destination register and how many registers of the vector instructions that write vector
registers alone: majors 8 to 10, 12, 13, 15, 16 and 18 and their compact forms (R161, R164, R168 to R172, R174 to R181). -/
def Instr.vectorDest : Instr → Option (BitVec 2 × Nat × Nat)
  | .vadd g d _ _ => some (g, d.toNat, 1)
  | .vsub g d _ _ => some (g, d.toNat, 1)
  | .vmul g d _ _ => some (g, d.toNat, 1)
  | .vmulh g d _ _ => some (g, d.toNat, 1)
  | .vand g d _ _ => some (g, d.toNat, 1)
  | .vor g d _ _ => some (g, d.toNat, 1)
  | .vxor g d _ _ => some (g, d.toNat, 1)
  | .vshl g d _ _ => some (g, d.toNat, 1)
  | .vshr g d _ _ => some (g, d.toNat, 1)
  | .vsar g d _ _ => some (g, d.toNat, 1)
  | .vmin g d _ _ => some (g, d.toNat, 1)
  | .vmax g d _ _ => some (g, d.toNat, 1)
  | .vminu g d _ _ => some (g, d.toNat, 1)
  | .vmaxu g d _ _ => some (g, d.toNat, 1)
  | .vabs g d _ => some (g, d.toNat, 1)
  | .vneg g d _ => some (g, d.toNat, 1)
  | .vclz g d _ => some (g, d.toNat, 1)
  | .vpopc g d _ => some (g, d.toNat, 1)
  | .vadds g d _ _ => some (g, d.toNat, 1)
  | .vsubs g d _ _ => some (g, d.toNat, 1)
  | .vmov g d _ => some (g, d.toNat, 1)
  | .vsel g d _ _ => some (g, d.toNat, 1)
  | .vmad g d _ _ => some (g, d.toNat, 1)
  | .vmadh g d _ _ => some (g, d.toNat, 1)
  | .vdot4 g d _ _ => some (g, d.toNat, 1)
  | .vdot4u g d _ _ => some (g, d.toNat, 1)
  | .vfadd g d _ _ => some (g, d.toNat, 1)
  | .vfsub g d _ _ => some (g, d.toNat, 1)
  | .vfmul g d _ _ => some (g, d.toNat, 1)
  | .vfma g d _ _ => some (g, d.toNat, 1)
  | .vfms g d _ _ => some (g, d.toNat, 1)
  | .vfnma g d _ _ => some (g, d.toNat, 1)
  | .vfmin g d _ _ => some (g, d.toNat, 1)
  | .vfmax g d _ _ => some (g, d.toNat, 1)
  | .vfabs g d _ => some (g, d.toNat, 1)
  | .vfneg g d _ => some (g, d.toNat, 1)
  | .vfclass g d _ => some (g, d.toNat, 1)
  | .vfrnd g d _ _ => some (g, d.toNat, 1)
  | .vdadd g d _ _ => some (g, d.toNat, 2)
  | .vdsub g d _ _ => some (g, d.toNat, 2)
  | .vdmul g d _ _ => some (g, d.toNat, 2)
  | .vdfma g d _ _ => some (g, d.toNat, 2)
  | .vdmin g d _ _ => some (g, d.toNat, 2)
  | .vdmax g d _ _ => some (g, d.toNat, 2)
  | .vcvt p g d _ _ => some (g, d.toNat, if cvtDst64 p then 2 else 1)
  | .vscale g d _ _ => some (g, d.toNat, 1)
  | .pk4 g d _ _ => some (g, d.toNat, 1)
  | .upk4 g d _ _ => some (g, d.toNat, 1)
  | .pk6 g d _ => some (g, d.toNat, 3)
  | .upk6 g d _ => some (g, d.toNat, 4)
  | .pkts g d _ _ => some (g, d.toNat, 1)
  | .upkts g d _ _ => some (g, d.toNat, 1)
  | .nbl g d _ _ => some (g, d.toNat, 1)
  | .nbr g d _ _ => some (g, d.toNat, 1)
  | .nrot g d _ _ => some (g, d.toNat, 1)
  | .vmovCompact a _ => some (0, a.toNat, 1)
  | .vaddCompact a _ => some (0, a.toNat, 1)
  | .vfaddCompact a _ => some (0, a.toNat, 1)
  | .vfmulCompact a _ => some (0, a.toNat, 1)
  | _ => none

/-- The lanes in which a vector instruction writes: the active ones; VSEL writes every lane of the beat masks (R163). -/
def Instr.vectorLanes (i : Instr) (ag : Agent) (g : BitVec 2) : Mask :=
  match i with
  | .vsel _ _ _ _ => ag.beat
  | _ => ag.active g

end Sys2Proof
end

