-- ==== Sys2Proof/Certificates/Slice0/Obligations.lean ====
section
/-! DEFINITION. The statements for the provers, from the numbered rules of the specification. Values are given in the
mathematics of the rules; what follows an instruction (`retire`) is stated in `RunAdvance`. -/

open Sys2Proof
open Sys2Proof.Machine

/-- Reading and writing scalar registers and pairs: s0, pair 0, code 63 and the literals. [R96, R107, R108]
Writing scalar register r and reading register n: what was written where n = r and r is a register 1 to 62, else what
stood there; s0 reads zero and writes to s0 and to code 63 are discarded. A pair reads bits 31:0 from its even
register and 63:32 from the next; pair 0 reads zero and writes to pair 0 and to code 63 are discarded in both halves.
A register source is the register, a literal source the literal, in a pair source sign-extended. -/
def Obligations.ScalarRegisters : Prop :=
  ∀ (ag : Agent) (r n : Nat) (w : Word) (x : DWord) (c : BitVec 6),
    ag.sGet 0 = 0 ∧ ag.pGet 0 = 0 ∧
    (ag.sSet r w).sGet n = (if n = r ∧ 1 ≤ r ∧ r ≤ 62 then w else ag.sGet n) ∧
    ag.sSet 0 w = ag ∧ ag.sSet 63 w = ag ∧ ag.pSet 0 x = ag ∧ ag.pSet 63 x = ag ∧
    (1 ≤ r → ag.pGet r = ag.sGet (r + 1) ++ ag.sGet r) ∧
    (2 ≤ r → r ≤ 60 →
      (ag.pSet r x).sGet n =
        (if n = r then BitVec.ofNat 32 x.toNat else if n = r + 1 then BitVec.ofNat 32 (x.toNat / 2 ^ 32) else ag.sGet n)) ∧
    ag.src (.reg c) = ag.sGet c.toNat ∧ ag.src (.lit w) = w ∧
    ag.srcP (.reg c) = ag.pGet c.toNat ∧ ag.srcP (.lit w) = BitVec.ofInt 64 w.toInt

/-- ADD to MAXU, CLZ, POPC and MOV write the value of R150 once and complete. [R150]
For every mover whose guard fires, with a and b its source values: ADD, SUB, MUL wrap modulo 2^32; MULH and MULHU are
the high words of the signed and unsigned products; AND, OR, XOR, ANDN; MIN and MAX signed, MINU and MAXU unsigned;
CLZ is 32 for 0; POPC counts one bits; MOV copies. The instruction writes s[D], sets no flag, changes nothing else,
and retires. -/
def Obligations.ScalarArithmetic : Prop :=
  ∀ (s : State) (id : Nat) (ag : Agent) (g : BitVec 2) (d : BitVec 6) (a b : Src) (x y : Word),
    s.mover = some (id, ag) → ag.Issues g → x = ag.src a → y = ag.src b →
    let done : Word → Out := fun w => .next (retire s id (ag.sSet d.toNat w))
    exec (.add g d a b) s = done (BitVec.ofNat 32 (x.toNat + y.toNat)) ∧
    exec (.sub g d a b) s = done (BitVec.ofInt 32 ((x.toNat : Int) - y.toNat)) ∧
    exec (.mul g d a b) s = done (BitVec.ofNat 32 (x.toNat * y.toNat)) ∧
    exec (.mulh g d a b) s = done (BitVec.ofInt 32 (x.toInt * y.toInt / 2 ^ 32)) ∧
    exec (.mulhu g d a b) s = done (BitVec.ofNat 32 (x.toNat * y.toNat / 2 ^ 32)) ∧
    exec (.and g d a b) s = done (BitVec.ofNat 32 (x.toNat &&& y.toNat)) ∧
    exec (.or g d a b) s = done (BitVec.ofNat 32 (x.toNat ||| y.toNat)) ∧
    exec (.xor g d a b) s = done (BitVec.ofNat 32 (x.toNat ^^^ y.toNat)) ∧
    exec (.andn g d a b) s = done (BitVec.ofNat 32 (x.toNat &&& (2 ^ 32 - 1 - y.toNat))) ∧
    exec (.min g d a b) s = done (if x.toInt < y.toInt then x else y) ∧
    exec (.max g d a b) s = done (if y.toInt < x.toInt then x else y) ∧
    exec (.minu g d a b) s = done (if x.toNat < y.toNat then x else y) ∧
    exec (.maxu g d a b) s = done (if y.toNat < x.toNat then x else y) ∧
    exec (.clz g d a) s = done (BitVec.ofNat 32 (if x.toNat = 0 then 32 else 31 - Nat.log2 x.toNat)) ∧
    exec (.popc g d a) s = done (BitVec.ofNat 32 ((List.range 32).countP (fun n => x.toNat.testBit n))) ∧
    exec (.mov g d a) s = done x

/-- DIV, DIVU, REM and REMU: quotients toward zero, and dz for a zero divisor. [R151]
For a zero divisor the quotients are 0xFFFFFFFF and the remainders the dividend, and rstat.dz (bit 3) is set;
otherwise signed quotients truncate toward zero, signed remainders take the sign of the dividend, both modulo 2^32
(which gives -2^31 and 0 for the one overflow), the unsigned ones are floor quotient and remainder, and no flag
changes. Nothing traps; the instruction retires. The encoding example of the rule decodes. -/
def Obligations.ScalarDivision : Prop :=
  (∀ (s : State) (id : Nat) (ag : Agent) (g : BitVec 2) (d : BitVec 6) (a b : Src) (x y : Word),
    s.mover = some (id, ag) → ag.Issues g → x = ag.src a → y = ag.src b →
    let done : Word → Out := fun w =>
      .next (retire s id { ag.sSet d.toNat w with rstat := if y = 0 then ag.rstat ||| 8 else ag.rstat })
    exec (.div g d a b) s = done (if y = 0 then 0xFFFFFFFF else BitVec.ofInt 32 (x.toInt.tdiv y.toInt)) ∧
    exec (.divu g d a b) s = done (if y = 0 then 0xFFFFFFFF else BitVec.ofNat 32 (x.toNat / y.toNat)) ∧
    exec (.rem g d a b) s = done (if y = 0 then x else BitVec.ofInt 32 (x.toInt.tmod y.toInt)) ∧
    exec (.remu g d a b) s = done (if y = 0 then x else BitVec.ofNat 32 (x.toNat % y.toNat))) ∧
  decode [0x1405, 0x29C6] = .ok (.div 0 10 (.reg 12) (.reg 14))

/-- CMP.cc writes 1 when its condition holds and 0 otherwise. [R155]
The ten comparisons of R155 on the two source values, signed or unsigned as the suffix says; the result is 1 or 0 in
s[D], no flag is set, and the instruction retires. The encoding example of the rule decodes. -/
def Obligations.ScalarCompare : Prop :=
  (∀ (s : State) (id : Nat) (ag : Agent) (g : BitVec 2) (d : BitVec 6) (a b : Src) (x y : Word),
    s.mover = some (id, ag) → ag.Issues g → x = ag.src a → y = ag.src b →
    let done : Bool → Out := fun c => .next (retire s id (ag.sSet d.toNat (if c then 1 else 0)))
    exec (.cmpEq g d a b) s = done (decide (x = y)) ∧
    exec (.cmpNe g d a b) s = done (decide (x ≠ y)) ∧
    exec (.cmpLt g d a b) s = done (decide (x.toInt < y.toInt)) ∧
    exec (.cmpLtu g d a b) s = done (decide (x.toNat < y.toNat)) ∧
    exec (.cmpLe g d a b) s = done (decide (x.toInt ≤ y.toInt)) ∧
    exec (.cmpLeu g d a b) s = done (decide (x.toNat ≤ y.toNat)) ∧
    exec (.cmpGt g d a b) s = done (decide (y.toInt < x.toInt)) ∧
    exec (.cmpGtu g d a b) s = done (decide (y.toNat < x.toNat)) ∧
    exec (.cmpGe g d a b) s = done (decide (y.toInt ≤ x.toInt)) ∧
    exec (.cmpGeu g d a b) s = done (decide (y.toNat ≤ x.toNat))) ∧
  decode [0x0C07, 0x4861] = .ok (.cmpGeu 0 6 (.reg 2) (.reg 3))

/-- ADD64, SUB64, MUL64, the pair shifts and ADDA on register pairs. [R157, R158]
With A and B the 64-bit sources and n the 32-bit scalar count: ADD64, SUB64, MUL64 wrap modulo 2^64; SHL64, SHR64,
SAR64 take the whole count (0, or the sign, from 64 on); ADDA adds the signed index s[B][29:0] times 2^s[B][31:30]
modulo 2^64 and checks nothing. The result goes to the pair D; all sources are read first; no flag is set; the
instruction retires. The encoding example of ADDA decodes. -/
def Obligations.PairArithmetic : Prop :=
  (∀ (s : State) (id : Nat) (ag : Agent) (g : BitVec 2) (d : BitVec 6) (a b : Src) (x y : DWord) (c : Word) (n : Nat),
    s.mover = some (id, ag) → ag.Issues g → x = ag.srcP a → y = ag.srcP b → c = ag.src b → n = c.toNat →
    let done : DWord → Out := fun w => .next (retire s id (ag.pSet d.toNat w))
    exec (.add64 g d a b) s = done (BitVec.ofNat 64 (x.toNat + y.toNat)) ∧
    exec (.sub64 g d a b) s = done (BitVec.ofInt 64 ((x.toNat : Int) - y.toNat)) ∧
    exec (.mul64 g d a b) s = done (BitVec.ofNat 64 (x.toNat * y.toNat)) ∧
    exec (.shl64 g d a b) s = done (if n < 64 then BitVec.ofNat 64 (x.toNat * 2 ^ n) else 0) ∧
    exec (.shr64 g d a b) s = done (if n < 64 then BitVec.ofNat 64 (x.toNat / 2 ^ n) else 0) ∧
    exec (.sar64 g d a b) s =
      done (if n < 64 then BitVec.ofInt 64 (x.toInt / 2 ^ n) else if x.getLsbD 63 then 0xFFFFFFFFFFFFFFFF else 0) ∧
    exec (.adda g d a b) s =
      done (BitVec.ofInt 64 ((x.toNat : Int) +
        (if 2 ^ 29 ≤ n % 2 ^ 30 then ((n % 2 ^ 30 : Nat) : Int) - 2 ^ 30 else ((n % 2 ^ 30 : Nat) : Int)) * 2 ^ (n / 2 ^ 30)))) ∧
  decode [0x1009, 0x3184] = .ok (.adda 0 8 (.reg 8) (.reg 12))

/-- The compact forms do what their aliases do, with guard k0 and the literal of R159; the scalar ones complete. [R110,
R159]
MOV, ADD, SUB, AND, OR and XOR compact on registers a and b; ADD and MOV with the sign-extended imm5; SHL, SHR and SAR
with the zero-extended imm5; XFER and XFERN on branch target a with scalar b; KMOV on predicates; NOP; and the vector
forms. Each is its 32-bit form with guard 0, at every state; for every mover the scalar forms answer the next state in
which register a holds the value and the instruction has retired. -/
def Obligations.CompactForms : Prop :=
  (∀ (s : State) (a b : BitVec 5),
    let d : BitVec 6 := BitVec.ofNat 6 a.toNat
    let c : BitVec 6 := BitVec.ofNat 6 b.toNat
    let z : Src := .lit (BitVec.ofNat 32 b.toNat)
    let sx : Src := .lit (BitVec.ofInt 32 b.toInt)
    exec (.movCompact a b) s = exec (.mov 0 d (.reg c)) s ∧
    exec (.addCompact a b) s = exec (.add 0 d (.reg d) (.reg c)) s ∧
    exec (.subCompact a b) s = exec (.sub 0 d (.reg d) (.reg c)) s ∧
    exec (.andCompact a b) s = exec (.and 0 d (.reg d) (.reg c)) s ∧
    exec (.orCompact a b) s = exec (.or 0 d (.reg d) (.reg c)) s ∧
    exec (.xorCompact a b) s = exec (.xor 0 d (.reg d) (.reg c)) s ∧
    exec (.addImmCompact a b) s = exec (.add 0 d (.reg d) sx) s ∧
    exec (.shlCompact a b) s = exec (.shl 0 d (.reg d) z) s ∧
    exec (.shrCompact a b) s = exec (.shr 0 d (.reg d) z) s ∧
    exec (.sarCompact a b) s = exec (.sar 0 d (.reg d) z) s ∧
    exec (.movImmCompact a b) s = exec (.mov 0 d sx) s ∧
    exec (.vmovCompact a b) s = exec (.vmov 0 d (.reg c)) s ∧
    exec (.vaddCompact a b) s = exec (.vadd 0 d (.reg d) (.reg c)) s ∧
    exec (.vfaddCompact a b) s = exec (.vfadd 0 d (.reg d) (.reg c)) s ∧
    exec (.vfmulCompact a b) s = exec (.vfmul 0 d (.reg d) (.reg c)) s ∧
    exec (.kmovCompact a b) s = exec (.kmov 0 d c) s ∧
    exec (.xferCompact a b) s = exec (.xfer 0 d (.reg c)) s ∧
    exec (.xfernCompact a b) s = exec (.xfern 0 d (.reg c)) s ∧
    exec .nopCompact s = exec (.nop 0) s) ∧
  (∀ (s : State) (id : Nat) (ag : Agent) (a b : BitVec 5) (x y : Word) (n : Nat),
    s.mover = some (id, ag) → x = ag.sGet a.toNat → y = ag.sGet b.toNat → n = b.toNat →
    let done : Word → Out := fun w => .next (retire s id (ag.sSet a.toNat w))
    exec (.movCompact a b) s = done y ∧
    exec (.addCompact a b) s = done (BitVec.ofNat 32 (x.toNat + y.toNat)) ∧
    exec (.subCompact a b) s = done (BitVec.ofInt 32 ((x.toNat : Int) - y.toNat)) ∧
    exec (.andCompact a b) s = done (BitVec.ofNat 32 (x.toNat &&& y.toNat)) ∧
    exec (.orCompact a b) s = done (BitVec.ofNat 32 (x.toNat ||| y.toNat)) ∧
    exec (.xorCompact a b) s = done (BitVec.ofNat 32 (x.toNat ^^^ y.toNat)) ∧
    exec (.addImmCompact a b) s = done (BitVec.ofInt 32 ((x.toNat : Int) + b.toInt)) ∧
    exec (.shlCompact a b) s = done (BitVec.ofNat 32 (x.toNat * 2 ^ n)) ∧
    exec (.shrCompact a b) s = done (BitVec.ofNat 32 (x.toNat / 2 ^ n)) ∧
    exec (.sarCompact a b) s = done (BitVec.ofInt 32 (x.toInt / 2 ^ n)) ∧
    exec (.movImmCompact a b) s = done (BitVec.ofInt 32 b.toInt))

/-- Reading and writing vector and predicate registers, beat masks, guards and the active lanes. [R97, R98, R107, R109]
A vector write changes register r in the lanes of its mask alone, and nothing for code 63; a predicate write changes
predicate r (1 to 7) in the lanes of its mask alone; k0 reads all ones and its writes are discarded; the beat mask of
lane 32b + i is bit i of bm b (s60 to s62); a guard field names k0 to k3, negated where the run header says so; the
active lanes are those whose beat-mask bit and guard value are 1; an instruction fires with guard k0 always, else when
a lane is active. -/
def Obligations.VectorRegistersAndMasks : Prop :=
  ∀ (ag : Agent) (r n l q : Nat) (m v : Mask) (f : Nat → Word) (g : BitVec 2), l < 96 →
    ((ag.vSet r m f).vGet n l = if n = r ∧ r < 63 ∧ m.getLsbD l then f l else ag.vGet n l) ∧
    ((ag.kSet r m v).kGet q).getLsbD l =
      (if q = r ∧ 1 ≤ r ∧ r ≤ 7 ∧ m.getLsbD l then v.getLsbD l else (ag.kGet q).getLsbD l) ∧
    (ag.kGet 0).getLsbD l = true ∧
    ag.beat.getLsbD l = (ag.sGet (60 + l / 32)).getLsbD (l % 32) ∧
    (ag.active g).getLsbD l =
      (ag.beat.getLsbD l && ((ag.kGet g.toNat).getLsbD l != (decide (1 ≤ g.toNat) && ag.run.neg.getLsbD (g.toNat - 1)))) ∧
    (ag.fires g = true ↔ g = 0 ∨ ∃ i, i < 96 ∧ (ag.active g).getLsbD i = true)

/-- Lane arithmetic of major 0x08, VSEL and the compact vector forms. [R162, R163]
For a wave, in every active lane with a and b the lane values: the functions of R162 (wrapping arithmetic, high signed
product, logic, shifts by the whole count, minima and maxima, VABS, VNEG, counts, saturating VADDS and VSUBS, VMOV),
and nothing in other lanes; VSEL writes every lane of the beat masks, source A where the guard is 1 and source B
elsewhere. No flag is set; the instruction retires. The encoding examples decode. -/
def Obligations.VectorInteger : Prop :=
  (∀ (s : State) (id : Nat) (ag : Agent) (g : BitVec 2) (d : BitVec 6) (a b : Src) (x y : Nat → Word),
    s.mover = some (id, ag) → ag.profile = .wave → x = ag.vsrc a → y = ag.vsrc b →
    let done : (Nat → Word) → Out := fun f => .next (retire s id (ag.vSet d.toNat (ag.active g) f))
    let sat : Int → Word := fun v => BitVec.ofInt 32 (max (-(2 ^ 31)) (min v (2 ^ 31 - 1)))
    exec (.vadd g d a b) s = done (fun l => BitVec.ofNat 32 ((x l).toNat + (y l).toNat)) ∧
    exec (.vsub g d a b) s = done (fun l => BitVec.ofInt 32 (((x l).toNat : Int) - (y l).toNat)) ∧
    exec (.vmul g d a b) s = done (fun l => BitVec.ofNat 32 ((x l).toNat * (y l).toNat)) ∧
    exec (.vmulh g d a b) s = done (fun l => BitVec.ofInt 32 ((x l).toInt * (y l).toInt / 2 ^ 32)) ∧
    exec (.vand g d a b) s = done (fun l => BitVec.ofNat 32 ((x l).toNat &&& (y l).toNat)) ∧
    exec (.vor g d a b) s = done (fun l => BitVec.ofNat 32 ((x l).toNat ||| (y l).toNat)) ∧
    exec (.vxor g d a b) s = done (fun l => BitVec.ofNat 32 ((x l).toNat ^^^ (y l).toNat)) ∧
    exec (.vshl g d a b) s =
      done (fun l => if (y l).toNat < 32 then BitVec.ofNat 32 ((x l).toNat * 2 ^ (y l).toNat) else 0) ∧
    exec (.vshr g d a b) s =
      done (fun l => if (y l).toNat < 32 then BitVec.ofNat 32 ((x l).toNat / 2 ^ (y l).toNat) else 0) ∧
    exec (.vsar g d a b) s =
      done (fun l => if (y l).toNat < 32 then BitVec.ofInt 32 ((x l).toInt / 2 ^ (y l).toNat)
        else if (x l).getLsbD 31 then 0xFFFFFFFF else 0) ∧
    exec (.vmin g d a b) s = done (fun l => if (x l).toInt < (y l).toInt then x l else y l) ∧
    exec (.vmax g d a b) s = done (fun l => if (y l).toInt < (x l).toInt then x l else y l) ∧
    exec (.vminu g d a b) s = done (fun l => if (x l).toNat < (y l).toNat then x l else y l) ∧
    exec (.vmaxu g d a b) s = done (fun l => if (y l).toNat < (x l).toNat then x l else y l) ∧
    exec (.vabs g d a) s = done (fun l => BitVec.ofNat 32 (x l).toInt.natAbs) ∧
    exec (.vneg g d a) s = done (fun l => BitVec.ofInt 32 (-(x l).toInt)) ∧
    exec (.vclz g d a) s = done (fun l => BitVec.ofNat 32 (if (x l).toNat = 0 then 32 else 31 - Nat.log2 (x l).toNat)) ∧
    exec (.vpopc g d a) s = done (fun l => BitVec.ofNat 32 ((List.range 32).countP (fun n => (x l).toNat.testBit n))) ∧
    exec (.vadds g d a b) s = done (fun l => sat ((x l).toInt + (y l).toInt)) ∧
    exec (.vsubs g d a b) s = done (fun l => sat ((x l).toInt - (y l).toInt)) ∧
    exec (.vmov g d a) s = done x ∧
    exec (.vsel g d a b) s =
      .next (retire s id (ag.vSet d.toNat ag.beat (fun l => if (ag.guardMask g).getLsbD l then x l else y l)))) ∧
  (∀ (s : State) (id : Nat) (ag : Agent) (a b : BitVec 5),
    s.mover = some (id, ag) → ag.profile = .wave →
    exec (.vmovCompact a b) s = .next (retire s id (ag.vSet a.toNat ag.beat (ag.vGet b.toNat))) ∧
    exec (.vaddCompact a b) s =
      .next (retire s id (ag.vSet a.toNat ag.beat
        (fun l => BitVec.ofNat 32 ((ag.vGet a.toNat l).toNat + (ag.vGet b.toNat l).toNat))))) ∧
  decode [0x8811, 0x90C2] = .ok (.vadds 0 4 (.reg 5) (.reg 6)) ∧
  decode [0x9111, 0xA944] = .ok (.vsel 2 8 (.reg 9) (.reg 10))

/-- VMAD, VMADH, VDOT4 and VDOT4U add into the destination. [R164]
For a wave, in every active lane with a, b and the old destination c: c + a*b, c + the high word of the signed
product, c + the sum of the four signed byte products, c + the sum of the four unsigned byte products, each formed
exactly and wrapped once modulo 2^32. The encoding example decodes. -/
def Obligations.VectorAccumulate : Prop :=
  (∀ (s : State) (id : Nat) (ag : Agent) (g : BitVec 2) (d : BitVec 6) (a b : Src) (x y c : Nat → Word),
    s.mover = some (id, ag) → ag.profile = .wave → x = ag.vsrc a → y = ag.vsrc b → c = ag.vGet d.toNat →
    let done : (Nat → Int) → Out := fun f => .next (retire s id (ag.vSet d.toNat (ag.active g) (fun l => BitVec.ofInt 32 (f l))))
    let u : Word → Nat → Int := fun w j => ((w.toNat / 256 ^ j % 256 : Nat) : Int)
    let sg : Word → Nat → Int := fun w j => if 128 ≤ u w j then u w j - 256 else u w j
    exec (.vmad g d a b) s = done (fun l => (c l).toNat + (x l).toNat * (y l).toNat) ∧
    exec (.vmadh g d a b) s = done (fun l => (c l).toNat + (x l).toInt * (y l).toInt / 2 ^ 32) ∧
    exec (.vdot4 g d a b) s = done (fun l => (c l).toNat + sg (x l) 0 * sg (y l) 0 + sg (x l) 1 * sg (y l) 1 +
      sg (x l) 2 * sg (y l) 2 + sg (x l) 3 * sg (y l) 3) ∧
    exec (.vdot4u g d a b) s = done (fun l => (c l).toNat + u (x l) 0 * u (y l) 0 + u (x l) 1 * u (y l) 1 +
      u (x l) 2 * u (y l) 2 + u (x l) 3 * u (y l) 3)) ∧
  decode [0x9813, 0x11C6] = .ok (.vdot4 0 12 (.reg 13) (.reg 14))

/-- VCMP writes predicate bits in the active lanes; predicate logic, KFROMS and KTOS act on all 96 bits. [R165, R166,
R167, R173]
For a wave: VCMP.cc writes, for each active lane, 1 where its condition holds and 0 where not, into predicate D. KAND,
KOR, KXOR, KNOT, KMOV and KFROMS write all 96 bits of predicate D once when the guard fires; KFROMS takes three
scalars, one word per beat; KTOS writes three scalars from a predicate. A source group or word at s0 follows the
scalar rules. No flag is set; the instruction retires. -/
def Obligations.VectorCompareAndPredicates : Prop :=
  (∀ (s : State) (id : Nat) (ag : Agent) (g : BitVec 2) (d : BitVec 6) (a b : Src) (x y : Nat → Word),
    s.mover = some (id, ag) → ag.profile = .wave → x = ag.vsrc a → y = ag.vsrc b →
    ∀ m : Mask,
    let sets : Instr → (Nat → Prop) → Prop := fun i p =>
      (∀ l, l < 96 → (m.getLsbD l = true ↔ p l)) → exec i s = .next (retire s id (ag.kSet d.toNat (ag.active g) m))
    sets (.vcmpEq g d a b) (fun l => x l = y l) ∧
    sets (.vcmpNe g d a b) (fun l => x l ≠ y l) ∧
    sets (.vcmpLt g d a b) (fun l => (x l).toInt < (y l).toInt) ∧
    sets (.vcmpLtu g d a b) (fun l => (x l).toNat < (y l).toNat) ∧
    sets (.vcmpLe g d a b) (fun l => (x l).toInt ≤ (y l).toInt) ∧
    sets (.vcmpLeu g d a b) (fun l => (x l).toNat ≤ (y l).toNat) ∧
    sets (.vcmpGt g d a b) (fun l => (y l).toInt < (x l).toInt) ∧
    sets (.vcmpGtu g d a b) (fun l => (y l).toNat < (x l).toNat) ∧
    sets (.vcmpGe g d a b) (fun l => (y l).toInt ≤ (x l).toInt) ∧
    sets (.vcmpGeu g d a b) (fun l => (y l).toNat ≤ (x l).toNat)) ∧
  (∀ (s : State) (id : Nat) (ag : Agent) (g : BitVec 2) (d a b : BitVec 6) (p q : Mask),
    s.mover = some (id, ag) → ag.profile = .wave → ag.fires g = true → p = ag.kGet a.toNat → q = ag.kGet b.toNat →
    let done : Mask → Out := fun m => .next (retire s id (ag.kSet d.toNat (BitVec.allOnes 96) m))
    exec (.kand g d a b) s = done (p &&& q) ∧
    exec (.kor g d a b) s = done (p ||| q) ∧
    exec (.kxor g d a b) s = done (p ^^^ q) ∧
    exec (.knot g d a) s = done (~~~p) ∧
    exec (.kmov g d a) s = done p ∧
    exec (.kfroms g d a) s = done (ag.sGet (a.toNat + 2) ++ ag.sGet (a.toNat + 1) ++ ag.sGet a.toNat) ∧
    exec (.ktos g d a) s =
      .next (retire s id (((ag.sSet d.toNat (BitVec.ofNat 32 p.toNat)).sSet (d.toNat + 1)
        (BitVec.ofNat 32 (p.toNat / 2 ^ 32))).sSet (d.toNat + 2) (BitVec.ofNat 32 (p.toNat / 2 ^ 64))))) ∧
  (∀ (s : State) (id : Nat) (ag : Agent) (a b : BitVec 5),
    s.mover = some (id, ag) → ag.profile = .wave →
    exec (.kmovCompact a b) s = .next (retire s id (ag.kSet a.toNat (BitVec.allOnes 96) (ag.kGet b.toNat)))) ∧
  decode [0x0215, 0x1FE1, 0x0064, 0x0000] = .ok (.vcmpLtu 0 1 (.reg 2) (.lit 100))

/-- PK4, UPK4, PK6, UPK6, PKTS, UPKTS repack codes; NBL, NBR and NROT read other lanes. [R168, R169, R170, R172]
For a wave, in every active lane: the packings of R168 to R170, given nibble by nibble, 6-bit element by element, and
the TS8 weights in units of 1/8; NBL and NBR read the lane below and above (mode 0 gives zero at the edge, mode 1
wraps), NROT the lane b lanes up modulo 96, whether or not the source lane is active. The encoding example decodes. -/
def Obligations.PackingAndLaneNetwork : Prop :=
  (∀ (s : State) (id : Nat) (ag : Agent) (g : BitVec 2) (d e m : BitVec 6) (a b : Src) (x y : Nat → Word),
    s.mover = some (id, ag) → ag.profile = .wave → x = ag.vsrc a → y = ag.vsrc b →
    let done : (Nat → Nat) → Out := fun f => .next (retire s id (ag.vSet d.toNat (ag.active g) (fun l => BitVec.ofNat 32 (f l))))
    let sum : Nat → (Nat → Nat) → Nat := fun n f => ((List.range n).map f).sum
    let nib : Word → Nat → Nat := fun w i => w.toNat / 16 ^ i % 16
    let term : Nat → Int := fun t => if t % 8 = 0 then 0 else (if 8 ≤ t then -1 else 1) * 2 ^ (t % 8 - 1)
    let weight : Nat → Int := fun t => term (t / 16) + term (t % 16)
    let bytes : Word → Nat → Nat := fun w j => w.toNat / 256 ^ j % 256
    exec (.pk4 g d a b) s =
      done (fun l => sum 4 (fun i => nib (x l) (2 * i) * 16 ^ i + nib (y l) (2 * i) * 16 ^ (i + 4))) ∧
    exec (.upk4 g d a b) s =
      done (fun l => sum 4 (fun j =>
        let n := nib (x l) (4 * ((y l).toNat % 2) + j)
        (if (y l).getLsbD 1 ∧ 8 ≤ n then n + 240 else n) * 256 ^ j)) ∧
    exec (.pkts g d a b) s = done (fun l => sum 4 (fun j => (nib (x l) (2 * j) * 16 + nib (y l) (2 * j)) * 256 ^ j)) ∧
    exec (.upkts g d a b) s =
      done (fun l => sum 2 (fun h => (weight (bytes (x l) (2 * ((y l).toNat % 2) + h)) % 2 ^ 16).toNat * 65536 ^ h)) ∧
    exec (.nbl g d a m) s =
      done (fun l => if l = 0 then (if m = 0 then 0 else (x 95).toNat) else (x (l - 1)).toNat) ∧
    exec (.nbr g d a m) s =
      done (fun l => if l = 95 then (if m = 0 then 0 else (x 0).toNat) else (x (l + 1)).toNat) ∧
    exec (.nrot g d a b) s = done (fun l => (x ((l + (y l).toNat) % 96)).toNat) ∧
    (let stream : Nat → Nat := fun l =>
        sum 16 (fun i => bytes (ag.vGet (e.toNat + i / 4) l) (i % 4) % 64 * 64 ^ i)
      let put : Agent → Nat → Agent := fun t w =>
        t.vSet (d.toNat + w) (ag.active g) (fun l => BitVec.ofNat 32 (stream l / 2 ^ (32 * w)))
      exec (.pk6 g d e) s = .next (retire s id (put (put (put ag 0) 1) 2))) ∧
    (let stream : Nat → Nat := fun l => sum 3 (fun w => (ag.vGet (e.toNat + w) l).toNat * 2 ^ (32 * w))
      let put : Agent → Nat → Agent := fun t w =>
        t.vSet (d.toNat + w) (ag.active g)
          (fun l => BitVec.ofNat 32 (sum 4 (fun j => stream l / 64 ^ (4 * w + j) % 64 * 256 ^ j)))
      exec (.upk6 g d e) s = .next (retire s id (put (put (put (put ag 0) 1) 2) 3)))) ∧
  decode [0x8825, 0x0022] = .ok (.nbl 0 4 (.reg 5) 1)

/-- The FP32 and FP64 arithmetic functions round the exact result once; invalid operations give the canonical NaN and nv.
[R175, R176, R191]
For a wave: VFADD to VFNMA and VDADD to VDFMA write in every active lane the code that fArith computes from the lane
operands under rmode.rm, and OR its flags into rstat; under RS each active lane draws once. What fArith computes,
without ftz: for finite operands the exact sum, difference, product or fused form, rounded once; for opposite
infinities added and for zero times infinity the canonical NaN with nv; for a NaN operand the canonical NaN, with nv
for a signalling one. -/
def Obligations.FloatArithmetic : Prop :=
  (∀ (s : State) (id : Nat) (ag : Agent) (g : BitVec 2) (d : BitVec 6) (a b : Src),
    s.mover = some (id, ag) → ag.profile = .wave →
    let act := ag.active g
    let single : FOp → Out := fun o => .next (retire s id ((ag.drawLanes ag.rm act).putF d.toNat act (fun l =>
      fArith .fp32 o ag.rm (ag.drawOf l) ag.ftz (ag.vsrc a l).toNat (ag.vsrc b l).toNat (ag.vGet d.toNat l).toNat)))
    let double : FOp → Out := fun o => .next (retire s id ((ag.drawLanes ag.rm act).putD d.toNat act (fun l =>
      fArith .fp64 o ag.rm (ag.drawOf l) ag.ftz (ag.vsrcD a l).toNat (ag.vsrcD b l).toNat (ag.vpGet d.toNat l).toNat)))
    exec (.vfadd g d a b) s = single .add ∧ exec (.vfsub g d a b) s = single .sub ∧
    exec (.vfmul g d a b) s = single .mul ∧ exec (.vfma g d a b) s = single .fma ∧
    exec (.vfms g d a b) s = single .fms ∧ exec (.vfnma g d a b) s = single .fnma ∧
    exec (.vdadd g d a b) s = double .add ∧ exec (.vdsub g d a b) s = double .sub ∧
    exec (.vdmul g d a b) s = double .mul ∧ exec (.vdfma g d a b) s = double .fma) ∧
  (∀ (s : State) (id : Nat) (ag : Agent) (a b : BitVec 5),
    s.mover = some (id, ag) → ag.profile = .wave →
    let done : FOp → Out := fun o => .next (retire s id ((ag.drawLanes ag.rm ag.beat).putF a.toNat ag.beat (fun l =>
      fArith .fp32 o ag.rm (ag.drawOf l) ag.ftz (ag.vGet a.toNat l).toNat (ag.vGet b.toNat l).toNat (ag.vGet a.toNat l).toNat)))
    exec (.vfaddCompact a b) s = done .add ∧ exec (.vfmulCompact a b) s = done .mul) ∧
  (∀ (f : Fmt) (mode dr x y c : Nat), f = .fp32 ∨ f = .fp64 →
    let val : FVal → Rat := fun v => match v with
      | .fin n m e => (if n then -1 else 1) * (m : Rat) * (2 : Rat) ^ e
      | _ => 0
    let u := f.decode x
    let v := f.decode y
    let w := f.decode c
    (u.isNan = false → u.isInf = false → v.isNan = false → v.isInf = false → w.isNan = false → w.isInf = false →
      ∀ o : FOp, ∃ n m e, fArith f o mode dr false x y c = roundTo f mode dr (.fin n m e) ∧
        val (.fin n m e) = match o with
          | .add => val u + val v
          | .sub => val u - val v
          | .mul => val u * val v
          | .fma => val u * val v + val w
          | .fms => val u * val v - val w
          | .fnma => val w - val u * val v) ∧
    (u.isInf = true → v.isInf = true → u.neg ≠ v.neg → fArith f .add mode dr false x y c = (f.nanBits, 16)) ∧
    (u.isInf = true → v.isInf = true → u.neg = v.neg → fArith f .sub mode dr false x y c = (f.nanBits, 16)) ∧
    (u.isInf = true → v.isZero = true →
      fArith f .mul mode dr false x y c = (f.nanBits, 16) ∧ fArith f .fma mode dr false x y c = (f.nanBits, 16)) ∧
    (u.isNan = true ∨ v.isNan = true →
      ∀ o : FOp, o = .add ∨ o = .sub ∨ o = .mul →
        fArith f o mode dr false x y c = (f.nanBits, if u.isSig = true ∨ v.isSig = true then 16 else 0)))

/-- VCVT, VFRND and VSCALE convert each active lane; the table of R182. [R171, R179, R181, R182]
For a wave: VCVT of each of the 31 pairs reads the source format from the lane, converts it under its mode (7 is
rmode.rm) with one draw per active lane for a rounding pair under RS, places the code and ORs the flags; VFRND and
VSCALE complete likewise. The nine rows of R182 hold for convertCode; a saturating pair clamps and sets nv where the
value changed; an exact pair keeps a finite value with no flag, a narrow integer's among them. What VFRND computes,
without ftz: a NaN gives the canonical NaN, an infinity or a zero stays, and a finite value goes to an integral one of
its sign, the nearest with ties to even, toward zero, up or down as the mode says, with nx exactly where it changed. -/
def Obligations.Conversions : Prop :=
  (∀ (s : State) (id : Nat) (ag : Agent) (g : BitVec 2) (d m : BitVec 6) (a b : Src) (p : BitVec 5),
    s.mover = some (id, ag) → ag.profile = .wave →
    let act := ag.active g
    let mode := if m = 7 then ag.rm else m.toNat
    (∀ dst src kind, cvtPairs[p.toNat]? = some (dst, src, kind) →
      exec (.vcvt p g d a m) s =
        (let t := if kind = .rounding then ag.drawLanes mode act else ag
         let r : Nat → Nat × Fl := fun l => convertCode dst src kind mode (ag.drawOf l) ag.ftz (ag.cvtSrc src a l)
         .next (retire s id
          (if dst.bits = 64 then t.putD d.toNat act r else t.putF d.toNat act (fun l => (placeCode dst (r l).1, (r l).2)))))) ∧
    exec (.vfrnd g d a m) s =
      .next (retire s id ((ag.drawLanes mode act).putF d.toNat act
        (fun l => fRound mode (ag.drawOf l) ag.ftz (ag.vsrc a l).toNat))) ∧
    (∃ r : Nat → Nat × Fl,
      exec (.vscale g d a b) s = .next (retire s id ((ag.drawLanes ag.rm act).putF d.toNat act r)) ∧
      ∀ l, let x := (ag.vsrc b l).toNat / 256 ^ (l / 32) % 256
        let v := Fmt.fp32.decode (Fmt.fp32.flushIn ag.ftz (ag.vsrc a l).toNat)
        (x = 255 → r l = (0x7FC00000, 0)) ∧
        (x ≠ 255 → ∀ n k e, v = .fin n k e →
          r l = Fmt.fp32.flushOut ag.ftz (roundTo .fp32 ag.rm (ag.drawOf l) (.fin n k (e + ((x : Int) - 127))))) ∧
        (x ≠ 255 → ∀ n, v = .inf n → r l = (if n then 0xFF800000 else 0x7F800000, 0)) ∧
        (x ≠ 255 → ∀ q, v = .nan q → r l = (0x7FC00000, if q then 16 else 0)))) ∧
  (∀ x : BitVec 32,
    convertCode .int8 .int32 .saturating 0 0 false x.toNat =
      ((max (-128) (min 127 x.toInt) % 256).toNat, if x.toInt < -128 ∨ 127 < x.toInt then 16 else 0) ∧
    convertCode .uint8 .int32 .saturating 0 0 false x.toNat =
      ((max 0 (min 255 x.toInt)).toNat, if x.toInt < 0 ∨ 255 < x.toInt then 16 else 0)) ∧
  (∀ mode dr : Nat,
    let val : FVal → Rat := fun v => match v with
      | .fin n m e => (if n then -1 else 1) * (m : Rat) * (2 : Rat) ^ e
      | _ => 0
    (∀ dst src, (dst, src, CvtKind.exact) ∈ cvtPairs → ∀ x, x < 2 ^ src.bits →
      (src.decode x).isNan = false → (src.decode x).isInf = false →
      (convertCode dst src .exact mode dr false x).2 = 0 ∧
      val (dst.decode (convertCode dst src .exact mode dr false x).1) = val (src.decode x)) ∧
    (∀ x : BitVec 8, val (Fmt.fp32.decode (convertCode .fp32 .int8 .exact mode dr false x.toNat).1) = x.toInt ∧
      val (Fmt.fp32.decode (convertCode .fp32 .uint8 .exact mode dr false x.toNat).1) = x.toNat) ∧
    (∀ x : BitVec 16, val (Fmt.fp32.decode (convertCode .fp32 .int16 .exact mode dr false x.toNat).1) = x.toInt) ∧
    (∀ x : BitVec 32, val (Fmt.fp64.decode (convertCode .fp64 .int32 .exact mode dr false x.toNat).1) = x.toInt) ∧
    (∀ x, x < 2 ^ 32 →
      let u := Fmt.fp32.decode x
      let r := fRound mode dr false x
      let v := Fmt.fp32.decode r.1
      (u.isNan = true → r = (0x7FC00000, if u.isSig = true then 16 else 0)) ∧
      (u.isInf = true ∨ u.isZero = true → r = (x, 0)) ∧
      (u.isNan = false → u.isInf = false → mode ≤ 3 →
        v.isNan = false ∧ v.isInf = false ∧ v.neg = u.neg ∧ (∃ k : Int, val v = k) ∧
        r.2 = (if val v = val u then 0 else 1) ∧
        (mode = 0 → |val u - val v| ≤ 1 / 2 ∧ (|val u - val v| = 1 / 2 → ∃ k : Int, val v = 2 * k)) ∧
        (mode = 1 → |val v| ≤ |val u| ∧ |val u| < |val v| + 1) ∧
        (mode = 2 → val u ≤ val v ∧ val v < val u + 1) ∧
        (mode = 3 → val v ≤ val u ∧ val u < val v + 1)))) ∧
  convertCode .e4m3 .fp32 .rounding 0 0 false 0x43960000 = (0x79, 1) ∧
  convertCode .e4m3 .fp32 .rounding 0 0 false 0x43FA0000 = (0x7E, 5) ∧
  convertCode .e4m3 .fp32 .rounding 1 0 false 0x7F800000 = (0x7E, 16) ∧
  convertCode .f4 .fp32 .rounding 0 0 false 0x40A00000 = (0x6, 1) ∧
  convertCode .int8 .fp32 .rounding 0 0 false 0x40200000 = (2, 1) ∧
  convertCode .uint8 .fp32 .rounding 0 0 false 0xC0600000 = (0, 16) ∧
  convertCode .uint8 .fp32 .rounding 0 0 false 0xBECCCCCD = (0, 1) ∧
  convertCode .int8 .int32 .saturating 0 0 false 200 = (0x7F, 16) ∧
  (∀ dr, dr < 2 ^ 32 → (convertCode .bf16 .fp32 .rounding 4 dr false 0x3F80FC00).2 = 1 ∧
    ((convertCode .bf16 .fp32 .rounding 4 dr false 0x3F80FC00).1 = 0x3F80 ∨
     (convertCode .bf16 .fp32 .rounding 4 dr false 0x3F80FC00).1 = 0x3F81))

/-- The special functions enter the queue of their CU and complete in order; the special operands of R184. [R183, R184,
R185, R187, R188]
For a wave whose guard fires: with fewer than 32 entries queued, each special function appends one entry (its
function, active lanes, operands, ftz, destination and the front bank) and retires; with 32 it waits. ATSWAP inverts
front; ATLD with a legal image appends the load of the back bank; SFU_ENTRY executes the oldest entry. The table of
special operands of R184 holds lane by lane. -/
def Obligations.SpecialFunctions : Prop :=
  (∀ (s : State) (id : Nat) (ag : Agent) (g : BitVec 2) (d : BitVec 6) (a : Src),
    s.mover = some (id, ag) → ag.profile = .wave → ag.fires g = true →
    let u := s.unit ag.unit
    let enter : SfuEntry → Out := fun e =>
      if u.sfu.length < 32 then .next (retire (s.putUnit ag.unit { u with sfu := u.sfu ++ [e] }) id ag)
      else .next (waitFor s id ag .again)
    let op : SfuOp → Out := fun o => enter
      { agent := id, op := o, mask := ag.active g, src := lanes (ag.vsrc a), ftz := ag.rmode.getLsbD 3, d := d.toNat,
        bank := u.front }
    exec (.srcp g d a) s = op .rcp ∧ exec (.srsq g d a) s = op .rsq ∧ exec (.ssqrt g d a) s = op .sqrt ∧
    exec (.sexp2 g d a) s = op .exp2 ∧ exec (.slog2 g d a) s = op .log2 ∧ exec (.ssin g d a) s = op .sin ∧
    exec (.scos g d a) s = op .cos ∧ exec (.stanh g d a) s = op .tanh ∧ exec (.sact g d a) s = op .act ∧
    exec (.atswap g) s =
      (if u.sfu.length < 32 then .next (retire (s.putUnit ag.unit { u with front := !u.front }) id ag)
       else .next (waitFor s id ag .again)) ∧
    ((ag.src a).toNat % 16 = 0 → (ag.src a).toNat + 3088 ≤ spadSize ag.unit →
      s.enginePlot ag.unit (ag.src a).toNat 3088 = none → ag.barred = false →
      exec (.atld g a) s = enter
        { agent := id, op := .atld, bank := !u.front, img := bankOf (s.spadRead ag.unit (ag.src a).toNat 3088) }) ∧
    ((ag.src a).toNat % 16 ≠ 0 ∨ spadSize ag.unit < (ag.src a).toNat + 3088 →
      exec (.atld g a) s = .next (trapHere s id ag 0x05 (BitVec.ofNat 64 (ag.src a).toNat)))) ∧
  (∀ (s : State) (cu : Nat), cu < 192 →
    exec (.sfuEntry cu) s = match (s.unit cu).sfu with
      | [] => .next s
      | e :: rest => .next ((s.putUnit cu { s.unit cu with sfu := rest }).sfuExec cu e)) ∧
  (∀ b : ActBank,
    sfuLane .rcp b false 0 = (0x7F800000, 8) ∧ sfuLane .rcp b false 0x80000000 = (0xFF800000, 8) ∧
    sfuLane .rcp b false 0x7F800000 = (0, 0) ∧ sfuLane .rcp b false 0xFF800000 = (0x80000000, 0) ∧
    sfuLane .rsq b false 0 = (0x7F800000, 8) ∧ sfuLane .rsq b false 0x80000000 = (0xFF800000, 8) ∧
    sfuLane .rsq b false 0xFF800000 = (0x7FC00000, 16) ∧ sfuLane .rsq b false 0x7F800000 = (0, 0) ∧
    sfuLane .sqrt b false 0 = (0, 0) ∧ sfuLane .sqrt b false 0x80000000 = (0x80000000, 0) ∧
    sfuLane .sqrt b false 0x7F800000 = (0x7F800000, 0) ∧ sfuLane .sqrt b false 0xBF800000 = (0x7FC00000, 16) ∧
    sfuLane .exp2 b false 0xFF800000 = (0, 0) ∧ sfuLane .exp2 b false 0x7F800000 = (0x7F800000, 0) ∧
    sfuLane .log2 b false 0 = (0xFF800000, 8) ∧ sfuLane .log2 b false 0x80000000 = (0xFF800000, 8) ∧
    sfuLane .log2 b false 0xFF800000 = (0x7FC00000, 16) ∧ sfuLane .log2 b false 0x3F800000 = (0, 0) ∧
    sfuLane .log2 b false 0x7F800000 = (0x7F800000, 0) ∧
    sfuLane .sin b false 0x7F800000 = (0x7FC00000, 16) ∧ sfuLane .cos b false 0xFF800000 = (0x7FC00000, 16) ∧
    sfuLane .sin b false 0x40400000 = (0, 0) ∧ sfuLane .sin b false 0xC0400000 = (0x80000000, 0) ∧
    sfuLane .cos b false 0x3FC00000 = (0, 0) ∧
    sfuLane .tanh b false 0 = (0, 0) ∧ sfuLane .tanh b false 0x80000000 = (0x80000000, 0) ∧
    sfuLane .tanh b false 0x7F800000 = (0x3F800000, 0) ∧ sfuLane .tanh b false 0xFF800000 = (0xBF800000, 0))

/-- What follows an instruction: the next iteration, the next instruction, the next pass, or what the pass leaves pending.
[R111, R113, R287, R294, R295]
After an instruction has completed: within REP the next iteration; else the next instruction of the run; after the
last one of a pass without a pending transfer the next pass, or, after the last pass, the halfword behind the run; a
pending transfer cancels the passes that remain and goes to its target. A SPLIT pushes its entry and starts the path
with more lanes (the lower start address where equal), a first JOIN starts the deferred path, a second pops and
reconverges, as R294 and R295 write it; the end of such a pass waits while an access that delivers to a beat mask is
open (R100), and the agent stays at it. Nothing else of the package changes. -/
def Obligations.RunAdvance : Prop :=
  ∀ (s : State) (id : Nat) (ag : Agent),
    let r := ag.run
    let r1 : Run := { r with off := r.off + r.ilen, idx := r.idx + 1, rep := none, resumed := false }
    let ends : Prop := (r.rep = none ∨ ∃ p, r.rep = some p ∧ p.cnt ≤ p.i + 1) ∧ r.cnt ≤ r.idx + 1
    let go : Run → State := fun q => s.putAgent id { ag with wait := .none, run := q }
    let owed : Prop := ∃ e ∈ ag.opens, ∃ n, 60 ≤ n ∧ n ≤ 62 ∧ (e.dst = .s n ∨ e.dst = .sp n ∨ e.dst = .sp (n - 1))
    (∀ p, r.rep = some p → p.i + 1 < p.cnt →
      retire s id ag = go { r with rep := some { p with i := p.i + 1 }, resumed := false }) ∧
    ((r.rep = none ∨ ∃ p, r.rep = some p ∧ p.cnt ≤ p.i + 1) → r.idx + 1 < r.cnt → retire s id ag = go r1) ∧
    (ends → r.pend = .none → 1 < r.left →
      retire s id ag = go { r1 with left := r.left - 1, off := 0, idx := 0 }) ∧
    (ends → r.pend = .none → r.left ≤ 1 →
      retire s id ag = go { pc := r.pc + 4 + BitVec.ofNat 64 (2 * r.code.length) }) ∧
    (∀ t, ends → r.pend = .jump t → retire s id ag = go { pc := t }) ∧
    (∀ taken join tm fm, ends → r.pend = .split taken join tm fm → ag.depth < 16 → ¬ owed →
      let fall := r.pc + 4 + BitVec.ofNat 64 (2 * r.code.length)
      let first : Prop := maskCount fm < maskCount tm ∨ (maskCount tm = maskCount fm ∧ taken.toNat < fall.toNat)
      ∃ ag', retire s id ag = s.putAgent id ag' ∧
        ag'.run = { pc := if first then taken else fall } ∧ ag'.beat = (if first then tm else fm) ∧
        ag'.depth = ag.depth + 1 ∧
        ag'.stk = { join := join, defer := if first then fall else taken, dmask := if first then fm else tm,
                    rmask := tm ||| fm, run2 := false } :: ag.stk ∧
        (∀ n, n < 60 → ag'.sGet n = ag.sGet n) ∧ ag'.v = ag.v ∧ ag'.k = ag.k) ∧
    (∀ e rest, ends → r.pend = .join → ag.stk = e :: rest → ag.depth ≤ 16 → ¬ owed →
      ∃ ag', retire s id ag = s.putAgent id ag' ∧
        ag'.run = { pc := if e.run2 then e.join else e.defer } ∧ ag'.beat = (if e.run2 then e.rmask else e.dmask) ∧
        ag'.stk = (if e.run2 then rest else { e with run2 := true } :: rest) ∧
        ag'.depth = (if e.run2 then ag.depth - 1 else ag.depth) ∧
        (∀ n, n < 60 → ag'.sGet n = ag.sGet n) ∧ ag'.v = ag.v ∧ ag'.k = ag.k) ∧
    (ends → (r.pend = .join ∨ ∃ taken join tm fm, r.pend = .split taken join tm fm) → owed →
      retire s id ag = { go { r1 with atEnd := true } with stalled := true })

/-- BLK checks its run before any instruction and then begins the first pass; a malformed run traps at the header. [R48,
R105, R111, R112]
At a boundary: when count is 1 to 24, the code behind the header can be fetched as far as its instructions reach, and
the run is not malformed under R112, BLK fetches the code once and begins the first of its passes at the first
instruction with the negation bits of the header. A count of 0 or above 24, or a malformed run, raises the illegal-run
trap at the header with the header word. Code that ends before the run does at a page without fetch permission raises
the address trap at the header, with the address that failed. The length given to an undecodable word (log 14), and
that an illegal word of a transfer's function counts as a transfer (log 124), are the model's choices. -/
def Obligations.RunHeader : Prop :=
  ∀ (s : State) (id : Nat) (ag : Agent) (neg : BitVec 3) (rep cnt : BitVec 6),
    s.mover = some (id, ag) → ag.run.inRun = false →
    let got := s.fetchCode ag (ag.run.pc + 4) 144
    let code := got.map (fun h => h.half)
    let lay := runLayout cnt.toNat code 0 []
    let word : DWord := BitVec.ofNat 64 (1 + cnt.toNat * 2 ^ 9 + rep.toNat * 2 ^ 15 + neg.toNat * 2 ^ 21)
    (1 ≤ cnt.toNat → cnt.toNat ≤ 24 → lay.2 ≤ code.length → runBad (code.take lay.2) lay.1 = false →
      exec (.blk neg rep cnt) s = .next ((s.keepCode id ag (got.take lay.2)).updAgent id (fun x =>
        { x with wait := .none, run :=
          { inRun := true, pc := ag.run.pc, code := code.take lay.2, neg := neg, cnt := cnt.toNat, left := rep.toNat + 1,
            resumed := x.run.resumed } }))) ∧
    (cnt.toNat = 0 ∨ 24 < cnt.toNat ∨ (lay.2 ≤ code.length ∧ runBad (code.take lay.2) lay.1 = true) →
      exec (.blk neg rep cnt) s = .next (takeTrap s id ag 0x02 ag.run.pc word)) ∧
    (1 ≤ cnt.toNat → cnt.toNat ≤ 24 → code.length < lay.2 →
      let va := ag.run.pc + 4 + BitVec.ofNat 64 (2 * code.length)
      s.target ag .fetch (.flat va) = .protect → exec (.blk neg rep cnt) s = .next (takeTrap s id ag 0x05 ag.run.pc va))

/-- REP starts its iterations at 0, or at repst.idx when it resumes; what may not follow it traps. [R113, R114]
REP before a 32-bit instruction that passes the checks of R113 and R114 clears repst.act and sets the run to its first
iteration (0, or repst.idx where the agent resumes by ERET and act is 1) with the three steps; before anything else
the illegal-instruction trap is raised at the REP. That REP itself, and not the word, traps for an illegal encoding of
a major it allows is the model's choice (log 125). -/
def Obligations.RepeatPrefix : Prop :=
  ∀ (s : State) (id : Nat) (ag : Agent) (stepb stepa stepd : BitVec 4) (cnt : BitVec 6) (h0 h1 : Half),
    s.mover = some (id, ag) → ag.run.inRun = true → ag.run.rep = none →
    ag.run.code[ag.run.off + 2]? = some h0 → ag.run.code[ag.run.off + 3]? = some h1 →
    let p : RepSt := { cnt := cnt.toNat + 1, i := 0, stepd := stepd, stepa := stepa, stepb := stepb }
    let first := if ag.run.resumed = true ∧ ag.repst.getLsbD 31 = true then ag.repst.toNat % 64 else 0
    (h0.getLsbD 0 = true → repOk (h1 ++ h0) p = true → first ≤ cnt.toNat →
      exec (.rep stepb stepa stepd cnt) s = .next (s.putAgent id
        { ag with wait := .none, repst := ag.repst &&& 0x7FFFFFFF, run :=
          { ag.run with off := ag.run.off + 2, idx := ag.run.idx + 1, resumed := false, rep := some { p with i := first } } })) ∧
    (h0.getLsbD 0 = false ∨ repOk (h1 ++ h0) p = false →
      exec (.rep stepb stepa stepd cnt) s = .next (takeTrap s id ag 0x01 ag.run.here ag.run.word))

/-- PREP, the conditional transfers, CALL with its link, SPLIT, JOIN, NOP, YIELD and HALT. [R287, R290, R291, R292, R293,
R294, R295]
PREP writes a branch target: with a literal its own address plus the signed offset, else pair A. XFER, CALL and RET
record the pending transfer to bt[A] when s[B] is not 0, XFERN when it is 0; a taken CALL writes the address behind
the run to pair D. SPLIT records the two paths of the beat masks under k[D]; JOIN records itself; both need room, or
an entry, in the divergence stack. NOP has no effect; YIELD marks the wave; HALT ends the wave or sequencer once its
accesses are performed, and stops a core. -/
def Obligations.Transfers : Prop :=
  (∀ (s : State) (id : Nat) (ag : Agent) (g : BitVec 2) (d a : BitVec 6) (b : Src) (lit : Word),
    s.mover = some (id, ag) → ag.Issues g →
    let done : Agent → Out := fun x => .next (retire s id x)
    let jump : Agent := { ag with run := { ag.run with pend := .jump (ag.btGet a.toNat) } }
    let fall := ag.run.pc + 4 + BitVec.ofNat 64 (2 * ag.run.code.length)
    exec (.prep g d (.lit lit)) s = done (ag.btSet d.toNat (ag.run.here + BitVec.ofInt 64 lit.toInt)) ∧
    exec (.prep g d (.reg a)) s = done (ag.btSet d.toNat (ag.pGet a.toNat)) ∧
    exec (.xfer g a b) s = done (if ag.src b ≠ 0 then jump else ag) ∧
    exec (.xfern g a b) s = done (if ag.src b = 0 then jump else ag) ∧
    exec (.ret g a b) s = done (if ag.src b ≠ 0 then jump else ag) ∧
    exec (.call g d a b) s = done (if ag.src b ≠ 0 then jump.pSet d.toNat fall else ag) ∧
    exec (.nop g) s = done ag ∧
    exec (.yield g) s = done (if ag.profile = .wave then { ag with yielded := true } else ag) ∧
    (ag.profile ≠ .host → exec (.halt g) s =
      .next { s.putAgent id { ag with stk := [], depth := 0, wait := .ending } with stalled := true }) ∧
    (ag.profile = .host → exec (.halt g) s = .next (s.putAgent id { ag with live := false, wait := .none }))) ∧
  (∀ (s : State) (id : Nat) (ag : Agent) (a b : BitVec 5),
    s.mover = some (id, ag) →
    let jump : Agent := { ag with run := { ag.run with pend := .jump (ag.btGet a.toNat) } }
    exec (.xferCompact a b) s = .next (retire s id (if ag.sGet b.toNat ≠ 0 then jump else ag)) ∧
    exec (.xfernCompact a b) s = .next (retire s id (if ag.sGet b.toNat = 0 then jump else ag)) ∧
    exec .nopCompact s = .next (retire s id ag)) ∧
  (∀ (s : State) (id : Nat) (ag : Agent) (d a b : BitVec 6),
    s.mover = some (id, ag) → ag.profile = .wave → ag.depth < 16 →
    exec (.split d a b) s = .next (retire s id { ag with run := { ag.run with
      pend := .split (ag.btGet a.toNat) (ag.btGet b.toNat) (ag.beat &&& ag.kGet d.toNat) (ag.beat &&& ~~~(ag.kGet d.toNat)) } }) ∧
    (ag.stk ≠ [] → exec .join s = .next (retire s id { ag with run := { ag.run with pend := .join } })) ∧
    (ag.stk = [] → exec .join s = .next (trapHere s id ag 0x09 3)))

/-- The votes over the active lanes whose predicate bit is 1, and the broadcast of one lane. [R299]
For a wave whose guard fires, with P the active lanes whose bit in k[A] is 1: VANY writes whether P is not empty, VALL
whether P is all active lanes, VBAL the three words of P, VCNT its count, VFFS its lowest lane or 0xFFFFFFFF, VBCAST
lane s[B] of v[A] whatever its activity, or 0 from 96 on. Each writes its scalars once and retires. -/
def Obligations.Votes : Prop :=
  ∀ (s : State) (id : Nat) (ag : Agent) (g : BitVec 2) (d a : BitVec 6) (x y : Src) (p : Mask),
    s.mover = some (id, ag) → ag.profile = .wave → ag.fires g = true →
    (∀ l, l < 96 → p.getLsbD l = ((ag.active g).getLsbD l && (ag.kGet a.toNat).getLsbD l)) →
    let done : Agent → Out := fun t => .next (retire s id t)
    exec (.vany g d a) s = done (ag.sSet d.toNat (if p = 0 then 0 else 1)) ∧
    exec (.vall g d a) s = done (ag.sSet d.toNat (if p = ag.active g then 1 else 0)) ∧
    exec (.vbal g d a) s = done (((ag.sSet d.toNat (BitVec.ofNat 32 p.toNat)).sSet (d.toNat + 1)
      (BitVec.ofNat 32 (p.toNat / 2 ^ 32))).sSet (d.toNat + 2) (BitVec.ofNat 32 (p.toNat / 2 ^ 64))) ∧
    exec (.vcnt g d a) s = done (ag.sSet d.toNat (BitVec.ofNat 32 ((List.range 96).countP (fun l => p.getLsbD l)))) ∧
    (∀ n, n < 96 → p.getLsbD n = true → (∀ m, m < n → p.getLsbD m = false) →
      exec (.vffs g d a) s = done (ag.sSet d.toNat (BitVec.ofNat 32 n))) ∧
    (p = 0 → exec (.vffs g d a) s = done (ag.sSet d.toNat 0xFFFFFFFF)) ∧
    exec (.vbcast g d x y) s =
      done (ag.sSet d.toNat (if (ag.src y).toNat < 96 then ag.vsrc x (ag.src y).toNat else 0))

/-- REGROUP fuses two matching waves: which lanes go where, the four statuses, and who waits. [R300, R301, R302]
For a wave with an empty divergence stack, no pending handle, no SFU entry and its accesses performed, that has not
arrived before: naming itself it gets status 2, and where the named wave is not live, 0; where the named wave waits at
another REGROUP, or at this one for another wave or range, both get 2. Where they match, more than 96 lanes give both
3; else the lower-numbered wave keeps lanes 0 to n - 1 from its own active lanes and then the partner's, gets 1, the
beat masks name the n lanes, the flags are or-ed, the partner is gone; a pending handle of the partner is waited for.
Where the named wave has not arrived, this one waits until it has, or is gone (status 0). A wave that arrives without
a match gives 2 to the waves that wait for it; that it then gets 2 itself where its own partner has not arrived is the
model's reading (log 113). A wave that has been answered writes its status and goes on. -/
def Obligations.Regroup : Prop :=
  (∀ (s : State) (id : Nat) (ag : Agent) (d : BitVec 6) (a b : Src),
    s.mover = some (id, ag) → ag.profile = .wave → (∀ w, ag.wait ≠ .regrouped w) → (∀ p q r, ag.wait ≠ .regroup p q r) →
    ag.stk = [] → s.sfuBusy id ag = false → ag.h.any (fun e => e.2.st == .pending) = false → s.allPerformed id ag = true →
    let n := (ag.src a).toNat
    let alone := s.jilt ag.unit ag.gw.toNat none
    let done : State → Agent → Word → Out := fun t x w => .next (retire t id (x.sSet d.toNat w))
    let waited : Prop := ∃ e ∈ s.agents, e.2.unit = ag.unit ∧ ∃ p q r, e.2.wait = .regroup p q r ∧ q.toNat = ag.gw.toNat
    (n = ag.gw.toNat → exec (.regroup d a b) s = done alone ag 2) ∧
    (n ≠ ag.gw.toNat → s.waveOf ag.unit n = none → exec (.regroup d a b) s = done alone ag 0) ∧
    (∀ xi x, n ≠ ag.gw.toNat → s.waveOf ag.unit n = some (xi, x) → (∀ p q r, x.wait ≠ .regroup p q r) →
      (waited → exec (.regroup d a b) s = done alone ag 2) ∧
      (¬ waited → exec (.regroup d a b) s = .next (waitFor s id ag (.regroup ag.run.here (ag.src a) (ag.src b))))) ∧
    (∀ xi x pc p r, n ≠ ag.gw.toNat → s.waveOf ag.unit n = some (xi, x) → x.wait = .regroup pc p r →
      let fits : Prop := pc = ag.run.here ∧ p.toNat = ag.gw.toNat ∧ r = ag.src b
      let rest := s.jilt ag.unit ag.gw.toNat (some xi)
      (¬ fits → exec (.regroup d a b) s = done (alone.putAgent xi { x with wait := .regrouped 2 }) ag 2) ∧
      (fits → x.h.any (fun e => e.2.st == .pending) = true → exec (.regroup d a b) s = .next (waitFor s id ag .again)) ∧
      (fits → x.h.any (fun e => e.2.st == .pending) = false → 96 < maskCount ag.beat + maskCount x.beat →
        exec (.regroup d a b) s = done (rest.putAgent xi { x with wait := .regrouped 3 }) ag 3) ∧
      (fits → x.h.any (fun e => e.2.st == .pending) = false → maskCount ag.beat + maskCount x.beat ≤ 96 → xi ≠ id →
        (ag.gw.toNat < x.gw.toNat →
          ∃ (t : State) (w : Agent), exec (.regroup d a b) s = done t w 1 ∧ t.agent? xi = none ∧ t.agent? id = some w ∧
            (∀ l, l < 96 → w.beat.getLsbD l = decide (l < maskCount ag.beat + maskCount x.beat)) ∧
            (∀ l, l < maskCount x.beat → ∀ q, q < 63 → r.toNat % 64 ≤ q → q ≤ r.toNat / 256 % 64 →
              w.vGet q (maskCount ag.beat + l) = x.vGet q (nth 0 (lanesOf x.beat) l)) ∧
            (∀ l, l < maskCount ag.beat → ∀ q, q < 63 → r.toNat % 64 ≤ q → q ≤ r.toNat / 256 % 64 →
              w.vGet q l = ag.vGet q (nth 0 (lanesOf ag.beat) l)) ∧
            w.rstat = ag.rstat ||| x.rstat ∧ (∀ q, q < 60 → w.sGet q = ag.sGet q)) ∧
        (x.gw.toNat < ag.gw.toNat →
          ∃ (t : State) (w : Agent), exec (.regroup d a b) s = .next t ∧ t.agent? id = none ∧ t.agent? xi = some w ∧
            w.wait = .regrouped 1 ∧ w.run = x.run ∧
            (∀ l, l < 96 → w.beat.getLsbD l = decide (l < maskCount ag.beat + maskCount x.beat)) ∧
            w.rstat = x.rstat ||| ag.rstat ∧ (∀ q, q < 60 → w.sGet q = x.sGet q))))) ∧
  (∀ (s : State) (u g : Nat) (but : Option Nat) (yi : Nat) (y : Agent) (pc : DWord) (p r : Word),
    s.agent? yi = some y → y.unit = u → y.wait = .regroup pc p r → p.toNat = g → some yi ≠ but →
    (s.jilt u g but).agent? yi = some { y with wait := .regrouped 2 }) ∧
  (∀ (s : State) (id : Nat) (ag : Agent) (d : BitVec 6) (a b : Src) (w : Word) (pc : DWord) (p r : Word),
    s.mover = some (id, ag) → ag.profile = .wave →
    (ag.wait = .regrouped w → exec (.regroup d a b) s = .next (retire s id (ag.sSet d.toNat w))) ∧
    (ag.wait = .regroup pc p r → s.waveOf ag.unit p.toNat = none → exec (.regroup d a b) s = .next (retire s id (ag.sSet d.toNat 0))))

/-- Taking a trap: what it saves, what becomes of the status and the bank, and where execution goes. [R42, R114, R242,
R345, R346, R347, R348, R349]
With tcause.inh 0, no SFU entry of the agent queued and a handler address h that can be read: the trap sets inh and
mid, the async bit and the code, and clears the cause's pending bit; saves tepc, tval and the run state; swaps s56 to
s59 and bt7 with the bank; continues at h; and leaves the rest of the agent, but that rstat.merr is set where the line
of the handler's entry is dropped (R42). The entry is read as any memory: the state otherwise changes as that read
leaves it. Where the table holds no handler for the cause the same is saved, and the agent ends unhandled with a
record of kind 0x33. An entry homed on another package is read there first: the agent has saved the same and waits for
its line. With inh 1 an asynchronous cause sets its pending bit alone, and a synchronous one is a double trap. An
instruction that traps within REP leaves repst with act and its iteration, tepc at the REP. -/
def Obligations.TrapEntry : Prop :=
  (∀ (s : State) (id : Nat) (ag : Agent) (c : Nat) (tepc tval h : DWord), c < 256 →
    ag.tcause.getLsbD 31 = false → s.sfuBusy id ag = false → s.handler ag c = some h →
    ∃ t x : Agent, takeTrap s id ag c tepc tval = ((s.putAgent id x).noteTrapRead id x c).putAgent id t ∧
      t.tcause.toNat % 256 = c ∧ t.tcause.getLsbD 31 = true ∧ t.tcause.getLsbD 29 = true ∧
      t.tcause.getLsbD 30 = decide (0x20 ≤ c) ∧
      (t.tcause.getLsbD 18 = (ag.tcause.getLsbD 18 && decide (c ≠ 0x20))) ∧
      (t.tcause.getLsbD 17 = (ag.tcause.getLsbD 17 && decide (c ≠ 0x21))) ∧
      (t.tcause.getLsbD 16 = (ag.tcause.getLsbD 16 && decide (c < 0x22))) ∧
      t.tepc = tepc ∧ t.tval = tval ∧ t.saved = ag.run ∧ t.run = { pc := h } ∧ t.wait = .none ∧
      (∀ n, n < 63 → t.sGet n = if 56 ≤ n ∧ n ≤ 59 then Tab.get 0 ag.bankS n else ag.sGet n) ∧
      (∀ n, 56 ≤ n → n ≤ 59 → Tab.get 0 t.bankS n = ag.sGet n) ∧
      (∀ n, t.btGet n = if n = 7 then ag.bankBt else ag.btGet n) ∧ t.bankBt = ag.btGet 7 ∧
      t.v = ag.v ∧ t.k = ag.k ∧ t.h = ag.h ∧ t.stk = ag.stk ∧ t.depth = ag.depth ∧ t.repst = ag.repst ∧
      (t.rstat = ag.rstat ∨ t.rstat = ag.rstat ||| 0x200) ∧ t.rmode = ag.rmode ∧ t.dspill = ag.dspill ∧ t.beat = ag.beat) ∧
  (∀ (s : State) (id : Nat) (ag : Agent) (c : Nat) (tepc tval : DWord), c < 256 →
    ag.tcause.getLsbD 31 = false → s.sfuBusy id ag = false → s.handler ag c = none →
    let saves : Agent → Prop := fun x => x.tcause.toNat % 256 = c ∧ x.tcause.getLsbD 31 = true ∧ x.tepc = tepc ∧ x.tval = tval ∧
      x.saved = ag.run ∧ x.profile = ag.profile ∧ x.part = ag.part ∧ x.launch = ag.launch
    (s.trapFar ag c = false → ∃ x y : Agent, saves x ∧ saves y ∧
      takeTrap s id ag c tepc tval = ((s.putAgent id x).noteTrapRead id x c).endByTrap id y 0x33 c tepc) ∧
    (s.trapFar ag c = true → ∃ x : Agent, saves x ∧ x.wait = .trapFar c (s.trapVa ag c) ∧ x.opens.length = ag.opens.length + 1 ∧
      takeTrap s id ag c tepc tval = ((s.putAgent id { ag with wait := .none }).sendOff).putAgent id x)) ∧
  (∀ (s : State) (id : Nat) (ag : Agent) (c : Nat) (tepc tval : DWord), ag.tcause.getLsbD 31 = true →
    (c = 0x20 ∨ c = 0x21 ∨ c = 0x22 →
      ∃ t : Agent, takeTrap s id ag c tepc tval = s.putAgent id t ∧
        t.tcause = ag.tcause ||| (if c = 0x20 then 0x40000 else if c = 0x21 then 0x20000 else 0x10000) ∧
        t.run = ag.run ∧ t.tepc = ag.tepc ∧ t.tval = ag.tval ∧ t.s = ag.s) ∧
    (c < 0x20 → takeTrap s id ag c tepc tval = s.endByTrap id { ag with wait := .none } 0x34 c tepc)) ∧
  (∀ (s : State) (id : Nat) (ag : Agent) (c : Nat) (tval : DWord) (p : RepSt),
    ag.run.inRun = true → ag.run.rep = some p → p.i < 64 →
    ∃ x : Agent, trapHere s id ag c tval = takeTrap s id x c (ag.run.pc + 4 + BitVec.ofNat 64 (2 * (ag.run.off - 2))) tval ∧
      x.repst.getLsbD 31 = true ∧ x.repst.toNat % 64 = p.i ∧
      x.run = { ag.run with rep := none, off := ag.run.off - 2, idx := ag.run.idx - 1 } ∧
      x.s = ag.s ∧ x.v = ag.v ∧ x.tcause = ag.tcause)

/-- TRAP takes the software trap after it has completed; ERET resumes what the trap saved, at the end of its pass. [R345,
R346, R350, R352]
TRAP retires and then takes cause 0x0B at the boundary that follows with tval the value of s[A]. ERET within a handler
records itself, outside one it is an illegal instruction; at the end of its pass s56 to s59 and bt7 are swapped back,
tcause.inh and mid are cleared, and the run saved by the trap resumes (with mid 1) or tepc is fetched as a run header
(with mid 0); the pending bits of tcause stay. -/
def Obligations.TrapAndReturn : Prop :=
  (∀ (s : State) (id : Nat) (ag x : Agent) (g : BitVec 2) (a : Src),
    s.mover = some (id, ag) → ag.Issues g →
    ((retire s id ag).agent? id = some x →
      exec (.trap g a) s =
        .next (takeTrap (retire s id ag) id x 0x0B x.run.here (BitVec.ofNat 64 (ag.src a).toNat))) ∧
    (ag.tcause.getLsbD 31 = true →
      exec (.eret g) s = .next (retire s id { ag with run := { ag.run with pend := .eret } })) ∧
    (ag.tcause.getLsbD 31 = false → exec (.eret g) s = .next (trapHere s id ag 0x01 ag.run.word))) ∧
  (∀ (s : State) (id : Nat) (ag : Agent), ag.run.rep = none → ag.run.cnt ≤ ag.run.idx + 1 → ag.run.pend = .eret →
    ∃ t : Agent, retire s id ag = s.putAgent id t ∧
      t.tcause.getLsbD 31 = false ∧ t.tcause.getLsbD 29 = false ∧
      (∀ n, n < 29 → t.tcause.getLsbD n = ag.tcause.getLsbD n) ∧
      t.run = (if ag.tcause.getLsbD 29 then { ag.saved with resumed := true } else { pc := ag.tepc }) ∧
      (∀ n, n < 63 → t.sGet n = if 56 ≤ n ∧ n ≤ 59 then Tab.get 0 ag.bankS n else ag.sGet n) ∧
      (∀ n, 56 ≤ n → n ≤ 59 → Tab.get 0 t.bankS n = ag.sGet n) ∧
      (∀ n, t.btGet n = if n = 7 then ag.bankBt else ag.btGet n) ∧ t.bankBt = ag.btGet 7 ∧
      t.v = ag.v ∧ t.k = ag.k ∧ t.stk = ag.stk ∧ t.repst = ag.repst ∧ t.rstat = ag.rstat ∧ t.tepc = ag.tepc)

/-- CSRR reads each control register in the profiles that have it; CAPR, WFI and IFENCE. [R18, R101, R102, R103, R254,
R352]
CSRR of rmode, seed, dmem and npdist in wave and sequencer, of dspill in a wave, and of the others everywhere writes
the register to s[D], or to pair D for ntime, tepc and tval; of rstat it waits for the agent's SFU entries; a profile
without the register takes the illegal-profile trap. wid is put together as R103 lays it out. ntime is read at most 2
ns ahead of the package's count (the model's choice, log 9) and never below the agent's last reading; tskew is the
domain bound over 2. CAPR writes the capability word and 0 from index 16 on; WFI completes with an event or once its
time is over and waits before; IFENCE waits for its release and then discards the unit's fetched code. -/
def Obligations.ControlRegisterReads : Prop :=
  ∀ (s : State) (id : Nat) (ag : Agent) (g : BitVec 2) (d : BitVec 6) (a : Src),
    s.mover = some (id, ag) → ag.Issues g →
    let word : BitVec 6 → Word → Prop := fun n w => exec (.csrr g d n) s = .next (retire s id (ag.sSet d.toNat w))
    let pair : BitVec 6 → DWord → Prop := fun n x => exec (.csrr g d n) s = .next (retire s id (ag.pSet d.toNat x))
    let absent : BitVec 6 → Prop := fun n => exec (.csrr g d n) s = .next (trapHere s id ag 0x03 ag.run.word)
    (ag.profile ≠ .host → word 0 ag.rmode ∧ word 1 ag.seed ∧ word 3 ag.dmem ∧ word 6 ag.npdist) ∧
    (ag.profile = .host → absent 0 ∧ absent 1 ∧ absent 3 ∧ absent 6) ∧
    (ag.profile = .wave → word 12 ag.dspill) ∧ (ag.profile ≠ .wave → absent 12) ∧
    (s.sfuBusy id ag = false → word 2 ag.rstat) ∧
    (s.sfuBusy id ag = true → exec (.csrr g d 2) s = .next (waitFor s id ag .again)) ∧
    word 7 ag.repst ∧
    word 8 (BitVec.ofNat 32 (ag.die.toNat * 2 ^ 24 + ag.cu.toNat * 2 ^ 16 + ag.slot.toNat * 2 ^ 12 + ag.gw.toNat * 2 ^ 8)) ∧
    word 9 ag.tcause ∧ pair 10 ag.tepc ∧ pair 11 ag.tval ∧
    (∃ (k : Nat) (t x : DWord), k ≤ 2 ∧ t = s.ntime + BitVec.ofNat 64 k ∧ x = (if t.toNat < ag.lastT.toNat then ag.lastT else t) ∧
      exec (.csrr g d 4) s = .next (retire s id (({ ag with lastT := x } : Agent).pSet d.toNat x))) ∧
    word 5 (BitVec.ofNat 32 (s.plat.domNs.toNat * 2 ^ 16 + 2)) ∧
    exec (.capr g d a) s = .next (retire s id (ag.sSet d.toNat
      (if (ag.src a).toNat = 15 then s.rot.capGen
       else if (ag.src a).toNat < 15 then Tab.get 0 s.rot.cap (ag.src a).toNat else 0))) ∧
    (ag.profile = .host →
      (s.plat.hostQ ≠ [] ∨ (∃ t, ag.wait = .wfi true t) → exec (.wfi g) s = .next (retire s id ag)) ∧
      (s.plat.hostQ = [] → (∀ out t, ag.wait ≠ .wfi out t) → exec (.wfi g) s = .next (waitFor s id ag (.wfi false s.ntime))) ∧
      (∀ t, s.plat.hostQ = [] → ag.wait = .wfi false t → exec (.wfi g) s = .next (waitFor s id ag (.wfi false t)))) ∧
    (s.releaseReady id ag 3 (ag.nextTag + 1) = true →
      exec (.ifence g) s =
        .next (retire { s with ms := { s.ms with
          code := Tab.erase s.ms.code ag.codeUnit, own := Tab.erase s.ms.own ag.codeUnit } } id ag)) ∧
    (s.releaseReady id ag 3 (ag.nextTag + 1) = false → exec (.ifence g) s = .next (waitFor s id ag .again))

/-- CSRW writes each control register with its layout and side effects; read-only registers and fields are ignored. [R7,
R85, R86, R101, R102, R346, R350]
CSRW of rmode ignores a reserved rounding code; of seed seeds the lane sequences of a wave unless rmode bit 4 says
otherwise; of rstat clears the sticky bits written with 1 and sets rte and pfm as written; of npdist keeps 22 bits, of
repst act and idx; of tepc discards the saved run state and clears tcause.mid; of dspill is ignored while an entry
lies in the region; of dmem, ntime, tskew, wid and tcause changes nothing. Each retires. -/
def Obligations.ControlRegisterWrites : Prop :=
  ∀ (s : State) (id : Nat) (ag : Agent) (g : BitVec 2) (a : Src) (w : Word) (x : DWord),
    s.mover = some (id, ag) → ag.Issues g → w = ag.src a → x = ag.srcP a →
    let puts : BitVec 6 → Agent → Prop := fun n t => exec (.csrw g n a) s = .next (retire s id t)
    (ag.profile ≠ .host →
      puts 0 (if 5 ≤ w.toNat % 8 then ag else { ag with rmode := BitVec.ofNat 32 (w.toNat % 32) }) ∧
      puts 3 ag ∧ puts 6 { ag with npdist := BitVec.ofNat 32 (w.toNat % 2 ^ 22) }) ∧
    (ag.profile = .wave →
      (ag.rmode.getLsbD 4 = true → puts 1 { ag with seed := w }) ∧
      (ag.rmode.getLsbD 4 = false → ∃ t : Agent, puts 1 t ∧ t.seed = w ∧ t.s = ag.s ∧ t.v = ag.v ∧
        ∀ l, l < 96 → Tab.get 0 t.x l =
          (let y := w ^^^ BitVec.ofNat 32 (0x9E3779B9 * (l + 1))
           if y = 0 then 0x6D2B79F5 else y)) ∧
      puts 12 (if 16 < ag.depth then ag else { ag with dspill := BitVec.ofNat 32 (w.toNat / 16 * 16) })) ∧
    (s.sfuBusy id ag = false →
      ∃ r : Word, puts 2 { ag with rstat := r } ∧ r.toNat / 2 ^ 30 = w.toNat / 2 ^ 30 ∧
        ∀ n, n < 30 → r.getLsbD n =
          (ag.rstat.getLsbD n && !w.getLsbD n && (decide (n ≤ 4) || decide (n = 9) || decide (n = 10) || decide (n = 11)))) ∧
    puts 4 ag ∧ puts 5 ag ∧ puts 8 ag ∧ puts 9 ag ∧
    puts 7 { ag with repst := BitVec.ofNat 32 (w.toNat / 2 ^ 31 * 2 ^ 31 + w.toNat % 64) } ∧
    puts 11 { ag with tval := x } ∧
    (∃ t : Agent, puts 10 t ∧ t.tepc = x ∧ t.tcause.getLsbD 29 = false ∧
      (∀ n, n ≠ 29 → t.tcause.getLsbD n = ag.tcause.getLsbD n) ∧
      (ag.tcause.getLsbD 29 = true → t.saved = {}) ∧ t.s = ag.s ∧ t.run = ag.run)

/-- KEYSET, KEYKILL, MAPINV, HARVEST, POLLD and POLSW on a core. [R34, R35, R51, R63, R343, R344, R352, R366]
KEYSET loads an empty slot with the owner, the shared bit and a key of its own and writes 0, else 1; KEYKILL of a
loaded slot other than 0 first makes it KILLING and waits, and issued again empties it and writes 0: no span or
Orangery line of the slot is left and the carve-out ways tagged with it hold zeros; of another slot it changes nothing
and writes 1. MAPINV, once the accesses of its range are accepted, leaves no cached translation, walker entry or page
register of its own within the range. HARVEST visits the leaf entries of its range one after another: an entry's
frames lose their records, and where there were any the entry is written with a set, and d for a write, or-ed in.
POLLD of an image that the checks accept puts it into the shadow slot and extends the measurement; its status word is
laid out as R343 says. POLSW makes a shadow image current at a decision boundary and writes 0, and 1 for an empty
slot. -/
def Obligations.HostSystem : Prop :=
  (∀ (s : State) (id : Nat) (ag : Agent) (d b : BitVec 6) (a c : Src) (w : Word) (n : Nat),
    s.mover = some (id, ag) → ag.profile = .host → w = ag.src a → n = w.toNat % 256 →
    let st := (Tab.get {} s.ms.keys n).st
    (st = 0 → exec (.keyset 0 d a) s = .next (retire
      { s with ms := { s.ms with
          keys := Tab.put s.ms.keys n { st := 1, owner := w.toNat / 256 % 64, shared := w.getLsbD 16, key := s.ms.nextKey },
          nextKey := s.ms.nextKey + 1 } } id (ag.sSet d.toNat 0))) ∧
    (st ≠ 0 → exec (.keyset 0 d a) s = .next (retire s id (ag.sSet d.toNat 1))) ∧
    ((∀ m, ag.wait ≠ .keykill m) →
      (n = 0 ∨ st ≠ 1 → exec (.keykill 0 d a) s = .next (retire s id (ag.sSet d.toNat 1))) ∧
      (n ≠ 0 → st = 1 → exec (.keykill 0 d a) s = .next (waitFor
        { s with ms := { s.ms with keys := Tab.put s.ms.keys n { Tab.get {} s.ms.keys n with st := 2 } } } id ag (.keykill n)))) ∧
    (∀ m, ag.wait = .keykill m → ∃ t : State, exec (.keykill 0 d a) s = .next (retire t id (ag.sSet d.toNat 0)) ∧
      Tab.find? t.ms.keys m = none ∧ (∀ q, q ≠ m → Tab.find? t.ms.keys q = Tab.find? s.ms.keys q) ∧
      t.agents = s.agents ∧ t.rot = s.rot ∧
      (∀ e ∈ t.ms.dir, ∀ x ∈ e.2, x.slot ≠ BitVec.ofNat 8 m) ∧ (∀ e ∈ t.ms.orng, e.2.slot ≠ BitVec.ofNat 8 m) ∧
      (∀ pa, s.taggedWay (BitVec.ofNat 8 m) pa = true → t.homeByte pa = 0)) ∧
    (let p := ((ag.sGet b.toNat).extractLsb' 0 6).toNat
     let m := (Machine.mapRange (ag.srcP a) (ag.sGet b.toNat) (ag.sGet (b.toNat + 1))).2
     s.mapQuiet p m = true →
      ∃ (t : State) (x : Agent), exec (.mapinv 0 a b) s = .next (retire t id x) ∧ t.mem = s.mem ∧ t.rot = s.rot ∧
        (∀ e ∈ t.ms.tlb, e.part ≠ p ∨ m.hits e = false) ∧
        (∀ e ∈ s.ms.tlb, e.part ≠ p ∨ m.hits e = false → e ∈ t.ms.tlb) ∧
        (∀ e ∈ t.ms.upper, e.part ≠ p ∨ m.above e = false) ∧
        (∀ e, x.strm.cur = some e ∨ x.strm.next = some e → e.part ≠ p ∨ m.hits e = false) ∧ x.s = ag.s ∧ x.run = ag.run) ∧
    (let r := Machine.mapRange (ag.srcP a) (ag.sGet b.toNat) (ag.sGet (b.toNat + 1))
     exec (.harvest 0 a b) s = .next (retire ((s.harvestList r.1 r.2).foldl State.harvestEntry s) id ag)) ∧
    (∀ (pa : Nat) (e : DWord) (size : Nat),
      let lo := pteBase e / 4096
      let under : Nat → Prop := fun q => lo ≤ q ∧ q < lo + (size + 4095) / 4096
      let u : State := { s with ms := { s.ms with
        frames := s.ms.frames.filter (fun x => !(decide (lo ≤ x.1) && decide (x.1 < lo + (size + 4095) / 4096))) } }
      ((∀ x ∈ s.ms.frames, under x.1 → x.2 = 0) → s.harvestEntry (pa, e, size) = u) ∧
      ((∃ x ∈ s.ms.frames, under x.1 ∧ x.2 ≠ 0) → (∀ x ∈ s.ms.frames, under x.1 → x.2.getLsbD 1 = false) →
        s.harvestEntry (pa, e, size) = u.pkStore 0 false pa (leBytes 8 (e ||| 0x80).toNat)) ∧
      ((∃ x ∈ s.ms.frames, under x.1 ∧ x.2.getLsbD 1 = true) →
        s.harvestEntry (pa, e, size) = u.pkStore 0 false pa (leBytes 8 (e ||| 0x80 ||| 0x100).toNat))) ∧
    (∀ img v, flatOk (ag.srcP a) = true → (ag.srcP a).getLsbD 0 = false →
      1 ≤ (ag.src c).toNat / 65536 % 1024 → (ag.src c).toNat / 65536 % 1024 ≤ 512 →
      s.readImage ag (ag.srcP a) ((ag.src c).toNat / 65536 % 1024) [] = .ok img →
      v = polCheck img (s.pol ((ag.src c).toNat % 64)).swap →
      let t := (s.putAgent id ag).noteImage id ag (ag.srcP a) ((ag.src c).toNat / 65536 % 1024)
      exec (.polld 0 d a c) s = .next (retire
        (if v.1 = 0 then
          (t.putPol ((ag.src c).toNat % 64) { t.pol ((ag.src c).toNat % 64) with shadow := img }).measure
            ((ag.src c).toNat % 64) (imageBytes img)
         else t) id
        (((t.agent? id).getD ag).sSet d.toNat (BitVec.ofNat 32 (v.1 + 16 * v.2.1 + 65536 * min 65535 v.2.2))))) ∧
    ((∀ k, ag.wait ≠ .polsw k) →
      let x := s.pol (w.toNat % 64)
      (x.shadow = [] → exec (.polsw 0 d a) s = .next (retire s id (ag.sSet d.toNat 1))) ∧
      (x.shadow ≠ [] → x.dec = none →
        exec (.polsw 0 d a) s = .next (retire
          (s.putPol (w.toNat % 64) { x with cur := x.shadow, shadow := [], pm := [], swap := false, swaps := x.swaps + 1 })
          id (ag.sSet d.toNat 0)))))

/-- A step runs the instruction that its mover's position, run header or policy index decodes to. [R100, R105, R111, R328]
Where the environment asks for nothing, no turn is over and the mover can move and owes no trap: within a run, the
instruction decoded at its position is executed on the state in which time has passed and the agent issues it, unless
the scoreboard holds it, and then nothing happens but the end of the turn; at a boundary, a fetched word that decodes
to a run header is executed as one; in a decision of the policy engine, the operation at its index is executed. What
the environment asks for is executed as it stands. Which mover has the turn, when its turn ends and that the
environment may ask for an event at a step are the model's choices (log 7), and so are how much time a step takes (log
9) and that events without an encoding are instructions (log 101). -/
def Obligations.StepRunsDecoded : Prop :=
  ∀ (s : State),
    let s1 : State := { s with ntime := s.ntime + BitVec.ofNat 64 (Config.elapsed s.free), free := s.free + 1 }
    (s.sched = [] → s.stalled = false → (s.free + 1) % 64 ≠ 0 →
      (∀ id ag i, s.cur = .agent id → s.agent? id = some ag → s1.canMove id ag = true → ag.wait ≠ .ending →
        ag.trapDue = false → ag.run.inRun = true → ag.run.atEnd = false → ag.run.rep = none → decode (ag.run.code.drop ag.run.off) = .ok i →
        let issuing : Agent := { ag with run := { ag.run with ilen := ilen (ag.run.code.drop ag.run.off) } }
        step s = (if s1.interlocked id issuing i then .next { s1 with stalled := true }
                  else exec i (s1.putAgent id issuing))) ∧
      (∀ id ag h0 h1 neg rep cnt, s.cur = .agent id → s.agent? id = some ag → s1.canMove id ag = true → ag.wait ≠ .ending →
        ag.trapDue = false → ag.run.inRun = false → ag.yielded = false → ag.run.pc.getLsbD 0 = false →
        flatOk ag.run.pc = true → s1.fetchHalf ag ag.run.pc = some h0 → s1.fetchHalf ag (ag.run.pc + 2) = some h1 →
        decode [h0.half, h1.half] = .ok (.blk neg rep cnt) →
        step s = exec (.blk neg rep cnt) (s1.keepCode id ag [h0, h1])) ∧
      (∀ p d h i, s.cur = .policy p → (s.pol p).dec = some d → (s.pol p).cur[d.pc]? = some h → decPol h = .ok i →
        step s = exec i s1)) ∧
    (∀ i r, s.sched = .event i :: r → encode i = [] → step s = exec i { s1 with sched := r })

/-- Instruction words that the specification writes out decode to the instructions they stand for. [R105, R106, R107,
R108, R110, R111, R113, R117, R151, R162, R351]
For the families of the opcode table, words printed in the specification decode to the instruction printed beside
them: the frame, scalar, pair, control, system, vector, predicate, float, conversion, special-function, memory,
atomic, ordering, copy, task, fabric, reconciliation, engine and compact majors. -/
def Obligations.DecodeWords : Prop :=
  decode [0x1C01, 0x0000] = .ok (.blk 0 0 14) ∧
  decode [0x8603, 0x0000] = .ok (.rep 0 0 1 3) ∧
  decode [0x1405, 0x29C6] = .ok (.div 0 10 (.reg 12) (.reg 14)) ∧
  decode [0x0805, 0x17E1, 0x012C, 0x0000] = .ok (.mul 0 4 (.reg 2) (.lit 300)) ∧
  decode [0x0C07, 0x4861] = .ok (.cmpGeu 0 6 (.reg 2) (.reg 3)) ∧
  decode [0x1009, 0x3184] = .ok (.adda 0 8 (.reg 8) (.reg 12)) ∧
  decode [0x500B, 0x1FE1, 0x0001, 0x0000] = .ok (.call 0 40 2 (.lit 1)) ∧
  decode [0x020B, 0x2861] = .ok (.split 1 2 3) ∧
  decode [0x000B, 0x4000] = .ok (.halt 0) ∧
  decode [0x080F, 0x1001] = .ok (.csrr 0 4 2) ∧
  decode [0x080F, 0x5924] = .ok (.polld 0 4 (.reg 8) (.reg 9)) ∧
  decode [0x8811, 0x90C2] = .ok (.vadds 0 4 (.reg 5) (.reg 6)) ∧
  decode [0x9813, 0x11C6] = .ok (.vdot4 0 12 (.reg 13) (.reg 14)) ∧
  decode [0x0215, 0x1FE1, 0x0064, 0x0000] = .ok (.vcmpLtu 0 1 (.reg 2) (.lit 100)) ∧
  decode [0xF817, 0x3000] = .ok (.ktos 0 60 1) ∧
  decode [0x9419, 0x1985] = .ok (.vfma 0 10 (.reg 11) (.reg 12)) ∧
  decode [0x081B, 0x1903] = .ok (.vdfma 0 4 (.reg 6) (.reg 8)) ∧
  decode [0x041D, 0x58C2] = .ok (.vfcmpLe true 0 2 (.reg 4) (.reg 6)) ∧
  decode [0x881F, 0x1082] = .ok (.vcvt 2 0 4 (.reg 5) 4) ∧
  decode [0x0821, 0x37E2, 0x7E80, 0x007F] = .ok (.vscale 0 4 (.reg 4) (.lit 0x007F7E80)) ∧
  decode [0xA823, 0x400A] = .ok (.sact 0 20 (.reg 21)) ∧
  decode [0x8825, 0x0022] = .ok (.nbl 0 4 (.reg 5) 1) ∧
  decode [0x0831, 0x9044] = .ok (.ld 4 2 0 4 (.reg 8) (.reg 2)) ∧
  decode [0x183B, 0x81CA] = .ok (.stsp 4 0 0 12 (.reg 20) (.reg 14)) ∧
  decode [0x0C55, 0x0185] = .ok (.aadd 2 false 0 6 (.reg 10) (.reg 12)) ∧
  decode [0x0045, 0x9800] = .ok (.fence 4 true true 0) ∧
  decode [0x0C47, 0x20EA] = .ok (.waitw 0 6 (.reg 20) (.reg 7)) ∧
  decode [0x0449, 0x0003] = .ok (.cpy 0 2 (.reg 6)) ∧
  decode [0x0A4B, 0x0185] = .ok (.spawn 0 5 (.reg 10) 12) ∧
  decode [0x084D, 0x17E4, 0x0003, 0x0000] = .ok (.wincfg 0 4 (.reg 8) (.lit 3)) ∧
  decode [0x144F, 0x098A] = .ok (.skins 0 10 20 (.reg 12)) ∧
  decode [0x794E] = .ok (.addImmCompact 5 15) ∧
  decode [0x9064] = .ok (.xferCompact 1 18) ∧
  decode [0x10E1, 0x2001] = .ok (.mmul 1 0 2 1) ∧
  decode [0x6861, 0x0000] = .ok .qsplit

/-- Decoding an encoded instruction gives it back, and a decoded instruction encodes to the words it was read from. [R105,
R106, R107, R108, R110, R111, R113, R115, R116, R117, R335]
For every well-formed instruction with an encoding, other than a policy operation, decoding its halfwords with
anything behind them gives the instruction, whatever its fields; and whenever decoding a halfword sequence gives an
instruction, that instruction is well formed and its encoding is exactly the halfwords it takes from the sequence, so
no two words of one length decode alike and no bit is dropped. The same both ways for policy operations and their
halfwords. -/
def Obligations.DecodeEncode : Prop :=
  (∀ (i : Instr) (rest : List Half), i.wf = true → encode i ≠ [] → (∀ h, decPol h ≠ .ok i) →
    decode (encode i ++ rest) = .ok i) ∧
  (∀ (hs : List Half) (i : Instr), decode hs = .ok i → i.wf = true ∧ encode i = hs.take (ilen hs)) ∧
  (∀ (h : Half) (i : Instr), decPol h = .ok i → i.wf = true ∧ encode i = [h])

/-- Every step of the package answers a next state, from every state. [R4, R118, R119, R349]
From every state, reachable or not, step answers a next state: no fault and no refusal ever ends a run; what the
specification stops or traps is a next state in which the agent has trapped, waits or has ended. -/
def Obligations.EveryStepGoesOn : Prop :=
  ∀ s : State, GoesOn s

/-- Every step keeps memory in its canonical form. [R6, R22, R218]
From every state whose memory is in canonical form (addresses strictly rising, no entry equal to what an unlisted
address reads as), the state that a step answers has memory in canonical form, whichever instruction or step of the
package it executes. The canonical form and the value of unlisted addresses are the model's (log 1). -/
def Obligations.StepKeepsMemory : Prop :=
  ∀ s t : State, s.Inv → step s = .next t → t.Inv

/-- What the package holds right after reset. [R19, R32, R58, R102, R243, R296, R342, R364]
After reset memory lists nothing and is in canonical form, nothing runs and no agent exists, key slot 0 alone is
loaded, the firmware stage is 0, the table's generation is 0, dom_tmo is 8 microseconds, the queues, tables, error
rings and counters are empty or zero; and an agent starts with npdist 1,024, every other control register 0, no
pending trap, an empty divergence stack and idle handles. Register values the specification gives no reset for are 0
by the model's choice (log 2), and memory that nothing has written reads 0 (log 1). That the capability words hold the
Reset column before start-up stage 3, with n_cxl 8 beside a cxl_gib of 0, is the model's reading (log 6). -/
def Obligations.ResetState : Prop :=
  State.reset.Inv ∧ State.reset.mem = [] ∧ State.reset.agents = [] ∧ State.reset.cur = .nobody ∧
  (Tab.get {} State.reset.ms.keys 0).st = 1 ∧ (∀ n, n ≠ 0 → Tab.find? State.reset.ms.keys n = none) ∧
  State.reset.rot.bootSt = 0 ∧ State.reset.rot.capGen = 0 ∧ (∀ n, Tab.get 0 State.reset.rot.cap n = nth 0 [0x01880000, 0x7, 0x08040208, 0x002000C0, 0xFFFFFFFF, 0xFFFFFFFF, 0xFFFFFFFF,
    0xFFFFFFFF, 0xFFFFFFFF, 0xFFFFFFFF, 0xFFFFFFFF, 0x02000400, 0, 0x08100000, 0x057807D0] n) ∧
  State.reset.rot.domTmo = 8 ∧ (∀ p, State.reset.polCtl p = 0x01000014) ∧
  (∀ p, Tab.get 0 State.reset.rot.ptRoot p = 0) ∧ (∀ n, Tab.get 0 State.reset.rot.circ n = 0) ∧
  State.reset.hub.launches = [] ∧ State.reset.hub.parts = [] ∧ State.reset.ms.faults = [] ∧ State.reset.ms.tlb = [] ∧
  (∀ p, Tab.get 0 State.reset.rot.errRing p = 0 ∧ Tab.get 0 State.reset.rot.ringTail p = 0 ∧ Tab.get 0 State.reset.rot.recCount p = 0 ∧
    Tab.get 0 State.reset.rot.tqCfg p = 0 ∧ Tab.get 0 State.reset.rot.tqHead p = 0 ∧ Tab.get 0 State.reset.rot.tqTail p = 0 ∧
    Tab.get 0 State.reset.rot.polCnt p = 0) ∧
  State.reset.rot.rsErr = 0 ∧ State.reset.rot.incDrop = 0 ∧ State.reset.rot.circRej = 0 ∧ State.reset.rot.ringReiss = 0 ∧
  State.reset.rot.orngLimrej = 0 ∧ State.reset.rot.nFenced = 0 ∧ State.reset.plat.dropReq = 0 ∧
  State.reset.ms.corrDram = 0 ∧ State.reset.ms.corrOrng = 0 ∧ State.reset.fab.posted = [] ∧ State.reset.fab.copies = [] ∧
  (∀ slot pa, State.reset.pkRead slot pa = 0) ∧
  ({} : Agent).npdist = 1024 ∧ ({} : Agent).rstat = 0 ∧ ({} : Agent).tcause = 0 ∧ ({} : Agent).rmode = 0 ∧
  ({} : Agent).dspill = 0 ∧ ({} : Agent).repst = 0 ∧ ({} : Agent).stk = [] ∧ (∀ n, (({} : Agent).hGet n).st = .idle) ∧
  (∀ n, ({} : Agent).sGet n = 0) ∧ (∀ r l, ({} : Agent).vGet r l = 0)

/-- What a scalar instruction leaves unchanged. [R10, R96, R100, R109, R149]
A scalar instruction of majors 2 to 4 or a compact scalar form that issues and answers a next state has changed its
agent before it retired in its destination register or pair and in rstat alone; rstat only in dz and only for a
division. Unless a SPLIT is pending at the end of the pass, nothing in the package changes but that agent and, where
the end of the pass waits, the mark that others move, and every byte of memory reads as before. With a guard that does
not fire in a wave it retires with nothing changed. -/
def Obligations.FrameScalar : Prop :=
  (∀ (s t : State) (id : Nat) (ag : Agent) (i : Instr) (g : BitVec 2) (d n : Nat),
    s.mover = some (id, ag) → ag.Issues g → i.scalarDest = some (g, d, n) → exec i s = .next t →
    (∃ x : Agent, t = retire s id x ∧ x = { ag with s := x.s, rstat := x.rstat } ∧
      (∀ r, r < d ∨ d + n ≤ r → x.sGet r = ag.sGet r) ∧
      (∀ b, b ≠ 3 → x.rstat.getLsbD b = ag.rstat.getLsbD b) ∧ (i.divides = false → x.rstat = ag.rstat)) ∧
    ((∀ p q m k, ag.run.pend ≠ .split p q m k) →
      (∃ x : Agent, t = { s.putAgent id x with stalled := t.stalled }) ∧ s.SameBytes t)) ∧
  (∀ (s : State) (id : Nat) (ag : Agent) (i : Instr) (g : BitVec 2) (d n : Nat),
    s.mover = some (id, ag) → ag.profile = .wave → ag.fires g = false → i.scalarDest = some (g, d, n) →
    exec i s = .next (retire s id ag))

/-- What a vector instruction leaves unchanged. [R10, R86, R88, R98, R109, R160]
An instruction that writes vector registers alone (majors 8 to 10, 12, 13, 15, 16, 18 and their compact forms) and
answers a next state in a wave has changed its agent before it retired in its destination registers alone and there in
the lanes it writes alone (the active ones, for VSEL the beat-active ones), in the arithmetic flags of rstat, and in
the rounding sequences of active lanes. Unless a SPLIT is pending, nothing in the package changes but that agent and,
where the end of the pass waits, the mark that others move, and every byte of memory reads as before. -/
def Obligations.FrameVector : Prop :=
  ∀ (s t : State) (id : Nat) (ag : Agent) (i : Instr) (g : BitVec 2) (d n : Nat),
    s.mover = some (id, ag) → ag.profile = .wave → i.wf = true → i.vectorDest = some (g, d, n) → exec i s = .next t →
    (∃ x : Agent, t = retire s id x ∧ x = { ag with v := x.v, x := x.x, rstat := x.rstat } ∧
      (∀ r l, l < 96 → r < d ∨ d + n ≤ r ∨ (i.vectorLanes ag g).getLsbD l = false → x.vGet r l = ag.vGet r l) ∧
      (∀ b, 5 ≤ b → x.rstat.getLsbD b = ag.rstat.getLsbD b) ∧
      (∀ l, l < 96 → (ag.active g).getLsbD l = false → Tab.get 0 x.x l = Tab.get 0 ag.x l)) ∧
    ((∀ p q m k, ag.run.pend ≠ .split p q m k) →
      (∃ x : Agent, t = { s.putAgent id x with stalled := t.stalled }) ∧ s.SameBytes t)

/-- Guards outside the wave profile, and instructions outside their profile, trap with no other effect. [R109, R118, R119,
R345]
Outside the wave profile a scalar or vector instruction with a guard field other than 0 takes the illegal-instruction
trap, and a vector instruction with guard field 0 the illegal-profile trap; in a wave the instructions of the host
profile (WFI, MAPINV, HARVEST, KEYSET, KEYKILL, POLLD, POLSW) and of the sequencer profile (the engine commands and
REMQ) take the illegal-profile trap whatever their guard, at the instruction, with its first 32 bits. That a guarded
row of the host profile, or REMQ, is legal to decode and takes the illegal-profile trap is the model's reading (log
102). -/
def Obligations.ProfilesAndGuards : Prop :=
  (∀ (s : State) (id : Nat) (ag : Agent) (i : Instr) (g : BitVec 2) (d n : Nat),
    s.mover = some (id, ag) → ag.profile ≠ .wave →
    (i.scalarDest = some (g, d, n) ∨ i.vectorDest = some (g, d, n) → g ≠ 0 →
      exec i s = .next (trapHere s id ag 0x01 ag.run.word)) ∧
    (i.vectorDest = some (g, d, n) → g = 0 → exec i s = .next (trapHere s id ag 0x03 ag.run.word))) ∧
  (∀ (s : State) (id : Nat) (ag : Agent) (g : BitVec 2) (d b : BitVec 6) (a c : Src) (k tok : BitVec 4),
    s.mover = some (id, ag) → ag.profile = .wave →
    ∀ i ∈ [Instr.wfi g, Instr.mapinv g a b, Instr.harvest g a b, Instr.keyset g d a, Instr.keykill g d a, Instr.polld g d a c,
        Instr.polsw g d a, Instr.wload d b tok, Instr.rload d b k tok, Instr.mmul d b k tok, Instr.chb d b k tok,
        Instr.che k tok, Instr.accst d b k tok, Instr.nest d b k, Instr.go d, Instr.vcset d tok, Instr.shdw k tok,
        Instr.scmt k tok, Instr.sdsc k tok, Instr.qfuse k, Instr.qsplit, Instr.remq g d a c],
      exec i s = .next (trapHere s id ag 0x03 ag.run.word))

/-- LD, SLD and LDACQ: the address, the checks in their order, and the open load that issue leaves. [R48, R57, R60, R125,
R128, R130, R132, R134, R138, R243]
The address is base plus the signed offset times 2^scale modulo 2^64 (LDACQ: base plus the signed offset). For SLD:
bits 63:56 set or a misaligned address raise the address trap with that address; a page without permission does too;
an access that needs the page whose walk is running waits for it (R57); a page that is not present holds the agent; a
home that answers with an error raises the address trap; a present page whose home answers leaves one open load with
its width, destination, size code and time, the page entered in a wave's page registers, and the instruction retires;
beside what a walk for the page reads (noteAgXlat) nothing changes. LD does the same for its active lanes in ascending
order when every lane is present; LDACQ opens an acquire at its scope. An open load of another package goes there as
one flit of the lowest-numbered path that is available. -/
def Obligations.FlatLoads : Prop :=
  (∀ (s : State) (id : Nat) (ag : Agent) (size : BitVec 3) (scale g : BitVec 2) (d : BitVec 6) (a b : Src) (ea : DWord) (n : Nat),
    s.mover = some (id, ag) → ag.profile ≠ .sequencer → ag.Issues g → size.toNat ≤ 5 →
    ea = BitVec.ofInt 64 ((ag.srcP a).toNat + (ag.src b).toInt * 2 ^ scale.toNat) →
    n = [1, 1, 2, 2, 4, 8].getD size.toNat 4 →
    let dst : Dest := if d = 63 then .none else if size = 5 then .sp d.toNat else .s d.toNat
    let data : DWord := if size = 5 then ag.pGet d.toNat else (ag.sGet d.toNat).zeroExtend 64
    let opened : State → Agent → Loc → Out := fun u t loc => .next (retire u id { t with
      nextTag := ag.nextTag + 1,
      opens := ag.opens ++ [{ kind := .load, loc := loc, size := n, data := data, dst := dst, sx := size.toNat, va := ea,
                              tag := ag.nextTag + 1, born := s.ntime }] })
    (2 ^ 56 ≤ ea.toNat ∨ ea.toNat % n ≠ 0 → exec (.sld size scale g d a b) s = .next (trapHere s id ag 0x05 ea)) ∧
    (ea.toNat < 2 ^ 56 → ea.toNat % n = 0 →
      (s.target ag .read (.flat ea) = .protect → exec (.sld size scale g d a b) s = .next (trapHere s id ag 0x05 ea)) ∧
      (s.target ag .read (.flat ea) = .walking → exec (.sld size scale g d a b) s = .next (waitFor s id ag .again)) ∧
      (∀ x, s.target ag .read (.flat ea) = .mem (x.flatPa ea) x → s.replaying ag.part (.flat ea) = false →
        let slot := BitVec.ofNat 8 (x.pte.toNat / 2 ^ 56)
        (s.answers ag x (x.flatPa ea) = true →
          exec (.sld size scale g d a b) s =
            opened (s.noteAgXlat ag x) (ag.enter (.flat ea) x) (.mem (x.flatPa ea) (x.pte.getLsbD 6) slot)) ∧
        (s.answers ag x (x.flatPa ea) = false →
          exec (.sld size scale g d a b) s = .next (trapHere (s.violationOf (ag.enter (.flat ea) x) slot (x.flatPa ea)) id
            (ag.enter (.flat ea) x) 0x05 ea))) ∧
      (s.isRemote ag ea = true → s.replaying ag.part (.flat ea) = false →
        exec (.sld size scale g d a b) s = opened s.sendOff ag (.remote (ea.toNat / 2 ^ 46 % 512) ea)) ∧
      (s.target ag .read (.flat ea) = .absent →
        ∃ t : State, exec (.sld size scale g d a b) s = .next t ∧ t.agent? id = some { ag with wait := .held ea } ∧
          t.ms.faults.any (fun f => t.sameFault f ag.part (.flat ea) && f.waiters.contains id) = true ∧
          t.mem = (s.noteWalk ag.part (.flat ea)).mem))) ∧
  (∀ (s : State) (id : Nat) (ag ag' : Agent) (size : BitVec 3) (scale g : BitVec 2) (d : BitVec 6) (a b : Src)
      (ls : List Lane) (ts : List (Lane × Target)),
    s.mover = some (id, ag) → ag.profile = .wave →
    ls = (lanesOf (ag.active g)).map (fun l =>
      let ea := BitVec.ofInt 64 ((ag.srcP a).toNat + (ag.vsrc b l).toInt * 2 ^ scale.toNat)
      { l := l, va := ea, key := .flat ea, n := [1, 1, 2, 2, 4, 8].getD size.toNat 4,
        dst := if d = 63 then .none else if size = 5 then .vp d.toNat l else .v d.toNat l, sx := size.toNat,
        data := if size = 5 then ag.vpGet d.toNat l else (ag.vGet d.toNat l).zeroExtend 64 }) →
    (∀ x ∈ ls, x.va.toNat < 2 ^ 56 ∧ x.va.toNat % x.n = 0) → s.targets .read ag ls = (ag', ts) →
    (∀ p ∈ ts, s.replaying ag'.part p.1.key = false ∧
      ((∃ k, p.2 = .remote k) ∨ ∃ pa x, p.2 = .mem pa x ∧ s.answers ag' x pa = true)) →
    exec (.ld size scale g d a b) s = .next (retire ((s.noteLanes ag ts).sendFar ts) id { ag' with
      nextTag := ag'.nextTag + 1,
      opens := ag'.opens ++ ts.map (fun p => { p.1.access p.2 .load 0 (ag'.nextTag + 1) with born := s.ntime }) })) ∧
  (∀ (s : State) (id : Nat) (ag : Agent) (scope : BitVec 3) (size g : BitVec 2) (d : BitVec 6) (a b : Src) (ea : DWord)
      (n : Nat) (x : Xlat),
    s.mover = some (id, ag) → ag.Issues g → ea = BitVec.ofInt 64 ((ag.srcP a).toNat + (ag.src b).toInt) →
    n = (if size = 1 then 8 else 4) → ea.toNat < 2 ^ 56 → ea.toNat % n = 0 →
    s.target ag .read (.flat ea) = .mem (x.flatPa ea) x → s.replaying ag.part (.flat ea) = false →
    s.answers ag x (x.flatPa ea) = true →
    exec (.ldacq scope size g d a b) s = .next (retire (s.noteAgXlat ag x) id { ag.enter (.flat ea) x with
      nextTag := ag.nextTag + 1,
      opens := ag.opens ++ [{
        kind := .load, loc := .mem (x.flatPa ea) (x.pte.getLsbD 6) (BitVec.ofNat 8 (x.pte.toNat / 2 ^ 56)), size := n,
        scope := if ag.profile = .wave then scope.toNat else if scope = 1 ∨ scope = 2 then 3 else scope.toNat, acq := true,
        dst := if d = 63 then .none else if size = 1 then .sp d.toNat else .s d.toNat, sx := if size = 1 then 5 else 4,
        va := ea, tag := ag.nextTag + 1, born := s.ntime }] }))

/-- ST, SST and STREL: the open store that issue leaves, the side log, and the address trap. [R48, R61, R125, R128, R130,
R133, R134, R138]
SST with a legal address and a present page leaves one open store with its data and retires; beside what a walk for
the page reads (noteAgXlat), and that the agent waits for side-log entries no longer, nothing changes at issue. A page
that is not present takes the store into the side log of the unit and the instruction retires, when entries are free.
Bits 63:56 or misalignment raise the address trap. ST does so for its active lanes when every lane is present; STREL
opens a store that is a release at its scope. -/
def Obligations.FlatStores : Prop :=
  (∀ (s : State) (id : Nat) (ag : Agent) (size : BitVec 3) (scale g : BitVec 2) (d : BitVec 6) (a b : Src) (ea : DWord) (n : Nat),
    s.mover = some (id, ag) → ag.profile ≠ .sequencer → ag.Issues g → size.toNat ≤ 5 → d ≠ 63 →
    ea = BitVec.ofInt 64 ((ag.srcP a).toNat + (ag.src b).toInt * 2 ^ scale.toNat) →
    n = [1, 1, 2, 2, 4, 8].getD size.toNat 4 →
    let data : DWord := if size = 5 then ag.pGet d.toNat else (ag.sGet d.toNat).zeroExtend 64
    let dst : Dest := if size = 5 then .sp d.toNat else .s d.toNat
    (2 ^ 56 ≤ ea.toNat ∨ ea.toNat % n ≠ 0 → exec (.sst size scale g d a b) s = .next (trapHere (s.leaveSlog ag.unit id) id ag 0x05 ea)) ∧
    (ea.toNat < 2 ^ 56 → ea.toNat % n = 0 →
      (∀ x, s.target ag .write (.flat ea) = .mem (x.flatPa ea) x →
        exec (.sst size scale g d a b) s = .next (retire ((s.leaveSlog ag.unit id).noteAgXlat ag x) id { ag.enter (.flat ea) x with
          nextTag := ag.nextTag + 1,
          opens := ag.opens ++ [{
            kind := .store, loc := .mem (x.flatPa ea) (x.pte.getLsbD 6) (BitVec.ofNat 8 (x.pte.toNat / 2 ^ 56)), size := n,
            data := data, dst := dst, sx := size.toNat, va := ea, tag := ag.nextTag + 1, born := s.ntime }] })) ∧
      (s.target ag .write (.flat ea) = .absent → (s.unit ag.unit).slog.length + 1 ≤ (if ag.unit < 192 then 128 else 256) →
        (s.unit ag.unit).slogQ = [] →
        ∃ (t : State) (x : Agent), exec (.sst size scale g d a b) s = .next (retire t id x) ∧
          (s.keyReads ag.part (.flat ea) = [] → t.mem = s.mem) ∧ x = { ag with nextTag := ag.nextTag + 1 } ∧
          ∃ e : SideEnt, (t.unit ag.unit).slog = (s.unit ag.unit).slog ++ [e] ∧ e.agent = id ∧ e.va = ea ∧
            e.key = .flat (BitVec.ofNat 64 (ea.toNat / 64 * 64)) ∧
            e.bytes = (List.range n).map (fun i => (ea.toNat % 64 + i, BitVec.ofNat 8 (data.toNat / 256 ^ i), 0xFF))))) ∧
  (∀ (s : State) (id : Nat) (ag ag' : Agent) (size : BitVec 3) (scale g : BitVec 2) (d : BitVec 6) (a b : Src)
      (ls : List Lane) (ts : List (Lane × Target)),
    s.mover = some (id, ag) → ag.profile = .wave →
    ls = (lanesOf (ag.active g)).map (fun l =>
      let ea := BitVec.ofInt 64 ((ag.srcP a).toNat + (ag.vsrc b l).toInt * 2 ^ scale.toNat)
      { l := l, va := ea, key := .flat ea, n := [1, 1, 2, 2, 4, 8].getD size.toNat 4,
        dst := if d = 63 then .none else if size = 5 then .vp d.toNat l else .v d.toNat l, sx := size.toNat,
        data := if size = 5 then ag.vpGet d.toNat l else (ag.vGet d.toNat l).zeroExtend 64 }) →
    (∀ x ∈ ls, x.va.toNat < 2 ^ 56 ∧ x.va.toNat % x.n = 0) → s.targets .write ag ls = (ag', ts) →
    (∀ p ∈ ts, (∃ k, p.2 = .remote k) ∨ ∃ pa x, p.2 = .mem pa x) →
    exec (.st size scale g d a b) s = .next (retire (((s.leaveSlog ag'.unit id).noteLanes ag ts).sendFar ts) id { ag' with
      nextTag := ag'.nextTag + 1,
      opens := ag'.opens ++ ts.map (fun p => { p.1.access p.2 .store 0 (ag'.nextTag + 1) with born := s.ntime }) })) ∧
  (∀ (s : State) (id : Nat) (ag : Agent) (scope : BitVec 3) (size g : BitVec 2) (d : BitVec 6) (a b : Src) (ea : DWord)
      (n : Nat) (x : Xlat),
    s.mover = some (id, ag) → ag.Issues g → d ≠ 63 → ea = BitVec.ofInt 64 ((ag.srcP a).toNat + (ag.src b).toInt) →
    n = (if size = 1 then 8 else 4) → ea.toNat < 2 ^ 56 → ea.toNat % n = 0 →
    s.target ag .write (.flat ea) = .mem (x.flatPa ea) x →
    exec (.strel scope size g d a b) s = .next (retire ((s.leaveSlog ag.unit id).noteAgXlat ag x) id { ag.enter (.flat ea) x with
      nextTag := ag.nextTag + 1,
      opens := ag.opens ++ [{
        kind := .store, loc := .mem (x.flatPa ea) (x.pte.getLsbD 6) (BitVec.ofNat 8 (x.pte.toNat / 2 ^ 56)), size := n,
        scope := if ag.profile = .wave then scope.toNat else if scope = 1 ∨ scope = 2 then 3 else scope.toNat, rel := true,
        data := if size = 1 then ag.pGet d.toNat else (ag.sGet d.toNat).zeroExtend 64,
        va := ea, tag := ag.nextTag + 1, born := s.ntime }] }))

/-- LDSP and STSP in the scratchpad and through windows: values, registers, exactly the bytes stored, traps; TLD and TST.
[R55, R126, R128, R129, R130, R135, R136, R137]
The address is s[A] plus the signed offset times 2^scale modulo 2^32, of each active lane of a wave, of a sequencer's
one access. Where the bytes lie in the own scratchpad, aligned, in no engine-side plot and, for a store, over no
barrier object, and no acquire is open: LDSP writes the bytes, extended as its size says, to the lane of v[D] (a pair
for a doubleword) or to s[D], nothing for D 63, and nothing else; STSP stores the low bytes of the data, the highest
lane winning where lanes overlap, every other byte of memory reads as before, and both retire. A misaligned address,
or one that names nothing, raises the address trap with the lowest such lane, with no other effect. A sequencer's
access through a configured window opens a load and waits until it is answered, or posts one write and retires. TLD
and TST with present tiles open their accesses and retire; a lane that fails a check of R55 or R137 raises the address
trap, with an address that the specification does not give (log 23). -/
def Obligations.ScratchpadAccesses : Prop :=
  (∀ (s : State) (id : Nat) (ag : Agent) (size : BitVec 3) (scale g : BitVec 2) (d : BitVec 6) (a b : Src)
      (ea : Nat → Nat) (n : Nat),
    s.mover = some (id, ag) → ag.profile = .wave → size.toNat ≤ 5 → n = [1, 1, 2, 2, 4, 8].getD size.toNat 4 →
    (∀ l, ea l = (ag.src a + BitVec.ofInt 32 ((ag.vsrc b l).toInt * 2 ^ scale.toNat)).toNat) →
    ((∀ l, (ag.active g).getLsbD l = true → ea l + n ≤ spadSize ag.unit ∧ ea l % n = 0 ∧
        s.enginePlot ag.unit (ea l) n = none) → ag.barred = false →
      let at_ : Nat → Nat := fun l => leVal ((List.range n).map (fun i => s.homeByte (spadBase ag.unit + ea l + i)))
      (ag.wait ≠ .winLoad →
        ∃ x : Agent, exec (.ldsp size scale g d a b) s = .next (retire s id x) ∧ x = { ag with v := x.v } ∧
          ∀ r l, l < 96 → x.vGet r l =
            if (ag.active g).getLsbD l = true ∧ size.toNat ≤ 4 ∧ d.toNat < 63 ∧ r = d.toNat then
              (match size.toNat with
               | 0 => BitVec.ofInt 32 (BitVec.ofNat 8 (at_ l)).toInt
               | 2 => BitVec.ofInt 32 (BitVec.ofNat 16 (at_ l)).toInt
               | _ => BitVec.ofNat 32 (at_ l))
            else if (ag.active g).getLsbD l = true ∧ size.toNat = 5 ∧ d.toNat < 62 ∧ (r = d.toNat ∨ r = d.toNat + 1) then
              BitVec.ofNat 32 (at_ l / 2 ^ (if r = d.toNat then 0 else 32))
            else ag.vGet r l) ∧
      ((∀ k, ag.wait ≠ .winStore k) → d ≠ 63 →
        (∀ l, (ag.active g).getLsbD l = true → (s.unit ag.unit).overTag (ea l) n = false) →
        ∃ t : State, exec (.stsp size scale g d a b) s = .next (retire t id ag) ∧ t.ms = s.ms ∧ t.units = s.units ∧
          (∀ pa, (∀ l, l < 96 → (ag.active g).getLsbD l = true →
              ¬ (spadBase ag.unit + ea l ≤ pa ∧ pa < spadBase ag.unit + ea l + n)) → t.homeByte pa = s.homeByte pa) ∧
          (∀ l i, l < 96 → (ag.active g).getLsbD l = true → i < n →
            (∀ m, l < m → m < 96 → (ag.active g).getLsbD m = true →
              ¬ (ea m ≤ ea l + i ∧ ea l + i < ea m + n)) →
            t.homeByte (spadBase ag.unit + ea l + i) = BitVec.ofNat 8
              ((if size = 5 then (ag.vpGet d.toNat l).toNat else (ag.vGet d.toNat l).toNat) / 256 ^ i)))) ∧
    (∀ l, l < 96 → (ag.active g).getLsbD l = true →
      (ea l % n ≠ 0 ∨ (spadSize ag.unit < ea l + n ∧ (ea l < 2 ^ 24 ∨ 3 * 2 ^ 23 < ea l + n))) →
      (∀ k, k < l → (ag.active g).getLsbD k = true → ea k + n ≤ spadSize ag.unit ∧ ea k % n = 0) →
      ((∀ k, ag.wait ≠ .winStore k) →
        exec (.stsp size scale g d a b) s = .next (trapHere s id ag 0x05 (BitVec.ofNat 64 (ea l)))) ∧
      (ag.wait ≠ .winLoad →
        exec (.ldsp size scale g d a b) s = .next (trapHere s id ag 0x05 (BitVec.ofNat 64 (ea l)))))) ∧
  (∀ (s : State) (id : Nat) (ag : Agent) (size : BitVec 3) (scale : BitVec 2) (d : BitVec 6) (a b : Src) (ea n : Nat),
    s.mover = some (id, ag) → ag.profile = .sequencer → size.toNat ≤ 5 → n = [1, 1, 2, 2, 4, 8].getD size.toNat 4 →
    ea = (ag.src a + BitVec.ofInt 32 ((ag.src b).toInt * 2 ^ scale.toNat)).toNat → ea % n = 0 → ag.barred = false →
    let data : DWord := if size = 5 then ag.pGet d.toNat else (ag.sGet d.toNat).zeroExtend 64
    (ea + n ≤ spadSize ag.unit → s.enginePlot ag.unit ea n = none →
      let v := leVal ((List.range n).map (fun i => s.homeByte (spadBase ag.unit + ea + i)))
      (ag.wait ≠ .winLoad → exec (.ldsp size scale 0 d a b) s = .next (retire s id
        (if d = 63 then ag
         else if size = 5 then ag.pSet d.toNat (BitVec.ofNat 64 v)
         else ag.sSet d.toNat (match size.toNat with
           | 0 => BitVec.ofInt 32 (BitVec.ofNat 8 v).toInt
           | 2 => BitVec.ofInt 32 (BitVec.ofNat 16 v).toInt
           | _ => BitVec.ofNat 32 v)))) ∧
      ((∀ k, ag.wait ≠ .winStore k) → d ≠ 63 → (s.unit ag.unit).overTag ea n = false →
        ∃ t : State, exec (.stsp size scale 0 d a b) s = .next (retire t id ag) ∧ t.ms = s.ms ∧ t.units = s.units ∧
          ∀ pa, t.homeByte pa =
            if spadBase ag.unit + ea ≤ pa ∧ pa < spadBase ag.unit + ea + n then
              BitVec.ofNat 8 (data.toNat / 256 ^ (pa - (spadBase ag.unit + ea)))
            else s.homeByte pa)) ∧
    (∀ w o, ea = 2 ^ 24 + w * 2 ^ 19 + o → w < 16 → o + n ≤ 2 ^ 19 → ((s.unit ag.unit).win w).cfg.getLsbD 63 = true →
      (ag.wait ≠ .winLoad → s.winBusy id ag.unit w ((List.range n).map (fun i => o + i)) = false →
        exec (.ldsp size scale 0 d a b) s = .next (waitFor s id { ag with
          nextTag := ag.nextTag + 1,
          opens := ag.opens ++ [{ kind := .load, loc := .win w o, size := n,
                                  dst := if d = 63 then .none else if size = 5 then .sp d.toNat else .s d.toNat, sx := size.toNat,
                                  va := BitVec.ofNat 64 ea, tag := ag.nextTag + 1, born := s.ntime }] } .winLoad)) ∧
      (∀ t, (∀ k, ag.wait ≠ .winStore k) → d ≠ 63 →
        s.post id ag w o n ((List.range n).map (fun i => (o + i, BitVec.ofNat 8 (data.toNat / 256 ^ i)))) none none = some t →
        exec (.stsp size scale 0 d a b) s = .next (retire t id ag))) ∧
    (ag.wait = .winLoad → (∀ e ∈ ag.opens, ∀ w o, e.loc ≠ .win w o) →
      exec (.ldsp size scale 0 d a b) s = .next (retire s id ag))) ∧
  (∀ (s : State) (id : Nat) (ag ag' : Agent) (size : BitVec 3) (g : BitVec 2) (d a b : BitVec 6) (ls : List Lane)
      (ts : List (Lane × Target)),
    s.mover = some (id, ag) → ag.profile = .wave →
    let s1 : State := { s with free := s.free + 96 }
    (s.tensorLanes ag size g d a b = none →
      exec (.tld size g d a b) s = .next (trapHere s1 id ag 0x05 (Config.tensorAddr s.free)) ∧
      exec (.tst size g d a b) s = .next (trapHere s1 id ag 0x05 (Config.tensorAddr s.free))) ∧
    (s.tensorLanes ag size g d a b = some ls → (∀ x ∈ ls, x.bad = false) →
      (s1.targets .read ag ls = (ag', ts) →
        (∀ p ∈ ts, s.replaying ag'.part p.1.key = false ∧ ∃ pa x, p.2 = .mem pa x ∧ s1.answers ag' x pa = true) →
        exec (.tld size g d a b) s = .next (retire (s1.noteLanes ag ts) id { ag' with
          nextTag := ag'.nextTag + 1
          opens := ag'.opens ++ ts.map (fun p => { p.1.access p.2 .load 0 (ag'.nextTag + 1) with born := s.ntime }) })) ∧
      (s1.targets .write ag ls = (ag', ts) → (∀ p ∈ ts, ∃ pa x, p.2 = .mem pa x) →
        exec (.tst size g d a b) s = .next (retire ((s1.leaveSlog ag'.unit id).noteLanes ag ts) id { ag' with
          nextTag := ag'.nextTag + 1
          opens := ag'.opens ++ ts.map (fun p => { p.1.access p.2 .store 0 (ag'.nextTag + 1) with born := s.ntime }) }))))

/-- The twelve atomics: the open read-modify-write that issue leaves, the scratchpad form, and the arithmetic. [R48, R108,
R127, R129, R130, R140, R141, R142]
On a core, with a legal address in a present page whose home answers, an atomic with a destination opens one access
that carries its operation, scope (pk at least), data and destination, and retires; as a reduction (D 63) it opens the
access without a destination; a literal operand of an FP64 sum is its upper word. In a wave whose active lanes all
address the own scratchpad legally each lane in ascending order reads the old value, writes the new one and delivers
the old one, at issue (ACAS from B and the register after it); where they all address present pages whose homes
answer, or other packages, each lane opens its access. The new values are those of R141: modulo 2^n, minima, maxima,
bitwise, exchange, compare and swap, and the FP sum of finite values rounded to nearest. -/
def Obligations.Atomics : Prop :=
  (∀ (s : State) (id : Nat) (ag : Agent) (scope : BitVec 3) (dbl : Bool) (d : BitVec 6) (a b : Src) (ea : DWord) (x : Xlat),
    s.mover = some (id, ag) → ag.profile = .host → ea = ag.srcP a → ea.toNat < 2 ^ 56 →
    ea.toNat % (if dbl then 8 else 4) = 0 → s.target ag .readWrite (.flat ea) = .mem (x.flatPa ea) x →
    s.replaying ag.part (.flat ea) = false → s.answers ag x (x.flatPa ea) = true →
    let u := if d = 63 then (s.leaveSlog ag.unit id).noteAgXlat ag x else s.noteAgXlat ag x
    let opened : AtomOp → DWord → DWord → Out := fun op data cmp => .next (retire u id { ag with
      nextTag := ag.nextTag + 1,
      opens := ag.opens ++ [{
        kind := .atomic op, loc := .mem (x.flatPa ea) (x.pte.getLsbD 6) (BitVec.ofNat 8 (x.pte.toNat / 2 ^ 56)),
        size := if dbl then 8 else 4, scope := max 3 scope.toNat, data := data, cmp := cmp,
        dst := if d = 63 then .none else if dbl then .sp d.toNat else .s d.toNat, sx := if dbl then 5 else 4,
        va := ea, tag := ag.nextTag + 1, born := s.ntime }] })
    let v : DWord := if dbl then ag.srcP b else (ag.src b).zeroExtend 64
    exec (.aadd scope dbl 0 d a b) s = opened .add v 0 ∧ exec (.asub scope dbl 0 d a b) s = opened .sub v 0 ∧
    exec (.amin scope dbl 0 d a b) s = opened .min v 0 ∧ exec (.amax scope dbl 0 d a b) s = opened .max v 0 ∧
    exec (.aminu scope dbl 0 d a b) s = opened .minu v 0 ∧ exec (.amaxu scope dbl 0 d a b) s = opened .maxu v 0 ∧
    exec (.aand scope dbl 0 d a b) s = opened .and v 0 ∧ exec (.aor scope dbl 0 d a b) s = opened .or v 0 ∧
    exec (.axor scope dbl 0 d a b) s = opened .xor v 0 ∧ exec (.axchg scope dbl 0 d a b) s = opened .xchg v 0 ∧
    exec (.afadd scope dbl 0 d a b) s = opened .fadd (match dbl, b with
      | true, .lit w => BitVec.ofNat 64 (w.toNat * 2 ^ 32)
      | _, _ => v) 0 ∧
    (∀ r : BitVec 6, exec (.acas scope dbl 0 d a r) s = opened .cas
      (if dbl then ag.pGet (r.toNat + 2) else (ag.sGet (r.toNat + 1)).zeroExtend 64)
      (if dbl then ag.pGet r.toNat else (ag.sGet r.toNat).zeroExtend 64))) ∧
  (∀ (s : State) (id : Nat) (ag : Agent) (scope : BitVec 3) (dbl : Bool) (g : BitVec 2) (d : BitVec 6) (a b : Src)
      (data cmp : Nat → DWord),
    s.mover = some (id, ag) → ag.profile = .wave → ag.fires g = true →
    let width : Nat := if dbl then 8 else 4
    let dst : Nat → Dest := fun l => if d = 63 then .none else if dbl then .vp d.toNat l else .v d.toNat l
    let word : BitVec 6 → Nat → Nat → DWord := fun r k l =>
      if dbl then ag.vpGet (r.toNat + 2 * k) l else (ag.vGet (r.toNat + k) l).zeroExtend 64
    let all : (AtomOp → Out) → Prop := fun done =>
      ((∀ l, data l = (if dbl then ag.vsrcP b l else (ag.vsrc b l).zeroExtend 64) ∧ cmp l = 0) →
        exec (.aadd scope dbl g d a b) s = done .add ∧ exec (.asub scope dbl g d a b) s = done .sub ∧
        exec (.amin scope dbl g d a b) s = done .min ∧ exec (.amax scope dbl g d a b) s = done .max ∧
        exec (.aminu scope dbl g d a b) s = done .minu ∧ exec (.amaxu scope dbl g d a b) s = done .maxu ∧
        exec (.aand scope dbl g d a b) s = done .and ∧ exec (.aor scope dbl g d a b) s = done .or ∧
        exec (.axor scope dbl g d a b) s = done .xor ∧ exec (.axchg scope dbl g d a b) s = done .xchg ∧
        (dbl = false ∨ (∀ w, b ≠ .lit w) → exec (.afadd scope dbl g d a b) s = done .fadd)) ∧
      (∀ w, dbl = true → b = .lit w → (∀ l, data l = BitVec.ofNat 64 (w.toNat * 2 ^ 32) ∧ cmp l = 0) →
        exec (.afadd scope dbl g d a b) s = done .fadd) ∧
      (∀ r : BitVec 6, (∀ l, data l = word r 1 l ∧ cmp l = word r 0 l) → exec (.acas scope dbl g d a r) s = done .cas)
    (∀ own : List SpLane,
      own = (lanesOf (ag.active g)).map (fun l =>
        { l := l, a := (ag.vsrcP a l).toNat % 2 ^ 32, n := width, dst := dst l, sx := if dbl then 5 else 4, data := data l,
          cmp := cmp l }) →
      (∀ l, (ag.active g).getLsbD l = true → (ag.vsrcP a l).toNat / 2 ^ 32 = 2 ^ 31 ∧ s.tagBad ag (ag.vsrcP a l) width = false) →
      s.spTrap ag true own = none → ag.barred = false →
      all (fun op =>
        let r := ownAtomics op dbl own (if d = 63 then s.leaveSlog ag.unit id else s) { ag with nextTag := ag.nextTag + 1 }
        .next (retire r.1 id r.2))) ∧
    (∀ (ls : List Lane) (ag' : Agent) (ts : List (Lane × Target)),
      ls = (lanesOf (ag.active g)).map (fun l =>
        { l := l, va := ag.vsrcP a l, key := .flat (ag.vsrcP a l), n := width, dst := dst l, sx := if dbl then 5 else 4,
          data := data l, cmp := cmp l }) →
      (∀ x ∈ ls, x.va.toNat < 2 ^ 56 ∧ x.va.toNat % x.n = 0) → s.targets .readWrite ag ls = (ag', ts) →
      (∀ p ∈ ts, s.replaying ag'.part p.1.key = false ∧
        ((∃ k, p.2 = .remote k) ∨ ∃ pa x, p.2 = .mem pa x ∧ s.answers ag' x pa = true)) →
      all (fun op => .next (retire (((if d = 63 then s.leaveSlog ag'.unit id else s).noteLanes ag ts).sendFar ts) id { ag' with
        nextTag := ag'.nextTag + 1,
        opens := ag'.opens ++ ts.map (fun p => { p.1.access p.2 (.atomic op) scope.toNat (ag'.nextTag + 1) with born := s.ntime }) })))) ∧
  (∀ (op : AtomOp) (dbl : Bool) (x : SpLane) (rest : List SpLane) (s : State) (ag : Agent) (old : DWord),
    x.a + x.n ≤ spadSize ag.unit →
    old = BitVec.ofNat 64 (leVal ((List.range x.n).map (fun i => s.homeByte (spadBase ag.unit + x.a + i)))) →
    ownAtomics op dbl (x :: rest) s ag = ownAtomics op dbl rest
      (if atomWrites op dbl old x.cmp then s.spadStore ag.unit x.a (leBytes x.n (atomNew op dbl old x.data x.cmp).toNat) else s)
      (ag.deliver x.dst x.sx old) ∧
    ownAtomics op dbl [] s ag = (s, ag)) ∧
  (∀ (o b c : DWord),
    let w : Nat → DWord := fun n => BitVec.ofNat 64 (n % 2 ^ 32)
    let o4 := o.toNat % 2 ^ 32
    let b4 := b.toNat % 2 ^ 32
    let so := (BitVec.ofNat 32 o.toNat).toInt
    let sb := (BitVec.ofNat 32 b.toNat).toInt
    atomNew .add false o b c = w (o4 + b4) ∧ atomNew .add true o b c = BitVec.ofNat 64 (o.toNat + b.toNat) ∧
    atomNew .sub false o b c = w (o4 + 2 ^ 32 - b4) ∧ atomNew .sub true o b c = BitVec.ofInt 64 ((o.toNat : Int) - b.toNat) ∧
    (o.toNat < 2 ^ 32 →
      atomNew .min false o b c = (if sb < so then w b4 else o) ∧ atomNew .max false o b c = (if so < sb then w b4 else o) ∧
      atomNew .minu false o b c = (if b4 < o4 then w b4 else o) ∧ atomNew .maxu false o b c = (if o4 < b4 then w b4 else o) ∧
      atomNew .cas false o b c = (if o4 = c.toNat % 2 ^ 32 then w b4 else o)) ∧
    atomNew .min true o b c = (if b.toInt < o.toInt then b else o) ∧
    atomNew .max true o b c = (if o.toInt < b.toInt then b else o) ∧
    atomNew .minu true o b c = (if b.toNat < o.toNat then b else o) ∧
    atomNew .and true o b c = o &&& b ∧ atomNew .or true o b c = o ||| b ∧ atomNew .xor true o b c = o ^^^ b ∧
    (∀ (dbl : Bool),
      let f : Fmt := if dbl then .fp64 else .fp32
      let val : FVal → Rat := fun v => match v with
        | .fin n m e => (if n then -1 else 1) * (m : Rat) * (2 : Rat) ^ e
        | _ => 0
      let u := f.decode (o.toNat % 2 ^ f.bits)
      let v := f.decode (b.toNat % 2 ^ f.bits)
      (u.isNan = true ∨ v.isNan = true ∨ (u.isInf = true ∧ v.isInf = true ∧ u.neg ≠ v.neg) →
        atomNew .fadd dbl o b c = BitVec.ofNat 64 f.nanBits) ∧
      (u.isNan = false → u.isInf = false → v.isNan = false → v.isInf = false →
        ∃ n m e, atomNew .fadd dbl o b c = BitVec.ofNat 64 (roundTo f 0 0 (.fin n m e)).1 ∧ val (.fin n m e) = val u + val v)) ∧
    atomNew .maxu true o b c = (if o.toNat < b.toNat then b else o) ∧
    atomNew .and false o b c = w (o4 &&& b4) ∧ atomNew .or false o b c = w (o4 ||| b4) ∧
    atomNew .xor false o b c = w (o4 ^^^ b4) ∧ atomNew .xchg false o b c = w b4 ∧ atomNew .xchg true o b c = b ∧
    atomNew .cas true o b c = (if o = c then b else o) ∧
    (∀ dbl, atomWrites .cas dbl o c = decide (if dbl then o = c else o4 = c.toNat % 2 ^ 32)))

/-- Performing loads, stores and atomics; acquires and releases. [R129, R142, R219, R220, R221, R223, R224, R225, R226,
R234]
A load that may be performed delivers one value to all lanes of its instruction at its address and closes them, with
merr set where its line is dropped. The value is the newest of the agent's own pending writes over the package store
where no inner level, peer cache or fill of the Orangery lies on the path, and over the level 1 copy where that holds
the bytes whole; every byte then reads as before. An uncached atomic that finds its bytes sound delivers the old value
and leaves no write pending: where it writes, the new value arrives at the package store (arriveWrite, whose bytes
MemoryReadAfterWrite states), else memory stays. A wave's atomic at CU scope on bytes that stand whole at level 1 puts
the new value there and leaves it pending. A store enters the pending writes at level 0; a release waits for its
condition. An acquire empties the inner levels below its scope; a FENCE's release ends when its condition holds. -/
def Obligations.OrderingEvents : Prop :=
  ∀ (s : State) (id n : Nat) (ag : Agent) (e : Access), s.agent? id = some ag → ag.opens[n]? = some e →
    (∀ o ∈ ag.opens.take n, o.acq = false ∧ o.kind ≠ .order ∧ (∀ l a, o.kind ≠ .fenceRel l a) ∧ o.kind ≠ .fenceAcq ∧
      (o.tag = e.tag ∨ o.overlaps e = false)) →
    (∀ (pa install : Nat) (unc : Bool) (slot : BitVec 8),
      e.kind = .load → e.acq = false → e.loc = .mem pa unc slot → paKind pa ≠ .mmio → s.reachable ag.part slot pa = true →
      let mine : Access → Bool := fun o => o.tag == e.tag && o.kind == e.kind && o.loc == e.loc && o.size == e.size
      let give : DWord → Agent := fun x => (ag.opens.filter mine).foldl (fun a o => a.deliver o.dst o.sx x)
        { ag with opens := dropOrder (ag.opens.filter (fun o => !mine o)) }
      let under : (Nat → Byte) → DWord := fun b => BitVec.ofNat 64 (leVal ((List.range e.size).map (fun i =>
        ag.pend.foldl (fun (b : Byte) w => match w.loc with
          | .mem p _ _ => if p ≤ pa + i ∧ pa + i < p + w.bytes.length
              then (b &&& ~~~w.msk) ||| (w.bytes.getD (pa + i - p) 0 &&& w.msk) else b
          | _ => b) (b (pa + i)))))
      (∃ (t : State) (x : DWord), exec (.loadPerform id n install .clean) s = .next t ∧
        (t.agent? id = some (give x) ∨ t.agent? id = some ((give x).orStat rsMerr))) ∧
      (ag.profile ≠ .wave ∨ unc = true → ag.writePeer unc pa = 0 → (keyed pa = false ∨ (s.hit? slot pa).isSome = true) →
        (∀ q, s.lostAt slot q = false ∧ Tab.get false s.ms.mixed (64 * q + ag.part) = false) → s.ms.latent = [] →
        Tab.get 0 s.ms.uses (64 * (pa / 4096) + ag.part) ||| (if unc then 2 else 1) ≠ 3 →
        ∃ t : State, exec (.loadPerform id n install .clean) s = .next t ∧ t.mem = s.mem ∧ s.SameBytes t ∧
          t.agent? id = some (give (under (s.pkRead slot)))) ∧
      (ag.profile = .wave → unc = false →
        s.levelWhole ag 1 ((List.range' pa e.size).filter (fun a => !ag.ownByte a)) = true →
        ∃ t : State, exec (.loadPerform id n install .clean) s = .next t ∧ t.mem = s.mem ∧ s.SameBytes t ∧
          t.agent? id = some (give (under (fun q => (s.innerAt ag 1 q).getD 0))))) ∧
    (∀ (pa : Nat) (unc : Bool) (slot : BitVec 8), e.kind = .store → e.loc = .mem pa unc slot → paKind pa ≠ .mmio →
      (∀ o ∈ ag.opens.drop (n + 1), o.tag ≠ e.tag) → (∀ o ∈ ag.opens.take n, o.overlaps e = false) →
      (e.rel = false →
        exec (.storePerform id n) s = .next (s.tick2.putAgent id { ag with
          opens := dropOrder (dropNth ag.opens n)
          pend := ag.pend ++ [{ loc := e.loc, bytes := leBytes e.size e.data.toNat, va := e.va, tag := e.tag,
                                msk := e.msk, tid := e.tid, born := e.born, seq := s.ms.stamp }] })) ∧
      (e.rel = true → ag.pend.any (fun w => decide (w.tag < e.tag) && decide (w.level < e.scope)) = true →
        exec (.storePerform id n) s = .next s)) ∧
    (∀ (pa : Nat) (unc : Bool) (slot : BitVec 8) (op : AtomOp) (old : DWord),
      e.kind = .atomic op → e.loc = .mem pa unc slot → paKind pa ≠ .mmio → s.reachable ag.part slot pa = true → ag.pend = [] →
      (∀ m o, ag.opens[m]? = some o → m ≠ n → o.tag ≠ e.tag) → (∀ r l, e.dst ≠ .v r l ∧ e.dst ≠ .vp r l) →
      let new : List Byte := leBytes e.size (atomNew op (e.size == 8) old e.data e.cmp).toNat
      let gives : Agent → Prop := fun x => x.opens = dropOrder (dropNth ag.opens n) ∧ x.s = (ag.deliver e.dst e.sx old).s
      (unc = true → (keyed pa = false ∨ (s.hit? slot pa).isSome = true) →
        (∀ q, s.lostAt slot q = false ∧ Tab.get false s.ms.mixed (64 * q + ag.part) = false) → s.ms.latent = [] →
        Tab.get 0 s.ms.uses (64 * (pa / 4096) + ag.part) ||| 2 ≠ 3 →
        old = BitVec.ofNat 64 (leVal (s.pkReadN slot pa e.size)) →
        ∃ (t : State) (x : Agent), exec (.atomicPerform id n .clean) s = .next t ∧ t.agent? id = some x ∧ x.pend = [] ∧ gives x ∧
          (atomWrites op (e.size == 8) old e.cmp = false → t.mem = s.mem) ∧
          (atomWrites op (e.size == 8) old e.cmp = true →
            let u := (((s.noteUse ag.part pa true).arriveRead ag.part slot pa e.size .clean).1).arriveWrite
              (some ag.codeUnit) ag.part 0 slot pa new 0xFF
            t.mem = u.mem ∧ t.ms = u.ms)) ∧
      (unc = false → ag.profile = .wave → e.scope ≤ 1 → s.levelWhole ag 1 (List.range' pa e.size) = true →
        old = BitVec.ofNat 64 (leVal ((List.range' pa e.size).map (fun q => (s.innerAt ag 1 q).getD 0))) →
        atomWrites op (e.size == 8) old e.cmp = true →
        ∃ (t : State) (x : Agent), exec (.atomicPerform id n .clean) s = .next t ∧ t.agent? id = some x ∧ gives x ∧
          t.mem = s.mem ∧ x.pend.map (fun w => (w.bytes, w.level)) = [(new, 1)] ∧
          ∀ i, i < e.size → t.innerAt ag 1 (pa + i) = some (new.getD i 0))) ∧
    (n = 0 → e.kind = .fenceAcq → ag.profile = .wave → e.scope ≤ 1 →
      exec (.acquire id 0) s = .next (s.putAgent id { ag with opens := dropOrder (ag.opens.drop 1) })) ∧
    (n = 0 → e.kind = .fenceAcq → ag.profile = .wave → 3 ≤ e.scope →
      ∃ t : State, exec (.acquire id 0) s = .next t ∧ t.mem = s.mem ∧
        (∀ pa, (Tab.find? (Tab.get [] t.ms.l1 ag.unit) pa).isSome = true → s.pinned 1 ag.unit pa = true) ∧
        (∀ pa, (Tab.find? (Tab.get [] t.ms.l2 (ag.unit / 4)) pa).isSome = true → s.pinned 2 (ag.unit / 4) pa = true) ∧
        t.agent? id = some { ag with opens := dropOrder (ag.opens.drop 1) }) ∧
    (∀ log ack : Bool, n = 0 → e.kind = .fenceRel log ack → ag.profile ≠ .sequencer → e.scope < 5 →
      (exec (.release id 0) s =
        if ag.opens.all (fun o => decide (e.tag ≤ o.tag)) = true ∧
           ag.pend.all (fun w => decide (e.tag ≤ w.tag) || decide (e.scope ≤ w.level)) = true ∧
           (e.scope = 0 ∧ log = false ∨ ∀ u ∈ s.units, ∀ x ∈ u.2.slog, x.agent ≠ id ∨ x.copy.isSome = true) ∧
           (ack = true → s.postedOpen id = false) then
          .next (s.putAgent id { ag with opens := dropOrder (ag.opens.drop 1) })
        else .next s))

/-- A pending write moves outward level by level to its home; cached copies are evicted; a write error reaches the agent.
[R51, R130, R219, R222, R223, R227, R253]
A pending write that no older overlapping one of the agent holds back moves, in a wave through a cached page, from
level 0 to 1 and 1 to 2, where the store of that level then holds its bytes, and from there (or at once, for other
agents and uncached pages) it leaves the pending writes and arrives at the package store, memory and its stores then
being as arriveWrite leaves them: the bytes under the write's mask, in the peer cache of the agent's die as the owner,
or at the home where there is none. An eviction at level 1 or 2 removes a byte no pending write holds at that level
and changes nothing else; a cached translation or a walker's table entry may go likewise (R51). A write whose home
answers with an error is removed; the address trap then follows at a boundary, for a row of an ACCST the engine-fault
trap, or for another package the remote error. -/
def Obligations.PendingWrites : Prop :=
  (∀ (s : State) (id n : Nat) (ag : Agent) (w : PWrite),
    s.agent? id = some ag → ag.pend[n]? = some w →
    (∀ pa unc slot, w.loc = .mem pa unc slot → s.reachable ag.part slot pa = true →
      (∀ o ∈ ag.pend.take n, w.level < o.level ∨ o.overlaps w = false) →
      (ag.profile = .wave → unc = false → w.level < 2 →
        ∃ t : State, exec (.writePropagate id n) s = .next t ∧ t.mem = s.mem ∧ s.SameBytes t ∧
          t.agent? id = some { ag with pend := setNth ag.pend n { w with level := w.level + 1 } } ∧
          ∀ i, i < w.bytes.length → ∃ old : Byte, t.innerAt ag (w.level + 1) (pa + i) =
            some ((old &&& ~~~w.msk) ||| (w.bytes.getD i 0 &&& w.msk))) ∧
      (ag.profile ≠ .wave ∨ unc = true ∨ 2 ≤ w.level →
        ∃ (t : State) (x : Agent), exec (.writePropagate id n) s = .next t ∧ t.agent? id = some x ∧
          x.pend = dropNth ag.pend n ∧ x.opens = ag.opens ∧ x.s = ag.s ∧
          t.mem = ((s.noteUse ag.part pa unc).arriveWrite (some ag.codeUnit) ag.part (ag.writePeer unc pa) slot pa w.bytes w.msk).mem ∧
          t.ms = ((s.noteUse ag.part pa unc).arriveWrite (some ag.codeUnit) ag.part (ag.writePeer unc pa) slot pa w.bytes w.msk).ms)) ∧
    (∀ pa unc slot, w.loc = .mem pa unc slot → s.backed ag.part pa = false →
      ∃ x : Agent, exec (.writeErrorRemoval id n) s = .next (s.putAgent id x) ∧ x.pend = dropNth ag.pend n ∧
        (w.row = false → x = { ag with pend := dropNth ag.pend n, stErr := ag.stErr ++ [w.va] }) ∧
        (w.row = true → x.tcause = ag.tcause ||| 0x20000 ∧ x.stErr = ag.stErr ∧
          x.engVal = (if ag.tcause.getLsbD 17 then ag.engVal else w.va))) ∧
    (∀ k v, w.loc = .remote k v → ∃ x : Agent, exec (.writeErrorRemoval id n) s = .next (s.putAgent id x) ∧
      x.pend = dropNth ag.pend n ∧ x.rstat = ag.rstat ||| rsRerr ∧
      (ag.rstat.getLsbD 31 = true → x.tcause.getLsbD 18 = true ∧ x.remVal = w.va) ∧
      (ag.rstat.getLsbD 31 = false → x.tcause = ag.tcause))) ∧
  (∀ (s : State) (idx pa : Nat),
    (s.pinned 1 idx pa = false → ∃ t : State, exec (.cacheEviction 1 idx pa) s = .next t ∧ t.mem = s.mem ∧
      t.agents = s.agents ∧ (∀ u p, Tab.find? (Tab.get [] t.ms.l1 u) p =
        if u = idx ∧ p = pa then none else Tab.find? (Tab.get [] s.ms.l1 u) p) ∧ t.ms.l2 = s.ms.l2) ∧
    (s.pinned 2 idx pa = false → ∃ t : State, exec (.cacheEviction 2 idx pa) s = .next t ∧ t.mem = s.mem ∧
      t.agents = s.agents ∧ (∀ c p, Tab.find? (Tab.get [] t.ms.l2 c) p =
        if c = idx ∧ p = pa then none else Tab.find? (Tab.get [] s.ms.l2 c) p) ∧ t.ms.l1 = s.ms.l1) ∧
    (s.pinned 1 idx pa = true → exec (.cacheEviction 1 idx pa) s = .next s) ∧
    exec (.cacheEviction 4 idx pa) s = .next { s with ms := { s.ms with tlb := dropNth s.ms.tlb idx } } ∧
    exec (.cacheEviction 5 idx pa) s = .next { s with ms := { s.ms with upper := dropNth s.ms.upper idx } })

/-- A byte written to memory reads back, every other byte stays, and the canonical form is kept. [R16, R31, R35, R218,
R268]
Writing a byte of memory or of a scratchpad gives that byte on a later read and leaves every other address alone; the
list of memory stays canonical, and the empty memory is. A write that arrives at the home under a slot reads back
under that slot, from the package store and from the home, whatever stood there. At an address without key slots, with
no peer and no line of its sector, a write reads back under any slot, whether a peer cache or the home takes it, and
other such addresses stay. Writing a byte back to its home keeps what its owner's slot reads. A block of memory
written under one key and read under another gives the bits that the second key decrypts (the keys are free values,
log 12). -/
def Obligations.MemoryReadAfterWrite : Prop :=
  (∀ (s : State) (pa : Nat) (b : Byte), Memory.wf s.mem = true →
    (s.setHome pa b).homeByte pa = b ∧ (∀ q, q ≠ pa → (s.setHome pa b).homeByte q = s.homeByte q) ∧
    Memory.wf (s.setHome pa b).mem = true) ∧
  Memory.wf State.reset.mem = true ∧
  (∀ (s : State) (u off : Nat) (bs : List Byte), Memory.wf s.mem = true →
    (s.spadWrite u off bs).spadRead u off bs.length = bs ∧ Memory.wf (s.spadWrite u off bs).mem = true ∧
    (∀ pa, pa < spadBase u + off ∨ spadBase u + off + bs.length ≤ pa → (s.spadWrite u off bs).homeByte pa = s.homeByte pa)) ∧
  (∀ (s : State) (slot : BitVec 8) (pa : Nat) (b : Byte),
    (s.pkWrite slot false pa b).pkRead slot pa = b ∧ (s.pkWrite slot false pa b).homeRead slot pa = b) ∧
  (∀ (s : State) (slot r : BitVec 8) (pa : Nat) (b : Byte), keyed pa = false → s.isDropped pa = false →
    s.sharers (pa / 256) = [] → (∀ e ∈ s.ms.orng, e.2.sector ≠ pa / 256) →
    (s.pkWrite slot false pa b).pkRead r pa = b ∧ (s.pkWrite slot true pa b).pkRead r pa = b ∧
    (s.pkWrite slot false pa b).homeByte pa = b ∧ (s.pkWrite slot true pa b).homeByte pa = s.homeByte pa ∧
    (∀ q, q ≠ pa → keyed q = false →
      (s.pkWrite slot false pa b).pkRead r q = s.pkRead r q ∧ (s.pkWrite slot true pa b).pkRead r q = s.pkRead r q)) ∧
  (∀ (s : State) (pa : Nat) (o : BitVec 8), o = ((s.ownerOf pa).map (fun e => e.slot)).getD 0 →
    (s.writeBack pa).pkRead o pa = s.pkRead o pa ∧ (s.writeBack pa).homeRead o pa = s.pkRead o pa) ∧
  (∀ (s : State) (slot : BitVec 8) (pa kw : Nat), keyed pa = true → s.isDropped pa = false → s.hit? slot pa = none →
    Tab.find? s.ms.lineKey (pa / 64) = some kw → kw ≠ s.keyOf slot →
    s.homeRead slot pa = nth 0 (crossRead kw (s.keyOf slot) pa ((List.range 16).map (fun i => s.homeByte (pa / 16 * 16 + i))))
      (pa % 16))

/-- BAR, BARA and BARW on the barrier object, and its creation. [R235, R236, R237]
The object is a doubleword: phase in the high word, expected in bits 20:16, arrived in bits 4:0. With the object
tagged, 8-aligned in unit-side own scratchpad and the release at gp ready, an arrival that does not complete the count
adds 1 to arrived, the last one advances the phase and clears arrived; BARA writes the phase it arrived in to D and
goes on; BAR waits until the phase differs, writes the new phase, and is an acquire at gp. A first arrival with 1 to
16 expected creates the object; another count is a clobber, cause 0x07. BARW waits while the phase equals its token.
One that waits already looks at the phase alone. The write of the object wakes the WAITWs on it (R239); other agents
stay as they are. -/
def Obligations.Barriers : Prop :=
  (∀ (s : State) (id : Nat) (ag : Agent) (g : BitVec 2) (d : BitVec 6) (a b : Src) (p n ph ex ar : Nat),
    s.mover = some (id, ag) → ag.profile = .wave → ag.fires g = true → (∀ q t, ag.wait ≠ .barrier q t) →
    p = (ag.src a).toNat → n = (ag.src b).toNat → p % 8 = 0 → p + 8 ≤ spadSize ag.unit →
    s.enginePlot ag.unit p 8 = none → ar < 32 → ex < 32 →
    let word : Prop := (s.spWord ag.unit p 8).toNat = ph * 2 ^ 32 + ex * 2 ^ 16 + ar
    (word → p ∈ (s.unit ag.unit).tags → n = ex → 1 ≤ n → ar < n → s.releaseNow id ag 1 = true →
      ∃ t : State, t.units = s.units ∧ (∀ k x, s.agent? k = some x → (∀ w, x.wait ≠ .waitwOut w) → t.agent? k = some x) ∧
        (t.spWord ag.unit p 8).toNat = (if ar + 1 = ex then (ph + 1) % 2 ^ 32 * 2 ^ 32 + ex * 2 ^ 16
          else ph * 2 ^ 32 + ex * 2 ^ 16 + (ar + 1)) ∧
        (∀ q, q < spadBase ag.unit + p ∨ spadBase ag.unit + p + 8 ≤ q → t.homeByte q = s.homeByte q) ∧
        exec (.bara g d a b) s = .next (retire t id (ag.sSet d.toNat (BitVec.ofNat 32 ph))) ∧
        (ar + 1 = ex → exec (.bar g d a b) s =
          .next (retire (t.acquire ag 1) id (ag.sSet d.toNat (BitVec.ofNat 32 (ph + 1))))) ∧
        (ar + 1 ≠ ex → exec (.bar g d a b) s = .next (waitFor t id ag (.barrier p (BitVec.ofNat 32 ph))))) ∧
    (p ∉ (s.unit ag.unit).tags → 1 ≤ n → n ≤ 16 → s.releaseNow id ag 1 = true →
      ∃ t : State, (t.unit ag.unit).tags = p :: (s.unit ag.unit).tags ∧
        (t.spWord ag.unit p 8).toNat = (if n = 1 then 2 ^ 32 + 2 ^ 16 else n * 2 ^ 16 + 1) ∧
        exec (.bara g d a b) s = .next (retire t id (ag.sSet d.toNat 0))) ∧
    (word → p ∈ (s.unit ag.unit).tags → n = 0 → ar = 0 →
      ∃ t : State, t.mem = s.mem ∧ t.agents = s.agents ∧ (t.unit ag.unit).tags = (s.unit ag.unit).tags.filter (· != p) ∧
        exec (.bara g d a b) s = .next (retire t id (ag.sSet d.toNat (BitVec.ofNat 32 ph)))) ∧
    ((word ∧ p ∈ (s.unit ag.unit).tags ∧ n ≠ ex ∧ n ≠ 0) ∨ (p ∉ (s.unit ag.unit).tags ∧ (n = 0 ∨ 16 < n)) →
      exec (.bara g d a b) s = .next (trapHere s id ag 0x07 (BitVec.ofNat 64 p)) ∧
      exec (.bar g d a b) s = .next (trapHere s id ag 0x07 (BitVec.ofNat 64 p))) ∧
    (word → p ∈ (s.unit ag.unit).tags → ag.barred = false →
      (ph ≠ n → exec (.barw g d a b) s = .next (retire (s.acquire ag 1) id (ag.sSet d.toNat (BitVec.ofNat 32 ph)))) ∧
      (ph = n → exec (.barw g d a b) s = .next (waitFor s id ag (.barrier p (BitVec.ofNat 32 ph))))) ∧
    (p ∉ (s.unit ag.unit).tags → exec (.barw g d a b) s = .next (trapHere s id ag 0x07 (BitVec.ofNat 64 p)))) ∧
  (∀ (s : State) (id : Nat) (ag : Agent) (g : BitVec 2) (d : BitVec 6) (a b : Src) (q : Nat) (tok ph : Word),
    s.mover = some (id, ag) → ag.profile = .wave → ag.fires g = true → ag.wait = .barrier q tok →
    ph = BitVec.ofNat 32 ((s.spWord ag.unit q 8).toNat / 2 ^ 32) →
    let goes : Out := .next (if ph = tok then waitFor s id ag (.barrier q tok)
      else retire (s.acquire ag 1) id (ag.sSet d.toNat ph))
    exec (.bar g d a b) s = goes ∧ exec (.bara g d a b) s = goes ∧ exec (.barw g d a b) s = goes)

/-- FENCE, DBAR, WAITW and WAKEW: when they end, and what they leave. [R195, R232, R234, R238, R239, R240, R317]
FENCE issues its release and its acquire as open entries and waits (that it holds its agent till then is the model's
reading, log 54); once both are done it retires, and FENCE.ack makes a window error it reports pending. DBAR at level
0, with a sequencer's queue entries retired, writes 0; in a domain it writes the number of the barrier once every
member has arrived. WAITW reads its word, from the own scratchpad or through a present page (as noteRead leaves it; an
uncached page keeps memory and other agents as they are), and ends when it differs from the comparand, as an acquire;
while it is equal it waits. WAKEW, once its release is ready, makes the waves of its partition that wait out of their
slots on that line, by its address or by another mapping of it (the model's reading, log 52), ready, and no other
agent changes. -/
def Obligations.FencesAndWaits : Prop :=
  (∀ (s : State) (id : Nat) (ag : Agent) (scope : BitVec 3) (ack log : Bool) (g : BitVec 2),
    s.mover = some (id, ag) → ag.Issues g →
    (ag.wait = .fence → (∀ e ∈ ag.opens, e.kind ≠ .fenceAcq ∧ ∀ x y, e.kind ≠ .fenceRel x y) →
      exec (.fence scope ack log g) s = .next (retire s id
        (if ack = true ∧ ag.unrep = true then
          { ag with
            unrep := false
            tcause := if ag.rstat.getLsbD 31 then ag.tcause ||| 0x40000 else ag.tcause
            remVal := if ag.rstat.getLsbD 31 then 0 else ag.remVal }
         else ag))) ∧
    (ag.wait = .none → ag.profile = .wave →
      exec (.fence scope ack log g) s = .next (waitFor s id { ag with
        nextTag := ag.nextTag + 1
        opens := ag.opens ++ [{ kind := .fenceRel log ack, scope := scope.toNat, tag := ag.nextTag + 1 },
                              { kind := .fenceAcq, scope := scope.toNat, tag := ag.nextTag + 1 }] } .fence))) ∧
  (∀ (s : State) (id : Nat) (ag : Agent) (g : BitVec 2) (d : BitVec 6),
    s.mover = some (id, ag) → ag.profile ≠ .host → ag.Issues g → (∀ n, ag.wait ≠ .dbar n) → ag.unrep = false →
    s.postedOpen id = false →
    (ag.dmem.toNat / 2 ^ 29 = 0 → s.releaseNow id ag 0 = true → s.dispatchedDone ag (ag.nextTag + 1) = true →
      exec (.dbar g d) s = .next (retire s id (ag.sSet d.toNat 0))) ∧
    (∀ n, n = ag.nDbar + 1 → 1 ≤ ag.dmem.toNat / 2 ^ 29 →
      s.releaseNow id ag (ag.flatScope ([0, 1, 2, 3, 3, 4].getD (ag.dmem.toNat / 2 ^ 29) 4)) = true →
      ((∀ k r, s.redn ag false n = some (k, r) → r.members ≤ r.arr.length + 1) ∧
        (s.redn ag false n = none → ag.dmem.toNat % 2 ^ 16 ≤ 1) →
        ∃ (t : State) (x : Agent), exec (.dbar g d) s = .next (retire t id x) ∧ t.mem = s.mem ∧
          x = { ag with nDbar := n }.sSet d.toNat (BitVec.ofNat 32 n)) ∧
      (s.redn ag false n = none → 2 ≤ ag.dmem.toNat % 2 ^ 16 →
        ∃ t : State, exec (.dbar g d) s = .next (waitFor t id { ag with nDbar := n } (.dbar n)) ∧ t.mem = s.mem ∧
          ∃ k r, t.redn ag false n = some (k, r) ∧ r.arr.length = 1 ∧ r.members = ag.dmem.toNat % 2 ^ 16))) ∧
  (∀ (s : State) (id : Nat) (ag : Agent) (g : BitVec 2) (d : BitVec 6) (a b : Src) (ea : DWord) (w : Word),
    s.mover = some (id, ag) → ag.profile = .wave → ag.fires g = true → ea = ag.srcP a → ag.barred = false →
    (∀ e v, ag.wait ≠ .waitwGot e v ∧ ag.wait ≠ .waitwOut e) →
    (∀ p, p = ea.toNat % 2 ^ 32 → ea.toNat / 2 ^ 32 = 2 ^ 31 → p % 4 = 0 → p + 4 ≤ spadSize ag.unit →
      s.enginePlot ag.unit p 4 = none → w = BitVec.ofNat 32 (s.spWord ag.unit p 4).toNat →
      exec (.waitw g d a b) s = .next
        (if w = ag.src b then waitFor s id ag (.waitw ea) else retire (s.acquire ag 1) id (ag.sSet d.toNat w))) ∧
    (∀ x : Xlat, ea.toNat < 2 ^ 56 → ea.toNat % 4 = 0 → s.target ag .read (.flat ea) = .mem (x.flatPa ea) x →
      s.replaying ag.part (.flat ea) = false → s.answers (ag.enter (.flat ea) x) x (x.flatPa ea) = true → ag.opens = [] →
      let pa := x.flatPa ea
      let slot := BitVec.ofNat 8 (x.pte.toNat / 2 ^ 56)
      let in_ := ag.enter (.flat ea) x
      let u := (((s.noteAgXlat ag x).putAgent id in_).acquire in_ 3).noteRead id in_ x pa 4
      let y := (u.agent? id).getD in_
      (w = BitVec.ofNat 32 (leVal (u.pkSeeN ag.part slot pa 4)) →
        exec (.waitw g d a b) s = .next
          (if w = ag.src b then waitFor u id y (.waitw ea) else retire (u.acquire y 3) id (y.sSet d.toNat w))) ∧
      (x.pte.getLsbD 6 = true → (s.cached ag.strm (fun z => z == x)).isSome = true →
        (keyed pa = false ∨ (s.hit? slot pa).isSome = true) → s.ms.latent = [] →
        (∀ q, s.lostAt slot q = false ∧ Tab.get false s.ms.mixed (64 * q + ag.part) = false) →
        Tab.get 0 s.ms.uses (64 * (pa / 4096) + ag.part) ||| 2 ≠ 3 →
        w = BitVec.ofNat 32 (leVal (s.pkReadN slot pa 4)) →
        ∃ t : State, t.mem = s.mem ∧ (∀ k, k ≠ id → t.agent? k = s.agent? k) ∧ exec (.waitw g d a b) s = .next
          (if w = ag.src b then waitFor t id in_ (.waitw ea) else retire t id (in_.sSet d.toNat w))))) ∧
  (∀ (s : State) (id : Nat) (ag : Agent) (g : BitVec 2) (a : Src) (ea : DWord),
    s.mover = some (id, ag) → ag.profile = .wave → ag.fires g = true → ea = ag.srcP a → ea.toNat < 2 ^ 56 →
    s.releaseNow id ag 3 = true →
    ∃ t : State, exec (.wakew g a) s = .next (retire t id ag) ∧ t.mem = s.mem ∧ t.units = s.units ∧
      ∀ k x, s.agent? k = some x → t.agent? k = some (match x.wait with
        | .waitwOut w =>
          if x.part = ag.part ∧ (w.toNat / 64 = ea.toNat / 64 ∨
              (w.toNat < 2 ^ 63 ∧ ∃ line, s.physLine ag ea = some line ∧ s.physLine x w = some line)) then
            { x with wait := .waitwReady w }
          else x
        | _ => x))

/-- GIVE, TAKE, HWAIT, HTEST, HCANCEL and HPASS. [R64, R65, R72, R73, R136, R145, R146, R147, R148]
GIVE, once its release is ready, puts unit-side plots of its range on the engine side; where one is already there, the
ownership trap names the lowest such plot; TAKE returns the unbound plots of its range and waits until the operations
to which the others are bound have completed, and for no other. An empty range does nothing; one beyond the scratchpad
is the address trap (the plot in its tval is the model's choice, log 23). HWAIT waits while its handle is pending,
then writes the status, code 15 in bits 63:60 for an idle one; code 6 sets rerr and, where rte is 1, makes the remote-
error trap pending; code 7 raises trap 0x08 unless pfm is 1. HTEST writes 1 for a done handle, else 0. HCANCEL marks
the pending operation. HPASS moves a handle within the wave or to a live wave of the group and leaves the source idle;
a wave that is not live is the address trap (its number in tval is the model's choice, log 23). -/
def Obligations.HandlesAndPlots : Prop :=
  ∀ (s : State) (id : Nat) (ag : Agent) (g : BitVec 2), s.mover = some (id, ag) → ag.profile ≠ .host → ag.Issues g →
    (∀ (a b : Src) (p n : Nat), p = (ag.src a).toNat → n = (ag.src b).toNat →
      (n = 0 → exec (.give g a b) s = .next (retire s id ag) ∧ exec (.take g a b) s = .next (retire s id ag)) ∧
      (n ≠ 0 → (if ag.unit < 192 then 128 else 256) < p + n →
        exec (.give g a b) s = .next (trapHere s id ag 0x05 (BitVec.ofNat 64 p)) ∧
        exec (.take g a b) s = .next (trapHere s id ag 0x05 (BitVec.ofNat 64 p))) ∧
      (p + n ≤ (if ag.unit < 192 then 128 else 256) → (∀ q, p ≤ q → q < p + n → ((s.unit ag.unit).plot q).engine = false) →
        s.releaseNow id ag 3 = true →
        ∃ t : State, exec (.give g a b) s = .next (retire t id ag) ∧ t.mem = s.mem ∧ t.agents = s.agents ∧
          (∀ u, u ≠ ag.unit → t.unit u = s.unit u) ∧
          ∀ q, (t.unit ag.unit).plot q = if p ≤ q ∧ q < p + n then { engine := true, bound := none } else (s.unit ag.unit).plot q) ∧
      (p + n ≤ (if ag.unit < 192 then 128 else 256) → ∀ q, p ≤ q → q < p + n → ((s.unit ag.unit).plot q).engine = true →
        (∀ m, p ≤ m → m < q → ((s.unit ag.unit).plot m).engine = false) →
        exec (.give g a b) s = .next (trapHere s id ag 0x06 (BitVec.ofNat 64 q))) ∧
      (p + n ≤ (if ag.unit < 192 then 128 else 256) → n ≠ 0 → ∀ ops, ag.wait = .take ops →
        (ops.any s.opOpen = true → exec (.take g a b) s = .next (waitFor s id ag (.take ops))) ∧
        (ops.any s.opOpen = false → exec (.take g a b) s = .next (retire (s.acquire ag 3) id ag))) ∧
      (p + n ≤ (if ag.unit < 192 then 128 else 256) → (∀ ops, ag.wait ≠ .take ops) → ∀ m q, p ≤ q → q < p + n →
        ((s.unit ag.unit).plot q).bound = some m → s.opOpen m = true →
        ∃ (t : State) (ops : List Nat), exec (.take g a b) s = .next (waitFor t id ag (.take ops)) ∧ m ∈ ops ∧
          t.mem = s.mem ∧ (t.unit ag.unit).plot q = (s.unit ag.unit).plot q) ∧
      (p + n ≤ (if ag.unit < 192 then 128 else 256) → (∀ ops, ag.wait ≠ .take ops) →
        (∀ q, p ≤ q → q < p + n → ((s.unit ag.unit).plot q).bound = none) →
        ∃ t : State, exec (.take g a b) s = .next (retire t id ag) ∧ t.mem = s.mem ∧ t.agents = s.agents ∧
          (∀ u, u ≠ ag.unit → t.unit u = s.unit u) ∧
          ∀ q, (t.unit ag.unit).plot q = if p ≤ q ∧ q < p + n then { engine := false, bound := none } else (s.unit ag.unit).plot q)) ∧
    (∀ (d h : BitVec 6) (x : Handle), x = ag.hGet h.toNat →
      (x.st = .pending → exec (.hwait g d h) s = .next (waitFor s id ag .again) ∧
        exec (.htest g d h) s = .next (retire s id (ag.sSet d.toNat 0)) ∧
        exec (.hcancel g h) s = .next (retire (s.cancelOp x.op) id ag)) ∧
      (x.st = .idle → exec (.hwait g d h) s = .next (retire s id (ag.pSet d.toNat 0xF000000000000000)) ∧
        exec (.htest g d h) s = .next (retire s id (ag.sSet d.toNat 0))) ∧
      (x.st ≠ .pending → exec (.hcancel g h) s = .next (retire s id ag)) ∧
      (x.st = .done → ∃ t : State, t.mem = s.mem ∧ t.units = s.units ∧ t.agents = s.agents ∧
        exec (.htest g d h) s = .next (retire t id (ag.sSet d.toNat 1)) ∧
        (x.status.toNat / 2 ^ 60 ≠ 6 → x.status.toNat / 2 ^ 60 ≠ 7 ∨ ag.rstat.getLsbD 30 = true →
          exec (.hwait g d h) s = .next (retire t id (ag.pSet d.toNat x.status))) ∧
        (x.status.toNat / 2 ^ 60 = 6 → ag.rstat.getLsbD 31 = false →
          exec (.hwait g d h) s = .next (retire t id ((ag.pSet d.toNat x.status).orStat rsRerr))) ∧
        (x.status.toNat / 2 ^ 60 = 6 → ag.rstat.getLsbD 31 = true →
          exec (.hwait g d h) s = .next (retire t id { (ag.pSet d.toNat x.status).orStat rsRerr with
            tcause := ag.tcause ||| 0x40000, remVal := 0 })) ∧
        (x.status.toNat / 2 ^ 60 = 7 → ag.rstat.getLsbD 30 = false →
          exec (.hwait g d h) s = .next (retireThenTrap t id (ag.pSet d.toNat x.status) 0x08 x.status)))) ∧
    (∀ (d h : BitVec 6) (b : Src), ag.profile = .wave →
      ((ag.src b).toNat = ag.gw.toNat → (ag.hGet d.toNat).st ≠ .pending → d ≠ h →
        exec (.hpass g d h b) s = .next (retire s id ((ag.hSet h.toNat {}).hSet d.toNat (ag.hGet h.toNat)))) ∧
      ((ag.src b).toNat = ag.gw.toNat → exec (.hpass g h h b) s = .next (retire s id ag)) ∧
      (∀ ti t, (ag.src b).toNat ≠ ag.gw.toNat → s.waveOf ag.unit (ag.src b).toNat = some (ti, t) →
        (t.hGet d.toNat).st ≠ .pending →
        exec (.hpass g d h b) s =
          .next (retire (s.putAgent ti (t.hSet d.toNat (ag.hGet h.toNat))) id (ag.hSet h.toNat {}))) ∧
      ((ag.src b).toNat ≠ ag.gw.toNat → s.waveOf ag.unit (ag.src b).toNat = none →
        exec (.hpass g d h b) s = .next (trapHere s id ag 0x05 (BitVec.ofNat 64 (ag.src b).toNat))))

/-- CPY queues a copy that its block describes; its start, a chunk and its completion. [R65, R69, R70, R71, R72, R73, R74,
R144]
CPY of a well-formed block whose own-scratchpad plots stand free on the engine side, with room in the queue and its
release ready, binds the plots, makes the handle pending and queues the copy; a malformed block completes the handle
with code 3; a misaligned or outside block is the address trap. The oldest queued copy of an engine starts while fewer
than 8 run. A chunk of bytes from own scratchpad to own scratchpad, both ends one contiguous line in plots bound to
the copy, moves those bytes (that it is one step with the whole piece of the line is the model's choice, log 58). A
copy whose elements are all written, or which has ended with a code, completes: its handle is done with the code in
bits 63:60 and the count of elements in bits 39:0, and its plots and the peer plots it touched return to the unit
side, those that the peer had bound among them by the model's choice (log 121). -/
def Obligations.Copies : Prop :=
  (∀ (s : State) (id : Nat) (ag : Agent) (g : BitVec 2) (d : BitVec 6) (a : Src) (p : Nat),
    s.mover = some (id, ag) → ag.profile ≠ .host → ag.Issues g → p = (ag.src a).toNat →
    (p % 32 ≠ 0 ∨ spadSize ag.unit < p + 160 → exec (.cpy g d a) s = .next (trapHere s id ag 0x05 (BitVec.ofNat 64 p))) ∧
    (p % 32 = 0 → p + 160 ≤ spadSize ag.unit → s.enginePlot ag.unit p 160 = none → ag.barred = false →
      (ag.hGet d.toNat).st ≠ .pending →
      (parseCopy ag.unit (s.spadRead ag.unit p 160) = none →
        exec (.cpy g d a) s = .next (retire s id (ag.hSet d.toNat { st := .done, status := 0x3000000000000000 }))) ∧
      (∀ c, parseCopy ag.unit (s.spadRead ag.unit p 160) = some c →
        (∀ q ∈ c.plots, ((s.unit ag.unit).plot q).engine = true ∧ ((s.unit ag.unit).plot q).bound = none) →
        s.copyQueue (if ag.unit < 192 then ag.unit / 4 else 64 + ag.unit) < 32 →
        s.releaseReady id ag 3 (ag.nextTag + 1) = true →
        ∃ (t : State) (x : Copy), exec (.cpy g d a) s =
            .next (retire t id (ag.hSet d.toNat { st := .pending, op := s.fab.nextOp })) ∧ t.mem = s.mem ∧
          Tab.find? t.fab.copies s.fab.nextOp = some x ∧ t.fab.nextOp = s.fab.nextOp + 1 ∧
          x.agent = id ∧ x.hnd = d.toNat ∧ x.part = ag.part ∧ x.running = false ∧ x.moved = 0 ∧
          x.src = c.src ∧ x.dst = c.dst ∧ x.ext = c.ext ∧ x.sstr = c.sstr ∧ x.dstr = c.dstr ∧
          (∀ q ∈ c.plots, (t.unit ag.unit).plot q = { engine := true, bound := some s.fab.nextOp })))) ∧
  (∀ (s : State) (n : Nat) (c : Copy), Tab.find? s.fab.copies n = some c →
    (c.running = false → s.nextCopy c.engine = some n →
      (s.fab.copies.filter (fun (x : Nat × Copy) => x.2.engine == c.engine && x.2.running)).length < 8 →
      exec (.copyStart n) s = .next { s with fab := { s.fab with
        copies := Tab.put s.fab.copies n { c with running := true } } }) ∧
    (∀ (m : Nat) (o : Nat), c.running = true → c.cancel = false → c.code = none → c.skind = 2 → c.dkind = 2 →
      c.sfmt = c.dfmt → fmtOf c.sfmt = .int8 → c.ndim = 1 → c.sstr = 1 :: List.replicate 9 0 → c.dstr = 1 :: List.replicate 9 0 →
      c.ext = m :: List.replicate 9 1 → c.moved = 0 → 1 ≤ m → m ≤ 64 → c.dst.toNat % 64 + m ≤ 64 →
      c.dst.toNat < spadSize c.unit_ → c.src.toNat + m ≤ spadSize c.unit_ → c.dst.toNat + m ≤ c.src.toNat →
      s.copyLogged n = false →
      (∀ e, (c.dst.toNat ≤ e ∧ e < c.dst.toNat + m ∨ c.src.toNat ≤ e ∧ e < c.src.toNat + m) →
        (s.unit c.unit_).plot (e / plotSize c.unit_) = { engine := true, bound := some n }) →
      ∃ (t : State) (x : Copy), exec (.copyChunk n .clean) s = .next t ∧ Tab.find? t.fab.copies n = some x ∧
        x.moved = m ∧ x.code = none ∧ (o < m →
          t.homeByte (spadBase c.unit_ + c.dst.toNat + o) = s.homeByte (spadBase c.unit_ + c.src.toNat + o)) ∧
        (∀ q, q < spadBase c.unit_ + c.dst.toNat ∨ spadBase c.unit_ + c.dst.toNat + m ≤ q →
          t.homeByte q = s.homeByte q)) ∧
    (∀ k : Nat, c.running = true → s.copyLogged n = false →
      (c.code = some k ∨ c.code = none ∧ c.cancel = false ∧ c.merr = false ∧ c.ext.foldl (· * ·) 1 ≤ c.moved ∧ k = 0) →
      ∃ t : State, exec (.copyCompletion n) s = .next t ∧ Tab.find? t.fab.copies n = none ∧ t.mem = s.mem ∧
        (∀ i x h e, s.agent? i = some x → Tab.find? x.h h = some e → e.st = .pending → e.op = n →
          ∃ y, t.agent? i = some y ∧ Tab.find? y.h h = some
            { st := .done, status := BitVec.ofNat 64 (k * 2 ^ 60 + c.moved % 2 ^ 40) }) ∧
        (∀ u q, Tab.sorted (s.unit u).plots = true → ((s.unit u).plot q).bound = some n → (t.unit u).plot q = { engine := false, bound := none }) ∧
        (∀ p ∈ c.touched, p / 256 < savedBase → Tab.sorted (s.unit (p / 256)).plots = true →
          (t.unit (p / 256)).plot (p % 256) = { engine := false, bound := none })))

/-- SPAWN, STEAL, TDONE, REMQ, PWRGET and PWRREL. [R311, R312, R315, R320, R323, R324, R325, R326, R327]
SPAWN with destination 0 in a task group appends the record of its 32 bytes to the own deque while it holds fewer than
64 and writes 0; with destination 2 it arms a free dependency entry. A record of another launch kind, or destination
3, gives 4 and adds nothing. STEAL moves the head record of another CU's task group of the launch to the tail of the
own deque: 0; 1 for an empty deque, 2 for no such group, asked in the order 2, 1, 3, which is the model's choice (log
56). TDONE takes its count from an armed entry: 0 while inputs remain, 1 and the entry is freed when it fires, 2
otherwise. REMQ puts its block behind those of the quadrant and waits; it writes the status once that is decided, 2
for no such quadrant, 3 for a malformed block. PWRGET grants at most what is asked, what is free, and 4095; PWRREL
gives back at most what the group holds. -/
def Obligations.TaskInstructions : Prop :=
  (∀ (s : State) (id : Nat) (ag : Agent) (g : BitVec 2) (d : BitVec 6) (a : Src) (b : BitVec 6) (p : Nat) (c : Word) (l : Launch),
    s.mover = some (id, ag) → ag.profile = .wave → ag.fires g = true → p = (ag.src a).toNat → c = ag.sGet b.toNat →
    p % 32 = 0 → p + 64 ≤ spadSize ag.unit → s.enginePlot ag.unit p 64 = none → s.enginePlot ag.unit p 32 = none →
    s.releaseNow id ag 3 = true → s.launch? ag.launch = some l →
    (c.toNat / 2 ^ 30 = 0 → l.kind = 2 → (s.unit ag.unit).deque.length < 64 →
      ∃ (t : State) (r : TaskRec), exec (.spawn g d a b) s = .next (retire t id (ag.sSet d.toNat 0)) ∧ t.mem = s.mem ∧
        (t.unit ag.unit).deque = (s.unit ag.unit).deque ++ [r] ∧
        r.entry.toNat = leVal (s.spadRead ag.unit p 8) ∧ r.args.length = 6 ∧
        ∀ i, i < 6 → (r.args.getD i 0).toNat = leVal (s.spadRead ag.unit (p + 8 + 4 * i) 4)) ∧
    (c.toNat / 2 ^ 30 = 0 ∧ l.kind ≠ 2 ∨ c.toNat / 2 ^ 30 = 3 →
      exec (.spawn g d a b) s = .next (retire s id (ag.sSet d.toNat 4))) ∧
    (∀ e n, c.toNat / 2 ^ 30 = 2 → s.depIndex ag.part (c.toNat % 2 ^ 16) = some e → Tab.find? s.hub.deps e = none →
      n = (ag.sGet (b.toNat + 1)).toNat → 1 ≤ n → n < 65536 →
      ∃ (t : State) (x : DepEnt), exec (.spawn g d a b) s = .next (retire t id (ag.sSet d.toNat 0)) ∧ t.mem = s.mem ∧
        Tab.find? t.hub.deps e = some x ∧ x.part = ag.part ∧ x.launch = ag.launch ∧ x.count = n ∧
        x.task.entry.toNat = leVal (s.spadRead ag.unit p 8))) ∧
  (∀ (s : State) (id : Nat) (ag : Agent) (g : BitVec 2) (d : BitVec 6) (b : Src) (v : Nat),
    s.mover = some (id, ag) → ag.profile = .wave → ag.fires g = true → (∀ o, ag.wait ≠ .steal o) → v = (ag.src b).toNat →
    v < 192 → v ≠ ag.unit →
    (s.taskGroup v ag.launch = false → exec (.steal g d b) s = .next (retire s id (ag.sSet d.toNat 2))) ∧
    (s.taskGroup v ag.launch = true → (s.unit v).deque = [] → exec (.steal g d b) s = .next (retire s id (ag.sSet d.toNat 1))) ∧
    (∀ r rest, s.taskGroup v ag.launch = true → (s.unit v).deque = r :: rest → (s.unit ag.unit).deque.length < 64 →
      ∃ t : State, exec (.steal g d b) s = .next (retire t id (ag.sSet d.toNat 0)) ∧ t.mem = s.mem ∧
        (t.unit v).deque = rest ∧ (t.unit ag.unit).deque = (s.unit ag.unit).deque ++ [r])) ∧
  (∀ (s : State) (id : Nat) (ag : Agent) (g : BitVec 2) (d : BitVec 6) (a b : Src) (e : Nat) (x : DepEnt) (n : Nat),
    s.mover = some (id, ag) → ag.profile = .wave → ag.fires g = true → s.releaseNow id ag 3 = true → n = (ag.src b).toNat →
    s.depIndex ag.part (ag.src a).toNat = some e →
    (Tab.find? s.hub.deps e = none → exec (.tdone g d a b) s = .next (retire s id (ag.sSet d.toNat 2))) ∧
    (Tab.find? s.hub.deps e = some x → n = 0 ∨ x.count < n →
      exec (.tdone g d a b) s = .next (retire s id (ag.sSet d.toNat 2))) ∧
    (Tab.find? s.hub.deps e = some x → 1 ≤ n → n < x.count →
      exec (.tdone g d a b) s = .next (retire { s with hub := { s.hub with
        deps := Tab.put s.hub.deps e { x with count := x.count - n } } } id (ag.sSet d.toNat 0))) ∧
    (Tab.find? s.hub.deps e = some x → 1 ≤ n → x.count = n →
      ∃ t : State, exec (.tdone g d a b) s = .next (retire t id (ag.sSet d.toNat 1)) ∧ Tab.find? t.hub.deps e = none)) ∧
  (∀ (s : State) (id : Nat) (ag : Agent) (g : BitVec 2) (d : BitVec 6) (a b : Src) (n : Nat),
    s.mover = some (id, ag) → ag.profile ≠ .host → ag.Issues g →
    n = min (min (ag.src a).toNat 4095) (Tab.get 0 s.rot.pwrPool ag.part - Tab.get 0 s.rot.pwrHeld ag.part) →
    (∃ t : State, exec (.pwrget g d a) s = .next (retire t id (ag.sSet d.toNat (BitVec.ofNat 32 n))) ∧ t.mem = s.mem ∧
      Tab.get 0 t.rot.pwrHeld ag.part = Tab.get 0 s.rot.pwrHeld ag.part + n ∧
      (t.unit ag.unit).tokens = (s.unit ag.unit).tokens + n) ∧
    (∃ t : State, exec (.pwrrel g a) s = .next (retire t id ag) ∧ t.mem = s.mem ∧
      (t.unit ag.unit).tokens = (s.unit ag.unit).tokens - (ag.src a).toNat ∧
      Tab.get 0 t.rot.pwrHeld ag.part =
        Tab.get 0 s.rot.pwrHeld ag.part - min (ag.src a).toNat (s.unit ag.unit).tokens) ∧
    (ag.profile = .sequencer →
      (∀ st, ag.wait = .remq (some st) → exec (.remq 0 d a b) s = .next (retire s id (ag.sSet d.toNat st))) ∧
      (∀ cs q, (∀ o, ag.wait ≠ .remq o) → (ag.src a).toNat % 64 = 0 → (ag.src a).toNat + 544 ≤ spadSize ag.unit →
        (∀ m, s.enginePlot ag.unit (ag.src a).toNat m = none ∧ s.enginePlot ag.unit ((ag.src a).toNat + 32) m = none) →
        q = (ag.src b).toNat → s.remqRefused ag q = false → (s.quad q).inq.length < 4 → s.releaseNow id ag 3 = true →
        parseBlock (s.spadRead ag.unit (ag.src a).toNat 32) (s.spadRead ag.unit ((ag.src a).toNat + 32)
          (32 * min 16 (leVal ((s.spadRead ag.unit (ag.src a).toNat 32).take 4)))) = some cs →
        ∃ t : State, exec (.remq 0 d a b) s = .next (waitFor t id ag (.remq none)) ∧
          (t.quad q).inq = (s.quad q).inq ++ [{ agent := id, cmds := cs }]) ∧
      (∀ q, (∀ o, ag.wait ≠ .remq o) → (ag.src a).toNat % 64 = 0 → (ag.src a).toNat + 544 ≤ spadSize ag.unit →
        (∀ m, s.enginePlot ag.unit (ag.src a).toNat m = none ∧ s.enginePlot ag.unit ((ag.src a).toNat + 32) m = none) →
        q = (ag.src b).toNat → s.remqRefused ag q = false → (s.quad q).inq.length < 4 → s.releaseNow id ag 3 = true →
        parseBlock (s.spadRead ag.unit (ag.src a).toNat 32) (s.spadRead ag.unit ((ag.src a).toNat + 32)
          (32 * min 16 (leVal ((s.spadRead ag.unit (ag.src a).toNat 32).take 4)))) = none →
        exec (.remq 0 d a b) s = .next (retire s id (ag.sSet d.toNat 3))) ∧
      (∀ q, (∀ o, ag.wait ≠ .remq o) → (ag.src a).toNat % 64 = 0 → (ag.src a).toNat + 544 ≤ spadSize ag.unit →
        (∀ m, s.enginePlot ag.unit (ag.src a).toNat m = none ∧ s.enginePlot ag.unit ((ag.src a).toNat + 32) m = none) →
        q = (ag.src b).toNat → 31 < q → exec (.remq 0 d a b) s = .next (retire s id (ag.sSet d.toNat 2)))))

/-- WSIG, ALLRED, WINCFG and NTIME. [R244, R246, R247, R255, R258, R259, R260, R261]
NTIME with pair 0, or with a deadline that has come, writes the time, at most 2 ns above the package's, a lead the
model leaves free (log 9), and no earlier than the agent has read; it waits for a later one. WINCFG with bit 63 clear
clears the window and writes 1; a malformed word gives 5; a peer that has room binds: 0, with the word in the window;
another package without a path to it gives 2, one whose partition is not paired with this one 2 or 3, and else the
status is a free value (log 25). ALLRED at level 0 copies its elements from s[A] to s[D]; in a domain it ends with the
folded result, or with zeros and rerr. WSIG with its addresses in one window that has units free sends its payload and
then its flag, which carries the sent counts of before, and its handle is pending; how it waits for its window is the
model's choice (log 27); a malformed control word completes it with code 3. -/
def Obligations.FabricInstructions : Prop :=
  (∀ (s : State) (id : Nat) (ag : Agent) (g : BitVec 2) (d : BitVec 6) (a b : Src),
    s.mover = some (id, ag) → ag.Issues g → s.ntime.toNat + 2 < 2 ^ 64 →
    ((a = .reg 0 ∨ (ag.srcP a).toNat ≤ max s.ntime.toNat ag.lastT.toNat) → ∃ (k : Nat) (v : DWord), k ≤ 2 ∧
      v.toNat = max (s.ntime.toNat + k) ag.lastT.toNat ∧
      exec (.ntime g d a) s = .next (retire s id (({ ag with lastT := v } : Agent).pSet d.toNat v))) ∧
    (a ≠ .reg 0 → s.ntime.toNat + 2 < (ag.srcP a).toNat → ag.lastT.toNat < (ag.srcP a).toNat →
      exec (.ntime g d a) s = .next (waitFor s id ag (.ntime (ag.srcP a)))) ∧
    (ag.profile ≠ .host → ∀ (w : Nat) (cfg : DWord), w = (ag.src b).toNat → w < 16 → cfg = ag.srcP a →
      s.winTraffic ag.unit w = false →
      let s0 : State := match ((s.unit ag.unit).win w).bind with
        | some n => { s with fab := { s.fab with binds := Tab.erase s.fab.binds n } }
        | none => s
      let off : Word → Prop := fun st => ∃ t : State, exec (.wincfg g d a b) s = .next (retire t id (ag.sSet d.toNat st)) ∧
        t.mem = s.mem ∧ (t.unit ag.unit).win w = {}
      (cfg.getLsbD 63 = false → off 1) ∧
      (cfg.getLsbD 63 = true → cfg.toNat / 2 ^ 58 % 16 = 0 ∨ 14 ≤ cfg.toNat / 2 ^ 54 % 16 ∨ cfg.toNat / 2 ^ 46 % 256 = 0 →
        off 5) ∧
      (cfg.getLsbD 63 = true → winBad cfg = false → cfg.toNat / 2 ^ 37 % 512 = s.plat.pkg.toNat →
        let sets := if ag.profile = .wave then (s.unit ag.unit).waves else 1
        (∀ st, s0.bindAnswer ag.part (cfg.toNat / 2 ^ 33 % 16) (cfg.toNat / 2 ^ 25 % 256) sets = .error st →
          off (BitVec.ofNat 32 st)) ∧
        (∀ u m, s0.bindAnswer ag.part (cfg.toNat / 2 ^ 33 % 16) (cfg.toNat / 2 ^ 25 % 256) sets = .ok (u, m) →
          ∃ t : State, exec (.wincfg g d a b) s = .next (retire t id (ag.sSet d.toNat 0)) ∧ t.mem = s.mem ∧
            ((t.unit ag.unit).win w).cfg = cfg ∧ ((t.unit ag.unit).win w).used = 0 ∧
            ((t.unit ag.unit).win w).bind = some s.fab.nextOp ∧
            Tab.find? t.fab.binds s.fab.nextOp = some
              { srcUnit := ag.unit, dstPkg := s.plat.pkg.toNat, dstUnit := u, mem := m, seg := cfg.toNat % 32,
                sets := sets })) ∧
      (cfg.getLsbD 63 = true → winBad cfg = false → cfg.toNat / 2 ^ 37 % 512 ≠ s.plat.pkg.toNat →
        (peerUnit (cfg.toNat / 2 ^ 33 % 16) (cfg.toNat / 2 ^ 25 % 256) = none ∨ s.noRoute = true → off 2) ∧
        (∃ (t : State) (st : Nat), exec (.wincfg g d a b) s = .next (retire t id (ag.sSet d.toNat (BitVec.ofNat 32 st))) ∧
          t.mem = s.mem ∧ st ∈ [0, 2, 3, 4, 6] ∧
          (s.plat.pairs.contains (ag.part, cfg.toNat / 2 ^ 37 % 512) = false → st = 2 ∨ st = 3) ∧
          (t.unit ag.unit).win w = if st = 0 then { cfg := cfg, bind := some s.fab.nextOp } else {}))) ∧
    (ag.profile ≠ .host → 15 < (ag.src b).toNat → exec (.wincfg g d a b) s =
      .next (trapHere s id ag 0x05 (BitVec.ofNat 64 (ag.src b).toNat)))) ∧
  (∀ (s : State) (id : Nat) (ag : Agent) (g : BitVec 2) (d : BitVec 6) (a b : Src) (pa pd op cnt size : Nat),
    s.mover = some (id, ag) → ag.profile ≠ .host → ag.Issues g → pa = (ag.src a).toNat → pd = (ag.sGet d.toNat).toNat →
    (ag.src b).toNat = op + 256 * cnt → op < 10 → 1 ≤ cnt → cnt ≤ (if op = 1 then 8 else 16) → size = (if op = 1 then 8 else 4) →
    (ag.dmem.toNat / 2 ^ 29 = 0 → (∀ n, ag.wait ≠ .allred n) → (∀ c, ag.wait ≠ .contrib c) → ag.barred = false → s.releaseNow id ag 0 = true →
      pa % size = 0 → pd % size = 0 → pa + size * cnt ≤ spadSize ag.unit → pd + size * cnt ≤ spadSize ag.unit →
      s.enginePlot ag.unit pa (size * cnt) = none → s.enginePlot ag.unit pd (size * cnt) = none →
      ∃ t : State, exec (.allred g d a b) s = .next (retire t id ag) ∧
        t.spadRead ag.unit pd (size * cnt) = s.spadRead ag.unit pa (size * cnt) ∧
        (∀ q, q < spadBase ag.unit + pd ∨ spadBase ag.unit + pd + size * cnt ≤ q → t.homeByte q = s.homeByte q)) ∧
    (∀ n k r xs, ag.wait = .allred n → s.redn ag true n = some (k, r) → r.result = some (true, xs) → xs.length = cnt →
      ∃ t : State, exec (.allred g d a b) s = .next (retire t id ag) ∧
        t.spadRead ag.unit pd (size * cnt) = xs.flatMap (fun x => leBytes size x.toNat)) ∧
    (∀ n k r xs, ag.wait = .allred n → s.redn ag true n = some (k, r) → r.result = some (false, xs) →
      ∃ t : State, exec (.allred g d a b) s = .next (retire t id (ag.orStat rsRerr)) ∧
        t.spadRead ag.unit pd (size * cnt) = List.replicate (size * cnt) 0) ∧
    (∀ n k r, ag.wait = .allred n → s.redn ag true n = some (k, r) → r.result = none →
      exec (.allred g d a b) s = .next (waitFor s id ag (.allred n)))) ∧
  (∀ (s : State) (id : Nat) (ag : Agent) (g : BitVec 2) (d : BitVec 6) (a : Src) (b : BitVec 6) (w po fo src len op : Nat)
      (ctl : Word) (win : Window),
    s.mover = some (id, ag) → ag.profile ≠ .host → ag.Issues g → (∀ k, ag.wait ≠ .winStore k) →
    (ag.hGet d.toNat).st ≠ .pending → ctl = ag.sGet (b.toNat + 3) → op = s.fab.nextOp →
    (ctl.toNat % 32 > 16 ∨ ctl &&& 0xFFFFFEE0 ≠ 0 →
      exec (.wsig g d a b) s = .next (retire s id (ag.hSet d.toNat { st := .done, status := 0x3000000000000000 }))) ∧
    (ctl &&& 0xFFFFFEE0 = 0 → len = ctl.toNat % 32 → len ≤ 16 → w < 16 → po % 4 = 0 → fo % 4 = 0 → po + max 1 (4 * len) ≤ 2 ^ 19 →
      fo + 4 ≤ 2 ^ 19 → (ag.sGet b.toNat).toNat = 0x1000000 + w * 2 ^ 19 + po →
      (ag.sGet (b.toNat + 1)).toNat = 0x1000000 + w * 2 ^ 19 + fo → (len ≠ 0 → po / 64 = (po + 4 * len - 1) / 64) →
      src = (ag.src a).toNat → src % 4 = 0 → src + 4 * len ≤ spadSize ag.unit → s.enginePlot ag.unit src (4 * len) = none →
      win = (s.unit ag.unit).win w → win.cfg.getLsbD 63 = true → win.queue = [] → win.used + 2 ≤ win.cfg.toNat / 2 ^ 46 % 256 →
      s.winBusy id ag.unit w ((List.range (4 * len)).map (po + ·)) = false →
      s.winBusy id ag.unit w ((List.range 4).map (fo + ·)) = false → po + 4 * len ≤ fo ∨ fo + 4 ≤ po →
      s.releaseNow id ag 4 = true →
      ∃ t : State, exec (.wsig g d a b) s = .next (retire t id (ag.hSet d.toNat { st := .pending, op := op })) ∧
        t.mem = s.mem ∧ ((t.unit ag.unit).win w).used = win.used + (if len = 0 then 1 else 2) ∧
        (∃ e carry, Tab.find? t.fab.posted (op + (if len = 0 then 1 else 2)) = some e ∧ e.off = fo ∧ e.win = w ∧
          e.kind = .flag ((ag.sGet (b.toNat + 2)).zeroExtend 64) 4 (ctl.getLsbD 8) carry ∧ carry.length = 4) ∧
        (len ≠ 0 → ∃ e, Tab.find? t.fab.posted (op + 1) = some e ∧ e.off = po ∧ e.win = w ∧ e.kind = .data ∧
          e.bytes = (List.range (4 * len)).map (fun i => (po + i, s.homeByte (spadBase ag.unit + src + i))))))

/-- Window traffic, responses, inbound accesses, reductions, the time, the links and the circuits. [R76, R143, R228, R229,
R245, R246, R250, R251, R252, R253, R254, R356]
A posted data write lands its bytes at the peer and counts an arrival (counting, flags too, as logs 48 and 49 read
it), or the peer is told that it did not; to another package it leaves as a flit on its path's link, in the other
direction or by the other station where that is gone. A flag does so once its carried counts are reached, and writes
or adds its word. An acknowledgement in time returns the unit of the allowance; a late one or a timeout gives the
source rerr, and one sent before its die's reset is dropped. A response in time delivers its data; an error, a missing
route or a timeout zeros with rerr. An inbound load is answered, zeros for a dropped line, an inbound store written; a
refused one is answered with an error. A fold is left to right in contributor order. Time moves forward at most 12 ns,
every 125 us (log 83). Acknowledged flits leave, named ones are sent again, 16 times at most, a lane failure narrows
and fences its link, whose numbers and widths are log 30's, and a circuit goes through its four states; a write to one
that is up leaves it up (log 120). -/
def Obligations.FabricEvents : Prop :=
  (∀ (s : State) (n : Nat) (e : Posted) (b : Binding) (u o : Nat), Tab.find? s.fab.posted n = some e → e.delivered = false →
    Tab.find? s.fab.binds e.bind = some b →
    (b.dstPkg ≠ s.plat.pkg.toNat → exec (.windowDeliver n) s =
      .next ((s.sendFlit e.path).putPosted n { e with delivered := true, ok := !s.noRoute }) ∧
      let sent : Nat → Prop := fun l =>
        ((s.sendFlit e.path).link l).unacked = (s.link l).unacked ++ [((s.link l).seq, 0)]
      (s.stationUp e.path = true → (s.link e.path).down = false → sent e.path) ∧
      (s.stationUp e.path = true → (s.link e.path).down = true → (s.link (e.path ^^^ 1)).down = false → sent (e.path ^^^ 1)) ∧
      (s.stationUp e.path = false → s.stationUp (e.path ^^^ 2) = true → (s.link (e.path ^^^ 2)).down = false →
        sent (e.path ^^^ 2))) ∧
    (b.dstPkg = s.plat.pkg.toNat →
    let counted : State → Prop := fun t => Tab.find? t.fab.posted n =
        some { e with delivered := true, by_ := some (unitDie u, (s.die (unitDie u)).inc) } ∧
      ∃ x, Tab.find? t.fab.binds e.bind = some x ∧ Tab.get 0 x.arr (4 * e.src + e.path) =
        (Tab.get 0 b.arr (4 * e.src + e.path) + 1) % 65536 ∧
        ∀ k, k ≠ 4 * e.src + e.path → Tab.get 0 x.arr k = Tab.get 0 b.arr k
    (e.kind = .data → s.landing b e.off e.len (e.bytes.map (fun x => x.1)) = some (u, o) →
      (e.bytes.map (fun x => x.1)).Nodup → (∀ x ∈ e.bytes, e.off ≤ x.1) →
      ∃ t : State, exec (.windowDeliver n) s = .next t ∧ counted t ∧
        (∀ x ∈ e.bytes, t.homeByte (spadBase u + o + (x.1 - e.off)) = x.2) ∧
        ∀ q, (∀ x ∈ e.bytes, q ≠ spadBase u + o + (x.1 - e.off)) → t.homeByte q = s.homeByte q) ∧
    (∀ v m add carry, e.kind = .flag v m add carry →
      ((∃ p, p < 4 ∧ 32768 ≤ (Tab.get 0 b.arr (4 * e.src + p) + 65536 - carry.getD p 0) % 65536) →
        exec (.windowDeliver n) s = .next s) ∧
      ((∀ p, p < 4 → (Tab.get 0 b.arr (4 * e.src + p) + 65536 - carry.getD p 0) % 65536 < 32768) → m ≤ 8 →
        s.landing b e.off e.len (List.range' e.off m) = some (u, o) →
        ∃ t : State, exec (.windowDeliver n) s = .next t ∧ counted t ∧
          t.spadRead u o m = leBytes m (if add then s.spWord u o m + v else v).toNat ∧
          ∀ q, q < spadBase u + o ∨ spadBase u + o + m ≤ q → t.homeByte q = s.homeByte q)) ∧
    (e.kind = .data → s.landing b e.off e.len (e.bytes.map (fun x => x.1)) = none →
      ∃ t : State, exec (.windowDeliver n) s = .next t ∧ Tab.find? t.fab.posted n = some { e with delivered := true, ok := false } ∧
        ∃ k, t.plat.hostQ = s.plat.hostQ ++ [.record k, .inbound]))) ∧
  (∀ (s : State) (n : Nat) (e : Posted), Tab.find? s.fab.posted n = some e → e.acked = false → e.wsig = none →
    e.unit_ < 2 ^ 20 → e.lostRsp = false →
    let late := s.past e.born (winTmo ((s.groupOf e.unit_).win e.win).cfg)
    (∀ d k ok, e.delivered = true → e.by_ = some (d, k) → (s.die d).inc ≠ k → exec (.windowAck n ok) s =
      .next { s with
        fab := { s.fab with posted := Tab.put s.fab.posted n { e with lostRsp := true } }
        rot := { s.rot with incDrop := s.rot.incDrop + 1 } }) ∧
    (∀ ag ok, e.delivered = true → e.by_ = none → late = true → s.agent? e.agent = some ag →
      ∃ t : State, exec (.windowAck n ok) s = .next t ∧ Tab.find? t.fab.posted n = none ∧
        t.agent? e.agent = some { ag with rstat := ag.rstat ||| rsRerr, unrep := true }) ∧
    (e.delivered = true → e.ok = true → late = false → (∀ d k, e.by_ = some (d, k) → (s.die d).inc = k) →
      (∃ b, Tab.find? s.fab.binds e.bind = some b ∧ b.dstPkg = s.plat.pkg.toNat) →
      ∃ t : State, exec (.windowAck n true) s = .next t ∧ Tab.find? t.fab.posted n = none ∧ t.mem = s.mem ∧ t.agents = s.agents ∧
        ((t.unit e.unit_).win e.win).used = ((s.unit e.unit_).win e.win).used - 1) ∧
    (late = false → exec (.windowTimeout n) s = .next s) ∧
    (∀ ag, s.agent? e.agent = some ag → late = true →
      ∃ t : State, exec (.windowTimeout n) s = .next t ∧ Tab.find? t.fab.posted n = some { e with acked := true } ∧
        ((t.unit e.unit_).win e.win).used = ((s.unit e.unit_).win e.win).used - 1 ∧
        t.agent? e.agent = some { ag with rstat := ag.rstat ||| rsRerr, unrep := true }) ∧
    (e.delivered = false → exec (.requestReissue n) s =
      .next { s with rot := { s.rot with ringReiss := s.rot.ringReiss + 1 } })) ∧
  (∀ (s : State) (id : Nat) (ag : Agent), s.agent? id = some ag →
    (∃ e ∈ ag.opens, (∃ p va, e.loc = .remote p va) ∨ ∃ w o, e.loc = .win w o) →
    exec (.requestReissue id) s = .next { s with rot := { s.rot with ringReiss := s.rot.ringReiss + 1 } }) ∧
  (∀ (s : State) (id n p : Nat) (ag : Agent) (e : Access) (va x : DWord) (ln : List Byte), s.agent? id = some ag → ag.opens[n]? = some e →
    ag.mayPerform n e = true → e.kind = .load → e.acq = false → e.loc = .remote p va → ag.wait = .none →
    let failed := s.putAgent id (((ag.closed n).deliver e.dst e.sx 0).orStat rsRerr)
    (s.overdue ag e = false → s.noRoute = false → ag.pend = [] → e.size ≤ 8 → x.toNat < 2 ^ (8 * e.size) →
      (∀ m o, ag.opens[m]? = some o → m ≠ n → o.sameAs e = false) →
      exec (.remoteResponse id n { data := x, err := false, applied := false, line := ln }) s =
        .next (s.putAgent id ((ag.closed n).deliver e.dst e.sx x))) ∧
    ((∀ m o, ag.opens[m]? = some o → m ≠ n → o.sameAs e = false) →
    (s.overdue ag e = false → ag.rstat.getLsbD 31 = false →
      exec (.remoteResponse id n { data := x, err := true, applied := false, line := ln }) s = .next failed ∧
      (s.noRoute = true → exec (.remoteResponse id n { data := x, err := false, applied := false, line := ln }) s = .next failed) ∧
      exec (.requestTimeout id n) s = .next s) ∧
    (s.overdue ag e = true → exec (.remoteResponse id n { data := x, err := false, applied := false, line := ln }) s = .next s ∧
      (ag.rstat.getLsbD 31 = false → exec (.requestTimeout id n) s = .next failed)))) ∧
  (∀ (s : State) (part pa : Nat) (va : DWord) (slot : BitVec 8) (bs : List Byte) (m : Nat) (ecc : Ecc), 1 ≤ m →
    let w := s.noteWalk part (.flat va)
    let q := w.inboundRead part slot pa m ecc
    let refused : Inbound → Prop := fun r => ∃ t : State, exec (.inboundRemoteAccess r ecc) s = .next t ∧
      t.fab.out = s.fab.out ++ [{ data := 0, err := true, applied := false, line := [] }]
    let read := if q.2 then List.replicate m 0 else q.1.pkReadN slot pa m
    (s.inboundXlat part va m .read = some (pa, slot) → w.reachable part slot pa = true →
      ∃ t : State, exec (.inboundRemoteAccess (.flatLoad part va m) ecc) s = .next t ∧ t.mem = q.1.mem ∧
        t.fab.out = s.fab.out ++ [{ data := BitVec.ofNat 64 (leVal (read.take 8)), err := false, applied := false, line := read }]) ∧
    (bs.length = m → s.inboundXlat part va m .write = some (pa, slot) → w.reachable part slot pa = true →
      ∃ t : State, exec (.inboundRemoteAccess (.flatStore part va bs) ecc) s = .next t ∧
        t.mem = (w.arriveWrite none part 0 slot pa bs 0xFF).mem ∧
        t.fab.out = s.fab.out ++ [{ data := 0, err := false, applied := false, line := [] }]) ∧
    (s.inboundXlat part va m .read = none ∨ s.inboundXlat part va m .read = some (pa, slot) ∧ w.reachable part slot pa = false →
      refused (.flatLoad part va m)) ∧
    (bs.length = m → s.inboundXlat part va m .write = none ∨
      s.inboundXlat part va m .write = some (pa, slot) ∧ w.reachable part slot pa = false → refused (.flatStore part va bs))) ∧
  (∀ (s : State) (n : Nat) (r : Redn) (a b : Arrival), Tab.find? s.fab.redns n = some r → r.allred = true → r.result = none →
    r.members = 2 → r.arr = [b, a] → a.key < b.key → a.op = 0 → b.op = 0 → a.cnt = b.cnt → a.data.length = a.cnt →
    b.data.length = a.cnt → (∀ x ∈ a.data ++ b.data, x.toNat < 2 ^ 32) →
    ∃ xs : List DWord, exec (.reductionFold n) s = .next { s with fab := { s.fab with
        redns := Tab.put s.fab.redns n { r with result := some (true, xs) } } } ∧
      xs.length = a.cnt ∧ ∀ i, i < a.cnt → (xs.getD i 0).toNat = ((a.data.getD i 0).toNat + (b.data.getD i 0).toNat) % 2 ^ 32) ∧
  (∀ (s : State) (k : Nat),
    ((∀ t0, s.plat.syncAt = some t0 → t0.toNat + 125000 ≤ s.ntime.toNat) → exec (.timeSync k) s =
      .next { s with ntime := s.ntime + BitVec.ofNat 64 (min k 12), plat := { s.plat with syncAt := some s.ntime } }) ∧
    (∀ t0, s.plat.syncAt = some t0 → s.ntime.toNat < t0.toNat + 125000 → exec (.timeSync k) s = .next s)) ∧
  (∀ (s : State) (n w : Nat) (base : BitVec 8) (bm : BitVec 64) (l : RingLink), l = s.link n → l.down = false →
    ((∀ f ∈ l.unacked, f.2 < 16) → ∃ q : List (BitVec 8 × Nat), exec (.flitAck n base bm) s =
        .next (s.putLink n { l with unacked := q }) ∧
      ∀ x, x ∈ q ↔ ∃ f ∈ l.unacked, let i := (f.1.toNat + 256 - base.toNat) % 256
        (i < 64 ∧ bm.getLsbD i = true ∧ x = (f.1, f.2 + 1)) ∨ (64 ≤ i ∧ i < 128 ∧ x = f)) ∧
    ((∃ f ∈ l.unacked, (f.1.toNat + 256 - base.toNat) % 256 < 64 ∧ bm.getLsbD ((f.1.toNat + 256 - base.toNat) % 256) = true ∧
      16 ≤ f.2) → ∃ t : State, exec (.flitAck n base bm) s = .next t ∧ (t.link n).down = true) ∧
    (w = 8 ∨ w = 4 → w < l.width → exec (.linkWidthChange n w) s = .next (s.putLink n { l with width := w }) ∧
      ∃ t : State, exec (.laneFailure n w) s = .next t ∧
        t.link n = { l with width := w, unacked := l.unacked.map (fun f => (f.1, f.2 + 1)) } ∧
        t.rot.nFenced = s.rot.nFenced + 1 ∧ t.rot.degraded = true ∧ t.plat.hostQ = s.plat.hostQ ++ [.record 0x35]) ∧
    (0 < l.width → ∃ t : State, exec (.laneFailure n 0) s = .next t ∧ (t.link n).down = true)) ∧
  (∀ (s : State) (c : Nat) (v old : DWord), c < 256 → old = Tab.get 0 s.rot.circ c →
    let goes : Instr → Nat → Nat → Prop := fun i goal base => exec i s = .next { s with rot := { s.rot with
      circ := Tab.set 0 s.rot.circ c (BitVec.ofNat 64 (base + goal * 2 ^ 61)) } }
    (old.toNat / 2 ^ 61 % 4 = 0 ∨ old.toNat / 2 ^ 61 % 4 = 2 → s.circDies v = true →
      goes (.circWrite c v) (if v.getLsbD 63 then (if old.toNat / 2 ^ 61 % 4 = 2 then 2 else 1)
          else if old.toNat / 2 ^ 61 % 4 = 2 then 3 else 0)
        (v.toNat / 2 ^ 63 * 2 ^ 63 + v.toNat / 2 ^ 40 % 2 ^ 16 * 2 ^ 40)) ∧
    (old.toNat / 2 ^ 61 % 4 = 1 ∨ old.toNat / 2 ^ 61 % 4 = 3 ∨ s.circDies v = false →
      exec (.circWrite c v) s = .next { s with rot := { s.rot with circRej := s.rot.circRej + 1 } }) ∧
    (old.toNat / 2 ^ 61 % 4 = 1 → goes (.circuitUp c) 2 (old.toNat / 2 ^ 63 * 2 ^ 63 + old.toNat % 2 ^ 61)) ∧
    (old.toNat / 2 ^ 61 % 4 = 3 → goes (.circuitDown c) 0 (old.toNat / 2 ^ 63 * 2 ^ 63 + old.toNat % 2 ^ 61)))

/-- Walks, resolved and unresolvable faults, side-log replay, asynchronous traps, and the events that end waits. [R48,
R51, R57, R60, R62, R227, R239, R261, R345, R348, R352, R356]
A walk that succeeds may be kept, with the upper entries it read; one within npdist of its page's end, in the
direction of its stride, starts the walk for the neighbour, which enters the next-page register of its stream: the
stride is that of the last two accesses and no walk is tried again, as log 81 has it. A resolved fault with nothing
logged leaves the queue, with the others of its page, and the agents they held issue again (log 115); while entries
are logged they replay first, in order, behind their agent's barriers (log 104). An unresolvable one gives a held
agent the address trap with its address. An entry of an older incarnation is discarded and counted; one that its home
refuses is log 85's. At a boundary an agent takes first a store's address trap, then 0x22, 0x21, 0x20 as they are
pending, outside a handler. WAITW goes out of its slot, is made ready and re-reads; NTIME ends with its time, WFI
after 1 ms. -/
def Obligations.FaultsAndWaits : Prop :=
  (∀ (s : State) (part : Nat) (key : BitVec 64) (tile : Bool) (need : Perm) (k : VKey),
    k = (if tile then .tile (key.toNat % 2 ^ 20) (key.toNat / 2 ^ 20) 0 else .flat key) →
    let w := s.noteWalk part k
    let kept : State → List Xlat → Prop := fun t xs => t.mem = w.mem ∧ t.agents = w.agents ∧ t.ms.faults = w.ms.faults ∧
      t.ms.tlb = w.ms.tlb ++ xs ∧ ∀ u ∈ t.ms.upper, u ∈ w.ms.upper ∨ (u.part = part ∧ u.pte.toNat % 4 = 1 ∧
        u.at_ = key.toNat / 2 ^ (12 + 9 * u.level) ∧ tile = false)
    (∀ x, s.walkKey part k need = .ok x → ∃ t : State, exec (.pageWalk part key tile need) s = .next t ∧
      kept t (if x ∈ w.ms.tlb then [] else [x])) ∧
    (s.walkKey part k need = .notPresent → ∃ t : State, exec (.pageWalk part key tile need) s = .next t ∧ kept t []) ∧
    (s.walkKey part k need = .protect ∨ s.walkKey part k need = .bad → exec (.pageWalk part key tile need) s = .next w)) ∧
  (∀ (st : Stream) (npd : Nat) (k : VKey) (x : Xlat) (l : VKey) (d : Int),
    (st.enter npd k x).cur = some x ∧ (st.enter npd k x).last = some k ∧
    (st.cur ≠ some x → (st.enter npd k x).next = none) ∧ (st.cur = some x → (st.enter npd k x).next = st.next) ∧
    (npd = 0 → (st.enter npd k x).walk = if st.cur = some x then st.walk else none) ∧
    (st.cur = some x → st.last = some l → d = l.stepTo k x.size → npd ≠ 0 → d.natAbs ≤ x.size →
      (∀ y, st.next = some y → y.serves y.part (x.beside (decide (d < 0))) = false) →
      (0 < d → x.size ≤ k.offIn x + npd → st.tried ≠ some (x.beside false) → (st.enter npd k x).walk = some (x.beside false)) ∧
      (d < 0 → k.offIn x < npd → 0 < x.base → st.tried ≠ some (x.beside true) →
        (st.enter npd k x).walk = some (x.beside true)))) ∧
  (∀ (s : State) (part : Nat) (st : Stream) (w : VKey), st.walk = some w →
    (s.streamWalked part st).next = s.walkAny part w ∧ (s.streamWalked part st).walk = none ∧ (s.streamWalked part st).cur = st.cur) ∧
  (∀ (s w : State) (n : Nat),
    (∀ ag, w = s.noteStream (.agent n) → w.agent? n = some ag → exec (.nextPageWalk (.agent n)) s =
      .next (w.putAgent n { ag with strm := w.streamWalked ag.part ag.strm })) ∧
    (∀ c, Tab.find? w.fab.copies n = some c →
      (w = s.noteStream (.copySrc n) → ∃ t : State, exec (.nextPageWalk (.copySrc n)) s = .next t ∧ t.mem = w.mem ∧
        t.agents = w.agents ∧ Tab.find? t.fab.copies n = some { c with sgen := w.streamWalked c.part c.sgen }) ∧
      (w = s.noteStream (.copyDst n) → ∃ t : State, exec (.nextPageWalk (.copyDst n)) s = .next t ∧ t.mem = w.mem ∧
        t.agents = w.agents ∧ Tab.find? t.fab.copies n = some { c with dgen := w.streamWalked c.part c.dgen })) ∧
    (∀ y, Tab.find? w.quads n = some y →
      (w = s.noteStream (.quadLoad n) → ∃ t : State, exec (.nextPageWalk (.quadLoad n)) s = .next t ∧ t.mem = w.mem ∧
        t.agents = w.agents ∧ t.quad n = { y with loadS := w.streamWalked (w.unit (192 + n)).part y.loadS }) ∧
      (w = s.noteStream (.quadStore n) → ∃ t : State, exec (.nextPageWalk (.quadStore n)) s = .next t ∧ t.mem = w.mem ∧
        t.agents = w.agents ∧ t.quad n = { y with storeS := w.streamWalked (w.unit (192 + n)).part y.storeS }))) ∧
  (∀ (s : State) (n : Nat) (f : FaultRec), s.ms.faults[n]? = some f → f.resolved = false →
    (s.walkKey f.part f.key f.perm ≠ .notPresent →
      let w := s.noteWalk f.part f.key
      let fs := w.ms.faults.map (fun x => if w.sameFault x f.part f.key then { x with resolved := true } else x)
      let v : State := { w with ms := { w.ms with faults := fs } }
      (v.logged f.part f.key = false → ∃ t : State, exec (.faultResolve n) s = .next t ∧ t.mem = v.mem ∧
        t.ms.faults = fs.filter (fun x => !(v.sameFault x f.part f.key && x.resolved)) ∧
        ∀ id ag, v.agent? id = some ag → t.agent? id = some (match ag.wait with
          | .held _ => if id ∈ (fs.filter (fun x => v.sameFault x f.part f.key && x.resolved)).flatMap (fun x => x.waiters)
            then { ag with wait := .again } else ag
          | _ => ag)) ∧
      (v.logged f.part f.key = true → exec (.faultResolve n) s = .next v)) ∧
    (∀ id ag va, f.waiters = [id] → f.copies = [] → f.queues = [] →
      (∀ x ∈ s.units, ∀ y ∈ x.2.slog, y.part = f.part → y.key.samePage f.key = false) →
      s.agent? id = some ag → ag.wait = .held va →
      exec (.faultUnresolvable n) s = .next (takeTrap { s with ms := { s.ms with faults := dropNth s.ms.faults n } } id
        ag.atRep 0x05 ag.run.here va))) ∧
  (∀ (s : State) (u n : Nat) (e : SideEnt), (s.unit u).slog[n]? = some e →
    (s.replayTurn (s.unit u) n e = false → exec (.sideLogReplay u n) s = .next s) ∧
    (s.replayTurn (s.unit u) n e = true →
      (e.inc ≠ (s.die e.die).inc → ∃ t : State, exec (.sideLogReplay u n) s = .next t ∧ t.mem = s.mem ∧
        t.rot.incDrop = s.rot.incDrop + 1 ∧ (t.unit u).slog = dropNth (s.unit u).slog n) ∧
      (∀ y o b, e.inc = (s.die e.die).inc → e.op = none → e.bytes = [(o, b, 0xFF)] → s.walkKey e.part e.key .write = .ok y →
        s.reachable e.part (BitVec.ofNat 8 (y.pte.toNat / 2 ^ 56)) (e.key.pa y) = true →
        ∃ t : State, exec (.sideLogReplay u n) s = .next t ∧ (t.unit u).slog = dropNth (s.unit u).slog n ∧
          t.mem = ((s.noteWalk e.part e.key).arriveWrite (if e.copy.isSome then none
            else ((s.noteWalk e.part e.key).anyAgent? e.agent).map Machine.Agent.codeUnit) e.part 0 (BitVec.ofNat 8 (y.pte.toNat / 2 ^ 56)) (e.key.pa y + o) [b] 0xFF).mem)) ∧
    ((∀ m y, m < n → (s.unit u).slog[m]? = some y → s.sameEnt y e.part e.key = false ∧
        (e.copy ≠ none → y.copy ≠ e.copy)) → s.replaying e.part e.key = true → s.mayReplay e = true →
      s.replayTurn (s.unit u) n e = true)) ∧
  (∀ (s : State) (id : Nat) (ag : Agent), s.agent? id = some ag → ag.live = true → ag.wait = .none →
    let s' : State := if ag.profile = .host then s else s.leaveQueues id ag.unit
    (∀ va t, ag.stErr = va :: t → exec (.asyncTrap id) s =
      .next (takeTrap s' id { ag with stErr := t }.atRep 0x05 ag.run.here va)) ∧
    (ag.stErr = [] → ag.tcause.getLsbD 31 = true → exec (.asyncTrap id) s = .next s) ∧
    (ag.stErr = [] → ag.tcause.getLsbD 31 = false →
      (ag.tcause.getLsbD 16 = true → exec (.asyncTrap id) s = .next (takeTrap s' id ag.atRep 0x22 ag.run.here ag.recVal)) ∧
      (ag.tcause.getLsbD 16 = false → ag.tcause.getLsbD 17 = true →
        exec (.asyncTrap id) s = .next (takeTrap s' id ag.atRep 0x21 ag.run.here ag.engVal)) ∧
      (ag.tcause.getLsbD 16 = false → ag.tcause.getLsbD 17 = false → ag.tcause.getLsbD 18 = true →
        exec (.asyncTrap id) s = .next (takeTrap s' id ag.atRep 0x20 ag.run.here ag.remVal)))) ∧
  (∀ (s : State) (id : Nat) (ag : Agent) (ea : DWord), s.agent? id = some ag →
    let goes : Instr → Wait → Prop := fun i w => exec i s = .next (s.putAgent id { ag with wait := w })
    (ag.wait = .waitw ea → goes (.waitwYield id) (.waitwOut ea) ∧ exec (.waitwTimer id) s = .next s) ∧
    (ag.wait = .waitwOut ea → goes (.waitwTimer id) (.waitwReady ea) ∧ exec (.waitwReread id) s = .next s) ∧
    (ag.wait = .waitwReady ea → goes (.waitwReread id) (.waitw ea)) ∧
    (ag.wait = .ntime ea → ea.toNat ≤ s.ntime.toNat → s.ntime.toNat + 2 < 2 ^ 64 → goes (.ntimeDeadline id) .again) ∧
    (∀ t, ag.wait = .wfi false t → (s.past t 1000000 = true → goes (.wfiTimeout id) (.wfi true t)) ∧
      (s.past t 1000000 = false → exec (.wfiTimeout id) s = .next s)))

/-- Span transactions and evictions, scrubbing, the loss of a CXL device, the Orangery's limits, splits, cleaning and
epochs. [R28, R30, R37, R38, R39, R40, R41, R266, R267, R268, R269, R270]
In an empty list a read shared fills in E, a read own in M; over another peer's M entry a read shared leaves that one
O and fills in S at the head, a read own of all its words takes them. A span that meets another partition is rejected;
each entry takes the least free index of its peer, which is the model's choice (log 114). An eviction keeps what every
byte reads as under its slot. A scrub counts a corrected line and drops an uncorrected one, or leaves the error for a
later read (log 127). The blocks of a lost CXL device are unbacked, and each partition with a page there has one
record of kind 0x14. A legal limit is stored, any other counts in the reject register; a split beyond cocap sets the
reject bit. A cleaned way has its new owner and none of its lines, and a carve-out way is zeros. An epoch clears the
sampled hits and gives a partition below its floor a free way, the lowest, to the lowest such partition (log 79).
Which ways a decrease releases is not said (log 116). -/
def Obligations.CoherenceAndOrangery : Prop :=
  (∀ (s : State) (r : SpanReq) (i : Nat), (s.spanAsked r = false ∨ s.backed r.part (256 * r.sector) = false →
      exec (.spanTransaction r) s = .next s) ∧
    (s.spanAsked r = true → s.reachable r.part r.slot (256 * r.sector) = true → s.freeIdx r.peer = some i →
    let fills : List SpanEnt → Prop := fun es => ∃ t : State, exec (.spanTransaction r) s = .next t ∧ t.mem = s.mem ∧
      s.SameBytes t ∧ t.sharers r.sector = es ∧ ∀ x, x ≠ r.sector → t.sharers x = s.sharers x
    let mine : Moesi → SpanEnt := fun z => { peer := r.peer, idx := i, slot := r.slot, st := z, lo := r.lo, hi := r.hi, part := r.part }
    let owned := ∀ a, a / 256 = r.sector → Tab.find? s.ms.dirty a ≠ none → s.ownerOf a ≠ none
    (s.sharers r.sector = [] → (r.kind = .readShared → fills [mine .e]) ∧ (r.kind = .readOwn → owned → fills [mine .m]) ∧
      (r.kind = .ioRead → fills []) ∧ (r.kind = .ioWrite → fills [])) ∧
    (∀ e : SpanEnt, s.sharers r.sector = [e] → e.peer ≠ r.peer → e.part = r.part → e.st = .m → r.lo ≤ e.lo → e.hi ≤ r.hi →
      e.lo ≤ e.hi →
      (r.kind = .readShared → fills [mine .s, { e with st := .o }]) ∧
      (r.kind = .readOwn → owned → e.slot = r.slot → fills [mine .m]))) ∧
    (∀ e : SpanEnt, s.spanAsked r = true → s.backed r.part (256 * r.sector) = true → s.sharers r.sector = [e] → e.part ≠ r.part →
      (Tab.get 0 s.rot.errRing r.part).getLsbD 63 = false → s.rot.rsErr.getLsbD 63 = false →
      ∃ t : State, exec (.spanTransaction r) s = .next t ∧ t.sharers r.sector = [e])) ∧
  (∀ (s : State) (sec n : Nat) (e : SpanEnt), (s.sharers sec)[n]? = some e → e.hi ≤ 63 →
    (∀ a ∈ e.addrs sec, ∀ o, s.ownerOf a = some o → o.slot = e.slot) →
    ∃ t : State, exec (.spanEviction sec n) s = .next t ∧ t.sharers sec = dropNth (s.sharers sec) n ∧
      ∀ q, t.pkRead e.slot q = s.pkRead e.slot q) ∧
  (∀ (s : State) (line : Nat), paKind (64 * line) = .dram →
    (s.ms.thrDram = 0 → exec (.patrolScrub line .corrected false) s =
      .next { s with ms := { s.ms with corrDram := s.ms.corrDram + 1 } }) ∧
    exec (.patrolScrub line .clean false) s = .next s ∧
    ((∀ p, (Tab.get 0 s.rot.errRing p).getLsbD 63 = false) → s.rot.rsErr.getLsbD 63 = false →
      ∃ t : State, exec (.patrolScrub line .uncorrected false) s = .next t ∧ t.isDropped (64 * line) = true) ∧
    (∀ e, e = .corrected ∨ e = .uncorrected → exec (.patrolScrub line e true) s =
      .next { s with ms := { s.ms with latent := Tab.put s.ms.latent line e } }) ∧
    exec (.patrolScrub line .clean true) s = .next s) ∧
  (∀ (s : State) (port : Nat), (port ∈ s.plat.cxlLost → exec (.cxlDeviceLoss port) s = .next s) ∧
    (port ∉ s.plat.cxlLost → (∃ e ∈ s.plat.cxl, e.1 = port) →
    ∃ t : State, exec (.cxlDeviceLoss port) s = .next t ∧ t.plat.cxlLost = s.plat.cxlLost ++ [port] ∧
      (∀ p pa, paKind pa = .cxl → (s.plat.cxl.map (fun e => e.1)).getD ((pa - cxlBase) / 4096 % s.plat.cxl.length) 0 = port →
        t.backed p pa = false) ∧
      ∀ p, p < 64 → Tab.get 0 t.rot.recCount (64 * 0x14 + p) =
        if (s.harvestList p .all).any (fun x => (s.onPort port x.2.1 x.2.2).isSome)
        then (Tab.get 0 s.rot.recCount (64 * 0x14 + p) + 1) % 2 ^ 32 else Tab.get 0 s.rot.recCount (64 * 0x14 + p))) ∧
  (∀ (s : State) (p : Nat) (v mk : Word), p < 64 → mk = v &&& 0x803F3F3F →
    let fl := mk.toNat % 64
    let ce := mk.toNat / 256 % 64
    let cc := mk.toNat / 65536 % 64
    let floors := ((List.range 64).map (fun q => if q = p then (if mk.getLsbD 31 then fl else 0)
      else if (s.lim q).getLsbD 31 then (s.lim q).toNat % 64 else 0)).sum
    (fl ≤ ce ∧ ce ≤ 32 ∧ cc ≤ ce ∧ (s.waysOf p 2).length ≤ cc ∧ floors ≤ 32 → (s.heldWays p ≤ ce →
      exec (.orngLimWrite p v) s = .next { s with rot := { s.rot with orngLim := Tab.set 0 s.rot.orngLim p mk } })) ∧
    (ce < fl ∨ 32 < ce ∨ ce < cc ∨ cc < (s.waysOf p 2).length ∨ 32 < floors →
      exec (.orngLimWrite p v) s = .next { s with rot := { s.rot with orngLimrej := s.rot.orngLimrej + 1 } }) ∧
    ((s.lim p).toNat / 65536 % 64 < v.toNat / 65536 % 64 → exec (.orngSplitWrite p v) s = .next { s with rot := { s.rot with
      orngSplit := Tab.set 0 s.rot.orngSplit p (Tab.get 0 s.rot.orngSplit p ||| 0x80000000) } }) ∧
    (∀ k : KeySlot, v.toNat / 65536 % 64 = (s.waysOf p 2).length → (s.waysOf p 2).length ≤ (s.lim p).toNat / 65536 % 64 →
      Tab.find? s.ms.keys (v.toNat / 2 ^ 22 % 256) = some k → k.st = 1 → k.owner = p → s.splitBusy p = false →
      ∃ t : State, exec (.orngSplitWrite p v) s = .next t ∧ t.ms = s.ms ∧ t.rot.orngWay = s.rot.orngWay ∧
        ((Tab.get 0 t.rot.orngSplit p).toNat / 2 ^ 16 % 2 ^ 14 = v.toNat / 2 ^ 16 % 2 ^ 14) ∧
        (Tab.get 0 t.rot.orngSplit p).getLsbD 31 = (!v.getLsbD 31 && (Tab.get 0 s.rot.orngSplit p).getLsbD 31))) ∧
  (∀ (s : State) (w : Nat) (mv : WayMove), w < 32 → Tab.find? s.ms.moves w = some mv →
    ∃ t : State, exec (.wayCleaning w) s = .next t ∧ Tab.find? t.ms.moves w = none ∧
      Tab.get 0 t.rot.orngWay w = BitVec.ofNat 32 ((if mv.kind = 4 then 1 else mv.kind) * 2 ^ 30 + mv.slot * 256 + mv.owner) ∧
      (∀ k l, Tab.find? t.ms.orng k = some l → k % 32 ≠ w) ∧
      (mv.kind < 2 → s.linesOf w = [] → t.mem = s.mem ∧ s.SameBytes t) ∧
      (mv.kind = 2 ∨ mv.kind = 4 → s.linesOf w = [] → ∀ q, t.homeByte q =
        if carveBase + w * 0x2000000 ≤ q ∧ q < carveBase + (w + 1) * 0x2000000 then 0 else s.homeByte q)) ∧
  (∀ s : State, ∃ t : State, exec .orangeryEpoch s = .next t ∧ t.ms.hits = [] ∧ t.mem = s.mem ∧
    (∀ p w ws, p < 64 → (s.lim p).getLsbD 31 = true → s.heldWays p < (s.lim p).toNat % 64 → s.freeWays = w :: ws →
      (∀ q, q < p → (s.lim q).getLsbD 31 = false ∨ (s.lim q).toNat % 64 ≤ s.heldWays q) →
      Tab.find? t.ms.moves w = some { kind := 1, slot := 0, owner := p }) ∧
    ((∀ q, q < 64 → (s.lim q).getLsbD 31 = false) → t = { s with ms := { s.ms with hits := [] } }))

/-- Launches, groups and tasks that start, saves, restores, migrations, REMQ's blocks, operating points and the power
window. [R27, R64, R303, R305, R308, R311, R315, R319, R321, R326, R355, R366]
An accepted header, whose code names an entry of its profile and the part in the code table that the event is given
(log 118), becomes the next launch of its queue and extends the partition's measurement, as the loaded objects do; a
refused one leaves the resident service a record. A group's packet that finds its unit free and no plot bound starts
its waves at the entry with the ordinal in s2, the indices in s3 to s5 and the total in s6, over a scratchpad of
zeros, which is the model's choice (log 88). A savable group leaves its unit into the next saved context with its
registers and plots; its packet restores it on the unit it names. Which groups migrate is the model's choice (log 63),
and the order of refusals in a remote block (log 126). A task starts from the tail of its deque, a held fire goes to
the tail of one, a remote block is dispatched as far as the queues have room. A die runs at the class of its launches
within its limit; a window above the package limit lowers the array dies from the class they run at, the vector dies
once those stand at 0. -/
def Obligations.LaunchesAndTasks : Prop :=
  (∀ (s : State) (cu slot : Nat) (l : Launch) (rest : List TaskRec) (r : TaskRec),
    cu < 192 → slot < (s.unit cu).waves → slot < 16 → s.taskGroup cu (s.unit cu).launch = true →
    s.agent? (16 * cu + slot) = none → (s.unit cu).deque = rest ++ [r] → s.launch? (s.unit cu).launch = some l →
    r.args.length = 6 → l.id = (s.unit cu).launch →
    ∃ (t : State) (x : Agent), exec (.taskStart cu slot) s = .next t ∧ t.mem = s.mem ∧ (t.unit cu).deque = rest ∧
      t.agent? (16 * cu + slot) = some x ∧ x.profile = .wave ∧ x.live = true ∧ x.run = { pc := r.entry } ∧
      x.part = l.part ∧ x.launch = l.id ∧ x.sGet 1 = BitVec.ofNat 32 (s.plat.dom.toNat * 2 ^ 20 + s.plat.pkg.toNat) ∧
      (∀ i, i < 6 → x.sGet (i + 2) = r.args.getD i 0) ∧ (∀ n, 8 ≤ n → n < 60 → x.sGet n = 0) ∧ x.beat = BitVec.allOnes 96 ∧
      x.die.toNat = 10 + cu / 48 ∧ x.cu.toNat = cu % 48 ∧ x.slot.toNat = slot ∧ x.gw.toNat = slot ∧
      x.rmode = l.rmode ∧ x.seed = l.seed ∧ x.tcause = 0 ∧ x.opens = []) ∧
  (∀ (s : State) (n d c : Nat) (f : HeldFire), s.hub.fires[n]? = some f → f.dies = [d] → 10 ≤ d → d ≤ 13 → c < 48 →
    s.taskGroup (48 * (d - 10) + c) f.launch = true → (s.unit (48 * (d - 10) + c)).deque.length < 64 →
    (∀ b, b < c → s.taskGroup (48 * (d - 10) + b) f.launch = false ∨ 64 ≤ (s.unit (48 * (d - 10) + b)).deque.length) →
    ∃ t : State, exec (.heldFirePlace n) s = .next t ∧ t.mem = s.mem ∧ t.hub.fires = dropNth s.hub.fires n ∧
      (t.unit (48 * (d - 10) + c)).deque = (s.unit (48 * (d - 10) + c)).deque ++ [f.task]) ∧
  (∀ (s : State) (q : Nat) (b : RemBlock) (rest : List RemBlock) (ag x : Agent),
    (s.quad q).inq = b :: rest → s.agent? (4096 + q) = some ag → (s.quad q).capture = 0 → (s.quad q).gen = none →
    s.quadRuns q = true → ag.wait = .none ∨ ag.wait = .again →
    (∀ y cs j, s.blockRun ag (s.quad q) b.cmds b.done = (y, cs, j, none) →
      exec (.remqBlockDispatch q) s = .next (s.putQuad q { y with inq := { b with cmds := cs, done := j } :: rest })) ∧
    (∀ y cs j st, s.blockRun ag (s.quad q) b.cmds b.done = (y, cs, j, some st) → s.agent? b.agent = some x →
      x.wait = .remq none →
      exec (.remqBlockDispatch q) s = .next ((s.putQuad q { y with inq := rest }).putAgent b.agent
        { x with wait := .remq (some (BitVec.ofNat 32 st)) })) ∧
    (∀ w ws fn a b' c tok y, b.cmds = [(w, ws)] → blockFields w = some (fn, a, b', c, tok) →
      s.lacks (mkCmd fn a b' c tok ws ag.dGet ag.nextTag) = false →
      (s.quad q).enqueue (mkCmd fn a b' c tok ws ag.dGet ag.nextTag) = some y →
      (s.cmdCond ag.part (s.quad q).model (mkCmd fn a b' c tok ws ag.dGet ag.nextTag) = none →
        s.blockRun ag (s.quad q) b.cmds b.done = (y, [], b.done + 1, some 0)) ∧
      (s.cmdCond ag.part (s.quad q).model (mkCmd fn a b' c tok ws ag.dGet ag.nextTag) ≠ none →
        s.blockRun ag (s.quad q) b.cmds b.done = (s.quad q, [], b.done, some (4 + 256 * b.done))))) ∧
  (∀ (s s0 : State) (p q : Nat) (hdr : BitVec 64) (codes : List (Nat × List Nat)) (objs : List (List (BitVec 8))),
    7 ≤ s.rot.bootSt.toNat / 2 ^ 24 → (Tab.find? s.hub.parts p).isSome = true → s.hub.ending.contains p = false → q < 16 →
    s0 = objs.foldl (fun t o => t.measure p o) s →
    let refused : State → Prop := fun u => exec (.launchAppend p q hdr codes objs) s =
      .next (u.draw.2.recordRs p { kind := (Config.refuseKind u.draw.1).toNat, pa := hdr })
    (hdr.toNat % 64 ≠ 0 → refused s0) ∧ (∀ s1, s0.readHeader p hdr = (s1, none) → refused s1) ∧
    (∀ s1 bs os, s0.readHeader p hdr = (s1, some (bs, os)) → (s1.headerCheck p q hdr bs os codes = none → refused s1) ∧
      (∀ x, s1.headerCheck p q hdr bs os codes = some x → ∃ t : State, exec (.launchAppend p q hdr codes objs) s = .next t ∧
        t.mem = s1.mem ∧ t.hub.nextId = s1.hub.nextId + 1 ∧ t.launch? s1.hub.nextId = some x ∧ x.part = p ∧ x.queue = q ∧
        x.next = 0 ∧ x.entry.toNat = leVal (bs.take 8) % 2 ^ 64 ∧ x.kind = leVal ((bs.drop 8).take 1) ∧
        x.waves = leVal ((bs.drop 9).take 1) ∧ x.code = leVal ((bs.drop 38).take 2) ∧
        Tab.find? t.plat.meas p = some (sha512 (Tab.get (List.replicate 64 0) s1.plat.meas p ++ sha512 bs)) ∧
        (∃ parts, codes[x.code]? = some (if x.kind = 1 then 1 else 0, parts) ∧ s.partCode ∈ parts) ∧ hdr.toNat % 64 = 0))) ∧
  (∀ (s : State) (n u : Nat) (k : Packet) (x : Launch), s.hub.packets[n]? = some k → s.launch? k.launch = some x →
    k.pkind = 0 → k.dest = u → u < 192 → x.kind = 0 → x.waves ≤ 16 → x.susp = false → s.unitUp u = true → x.id = k.launch →
    (s.unit u).ustate = .free → min (Tab.get 7 s.plat.opLimit (10 + u / 48)) x.opc ≤ (s.die (10 + u / 48)).opc →
    ((s.unit u).boundPlots ≠ [] → exec (.groupStart n) s = .next s) ∧
    ((s.unit u).boundPlots = [] → x.sync ≤ 1 →
    ∃ t : State, exec (.groupStart n) s = .next t ∧ t.hub.packets = dropNth s.hub.packets n ∧ (t.unit u).ustate = .running ∧
      (t.unit u).plots = [] ∧ (t.unit u).sliceAt = s.ntime ∧
      (t.unit u).launch = x.id ∧ (t.unit u).ord = k.ord ∧ (t.unit u).tokens = x.ptok ∧
      t.launch? x.id = some { x with live := x.live ++ [u] } ∧
      (∀ q, t.homeByte q = if spadBase u ≤ q ∧ q < spadBase u + 0x80000 then 0 else s.homeByte q) ∧
      ∀ w, w < x.waves → ∃ ag, t.agent? (16 * u + w) = some ag ∧ ag.profile = .wave ∧ ag.run = { pc := x.entry } ∧
        ag.part = x.part ∧ ag.launch = x.id ∧ ag.dmem = x.dmem u ∧ ag.gw.toNat = w ∧ ag.beat = BitVec.allOnes 96 ∧
        ag.sGet 1 = BitVec.ofNat 32 (s.plat.dom.toNat * 2 ^ 20 + s.plat.pkg.toNat) ∧ ag.sGet 2 = BitVec.ofNat 32 k.ord ∧
        (∀ i, i < 3 → ag.sGet (3 + i) = BitVec.ofNat 32 (k.idx.getD i 0)) ∧ ag.sGet 6 = BitVec.ofNat 32 x.total ∧
        ag.sGet 7 = 0)) ∧
  (∀ (s : State) (u : Nat) (x : Launch), u < 224 → (s.unit u).ustate = .saving → s.savable u = true → (s.unit u).sfu = [] →
    s.launch? (s.unit u).launch = some x → x.id = (s.unit u).launch →
    ∃ (t : State) (sv : Saved), exec (.contextSave u) s = .next t ∧ Tab.find? t.hub.saves s.hub.nextCtx = some sv ∧
      t.hub.nextCtx = s.hub.nextCtx + 1 ∧ t.mem = s.mem ∧ sv.from_ = u ∧ sv.launch = x.id ∧ sv.grp.plots = (s.unit u).plots ∧ (t.unit u).ustate = .free ∧
      t.launch? x.id = some { x with live := x.live.filter (· != u), saved := x.saved ++ [s.hub.nextCtx] } ∧
      ∀ i ag, (i, ag) ∈ s.agentsOn u → ∃ j y, (j, y) ∈ sv.agents ∧ y.s = ag.s ∧ y.v = ag.v ∧ y.k = ag.k ∧ y.bt = ag.bt ∧
        y.d = ag.d ∧ y.tcause = ag.tcause ∧ y.gw = ag.gw) ∧
  (∀ (s : State) (n u a : Nat) (k : Packet) (x : Launch) (sv : Saved) (ag : Agent), s.hub.packets[n]? = some k →
    s.launch? k.launch = some x → k.pkind = 2 → k.dest = u → u < 192 → x.kind ≠ 1 → x.susp = false → s.unitUp u = true →
    (s.unit u).ustate = .free → min (Tab.get 7 s.plat.opLimit (10 + u / 48)) x.opc ≤ (s.die (10 + u / 48)).opc →
    Tab.find? s.hub.saves k.ctx = some sv → sv.agents = [(a, ag)] → (s.unit u).boundPlots = [] → x.sync ≤ 1 →
    ∃ (t : State) (y : Agent), exec (.contextRestore n) s = .next t ∧ t.hub.packets = dropNth s.hub.packets n ∧
      Tab.find? t.hub.saves k.ctx = none ∧ (t.unit u).ustate = .running ∧ (t.unit u).plots = sv.grp.plots ∧
      t.agent? (16 * u + ag.gw.toNat) = some y ∧
      y.s = ag.s ∧ y.v = ag.v ∧ y.k = ag.k ∧ y.tcause = ag.tcause ∧ y.gw = ag.gw ∧ y.slot = ag.gw ∧
      y.die.toNat = 10 + u / 48 ∧ y.cu.toNat = u % 48 ∧ y.run = ag.run) ∧
  (∀ (s : State) (u v : Nat), u < 224 → s.mayMigrate u v = true → ∃ t : State, exec (.migration u v) s = .next t ∧ t.mem = s.mem ∧
    (t.unit u).ustate = .free ∧ t.hub.packets = s.hub.packets ++
      [{ pkind := 2, launch := (s.unit u).launch, ctx := s.hub.nextCtx, dest := v,
         code := ((s.launch? (s.unit u).launch).map (fun x => x.code)).getD 0 }]) ∧
  (∀ (s : State) (die c : Nat), (s.die die).link = .up → c = min (Tab.get 7 s.plat.opLimit die) (s.residentClass die) →
    exec (.opPointChange die) s = .next { s with plat := { s.plat with
      dies := Tab.put s.plat.dies die { s.die die with opc := c, opcTo := c } } }) ∧
  (∀ (s : State) (draw w : Nat), w = min 4000 (max 1000 (s.rot.pkgPlim.toNat % 2 ^ 16)) →
    let lowered : List Nat → Prop := fun ds => ∃ t : State, exec (.powerWindow draw) s = .next t ∧ t.plat.belowMs = 0 ∧
      (∀ d, (t.die d).opc = if d ∈ ds then (s.die d).opc - 1 else (s.die d).opc) ∧
      ∀ d, Tab.get 7 t.plat.opLimit d = if d ∈ ds ∧ 0 < (s.die d).opc then (s.die d).opc - 1 else Tab.get 7 s.plat.opLimit d
    (w < draw → (∃ d, 2 ≤ d ∧ d ≤ 9 ∧ 0 < (s.die d).opc) → lowered [2, 3, 4, 5, 6, 7, 8, 9]) ∧
    (w < draw → (∀ d, 2 ≤ d → d ≤ 9 → (s.die d).opc = 0) → lowered [10, 11, 12, 13]) ∧
    (draw ≤ w → w ≤ draw + 200 → exec (.powerWindow draw) s = .next { s with plat := { s.plat with belowMs := 0 } }) ∧
    (draw + 200 < w → s.plat.belowMs < 4 →
      exec (.powerWindow draw) s = .next { s with plat := { s.plat with belowMs := s.plat.belowMs + 1 } }))

/-- Reset, start-up, enumeration, heartbeats, isolation, self-test, fences, and old responses. [R15, R17, R20, R251, R252,
R356, R357, R358, R360, R362, R363, R364]
A reset keeps flash, fuses and counter, a warm one boot_st too, and returns the rest, memory among it (log 75), to its
reset values; the first slot that passes its checks, at the places of log 31, boots and the cores start from its
entry, with none the package halts. Stages complete in order, with what they find as operands (log 119); stage 7 loads
partitions, keys and images. The capability table is rewritten in steps of the heartbeats, gen odd meanwhile (log 6).
Enumeration opens a down die with a new incarnation and the queue identifiers of its units, those present that its
self-test presented, no sooner than 16 ms after its last. A die silent for 100 microseconds is isolated: nothing of it
stays and its link waits for its self-test. A fence pre-empts a unit's group, or loses it where the unit no longer
answers, clears its presence, counts it (log 77) and begins a rewrite of the table; a fenced bank, lane of a link
(numbered as log 30) or die likewise. A response of an old incarnation is dropped and counted. -/
def Obligations.PlatformEvents : Prop :=
  (∀ (s t0 : State) (cold : Bool), t0 = { State.reset with
      free := s.free
      rot := { State.reset.rot with svnFuse := s.rot.svnFuse, bootSt := if cold then 0 else s.rot.bootSt }
      plat := { State.reset.plat with flash := s.plat.flash, rootHash := s.plat.rootHash, certs := s.plat.certs, idKey := s.plat.idKey } } →
    let b0 : Word := if cold then 0 else s.rot.bootSt
    let kept : State → Nat → Nat → Prop := fun t lo len => ∀ i, lo ≤ i → i < lo + len → t.rot.bootSt.getLsbD i = b0.getLsbD i
    ∃ t : State, exec (.packageReset cold) s = .next t ∧ t.rot.svnFuse = s.rot.svnFuse ∧ t.plat.flash = s.plat.flash ∧
      t.units = [] ∧ t.hub = State.reset.hub ∧ t.fab = State.reset.fab ∧
      (t0.fwCheck false = 0 → t.rot.bootSt.toNat / 2 ^ 24 = 1 ∧ t.rot.bootSt.getLsbD 0 = false ∧ kept t 1 23 ∧
        t.plat.halted = false ∧ ∀ n, n < 16 → ∃ ag, t.agent? (8192 + n) = some ag ∧ ag.profile = .host ∧
          ag.run = { pc := BitVec.ofNat 64 (leVal (((s.flashBytes 0 512).drop 16).take 8)) }) ∧
      (∀ a, t0.fwCheck false = a → a ≠ 0 → a ≤ 4 → t.rot.bootSt.toNat / 2 ^ 8 % 16 = a ∧ kept t 1 7 ∧ kept t 12 4 ∧ kept t 20 4 ∧
        (t0.fwCheck true = 0 → t.rot.bootSt.toNat / 2 ^ 24 = 1 ∧ t.rot.bootSt.getLsbD 0 = true ∧ kept t 16 4) ∧
        (∀ b, t0.fwCheck true = b → b ≠ 0 → b ≤ 4 → t.plat.halted = true ∧ t.agents = [] ∧ kept t 0 1 ∧ kept t 24 8 ∧
          t.rot.bootSt.toNat / 2 ^ 16 % 16 = b))) ∧
  (∀ (s : State) (n : Nat) (cfg : BootCfg), s.plat.halted = false → n = s.rot.bootSt.toNat / 2 ^ 24 + 1 → 2 ≤ n → n ≤ 8 →
    (n ≠ 7 ∨ s.loadable cfg = true →
      ∃ t : State, exec (.bootStage n cfg) s = .next t ∧ t.rot.bootSt.toNat = s.rot.bootSt.toNat % 2 ^ 24 + n * 2 ^ 24 ∧
      (n = 6 → t.plat.pkg = cfg.pkg ∧ t.plat.dom = cfg.dom) ∧ (n = 5 → t.rot.capGen.getLsbD 0 = true) ∧ (n ≠ 3 → t.mem = s.mem) ∧
      (n = 7 → t.plat.pairs = cfg.pairs ∧ (∀ c ∈ cfg.parts, (Tab.find? t.hub.parts c.part).isSome = true) ∧
        (∀ e ∈ cfg.keys, ∃ k, Tab.find? t.ms.keys e.1 = some k ∧ k.st = 1 ∧ k.owner = e.2.1 % 64 ∧ k.shared = e.2.2) ∧
        ((cfg.images.map (fun e => e.1)).Nodup → ∀ e ∈ cfg.images, (t.pol e.1).cur = e.2))) ∧
    (n = 7 → s.loadable cfg = false → exec (.bootStage 7 cfg) s = .next s) ∧
    ∀ k, k ≠ n → exec (.bootStage k cfg) s = .next s) ∧
  (∀ (s : State) (die : Nat), (s.die die).link = .down →
    (∀ t0, (s.die die).enumAt = some t0 → 16000000 ≤ (s.ntime - t0).toNat) → 1 ≤ die → die ≤ 15 →
    3 ≤ s.rot.bootSt.toNat / 2 ^ 24 →
    ∃ t : State, exec (.enumeration die) s = .next t ∧ (t.die die).link = .up ∧ (t.die die).inc = (s.die die).inc + 1 ∧
      (t.die die).enumAt = some s.ntime ∧ t.rot.capGen.getLsbD 0 = true ∧
      (∀ u, 10 ≤ die → die ≤ 13 → u < 48 → (t.die die).units.testBit u =
        ((s.die die).present.testBit u && !(s.die die).fenced.testBit u)) ∧
      (∀ u, 10 ≤ die → die ≤ 13 → u < 48 → (t.die die).qids[u]? = some (BitVec.ofNat 16 (256 * die + u))) ∧ ∀ d, d ≠ die → t.die d = s.die d) ∧
  (∀ s : State, s.hub.ending = [] →
    (s.rot.capGen.getLsbD 0 = false → s.capStep.endParts = s) ∧
    (s.rot.capGen.getLsbD 0 = true →
      (s.buildCap.rot.cap ≠ s.rot.cap → s.capStep.endParts = s.buildCap) ∧
      (s.buildCap.rot.cap = s.rot.cap → s.capStep.endParts = { s with rot := { s.rot with capGen := s.rot.capGen + 1 } })) ∧
    (∀ i w, s.capWords[i]? = some w → Tab.get 0 s.buildCap.rot.cap i = BitVec.ofNat 32 w)) ∧
  (∀ (s h : State) (die : Nat), h = s.capStep.endParts → (h.die die).link = .up → 1 ≤ die → die ≤ 15 →
    exec (.heartbeat die true []) s = .next (h.putDie die { h.die die with silent := 0 }) ∧
    (∀ ts : List Nat, exec (.heartbeat die false ts) s = .next (h.putDie die { h.die die with silent := (h.die die).silent + 10 })) ∧
    (∀ ts : List Nat, ∃ t : State, exec (.heartbeat die true ts) s = .next t ∧ t.die die = { h.die die with silent := 0 } ∧
      t.mem = h.mem ∧ ∀ (i u x : Nat), (dieUnits die)[i]? = some u → ts[i]? = some x → (t.unit u).temp = x % 8)) ∧
  (∀ (s : State) (die : Nat) (d : Die), d = s.die die →
    (∀ t0, d.link = .down → d.enumAt = some t0 → (s.ntime - t0).toNat < 16000000 →
      exec (.enumeration die) s = .next s) ∧
    (d.link = .up → d.silent < 100 → exec (.isolation die) s = .next s) ∧
    (d.link = .up → 100 ≤ d.silent → 10 ≤ die → die ≤ 13 →
      ∃ t : State, exec (.isolation die) s = .next t ∧ (t.die die).link = .resetting ∧ (t.die die).units = 0 ∧
        (∀ c, c < 48 → (t.unit (48 * (die - 10) + c)).ustate = .free) ∧
        (∀ e ∈ t.fab.copies, ¬ (48 * (die - 10) ≤ e.2.unit_ ∧ e.2.unit_ < 48 * (die - 9))) ∧
        (∀ q, spadBase (48 * (die - 10)) ≤ q → q < spadBase (48 * (die - 10)) + 48 * 0x80000 → t.homeByte q = 0)) ∧
    (∀ mask, d.link = .resetting → 10 ≤ die → die ≤ 13 →
      exec (.chipletSelfTest die mask) s = .next (s.putDie die { d with link := .down, present := mask % 2 ^ 48 }))) ∧
  (∀ (s : State) (a b : Nat) (x y : BitVec 8), exec (.staleResponseDrop a x b y) s =
    .next (if (s.die a).inc ≠ x ∨ (s.die b).inc ≠ y then { s with rot := { s.rot with incDrop := s.rot.incDrop + 1 } } else s)) ∧
  (∀ (s : State) (die n : Nat),
    let fenced : Instr → (State → Prop) → Prop := fun i p => ∃ t : State, exec i s = .next t ∧ t.rot.nFenced = s.rot.nFenced + 1 ∧
      t.rot.degraded = true ∧ t.rot.capGen = (if s.rot.capGen.getLsbD 0 then s.rot.capGen else s.rot.capGen + 1) ∧ p t
    let unitOff : Nat → Bool → State → Prop := fun u ans t =>
      (t.die die).units.testBit n = false ∧ (t.die die).fenced.testBit n = true ∧
      ((s.unit u).ustate = .running → (ans = false → (t.unit u).ustate = .free) ∧
        ((∀ x, s.launch? (s.unit u).launch = some x → x.sync ≤ 1) → ans = true → (t.unit u).ustate = .saving))
    (∀ ans, 10 ≤ die → die ≤ 13 → n < 48 → s.unitUp (48 * (die - 10) + n) = true →
      fenced (.fenceCu die n ans) (unitOff (48 * (die - 10) + n) ans)) ∧
    (∀ ans, 2 ≤ die → die ≤ 9 → n < 4 → s.unitUp (192 + 4 * (die - 2) + n) = true →
      fenced (.fenceQuadrant die n ans) (unitOff (192 + 4 * (die - 2) + n) ans)) ∧
    (die < 8 → n < 1024 → Tab.get false s.ms.banksOff (1024 * die + n) = false →
      fenced (.fenceDramBank die n) (fun t => Tab.get false t.ms.banksOff (1024 * die + n) = true)) ∧
    ((s.die die).link = .up → n < 16 → (s.link (16 + die)).width = 16 →
      fenced (.fenceLinkLane die n) (fun t => (t.link (16 + die)).width = 8)) ∧
    (∀ ans, (s.die die).link = .up → die = 14 ∨ die = 15 →
      fenced (.fenceDie die ans) (fun t => (t.die die).link = .fenced ∧ (t.die die).units = 0)) ∧
    (∀ ans, (s.die die).link = .up → 2 ≤ die → die ≤ 13 → ∃ t : State, exec (.fenceDie die ans) s = .next t ∧
      (t.die die).link = .up ∧ (t.die die).units = 0 ∧ t.rot.degraded = true))

/-- Ultra Ethernet, management and attestation requests, the version fuses, and writes of Rotunda's registers. [R7, R17,
R76, R314, R342, R347, R353, R365, R366, R367, R368, R371]
A request that matches a flow entry writes its payload at the entry's next slot, counts it, and appends a record to
the task queue, or, for the first 16 entries, an event (log 98); one that matches none, is longer than the slot, or
cannot be written there, is dropped and counted, the last as log 35 has it; one that meets a full queue stays. A
management request that has come through such an entry is carried out: its status is a reply of the layout of log 37,
the package limit is the register's 16 bits; a suspended launch is released (log 65). An attestation answers with the
report, its signature under the identity key and the certificates. The fuses only rise. A register write changes its
writable fields, and read-only registers and the block of a closed die ignore it. -/
def Obligations.Requests : Prop :=
  (∀ (s : State) (r : UeReq), r.die = 14 ∨ r.die = 15 → (s.die r.die).link = .up → 8 ≤ s.rot.bootSt.toNat / 2 ^ 24 →
    s.plat.halted = false →
    ((s.flowMatch r = none → ∃ t : State, exec (.ueRequest r) s = .next t ∧ t.plat.dropReq = s.plat.dropReq + 1 ∧
      t.hub = s.hub) ∧
    ∀ i f, s.flowMatch r = some (i, f) →
      let size := 2 ^ max 6 (min 15 f.lgslot)
      (size < r.payload.length → ∃ t : State, exec (.ueRequest r) s = .next t ∧ t.plat.dropReq = s.plat.dropReq + 1 ∧
        t.hub = s.hub) ∧
      (r.payload.length ≤ size → (i % 4096 < 16 ∨ s.tqOn f.part f.tq = true ∧ s.tqFull f.part f.tq = false) →
        s.linkOk f.part (f.buf.toNat + f.slot * size) r.payload.length = false →
        ∃ t : State, exec (.ueRequest r) s = .next t ∧ t.plat.dropReq = s.plat.dropReq + 1) ∧
      (r.payload.length ≤ size → 16 ≤ i % 4096 → s.tqFull f.part f.tq = true → exec (.ueRequest r) s = .next s) ∧
      (r.payload.length ≤ size → s.linkOk f.part (f.buf.toNat + f.slot * size) r.payload.length = true →
        let g : Flow := { f with count := f.count + 1, slot := if f.slot + 1 < f.nslot then f.slot + 1 else 0 }
        (i % 4096 < 16 → ∃ t : State, exec (.ueRequest r) s = .next t ∧ Tab.find? t.hub.flows i = some g ∧
          t.plat.hostQ = s.plat.hostQ ++ [.mgmt] ∧ t.rot = s.rot) ∧
        (16 ≤ i % 4096 → s.tqOn f.part f.tq = true → s.tqFull f.part f.tq = false → ∃ t : State,
          exec (.ueRequest r) s = .next t ∧ Tab.find? t.hub.flows i = some g ∧
          Tab.get 0 t.rot.tqTail (64 * f.part + f.tq) = Tab.get 0 s.rot.tqTail (64 * f.part + f.tq) + 1)))) ∧
  (∀ s : State, (.mgmt ∉ s.plat.hostQ → (∀ r, exec (.managementRequest r) s = .next s) ∧
      ∀ p nonce, exec (.attestationRequest p nonce) s = .next s) ∧
    (.mgmt ∈ s.plat.hostQ → let q := s.plat.hostQ.erase .mgmt
    (∀ v : Word, exec (.managementRequest (.powerLimit v)) s = .next { s with
      plat := { s.plat with hostQ := q }
      rot := { s.rot with pkgPlim := v &&& 0xFFFF } }) ∧
    (∃ (t : State) (bs : List Byte), exec (.managementRequest .status) s = .next t ∧ t.mem = s.mem ∧ t.rot = s.rot ∧
      t.plat.hostQ = q ∧ t.plat.reports = s.plat.reports ++ [bs] ∧ bs.take 4 = leBytes 4 s.rot.bootSt.toNat) ∧
    (∀ l x, s.launch? l = some x → x.id = l → ∃ t : State, exec (.managementRequest (.release l)) s = .next t ∧
      t.launch? l = some { x with susp := false } ∧ t.mem = s.mem ∧ t.plat.hostQ = q) ∧
    (∀ c : PartCfg, c.part < 64 → Tab.find? s.hub.parts c.part = none →
      ∃ t : State, exec (.managementRequest (.createPart c)) s = .next t ∧ Tab.find? t.hub.parts c.part = some c ∧ t.plat.hostQ = q ∧
        ∀ u ∈ c.units, u < 224 → (s.unit u).holder = none → (t.unit u).holder = some c.part ∧
          (t.unit u).act0 = {} ∧ (t.unit u).act1 = {} ∧ (t.unit u).front = false) ∧
    (∀ (p : Nat) (nonce : List (BitVec 8)), p < 64 → nonce.length = 64 → s.plat.bootHash.length = 64 →
      (Tab.get (List.replicate 64 0) s.plat.meas p).length = 64 →
      ∃ (t : State) (bs sig : List Byte), exec (.attestationRequest p nonce) s = .next t ∧ t.mem = s.mem ∧ t.plat.hostQ = q ∧
        t.plat.reports = s.plat.reports ++ [bs ++ sig, s.plat.certs] ∧ bs.length = 224 ∧ sig.length = 132 ∧
        sig = ecdsaSign s.plat.idKey (Config.nonce s.free) (sha512 bs) ∧
        (bs.drop 8).take 64 = nonce ∧ (bs.drop 72).take 64 = s.plat.bootHash ∧
        (bs.drop 136).take 64 = Tab.get (List.replicate 64 0) s.plat.meas p ∧
        (bs.drop 200).take 8 = leBytes 8 s.ntime.toNat))) ∧
  (∀ (s : State) (n : Nat), exec (.svnFuseWrite n) s = .next (if s.rot.svnFuse < n % 2 ^ 32 then
    { s with rot := { s.rot with svnFuse := n % 2 ^ 32 } } else s)) ∧
  (∀ (s : State) (p : Nat) (v : DWord), p < 64 →
    let puts : Nat → (Rot → Rot) → Prop := fun off f => exec (.registerWrite off v) s = .next { s with rot := f s.rot }
    puts (0x220000 + 8 * p) (fun r => { r with ptRoot := Tab.set 0 r.ptRoot p (v &&& 0x000FFFFFFFFFF001) }) ∧
    puts (0x220200 + 8 * p) (fun r => { r with ttCtl := Tab.set 0 r.ttCtl p (v &&& 0x000FFFFFFFFFF03F) }) ∧
    puts (0x280000 + 8 * p) (fun r => { r with tqCfg := Tab.set 0 r.tqCfg p (v &&& 0x800FFFFFFFFFF01F) }) ∧
    puts (0x2A0000 + 8 * p) (fun r => { r with polCtl := Tab.set 0x01000014 r.polCtl p (v &&& 0x8000FFFF01FF07FF) }) ∧
    puts (0x2C0000 + 8 * p) (fun r => { r with trapTab := Tab.set 0 r.trapTab p (v &&& 0x00FFFFFFFFFFF001) }) ∧
    puts (0x2C0200 + 8 * p) (fun r => { r with errRing := Tab.set 0 r.errRing p (v &&& 0x800FFFFFFFFFF01F) }) ∧
    puts 0x2C0400 (fun r => { r with rsTrap := v &&& 0x00FFFFFFFFFFF001 }) ∧
    puts 0x2C0408 (fun r => { r with rsErr := v &&& 0x800FFFFFFFFFF01F }) ∧
    puts 0x260010 (fun r => { r with domTmo := BitVec.ofNat 32 (v.toNat % 2 ^ 16) }) ∧
    puts 0x2E0010 (fun r => { r with pkgPlim := BitVec.ofNat 32 (v.toNat % 2 ^ 16) }) ∧
    puts 0x2C0508 (fun r => { r with replThr := BitVec.ofNat 32 (v.toNat % 256) }) ∧
    puts (0x288000 + 4 * p) (fun r => { r with pwrPool := Tab.set 0 r.pwrPool p (v.toNat % 4096) }) ∧
    puts 0x260000 (fun r => r) ∧ puts 0x2C0410 (fun r => r) ∧ puts 0x2E0000 (fun r => r) ∧ puts 0x201800 (fun r => r) ∧
    (∀ d x, 1 ≤ d → d ≤ 15 → x < 0x10000000 → (s.die d).link ≠ .up →
      exec (.registerWrite (d * 0x10000000 + x) v) s = .next s))

/-- The systolic array's commands at dispatch: queued with their operands, or the dispatch trap with its condition. [R193,
R194, R199, R201, R203, R204, R205, R207, R209, R210, R211, R214]
Outside a body and an emission a queued command whose condition holds nothing against it enters its queue with its
operands and retires, and waits while the queue is full; a broken condition n is the trap 0x0A with n, the first in
the model's order of log 15. MMUL breaks 1 with no weights, 4 with no open chain, 6 at 131072; CHB 3 on an open chain,
2 for an anchor outside -160 to 127; CHE 4 and 7; VCSET 2 above 128; SHDW 4 and 7; SCMT and SDSC 7. NEST writes a
level of the shadow table, GO makes the table active and begins a capture, QFUSE and QSPLIT make and end a shape of a
drained quadrant without an open chain; each part keeps its banks with the flags of the shape, as logs 71 and 72 read
it. A command that needs a unit the capability table does not count traps, cause 0x04. -/
def Obligations.EngineCommands : Prop :=
  ∀ (s : State) (id q : Nat) (ag : Agent) (x : QuadSt), s.mover = some (id, ag) → ag.profile = .sequencer → q = ag.unit - 192 →
    x = s.quad q → x.gen = none → x.capture = 0 →
    let runs : Instr → Queue → Nat → Cmd → Prop := fun i w cap c =>
      (s.lacks c = true → exec i s = .next (trapHere s id ag 0x04 ag.run.word)) ∧
      (s.lacks c = false →
      (∀ n, s.cmdCond ag.part x.model c = some n → exec i s = .next (trapHere s id ag 0x0A (BitVec.ofNat 64 n))) ∧
      (s.cmdCond ag.part x.model c = none → cap ≤ (x.queue w).length → exec i s = .next (waitFor s id ag .again)) ∧
      (s.cmdCond ag.part x.model c = none → (x.queue w).length < cap →
        ∃ (y : QuadSt) (h : Nat), exec i s = .next (retire (s.putQuad q y) id ag) ∧
          y.queue w = x.queue w ++ [{ cmd := { c with half := h } }] ∧ (∀ v, v ≠ w → y.queue v = x.queue v) ∧
          y.banks = x.banks ∧ y.chains = x.chains ∧ y.rings = x.rings ∧ y.latch = x.latch ∧ y.vc = x.vc ∧ y.tok = x.tok))
    let r : Nat → Word := ag.sGet
    let addr : BitVec 6 → Word → DWord := fun a ctl =>
      if ctl.toNat / 2 ^ 22 % 4 = 1 then (r a.toNat).zeroExtend 64 else if a = 0 ∧ ctl.toNat / 2 ^ 22 % 4 = 0 then 0 else r (a.toNat + 1) ++ r a.toNat
    let open_ : Nat → Bool := fun b => (x.model.bank b).chainOpen
    let shad : Nat → Bool := fun b => (x.model.bank b).shadow
    (∀ (a b : BitVec 6) (c t : BitVec 4),
      runs (.wload a b t) .load 32
        { fn := 0, tok := t, addr := addr a (r b.toNat), ctl := r b.toNat, stride := r (b.toNat + 1),
          desc := ag.dGet ((r b.toNat).toNat / 2 ^ 18 % 16), tag := ag.nextTag } ∧
      runs (.rload a b c t) .load 32
        { fn := 1, tok := t, ring := c.toNat, addr := addr a (r b.toNat), ctl := r b.toNat,
          stride := r (b.toNat + 1), soff := r (b.toNat + 2), desc := ag.dGet ((r b.toNat).toNat / 2 ^ 18 % 16), tag := ag.nextTag } ∧
      runs (.mmul a b c t) .compute 32 { fn := 2, tok := t, ring := a.toNat, imm := b.toNat, bank := c.toNat, tag := ag.nextTag } ∧
      runs (.chb a b c t) .compute 32 { fn := 3, tok := t, anchor := (r a.toNat).toInt, imm := b.toNat, bank := c.toNat, tag := ag.nextTag } ∧
      runs (.che c t) .compute 32 { fn := 4, tok := t, bank := c.toNat, tag := ag.nextTag } ∧
      runs (.accst a b c t) .store 16
        { fn := 5, tok := t, bank := c.toNat, addr := addr a (r b.toNat), ctl := r b.toNat,
          stride := r (b.toNat + 1), desc := ag.dGet ((r b.toNat).toNat / 2 ^ 18 % 16), tag := ag.nextTag } ∧
      runs (.vcset a t) .compute 32 { fn := 8, tok := t, imm := (r a.toNat).toNat, tag := ag.nextTag } ∧
      runs (.shdw c t) .compute 32 { fn := 9, tok := t, bank := c.toNat, tag := ag.nextTag } ∧
      runs (.scmt c t) .compute 32 { fn := 10, tok := t, bank := c.toNat, tag := ag.nextTag } ∧
      runs (.sdsc c t) .compute 32 { fn := 11, tok := t, bank := c.toNat, tag := ag.nextTag }) ∧
    (∀ c : Cmd,
      (c.fn = 2 → s.cmdCond ag.part x.model c = if x.model.nW = 0 then some 1 else if open_ c.bank = false then some 4
        else if (match (x.model.bank c.bank).kind with
          | 1 => decide (x.model.fmt ≠ 1)
          | 2 => decide (x.model.fmt ≠ 0)
          | _ => decide (¬ (2 ≤ x.model.fmt ∧ x.model.fmt ≤ 10 ∨ x.model.fmt = 13))) = true then some 5
        else if 131072 ≤ (x.model.bank c.bank).count then some 6 else none) ∧
      (c.fn = 3 → s.cmdCond ag.part x.model c = if open_ c.bank = true then some 3
        else if c.imm % 4 = 0 ∧ (c.anchor < -160 ∨ 127 < c.anchor) then some 2 else none) ∧
      (c.fn = 4 ∨ c.fn = 9 → s.cmdCond ag.part x.model c = if open_ c.bank = false then some 4
        else if shad c.bank = true then some 7 else none) ∧
      (c.fn = 8 → s.cmdCond ag.part x.model c = if 128 < c.imm then some 2 else none) ∧
      (c.fn = 10 ∨ c.fn = 11 → s.cmdCond ag.part x.model c = if shad c.bank = true then none else some 7)) ∧
    (∀ (a b : BitVec 6) (c : BitVec 4) (n : Nat), n = (r a.toNat).toNat →
      (n = 0 ∨ 65536 < n → exec (.nest a b c) s = .next (trapHere s id ag 0x0A 2)) ∧
      (1 ≤ n → n ≤ 65536 → ∃ (t : Tab NestLevel) (l : NestLevel),
        exec (.nest a b c) s = .next (retire (s.putQuad q { x with shadowNest := t }) id ag) ∧
        Tab.find? t c.toNat = some l ∧ l.count = n ∧ (∀ j, j < 8 → Tab.get 0 l.steps j = r (b.toNat + j)) ∧
        ∀ k, k ≠ c.toNat → Tab.find? t k = Tab.find? x.shadowNest k) ∧
      exec (.go a) s = .next (retire (s.putQuad q { x with activeNest := x.shadowNest, capture := a.toNat, body := [] }) id ag)) ∧
    (x.model.anyOpen = true → exec .qsplit s = .next (trapHere s id ag 0x0A 10)) ∧
    (x.model.anyOpen = false → x.fused = none → exec .qsplit s = .next (retire s id ag)) ∧
    (∀ e, x.model.anyOpen = false → x.fused = some e → x.loadQ = [] → x.compQ = [] → x.storeQ = [] →
      ∃ t : State, exec .qsplit s = .next (retire t id ag) ∧ t.mem = s.mem ∧ (t.quad q).fused = none ∧ (t.quad q).vc = 128 ∧
        (t.quad q).rings = [] ∧ ∀ p ∈ x.parts q, ∀ n, n < 16 → (t.quad p.q).bank n =
          { (s.quad p.q).bank n with sat := (x.parts q).any (fun y => ((s.quad y.q).bank n).sat)
                                     nv := (x.parts q).any (fun y => ((s.quad y.q).bank n).nv) }) ∧
    (∀ (c : BitVec 4), c.toNat ≤ 4 →
      (q % 4 ≠ [0, 2, 0, 1, 0].getD c.toNat 0 → exec (.qfuse c) s = .next (trapHere s id ag 0x0A 9)) ∧
      (q % 4 = [0, 2, 0, 1, 0].getD c.toNat 0 → x.model.anyOpen = false → x.loadQ = [] → x.compQ = [] → x.storeQ = [] →
        (∀ p ∈ edgeParts c.toNat, (s.unit (192 + (q + p.q))).ustate = .reserved ∧ (s.unit (192 + (q + p.q))).leader = 192 + q) →
        ∃ t : State, exec (.qfuse c) s = .next (retire t id ag) ∧ t.mem = s.mem ∧ (t.quad q).fused = some c.toNat ∧
          (t.quad q).vc = 128 ∧ ∀ p ∈ edgeParts c.toNat, (t.quad (q + p.q)).member = some q ∧ (t.quad (q + p.q)).rings = []))

/-- Entries of the array's queues issue and retire, a nest emits, and the arithmetic of an anchored chain. [R75, R93,
R195, R196, R198, R200, R203, R204, R207, R208, R209, R211]
The first entry of a queue that has not issued issues once the tokens that its bits name stand, and pops them, a load
or a store also only after the sequencer's earlier accesses (the order of issues, retirements and effects is log
67's): VCSET sets vc, CHB opens its chain, MMUL adds to its accumulators, CHE closes into the bank, SHDW copies the
chain and SCMT and SDSC end the copy; a WLOAD from own scratchpad stages its 128 x 128 elements, an ACCST its rows and
the flags of its shape, joined as log 71 has it. The head of a queue that has issued retires and pushes its tokens,
and waits while one of their FIFOs holds 16: a WLOAD's tile enters its latch half, an RLOAD's its ring slot, an MMUL
that pops frees one, an ACCST is done when its rows are stored. A nest emits one command an event, its address moved
by each level's index times its signed step, level 0 fastest, and ends after its last iteration. An anchored chain
adds each product truncated toward zero in units of 2 to the anchor minus 96; at its end a sum of 127 bits or more is
clamped and sat is set; a NaN gives the format's NaN and nv. -/
def Obligations.EngineEvents : Prop :=
  (∀ (s : State) (q : Nat) (w : Queue) (x : QuadSt) (ag : Agent) (e : QEnt) (pre post : List QEnt) (ecc : Ecc), x = s.quad q →
    (s.unit (192 + q)).ustate = .running → s.agent? (4096 + q) = some ag → x.queue w = pre ++ e :: post →
    (∀ y ∈ pre, y.issued = true) → e.issued = false →
    let ev : Instr := .engineEntryIssue q w ecc
    let b := e.cmd.bank
    let bit : Nat → Nat → List Nat := fun i f => if e.cmd.tok.getLsbD i then [f] else []
    let pop : List Nat := match w with
      | .load => bit 2 2
      | .compute => bit 0 0 ++ bit 2 3
      | .store => bit 0 1
    let popped : Tab Nat → Prop := fun T => ∀ f, Tab.get 0 T f = Tab.get 0 x.tok f - (if f ∈ pop then 1 else 0)
    ((∃ f ∈ pop, Tab.get 0 x.tok f = 0) → exec ev s = .next s) ∧
    (w ≠ .compute → ((∃ o ∈ ag.opens, o.tag ≤ e.cmd.tag) ∨ ∃ y ∈ (s.unit (192 + q)).slog, y.agent = 4096 + q ∧ y.copy = none ∧
      y.row = false ∧ y.tag ≤ e.cmd.tag) → exec ev s = .next s) ∧
    ((∀ f ∈ pop, Tab.get 0 x.tok f ≠ 0) →
    let earlier : Prop := (∀ o ∈ ag.opens, e.cmd.tag < o.tag) ∧ ∀ y ∈ (s.unit (192 + q)).slog, y.agent = 4096 + q →
      y.copy = none → y.row = false → e.cmd.tag < y.tag
    let done : QuadSt → Prop := fun y => ∃ T : Tab Nat, popped T ∧ exec ev s =
      .next ((s.putQuad q y).putQuad q { y with tok := T, compQ := pre ++ { e with issued := true } :: post })
    let goes : Option DWord → (State → Prop) → Prop := fun err p => ∃ t : State, exec ev s = .next t ∧ t.mem = s.mem ∧
      popped (t.quad q).tok ∧ (t.quad q).compQ = pre ++ { e with issued := true, err := err } :: post ∧ p t
    (w = .compute →
      (e.cmd.fn = 8 → done { x with vc := e.cmd.imm }) ∧
      (e.cmd.fn = 3 → e.cmd.imm < 4 → done
        { x with chains := Tab.put x.chains b { kind := e.cmd.imm, anchor := e.cmd.anchor } }) ∧
      (e.cmd.fn = 2 → s.mmulReady q x e.cmd = true →
        goes (if (s.mmulRun q x e.cmd).2 then none else some (pairFault e.cmd)) (fun t =>
          ((t.quad q).chain b).shadow = (x.chain b).shadow.map (fun _ => (s.mmulRun q x e.cmd).1) ∧
          ((t.quad q).chain b).work = if (x.chain b).shadow.isSome then (x.chain b).work else (s.mmulRun q x e.cmd).1)) ∧
      (e.cmd.fn = 4 → x.fused = none → goes e.err (fun t => Tab.find? (t.quad q).chains b = none ∧
        ((t.quad q).bank b).fp64 = ((x.chain b).kind == 2) ∧ ((t.quad q).bank b).rows = x.vc ∧
        ∀ m n, m < x.vc → m < 128 → n < 128 → Tab.get 0 ((t.quad q).bank b).el (256 * m + n) =
          (finishAcc (x.chain b).kind (x.chain b).anchor (Tab.get {} (x.chain b).work (256 * m + n))).1)) ∧
      (e.cmd.fn = 9 → goes e.err (fun t => ((t.quad q).chain b).shadow = some (x.chain b).work ∧
        ((t.quad q).chain b).work = (x.chain b).work ∧
        ((t.quad q).chain b).fsat = (x.parts q).any (fun p => ((s.quad p.q).bank b).sat) ∧
        ((t.quad q).chain b).fnv = (x.parts q).any (fun p => ((s.quad p.q).bank b).nv))) ∧
      (e.cmd.fn = 10 → goes e.err (fun t => ((t.quad q).chain b).shadow = none ∧
        ((t.quad q).chain b).work = (x.chain b).shadow.getD (x.chain b).work ∧
        ((t.quad q).bank b).sat = (x.chain b).fsat ∧ ((t.quad q).bank b).nv = (x.chain b).fnv)) ∧
      (e.cmd.fn = 11 → goes e.err (fun t => ((t.quad q).chain b).shadow = none ∧ ((t.quad q).chain b).work = (x.chain b).work ∧
        (t.quad q).banks = x.banks))) ∧
    (w = .load → e.cmd.fn = 0 → x.fused = none → earlier → (∀ y ∈ x.compQ, y.cmd.fn ≠ 2) → e.cmd.kind = 1 → e.cmd.bits = 8 →
      (∀ o, s.enginePlot (192 + q) o 1 = none) → e.cmd.addr.toNat + 127 * e.cmd.stride.toNat + 128 ≤ 0x1000000 →
      ∃ (T : Tile) (K : Tab Nat), popped K ∧ exec ev s = .next ((s.putQuad q x).putQuad q
          { x with tok := K, loadQ := pre ++ { e with issued := true, stage := some T, err := none } :: post }) ∧
        T.fmt = e.cmd.fmt ∧ T.xs = e.cmd.ctl.toNat / 2 ^ 24 ∧
        ∀ m n, m < 128 → n < 128 → Tab.get 0 T.el (256 * m + n) =
          (s.homeByte (spadBase (192 + q) + (e.cmd.addr.toNat + m * e.cmd.stride.toNat + n))).toNat) ∧
    (w = .store → e.cmd.fn = 5 → earlier → (∀ o, s.enginePlot (192 + q) o 1 = none) →
      ∃ (t : State) (T : Tile), exec ev s = .next t ∧ t.mem = s.mem ∧ popped (t.quad q).tok ∧
        (t.quad q).storeQ = pre ++ { e with
          issued := true
          stage := some T
          rows := (x.bank b).rows
          flags := (if (x.parts q).any (fun p => ((s.quad p.q).bank b).sat) then 1 else 0) +
            (if (x.parts q).any (fun p => ((s.quad p.q).bank b).nv) then 2 else 0) } :: post ∧
        (e.cmd.fl = true → ∀ p ∈ x.parts q, ((t.quad p.q).bank b).sat = false ∧ ((t.quad p.q).bank b).nv = false) ∧
        (e.cmd.fl = false → (t.quad q).banks = x.banks)))) ∧
  (∀ (s : State) (q : Nat) (w : Queue) (x : QuadSt) (e : QEnt) (rest : List QEnt), x = s.quad q → x.queue w = e :: rest →
    e.issued = true → e.cmd.fn ≠ 5 ∨ e.rows = 0 ∧ e.cmd.fl = false →
    let ev : Instr := .engineEntryRetire q w
    let bit : Nat → Nat → List Nat := fun i f => if e.cmd.tok.getLsbD i then [f] else []
    let push : List Nat := match w with
      | .load => bit 1 0
      | .compute => bit 1 1 ++ bit 3 2
      | .store => bit 3 3
    ((∃ f ∈ push, 16 ≤ Tab.get 0 x.tok f) → ∃ t : State, exec ev s = .next t ∧ t.mem = s.mem ∧ t.agents = s.agents ∧ t.quad q = x) ∧
    ((∀ f ∈ push, Tab.get 0 x.tok f < 16) → ∃ t : State, exec ev s = .next t ∧ (t.quad q).queue w = rest ∧
      (e.cmd.fn ≠ 1 → t.mem = s.mem) ∧ (∀ f, Tab.get 0 (t.quad q).tok f = Tab.get 0 x.tok f + (if f ∈ push then 1 else 0)) ∧
      (∀ ag v, e.cmd.fn ≠ 1 → s.agent? (4096 + q) = some ag → e.err = some v → ag.tcause.getLsbD 17 = false →
        t.agent? (4096 + q) = some { ag with tcause := ag.tcause ||| 0x20000, engVal := v }) ∧
      (w = .load → e.cmd.fn = 0 → (t.quad q).nW = e.cmd.half ∧
        Tab.find? (t.quad q).latch ((e.cmd.half + 1) % 2) = some (e.stage.getD {}) ∧ (t.quad q).banks = x.banks) ∧
      (w = .load → e.cmd.fn = 1 → ((t.quad q).ring e.cmd.ring).tail = ((x.ring e.cmd.ring).tail + 1) % 16 ∧
        ((t.quad q).ring e.cmd.ring).count = (x.ring e.cmd.ring).count + 1 ∧
        Tab.find? ((t.quad q).ring e.cmd.ring).slots (x.ring e.cmd.ring).tail = some { e.stage.getD {} with el := [] }) ∧
      (w = .compute → e.cmd.fn = 2 → e.cmd.imm = 0 → ((t.quad q).ring e.cmd.ring).head = ((x.ring e.cmd.ring).head + 1) % 16 ∧
        ((t.quad q).ring e.cmd.ring).count = (x.ring e.cmd.ring).count - 1))) ∧
  (∀ (s : State) (q : Nat) (w : Queue) (es : List QEnt) (e : QEnt), (s.quad q).queue w = e :: es → e.issued = false →
    exec (.engineEntryRetire q w) s = .next s) ∧
  (∀ (s : State) (q : Nat) (x : QuadSt) (idx : List Nat) (j : Nat), x = s.quad q → (s.unit (192 + q)).ustate = .running →
    x.gen = some (idx, j) → idx.length = 6 → j < x.body.length →
    let c := x.body.getD j {}
    let count : Nat → Nat := fun l => (nestLevel x.activeNest l).count
    let S : (Word → Int) → Int := fun f =>
      ((List.range 6).map (fun l => (idx.getD l 0 : Int) * f (Tab.get 0 (nestLevel x.activeNest l).steps j))).sum
    let e : Cmd := { c with
      tag := ((s.agent? (4096 + q)).map (fun ag => ag.nextTag)).getD 0
      addr := if c.fn = 2 then c.addr
        else if c.kind = 1 then (c.addr.extractLsb' 0 32 + BitVec.ofInt 32 (S BitVec.toInt)).zeroExtend 64
        else if c.kind = 2 then (c.addr.extractLsb' 32 32 + BitVec.ofInt 32 (S (fun w => (w.extractLsb' 16 16).toInt))) ++
          (c.addr.extractLsb' 0 32 + BitVec.ofInt 32 (S (fun w => (w.extractLsb' 0 16).toInt)))
        else c.addr + BitVec.ofInt 64 (S BitVec.toInt) }
    let goes : Option (List Nat × Nat) → Prop := fun G => ∀ y, x.enqueue e = some y →
      exec (.nestEmit q) s = .next (s.putQuad q { y with gen := G, body := if G.isNone then [] else x.body })
    (x.enqueue e = none → exec (.nestEmit q) s = .next s) ∧ (j + 1 < x.body.length → goes (some (idx, j + 1))) ∧
    (j + 1 = x.body.length → ((∀ l, l < 6 → count l ≤ idx.getD l 0 + 1) → goes none) ∧
      ∀ l, l < 6 → idx.getD l 0 + 1 < count l → (∀ i, i < l → count i ≤ idx.getD i 0 + 1) →
        goes (some (List.replicate l 0 ++ (idx.getD l 0 + 1) :: idx.drop (l + 1), 0)))) ∧
  (∀ (anchor : Int) (a : Acc) (neg : Bool) (m d : Nat),
    accumulate 0 anchor a (.fin neg m (anchor - 96 + d)) = { a with sum := a.sum + (if neg then -1 else 1) * ((m * 2 ^ d : Nat) : Int) } ∧
    accumulate 0 anchor a (.fin neg m (anchor - 96 - d)) = { a with sum := a.sum + (if neg then -1 else 1) * ((m / 2 ^ d : Nat) : Int) } ∧
    accumulate 0 anchor a (.nan neg) = { a with spec := .nan } ∧
    accumulate 0 anchor { a with spec := .inf (!neg) } (.inf neg) = { a with spec := .nan } ∧
    (finishAcc 0 anchor { a with spec := .nan }).2 = (false, true) ∧
    (finishAcc 0 anchor { a with spec := .inf neg }).2 = (false, false) ∧
    (-(2 ^ 127) < a.sum → a.sum < 2 ^ 127 → (finishAcc 0 anchor { a with spec := .none }).2 = (false, false)) ∧
    (2 ^ 127 ≤ a.sum ∨ a.sum ≤ -(2 ^ 127) → (finishAcc 0 anchor { a with spec := .none }).2 = (true, false)))

/-- A policy operation acts on the registers of its decision, spends its cycles and goes to the next index or the branch
target. [R328, R334, R335, R336, R337, R339]
While the budget covers its cycles, an operation of the engine's turn writes its destination with the value of R336
(arithmetic modulo 2^32, unsigned comparisons), leaves the other registers, the event and the snapshot, spends its
cycles and goes on to the next index; a taken branch goes to index + off at 2 cycles. RQF and RUF read the snapshot's
records. A scan takes the records that are valid and whose flags hold every bit of qa, and gives the lowest index of
the least or greatest field, or all ones. LDP and STP read and write the persistent words. With too little budget left
the fallback decides and n_over counts. -/
def Obligations.PolicyOperations : Prop :=
  ∀ (s : State) (p : Nat) (x : Decision),
    let q : BitVec 3 → Nat := fun r => (Tab.get 0 x.q r.toNat).toNat
    let writes : Instr → Nat → BitVec 3 → Nat → Prop := fun i n d v =>
      (s.Decides p x n → ∃ y : Decision, exec i s = .next (s.putPol p { s.pol p with dec := some y }) ∧
        (∀ r : BitVec 3, (Tab.get 0 y.q r.toNat).toNat = if r = d then v else q r) ∧ y.pc = x.pc + 1 ∧ y.cyc = x.cyc + n ∧
        y.ev = x.ev ∧ y.snapQ = x.snapQ ∧ y.snapU = x.snapU) ∧
      (s.cur = .policy p → (s.pol p).dec = some x → s.budget p < x.cyc + n →
        exec i s = .next (((s.polCount p 1).endDec p).fallback p x.ev))
    let goes : Instr → Nat → Nat → Prop := fun i n k => s.Decides p x n →
      exec i s = .next (s.putPol p { s.pol p with dec := some { x with pc := x.pc + k, cyc := x.cyc + n } })
    let field : Tab (List Word) → Nat → Nat → Nat := fun t i f => (nth 0 (Tab.get [] t i) f).toNat
    let scan : Instr → Nat → BitVec 3 → BitVec 3 → BitVec 3 → Tab (List Word) → Bool → Prop := fun i n d a f t most =>
      let fits : Nat × List Word → Prop := fun e => (nth 0 e.2 7).getLsbD 0 = true ∧ nth 0 e.2 7 &&& Tab.get 0 x.q a.toNat = Tab.get 0 x.q a.toNat
      let beats : Nat × List Word → Nat × List Word → Prop := fun u v =>
        if most then (nth 0 v.2 f.toNat).toNat < (nth 0 u.2 f.toNat).toNat else (nth 0 u.2 f.toNat).toNat < (nth 0 v.2 f.toNat).toNat
      ((∀ e ∈ t, ¬ fits e) → writes i n d (2 ^ 32 - 1)) ∧
      (∀ (pre post : Tab (List Word)) (e : Nat × List Word), t = pre ++ e :: post → fits e → e.1 < 2 ^ 32 →
        (∀ u ∈ pre, fits u → beats e u) → (∀ u ∈ post, fits u → ¬ beats u e) → writes i n d e.1)
    (∀ (d a b : BitVec 3) (i8 : BitVec 8) (i5 : BitVec 5),
      writes (.polLdi d i8) 1 d i8.toNat ∧
      writes (.polLdih d i8) 1 d ((q d * 256) % 2 ^ 32 + i8.toNat) ∧
      writes (.polAdd d a b) 1 d ((q a + q b) % 2 ^ 32) ∧
      writes (.polSub d a b) 1 d ((2 ^ 32 + q a - q b) % 2 ^ 32) ∧
      writes (.polAnd d a b) 1 d (q a &&& q b) ∧
      writes (.polOr d a b) 1 d (q a ||| q b) ∧
      writes (.polXor d a b) 1 d (q a ^^^ q b) ∧
      writes (.polMinu d a b) 1 d (min (q a) (q b)) ∧
      writes (.polMaxu d a b) 1 d (max (q a) (q b)) ∧
      writes (.polShl d a i5) 1 d ((q a * 2 ^ i5.toNat) % 2 ^ 32) ∧
      writes (.polShr d a i5) 1 d (q a / 2 ^ i5.toNat) ∧
      writes (.polAddi d a i5) 1 d ((q a + (if i5.toNat < 16 then i5.toNat else 2 ^ 32 - 32 + i5.toNat)) % 2 ^ 32) ∧
      writes (.polRqf d a b) 2 d (field x.snapQ (q a) b.toNat) ∧
      writes (.polRuf d a b) 2 d (field x.snapU (q a) b.toNat) ∧
      scan (.polArgminq d a b) 12 d a b x.snapQ false ∧
      scan (.polArgmaxq d a b) 12 d a b x.snapQ true ∧
      scan (.polArgminu d a b) 34 d a b x.snapU false ∧
      scan (.polArgmaxu d a b) 34 d a b x.snapU true ∧
      writes (.polLdp d b) 2 d (Tab.get 0 (s.pol p).pm b.toNat).toNat) ∧
    (∀ (a b : BitVec 3) (off : BitVec 5),
      (q a = q b → goes (.polBeq a b off) 2 off.toNat ∧ goes (.polBne a b off) 1 1) ∧
      (q a ≠ q b → goes (.polBeq a b off) 1 1 ∧ goes (.polBne a b off) 2 off.toNat) ∧
      (q a < q b → goes (.polBltu a b off) 2 off.toNat ∧ goes (.polBgeu a b off) 1 1) ∧
      (q b ≤ q a → goes (.polBltu a b off) 1 1 ∧ goes (.polBgeu a b off) 2 off.toNat)) ∧
    (∀ a n : BitVec 3, s.Decides p x 2 → ∃ t : Tab Word,
      exec (.polStp a n) s = .next (s.putPol p { s.pol p with dec := some { x with pc := x.pc + 1, cyc := x.cyc + 2 }, pm := t }) ∧
      ∀ m : BitVec 3, (Tab.get 0 t m.toNat).toNat = if m = n then q a else (Tab.get 0 (s.pol p).pm m.toNat).toNat)

/-- A DEC ends the decision: checked, counted and applied, or replaced by the fallback; events start decisions, overrun
and end slices. [R328, R329, R338, R339, R340, R341, R342, R376]
A decision whose kind the entry point does not allow, or that names a record that is not valid, is counted in n_rej
and the fallback decides; KEEP is allowed at entry 1, KILL, RESUME, NOTIFY and SUSPEND at entry 2, and each is counted
in n_dec and applied: KILL ends the job, RESUME changes nothing, NOTIFY traps the job's agents, SUSPEND pre-empts its
groups. PREEMPT of a unit that is pre pre-empts it; a PICK of trigger 0 sends the next group of the queue's launch to
its unit, of 1 starts the head record of its task queue in the lowest free slot, of 2 moves its victim's head record
or, with all ones, gives STEAL status 1, of 3 places its fire on the die. DEC FALLBACK counts nothing. The next event
loads q0 to q3 and a snapshot, four partitions at once; without a program the fallback decides. The fallback of a
fault is KILL. An overrun counts n_over. A slice that ends raises its event, and the next begins then (log 95). -/
def Obligations.PolicyDecisions : Prop :=
  ∀ (s : State) (p : Nat),
    (∀ (x : Decision) (a b : BitVec 3), s.Decides p x 1 →
      let e := x.ev
      let va : Word := Tab.get 0 x.q a.toNat
      let vb : Word := Tab.get 0 x.q b.toNat
      let done : State := (s.polCount p 0).endDec p
      let rejects : Instr → Prop := fun i => exec i s = .next (((s.polCount p 2).endDec p).fallback p e)
      let absent : Word → Prop := fun u => 223 < u.toNat ∨ (s.unit u.toNat).holder ≠ some p ∨ s.unitUp u.toNat = false
      (e.entry ≠ 0 → rejects (.polDecPick a b)) ∧
      (e.entry ≠ 1 → rejects (.polDecKeep a b) ∧ rejects (.polDecPreempt a b)) ∧
      (e.entry ≠ 2 → rejects (.polDecKill a b) ∧ rejects (.polDecResume a b) ∧ rejects (.polDecNotify a b) ∧
        rejects (.polDecSuspend a b)) ∧
      (e.entry = 0 → e.trig ≠ 2 → absent vb → rejects (.polDecPick a b)) ∧
      (e.entry = 0 → e.trig = 0 → va.toNat < 64 ∨ 79 < va.toNat → rejects (.polDecPick a b)) ∧
      (e.entry = 0 → e.trig = 1 → 63 < va.toNat ∨ vb ≠ e.q1 → rejects (.polDecPick a b)) ∧
      (e.entry = 0 → e.trig = 2 → vb = e.q1 → vb ≠ 0xFFFFFFFF → rejects (.polDecPick a b)) ∧
      (e.entry = 0 → e.trig = 2 → vb = 0xFFFFFFFF → exec (.polDecPick a b) s = .next (done.pick2 e vb)) ∧
      (∀ l : Launch, e.entry = 0 → e.trig = 0 → s.pickable p va.toNat = some l → s.pickOk l vb.toNat = true → ¬ absent vb →
        (∀ i ∈ s.served0 p, s.starveNs p = 0 ∨ s.queueWait p i < s.starveNs p) →
        exec (.polDecPick a b) s = .next ((done.dispatch l vb.toNat).dueReset p) ∧
        (l.sync ≤ 1 → s.savedOf l = [] → s.launch? l.id = some l → l.kind = 2 ∨ l.seek (l.planePoints + 1) l.walk ≠ none → ∃ (t : State) (k : Packet), exec (.polDecPick a b) s = .next t ∧
          t.hub.packets = s.hub.packets ++ [k] ∧ k.launch = l.id ∧ k.dest = vb.toNat ∧ k.ord = l.next ∧
          k.pkind = if l.kind = 2 then 1 else 0)) ∧
      (e.entry = 0 → e.trig = 1 → va.toNat < 64 → s.tqReady p va.toNat = true → vb = e.q1 → ¬ absent vb → vb.toNat < 192 →
        s.taskSlot vb.toNat = true → (∀ i ∈ s.served1 p, s.starveNs p = 0 ∨ s.queueWait p i < s.starveNs p) →
        ∃ (t : State) (g : Nat) (y : Agent), exec (.polDecPick a b) s = .next t ∧ g < (s.unit vb.toNat).waves ∧
          s.agent? (16 * vb.toNat + g) = none ∧ t.agent? (16 * vb.toNat + g) = some y ∧
          (∀ i, i < g → s.agent? (16 * vb.toNat + i) ≠ none) ∧
          Tab.get 0 t.rot.tqHead (64 * p + va.toNat) = Tab.get 0 s.rot.tqHead (64 * p + va.toNat) + 1 ∧
          y.run.pc.toNat = leVal ((s.pkReadN 0 ((s.tqReg p va.toNat).toNat / 2 ^ 12 % 2 ^ 40 * 4096 +
            32 * (Tab.get 0 s.rot.tqHead (64 * p + va.toNat) % tqCap (s.tqReg p va.toNat))) 32).take 8)) ∧
      (∀ ag r rest, e.entry = 0 → e.trig = 2 → vb ≠ 0xFFFFFFFF → ¬ absent vb → vb.toNat < 192 → vb ≠ e.q1 → s.agent? e.who = some ag →
        ag.wait = .steal none → vb.toNat ≠ ag.unit → s.taskGroup vb.toNat ag.launch = true → (s.unit vb.toNat).deque = r :: rest →
        (s.unit ag.unit).deque.length < 64 → ∃ t : State, exec (.polDecPick a b) s = .next t ∧ (t.unit vb.toNat).deque = rest ∧
          (t.unit ag.unit).deque = (s.unit ag.unit).deque ++ [r] ∧ t.agent? e.who = some { ag with wait := .steal (some 0) }) ∧
      (∀ f c, e.entry = 0 → e.trig = 3 → ¬ absent vb → vb.toNat < 192 → e.q1.getLsbD (vb.toNat / 48) = true → c < 48 →
        s.hub.fires.find? (fun y => y.id == e.who) = some f → s.taskGroup (48 * (vb.toNat / 48) + c) f.launch = true →
        (s.unit (48 * (vb.toNat / 48) + c)).deque.length < 64 →
        (∀ i, i < c → s.taskGroup (48 * (vb.toNat / 48) + i) f.launch = false ∨ 64 ≤ (s.unit (48 * (vb.toNat / 48) + i)).deque.length) →
        ∃ t : State, exec (.polDecPick a b) s = .next t ∧ t.hub.fires = s.hub.fires.filter (fun y => y.id != e.who) ∧
          (t.unit (48 * (vb.toNat / 48) + c)).deque = (s.unit (48 * (vb.toNat / 48) + c)).deque ++ [f.task]) ∧
      (e.entry = 1 → exec (.polDecKeep a b) s = .next done) ∧
      (e.entry = 1 → absent va ∨ (s.unit va.toNat).ustate ≠ .running → rejects (.polDecPreempt a b)) ∧
      (e.entry = 1 → ¬ absent va → (s.unit va.toNat).ustate = .running →
        exec (.polDecPreempt a b) s = .next (done.preempt va.toNat)) ∧
      (e.entry = 2 → exec (.polDecResume a b) s = .next done) ∧
      (e.entry = 2 → e.q3 ≠ 0xFFFFFFFF → exec (.polDecKill a b) s = .next (done.killLaunch e.who) ∧
        exec (.polDecNotify a b) s = .next (done.notifyJob e) ∧ exec (.polDecSuspend a b) s = .next (done.suspendJob e)) ∧
      (e.entry = 2 → e.q3 = 0xFFFFFFFF → exec (.polDecKill a b) s = .next done ∧ exec (.polDecNotify a b) s = .next done ∧
        exec (.polDecSuspend a b) s = .next done) ∧
      exec (.polDecFallback a b) s = .next ((s.endDec p).fallback p e)) ∧
    (∀ (e : PolEvent), e.entry = 2 → s.fallback p e = if e.q3 = 0xFFFFFFFF then s else s.killLaunch e.who) ∧
    (∀ (e : PolEvent) (r : List PolEvent), (s.pol p).ovf = [] → (s.pol p).dec = none → (s.pol p).evq = e :: r →
      (s.polRuns p = false → exec (.policyDecisionStart p) s = .next ((s.putPol p { s.pol p with evq := r }).fallback p e)) ∧
      (s.polRuns p = true → 4 ≤ (s.hub.pol.filter (fun (x : Nat × Pol) => x.2.dec.isSome)).length →
        exec (.policyDecisionStart p) s = .next s) ∧
      (s.polRuns p = true → (s.hub.pol.filter (fun (x : Nat × Pol) => x.2.dec.isSome)).length < 4 → ∃ x : Decision,
        exec (.policyDecisionStart p) s = .next (s.putPol p { s.pol p with evq := r, dec := some x }) ∧
        x.ev = e ∧ x.pc = 0 ∧ x.cyc = 0 ∧ (Tab.get 0 x.q 0).toNat = e.entry % 4 * 256 + e.trig % 256 ∧ Tab.get 0 x.q 1 = e.q1 ∧
        Tab.get 0 x.q 2 = e.q2 ∧ Tab.get 0 x.q 3 = e.q3 ∧ (∀ k, 4 ≤ k → Tab.get 0 x.q k = 0) ∧
        (∀ i f, i < 80 → nth 0 (Tab.get [] x.snapQ i) f = nth 0 (s.queueRec p i) f) ∧
        (∀ i f, i < 224 → nth 0 (Tab.get [] x.snapU i) f = nth 0 (s.unitRec p i) f))) ∧
    (∀ x : Decision, (s.pol p).dec = some x →
      (s.budget p < x.cyc + s.nextCost p x → exec (.budgetOverrun p) s = .next (((s.polCount p 1).endDec p).fallback p x.ev)) ∧
      (x.cyc + s.nextCost p x ≤ s.budget p → exec (.budgetOverrun p) s = .next s)) ∧
    (∀ u : Nat, let x := s.unit u
      (x.ustate = .running → x.sliceAt.toNat + s.sliceNs x.part ≤ s.ntime.toNat →
      exec (.sliceEnd u) s = .next ((s.putUnit u { x with sliceAt := s.ntime }).raiseEvent x.part
        { entry := 1, trig := 0, q1 := BitVec.ofNat 32 u, q3 := 0 })) ∧
      (s.ntime.toNat < x.sliceAt.toNat + s.sliceNs x.part → exec (.sliceEnd u) s = .next s))

/-- SHL, SHR and SAR take the whole count, ROL modulo 32; SEL selects by the old destination; BFX takes and BFI inserts a
bit field. [R152, R153, R154]
The count n is the whole unsigned 32-bit value of b: SHL gives a times 2^n modulo 2^32 (0 from 32 on), SHR the floor
of a divided by 2^n (0 from 32 on), SAR the floor of the signed a divided by 2^n (the sign from 32 on); ROL rotates
left by n modulo 32. With p = b[4:0] and w = min(b[12:8] + 1, 32 - p): BFX writes the w bits of a from bit p, sign-
extended from bit w - 1 where b[16] is 1; BFI replaces bits p to p + w - 1 of the old s[D] by the low w bits of a; SEL
writes a where the old s[D] is not zero, else b. Each writes s[D], sets no flag and retires. -/
def Obligations.ScalarShiftsAndFields : Prop :=
  (∀ (s : State) (id : Nat) (ag : Agent) (g : BitVec 2) (d : BitVec 6) (a b : Src) (x : Word) (n : Nat),
    s.mover = some (id, ag) → ag.Issues g → x = ag.src a → n = (ag.src b).toNat →
    let done : Word → Out := fun w => .next (retire s id (ag.sSet d.toNat w))
    exec (.shl g d a b) s = done (if n < 32 then BitVec.ofNat 32 (x.toNat * 2 ^ n) else 0) ∧
    exec (.shr g d a b) s = done (if n < 32 then BitVec.ofNat 32 (x.toNat / 2 ^ n) else 0) ∧
    exec (.sar g d a b) s =
      done (if n < 32 then BitVec.ofInt 32 (x.toInt / 2 ^ n) else if x.getLsbD 31 then 0xFFFFFFFF else 0) ∧
    exec (.rol g d a b) s =
      done (BitVec.ofNat 32 (x.toNat * 2 ^ (n % 32) + x.toNat / 2 ^ (32 - n % 32)))) ∧
  ((∀ (s : State) (id : Nat) (ag : Agent) (g : BitVec 2) (d : BitVec 6) (a b : Src) (x y : Word) (p w f : Nat),
    s.mover = some (id, ag) → ag.Issues g → x = ag.src a → y = ag.src b →
    p = y.toNat % 32 → w = min (y.toNat / 256 % 32 + 1) (32 - p) → f = x.toNat / 2 ^ p % 2 ^ w →
    let old := ag.sGet d.toNat
    let done : Word → Out := fun r => .next (retire s id (ag.sSet d.toNat r))
    exec (.sel g d a b) s = done (if old ≠ 0 then x else y) ∧
    exec (.bfx g d a b) s =
      done (if y.getLsbD 16 ∧ 2 ^ (w - 1) ≤ f then BitVec.ofInt 32 ((f : Int) - 2 ^ w) else BitVec.ofNat 32 f) ∧
    exec (.bfi g d a b) s =
      done (BitVec.ofNat 32 (old.toNat - old.toNat / 2 ^ p % 2 ^ w * 2 ^ p + x.toNat % 2 ^ w * 2 ^ p))) ∧
  decode [0x8605, 0xBFE3, 0x0704, 0x0001] = .ok (.bfx 0 3 (.reg 7) (.lit 0x00010704)))

/-- Rounding to FP32 in RNE, RZ, RU and RD with its flags; VFCMP, the minima and maxima, VFABS, VFNEG and VFCLASS with nv.
[R84, R88, R89, R177, R178, R180]
For a value x = (-1)^n m 2^e rounded to FP32: of is set exactly when the rounded magnitude exceeds the largest finite
value, and then the result is an infinity or the largest value as the mode says; otherwise no finite value lies nearer
(RNE), further from zero without passing x (RZ), lower while not below x (RU), higher while not above x (RD); nx is
set exactly when the result differs. In a wave's active lanes VFCMP writes predicate bits, minima and maxima one
operand unchanged, VFABS clears and VFNEG inverts bit 31, VFCLASS sets one bit. Without ftz, for operands that are no
NaN the conditions are those of the values, with -0 = +0, and no flag; with a NaN only ne and un hold, nv set by lt,
le, gt, ge always and by the others for a signalling NaN; a minimum orders -0 below +0, takes the other operand of one
NaN and the canonical NaN of two. -/
def Obligations.FloatRoundingAndCompare : Prop :=
  (∀ (n : Bool) (m : Nat) (e : Int) (mode dr : Nat), mode ≤ 3 →
    let val : FVal → Rat := fun v => match v with
      | .fin n m e => (if n then -1 else 1) * (m : Rat) * (2 : Rat) ^ e
      | _ => 0
    let x : Rat := val (.fin n m e)
    let r := roundTo .fp32 mode dr (.fin n m e)
    let away : Prop := (mode = 2 ∧ n = false) ∨ (mode = 3 ∧ n = true)
    let big : Prop :=
      if mode = 0 then (2 : Rat) ^ 128 - (2 : Rat) ^ 103 ≤ |x|
      else if away then (2 : Rat) ^ 128 - (2 : Rat) ^ 104 < |x| else (2 : Rat) ^ 128 ≤ |x|
    (big → r = ((if n then 2 ^ 31 else 0) + (if mode = 0 ∨ away then 0x7F800000 else 0x7F7FFFFF), 5)) ∧
    (¬ big →
      (Fmt.fp32.decode r.1).isNan = false ∧ (Fmt.fp32.decode r.1).isInf = false ∧ r.2.getLsbD 2 = false ∧
      (r.2.getLsbD 0 = true ↔ val (Fmt.fp32.decode r.1) ≠ x) ∧
      ∀ c : Nat, (Fmt.fp32.decode c).isNan = false → (Fmt.fp32.decode c).isInf = false →
        let z := val (Fmt.fp32.decode c)
        let y := val (Fmt.fp32.decode r.1)
        (mode = 0 → |x - y| ≤ |x - z|) ∧
        (mode = 1 → |y| ≤ |x| ∧ (|z| ≤ |x| → |z| ≤ |y|)) ∧
        (mode = 2 → x ≤ y ∧ (x ≤ z → y ≤ z)) ∧
        (mode = 3 → y ≤ x ∧ (z ≤ x → z ≤ y)))) ∧
  ((∀ (s : State) (id : Nat) (ag : Agent) (g : BitVec 2) (d : BitVec 6) (a b : Src),
    s.mover = some (id, ag) → ag.profile = .wave →
    let act := ag.active g
    let cmp : FCond → Bool → Out := fun c dbl =>
      let r : Nat → Bool × Fl := fun l =>
        if dbl then fCompare .fp64 c ag.ftz (ag.vsrcD a l).toNat (ag.vsrcD b l).toNat
        else fCompare .fp32 c ag.ftz (ag.vsrc a l).toNat (ag.vsrc b l).toNat
      .next (retire s id ((ag.kSet d.toNat act (maskOf (fun l => (r l).1))).orFlags (orLanes act (fun l => (r l).2))))
    (∀ dbl : Bool,
      exec (.vfcmpEq dbl g d a b) s = cmp .eq dbl ∧ exec (.vfcmpNe dbl g d a b) s = cmp .ne dbl ∧
      exec (.vfcmpLt dbl g d a b) s = cmp .lt dbl ∧ exec (.vfcmpLe dbl g d a b) s = cmp .le dbl ∧
      exec (.vfcmpGt dbl g d a b) s = cmp .gt dbl ∧ exec (.vfcmpGe dbl g d a b) s = cmp .ge dbl ∧
      exec (.vfcmpUn dbl g d a b) s = cmp .un dbl ∧ exec (.vfcmpOrd dbl g d a b) s = cmp .ord dbl) ∧
    (∀ big : Bool,
      exec (if big then .vfmax g d a b else .vfmin g d a b) s =
        .next (retire s id (ag.putF d.toNat act (fun l => fMinMax .fp32 big ag.ftz (ag.vsrc a l).toNat (ag.vsrc b l).toNat))) ∧
      exec (if big then .vdmax g d a b else .vdmin g d a b) s =
        .next (retire s id (ag.putD d.toNat act (fun l => fMinMax .fp64 big ag.ftz (ag.vsrcD a l).toNat (ag.vsrcD b l).toNat)))) ∧
    (∀ x : Nat → Nat, (∀ l, x l = Fmt.fp32.flushIn ag.ftz (ag.vsrc a l).toNat) →
      let done : (Nat → Nat) → Out := fun f => .next (retire s id (ag.vSet d.toNat act (fun l => BitVec.ofNat 32 (f l))))
      exec (.vfabs g d a) s = done (fun l => x l % 2 ^ 31) ∧
      exec (.vfneg g d a) s = done (fun l => (x l + 2 ^ 31) % 2 ^ 32) ∧
      exec (.vfclass g d a) s = done (fun l =>
        let sg := x l / 2 ^ 31 = 1
        let ex := x l / 2 ^ 23 % 256
        let fr := x l % 2 ^ 23
        2 ^ (if ex = 255 then (if fr = 0 then (if sg then 0 else 7) else if 2 ^ 22 ≤ fr then 9 else 8)
          else if ex = 0 then (if fr = 0 then (if sg then 3 else 4) else (if sg then 2 else 5))
          else (if sg then 1 else 6))))) ∧
  (∀ (f : Fmt) (x y : Nat), f = .fp32 ∨ f = .fp64 →
    let key : FVal → Rat := fun v => match v with
      | .fin n m e => (if n then -1 else 1) * (m : Rat) * (2 : Rat) ^ e
      | .inf n => if n then -(2 : Rat) ^ 2000 else (2 : Rat) ^ 2000
      | .nan _ => 0
    let u := f.decode x
    let v := f.decode y
    let sig : Fl := if u.isSig = true ∨ v.isSig = true then 16 else 0
    (u.isNan = false → v.isNan = false →
      fCompare f .eq false x y = (decide (key u = key v), 0) ∧ fCompare f .ne false x y = (decide (key u ≠ key v), 0) ∧
      fCompare f .lt false x y = (decide (key u < key v), 0) ∧ fCompare f .le false x y = (decide (key u ≤ key v), 0) ∧
      fCompare f .gt false x y = (decide (key v < key u), 0) ∧ fCompare f .ge false x y = (decide (key v ≤ key u), 0) ∧
      fCompare f .un false x y = (false, 0) ∧ fCompare f .ord false x y = (true, 0) ∧
      fMinMax f false false x y =
        (if key v < key u ∨ (key v = key u ∧ v.neg = true ∧ u.neg = false) then y else x, 0) ∧
      fMinMax f true false x y =
        (if key u < key v ∨ (key u = key v ∧ u.neg = true ∧ v.neg = false) then y else x, 0)) ∧
    (u.isNan = true ∨ v.isNan = true →
      fCompare f .eq false x y = (false, sig) ∧ fCompare f .ne false x y = (true, sig) ∧
      fCompare f .lt false x y = (false, 16) ∧ fCompare f .le false x y = (false, 16) ∧
      fCompare f .gt false x y = (false, 16) ∧ fCompare f .ge false x y = (false, 16) ∧
      fCompare f .un false x y = (true, sig) ∧ fCompare f .ord false x y = (false, sig) ∧
      ∀ big : Bool, fMinMax f big false x y =
        (if u.isNan = true ∧ v.isNan = true then f.nanBits else if u.isNan = true then y else x, sig))))

/-- SKCLR, SKINS, SKRECON and SKSTAT; a reconciliation starts, pairs, expires, peels or falls back to the full sets.
[R275, R276, R277, R278, R279, R280, R286, R281, R282, R283, R284]
SKCLR zeroes 24 bytes a cell. SKINS adds 1 to the count of the three cells of each active lane's entry and XORs check
hash, key and payload into them; every other byte stays. SKRECON of a well-formed block queues it at a link die with
its handle pending; a malformed one completes with code 3. SKSTAT writes the four words of the handle, or 0, 0, 0, 15.
Where the capability table counts no reconcile engine the last two trap, cause 0x04. The oldest queued request starts
while fewer than 8 run and reads its sketch and its entries; a second one of its side for one class and round
completes with code 6, with reason 4 as the model reads it (log 105), one that has lost a plot with code 2 (log 121);
one that is cancelled, or has met an error, completes at its next event. A peer's request with equal fields pairs with
it and the sketch goes out; one that differs completes it with code 6, reason 4; one unpaired for its wait with code
6, reason 5; an exchange that fails, which the event says (log 89), with code 6, reason 10. A peel emits pure cells in
ascending passes, at most one pair a cell, and takes each pair from its three cells, until none is pure: with every
cell empty it writes its records with code 0; else code 7, reason 1, or the full-set transfer in the last round; too
many records give code 7, reason 2, dropped data code 5. A full-set transfer writes 24 bytes for each pair that
exactly one side has, in ascending order, and completes with code 0, reason 3. -/
def Obligations.Reconciliation : Prop :=
  (∀ (s : State) (id : Nat) (ag : Agent) (g : BitVec 2), s.mover = some (id, ag) → ag.profile = .wave →
    (∀ (a b : Src) (p n : Nat), ag.fires g = true → p = (ag.src a).toNat → n = 24 * (ag.src b).toNat → ag.barred = false →
      p % 8 = 0 → p + n ≤ spadSize ag.unit → s.enginePlot ag.unit p n = none → (s.unit ag.unit).overTag p n = false →
      ∃ t : State, exec (.skclr g a b) s = .next (retire t id ag) ∧ t.units = s.units ∧
        ∀ q, t.homeByte q = if spadBase ag.unit + p ≤ q ∧ q < spadBase ag.unit + p + n then 0 else s.homeByte q) ∧
    (∀ (d a : BitVec 6) (b : Src) (p n l : Nat) (mode : Bool) (key pay : DWord), l < 96 →
      (∀ m, m < 96 → (ag.active g).getLsbD m = decide (m = l)) → p = (ag.sGet a.toNat).toNat →
      (ag.sGet (a.toNat + 1)).toNat = n + (if mode then 2 ^ 31 else 0) → n < 2 ^ 18 → 3 ≤ n → n % 3 = 0 → ag.barred = false →
      p % 8 = 0 → p + 24 * n ≤ spadSize ag.unit → s.enginePlot ag.unit p (24 * n) = none →
      (s.unit ag.unit).overTag p (24 * n) = false → key = ag.vpGet d.toNat l → pay = ag.vsrcP b l →
      let hash : Nat → Nat := fun j =>
        if mode then key.toNat / 2 ^ (16 * j) % 2 ^ 16 % (n / 3)
        else ((key.toNat ^^^ (pay.toNat * 0xC2B2AE3D27D4EB4F % 2 ^ 64)) *
          ([0x9E3779B97F4A7C15, 0xBF58476D1CE4E5B9, 0x94D049BB133111EB].getD j 0) % 2 ^ 64) / 2 ^ 32 * (n / 3) / 2 ^ 32
      let chk : Nat := if mode then key.toNat % 2 ^ 32 ^^^ key.toNat / 2 ^ 32
        else ((key.toNat ^^^ (pay.toNat * 0xC2B2AE3D27D4EB4F % 2 ^ 64)) * 0xD6E8FEB86659FD93 % 2 ^ 64) / 2 ^ 32
      let at_ : State → Nat → Nat → Nat → Nat := fun t j o k =>
        leVal (t.spadRead ag.unit (p + 24 * (j * (n / 3) + hash j) + o) k)
      ∃ t : State, exec (.skins g d a b) s = .next (retire t id ag) ∧ t.units = s.units ∧
        (∀ j, j < 3 → at_ t j 0 4 = (at_ s j 0 4 + 1) % 2 ^ 32 ∧ at_ t j 4 4 = at_ s j 4 4 ^^^ chk ∧
          at_ t j 8 8 = at_ s j 8 8 ^^^ key.toNat ∧ at_ t j 16 8 = at_ s j 16 8 ^^^ pay.toNat) ∧
        (∀ q, (∀ j, j < 3 → q < spadBase ag.unit + (p + 24 * (j * (n / 3) + hash j)) ∨
          spadBase ag.unit + (p + 24 * (j * (n / 3) + hash j)) + 24 ≤ q) → t.homeByte q = s.homeByte q)) ∧
    (∀ (d : BitVec 6) (a : Src) (p : Nat), ag.fires g = true → p = (ag.src a).toNat → p % 32 = 0 → p + 64 ≤ spadSize ag.unit →
      s.enginePlot ag.unit p 64 = none → ag.barred = false → (ag.hGet d.toNat).st ≠ .pending →
      s.hasUnit 1 = true →
      (∀ r, parseRecon ag.unit (s.spadRead ag.unit p 64) = (r, true) →
        exec (.skrecon g d a) s = .next (retire s id (ag.hSet d.toNat
          { st := .done, status := 0x3000000000000000, stat := ({ r with reason := 6 } : Recon).stat }))) ∧
      (∀ r, parseRecon ag.unit (s.spadRead ag.unit p 64) = (r, false) →
        (∀ q ∈ r.plots, ((s.unit ag.unit).plot q).engine = true ∧ ((s.unit ag.unit).plot q).bound = none) →
        s.fab.recons.length < 32 → s.releaseReady id ag 5 (ag.nextTag + 1) = true → ag.mods = [] →
        ∃ (t : State) (x : Recon), exec (.skrecon g d a) s =
            .next (retire t id (ag.hSet d.toNat { st := .pending, op := s.fab.nextOp })) ∧ t.mem = s.mem ∧
          Tab.find? t.fab.recons s.fab.nextOp = some x ∧ x.agent = id ∧ x.hnd = d.toNat ∧ x.part = ag.part ∧
          (x.engine = 14 ∨ x.engine = 15) ∧ (s.linkDies ≠ [] → x.engine ∈ s.linkDies) ∧ x.cells = r.cells ∧ x.sk = r.sk ∧ x.started = none)) ∧
    (∀ (d a : BitVec 6), (s.hasUnit 1 = false →
        exec (.skstat g d a) s = .next (trapHere s id ag 0x04 ag.run.word) ∧
        ∀ e, exec (.skrecon g d e) s = .next (trapHere s id ag 0x04 ag.run.word)) ∧
      (s.hasUnit 1 = true → ag.fires g = true →
        ((ag.hGet a.toNat).st = .idle → (ag.hGet a.toNat).stat = [] →
          exec (.skstat g d a) s = .next (retire s id
            ((((ag.sSet d.toNat 0).sSet (d.toNat + 1) 0).sSet (d.toNat + 2) 0).sSet (d.toNat + 3) 15))) ∧
        (∀ w x y z, (ag.hGet a.toNat).st = .done → (ag.hGet a.toNat).stat = [w, x, y, z] →
          ∃ t : State, t.mem = s.mem ∧ t.agents = s.agents ∧ exec (.skstat g d a) s = .next (retire t id
            ((((ag.sSet d.toNat w).sSet (d.toNat + 1) x).sSet (d.toNat + 2) y).sSet (d.toNat + 3) z)))))) ∧
  ((∀ (a b : List (DWord × DWord)),
    (∀ k p, (k, p, 0) ∈ fullDiff a b ↔ (k, p) ∈ a ∧ (k, p) ∉ b) ∧ (∀ k p, (k, p, 1) ∈ fullDiff a b ↔ (k, p) ∈ b ∧ (k, p) ∉ a) ∧
    (∀ x ∈ fullDiff a b, x.2.2 ≤ 1) ∧
    (fullDiff a b).Pairwise (fun x y => x.1.toNat < y.1.toNat ∨ x.1 = y.1 ∧ x.2.1.toNat ≤ y.2.1.toNat)) ∧
  (∀ (mode : Bool) (i c : Nat) (x : Cell), x.pure mode c i = true ↔ (x.count = 1 ∨ x.count = 0xFFFFFFFF) ∧
    x.chk = skChk mode x.kx x.px ∧ ∃ j, j < 3 ∧ skCell mode x.kx x.px c j = i) ∧
  (∀ (mode : Bool) (c i : Nat) (cs : List Cell) (k p : DWord) (v : Word), 0 < c → cs.length = 3 * c → i < 3 * c →
    let x := cs.getD i {}
    (skRemove mode c cs k p v).getD i {} = if [0, 1, 2].any (fun j => skCell mode k p c j == i)
      then { count := x.count - v, chk := x.chk ^^^ skChk mode k p, kx := x.kx ^^^ k, px := x.px ^^^ p } else x) ∧
  (∀ (mode : Bool) (c m i : Nat) (rest : List Nat) (cs : List Cell) (out : List PeelRec), let x := cs.getD i {}
    peelPass mode c m (i :: rest) cs out = if x.pure mode c i = true ∧ out.length < m
      then peelPass mode c m rest (skRemove mode c cs x.kx x.px x.count) (out ++ [(x.kx, x.px, if x.count = 1 then 0 else 1)])
      else peelPass mode c m rest cs out) ∧
  (∀ (mode : Bool) (a b left : List Cell) (out : List PeelRec), a.length = b.length → peel mode a b = (left, out) →
    left = out.foldl (fun cs x => skRemove mode (a.length / 3) cs x.1 x.2.1 (if x.2.2 = 0 then 1 else 0xFFFFFFFF))
      (a.zipWith skSub b) ∧ out.length ≤ a.length ∧
    (out.length = a.length ∨ ∀ i, i < a.length → (left.getD i {}).pure mode (a.length / 3) i = false)) ∧
  (∀ (s : State) (n : Nat) (r : Recon), Tab.find? s.fab.recons n = some r →
    let ended : Instr → Nat → Nat → Nat → Nat → Nat → Prop := fun i code reason moved npairs residual =>
      ∃ t : State, exec i s = .next t ∧ Tab.find? t.fab.recons n = none ∧
        ∀ k x h e, s.agent? k = some x → Tab.find? x.h h = some e → e.st = .pending → e.op = n →
          ∃ (y : Agent) (v : Word), t.agent? k = some y ∧ Tab.find? y.h h = some
            { st := .done, status := BitVec.ofNat 64 (code * 2 ^ 60 + moved % 2 ^ 40),
              stat := [BitVec.ofNat 32 residual, BitVec.ofNat 32 npairs, v, BitVec.ofNat 32 (reason + 16 * r.rnd)] }
    let ends : Instr → Nat → Nat → Nat → Nat → Prop := fun i code reason npairs residual =>
      ended i code reason npairs npairs residual
    let plot : Nat := if r.unit_ < 192 then 0x1000 else 0x10000
    let writes : Instr → List PeelRec → Prop := fun i out => ∃ t : State, exec i s = .next t ∧
      t.spadRead r.unit_ (plot * r.out) (24 * out.length) =
        out.flatMap (fun x => leBytes 8 x.1.toNat ++ leBytes 8 x.2.1.toNat ++ leBytes 4 x.2.2 ++ leBytes 4 r.rnd)
    let emits : Instr → Nat → List PeelRec → Prop := fun i reason out =>
      (plot * r.nout < 24 * out.length → ended i 7 2 0 out.length r.residual) ∧
      (24 * out.length ≤ plot * r.nout → (s.reconOwns n r = false → ends i 2 7 0 0) ∧
        (s.reconOwns n r = true → writes i out ∧ (r.merr = true → ends i 5 8 out.length r.residual) ∧
          (r.merr = false → ends i 0 reason out.length r.residual)))
    (∀ i : Instr, (i = .reconcileStart n ∨ (∃ p, i = .reconcileMatch n p) ∨ i = .reconcileWaitExpiry n ∨
        (∃ f, i = .sketchPeel n f) ∨ ∃ f, i = .fullSetTransfer n f) →
      (r.code = some 6 → ends i 6 10 0 0) ∧ (∀ c, r.code = some c → c ≠ 6 → ends i c 7 0 0) ∧
      (r.code = none → r.cancel = true → ends i 1 9 0 0)) ∧
    (r.code = none → r.cancel = false →
    (r.started = none →
      ((s.fab.recons.filter (fun (x : Nat × Recon) => x.2.engine == r.engine && x.2.started.isNone)).head?.map (fun x => x.1)) = some n →
      (s.fab.recons.filter (fun (x : Nat × Recon) => x.2.engine == r.engine && x.2.started.isSome)).length < 8 →
      (s.duplicate n r = true → r.npairs = 0 → ends (.reconcileStart n) 6 4 0 r.residual) ∧
      (s.duplicate n r = false → s.reconOwns n r = false → ends (.reconcileStart n) 2 7 0 0) ∧
      (∀ bs e1 s1 es e2 s2, s.duplicate n r = false → s.reconOwns n r = true →
        (r.sk.getLsbD 63 = true ∧ bs = s.spadRead r.unit_ (r.sk.toNat % 2 ^ 32) (24 * r.cells) ∧ e1 = false ∧ s1 = s ∨
          r.sk.getLsbD 63 = false ∧ s.reconRead n r r.sk (24 * r.cells) = .ok (bs, e1, s1)) →
        s1.reconRead n r r.set (16 * r.nset) = .ok (es, e2, s2) →
        exec (.reconcileStart n) s = .next (s2.putRecon n { r with
          started := some s2.ntime
          merr := e1 || e2
          sketch := bs
          entries := entriesOf r.nset es }))) ∧
    (r.started = none → r.sk.getLsbD 63 = true → r.nset = 0 → r.set.toNat < 2 ^ 56 →
      (∀ m x, Tab.find? s.fab.recons m = some x → m ≠ n → x.engine ≠ r.engine) → Tab.sorted s.fab.recons = true →
      s.duplicate n r = false → s.reconOwns n r = true →
      exec (.reconcileStart n) s = .next { s with fab := { s.fab with recons := Tab.put s.fab.recons n { r with
        started := some s.ntime
        merr := false
        sketch := s.spadRead r.unit_ (r.sk.toNat % 2 ^ 32) (24 * r.cells)
        entries := [] } } }) ∧
    (∀ (p : PeerRecon) (t0 : DWord), r.started = some t0 → r.peer = none → p.toDom = s.plat.dom → p.toPkg = s.plat.pkg →
      p.dom = r.dom → p.pkg = r.pkg → p.cls = r.cls →
      (s.waitOver r = true → r.npairs = 0 → ends (.reconcileMatch n p) 6 5 0 r.residual) ∧
      (s.waitOver r = false → p.paired = false → p.rnd = r.rnd → p.cells = r.cells → p.mode = r.mode → p.minc = r.minc → p.maxc = r.maxc →
        p.lim = r.lim → p.gf = r.gf →
        exec (.reconcileMatch n p) s = .next { s with fab := { s.fab with recons := Tab.put s.fab.recons n { r with
          peer := some p
          sent := 24 * r.cells } } }) ∧
      (s.waitOver r = false → p.paired = true ∨ p.rnd ≠ r.rnd ∨ p.cells ≠ r.cells ∨ p.mode ≠ r.mode ∨ p.minc ≠ r.minc ∨
        p.maxc ≠ r.maxc ∨ p.lim ≠ r.lim ∨ p.gf ≠ r.gf → r.npairs = 0 → ends (.reconcileMatch n p) 6 4 0 r.residual)) ∧
    (∀ t0 : DWord, r.started = some t0 → r.peer = none → t0.toNat + r.wait * 1000000 ≤ s.ntime.toNat → r.npairs = 0 →
      ends (.reconcileWaitExpiry n) 6 5 0 r.residual) ∧
    (∀ p : PeerRecon, r.peer = some p → r.full = false → p.sketch = r.sketch → emits (.sketchPeel n false) 0 []) ∧
    (∀ (p : PeerRecon) (left : List Cell) (out : List PeelRec), r.peer = some p → r.full = false →
      peel r.mode (cellsOf r.cells r.sketch) (cellsOf r.cells p.sketch) = (left, out) →
      ((∀ x ∈ left, x = {}) → emits (.sketchPeel n false) 0 out) ∧
      ((∃ x ∈ left, x ≠ {}) → (r.rnd < r.lim →
          ended (.sketchPeel n false) 7 1 0 out.length (left.filter (fun x => x != {})).length) ∧
        (r.lim ≤ r.rnd → exec (.sketchPeel n false) s = .next { s with fab := { s.fab with
            recons := Tab.put s.fab.recons n { r with full := true, sent := r.sent + 16 * r.nset } } }))) ∧
    (∀ p : PeerRecon, r.peer = some p → (r.full = false → ends (.sketchPeel n true) 6 10 0 0) ∧
      (r.full = true → ends (.fullSetTransfer n true) 6 10 0 0 ∧
        emits (.fullSetTransfer n false) 3 (fullDiff r.entries p.entries))))))
end

