-- ==== Sys2Proof/Laws/Table.lean ====
section
/-! SUPPORT. Laws of sparse tables: what an entry reads after a write, and that writes keep the canonical form. -/
namespace Sys2Proof.Machine

variable {α : Type}

@[simp] theorem Tab.find?_nil (n : Nat) : Tab.find? ([] : Tab α) n = none := rfl

@[simp] theorem Tab.find?_put_self (t : Tab α) (n : Nat) (v : α) : Tab.find? (Tab.put t n v) n = some v := by
  induction t with
  | nil => simp [Tab.put, Tab.find?]
  | cons e t ih =>
    obtain ⟨k, w⟩ := e
    by_cases h : n = k
    · simp [Tab.put, Tab.find?, h]
    · by_cases h' : n < k
      · simp [Tab.put, Tab.find?, h, h']
      · simp [Tab.put, Tab.find?, h, h', Ne.symm h, ih]

theorem Tab.find?_put_ne (t : Tab α) {m n : Nat} (v : α) (hm : m ≠ n) : Tab.find? (Tab.put t n v) m = Tab.find? t m := by
  induction t with
  | nil => simp [Tab.put, Tab.find?, Ne.symm hm]
  | cons e t ih =>
    obtain ⟨k, w⟩ := e
    by_cases h : n = k
    · subst h; simp [Tab.put, Tab.find?, Ne.symm hm]
    · by_cases h' : n < k
      · simp [Tab.put, Tab.find?, h, h', Ne.symm hm]
      · rw [Tab.put, if_neg h, if_neg h', Tab.find?, Tab.find?, ih]

theorem Tab.find?_erase_ne (t : Tab α) {m n : Nat} (hm : m ≠ n) : Tab.find? (Tab.erase t n) m = Tab.find? t m := by
  induction t with
  | nil => rfl
  | cons e t ih =>
    obtain ⟨k, w⟩ := e
    by_cases h : k = n
    · subst h; simp [Tab.erase, Tab.find?, Ne.symm hm, ih]
    · rw [Tab.erase, if_neg h, Tab.find?, Tab.find?, ih]

@[simp] theorem Tab.find?_erase_self (t : Tab α) (n : Nat) : Tab.find? (Tab.erase t n) n = none := by
  induction t with
  | nil => rfl
  | cons e t ih =>
    obtain ⟨k, w⟩ := e
    by_cases h : k = n
    · simp [Tab.erase, h, ih]
    · simp [Tab.erase, Tab.find?, h, ih]

@[simp] theorem Tab.get_put_self (d : α) (t : Tab α) (n : Nat) (v : α) : Tab.get d (Tab.put t n v) n = v := by
  simp [Tab.get]

theorem Tab.get_put_ne (d : α) (t : Tab α) {m n : Nat} (v : α) (h : m ≠ n) :
    Tab.get d (Tab.put t n v) m = Tab.get d t m := by
  simp [Tab.get, Tab.find?_put_ne t v h]

@[simp] theorem Tab.get_set_self [DecidableEq α] (d : α) (t : Tab α) (n : Nat) (v : α) : Tab.get d (Tab.set d t n v) n = v := by
  by_cases h : v = d <;> simp [Tab.set, Tab.get, h]

theorem Tab.get_set_ne [DecidableEq α] (d : α) (t : Tab α) {m n : Nat} (v : α) (h : m ≠ n) :
    Tab.get d (Tab.set d t n v) m = Tab.get d t m := by
  by_cases hv : v = d
  · simp [Tab.set, Tab.get, hv, Tab.find?_erase_ne t h]
  · simp [Tab.set, Tab.get, hv, Tab.find?_put_ne t v h]

/-! ### The canonical form -/

/-- Every key is at least `lo`, and the keys rise strictly. -/
def Tab.above : Nat → Tab α → Bool
  | _, [] => true
  | lo, (k, _) :: t => decide (lo ≤ k) && Tab.above (k + 1) t

theorem Tab.above_mono {lo lo' : Nat} (h : lo' ≤ lo) {t : Tab α} (ht : Tab.above lo t = true) : Tab.above lo' t = true := by
  cases t with
  | nil => rfl
  | cons e t =>
    obtain ⟨k, w⟩ := e
    simp only [Tab.above, Bool.and_eq_true, decide_eq_true_eq] at *
    exact ⟨by omega, ht.2⟩

theorem Tab.sorted_cons (k : Nat) (w : α) (t : Tab α) : Tab.sorted ((k, w) :: t) = Tab.above (k + 1) t := by
  induction t generalizing k w with
  | nil => rfl
  | cons e t ih =>
    obtain ⟨k', w'⟩ := e
    simp only [Tab.sorted, Tab.above, ih]
    congr 1

theorem Tab.sorted_iff (t : Tab α) : Tab.sorted t = Tab.above 0 t := by
  cases t with
  | nil => rfl
  | cons e t => obtain ⟨k, w⟩ := e; rw [Tab.sorted_cons]; simp [Tab.above]

theorem Tab.above_put {lo : Nat} {t : Tab α} (n : Nat) (v : α) (hn : lo ≤ n) (ht : Tab.above lo t = true) :
    Tab.above lo (Tab.put t n v) = true := by
  induction t generalizing lo with
  | nil => simp [Tab.put, Tab.above, hn]
  | cons e t ih =>
    obtain ⟨k, w⟩ := e
    simp only [Tab.above, Bool.and_eq_true, decide_eq_true_eq] at ht
    by_cases h : n = k
    · simp [Tab.put, Tab.above, h, ht]
    · by_cases h' : n < k
      · simp only [Tab.put, h, h', if_true, if_false, Tab.above, Bool.and_eq_true, decide_eq_true_eq]
        exact ⟨hn, by omega, ht.2⟩
      · simp only [Tab.put, h, h', if_false, Tab.above, Bool.and_eq_true, decide_eq_true_eq]
        exact ⟨ht.1, ih (by omega) ht.2⟩

theorem Tab.above_filter {lo : Nat} {t : Tab α} (p : Nat × α → Bool) (ht : Tab.above lo t = true) :
    Tab.above lo (t.filter p) = true := by
  induction t generalizing lo with
  | nil => rfl
  | cons e t ih =>
    obtain ⟨k, w⟩ := e
    simp only [Tab.above, Bool.and_eq_true, decide_eq_true_eq] at ht
    by_cases hp : p (k, w) = true
    · simp only [List.filter, hp, Tab.above, Bool.and_eq_true, decide_eq_true_eq]
      exact ⟨ht.1, ih ht.2⟩
    · simp only [List.filter, hp]
      exact Tab.above_mono (by omega) (ih ht.2)

theorem Tab.erase_eq_filter (t : Tab α) (n : Nat) : Tab.erase t n = t.filter (fun e => decide (e.1 ≠ n)) := by
  induction t with
  | nil => rfl
  | cons e t ih =>
    obtain ⟨k, w⟩ := e
    by_cases h : k = n <;> simp [Tab.erase, h, ih]

variable [DecidableEq α]

theorem Tab.wf_iff (d : α) (t : Tab α) : Tab.wf d t = true ↔ Tab.above 0 t = true ∧ ∀ e ∈ t, e.2 ≠ d := by
  simp [Tab.wf, Tab.sorted_iff, List.all_eq_true]

theorem Tab.wf_nil (d : α) : Tab.wf d ([] : Tab α) = true := rfl

theorem Tab.wf_filter (d : α) {t : Tab α} (p : Nat × α → Bool) (h : Tab.wf d t = true) : Tab.wf d (t.filter p) = true := by
  rw [Tab.wf_iff] at *
  exact ⟨Tab.above_filter p h.1, fun e he => h.2 e (List.mem_of_mem_filter he)⟩

theorem Tab.mem_put {t : Tab α} {n : Nat} {v : α} {e : Nat × α} (he : e ∈ Tab.put t n v) : e = (n, v) ∨ e ∈ t := by
  induction t with
  | nil => simpa [Tab.put] using he
  | cons x t ih =>
    obtain ⟨k, w⟩ := x
    simp only [Tab.put] at he
    split at he
    · simp only [List.mem_cons] at he ⊢; tauto
    · split at he
      · simp only [List.mem_cons] at he ⊢; tauto
      · simp only [List.mem_cons] at he ⊢
        rcases he with he | he
        · tauto
        · have := ih he; tauto

theorem Tab.wf_set (d : α) {t : Tab α} (n : Nat) (v : α) (h : Tab.wf d t = true) : Tab.wf d (Tab.set d t n v) = true := by
  by_cases hv : v = d
  · simp only [Tab.set, hv, if_true, Tab.erase_eq_filter]
    exact Tab.wf_filter d _ h
  · simp only [Tab.set, hv, if_false]
    rw [Tab.wf_iff] at *
    refine ⟨Tab.above_put n v (Nat.zero_le n) h.1, fun e he => ?_⟩
    rcases Tab.mem_put he with rfl | he
    · exact hv
    · exact h.2 e he

theorem Tab.wf_dropRange (d : α) {t : Tab α} (lo n : Nat) (h : Tab.wf d t = true) : Tab.wf d (Tab.dropRange t lo n) = true :=
  Tab.wf_filter d _ h

theorem Tab.wf_foldl_set {β : Type} (d : α) (l : List β) (k : β → Nat) (f : β → α) {t : Tab α} (h : Tab.wf d t = true) :
    Tab.wf d (l.foldl (fun acc x => Tab.set d acc (k x) (f x)) t) = true := by
  induction l generalizing t with
  | nil => exact h
  | cons x l ih => exact ih (Tab.wf_set d _ _ h)

end Sys2Proof.Machine
end

