-- ==== Sys2Proof/Laws/State.lean ====
section
/-! SUPPORT. What each update of the state leaves alone: one lemma per field per update. -/
namespace Sys2Proof.Machine

@[simp] theorem State.putAgent_cur (s : State) (id : Nat) (x : Agent) : (s.putAgent id x).cur = s.cur := rfl
@[simp] theorem State.putAgent_sched (s : State) (id : Nat) (x : Agent) : (s.putAgent id x).sched = s.sched := rfl
@[simp] theorem State.putAgent_stalled (s : State) (id : Nat) (x : Agent) : (s.putAgent id x).stalled = s.stalled := rfl
@[simp] theorem State.putAgent_free (s : State) (id : Nat) (x : Agent) : (s.putAgent id x).free = s.free := rfl
@[simp] theorem State.putAgent_ntime (s : State) (id : Nat) (x : Agent) : (s.putAgent id x).ntime = s.ntime := rfl
@[simp] theorem State.putAgent_units (s : State) (id : Nat) (x : Agent) : (s.putAgent id x).units = s.units := rfl
@[simp] theorem State.putAgent_quads (s : State) (id : Nat) (x : Agent) : (s.putAgent id x).quads = s.quads := rfl
@[simp] theorem State.putAgent_mem (s : State) (id : Nat) (x : Agent) : (s.putAgent id x).mem = s.mem := rfl
@[simp] theorem State.putAgent_ms (s : State) (id : Nat) (x : Agent) : (s.putAgent id x).ms = s.ms := rfl
@[simp] theorem State.putAgent_rot (s : State) (id : Nat) (x : Agent) : (s.putAgent id x).rot = s.rot := rfl
@[simp] theorem State.putAgent_plat (s : State) (id : Nat) (x : Agent) : (s.putAgent id x).plat = s.plat := rfl
@[simp] theorem State.putAgent_hub (s : State) (id : Nat) (x : Agent) : (s.putAgent id x).hub = s.hub := rfl
@[simp] theorem State.putAgent_fab (s : State) (id : Nat) (x : Agent) : (s.putAgent id x).fab = s.fab := rfl

@[simp] theorem State.putUnit_cur (s : State) (u : Nat) (x : UnitSt) : (s.putUnit u x).cur = s.cur := rfl
@[simp] theorem State.putUnit_sched (s : State) (u : Nat) (x : UnitSt) : (s.putUnit u x).sched = s.sched := rfl
@[simp] theorem State.putUnit_stalled (s : State) (u : Nat) (x : UnitSt) : (s.putUnit u x).stalled = s.stalled := rfl
@[simp] theorem State.putUnit_free (s : State) (u : Nat) (x : UnitSt) : (s.putUnit u x).free = s.free := rfl
@[simp] theorem State.putUnit_ntime (s : State) (u : Nat) (x : UnitSt) : (s.putUnit u x).ntime = s.ntime := rfl
@[simp] theorem State.putUnit_agents (s : State) (u : Nat) (x : UnitSt) : (s.putUnit u x).agents = s.agents := rfl
@[simp] theorem State.putUnit_quads (s : State) (u : Nat) (x : UnitSt) : (s.putUnit u x).quads = s.quads := rfl
@[simp] theorem State.putUnit_mem (s : State) (u : Nat) (x : UnitSt) : (s.putUnit u x).mem = s.mem := rfl
@[simp] theorem State.putUnit_ms (s : State) (u : Nat) (x : UnitSt) : (s.putUnit u x).ms = s.ms := rfl
@[simp] theorem State.putUnit_rot (s : State) (u : Nat) (x : UnitSt) : (s.putUnit u x).rot = s.rot := rfl
@[simp] theorem State.putUnit_plat (s : State) (u : Nat) (x : UnitSt) : (s.putUnit u x).plat = s.plat := rfl
@[simp] theorem State.putUnit_hub (s : State) (u : Nat) (x : UnitSt) : (s.putUnit u x).hub = s.hub := rfl
@[simp] theorem State.putUnit_fab (s : State) (u : Nat) (x : UnitSt) : (s.putUnit u x).fab = s.fab := rfl

@[simp] theorem State.putQuad_cur (s : State) (q : Nat) (x : QuadSt) : (s.putQuad q x).cur = s.cur := rfl
@[simp] theorem State.putQuad_sched (s : State) (q : Nat) (x : QuadSt) : (s.putQuad q x).sched = s.sched := rfl
@[simp] theorem State.putQuad_stalled (s : State) (q : Nat) (x : QuadSt) : (s.putQuad q x).stalled = s.stalled := rfl
@[simp] theorem State.putQuad_free (s : State) (q : Nat) (x : QuadSt) : (s.putQuad q x).free = s.free := rfl
@[simp] theorem State.putQuad_ntime (s : State) (q : Nat) (x : QuadSt) : (s.putQuad q x).ntime = s.ntime := rfl
@[simp] theorem State.putQuad_agents (s : State) (q : Nat) (x : QuadSt) : (s.putQuad q x).agents = s.agents := rfl
@[simp] theorem State.putQuad_units (s : State) (q : Nat) (x : QuadSt) : (s.putQuad q x).units = s.units := rfl
@[simp] theorem State.putQuad_mem (s : State) (q : Nat) (x : QuadSt) : (s.putQuad q x).mem = s.mem := rfl
@[simp] theorem State.putQuad_ms (s : State) (q : Nat) (x : QuadSt) : (s.putQuad q x).ms = s.ms := rfl
@[simp] theorem State.putQuad_rot (s : State) (q : Nat) (x : QuadSt) : (s.putQuad q x).rot = s.rot := rfl
@[simp] theorem State.putQuad_plat (s : State) (q : Nat) (x : QuadSt) : (s.putQuad q x).plat = s.plat := rfl
@[simp] theorem State.putQuad_hub (s : State) (q : Nat) (x : QuadSt) : (s.putQuad q x).hub = s.hub := rfl
@[simp] theorem State.putQuad_fab (s : State) (q : Nat) (x : QuadSt) : (s.putQuad q x).fab = s.fab := rfl

@[simp] theorem State.putPol_cur (s : State) (p : Nat) (x : Pol) : (s.putPol p x).cur = s.cur := rfl
@[simp] theorem State.putPol_sched (s : State) (p : Nat) (x : Pol) : (s.putPol p x).sched = s.sched := rfl
@[simp] theorem State.putPol_stalled (s : State) (p : Nat) (x : Pol) : (s.putPol p x).stalled = s.stalled := rfl
@[simp] theorem State.putPol_free (s : State) (p : Nat) (x : Pol) : (s.putPol p x).free = s.free := rfl
@[simp] theorem State.putPol_ntime (s : State) (p : Nat) (x : Pol) : (s.putPol p x).ntime = s.ntime := rfl
@[simp] theorem State.putPol_agents (s : State) (p : Nat) (x : Pol) : (s.putPol p x).agents = s.agents := rfl
@[simp] theorem State.putPol_units (s : State) (p : Nat) (x : Pol) : (s.putPol p x).units = s.units := rfl
@[simp] theorem State.putPol_quads (s : State) (p : Nat) (x : Pol) : (s.putPol p x).quads = s.quads := rfl
@[simp] theorem State.putPol_mem (s : State) (p : Nat) (x : Pol) : (s.putPol p x).mem = s.mem := rfl
@[simp] theorem State.putPol_ms (s : State) (p : Nat) (x : Pol) : (s.putPol p x).ms = s.ms := rfl
@[simp] theorem State.putPol_rot (s : State) (p : Nat) (x : Pol) : (s.putPol p x).rot = s.rot := rfl
@[simp] theorem State.putPol_plat (s : State) (p : Nat) (x : Pol) : (s.putPol p x).plat = s.plat := rfl
@[simp] theorem State.putPol_fab (s : State) (p : Nat) (x : Pol) : (s.putPol p x).fab = s.fab := rfl

@[simp] theorem State.putLaunch_cur (s : State) (x : Launch) : (s.putLaunch x).cur = s.cur := rfl
@[simp] theorem State.putLaunch_sched (s : State) (x : Launch) : (s.putLaunch x).sched = s.sched := rfl
@[simp] theorem State.putLaunch_stalled (s : State) (x : Launch) : (s.putLaunch x).stalled = s.stalled := rfl
@[simp] theorem State.putLaunch_free (s : State) (x : Launch) : (s.putLaunch x).free = s.free := rfl
@[simp] theorem State.putLaunch_ntime (s : State) (x : Launch) : (s.putLaunch x).ntime = s.ntime := rfl
@[simp] theorem State.putLaunch_agents (s : State) (x : Launch) : (s.putLaunch x).agents = s.agents := rfl
@[simp] theorem State.putLaunch_units (s : State) (x : Launch) : (s.putLaunch x).units = s.units := rfl
@[simp] theorem State.putLaunch_quads (s : State) (x : Launch) : (s.putLaunch x).quads = s.quads := rfl
@[simp] theorem State.putLaunch_mem (s : State) (x : Launch) : (s.putLaunch x).mem = s.mem := rfl
@[simp] theorem State.putLaunch_ms (s : State) (x : Launch) : (s.putLaunch x).ms = s.ms := rfl
@[simp] theorem State.putLaunch_rot (s : State) (x : Launch) : (s.putLaunch x).rot = s.rot := rfl
@[simp] theorem State.putLaunch_plat (s : State) (x : Launch) : (s.putLaunch x).plat = s.plat := rfl
@[simp] theorem State.putLaunch_fab (s : State) (x : Launch) : (s.putLaunch x).fab = s.fab := rfl

@[simp] theorem State.putDie_cur (s : State) (n : Nat) (d : Die) : (s.putDie n d).cur = s.cur := rfl
@[simp] theorem State.putDie_sched (s : State) (n : Nat) (d : Die) : (s.putDie n d).sched = s.sched := rfl
@[simp] theorem State.putDie_stalled (s : State) (n : Nat) (d : Die) : (s.putDie n d).stalled = s.stalled := rfl
@[simp] theorem State.putDie_free (s : State) (n : Nat) (d : Die) : (s.putDie n d).free = s.free := rfl
@[simp] theorem State.putDie_ntime (s : State) (n : Nat) (d : Die) : (s.putDie n d).ntime = s.ntime := rfl
@[simp] theorem State.putDie_agents (s : State) (n : Nat) (d : Die) : (s.putDie n d).agents = s.agents := rfl
@[simp] theorem State.putDie_units (s : State) (n : Nat) (d : Die) : (s.putDie n d).units = s.units := rfl
@[simp] theorem State.putDie_quads (s : State) (n : Nat) (d : Die) : (s.putDie n d).quads = s.quads := rfl
@[simp] theorem State.putDie_mem (s : State) (n : Nat) (d : Die) : (s.putDie n d).mem = s.mem := rfl
@[simp] theorem State.putDie_ms (s : State) (n : Nat) (d : Die) : (s.putDie n d).ms = s.ms := rfl
@[simp] theorem State.putDie_rot (s : State) (n : Nat) (d : Die) : (s.putDie n d).rot = s.rot := rfl
@[simp] theorem State.putDie_hub (s : State) (n : Nat) (d : Die) : (s.putDie n d).hub = s.hub := rfl
@[simp] theorem State.putDie_fab (s : State) (n : Nat) (d : Die) : (s.putDie n d).fab = s.fab := rfl

@[simp] theorem State.putLink_cur (s : State) (n : Nat) (l : RingLink) : (s.putLink n l).cur = s.cur := rfl
@[simp] theorem State.putLink_sched (s : State) (n : Nat) (l : RingLink) : (s.putLink n l).sched = s.sched := rfl
@[simp] theorem State.putLink_stalled (s : State) (n : Nat) (l : RingLink) : (s.putLink n l).stalled = s.stalled := rfl
@[simp] theorem State.putLink_free (s : State) (n : Nat) (l : RingLink) : (s.putLink n l).free = s.free := rfl
@[simp] theorem State.putLink_ntime (s : State) (n : Nat) (l : RingLink) : (s.putLink n l).ntime = s.ntime := rfl
@[simp] theorem State.putLink_agents (s : State) (n : Nat) (l : RingLink) : (s.putLink n l).agents = s.agents := rfl
@[simp] theorem State.putLink_units (s : State) (n : Nat) (l : RingLink) : (s.putLink n l).units = s.units := rfl
@[simp] theorem State.putLink_quads (s : State) (n : Nat) (l : RingLink) : (s.putLink n l).quads = s.quads := rfl
@[simp] theorem State.putLink_mem (s : State) (n : Nat) (l : RingLink) : (s.putLink n l).mem = s.mem := rfl
@[simp] theorem State.putLink_ms (s : State) (n : Nat) (l : RingLink) : (s.putLink n l).ms = s.ms := rfl
@[simp] theorem State.putLink_rot (s : State) (n : Nat) (l : RingLink) : (s.putLink n l).rot = s.rot := rfl
@[simp] theorem State.putLink_hub (s : State) (n : Nat) (l : RingLink) : (s.putLink n l).hub = s.hub := rfl
@[simp] theorem State.putLink_fab (s : State) (n : Nat) (l : RingLink) : (s.putLink n l).fab = s.fab := rfl

@[simp] theorem State.setHome_cur (s : State) (pa : Nat) (b : Byte) : (s.setHome pa b).cur = s.cur := rfl
@[simp] theorem State.setHome_sched (s : State) (pa : Nat) (b : Byte) : (s.setHome pa b).sched = s.sched := rfl
@[simp] theorem State.setHome_stalled (s : State) (pa : Nat) (b : Byte) : (s.setHome pa b).stalled = s.stalled := rfl
@[simp] theorem State.setHome_free (s : State) (pa : Nat) (b : Byte) : (s.setHome pa b).free = s.free := rfl
@[simp] theorem State.setHome_ntime (s : State) (pa : Nat) (b : Byte) : (s.setHome pa b).ntime = s.ntime := rfl
@[simp] theorem State.setHome_agents (s : State) (pa : Nat) (b : Byte) : (s.setHome pa b).agents = s.agents := rfl
@[simp] theorem State.setHome_units (s : State) (pa : Nat) (b : Byte) : (s.setHome pa b).units = s.units := rfl
@[simp] theorem State.setHome_quads (s : State) (pa : Nat) (b : Byte) : (s.setHome pa b).quads = s.quads := rfl
@[simp] theorem State.setHome_ms (s : State) (pa : Nat) (b : Byte) : (s.setHome pa b).ms = s.ms := rfl
@[simp] theorem State.setHome_rot (s : State) (pa : Nat) (b : Byte) : (s.setHome pa b).rot = s.rot := rfl
@[simp] theorem State.setHome_plat (s : State) (pa : Nat) (b : Byte) : (s.setHome pa b).plat = s.plat := rfl
@[simp] theorem State.setHome_hub (s : State) (pa : Nat) (b : Byte) : (s.setHome pa b).hub = s.hub := rfl
@[simp] theorem State.setHome_fab (s : State) (pa : Nat) (b : Byte) : (s.setHome pa b).fab = s.fab := rfl

@[simp] theorem State.polCount_cur (s : State) (p i : Nat) : (s.polCount p i).cur = s.cur := rfl
@[simp] theorem State.polCount_sched (s : State) (p i : Nat) : (s.polCount p i).sched = s.sched := rfl
@[simp] theorem State.polCount_stalled (s : State) (p i : Nat) : (s.polCount p i).stalled = s.stalled := rfl
@[simp] theorem State.polCount_free (s : State) (p i : Nat) : (s.polCount p i).free = s.free := rfl
@[simp] theorem State.polCount_ntime (s : State) (p i : Nat) : (s.polCount p i).ntime = s.ntime := rfl
@[simp] theorem State.polCount_agents (s : State) (p i : Nat) : (s.polCount p i).agents = s.agents := rfl
@[simp] theorem State.polCount_units (s : State) (p i : Nat) : (s.polCount p i).units = s.units := rfl
@[simp] theorem State.polCount_quads (s : State) (p i : Nat) : (s.polCount p i).quads = s.quads := rfl
@[simp] theorem State.polCount_mem (s : State) (p i : Nat) : (s.polCount p i).mem = s.mem := rfl
@[simp] theorem State.polCount_ms (s : State) (p i : Nat) : (s.polCount p i).ms = s.ms := rfl
@[simp] theorem State.polCount_plat (s : State) (p i : Nat) : (s.polCount p i).plat = s.plat := rfl
@[simp] theorem State.polCount_hub (s : State) (p i : Nat) : (s.polCount p i).hub = s.hub := rfl
@[simp] theorem State.polCount_fab (s : State) (p i : Nat) : (s.polCount p i).fab = s.fab := rfl

@[simp] theorem State.putPosted_cur (s : State) (n : Nat) (e : Posted) : (s.putPosted n e).cur = s.cur := rfl
@[simp] theorem State.putPosted_sched (s : State) (n : Nat) (e : Posted) : (s.putPosted n e).sched = s.sched := rfl
@[simp] theorem State.putPosted_stalled (s : State) (n : Nat) (e : Posted) : (s.putPosted n e).stalled = s.stalled := rfl
@[simp] theorem State.putPosted_free (s : State) (n : Nat) (e : Posted) : (s.putPosted n e).free = s.free := rfl
@[simp] theorem State.putPosted_ntime (s : State) (n : Nat) (e : Posted) : (s.putPosted n e).ntime = s.ntime := rfl
@[simp] theorem State.putPosted_agents (s : State) (n : Nat) (e : Posted) : (s.putPosted n e).agents = s.agents := rfl
@[simp] theorem State.putPosted_units (s : State) (n : Nat) (e : Posted) : (s.putPosted n e).units = s.units := rfl
@[simp] theorem State.putPosted_quads (s : State) (n : Nat) (e : Posted) : (s.putPosted n e).quads = s.quads := rfl
@[simp] theorem State.putPosted_mem (s : State) (n : Nat) (e : Posted) : (s.putPosted n e).mem = s.mem := rfl
@[simp] theorem State.putPosted_ms (s : State) (n : Nat) (e : Posted) : (s.putPosted n e).ms = s.ms := rfl
@[simp] theorem State.putPosted_rot (s : State) (n : Nat) (e : Posted) : (s.putPosted n e).rot = s.rot := rfl
@[simp] theorem State.putPosted_plat (s : State) (n : Nat) (e : Posted) : (s.putPosted n e).plat = s.plat := rfl
@[simp] theorem State.putPosted_hub (s : State) (n : Nat) (e : Posted) : (s.putPosted n e).hub = s.hub := rfl

@[simp] theorem State.putCopy_cur (s : State) (n : Nat) (c : Copy) : (s.putCopy n c).cur = s.cur := rfl
@[simp] theorem State.putCopy_sched (s : State) (n : Nat) (c : Copy) : (s.putCopy n c).sched = s.sched := rfl
@[simp] theorem State.putCopy_stalled (s : State) (n : Nat) (c : Copy) : (s.putCopy n c).stalled = s.stalled := rfl
@[simp] theorem State.putCopy_free (s : State) (n : Nat) (c : Copy) : (s.putCopy n c).free = s.free := rfl
@[simp] theorem State.putCopy_ntime (s : State) (n : Nat) (c : Copy) : (s.putCopy n c).ntime = s.ntime := rfl
@[simp] theorem State.putCopy_agents (s : State) (n : Nat) (c : Copy) : (s.putCopy n c).agents = s.agents := rfl
@[simp] theorem State.putCopy_units (s : State) (n : Nat) (c : Copy) : (s.putCopy n c).units = s.units := rfl
@[simp] theorem State.putCopy_quads (s : State) (n : Nat) (c : Copy) : (s.putCopy n c).quads = s.quads := rfl
@[simp] theorem State.putCopy_mem (s : State) (n : Nat) (c : Copy) : (s.putCopy n c).mem = s.mem := rfl
@[simp] theorem State.putCopy_ms (s : State) (n : Nat) (c : Copy) : (s.putCopy n c).ms = s.ms := rfl
@[simp] theorem State.putCopy_rot (s : State) (n : Nat) (c : Copy) : (s.putCopy n c).rot = s.rot := rfl
@[simp] theorem State.putCopy_plat (s : State) (n : Nat) (c : Copy) : (s.putCopy n c).plat = s.plat := rfl
@[simp] theorem State.putCopy_hub (s : State) (n : Nat) (c : Copy) : (s.putCopy n c).hub = s.hub := rfl

@[simp] theorem State.putRecon_cur (s : State) (n : Nat) (r : Recon) : (s.putRecon n r).cur = s.cur := rfl
@[simp] theorem State.putRecon_sched (s : State) (n : Nat) (r : Recon) : (s.putRecon n r).sched = s.sched := rfl
@[simp] theorem State.putRecon_stalled (s : State) (n : Nat) (r : Recon) : (s.putRecon n r).stalled = s.stalled := rfl
@[simp] theorem State.putRecon_free (s : State) (n : Nat) (r : Recon) : (s.putRecon n r).free = s.free := rfl
@[simp] theorem State.putRecon_ntime (s : State) (n : Nat) (r : Recon) : (s.putRecon n r).ntime = s.ntime := rfl
@[simp] theorem State.putRecon_agents (s : State) (n : Nat) (r : Recon) : (s.putRecon n r).agents = s.agents := rfl
@[simp] theorem State.putRecon_units (s : State) (n : Nat) (r : Recon) : (s.putRecon n r).units = s.units := rfl
@[simp] theorem State.putRecon_quads (s : State) (n : Nat) (r : Recon) : (s.putRecon n r).quads = s.quads := rfl
@[simp] theorem State.putRecon_mem (s : State) (n : Nat) (r : Recon) : (s.putRecon n r).mem = s.mem := rfl
@[simp] theorem State.putRecon_ms (s : State) (n : Nat) (r : Recon) : (s.putRecon n r).ms = s.ms := rfl
@[simp] theorem State.putRecon_rot (s : State) (n : Nat) (r : Recon) : (s.putRecon n r).rot = s.rot := rfl
@[simp] theorem State.putRecon_plat (s : State) (n : Nat) (r : Recon) : (s.putRecon n r).plat = s.plat := rfl
@[simp] theorem State.putRecon_hub (s : State) (n : Nat) (r : Recon) : (s.putRecon n r).hub = s.hub := rfl

@[simp] theorem State.putLine_cur (s : State) (k : Nat) (l : OLine) : (s.putLine k l).cur = s.cur := rfl
@[simp] theorem State.putLine_sched (s : State) (k : Nat) (l : OLine) : (s.putLine k l).sched = s.sched := rfl
@[simp] theorem State.putLine_stalled (s : State) (k : Nat) (l : OLine) : (s.putLine k l).stalled = s.stalled := rfl
@[simp] theorem State.putLine_free (s : State) (k : Nat) (l : OLine) : (s.putLine k l).free = s.free := rfl
@[simp] theorem State.putLine_ntime (s : State) (k : Nat) (l : OLine) : (s.putLine k l).ntime = s.ntime := rfl
@[simp] theorem State.putLine_agents (s : State) (k : Nat) (l : OLine) : (s.putLine k l).agents = s.agents := rfl
@[simp] theorem State.putLine_units (s : State) (k : Nat) (l : OLine) : (s.putLine k l).units = s.units := rfl
@[simp] theorem State.putLine_quads (s : State) (k : Nat) (l : OLine) : (s.putLine k l).quads = s.quads := rfl
@[simp] theorem State.putLine_mem (s : State) (k : Nat) (l : OLine) : (s.putLine k l).mem = s.mem := rfl
@[simp] theorem State.putLine_rot (s : State) (k : Nat) (l : OLine) : (s.putLine k l).rot = s.rot := rfl
@[simp] theorem State.putLine_plat (s : State) (k : Nat) (l : OLine) : (s.putLine k l).plat = s.plat := rfl
@[simp] theorem State.putLine_hub (s : State) (k : Nat) (l : OLine) : (s.putLine k l).hub = s.hub := rfl
@[simp] theorem State.putLine_fab (s : State) (k : Nat) (l : OLine) : (s.putLine k l).fab = s.fab := rfl

@[simp] theorem State.dropLineAt_cur (s : State) (k : Nat) : (s.dropLineAt k).cur = s.cur := rfl
@[simp] theorem State.dropLineAt_sched (s : State) (k : Nat) : (s.dropLineAt k).sched = s.sched := rfl
@[simp] theorem State.dropLineAt_stalled (s : State) (k : Nat) : (s.dropLineAt k).stalled = s.stalled := rfl
@[simp] theorem State.dropLineAt_free (s : State) (k : Nat) : (s.dropLineAt k).free = s.free := rfl
@[simp] theorem State.dropLineAt_ntime (s : State) (k : Nat) : (s.dropLineAt k).ntime = s.ntime := rfl
@[simp] theorem State.dropLineAt_agents (s : State) (k : Nat) : (s.dropLineAt k).agents = s.agents := rfl
@[simp] theorem State.dropLineAt_units (s : State) (k : Nat) : (s.dropLineAt k).units = s.units := rfl
@[simp] theorem State.dropLineAt_quads (s : State) (k : Nat) : (s.dropLineAt k).quads = s.quads := rfl
@[simp] theorem State.dropLineAt_mem (s : State) (k : Nat) : (s.dropLineAt k).mem = s.mem := rfl
@[simp] theorem State.dropLineAt_rot (s : State) (k : Nat) : (s.dropLineAt k).rot = s.rot := rfl
@[simp] theorem State.dropLineAt_plat (s : State) (k : Nat) : (s.dropLineAt k).plat = s.plat := rfl
@[simp] theorem State.dropLineAt_hub (s : State) (k : Nat) : (s.dropLineAt k).hub = s.hub := rfl
@[simp] theorem State.dropLineAt_fab (s : State) (k : Nat) : (s.dropLineAt k).fab = s.fab := rfl

@[simp] theorem State.touch_cur (s : State) (pa : Nat) (m : BitVec 2) : (s.touch pa m).cur = s.cur := rfl
@[simp] theorem State.touch_sched (s : State) (pa : Nat) (m : BitVec 2) : (s.touch pa m).sched = s.sched := rfl
@[simp] theorem State.touch_stalled (s : State) (pa : Nat) (m : BitVec 2) : (s.touch pa m).stalled = s.stalled := rfl
@[simp] theorem State.touch_free (s : State) (pa : Nat) (m : BitVec 2) : (s.touch pa m).free = s.free := rfl
@[simp] theorem State.touch_ntime (s : State) (pa : Nat) (m : BitVec 2) : (s.touch pa m).ntime = s.ntime := rfl
@[simp] theorem State.touch_agents (s : State) (pa : Nat) (m : BitVec 2) : (s.touch pa m).agents = s.agents := rfl
@[simp] theorem State.touch_units (s : State) (pa : Nat) (m : BitVec 2) : (s.touch pa m).units = s.units := rfl
@[simp] theorem State.touch_quads (s : State) (pa : Nat) (m : BitVec 2) : (s.touch pa m).quads = s.quads := rfl
@[simp] theorem State.touch_mem (s : State) (pa : Nat) (m : BitVec 2) : (s.touch pa m).mem = s.mem := rfl
@[simp] theorem State.touch_rot (s : State) (pa : Nat) (m : BitVec 2) : (s.touch pa m).rot = s.rot := rfl
@[simp] theorem State.touch_plat (s : State) (pa : Nat) (m : BitVec 2) : (s.touch pa m).plat = s.plat := rfl
@[simp] theorem State.touch_hub (s : State) (pa : Nat) (m : BitVec 2) : (s.touch pa m).hub = s.hub := rfl
@[simp] theorem State.touch_fab (s : State) (pa : Nat) (m : BitVec 2) : (s.touch pa m).fab = s.fab := rfl

@[simp] theorem State.noteUse_cur (s : State) (part pa : Nat) (unc : Bool) : (s.noteUse part pa unc).cur = s.cur := rfl
@[simp] theorem State.noteUse_sched (s : State) (part pa : Nat) (unc : Bool) : (s.noteUse part pa unc).sched = s.sched := rfl
@[simp] theorem State.noteUse_stalled (s : State) (part pa : Nat) (unc : Bool) : (s.noteUse part pa unc).stalled = s.stalled := rfl
@[simp] theorem State.noteUse_free (s : State) (part pa : Nat) (unc : Bool) : (s.noteUse part pa unc).free = s.free := rfl
@[simp] theorem State.noteUse_ntime (s : State) (part pa : Nat) (unc : Bool) : (s.noteUse part pa unc).ntime = s.ntime := rfl
@[simp] theorem State.noteUse_agents (s : State) (part pa : Nat) (unc : Bool) : (s.noteUse part pa unc).agents = s.agents := rfl
@[simp] theorem State.noteUse_units (s : State) (part pa : Nat) (unc : Bool) : (s.noteUse part pa unc).units = s.units := rfl
@[simp] theorem State.noteUse_quads (s : State) (part pa : Nat) (unc : Bool) : (s.noteUse part pa unc).quads = s.quads := rfl
@[simp] theorem State.noteUse_mem (s : State) (part pa : Nat) (unc : Bool) : (s.noteUse part pa unc).mem = s.mem := rfl
@[simp] theorem State.noteUse_rot (s : State) (part pa : Nat) (unc : Bool) : (s.noteUse part pa unc).rot = s.rot := rfl
@[simp] theorem State.noteUse_plat (s : State) (part pa : Nat) (unc : Bool) : (s.noteUse part pa unc).plat = s.plat := rfl
@[simp] theorem State.noteUse_hub (s : State) (part pa : Nat) (unc : Bool) : (s.noteUse part pa unc).hub = s.hub := rfl
@[simp] theorem State.noteUse_fab (s : State) (part pa : Nat) (unc : Bool) : (s.noteUse part pa unc).fab = s.fab := rfl

@[simp] theorem State.tick2_cur (s : State) : (s.tick2).cur = s.cur := rfl
@[simp] theorem State.tick2_sched (s : State) : (s.tick2).sched = s.sched := rfl
@[simp] theorem State.tick2_stalled (s : State) : (s.tick2).stalled = s.stalled := rfl
@[simp] theorem State.tick2_free (s : State) : (s.tick2).free = s.free := rfl
@[simp] theorem State.tick2_ntime (s : State) : (s.tick2).ntime = s.ntime := rfl
@[simp] theorem State.tick2_agents (s : State) : (s.tick2).agents = s.agents := rfl
@[simp] theorem State.tick2_units (s : State) : (s.tick2).units = s.units := rfl
@[simp] theorem State.tick2_quads (s : State) : (s.tick2).quads = s.quads := rfl
@[simp] theorem State.tick2_mem (s : State) : (s.tick2).mem = s.mem := rfl
@[simp] theorem State.tick2_rot (s : State) : (s.tick2).rot = s.rot := rfl
@[simp] theorem State.tick2_plat (s : State) : (s.tick2).plat = s.plat := rfl
@[simp] theorem State.tick2_hub (s : State) : (s.tick2).hub = s.hub := rfl
@[simp] theorem State.tick2_fab (s : State) : (s.tick2).fab = s.fab := rfl

@[simp] theorem State.keepXlat_cur (s : State) (x : Xlat) : (s.keepXlat x).cur = s.cur := by unfold State.keepXlat; split <;> rfl
@[simp] theorem State.keepXlat_sched (s : State) (x : Xlat) : (s.keepXlat x).sched = s.sched := by unfold State.keepXlat; split <;> rfl
@[simp] theorem State.keepXlat_stalled (s : State) (x : Xlat) : (s.keepXlat x).stalled = s.stalled := by unfold State.keepXlat; split <;> rfl
@[simp] theorem State.keepXlat_free (s : State) (x : Xlat) : (s.keepXlat x).free = s.free := by unfold State.keepXlat; split <;> rfl
@[simp] theorem State.keepXlat_ntime (s : State) (x : Xlat) : (s.keepXlat x).ntime = s.ntime := by unfold State.keepXlat; split <;> rfl
@[simp] theorem State.keepXlat_agents (s : State) (x : Xlat) : (s.keepXlat x).agents = s.agents := by unfold State.keepXlat; split <;> rfl
@[simp] theorem State.keepXlat_units (s : State) (x : Xlat) : (s.keepXlat x).units = s.units := by unfold State.keepXlat; split <;> rfl
@[simp] theorem State.keepXlat_quads (s : State) (x : Xlat) : (s.keepXlat x).quads = s.quads := by unfold State.keepXlat; split <;> rfl
@[simp] theorem State.keepXlat_mem (s : State) (x : Xlat) : (s.keepXlat x).mem = s.mem := by unfold State.keepXlat; split <;> rfl
@[simp] theorem State.keepXlat_rot (s : State) (x : Xlat) : (s.keepXlat x).rot = s.rot := by unfold State.keepXlat; split <;> rfl
@[simp] theorem State.keepXlat_plat (s : State) (x : Xlat) : (s.keepXlat x).plat = s.plat := by unfold State.keepXlat; split <;> rfl
@[simp] theorem State.keepXlat_hub (s : State) (x : Xlat) : (s.keepXlat x).hub = s.hub := by unfold State.keepXlat; split <;> rfl
@[simp] theorem State.keepXlat_fab (s : State) (x : Xlat) : (s.keepXlat x).fab = s.fab := by unfold State.keepXlat; split <;> rfl

@[simp] theorem State.tick_cur (s : State) : s.tick.cur = s.cur := rfl
@[simp] theorem State.tick_sched (s : State) : s.tick.sched = s.sched := rfl
@[simp] theorem State.tick_stalled (s : State) : s.tick.stalled = s.stalled := rfl
@[simp] theorem State.tick_agents (s : State) : s.tick.agents = s.agents := rfl
@[simp] theorem State.tick_units (s : State) : s.tick.units = s.units := rfl
@[simp] theorem State.tick_quads (s : State) : s.tick.quads = s.quads := rfl
@[simp] theorem State.tick_mem (s : State) : s.tick.mem = s.mem := rfl
@[simp] theorem State.tick_ms (s : State) : s.tick.ms = s.ms := rfl
@[simp] theorem State.tick_rot (s : State) : s.tick.rot = s.rot := rfl
@[simp] theorem State.tick_plat (s : State) : s.tick.plat = s.plat := rfl
@[simp] theorem State.tick_hub (s : State) : s.tick.hub = s.hub := rfl
@[simp] theorem State.tick_fab (s : State) : s.tick.fab = s.fab := rfl

@[simp] theorem State.putAgent_agent?_self (s : State) (id : Nat) (x : Agent) : (s.putAgent id x).agent? id = some x := by
  simp [State.agent?, State.putAgent]

theorem State.putAgent_agent?_ne (s : State) {id j : Nat} (x : Agent) (h : j ≠ id) :
    (s.putAgent id x).agent? j = s.agent? j := by
  simp [State.agent?, State.putAgent, Tab.find?_put_ne _ _ h]

@[simp] theorem State.putUnit_unit_self (s : State) (u : Nat) (x : UnitSt) : (s.putUnit u x).unit u = x := by
  simp [State.unit, State.putUnit]

theorem State.putUnit_unit_ne (s : State) {u v : Nat} (x : UnitSt) (h : v ≠ u) : (s.putUnit u x).unit v = s.unit v := by
  simp [State.unit, State.putUnit, Tab.get_put_ne _ _ _ h]

@[simp] theorem State.putQuad_quad_self (s : State) (q : Nat) (x : QuadSt) : (s.putQuad q x).quad q = x := by
  simp [State.quad, State.putQuad]

@[simp] theorem State.putPol_pol_self (s : State) (p : Nat) (x : Pol) : (s.putPol p x).pol p = x := by
  simp [State.pol, State.putPol]

theorem State.putPol_pol_ne (s : State) {p q : Nat} (x : Pol) (h : q ≠ p) : (s.putPol p x).pol q = s.pol q := by
  simp [State.pol, State.putPol, Tab.get_put_ne _ _ _ h]

end Sys2Proof.Machine
end

