-- ==== Sys2Proof/Laws/Memory.lean ====
section
/-! SUPPORT. Laws of memory: a byte written reads back, every other byte stands, and every operation that writes memory
keeps its canonical form (log 1). -/
namespace Sys2Proof.Machine

/-! ### Reading after writing -/

@[simp] theorem State.homeByte_setHome_self (s : State) (pa : Nat) (b : Byte) : (s.setHome pa b).homeByte pa = b := by
  simp [State.homeByte, State.setHome]

theorem State.homeByte_setHome_ne (s : State) {pa q : Nat} (b : Byte) (h : q ≠ pa) :
    (s.setHome pa b).homeByte q = s.homeByte q := by
  simp [State.homeByte, State.setHome, Tab.get_set_ne _ _ _ h]

/-- What memory holds alone decides what it gives under a slot, with the markers, the line keys and the slots (R31, R42). -/
theorem State.memRead_congr {s t : State} (h : t.ms = s.ms) (hm : t.mem = s.mem) (slot : BitVec 8) (pa : Nat) :
    t.memRead slot pa = s.memRead slot pa := by
  cases s; cases t; cases h; cases hm; rfl

/-- What the home gives under a slot depends on the memory system and on memory alone. -/
theorem State.homeRead_congr {s t : State} (h : t.ms = s.ms) (hm : t.mem = s.mem) (slot : BitVec 8) (pa : Nat) :
    t.homeRead slot pa = s.homeRead slot pa := by
  cases s; cases t; cases h; cases hm; rfl

/-- What the package store gives under a slot depends on the memory system and on memory alone. -/
theorem State.pkRead_congr {s t : State} (h : t.ms = s.ms) (hm : t.mem = s.mem) (slot : BitVec 8) (pa : Nat) :
    t.pkRead slot pa = s.pkRead slot pa := by
  cases s; cases t; cases h; cases hm; rfl

/-- A change outside the memory system and memory leaves every byte. -/
theorem State.sameBytes_of_eq {s t : State} (h : t.ms = s.ms) (hm : t.mem = s.mem) : s.SameBytes t :=
  fun slot pa => ⟨State.pkRead_congr h hm slot pa, State.homeRead_congr h hm slot pa, by simp [State.homeByte, hm]⟩

/-- Writes of bytes at addresses of a list leave the memory system but for memory. -/
theorem State.ms_foldl_setHome (f : Nat → Byte) (l : List Nat) : ∀ s : State, (l.foldl (fun t a => t.setHome a (f a)) s).ms = s.ms := by
  induction l with
  | nil => intro s; rfl
  | cons a t ih => intro s; rw [List.foldl_cons, ih]; rfl

/-- Before a write, a line takes the key of the slot it is written under (R31). -/
theorem State.lineKey_rekey (s : State) (slot : BitVec 8) (pa : Nat) (h : keyed pa = true) :
    Tab.find? (s.rekey slot pa).ms.lineKey (pa / 64) = some (s.keyOf slot) := by
  unfold State.rekey
  simp only [h, Bool.not_true, Bool.false_eq_true, ↓reduceIte]
  split
  · simp
  · split
    · rename_i h1 h2; rw [h1, h2]
    · simp

/-- Taking a key leaves the slots, the markers and the Orangery. -/
theorem State.rekey_rest (s : State) (slot : BitVec 8) (pa : Nat) :
    (s.rekey slot pa).ms.keys = s.ms.keys ∧ (s.rekey slot pa).ms.dropped = s.ms.dropped ∧ (s.rekey slot pa).ms.orng = s.ms.orng := by
  unfold State.rekey
  dsimp only
  split
  · exact ⟨rfl, rfl, rfl⟩
  · split
    · exact ⟨rfl, rfl, rfl⟩
    · split
      · exact ⟨rfl, rfl, rfl⟩
      · simp [State.ms_foldl_setHome]

/-- After clearing its marker a line is not dropped; the slots, the line keys and the Orangery stand (R42). -/
theorem State.undrop_rest (s : State) (pa : Nat) :
    (s.undrop pa).isDropped pa = false ∧ (s.undrop pa).ms.keys = s.ms.keys ∧ (s.undrop pa).ms.lineKey = s.ms.lineKey ∧
      (s.undrop pa).ms.orng = s.ms.orng := by
  unfold State.undrop
  generalize lineAddrs pa = l
  split
  · have hm : (l.foldl (fun t a => t.setHome a 0) s).ms = s.ms := State.ms_foldl_setHome (fun _ => 0) l s
    refine ⟨by simp [State.isDropped, Tab.get], ?_, ?_, ?_⟩
    · show (l.foldl (fun t a => t.setHome a 0) s).ms.keys = s.ms.keys
      rw [hm]
    · show (l.foldl (fun t a => t.setHome a 0) s).ms.lineKey = s.ms.lineKey
      rw [hm]
    · show (l.foldl (fun t a => t.setHome a 0) s).ms.orng = s.ms.orng
      rw [hm]
  · rename_i h
    exact ⟨by simpa using h, rfl, rfl, rfl⟩

/-- A byte that memory writes under a slot is read back under it (R31, R42). -/
@[simp] theorem State.memRead_memWrite_self (s : State) (slot : BitVec 8) (pa : Nat) (b : Byte) :
    (s.memWrite slot pa b).memRead slot pa = b := by
  obtain ⟨hd, hk, hl, -⟩ := State.undrop_rest (s.rekey slot pa) pa
  have hb : (s.memWrite slot pa b).homeByte pa = b := State.homeByte_setHome_self _ _ _
  have hd' : (s.memWrite slot pa b).isDropped pa = false := hd
  unfold State.memRead
  rw [hd']
  simp only [Bool.false_eq_true, ↓reduceIte, hb]
  split
  · rename_i hkey
    have hkey' : Tab.find? (s.memWrite slot pa b).ms.lineKey (pa / 64) = some (s.keyOf slot) :=
      (congrArg (fun t => Tab.find? t (pa / 64)) hl).trans (State.lineKey_rekey s slot pa hkey)
    have hkeys : (s.memWrite slot pa b).keyOf slot = s.keyOf slot := by
      have : (s.memWrite slot pa b).ms.keys = s.ms.keys := hk.trans (State.rekey_rest s slot pa).1
      simp [State.keyOf, this]
    simp [hkey', hkeys]
  · rfl

/-- The first entry of a table that meets a test stays first when it is replaced by one that meets it. -/
theorem Tab.find_put {α : Type} {p : Nat × α → Bool} {k : Nat} {l v : α} (hv : p (k, v) = true) :
    ∀ {t : Tab α}, List.find? p t = some (k, l) → List.find? p (Tab.put t k v) = some (k, v) := by
  intro t
  induction t with
  | nil => intro h; simp at h
  | cons e t ih =>
    obtain ⟨n, w⟩ := e
    intro h
    simp only [Tab.put]
    split
    · simp [hv]
    · split
      · simp [hv]
      · rename_i h1 h2
        rw [List.find?_cons] at h ⊢
        cases hp : p (n, w) with
        | true => rw [hp] at h; simp only [Option.some.injEq, Prod.mk.injEq] at h; exact absurd h.1.symm h1
        | false => rw [hp] at h; exact ih h

/-- A byte written at the home under a slot is read back under it (R36). -/
@[simp] theorem State.homeRead_homeWrite_self (s : State) (slot : BitVec 8) (pa : Nat) (b : Byte) :
    (s.homeWrite slot pa b).homeRead slot pa = b := by
  unfold State.homeWrite
  cases hh : s.hit? slot pa with
  | none =>
    have ho : (s.memWrite slot pa b).ms.orng = s.ms.orng :=
      (State.undrop_rest (s.rekey slot pa) pa).2.2.2.trans (State.rekey_rest s slot pa).2.2
    have : (s.memWrite slot pa b).hit? slot pa = none := by
      simpa [State.hit?, State.oline?, ho] using hh
    simp [State.homeRead, this]
  | some e =>
    obtain ⟨k, l⟩ := e
    simp only [State.hit?, Option.filter_eq_some_iff] at hh
    obtain ⟨hf, hv⟩ := hh
    have hp := List.find?_some hf
    let l' : OLine := { l with data := Tab.set 0 l.data (pa % 256) b, dirty := l.dirty ||| blockBit pa }
    have hnew : (s.putLine k l').oline? slot pa = some (k, l') := Tab.find_put (l := l) (by simpa [l'] using hp) hf
    have hhit : (s.putLine k l').hit? slot pa = some (k, l') := by
      unfold State.hit?
      rw [hnew]
      exact if_pos hv
    show (s.putLine k l').homeRead slot pa = b
    unfold State.homeRead
    rw [hhit]
    exact Tab.get_set_self _ _ _ _

/-- A byte of the package store that is written at the home under a slot is read back under it (R16, R218). -/
@[simp] theorem State.pkRead_setPk_home (s : State) (slot : BitVec 8) (pa : Nat) (b : Byte) :
    (s.setPk slot false pa b).pkRead slot pa = b := by
  have hp : (s.setPk slot false pa b).peerByte slot pa = none := by simp [State.peerByte, State.setPk]
  have hm : (s.setPk slot false pa b).homeRead slot pa = (s.homeWrite slot pa b).homeRead slot pa := rfl
  simp [State.pkRead, hp, hm]

/-- A write into a peer cache leaves every home copy (R16). -/
@[simp] theorem State.mem_setPk_peer (s : State) (slot : BitVec 8) (pa : Nat) (b : Byte) : (s.setPk slot true pa b).mem = s.mem := rfl
@[simp] theorem State.homeRead_setPk_peer (s : State) (slot r : BitVec 8) (pa q : Nat) (b : Byte) :
    (s.setPk slot true pa b).homeRead r q = s.homeRead r q := rfl

/-- A scratchpad write leaves what lies outside the bytes written. -/
theorem State.homeByte_spadWrite_ne (u : Nat) (bs : List Byte) : ∀ (s : State) (off q : Nat),
    (∀ i, i < bs.length → q ≠ spadBase u + off + i) → (s.spadWrite u off bs).homeByte q = s.homeByte q := by
  induction bs with
  | nil => intro s off q _; rfl
  | cons b t ih =>
    intro s off q h
    have h0 : q ≠ spadBase u + off := by simpa using h 0 (by simp)
    rw [State.spadWrite, ih, State.homeByte_setHome_ne _ _ h0]
    intro i hi
    have := h (i + 1) (by simp; omega)
    omega

/-- A scratchpad write is read back byte by byte. -/
theorem State.homeByte_spadWrite (u : Nat) (bs : List Byte) : ∀ (s : State) (off i : Nat) (h : i < bs.length),
    (s.spadWrite u off bs).homeByte (spadBase u + off + i) = bs[i] := by
  induction bs with
  | nil => intro s off i h; simp at h
  | cons b t ih =>
    intro s off i h
    cases i with
    | zero =>
      rw [State.spadWrite, State.homeByte_spadWrite_ne]
      · simp
      · intro j _; omega
    | succ i =>
      have hi : i < t.length := by simpa using h
      have := ih (s.setHome (spadBase u + off) b) (off + 1) i hi
      rw [State.spadWrite, show spadBase u + off + (i + 1) = spadBase u + (off + 1) + i by omega, this]
      simp

@[simp] theorem State.spadRead_spadWrite (s : State) (u off : Nat) (bs : List Byte) :
    (s.spadWrite u off bs).spadRead u off bs.length = bs := by
  apply List.ext_getElem
  · simp [State.spadRead]
  · intro i h1 h2
    simp [State.spadRead, State.homeByte_spadWrite u bs s off i h2]

/-! ### The canonical form -/

/-- The form depends on memory alone. -/
theorem State.inv_of_mem {s t : State} (h : t.mem = s.mem) (hs : s.Inv) : t.Inv := by
  unfold State.Inv at *; rw [h]; exact hs

theorem State.inv_setHome {s : State} (pa : Nat) (b : Byte) (h : s.Inv) : (s.setHome pa b).Inv := Tab.wf_set 0 pa b h

theorem State.inv_foldl {α : Type} (l : List α) (f : State → α → State) (hf : ∀ t a, t.Inv → (f t a).Inv) :
    ∀ {s : State}, s.Inv → (l.foldl f s).Inv := by
  induction l with
  | nil => intro s h; exact h
  | cons a t ih => intro s h; exact ih (hf s a h)

theorem State.inv_rekey {s : State} (slot : BitVec 8) (pa : Nat) (h : s.Inv) : (s.rekey slot pa).Inv := by
  unfold State.rekey
  generalize lineAddrs pa = l
  split
  · exact h
  · dsimp only
    split
    · exact h
    · split
      · exact h
      · exact State.inv_of_mem rfl (State.inv_foldl l (fun t a => t.setHome a (s.memRead slot a)) (fun t a ht => State.inv_setHome a _ ht) h)

theorem State.inv_undrop {s : State} (pa : Nat) (h : s.Inv) : (s.undrop pa).Inv := by
  unfold State.undrop
  generalize lineAddrs pa = l
  split
  · exact State.inv_of_mem rfl (State.inv_foldl l (fun t a => t.setHome a 0) (fun t a ht => State.inv_setHome a 0 ht) h)
  · exact h

theorem State.inv_memWrite {s : State} (slot : BitVec 8) (pa : Nat) (b : Byte) (h : s.Inv) : (s.memWrite slot pa b).Inv :=
  State.inv_setHome pa b (State.inv_undrop pa (State.inv_rekey slot pa h))

theorem State.inv_homeWrite {s : State} (slot : BitVec 8) (pa : Nat) (b : Byte) (h : s.Inv) : (s.homeWrite slot pa b).Inv := by
  unfold State.homeWrite
  split
  · exact h
  · exact State.inv_memWrite slot pa b h

theorem State.inv_setPk {s : State} (slot : BitVec 8) (peer : Bool) (pa : Nat) (b : Byte) (h : s.Inv) : (s.setPk slot peer pa b).Inv := by
  cases peer
  · exact State.inv_of_mem (s := s.homeWrite slot pa b) rfl (State.inv_homeWrite slot pa b h)
  · exact h

theorem State.inv_backLine {s : State} (l : OLine) (h : s.Inv) : (s.backLine l).Inv := by
  unfold State.backLine
  refine State.inv_foldl _ _ (fun t i ht => ?_) h
  split
  · exact State.inv_memWrite _ _ _ ht
  · exact ht

/-- A write-back of a line of the Orangery keeps the canonical form (R40). -/
theorem State.inv_evictLine {s : State} (k : Nat) (h : s.Inv) : (s.evictLine k).Inv := by
  unfold State.evictLine
  split
  · exact State.inv_of_mem (State.dropLineAt_mem _ k) (State.inv_backLine _ h)
  · exact h

theorem State.inv_backEntry {s : State} (sector : Nat) (e : SpanEnt) (h : s.Inv) : (s.backEntry sector e).Inv := by
  unfold State.backEntry
  split
  · refine State.inv_foldl _ _ (fun t a ht => ?_) h
    split
    · exact State.inv_setPk _ false a _ ht
    · exact ht
  · exact h

theorem State.inv_ioLose {s : State} (sector lo hi : Nat) (h : s.Inv) : (s.ioLose sector lo hi).Inv := by
  unfold State.ioLose
  dsimp only
  split
  · exact State.inv_of_mem rfl (State.inv_foldl ((s.sharers sector).filter (fun e => e.meets lo hi))
      (fun t e => t.backEntry sector e) (fun t e ht => State.inv_backEntry _ e ht) h)
  · exact h

theorem State.inv_ioLoseN {s : State} (pa n : Nat) (h : s.Inv) : (s.ioLoseN pa n).Inv :=
  State.inv_foldl _ _ (fun _ sec ht => State.inv_ioLose sec _ _ ht) h

/-- A write to the package store keeps the canonical form of memory. -/
theorem State.inv_pkWrite {s : State} (slot : BitVec 8) (peer : Bool) (pa : Nat) (b : Byte) (h : s.Inv) :
    (s.pkWrite slot peer pa b).Inv :=
  State.inv_setPk slot peer pa b (State.inv_of_mem (s := s) rfl h)

theorem State.inv_pkPutN (slot : BitVec 8) (peer : Bool) (bs : List Byte) : ∀ {s : State} (pa : Nat), s.Inv →
    (s.pkPutN slot peer pa bs).Inv := by
  induction bs with
  | nil => intro s pa h; exact h
  | cons b t ih => intro s pa h; exact ih (pa + 1) (State.inv_pkWrite slot peer pa b h)

theorem State.inv_pkWriteN (slot : BitVec 8) (peer : Bool) (bs : List Byte) {s : State} (pa : Nat) (h : s.Inv) :
    (s.pkWriteN slot peer pa bs).Inv := by
  unfold State.pkWriteN
  split
  · exact h
  · apply State.inv_pkPutN
    split
    · exact h
    · exact State.inv_ioLoseN pa _ h

/-- Making waiters ready changes no memory. -/
@[simp] theorem State.wakePa_mem (s : State) (pa : Nat) : (s.wakePa pa).mem = s.mem := rfl

theorem State.inv_pkStore (slot : BitVec 8) (peer : Bool) (bs : List Byte) {s : State} (pa : Nat) (h : s.Inv) :
    (s.pkStore slot peer pa bs).Inv :=
  State.inv_foldl _ _ (fun _ _ ht => State.inv_of_mem (State.wakePa_mem _ _) ht) (State.inv_pkWriteN slot peer bs pa h)

theorem State.inv_writeBack {s : State} (pa : Nat) (h : s.Inv) : (s.writeBack pa).Inv := by
  unfold State.writeBack
  split
  · exact State.inv_setPk _ false pa _ h
  · exact h

theorem State.inv_spadWrite (u : Nat) (bs : List Byte) : ∀ {s : State} (off : Nat), s.Inv → (s.spadWrite u off bs).Inv := by
  induction bs with
  | nil => intro s off h; exact h
  | cons b t ih => intro s off h; exact ih (off + 1) (State.inv_setHome _ b h)

theorem State.inv_putRing {s : State} (x : Tab Nat) (h : s.Inv) : ({ s with rot := { s.rot with ringTail := x } } : State).Inv := h

theorem State.inv_ringAppend {s : State} (n : Nat) (reg : DWord) (rec : List Byte) (h : s.Inv) : (s.ringAppend n reg rec).Inv := by
  unfold State.ringAppend
  apply State.inv_putRing
  split
  · exact State.inv_pkStore _ _ _ _ (State.inv_pkStore _ _ _ _ h)
  · exact h

theorem State.inv_raiseEvent {s : State} (p : Nat) (e : PolEvent) (h : s.Inv) : (s.raiseEvent p e).Inv := by
  unfold State.raiseEvent
  dsimp only
  split
  · exact h
  · split <;> exact h

theorem State.inv_record {s : State} (part : Nat) (e : ErrRec) (j : JobRef) (unit : Word) (h : s.Inv) :
    (s.record part e j unit).Inv :=
  State.inv_foldl _ _ (fun _ _ ht => State.inv_raiseEvent _ _ ht) (State.inv_ringAppend _ _ _ (State.inv_ringAppend _ _ _ h))

/-- After reset, memory lists nothing and stands in its canonical form (log 1). -/
theorem reset_mem_wf : Memory.wf State.reset.mem = true := rfl

end Sys2Proof.Machine
end

