-- ==== Sys2Proof/Laws/Reads.lean ====
section
/-! SUPPORT. Laws of the reads of the package store: what the span directory, the Orangery and the check codes do at a read
keeps the canonical form of memory (log 1). -/
namespace Sys2Proof.Machine

/-! ### The span directory (R262 to R271) -/

theorem State.inv_spanRoom {s : State} (sector peer : Nat) (h : s.Inv) : (s.spanRoom sector peer).Inv := by
  unfold State.spanRoom
  dsimp only
  split
  · split
    · exact State.inv_of_mem rfl (State.inv_backEntry sector _ h)
    · exact h
  · exact h

theorem State.inv_spanFill {s : State} (sector : Nat) (e : SpanEnt) (write : Bool) (h : s.Inv) :
    (s.spanFill sector e write).Inv := by
  unfold State.spanFill
  dsimp only
  split <;> exact State.inv_of_mem rfl (State.inv_spanRoom sector e.peer h)

theorem State.inv_backCrowded {s : State} (sector lo hi : Nat) (h : s.Inv) : (s.backCrowded sector lo hi).Inv :=
  State.inv_foldl _ _ (fun _ e ht => State.inv_backEntry _ e ht) h

theorem State.inv_spanLose {s : State} (sector lo hi : Nat) (keep : SpanEnt → Bool) (h : s.Inv) :
    (s.spanLose sector lo hi keep).Inv :=
  State.inv_of_mem rfl (State.inv_backCrowded sector lo hi h)

/-- A transaction of a sector keeps the canonical form of memory: it writes back what it takes away (R267 to R269). -/
theorem State.inv_spanRun {s : State} (r : SpanReq) (h : s.Inv) : (s.spanRun r).Inv := by
  unfold State.spanRun
  dsimp only
  split
  · split
    · exact h
    · exact State.inv_foldl _ _ (fun _ w ht => State.inv_spanFill _ _ _ ht) (State.inv_of_mem (s := s) rfl h)
  · split
    · exact h
    · split
      · exact State.inv_of_mem rfl
          (State.inv_spanLose r.sector r.lo r.hi (fun e => e.peer == r.peer && e.lo == r.lo && e.hi == r.hi) h)
      · exact State.inv_spanFill _ _ _ (State.inv_spanLose _ _ _ _ h)
  · exact h
  · exact State.inv_spanLose _ _ _ _ (State.inv_of_mem rfl
      (State.inv_foldl _ _ (fun _ e ht => State.inv_backEntry _ e ht) h))

theorem State.inv_askWords {s : State} (kind : SpanKind) (peer part : Nat) (slot : BitVec 8) (pa n : Nat) (h : s.Inv) :
    (s.askWords kind peer part slot pa n).Inv := by
  unfold State.askWords
  split
  · exact h
  · exact State.inv_foldl _ _ (fun _ _ ht => State.inv_spanRun _ ht) h

/-! ### Records of what a read finds -/

theorem State.inv_recordRs {s : State} (part : Nat) (e : ErrRec) (h : s.Inv) : (s.recordRs part e).Inv :=
  State.inv_of_mem rfl (State.inv_ringAppend _ _ _ h)

theorem State.inv_recordLoss {s : State} (kind part : Nat) (slot : BitVec 8) (pa : Nat) (die : Byte) (j : JobRef) (unit : Word)
    (h : s.Inv) : (s.recordLoss kind part slot pa die j unit).Inv := State.inv_record _ _ _ _ h

/-! ### The Orangery (R36 to R44) -/

@[simp] theorem State.sample_mem (s : State) (part pa : Nat) : (s.sample part pa).mem = s.mem := by
  unfold State.sample
  dsimp only
  split <;> rfl

theorem State.inv_fillAt {s : State} (slot : BitVec 8) (pa w : Nat) (h : s.Inv) : (s.fillAt slot pa w).Inv := by
  unfold State.fillAt
  dsimp only
  split
  · exact State.inv_of_mem rfl (State.inv_evictLine _ h)
  · exact State.inv_of_mem (s := s) rfl h

theorem State.inv_fillLine {s : State} (part : Nat) (slot : BitVec 8) (pa : Nat) (h : s.Inv) : (s.fillLine part slot pa).Inv := by
  unfold State.fillLine
  dsimp only
  split
  · exact h
  · split
    · split
      · exact h
      · split
        · exact State.inv_of_mem (s := s) rfl h
        · exact State.inv_fillAt _ _ _ (State.inv_of_mem (s := s) rfl h)
    · split
      · exact h
      · split
        · exact State.inv_of_mem (s := s) rfl h
        · exact State.inv_fillAt _ _ _ (State.inv_of_mem (s := s) rfl h)

theorem State.inv_corrected {s : State} (orng : Bool) (pa : Nat) (h : s.Inv) : (s.corrected orng pa).Inv := by
  unfold State.corrected
  dsimp only
  split
  · split
    · exact State.inv_recordRs _ _ (State.inv_of_mem (s := s) rfl h)
    · exact State.inv_of_mem (s := s) rfl h
  · exact State.inv_of_mem (s := s) rfl h
  · split
    · exact State.inv_recordRs _ _ (State.inv_of_mem (s := s) rfl h)
    · exact State.inv_of_mem (s := s) rfl h

theorem State.inv_dropBlock {s : State} (k : Nat) (l : OLine) (pa : Nat) (h : s.Inv) : (s.dropBlock k l pa).Inv := by
  unfold State.dropBlock
  dsimp only
  split <;> exact State.inv_of_mem (s := s) rfl h

theorem State.inv_loseLine {s : State} (w set : Nat) (h : s.Inv) : (s.loseLine w set).Inv := by
  unfold State.loseLine
  dsimp only
  split
  · exact State.inv_record _ _ _ _ (State.inv_of_mem (State.dropLineAt_mem _ _) h)
  · exact h

/-- What the check codes find keeps the canonical form of memory (R42, R44). -/
theorem State.inv_eccEvent {s : State} (slot : BitVec 8) (pa n : Nat) (e : Ecc) (h : s.Inv) : (s.eccEvent slot pa n e).1.Inv := by
  have h' : ({ s with ms := { s.ms with latent := Tab.erase s.ms.latent (pa / 64) } } : State).Inv := h
  unfold State.eccEvent
  dsimp only
  split
  · exact h
  · split
    · exact h'
    · split
      · exact State.inv_corrected _ _ h'
      · split
        · exact State.inv_corrected _ _ h'
        · exact h'
    · split
      · split
        · exact State.inv_dropBlock _ _ _ h'
        · exact State.inv_of_mem rfl h'
      · split
        · exact State.inv_of_mem rfl h'
        · exact h'
    · split
      · exact State.inv_loseLine _ _ h'
      · exact h'

/-- A read that arrives at the package store keeps the canonical form of memory (R41, R42, R63). -/
theorem State.inv_arriveRead {s : State} (part : Nat) (slot : BitVec 8) (pa n : Nat) (ecc : Ecc) (h : s.Inv) :
    (s.arriveRead part slot pa n ecc).1.Inv := by
  have hs : ((s.touch pa 1).sample part pa).Inv := State.inv_of_mem (State.sample_mem _ _ _) (State.inv_of_mem (s := s) rfl h)
  have he := State.inv_eccEvent slot pa n ecc hs
  unfold State.arriveRead
  dsimp only
  split
  · exact he
  · split
    · exact he
    · exact State.inv_fillLine _ _ _ he

/-! ### An agent's reads and its walks -/

theorem State.inv_agentRead {s : State} (ag : Agent) (unc : Bool) (slot : BitVec 8) (pa n : Nat) (ecc : Ecc) (h : s.Inv) :
    (s.agentRead ag unc slot pa n ecc).1.Inv := by
  have hu : (s.noteUse ag.part pa unc).Inv := State.inv_of_mem (s := s) rfl h
  unfold State.agentRead
  dsimp only
  apply State.inv_arriveRead
  split
  · exact State.inv_askWords _ _ _ _ _ _ hu
  · exact hu

/-- The reads of a walk keep the canonical form of memory (R48). -/
theorem State.inv_noteWalk {s : State} (part : Nat) (k : VKey) (h : s.Inv) : (s.noteWalk part k).Inv := by
  refine State.inv_foldl _ _ (fun t pa ht => ?_) h
  have ha := State.inv_arriveRead part 0 pa 8 .clean ht
  split <;> rename_i he <;> rw [he] at ha
  · exact State.inv_recordLoss _ _ _ _ _ _ _ ha
  · exact ha

theorem State.inv_noteXlat {s : State} (st : Stream) (x : Xlat) (h : s.Inv) : (s.noteXlat st x).Inv := by
  unfold State.noteXlat
  split
  · exact h
  · exact State.inv_noteWalk _ _ h

theorem State.inv_noteAgXlat {s : State} (ag : Agent) (x : Xlat) (h : s.Inv) : (s.noteAgXlat ag x).Inv := by
  unfold State.noteAgXlat
  split
  · exact h
  · exact State.inv_noteXlat _ _ h

theorem State.inv_updAgent {s : State} (id : Nat) (f : Agent → Agent) (h : s.Inv) : (s.updAgent id f).Inv := by
  unfold State.updAgent
  split
  · exact State.inv_of_mem (s := s) rfl h
  · exact h

/-- An agent's read of the package store keeps the canonical form of memory. -/
theorem State.inv_noteRead {s : State} (id : Nat) (ag : Agent) (x : Xlat) (pa n : Nat) (h : s.Inv) :
    (s.noteRead id ag x pa n).Inv := by
  have ha := State.inv_agentRead ag (pteUnc x.pte) (pteSlot x.pte) pa n .clean (State.inv_noteAgXlat ag x h)
  unfold State.noteRead
  split <;> rename_i he <;> rw [he] at ha
  · exact State.inv_updAgent _ _ (State.inv_recordLoss _ _ _ _ _ _ _ ha)
  · exact ha

end Sys2Proof.Machine
end

