-- ==== Sys2Proof/Laws/Ops.lean ====
section
/-! SUPPORT. Laws of the shared operations: what issuing, retiring, waiting and taking a trap answer. -/
namespace Sys2Proof.Machine

/-! ### Who moves -/

/-- The mover is the live agent whose turn it is. -/
theorem State.mover_eq {s : State} {id : Nat} {ag : Agent} (h : s.mover = some (id, ag)) :
    s.cur = .agent id ∧ s.agent? id = some ag ∧ ag.live = true := by
  unfold State.mover at h
  split at h
  · rename_i i hc
    split at h
    · rename_i a ha
      split at h
      · cases h; exact ⟨hc, ha, ‹_›⟩
      · cases h
    · cases h
  · cases h

theorem State.mover_of {s : State} {id : Nat} {ag : Agent} (hc : s.cur = .agent id) (ha : s.agent? id = some ag)
    (hl : ag.live = true) : s.mover = some (id, ag) := by simp [State.mover, hc, ha, hl]

/-! ### Issue (R109, R118, R119) -/

theorem onMover_of {s : State} {id : Nat} {ag : Agent} (k : Nat → Agent → State) (h : s.mover = some (id, ag)) :
    onMover s k = .next (k id ag) := by simp [onMover, h]

/-- What an instruction's meaning over its mover can answer. -/
theorem onMover_cases (s : State) (k : Nat → Agent → State) :
    (∃ id ag, s.mover = some (id, ag) ∧ onMover s k = .next (k id ag)) ∨ (s.mover = none ∧ onMover s k = .fault .noMover) := by
  rcases h : s.mover with _ | ⟨id, ag⟩
  · exact .inr ⟨rfl, by simp [onMover, h]⟩
  · exact .inl ⟨id, ag, rfl, by simp [onMover, h]⟩

theorem issue_of {s : State} {id : Nat} {ag : Agent} {legal : Profile → Bool} {g : BitVec 2} (k : Nat → Agent → State)
    (h : s.mover = some (id, ag)) (hg : ag.profile ≠ .wave → g = 0) (hl : legal ag.profile = true) :
    issue legal g s k = .next (k id ag) := by
  have : ¬(ag.profile ≠ .wave ∧ g ≠ 0) := fun hc => hc.2 (hg hc.1)
  rw [issue, onMover_of _ h, if_neg this, hl]; rfl

/-- Everything issuing can do: no mover, the two traps of the frame, or the instruction's own effect. -/
theorem issue_cases (legal : Profile → Bool) (g : BitVec 2) (s : State) (k : Nat → Agent → State) :
    (s.mover = none ∧ issue legal g s k = .fault .noMover) ∨
    (∃ id ag, s.mover = some (id, ag) ∧
      ((ag.profile ≠ .wave ∧ g ≠ 0 ∧ issue legal g s k = .next (trapWord s id ag 0x01)) ∨
       (legal ag.profile = false ∧ issue legal g s k = .next (trapWord s id ag 0x03)) ∨
       (legal ag.profile = true ∧ issue legal g s k = .next (k id ag)))) := by
  rcases h : s.mover with _ | ⟨id, ag⟩
  · exact .inl ⟨rfl, by simp [issue, onMover, h]⟩
  · refine .inr ⟨id, ag, rfl, ?_⟩
    by_cases hg : ag.profile ≠ .wave ∧ g ≠ 0
    · exact .inl ⟨hg.1, hg.2, by rw [issue, onMover_of _ h, if_pos hg]⟩
    · rcases hl : legal ag.profile with _ | _
      · exact .inr (.inl ⟨rfl, by rw [issue, onMover_of _ h, if_neg hg, hl]; rfl⟩)
      · exact .inr (.inr ⟨rfl, by rw [issue, onMover_of _ h, if_neg hg, hl]; rfl⟩)

theorem issueOnce_of {s : State} {id : Nat} {ag : Agent} {legal : Profile → Bool} {g : BitVec 2} (k : Nat → Agent → State)
    (h : s.mover = some (id, ag)) (hi : ag.Issues g) (hl : legal ag.profile = true) :
    issueOnce legal g s k = .next (k id ag) := by
  rw [issueOnce, issue_of _ h hi.2 hl]
  by_cases hw : ag.profile = .wave
  · simp [hi.1 hw]
  · simp [hw]

/-- A slot of a wave whose guard does not fire only retires (R109). -/
theorem issueOnce_silent {s : State} {id : Nat} {ag : Agent} {legal : Profile → Bool} {g : BitVec 2} (k : Nat → Agent → State)
    (h : s.mover = some (id, ag)) (hw : ag.profile = .wave) (hf : ag.fires g = false) (hl : legal .wave = true) :
    issueOnce legal g s k = .next (retire s id ag) := by
  rw [issueOnce, issue_of _ h (fun hc => absurd hw hc) (hw ▸ hl)]
  simp [hw, hf]

theorem regOp_of {s : State} {id : Nat} {ag : Agent} {legal : Profile → Bool} {g : BitVec 2} (f : Agent → Agent)
    (h : s.mover = some (id, ag)) (hi : ag.Issues g) (hl : legal ag.profile = true) :
    regOp legal g s f = .next (retire s id (f ag)) := issueOnce_of _ h hi hl

theorem vecOp_of {s : State} {id : Nat} {ag : Agent} {g : BitVec 2} (f : Mask → Agent → Agent)
    (h : s.mover = some (id, ag)) (hw : ag.profile = .wave) :
    vecOp g s f = .next (retire s id (f (ag.active g) ag)) :=
  issue_of _ h (fun hc => absurd hw hc) (by simp [hw, waveOnly])

/-! ### Retiring and waiting -/

/-- Within a run and outside REP, retiring moves on to the next instruction and does nothing else. -/
theorem retire_midrun (s : State) (id : Nat) (ag : Agent) (hr : ag.run.rep = none) (hi : ag.run.idx + 1 < ag.run.cnt) :
    retire s id ag = s.putAgent id { ag with
      wait := .none
      run := { ag.run with off := ag.run.off + ag.run.ilen, idx := ag.run.idx + 1, rep := none, resumed := false } } := by
  simp [retire, nextInstr, hr, hi]

/-- A state that differs from `s` in one agent, and in the mark that others move where the agent waits. -/
def AgentStep (s : State) (id : Nat) (t : State) : Prop :=
  ∃ x : Agent, t = s.putAgent id x ∨ t = { s.putAgent id x with stalled := true }

theorem AgentStep.frame {s t : State} {id : Nat} (h : AgentStep s id t) :
    ∃ x : Agent, t = { s.putAgent id x with stalled := t.stalled } := by
  obtain ⟨x, rfl | rfl⟩ := h <;> exact ⟨x, rfl⟩

theorem AgentStep.inv {s t : State} {id : Nat} (h : AgentStep s id t) (hs : s.Inv) : t.Inv := by
  obtain ⟨x, rfl | rfl⟩ := h <;> exact State.inv_of_mem (s := s) rfl hs

/-- The end of a pass without a SPLIT changes its agent alone. -/
theorem endPass_agent (s : State) (id : Nat) (ag : Agent) (h : ∀ p q m k, ag.run.pend ≠ .split p q m k) :
    AgentStep s id (endPass s id ag) := by
  unfold endPass
  dsimp only
  split
  · exact ⟨_, .inr rfl⟩
  split
  · split <;> exact ⟨_, .inl rfl⟩
  · exact ⟨_, .inl rfl⟩
  · rename_i hp; exact absurd hp (h _ _ _ _)
  · split
    · exact ⟨_, .inl rfl⟩
    · split <;> exact ⟨_, .inl rfl⟩
  · unfold returnFromTrap
    dsimp only
    split <;> exact ⟨_, .inl rfl⟩

/-- Retiring changes its agent alone, unless a SPLIT ends the pass. -/
theorem retire_agent (s : State) (id : Nat) (ag : Agent) (h : ∀ p q m k, ag.run.pend ≠ .split p q m k) :
    AgentStep s id (retire s id ag) := by
  have hn : ∀ a : Agent, (∀ p q m k, a.run.pend ≠ .split p q m k) → AgentStep s id (nextInstr s id a) := by
    intro a ha
    unfold nextInstr
    dsimp only
    split
    · exact ⟨_, .inl rfl⟩
    · exact endPass_agent s id _ ha
  unfold retire
  dsimp only
  split
  · split
    · exact ⟨_, .inl rfl⟩
    · exact hn _ h
  · exact hn _ h

/-- Retiring keeps the canonical form of memory; only a divergence stack that spills is written (R296). -/
theorem State.inv_pushEntry {s : State} (ag : Agent) (e : DEntry) (h : s.Inv) : (s.pushEntry ag e).1.Inv := by
  unfold State.pushEntry
  split
  · exact h
  · exact State.inv_spadWrite _ _ _ h

theorem inv_retire {s : State} (id : Nat) (ag : Agent) (h : s.Inv) : (retire s id ag).Inv := by
  by_cases hp : ∃ p q m k, ag.run.pend = .split p q m k
  · have he : ∀ a : Agent, (endPass s id a).Inv := by
      intro a
      unfold endPass
      dsimp only
      split
      · exact State.inv_of_mem (s := s) rfl h
      split
      · split <;> exact State.inv_of_mem (s := s) rfl h
      · exact State.inv_of_mem (s := s) rfl h
      · exact State.inv_of_mem (s := (s.pushEntry a _).1) rfl (State.inv_pushEntry a _ h)
      · split
        · exact State.inv_of_mem (s := s) rfl h
        · split <;> exact State.inv_of_mem (s := s) rfl h
      · unfold returnFromTrap
        dsimp only
        split <;> exact State.inv_of_mem (s := s) rfl h
    have hn : ∀ a : Agent, (nextInstr s id a).Inv := by
      intro a
      unfold nextInstr
      dsimp only
      split
      · exact State.inv_of_mem (s := s) rfl h
      · exact he _
    unfold retire
    dsimp only
    split
    · split
      · exact State.inv_of_mem (s := s) rfl h
      · exact hn _
    · exact hn _
  · exact (retire_agent s id ag (fun p q m k hc => hp ⟨p, q, m, k, hc⟩)).inv h

@[simp] theorem waitFor_mem (s : State) (id : Nat) (ag : Agent) (w : Wait) : (waitFor s id ag w).mem = s.mem := rfl
@[simp] theorem waitFor_stalled (s : State) (id : Nat) (ag : Agent) (w : Wait) : (waitFor s id ag w).stalled = true := rfl
@[simp] theorem waitFor_agent? (s : State) (id : Nat) (ag : Agent) (w : Wait) :
    (waitFor s id ag w).agent? id = some { ag with wait := w } := by
  simp [waitFor, State.agent?, State.putAgent]

/-! ### Taking a trap (R345 to R350) -/

/-- A synchronous trap inside a handler is a double trap: the agent ends, with a record (R349). -/
theorem takeTrap_double (s : State) (id : Nat) (ag : Agent) (c : Nat) (tepc tval : DWord) (hi : ag.inh = true) (hc : c < 0x20) :
    takeTrap s id ag c tepc tval = s.endByTrap id { ag with wait := .none } 0x34 c tepc := by
  have : ¬(0x20 ≤ c) := by omega
  have hj : ({ ag with wait := Wait.none } : Agent).inh = true := hi
  simp [takeTrap, hj, this]

/-- The agent at the first header of its handler: cause, address, value and the interrupted run saved, the bank swapped (R348). -/
def Agent.trapped (ag : Agent) (c : Nat) (tepc tval : DWord) : Agent :=
  ({ ag with wait := .none, tcause := tcauseTaken ag.tcause c, tepc := tepc, tval := tval, saved := ag.run } : Agent).swapBank

/-- The state once a trapped agent's entry of the trap table has been read. -/
def State.trapRead (s : State) (id : Nat) (ag : Agent) (c : Nat) (tepc tval : DWord) : State :=
  ((s.putAgent id { ag with wait := .none }).putAgent id (ag.trapped c tepc tval)).noteTrapRead id (ag.trapped c tepc tval) c

/-- A handler that is found lies in a table entry of this package (R242, R347). -/
theorem State.trapFar_of_handler {s : State} {ag : Agent} {c : Nat} {h : DWord} (hh : s.handler ag c = some h) :
    s.trapFar ag c = false := by
  unfold State.handler State.trapEntry at hh
  unfold State.trapFar
  dsimp only at hh
  split at hh
  · simp at hh
  · rename_i hn; simp only [Bool.or_eq_true, not_or, Bool.not_eq_true] at hn; simp [hn.2]

/-- With no SFU entry in flight, a trap outside a handler saves cause, address and value, swaps the bank, and goes to the
handler's first header (R348): the entry of its table that holds one lies on this package. -/
theorem takeTrap_enter (s : State) (id : Nat) (ag : Agent) (c : Nat) (tepc tval h : DWord) (hi : ag.inh = false)
    (hw : ag.profile ≠ .wave)
    (hh : (s.putAgent id { ag with wait := .none }).handler (ag.trapped c tepc tval) c = some h) :
    takeTrap s id ag c tepc tval = (s.trapRead id ag c tepc tval).putAgent id
      { ((s.trapRead id ag c tepc tval).agent? id).getD (ag.trapped c tepc tval) with run := { pc := h }, wait := .none } := by
  have hj : ({ ag with wait := Wait.none } : Agent).inh = false := hi
  have hf := State.trapFar_of_handler hh
  unfold Agent.trapped at hh hf
  simp only [takeTrap, hj, State.drainSfu, hw, hh, hf, State.enterHandler, State.trapRead, Agent.trapped, Bool.false_eq_true,
    if_false, State.putAgent_agent?_self]

theorem State.inv_sfuExec {s : State} (u : Nat) (e : SfuEntry) (h : s.Inv) : (s.sfuExec u e).Inv := by
  unfold State.sfuExec
  dsimp only
  split
  · exact State.inv_of_mem (s := s) rfl h
  · exact State.inv_updAgent _ _ h

theorem State.inv_sfuRun (u : Nat) : ∀ (n : Nat) {s : State}, s.Inv → (s.sfuRun u n).Inv := by
  intro n
  induction n with
  | zero => intro s h; exact h
  | succ n ih =>
    intro s h
    unfold State.sfuRun
    split
    · exact h
    · exact ih (State.inv_sfuExec u _ (State.inv_of_mem (s := s) rfl h))

theorem State.inv_drainSfu {s : State} (id : Nat) (ag : Agent) (h : s.Inv) : (s.drainSfu id ag).Inv := by
  unfold State.drainSfu
  split
  · exact State.inv_sfuRun _ _ h
  · exact h

theorem State.inv_endByTrap {s : State} (id : Nat) (ag : Agent) (kind c : Nat) (tepc : DWord) (h : s.Inv) :
    (s.endByTrap id ag kind c tepc).Inv := by
  unfold State.endByTrap
  split
  · exact State.inv_of_mem (s := s) rfl h
  · exact State.inv_record _ _ _ _ (State.inv_of_mem (s := s) rfl h)

theorem State.inv_violationOf {s : State} (ag : Agent) (slot : BitVec 8) (pa : Nat) (h : s.Inv) : (s.violationOf ag slot pa).Inv := by
  unfold State.violationOf State.violation
  split
  · exact h
  · split
    · exact State.inv_record _ _ _ _ h
    · split
      · exact State.inv_record _ _ _ _ h
      · exact h

theorem State.inv_noteTrapRead {s : State} (id : Nat) (ag : Agent) (c : Nat) (h : s.Inv) : (s.noteTrapRead id ag c).Inv := by
  unfold State.noteTrapRead
  split
  · split
    · exact State.inv_noteRead _ _ _ _ _ h
    · exact State.inv_violationOf _ _ _ h
  · exact h

@[simp] theorem State.sendFlit_mem (s : State) (path : Nat) : (s.sendFlit path).mem = s.mem := by
  unfold State.sendFlit
  split <;> rfl
@[simp] theorem State.sendOff_mem (s : State) : s.sendOff.mem = s.mem := by
  unfold State.sendOff
  split
  · exact State.sendFlit_mem s _
  · rfl

theorem State.inv_enterHandler {s : State} (id : Nat) (ag : Agent) (c : Nat) (tepc : DWord) (o : Option DWord) (h : s.Inv) :
    (s.enterHandler id ag c tepc o).Inv := by
  unfold State.enterHandler
  split
  · exact State.inv_of_mem (s := s) rfl h
  · exact State.inv_endByTrap _ _ _ _ _ h

/-- Taking a trap keeps the canonical form of memory: its records, and what reading the table brings, alone are written. -/
theorem inv_takeTrap {s : State} (id : Nat) (ag : Agent) (c : Nat) (tepc tval : DWord) (h : s.Inv) :
    (takeTrap s id ag c tepc tval).Inv := by
  unfold takeTrap
  dsimp only
  split
  · split
    · exact State.inv_of_mem (s := s) rfl h
    · exact State.inv_endByTrap _ _ _ _ _ h
  · have hd := State.inv_drainSfu id { ag with wait := .none } (State.inv_of_mem (t := s.putAgent id { ag with wait := .none }) rfl h)
    split
    · exact hd
    · split
      · exact State.inv_of_mem (State.sendOff_mem _) hd
      · exact State.inv_enterHandler _ _ _ _ _ (State.inv_noteTrapRead id _ c (State.inv_of_mem (t := State.putAgent _ id _) rfl hd))

theorem inv_trapHere {s : State} (id : Nat) (ag : Agent) (c : Nat) (tval : DWord) (h : s.Inv) : (trapHere s id ag c tval).Inv :=
  inv_takeTrap id _ c _ tval h

/-- Issuing keeps the canonical form of memory where the instruction's own effect does. -/
theorem inv_issue {s t : State} {legal : Profile → Bool} {g : BitVec 2} {k : Nat → Agent → State}
    (hk : ∀ id ag, (k id ag).Inv) (h : s.Inv) (ht : issue legal g s k = .next t) : t.Inv := by
  rcases issue_cases legal g s k with ⟨_, he⟩ | ⟨id, ag, _, ⟨_, _, he⟩ | ⟨_, he⟩ | ⟨_, he⟩⟩ <;> rw [he] at ht <;> cases ht
  · exact inv_trapHere id ag _ _ h
  · exact inv_trapHere id ag _ _ h
  · exact hk id ag

theorem inv_issueOnce {s t : State} {legal : Profile → Bool} {g : BitVec 2} {k : Nat → Agent → State}
    (hk : ∀ id ag, (k id ag).Inv) (h : s.Inv) (ht : issueOnce legal g s k = .next t) : t.Inv := by
  refine inv_issue (fun id ag => ?_) h ht
  split
  · exact inv_retire id ag h
  · exact hk id ag

/-- An instruction that changes registers alone keeps the canonical form of memory. -/
theorem inv_regOp {s t : State} {legal : Profile → Bool} {g : BitVec 2} {f : Agent → Agent} (h : s.Inv)
    (ht : regOp legal g s f = .next t) : t.Inv := inv_issueOnce (fun id ag => inv_retire id (f ag) h) h ht

theorem inv_vecOp {s t : State} {g : BitVec 2} {f : Mask → Agent → Agent} (h : s.Inv) (ht : vecOp g s f = .next t) : t.Inv :=
  inv_issue (fun id _ => inv_retire id _ h) h ht

end Sys2Proof.Machine
end

