-- ==== Sys2Proof/Laws/Registers.lean ====
section
/-! SUPPORT. Laws of an agent's registers: what a register reads after a write, and what each write leaves alone. -/
namespace Sys2Proof.Machine

/-! ### What each write leaves alone -/

@[simp] theorem Agent.sSet_profile (ag : Agent) (r : Nat) (w : Word) : (ag.sSet r w).profile = ag.profile := by
  unfold Agent.sSet; split <;> rfl
@[simp] theorem Agent.sSet_live (ag : Agent) (r : Nat) (w : Word) : (ag.sSet r w).live = ag.live := by
  unfold Agent.sSet; split <;> rfl
@[simp] theorem Agent.sSet_part (ag : Agent) (r : Nat) (w : Word) : (ag.sSet r w).part = ag.part := by
  unfold Agent.sSet; split <;> rfl
@[simp] theorem Agent.sSet_launch (ag : Agent) (r : Nat) (w : Word) : (ag.sSet r w).launch = ag.launch := by
  unfold Agent.sSet; split <;> rfl
@[simp] theorem Agent.sSet_die (ag : Agent) (r : Nat) (w : Word) : (ag.sSet r w).die = ag.die := by
  unfold Agent.sSet; split <;> rfl
@[simp] theorem Agent.sSet_cu (ag : Agent) (r : Nat) (w : Word) : (ag.sSet r w).cu = ag.cu := by
  unfold Agent.sSet; split <;> rfl
@[simp] theorem Agent.sSet_slot (ag : Agent) (r : Nat) (w : Word) : (ag.sSet r w).slot = ag.slot := by
  unfold Agent.sSet; split <;> rfl
@[simp] theorem Agent.sSet_gw (ag : Agent) (r : Nat) (w : Word) : (ag.sSet r w).gw = ag.gw := by
  unfold Agent.sSet; split <;> rfl
@[simp] theorem Agent.sSet_inst (ag : Agent) (r : Nat) (w : Word) : (ag.sSet r w).inst = ag.inst := by
  unfold Agent.sSet; split <;> rfl
@[simp] theorem Agent.sSet_v (ag : Agent) (r : Nat) (w : Word) : (ag.sSet r w).v = ag.v := by
  unfold Agent.sSet; split <;> rfl
@[simp] theorem Agent.sSet_k (ag : Agent) (r : Nat) (w : Word) : (ag.sSet r w).k = ag.k := by
  unfold Agent.sSet; split <;> rfl
@[simp] theorem Agent.sSet_bt (ag : Agent) (r : Nat) (w : Word) : (ag.sSet r w).bt = ag.bt := by
  unfold Agent.sSet; split <;> rfl
@[simp] theorem Agent.sSet_h (ag : Agent) (r : Nat) (w : Word) : (ag.sSet r w).h = ag.h := by
  unfold Agent.sSet; split <;> rfl
@[simp] theorem Agent.sSet_d (ag : Agent) (r : Nat) (w : Word) : (ag.sSet r w).d = ag.d := by
  unfold Agent.sSet; split <;> rfl
@[simp] theorem Agent.sSet_x (ag : Agent) (r : Nat) (w : Word) : (ag.sSet r w).x = ag.x := by
  unfold Agent.sSet; split <;> rfl
@[simp] theorem Agent.sSet_rmode (ag : Agent) (r : Nat) (w : Word) : (ag.sSet r w).rmode = ag.rmode := by
  unfold Agent.sSet; split <;> rfl
@[simp] theorem Agent.sSet_seed (ag : Agent) (r : Nat) (w : Word) : (ag.sSet r w).seed = ag.seed := by
  unfold Agent.sSet; split <;> rfl
@[simp] theorem Agent.sSet_rstat (ag : Agent) (r : Nat) (w : Word) : (ag.sSet r w).rstat = ag.rstat := by
  unfold Agent.sSet; split <;> rfl
@[simp] theorem Agent.sSet_dmem (ag : Agent) (r : Nat) (w : Word) : (ag.sSet r w).dmem = ag.dmem := by
  unfold Agent.sSet; split <;> rfl
@[simp] theorem Agent.sSet_npdist (ag : Agent) (r : Nat) (w : Word) : (ag.sSet r w).npdist = ag.npdist := by
  unfold Agent.sSet; split <;> rfl
@[simp] theorem Agent.sSet_repst (ag : Agent) (r : Nat) (w : Word) : (ag.sSet r w).repst = ag.repst := by
  unfold Agent.sSet; split <;> rfl
@[simp] theorem Agent.sSet_tcause (ag : Agent) (r : Nat) (w : Word) : (ag.sSet r w).tcause = ag.tcause := by
  unfold Agent.sSet; split <;> rfl
@[simp] theorem Agent.sSet_tepc (ag : Agent) (r : Nat) (w : Word) : (ag.sSet r w).tepc = ag.tepc := by
  unfold Agent.sSet; split <;> rfl
@[simp] theorem Agent.sSet_tval (ag : Agent) (r : Nat) (w : Word) : (ag.sSet r w).tval = ag.tval := by
  unfold Agent.sSet; split <;> rfl
@[simp] theorem Agent.sSet_dspill (ag : Agent) (r : Nat) (w : Word) : (ag.sSet r w).dspill = ag.dspill := by
  unfold Agent.sSet; split <;> rfl
@[simp] theorem Agent.sSet_stk (ag : Agent) (r : Nat) (w : Word) : (ag.sSet r w).stk = ag.stk := by
  unfold Agent.sSet; split <;> rfl
@[simp] theorem Agent.sSet_depth (ag : Agent) (r : Nat) (w : Word) : (ag.sSet r w).depth = ag.depth := by
  unfold Agent.sSet; split <;> rfl
@[simp] theorem Agent.sSet_bankS (ag : Agent) (r : Nat) (w : Word) : (ag.sSet r w).bankS = ag.bankS := by
  unfold Agent.sSet; split <;> rfl
@[simp] theorem Agent.sSet_bankBt (ag : Agent) (r : Nat) (w : Word) : (ag.sSet r w).bankBt = ag.bankBt := by
  unfold Agent.sSet; split <;> rfl
@[simp] theorem Agent.sSet_run (ag : Agent) (r : Nat) (w : Word) : (ag.sSet r w).run = ag.run := by
  unfold Agent.sSet; split <;> rfl
@[simp] theorem Agent.sSet_saved (ag : Agent) (r : Nat) (w : Word) : (ag.sSet r w).saved = ag.saved := by
  unfold Agent.sSet; split <;> rfl
@[simp] theorem Agent.sSet_strm (ag : Agent) (r : Nat) (w : Word) : (ag.sSet r w).strm = ag.strm := by
  unfold Agent.sSet; split <;> rfl
@[simp] theorem Agent.sSet_opens (ag : Agent) (r : Nat) (w : Word) : (ag.sSet r w).opens = ag.opens := by
  unfold Agent.sSet; split <;> rfl
@[simp] theorem Agent.sSet_pend (ag : Agent) (r : Nat) (w : Word) : (ag.sSet r w).pend = ag.pend := by
  unfold Agent.sSet; split <;> rfl
@[simp] theorem Agent.sSet_mods (ag : Agent) (r : Nat) (w : Word) : (ag.sSet r w).mods = ag.mods := by
  unfold Agent.sSet; split <;> rfl
@[simp] theorem Agent.sSet_nextTag (ag : Agent) (r : Nat) (w : Word) : (ag.sSet r w).nextTag = ag.nextTag := by
  unfold Agent.sSet; split <;> rfl
@[simp] theorem Agent.sSet_unrep (ag : Agent) (r : Nat) (w : Word) : (ag.sSet r w).unrep = ag.unrep := by
  unfold Agent.sSet; split <;> rfl
@[simp] theorem Agent.sSet_remVal (ag : Agent) (r : Nat) (w : Word) : (ag.sSet r w).remVal = ag.remVal := by
  unfold Agent.sSet; split <;> rfl
@[simp] theorem Agent.sSet_engVal (ag : Agent) (r : Nat) (w : Word) : (ag.sSet r w).engVal = ag.engVal := by
  unfold Agent.sSet; split <;> rfl
@[simp] theorem Agent.sSet_recVal (ag : Agent) (r : Nat) (w : Word) : (ag.sSet r w).recVal = ag.recVal := by
  unfold Agent.sSet; split <;> rfl
@[simp] theorem Agent.sSet_stErr (ag : Agent) (r : Nat) (w : Word) : (ag.sSet r w).stErr = ag.stErr := by
  unfold Agent.sSet; split <;> rfl
@[simp] theorem Agent.sSet_wait (ag : Agent) (r : Nat) (w : Word) : (ag.sSet r w).wait = ag.wait := by
  unfold Agent.sSet; split <;> rfl
@[simp] theorem Agent.sSet_nDbar (ag : Agent) (r : Nat) (w : Word) : (ag.sSet r w).nDbar = ag.nDbar := by
  unfold Agent.sSet; split <;> rfl
@[simp] theorem Agent.sSet_nAllred (ag : Agent) (r : Nat) (w : Word) : (ag.sSet r w).nAllred = ag.nAllred := by
  unfold Agent.sSet; split <;> rfl
@[simp] theorem Agent.sSet_lastT (ag : Agent) (r : Nat) (w : Word) : (ag.sSet r w).lastT = ag.lastT := by
  unfold Agent.sSet; split <;> rfl
@[simp] theorem Agent.sSet_yielded (ag : Agent) (r : Nat) (w : Word) : (ag.sSet r w).yielded = ag.yielded := by
  unfold Agent.sSet; split <;> rfl

@[simp] theorem Agent.kSet_profile (ag : Agent) (r : Nat) (act val : Mask) : (ag.kSet r act val).profile = ag.profile := by
  unfold Agent.kSet; split <;> rfl
@[simp] theorem Agent.kSet_live (ag : Agent) (r : Nat) (act val : Mask) : (ag.kSet r act val).live = ag.live := by
  unfold Agent.kSet; split <;> rfl
@[simp] theorem Agent.kSet_part (ag : Agent) (r : Nat) (act val : Mask) : (ag.kSet r act val).part = ag.part := by
  unfold Agent.kSet; split <;> rfl
@[simp] theorem Agent.kSet_launch (ag : Agent) (r : Nat) (act val : Mask) : (ag.kSet r act val).launch = ag.launch := by
  unfold Agent.kSet; split <;> rfl
@[simp] theorem Agent.kSet_die (ag : Agent) (r : Nat) (act val : Mask) : (ag.kSet r act val).die = ag.die := by
  unfold Agent.kSet; split <;> rfl
@[simp] theorem Agent.kSet_cu (ag : Agent) (r : Nat) (act val : Mask) : (ag.kSet r act val).cu = ag.cu := by
  unfold Agent.kSet; split <;> rfl
@[simp] theorem Agent.kSet_slot (ag : Agent) (r : Nat) (act val : Mask) : (ag.kSet r act val).slot = ag.slot := by
  unfold Agent.kSet; split <;> rfl
@[simp] theorem Agent.kSet_gw (ag : Agent) (r : Nat) (act val : Mask) : (ag.kSet r act val).gw = ag.gw := by
  unfold Agent.kSet; split <;> rfl
@[simp] theorem Agent.kSet_inst (ag : Agent) (r : Nat) (act val : Mask) : (ag.kSet r act val).inst = ag.inst := by
  unfold Agent.kSet; split <;> rfl
@[simp] theorem Agent.kSet_s (ag : Agent) (r : Nat) (act val : Mask) : (ag.kSet r act val).s = ag.s := by
  unfold Agent.kSet; split <;> rfl
@[simp] theorem Agent.kSet_v (ag : Agent) (r : Nat) (act val : Mask) : (ag.kSet r act val).v = ag.v := by
  unfold Agent.kSet; split <;> rfl
@[simp] theorem Agent.kSet_bt (ag : Agent) (r : Nat) (act val : Mask) : (ag.kSet r act val).bt = ag.bt := by
  unfold Agent.kSet; split <;> rfl
@[simp] theorem Agent.kSet_h (ag : Agent) (r : Nat) (act val : Mask) : (ag.kSet r act val).h = ag.h := by
  unfold Agent.kSet; split <;> rfl
@[simp] theorem Agent.kSet_d (ag : Agent) (r : Nat) (act val : Mask) : (ag.kSet r act val).d = ag.d := by
  unfold Agent.kSet; split <;> rfl
@[simp] theorem Agent.kSet_x (ag : Agent) (r : Nat) (act val : Mask) : (ag.kSet r act val).x = ag.x := by
  unfold Agent.kSet; split <;> rfl
@[simp] theorem Agent.kSet_rmode (ag : Agent) (r : Nat) (act val : Mask) : (ag.kSet r act val).rmode = ag.rmode := by
  unfold Agent.kSet; split <;> rfl
@[simp] theorem Agent.kSet_seed (ag : Agent) (r : Nat) (act val : Mask) : (ag.kSet r act val).seed = ag.seed := by
  unfold Agent.kSet; split <;> rfl
@[simp] theorem Agent.kSet_rstat (ag : Agent) (r : Nat) (act val : Mask) : (ag.kSet r act val).rstat = ag.rstat := by
  unfold Agent.kSet; split <;> rfl
@[simp] theorem Agent.kSet_dmem (ag : Agent) (r : Nat) (act val : Mask) : (ag.kSet r act val).dmem = ag.dmem := by
  unfold Agent.kSet; split <;> rfl
@[simp] theorem Agent.kSet_npdist (ag : Agent) (r : Nat) (act val : Mask) : (ag.kSet r act val).npdist = ag.npdist := by
  unfold Agent.kSet; split <;> rfl
@[simp] theorem Agent.kSet_repst (ag : Agent) (r : Nat) (act val : Mask) : (ag.kSet r act val).repst = ag.repst := by
  unfold Agent.kSet; split <;> rfl
@[simp] theorem Agent.kSet_tcause (ag : Agent) (r : Nat) (act val : Mask) : (ag.kSet r act val).tcause = ag.tcause := by
  unfold Agent.kSet; split <;> rfl
@[simp] theorem Agent.kSet_tepc (ag : Agent) (r : Nat) (act val : Mask) : (ag.kSet r act val).tepc = ag.tepc := by
  unfold Agent.kSet; split <;> rfl
@[simp] theorem Agent.kSet_tval (ag : Agent) (r : Nat) (act val : Mask) : (ag.kSet r act val).tval = ag.tval := by
  unfold Agent.kSet; split <;> rfl
@[simp] theorem Agent.kSet_dspill (ag : Agent) (r : Nat) (act val : Mask) : (ag.kSet r act val).dspill = ag.dspill := by
  unfold Agent.kSet; split <;> rfl
@[simp] theorem Agent.kSet_stk (ag : Agent) (r : Nat) (act val : Mask) : (ag.kSet r act val).stk = ag.stk := by
  unfold Agent.kSet; split <;> rfl
@[simp] theorem Agent.kSet_depth (ag : Agent) (r : Nat) (act val : Mask) : (ag.kSet r act val).depth = ag.depth := by
  unfold Agent.kSet; split <;> rfl
@[simp] theorem Agent.kSet_bankS (ag : Agent) (r : Nat) (act val : Mask) : (ag.kSet r act val).bankS = ag.bankS := by
  unfold Agent.kSet; split <;> rfl
@[simp] theorem Agent.kSet_bankBt (ag : Agent) (r : Nat) (act val : Mask) : (ag.kSet r act val).bankBt = ag.bankBt := by
  unfold Agent.kSet; split <;> rfl
@[simp] theorem Agent.kSet_run (ag : Agent) (r : Nat) (act val : Mask) : (ag.kSet r act val).run = ag.run := by
  unfold Agent.kSet; split <;> rfl
@[simp] theorem Agent.kSet_saved (ag : Agent) (r : Nat) (act val : Mask) : (ag.kSet r act val).saved = ag.saved := by
  unfold Agent.kSet; split <;> rfl
@[simp] theorem Agent.kSet_strm (ag : Agent) (r : Nat) (act val : Mask) : (ag.kSet r act val).strm = ag.strm := by
  unfold Agent.kSet; split <;> rfl
@[simp] theorem Agent.kSet_opens (ag : Agent) (r : Nat) (act val : Mask) : (ag.kSet r act val).opens = ag.opens := by
  unfold Agent.kSet; split <;> rfl
@[simp] theorem Agent.kSet_pend (ag : Agent) (r : Nat) (act val : Mask) : (ag.kSet r act val).pend = ag.pend := by
  unfold Agent.kSet; split <;> rfl
@[simp] theorem Agent.kSet_mods (ag : Agent) (r : Nat) (act val : Mask) : (ag.kSet r act val).mods = ag.mods := by
  unfold Agent.kSet; split <;> rfl
@[simp] theorem Agent.kSet_nextTag (ag : Agent) (r : Nat) (act val : Mask) : (ag.kSet r act val).nextTag = ag.nextTag := by
  unfold Agent.kSet; split <;> rfl
@[simp] theorem Agent.kSet_unrep (ag : Agent) (r : Nat) (act val : Mask) : (ag.kSet r act val).unrep = ag.unrep := by
  unfold Agent.kSet; split <;> rfl
@[simp] theorem Agent.kSet_remVal (ag : Agent) (r : Nat) (act val : Mask) : (ag.kSet r act val).remVal = ag.remVal := by
  unfold Agent.kSet; split <;> rfl
@[simp] theorem Agent.kSet_engVal (ag : Agent) (r : Nat) (act val : Mask) : (ag.kSet r act val).engVal = ag.engVal := by
  unfold Agent.kSet; split <;> rfl
@[simp] theorem Agent.kSet_recVal (ag : Agent) (r : Nat) (act val : Mask) : (ag.kSet r act val).recVal = ag.recVal := by
  unfold Agent.kSet; split <;> rfl
@[simp] theorem Agent.kSet_stErr (ag : Agent) (r : Nat) (act val : Mask) : (ag.kSet r act val).stErr = ag.stErr := by
  unfold Agent.kSet; split <;> rfl
@[simp] theorem Agent.kSet_wait (ag : Agent) (r : Nat) (act val : Mask) : (ag.kSet r act val).wait = ag.wait := by
  unfold Agent.kSet; split <;> rfl
@[simp] theorem Agent.kSet_nDbar (ag : Agent) (r : Nat) (act val : Mask) : (ag.kSet r act val).nDbar = ag.nDbar := by
  unfold Agent.kSet; split <;> rfl
@[simp] theorem Agent.kSet_nAllred (ag : Agent) (r : Nat) (act val : Mask) : (ag.kSet r act val).nAllred = ag.nAllred := by
  unfold Agent.kSet; split <;> rfl
@[simp] theorem Agent.kSet_lastT (ag : Agent) (r : Nat) (act val : Mask) : (ag.kSet r act val).lastT = ag.lastT := by
  unfold Agent.kSet; split <;> rfl
@[simp] theorem Agent.kSet_yielded (ag : Agent) (r : Nat) (act val : Mask) : (ag.kSet r act val).yielded = ag.yielded := by
  unfold Agent.kSet; split <;> rfl

@[simp] theorem Agent.vSet_profile (ag : Agent) (r : Nat) (act : Mask) (f : Nat → Word) : (ag.vSet r act f).profile = ag.profile := by
  unfold Agent.vSet; split <;> rfl
@[simp] theorem Agent.vSet_live (ag : Agent) (r : Nat) (act : Mask) (f : Nat → Word) : (ag.vSet r act f).live = ag.live := by
  unfold Agent.vSet; split <;> rfl
@[simp] theorem Agent.vSet_part (ag : Agent) (r : Nat) (act : Mask) (f : Nat → Word) : (ag.vSet r act f).part = ag.part := by
  unfold Agent.vSet; split <;> rfl
@[simp] theorem Agent.vSet_launch (ag : Agent) (r : Nat) (act : Mask) (f : Nat → Word) : (ag.vSet r act f).launch = ag.launch := by
  unfold Agent.vSet; split <;> rfl
@[simp] theorem Agent.vSet_die (ag : Agent) (r : Nat) (act : Mask) (f : Nat → Word) : (ag.vSet r act f).die = ag.die := by
  unfold Agent.vSet; split <;> rfl
@[simp] theorem Agent.vSet_cu (ag : Agent) (r : Nat) (act : Mask) (f : Nat → Word) : (ag.vSet r act f).cu = ag.cu := by
  unfold Agent.vSet; split <;> rfl
@[simp] theorem Agent.vSet_slot (ag : Agent) (r : Nat) (act : Mask) (f : Nat → Word) : (ag.vSet r act f).slot = ag.slot := by
  unfold Agent.vSet; split <;> rfl
@[simp] theorem Agent.vSet_gw (ag : Agent) (r : Nat) (act : Mask) (f : Nat → Word) : (ag.vSet r act f).gw = ag.gw := by
  unfold Agent.vSet; split <;> rfl
@[simp] theorem Agent.vSet_inst (ag : Agent) (r : Nat) (act : Mask) (f : Nat → Word) : (ag.vSet r act f).inst = ag.inst := by
  unfold Agent.vSet; split <;> rfl
@[simp] theorem Agent.vSet_s (ag : Agent) (r : Nat) (act : Mask) (f : Nat → Word) : (ag.vSet r act f).s = ag.s := by
  unfold Agent.vSet; split <;> rfl
@[simp] theorem Agent.vSet_k (ag : Agent) (r : Nat) (act : Mask) (f : Nat → Word) : (ag.vSet r act f).k = ag.k := by
  unfold Agent.vSet; split <;> rfl
@[simp] theorem Agent.vSet_bt (ag : Agent) (r : Nat) (act : Mask) (f : Nat → Word) : (ag.vSet r act f).bt = ag.bt := by
  unfold Agent.vSet; split <;> rfl
@[simp] theorem Agent.vSet_h (ag : Agent) (r : Nat) (act : Mask) (f : Nat → Word) : (ag.vSet r act f).h = ag.h := by
  unfold Agent.vSet; split <;> rfl
@[simp] theorem Agent.vSet_d (ag : Agent) (r : Nat) (act : Mask) (f : Nat → Word) : (ag.vSet r act f).d = ag.d := by
  unfold Agent.vSet; split <;> rfl
@[simp] theorem Agent.vSet_x (ag : Agent) (r : Nat) (act : Mask) (f : Nat → Word) : (ag.vSet r act f).x = ag.x := by
  unfold Agent.vSet; split <;> rfl
@[simp] theorem Agent.vSet_rmode (ag : Agent) (r : Nat) (act : Mask) (f : Nat → Word) : (ag.vSet r act f).rmode = ag.rmode := by
  unfold Agent.vSet; split <;> rfl
@[simp] theorem Agent.vSet_seed (ag : Agent) (r : Nat) (act : Mask) (f : Nat → Word) : (ag.vSet r act f).seed = ag.seed := by
  unfold Agent.vSet; split <;> rfl
@[simp] theorem Agent.vSet_rstat (ag : Agent) (r : Nat) (act : Mask) (f : Nat → Word) : (ag.vSet r act f).rstat = ag.rstat := by
  unfold Agent.vSet; split <;> rfl
@[simp] theorem Agent.vSet_dmem (ag : Agent) (r : Nat) (act : Mask) (f : Nat → Word) : (ag.vSet r act f).dmem = ag.dmem := by
  unfold Agent.vSet; split <;> rfl
@[simp] theorem Agent.vSet_npdist (ag : Agent) (r : Nat) (act : Mask) (f : Nat → Word) : (ag.vSet r act f).npdist = ag.npdist := by
  unfold Agent.vSet; split <;> rfl
@[simp] theorem Agent.vSet_repst (ag : Agent) (r : Nat) (act : Mask) (f : Nat → Word) : (ag.vSet r act f).repst = ag.repst := by
  unfold Agent.vSet; split <;> rfl
@[simp] theorem Agent.vSet_tcause (ag : Agent) (r : Nat) (act : Mask) (f : Nat → Word) : (ag.vSet r act f).tcause = ag.tcause := by
  unfold Agent.vSet; split <;> rfl
@[simp] theorem Agent.vSet_tepc (ag : Agent) (r : Nat) (act : Mask) (f : Nat → Word) : (ag.vSet r act f).tepc = ag.tepc := by
  unfold Agent.vSet; split <;> rfl
@[simp] theorem Agent.vSet_tval (ag : Agent) (r : Nat) (act : Mask) (f : Nat → Word) : (ag.vSet r act f).tval = ag.tval := by
  unfold Agent.vSet; split <;> rfl
@[simp] theorem Agent.vSet_dspill (ag : Agent) (r : Nat) (act : Mask) (f : Nat → Word) : (ag.vSet r act f).dspill = ag.dspill := by
  unfold Agent.vSet; split <;> rfl
@[simp] theorem Agent.vSet_stk (ag : Agent) (r : Nat) (act : Mask) (f : Nat → Word) : (ag.vSet r act f).stk = ag.stk := by
  unfold Agent.vSet; split <;> rfl
@[simp] theorem Agent.vSet_depth (ag : Agent) (r : Nat) (act : Mask) (f : Nat → Word) : (ag.vSet r act f).depth = ag.depth := by
  unfold Agent.vSet; split <;> rfl
@[simp] theorem Agent.vSet_bankS (ag : Agent) (r : Nat) (act : Mask) (f : Nat → Word) : (ag.vSet r act f).bankS = ag.bankS := by
  unfold Agent.vSet; split <;> rfl
@[simp] theorem Agent.vSet_bankBt (ag : Agent) (r : Nat) (act : Mask) (f : Nat → Word) : (ag.vSet r act f).bankBt = ag.bankBt := by
  unfold Agent.vSet; split <;> rfl
@[simp] theorem Agent.vSet_run (ag : Agent) (r : Nat) (act : Mask) (f : Nat → Word) : (ag.vSet r act f).run = ag.run := by
  unfold Agent.vSet; split <;> rfl
@[simp] theorem Agent.vSet_saved (ag : Agent) (r : Nat) (act : Mask) (f : Nat → Word) : (ag.vSet r act f).saved = ag.saved := by
  unfold Agent.vSet; split <;> rfl
@[simp] theorem Agent.vSet_strm (ag : Agent) (r : Nat) (act : Mask) (f : Nat → Word) : (ag.vSet r act f).strm = ag.strm := by
  unfold Agent.vSet; split <;> rfl
@[simp] theorem Agent.vSet_opens (ag : Agent) (r : Nat) (act : Mask) (f : Nat → Word) : (ag.vSet r act f).opens = ag.opens := by
  unfold Agent.vSet; split <;> rfl
@[simp] theorem Agent.vSet_pend (ag : Agent) (r : Nat) (act : Mask) (f : Nat → Word) : (ag.vSet r act f).pend = ag.pend := by
  unfold Agent.vSet; split <;> rfl
@[simp] theorem Agent.vSet_mods (ag : Agent) (r : Nat) (act : Mask) (f : Nat → Word) : (ag.vSet r act f).mods = ag.mods := by
  unfold Agent.vSet; split <;> rfl
@[simp] theorem Agent.vSet_nextTag (ag : Agent) (r : Nat) (act : Mask) (f : Nat → Word) : (ag.vSet r act f).nextTag = ag.nextTag := by
  unfold Agent.vSet; split <;> rfl
@[simp] theorem Agent.vSet_unrep (ag : Agent) (r : Nat) (act : Mask) (f : Nat → Word) : (ag.vSet r act f).unrep = ag.unrep := by
  unfold Agent.vSet; split <;> rfl
@[simp] theorem Agent.vSet_remVal (ag : Agent) (r : Nat) (act : Mask) (f : Nat → Word) : (ag.vSet r act f).remVal = ag.remVal := by
  unfold Agent.vSet; split <;> rfl
@[simp] theorem Agent.vSet_engVal (ag : Agent) (r : Nat) (act : Mask) (f : Nat → Word) : (ag.vSet r act f).engVal = ag.engVal := by
  unfold Agent.vSet; split <;> rfl
@[simp] theorem Agent.vSet_recVal (ag : Agent) (r : Nat) (act : Mask) (f : Nat → Word) : (ag.vSet r act f).recVal = ag.recVal := by
  unfold Agent.vSet; split <;> rfl
@[simp] theorem Agent.vSet_stErr (ag : Agent) (r : Nat) (act : Mask) (f : Nat → Word) : (ag.vSet r act f).stErr = ag.stErr := by
  unfold Agent.vSet; split <;> rfl
@[simp] theorem Agent.vSet_wait (ag : Agent) (r : Nat) (act : Mask) (f : Nat → Word) : (ag.vSet r act f).wait = ag.wait := by
  unfold Agent.vSet; split <;> rfl
@[simp] theorem Agent.vSet_nDbar (ag : Agent) (r : Nat) (act : Mask) (f : Nat → Word) : (ag.vSet r act f).nDbar = ag.nDbar := by
  unfold Agent.vSet; split <;> rfl
@[simp] theorem Agent.vSet_nAllred (ag : Agent) (r : Nat) (act : Mask) (f : Nat → Word) : (ag.vSet r act f).nAllred = ag.nAllred := by
  unfold Agent.vSet; split <;> rfl
@[simp] theorem Agent.vSet_lastT (ag : Agent) (r : Nat) (act : Mask) (f : Nat → Word) : (ag.vSet r act f).lastT = ag.lastT := by
  unfold Agent.vSet; split <;> rfl
@[simp] theorem Agent.vSet_yielded (ag : Agent) (r : Nat) (act : Mask) (f : Nat → Word) : (ag.vSet r act f).yielded = ag.yielded := by
  unfold Agent.vSet; split <;> rfl

@[simp] theorem Agent.btSet_profile (ag : Agent) (r : Nat) (x : DWord) : (ag.btSet r x).profile = ag.profile := rfl
@[simp] theorem Agent.btSet_live (ag : Agent) (r : Nat) (x : DWord) : (ag.btSet r x).live = ag.live := rfl
@[simp] theorem Agent.btSet_part (ag : Agent) (r : Nat) (x : DWord) : (ag.btSet r x).part = ag.part := rfl
@[simp] theorem Agent.btSet_launch (ag : Agent) (r : Nat) (x : DWord) : (ag.btSet r x).launch = ag.launch := rfl
@[simp] theorem Agent.btSet_die (ag : Agent) (r : Nat) (x : DWord) : (ag.btSet r x).die = ag.die := rfl
@[simp] theorem Agent.btSet_cu (ag : Agent) (r : Nat) (x : DWord) : (ag.btSet r x).cu = ag.cu := rfl
@[simp] theorem Agent.btSet_slot (ag : Agent) (r : Nat) (x : DWord) : (ag.btSet r x).slot = ag.slot := rfl
@[simp] theorem Agent.btSet_gw (ag : Agent) (r : Nat) (x : DWord) : (ag.btSet r x).gw = ag.gw := rfl
@[simp] theorem Agent.btSet_inst (ag : Agent) (r : Nat) (x : DWord) : (ag.btSet r x).inst = ag.inst := rfl
@[simp] theorem Agent.btSet_s (ag : Agent) (r : Nat) (x : DWord) : (ag.btSet r x).s = ag.s := rfl
@[simp] theorem Agent.btSet_v (ag : Agent) (r : Nat) (x : DWord) : (ag.btSet r x).v = ag.v := rfl
@[simp] theorem Agent.btSet_k (ag : Agent) (r : Nat) (x : DWord) : (ag.btSet r x).k = ag.k := rfl
@[simp] theorem Agent.btSet_h (ag : Agent) (r : Nat) (x : DWord) : (ag.btSet r x).h = ag.h := rfl
@[simp] theorem Agent.btSet_d (ag : Agent) (r : Nat) (x : DWord) : (ag.btSet r x).d = ag.d := rfl
@[simp] theorem Agent.btSet_x (ag : Agent) (r : Nat) (x : DWord) : (ag.btSet r x).x = ag.x := rfl
@[simp] theorem Agent.btSet_rmode (ag : Agent) (r : Nat) (x : DWord) : (ag.btSet r x).rmode = ag.rmode := rfl
@[simp] theorem Agent.btSet_seed (ag : Agent) (r : Nat) (x : DWord) : (ag.btSet r x).seed = ag.seed := rfl
@[simp] theorem Agent.btSet_rstat (ag : Agent) (r : Nat) (x : DWord) : (ag.btSet r x).rstat = ag.rstat := rfl
@[simp] theorem Agent.btSet_dmem (ag : Agent) (r : Nat) (x : DWord) : (ag.btSet r x).dmem = ag.dmem := rfl
@[simp] theorem Agent.btSet_npdist (ag : Agent) (r : Nat) (x : DWord) : (ag.btSet r x).npdist = ag.npdist := rfl
@[simp] theorem Agent.btSet_repst (ag : Agent) (r : Nat) (x : DWord) : (ag.btSet r x).repst = ag.repst := rfl
@[simp] theorem Agent.btSet_tcause (ag : Agent) (r : Nat) (x : DWord) : (ag.btSet r x).tcause = ag.tcause := rfl
@[simp] theorem Agent.btSet_tepc (ag : Agent) (r : Nat) (x : DWord) : (ag.btSet r x).tepc = ag.tepc := rfl
@[simp] theorem Agent.btSet_tval (ag : Agent) (r : Nat) (x : DWord) : (ag.btSet r x).tval = ag.tval := rfl
@[simp] theorem Agent.btSet_dspill (ag : Agent) (r : Nat) (x : DWord) : (ag.btSet r x).dspill = ag.dspill := rfl
@[simp] theorem Agent.btSet_stk (ag : Agent) (r : Nat) (x : DWord) : (ag.btSet r x).stk = ag.stk := rfl
@[simp] theorem Agent.btSet_depth (ag : Agent) (r : Nat) (x : DWord) : (ag.btSet r x).depth = ag.depth := rfl
@[simp] theorem Agent.btSet_bankS (ag : Agent) (r : Nat) (x : DWord) : (ag.btSet r x).bankS = ag.bankS := rfl
@[simp] theorem Agent.btSet_bankBt (ag : Agent) (r : Nat) (x : DWord) : (ag.btSet r x).bankBt = ag.bankBt := rfl
@[simp] theorem Agent.btSet_run (ag : Agent) (r : Nat) (x : DWord) : (ag.btSet r x).run = ag.run := rfl
@[simp] theorem Agent.btSet_saved (ag : Agent) (r : Nat) (x : DWord) : (ag.btSet r x).saved = ag.saved := rfl
@[simp] theorem Agent.btSet_strm (ag : Agent) (r : Nat) (x : DWord) : (ag.btSet r x).strm = ag.strm := rfl
@[simp] theorem Agent.btSet_opens (ag : Agent) (r : Nat) (x : DWord) : (ag.btSet r x).opens = ag.opens := rfl
@[simp] theorem Agent.btSet_pend (ag : Agent) (r : Nat) (x : DWord) : (ag.btSet r x).pend = ag.pend := rfl
@[simp] theorem Agent.btSet_mods (ag : Agent) (r : Nat) (x : DWord) : (ag.btSet r x).mods = ag.mods := rfl
@[simp] theorem Agent.btSet_nextTag (ag : Agent) (r : Nat) (x : DWord) : (ag.btSet r x).nextTag = ag.nextTag := rfl
@[simp] theorem Agent.btSet_unrep (ag : Agent) (r : Nat) (x : DWord) : (ag.btSet r x).unrep = ag.unrep := rfl
@[simp] theorem Agent.btSet_remVal (ag : Agent) (r : Nat) (x : DWord) : (ag.btSet r x).remVal = ag.remVal := rfl
@[simp] theorem Agent.btSet_engVal (ag : Agent) (r : Nat) (x : DWord) : (ag.btSet r x).engVal = ag.engVal := rfl
@[simp] theorem Agent.btSet_recVal (ag : Agent) (r : Nat) (x : DWord) : (ag.btSet r x).recVal = ag.recVal := rfl
@[simp] theorem Agent.btSet_stErr (ag : Agent) (r : Nat) (x : DWord) : (ag.btSet r x).stErr = ag.stErr := rfl
@[simp] theorem Agent.btSet_wait (ag : Agent) (r : Nat) (x : DWord) : (ag.btSet r x).wait = ag.wait := rfl
@[simp] theorem Agent.btSet_nDbar (ag : Agent) (r : Nat) (x : DWord) : (ag.btSet r x).nDbar = ag.nDbar := rfl
@[simp] theorem Agent.btSet_nAllred (ag : Agent) (r : Nat) (x : DWord) : (ag.btSet r x).nAllred = ag.nAllred := rfl
@[simp] theorem Agent.btSet_lastT (ag : Agent) (r : Nat) (x : DWord) : (ag.btSet r x).lastT = ag.lastT := rfl
@[simp] theorem Agent.btSet_yielded (ag : Agent) (r : Nat) (x : DWord) : (ag.btSet r x).yielded = ag.yielded := rfl

@[simp] theorem Agent.hSet_profile (ag : Agent) (n : Nat) (x : Handle) : (ag.hSet n x).profile = ag.profile := rfl
@[simp] theorem Agent.hSet_live (ag : Agent) (n : Nat) (x : Handle) : (ag.hSet n x).live = ag.live := rfl
@[simp] theorem Agent.hSet_part (ag : Agent) (n : Nat) (x : Handle) : (ag.hSet n x).part = ag.part := rfl
@[simp] theorem Agent.hSet_launch (ag : Agent) (n : Nat) (x : Handle) : (ag.hSet n x).launch = ag.launch := rfl
@[simp] theorem Agent.hSet_die (ag : Agent) (n : Nat) (x : Handle) : (ag.hSet n x).die = ag.die := rfl
@[simp] theorem Agent.hSet_cu (ag : Agent) (n : Nat) (x : Handle) : (ag.hSet n x).cu = ag.cu := rfl
@[simp] theorem Agent.hSet_slot (ag : Agent) (n : Nat) (x : Handle) : (ag.hSet n x).slot = ag.slot := rfl
@[simp] theorem Agent.hSet_gw (ag : Agent) (n : Nat) (x : Handle) : (ag.hSet n x).gw = ag.gw := rfl
@[simp] theorem Agent.hSet_inst (ag : Agent) (n : Nat) (x : Handle) : (ag.hSet n x).inst = ag.inst := rfl
@[simp] theorem Agent.hSet_s (ag : Agent) (n : Nat) (x : Handle) : (ag.hSet n x).s = ag.s := rfl
@[simp] theorem Agent.hSet_v (ag : Agent) (n : Nat) (x : Handle) : (ag.hSet n x).v = ag.v := rfl
@[simp] theorem Agent.hSet_k (ag : Agent) (n : Nat) (x : Handle) : (ag.hSet n x).k = ag.k := rfl
@[simp] theorem Agent.hSet_bt (ag : Agent) (n : Nat) (x : Handle) : (ag.hSet n x).bt = ag.bt := rfl
@[simp] theorem Agent.hSet_d (ag : Agent) (n : Nat) (x : Handle) : (ag.hSet n x).d = ag.d := rfl
@[simp] theorem Agent.hSet_x (ag : Agent) (n : Nat) (x : Handle) : (ag.hSet n x).x = ag.x := rfl
@[simp] theorem Agent.hSet_rmode (ag : Agent) (n : Nat) (x : Handle) : (ag.hSet n x).rmode = ag.rmode := rfl
@[simp] theorem Agent.hSet_seed (ag : Agent) (n : Nat) (x : Handle) : (ag.hSet n x).seed = ag.seed := rfl
@[simp] theorem Agent.hSet_rstat (ag : Agent) (n : Nat) (x : Handle) : (ag.hSet n x).rstat = ag.rstat := rfl
@[simp] theorem Agent.hSet_dmem (ag : Agent) (n : Nat) (x : Handle) : (ag.hSet n x).dmem = ag.dmem := rfl
@[simp] theorem Agent.hSet_npdist (ag : Agent) (n : Nat) (x : Handle) : (ag.hSet n x).npdist = ag.npdist := rfl
@[simp] theorem Agent.hSet_repst (ag : Agent) (n : Nat) (x : Handle) : (ag.hSet n x).repst = ag.repst := rfl
@[simp] theorem Agent.hSet_tcause (ag : Agent) (n : Nat) (x : Handle) : (ag.hSet n x).tcause = ag.tcause := rfl
@[simp] theorem Agent.hSet_tepc (ag : Agent) (n : Nat) (x : Handle) : (ag.hSet n x).tepc = ag.tepc := rfl
@[simp] theorem Agent.hSet_tval (ag : Agent) (n : Nat) (x : Handle) : (ag.hSet n x).tval = ag.tval := rfl
@[simp] theorem Agent.hSet_dspill (ag : Agent) (n : Nat) (x : Handle) : (ag.hSet n x).dspill = ag.dspill := rfl
@[simp] theorem Agent.hSet_stk (ag : Agent) (n : Nat) (x : Handle) : (ag.hSet n x).stk = ag.stk := rfl
@[simp] theorem Agent.hSet_depth (ag : Agent) (n : Nat) (x : Handle) : (ag.hSet n x).depth = ag.depth := rfl
@[simp] theorem Agent.hSet_bankS (ag : Agent) (n : Nat) (x : Handle) : (ag.hSet n x).bankS = ag.bankS := rfl
@[simp] theorem Agent.hSet_bankBt (ag : Agent) (n : Nat) (x : Handle) : (ag.hSet n x).bankBt = ag.bankBt := rfl
@[simp] theorem Agent.hSet_run (ag : Agent) (n : Nat) (x : Handle) : (ag.hSet n x).run = ag.run := rfl
@[simp] theorem Agent.hSet_saved (ag : Agent) (n : Nat) (x : Handle) : (ag.hSet n x).saved = ag.saved := rfl
@[simp] theorem Agent.hSet_strm (ag : Agent) (n : Nat) (x : Handle) : (ag.hSet n x).strm = ag.strm := rfl
@[simp] theorem Agent.hSet_opens (ag : Agent) (n : Nat) (x : Handle) : (ag.hSet n x).opens = ag.opens := rfl
@[simp] theorem Agent.hSet_pend (ag : Agent) (n : Nat) (x : Handle) : (ag.hSet n x).pend = ag.pend := rfl
@[simp] theorem Agent.hSet_mods (ag : Agent) (n : Nat) (x : Handle) : (ag.hSet n x).mods = ag.mods := rfl
@[simp] theorem Agent.hSet_nextTag (ag : Agent) (n : Nat) (x : Handle) : (ag.hSet n x).nextTag = ag.nextTag := rfl
@[simp] theorem Agent.hSet_unrep (ag : Agent) (n : Nat) (x : Handle) : (ag.hSet n x).unrep = ag.unrep := rfl
@[simp] theorem Agent.hSet_remVal (ag : Agent) (n : Nat) (x : Handle) : (ag.hSet n x).remVal = ag.remVal := rfl
@[simp] theorem Agent.hSet_engVal (ag : Agent) (n : Nat) (x : Handle) : (ag.hSet n x).engVal = ag.engVal := rfl
@[simp] theorem Agent.hSet_recVal (ag : Agent) (n : Nat) (x : Handle) : (ag.hSet n x).recVal = ag.recVal := rfl
@[simp] theorem Agent.hSet_stErr (ag : Agent) (n : Nat) (x : Handle) : (ag.hSet n x).stErr = ag.stErr := rfl
@[simp] theorem Agent.hSet_wait (ag : Agent) (n : Nat) (x : Handle) : (ag.hSet n x).wait = ag.wait := rfl
@[simp] theorem Agent.hSet_nDbar (ag : Agent) (n : Nat) (x : Handle) : (ag.hSet n x).nDbar = ag.nDbar := rfl
@[simp] theorem Agent.hSet_nAllred (ag : Agent) (n : Nat) (x : Handle) : (ag.hSet n x).nAllred = ag.nAllred := rfl
@[simp] theorem Agent.hSet_lastT (ag : Agent) (n : Nat) (x : Handle) : (ag.hSet n x).lastT = ag.lastT := rfl
@[simp] theorem Agent.hSet_yielded (ag : Agent) (n : Nat) (x : Handle) : (ag.hSet n x).yielded = ag.yielded := rfl

@[simp] theorem Agent.pSet_profile (ag : Agent) (r : Nat) (x : DWord) : (ag.pSet r x).profile = ag.profile := by
  unfold Agent.pSet; split <;> simp
@[simp] theorem Agent.pSet_live (ag : Agent) (r : Nat) (x : DWord) : (ag.pSet r x).live = ag.live := by
  unfold Agent.pSet; split <;> simp
@[simp] theorem Agent.pSet_part (ag : Agent) (r : Nat) (x : DWord) : (ag.pSet r x).part = ag.part := by
  unfold Agent.pSet; split <;> simp
@[simp] theorem Agent.pSet_launch (ag : Agent) (r : Nat) (x : DWord) : (ag.pSet r x).launch = ag.launch := by
  unfold Agent.pSet; split <;> simp
@[simp] theorem Agent.pSet_die (ag : Agent) (r : Nat) (x : DWord) : (ag.pSet r x).die = ag.die := by
  unfold Agent.pSet; split <;> simp
@[simp] theorem Agent.pSet_cu (ag : Agent) (r : Nat) (x : DWord) : (ag.pSet r x).cu = ag.cu := by
  unfold Agent.pSet; split <;> simp
@[simp] theorem Agent.pSet_slot (ag : Agent) (r : Nat) (x : DWord) : (ag.pSet r x).slot = ag.slot := by
  unfold Agent.pSet; split <;> simp
@[simp] theorem Agent.pSet_gw (ag : Agent) (r : Nat) (x : DWord) : (ag.pSet r x).gw = ag.gw := by
  unfold Agent.pSet; split <;> simp
@[simp] theorem Agent.pSet_inst (ag : Agent) (r : Nat) (x : DWord) : (ag.pSet r x).inst = ag.inst := by
  unfold Agent.pSet; split <;> simp
@[simp] theorem Agent.pSet_v (ag : Agent) (r : Nat) (x : DWord) : (ag.pSet r x).v = ag.v := by
  unfold Agent.pSet; split <;> simp
@[simp] theorem Agent.pSet_k (ag : Agent) (r : Nat) (x : DWord) : (ag.pSet r x).k = ag.k := by
  unfold Agent.pSet; split <;> simp
@[simp] theorem Agent.pSet_bt (ag : Agent) (r : Nat) (x : DWord) : (ag.pSet r x).bt = ag.bt := by
  unfold Agent.pSet; split <;> simp
@[simp] theorem Agent.pSet_h (ag : Agent) (r : Nat) (x : DWord) : (ag.pSet r x).h = ag.h := by
  unfold Agent.pSet; split <;> simp
@[simp] theorem Agent.pSet_d (ag : Agent) (r : Nat) (x : DWord) : (ag.pSet r x).d = ag.d := by
  unfold Agent.pSet; split <;> simp
@[simp] theorem Agent.pSet_x (ag : Agent) (r : Nat) (x : DWord) : (ag.pSet r x).x = ag.x := by
  unfold Agent.pSet; split <;> simp
@[simp] theorem Agent.pSet_rmode (ag : Agent) (r : Nat) (x : DWord) : (ag.pSet r x).rmode = ag.rmode := by
  unfold Agent.pSet; split <;> simp
@[simp] theorem Agent.pSet_seed (ag : Agent) (r : Nat) (x : DWord) : (ag.pSet r x).seed = ag.seed := by
  unfold Agent.pSet; split <;> simp
@[simp] theorem Agent.pSet_rstat (ag : Agent) (r : Nat) (x : DWord) : (ag.pSet r x).rstat = ag.rstat := by
  unfold Agent.pSet; split <;> simp
@[simp] theorem Agent.pSet_dmem (ag : Agent) (r : Nat) (x : DWord) : (ag.pSet r x).dmem = ag.dmem := by
  unfold Agent.pSet; split <;> simp
@[simp] theorem Agent.pSet_npdist (ag : Agent) (r : Nat) (x : DWord) : (ag.pSet r x).npdist = ag.npdist := by
  unfold Agent.pSet; split <;> simp
@[simp] theorem Agent.pSet_repst (ag : Agent) (r : Nat) (x : DWord) : (ag.pSet r x).repst = ag.repst := by
  unfold Agent.pSet; split <;> simp
@[simp] theorem Agent.pSet_tcause (ag : Agent) (r : Nat) (x : DWord) : (ag.pSet r x).tcause = ag.tcause := by
  unfold Agent.pSet; split <;> simp
@[simp] theorem Agent.pSet_tepc (ag : Agent) (r : Nat) (x : DWord) : (ag.pSet r x).tepc = ag.tepc := by
  unfold Agent.pSet; split <;> simp
@[simp] theorem Agent.pSet_tval (ag : Agent) (r : Nat) (x : DWord) : (ag.pSet r x).tval = ag.tval := by
  unfold Agent.pSet; split <;> simp
@[simp] theorem Agent.pSet_dspill (ag : Agent) (r : Nat) (x : DWord) : (ag.pSet r x).dspill = ag.dspill := by
  unfold Agent.pSet; split <;> simp
@[simp] theorem Agent.pSet_stk (ag : Agent) (r : Nat) (x : DWord) : (ag.pSet r x).stk = ag.stk := by
  unfold Agent.pSet; split <;> simp
@[simp] theorem Agent.pSet_depth (ag : Agent) (r : Nat) (x : DWord) : (ag.pSet r x).depth = ag.depth := by
  unfold Agent.pSet; split <;> simp
@[simp] theorem Agent.pSet_bankS (ag : Agent) (r : Nat) (x : DWord) : (ag.pSet r x).bankS = ag.bankS := by
  unfold Agent.pSet; split <;> simp
@[simp] theorem Agent.pSet_bankBt (ag : Agent) (r : Nat) (x : DWord) : (ag.pSet r x).bankBt = ag.bankBt := by
  unfold Agent.pSet; split <;> simp
@[simp] theorem Agent.pSet_run (ag : Agent) (r : Nat) (x : DWord) : (ag.pSet r x).run = ag.run := by
  unfold Agent.pSet; split <;> simp
@[simp] theorem Agent.pSet_saved (ag : Agent) (r : Nat) (x : DWord) : (ag.pSet r x).saved = ag.saved := by
  unfold Agent.pSet; split <;> simp
@[simp] theorem Agent.pSet_strm (ag : Agent) (r : Nat) (x : DWord) : (ag.pSet r x).strm = ag.strm := by
  unfold Agent.pSet; split <;> simp
@[simp] theorem Agent.pSet_opens (ag : Agent) (r : Nat) (x : DWord) : (ag.pSet r x).opens = ag.opens := by
  unfold Agent.pSet; split <;> simp
@[simp] theorem Agent.pSet_pend (ag : Agent) (r : Nat) (x : DWord) : (ag.pSet r x).pend = ag.pend := by
  unfold Agent.pSet; split <;> simp
@[simp] theorem Agent.pSet_mods (ag : Agent) (r : Nat) (x : DWord) : (ag.pSet r x).mods = ag.mods := by
  unfold Agent.pSet; split <;> simp
@[simp] theorem Agent.pSet_nextTag (ag : Agent) (r : Nat) (x : DWord) : (ag.pSet r x).nextTag = ag.nextTag := by
  unfold Agent.pSet; split <;> simp
@[simp] theorem Agent.pSet_unrep (ag : Agent) (r : Nat) (x : DWord) : (ag.pSet r x).unrep = ag.unrep := by
  unfold Agent.pSet; split <;> simp
@[simp] theorem Agent.pSet_remVal (ag : Agent) (r : Nat) (x : DWord) : (ag.pSet r x).remVal = ag.remVal := by
  unfold Agent.pSet; split <;> simp
@[simp] theorem Agent.pSet_engVal (ag : Agent) (r : Nat) (x : DWord) : (ag.pSet r x).engVal = ag.engVal := by
  unfold Agent.pSet; split <;> simp
@[simp] theorem Agent.pSet_recVal (ag : Agent) (r : Nat) (x : DWord) : (ag.pSet r x).recVal = ag.recVal := by
  unfold Agent.pSet; split <;> simp
@[simp] theorem Agent.pSet_stErr (ag : Agent) (r : Nat) (x : DWord) : (ag.pSet r x).stErr = ag.stErr := by
  unfold Agent.pSet; split <;> simp
@[simp] theorem Agent.pSet_wait (ag : Agent) (r : Nat) (x : DWord) : (ag.pSet r x).wait = ag.wait := by
  unfold Agent.pSet; split <;> simp
@[simp] theorem Agent.pSet_nDbar (ag : Agent) (r : Nat) (x : DWord) : (ag.pSet r x).nDbar = ag.nDbar := by
  unfold Agent.pSet; split <;> simp
@[simp] theorem Agent.pSet_nAllred (ag : Agent) (r : Nat) (x : DWord) : (ag.pSet r x).nAllred = ag.nAllred := by
  unfold Agent.pSet; split <;> simp
@[simp] theorem Agent.pSet_lastT (ag : Agent) (r : Nat) (x : DWord) : (ag.pSet r x).lastT = ag.lastT := by
  unfold Agent.pSet; split <;> simp
@[simp] theorem Agent.pSet_yielded (ag : Agent) (r : Nat) (x : DWord) : (ag.pSet r x).yielded = ag.yielded := by
  unfold Agent.pSet; split <;> simp

/-! ### Scalars (R96, R107) -/

/-- `s0` reads zero whatever stands in the file. -/
@[simp] theorem Agent.sGet_zero (ag : Agent) : ag.sGet 0 = 0 := rfl

theorem Agent.sGet_sSet_self (ag : Agent) {r : Nat} (w : Word) (h0 : r ≠ 0) (h1 : r < 63) : (ag.sSet r w).sGet r = w := by
  rw [Agent.sSet, if_neg (by omega), Agent.sGet, if_neg h0, Tab.get_set_self]

theorem Agent.sGet_sSet_ne (ag : Agent) {r q : Nat} (w : Word) (h : q ≠ r) : (ag.sSet r w).sGet q = ag.sGet q := by
  unfold Agent.sSet
  split
  · rfl
  · simp only [Agent.sGet, Tab.get_set_ne _ _ _ h]

/-- Writes to `s0` and to code 63 are discarded. -/
theorem Agent.sSet_discard (ag : Agent) {r : Nat} (w : Word) (h : r = 0 ∨ 63 ≤ r) : ag.sSet r w = ag := by
  simp [Agent.sSet, h]

theorem Agent.sGet_pSet_ne (ag : Agent) {r q : Nat} (x : DWord) (h : q ≠ r) (h' : q ≠ r + 1) :
    (ag.pSet r x).sGet q = ag.sGet q := by
  unfold Agent.pSet
  split
  · rfl
  · rw [Agent.sGet_sSet_ne _ _ h', Agent.sGet_sSet_ne _ _ h]

/-- A pair read after it has been written. -/
theorem Agent.pGet_pSet_self (ag : Agent) {r : Nat} (x : DWord) (h0 : r ≠ 0) (h1 : r < 62) : (ag.pSet r x).pGet r = x := by
  have hn : ¬(r = 0 ∨ 62 ≤ r) := by omega
  have lo : ((ag.sSet r (x.extractLsb' 0 32)).sSet (r + 1) (x.extractLsb' 32 32)).sGet r = x.extractLsb' 0 32 := by
    rw [Agent.sGet_sSet_ne _ _ (by omega), Agent.sGet_sSet_self _ _ h0 (by omega)]
  have hi : ((ag.sSet r (x.extractLsb' 0 32)).sSet (r + 1) (x.extractLsb' 32 32)).sGet (r + 1) = x.extractLsb' 32 32 :=
    Agent.sGet_sSet_self _ _ (by omega) (by omega)
  rw [Agent.pSet, if_neg hn, Agent.pGet, if_neg h0, lo, hi]
  ext i hi
  simp only [BitVec.getElem_append, BitVec.getElem_extractLsb']
  split
  · rw [show 0 + i = i by omega]; exact BitVec.getLsbD_eq_getElem hi
  · rw [show 32 + (i - 32) = i by omega]; exact BitVec.getLsbD_eq_getElem hi

/-! ### Predicates and beat masks (R97, R98) -/

/-- `k0` reads all ones. -/
@[simp] theorem Agent.kGet_zero (ag : Agent) : ag.kGet 0 = BitVec.allOnes 96 := rfl

theorem Agent.kGet_kSet_self (ag : Agent) {r : Nat} (act val : Mask) (h0 : r ≠ 0) (h1 : r < 8) :
    (ag.kSet r act val).kGet r = (ag.kGet r &&& ~~~act) ||| (val &&& act) := by
  rw [Agent.kSet, if_neg (by omega), Agent.kGet, if_neg h0, Agent.kGet, if_neg h0, Tab.get_set_self]

theorem Agent.kGet_kSet_ne (ag : Agent) {r q : Nat} (act val : Mask) (h : q ≠ r) : (ag.kSet r act val).kGet q = ag.kGet q := by
  unfold Agent.kSet
  split
  · rfl
  · simp only [Agent.kGet, Tab.get_set_ne _ _ _ h]

/-! ### Vectors (R98) -/

theorem Agent.vGet_vSet_ne (ag : Agent) {r q : Nat} (act : Mask) (f : Nat → Word) (l : Nat) (h : q ≠ r) :
    (ag.vSet r act f).vGet q l = ag.vGet q l := by
  unfold Agent.vSet
  split
  · rfl
  · simp only [Agent.vGet, Tab.get_set_ne _ _ _ h]

/-- What a table built from a function holds: its value where the key is below 96 and the value is not the default. -/
theorem find?_filterMap_range (f : Nat → Word) (n l : Nat) :
    Tab.find? ((List.range' l n).filterMap (fun i => if f i = 0 then none else some (i, f i))) =
      fun q => if l ≤ q ∧ q < l + n ∧ f q ≠ 0 then some (f q) else none := by
  induction n generalizing l with
  | zero => funext q; simp; omega
  | succ n ih =>
    funext q
    rw [List.range'_succ, List.filterMap_cons]
    have h : ∀ q, q ≠ l → (l + 1 ≤ q ∧ q < l + 1 + n ∧ f q ≠ 0 ↔ l ≤ q ∧ q < l + (n + 1) ∧ f q ≠ 0) := fun q hq =>
      ⟨fun ⟨a, b, c⟩ => ⟨by omega, by omega, c⟩, fun ⟨a, b, c⟩ => ⟨by omega, by omega, c⟩⟩
    by_cases hf : f l = 0
    · simp only [hf, if_true, ih]
      by_cases hq : q = l
      · subst hq; rw [if_neg (fun hc => absurd hc.1 (by omega)), if_neg (fun hc => hc.2.2 hf)]
      · simp only [h q hq]
    · simp only [hf, if_false, Tab.find?, ih]
      by_cases hq : q = l
      · subst hq; rw [if_pos rfl, if_pos ⟨Nat.le_refl _, by omega, hf⟩]
      · rw [if_neg (fun hc => hq hc.symm)]
        simp only [h q hq]

theorem get_lanes (f : Nat → Word) {l : Nat} (h : l < 96) : Tab.get 0 (lanes f) l = f l := by
  unfold Tab.get lanes
  rw [List.range_eq_range', find?_filterMap_range]
  dsimp only
  by_cases hf : f l = 0
  · rw [if_neg (fun hc => hc.2.2 hf), hf]
  · rw [if_pos ⟨by omega, by omega, hf⟩]

/-- A vector register read after a write: the new value in the lanes written, the old one elsewhere. -/
theorem Agent.vGet_vSet_self (ag : Agent) {r l : Nat} (act : Mask) (f : Nat → Word) (h : r < 63) (hl : l < 96) :
    (ag.vSet r act f).vGet r l = if act.getLsbD l then f l else ag.vGet r l := by
  rw [Agent.vSet, if_neg (by omega), Agent.vGet, Tab.get_set_self, get_lanes _ hl]
  rfl

/-! ### Branch targets and handles (R72, R99) -/

@[simp] theorem Agent.btGet_btSet_self (ag : Agent) (r : Nat) (x : DWord) : (ag.btSet r x).btGet r = x := by
  simp [Agent.btSet, Agent.btGet]

theorem Agent.btGet_btSet_ne (ag : Agent) {r q : Nat} (x : DWord) (h : q ≠ r) : (ag.btSet r x).btGet q = ag.btGet q := by
  simp [Agent.btSet, Agent.btGet, Tab.get_set_ne _ _ _ h]

@[simp] theorem Agent.hGet_hSet_self (ag : Agent) (n : Nat) (x : Handle) : (ag.hSet n x).hGet n = x := by
  simp [Agent.hSet, Agent.hGet]

theorem Agent.hGet_hSet_ne (ag : Agent) {n m : Nat} (x : Handle) (h : m ≠ n) : (ag.hSet n x).hGet m = ag.hGet m := by
  simp [Agent.hSet, Agent.hGet, Tab.get_set_ne _ _ _ h]

/-! ### The policy engine (R334 to R339) -/

/-- An operation of the policy engine runs while the budget covers its cycles; with less left the fallback decides. -/
theorem onDec_of {s : State} {p : Nat} {d : Decision} (cost : Decision → Nat) (k : Nat → Decision → State)
    (hc : s.cur = .policy p) (hd : (s.pol p).dec = some d) :
    onDec s cost k = .next (if s.budget p < d.cyc + cost d then s.overrun p d.ev else k p { d with cyc := d.cyc + cost d }) := by
  simp [onDec, hc, hd]

theorem onDec_decides {s : State} {p n : Nat} {d : Decision} (cost : Decision → Nat) (k : Nat → Decision → State)
    (h : s.Decides p d n) (hn : cost d = n) : onDec s cost k = .next (k p { d with cyc := d.cyc + n }) := by
  obtain ⟨hc, hd, hb⟩ := h
  subst hn
  rw [onDec_of cost k hc hd, if_neg (by omega)]

end Sys2Proof.Machine
end

