-- ==== Sys2Proof/Tests/Slice0.lean ====
section
/-! SUPPORT. Tests: words of the spec's encoding table, ill-formed terms that WellFormed refuses, single steps on small
states with results computed by hand from the rules, and for every obligation states that meet its hypotheses. -/
namespace Sys2Proof.Tests

open Sys2Proof.Machine

set_option maxRecDepth 20000

/-! ### Decoding: one word per row of spec/opcode_table.json, built from its mask, match and fields (R105 to R117) -/

theorem test_decode_frame_and_scalar_1 :
    decode [0x9C01, 0x00A4] = .ok (.blk 5 9 14) ∧
    decode [0x0C03, 0x0099] = .ok (.rep 1 3 2 6) ∧
    decode [0xDB05, 0x02CD] = .ok (.add 2 45 (.reg 27) (.reg 22)) ∧
    decode [0xDB05, 0x0ACD] = .ok (.sub 2 45 (.reg 27) (.reg 22)) ∧
    decode [0xDB05, 0x12CD] = .ok (.mul 2 45 (.reg 27) (.reg 22)) ∧
    decode [0xDB05, 0x1ACD] = .ok (.mulh 2 45 (.reg 27) (.reg 22)) ∧
    decode [0xDB05, 0x22CD] = .ok (.mulhu 2 45 (.reg 27) (.reg 22)) ∧
    decode [0xDB05, 0x2ACD] = .ok (.div 2 45 (.reg 27) (.reg 22)) ∧
    decode [0xDB05, 0x32CD] = .ok (.divu 2 45 (.reg 27) (.reg 22)) ∧
    decode [0xDB05, 0x3ACD] = .ok (.rem 2 45 (.reg 27) (.reg 22)) ∧
    decode [0xDB05, 0x42CD] = .ok (.remu 2 45 (.reg 27) (.reg 22)) ∧
    decode [0xDB05, 0x4ACD] = .ok (.and 2 45 (.reg 27) (.reg 22)) ∧
    decode [0xDB05, 0x52CD] = .ok (.or 2 45 (.reg 27) (.reg 22)) ∧
    decode [0xDB05, 0x5ACD] = .ok (.xor 2 45 (.reg 27) (.reg 22)) ∧
    decode [0xDB05, 0x62CD] = .ok (.andn 2 45 (.reg 27) (.reg 22)) ∧
    decode [0xDB05, 0x6ACD] = .ok (.shl 2 45 (.reg 27) (.reg 22)) := by decide

theorem test_decode_frame_and_scalar_2 :
    decode [0xDB05, 0x72CD] = .ok (.shr 2 45 (.reg 27) (.reg 22)) ∧
    decode [0xDB05, 0x7ACD] = .ok (.sar 2 45 (.reg 27) (.reg 22)) ∧
    decode [0xDB05, 0x82CD] = .ok (.rol 2 45 (.reg 27) (.reg 22)) ∧
    decode [0xDB05, 0x8ACD] = .ok (.min 2 45 (.reg 27) (.reg 22)) ∧
    decode [0xDB05, 0x92CD] = .ok (.max 2 45 (.reg 27) (.reg 22)) ∧
    decode [0xDB05, 0x9ACD] = .ok (.minu 2 45 (.reg 27) (.reg 22)) ∧
    decode [0xDB05, 0xA2CD] = .ok (.maxu 2 45 (.reg 27) (.reg 22)) ∧
    decode [0xDB05, 0xA80D] = .ok (.clz 2 45 (.reg 27)) ∧
    decode [0xDB05, 0xB00D] = .ok (.popc 2 45 (.reg 27)) ∧
    decode [0xDB05, 0xBACD] = .ok (.bfx 2 45 (.reg 27) (.reg 22)) ∧
    decode [0xD305, 0xC2CD] = .ok (.bfi 2 41 (.reg 27) (.reg 22)) ∧
    decode [0xD305, 0xCACD] = .ok (.sel 2 41 (.reg 27) (.reg 22)) ∧
    decode [0xDB05, 0xD00D] = .ok (.mov 2 45 (.reg 27)) ∧
    decode [0xDB07, 0x02CD] = .ok (.cmpEq 2 45 (.reg 27) (.reg 22)) ∧
    decode [0xDB07, 0x0ACD] = .ok (.cmpNe 2 45 (.reg 27) (.reg 22)) ∧
    decode [0xDB07, 0x12CD] = .ok (.cmpLt 2 45 (.reg 27) (.reg 22)) := by decide

theorem test_decode_frame_and_scalar_3 :
    decode [0xDB07, 0x1ACD] = .ok (.cmpLtu 2 45 (.reg 27) (.reg 22)) ∧
    decode [0xDB07, 0x22CD] = .ok (.cmpLe 2 45 (.reg 27) (.reg 22)) ∧
    decode [0xDB07, 0x2ACD] = .ok (.cmpLeu 2 45 (.reg 27) (.reg 22)) ∧
    decode [0xDB07, 0x32CD] = .ok (.cmpGt 2 45 (.reg 27) (.reg 22)) ∧
    decode [0xDB07, 0x3ACD] = .ok (.cmpGtu 2 45 (.reg 27) (.reg 22)) ∧
    decode [0xDB07, 0x42CD] = .ok (.cmpGe 2 45 (.reg 27) (.reg 22)) ∧
    decode [0xDB07, 0x4ACD] = .ok (.cmpGeu 2 45 (.reg 27) (.reg 22)) ∧
    decode [0x4D09, 0x0511] = .ok (.add64 2 38 (.reg 34) (.reg 40)) ∧
    decode [0x4D09, 0x0D11] = .ok (.sub64 2 38 (.reg 34) (.reg 40)) ∧
    decode [0x4D09, 0x1511] = .ok (.mul64 2 38 (.reg 34) (.reg 40)) ∧
    decode [0x4D09, 0x1AD1] = .ok (.shl64 2 38 (.reg 34) (.reg 22)) ∧
    decode [0x4D09, 0x22D1] = .ok (.shr64 2 38 (.reg 34) (.reg 22)) ∧
    decode [0x4D09, 0x2AD1] = .ok (.sar64 2 38 (.reg 34) (.reg 22)) ∧
    decode [0x4D09, 0x32D1] = .ok (.adda 2 38 (.reg 34) (.reg 22)) := by decide

theorem test_decode_control_1 :
    decode [0x0D0B, 0x0011] = .ok (.prep 2 6 (.reg 34)) ∧
    decode [0x010B, 0x0AC2] = .ok (.xfer 2 4 (.reg 22)) ∧
    decode [0x010B, 0x12C2] = .ok (.xfern 2 4 (.reg 22)) ∧
    decode [0x4D0B, 0x1AC2] = .ok (.call 2 38 4 (.reg 22)) ∧
    decode [0x010B, 0x22C2] = .ok (.ret 2 4 (.reg 22)) ∧
    decode [0x0C0B, 0x2842] = .ok (.split 6 4 2) ∧
    decode [0x000B, 0x3000] = .ok .join ∧
    decode [0x010B, 0x3800] = .ok (.yield 2) ∧
    decode [0x010B, 0x4000] = .ok (.halt 2) ∧
    decode [0x010B, 0x4800] = .ok (.nop 2) ∧
    decode [0xDB0D, 0x0002] = .ok (.vany 2 45 5) ∧
    decode [0xDB0D, 0x0802] = .ok (.vall 2 45 5) ∧
    decode [0xE30D, 0x1002] = .ok (.vbal 2 49 5) ∧
    decode [0xDB0D, 0x1802] = .ok (.vcnt 2 45 5) ∧
    decode [0xDB0D, 0x2002] = .ok (.vffs 2 45 5) ∧
    decode [0xDB0D, 0x2ACD] = .ok (.vbcast 2 45 (.reg 27) (.reg 22)) := by decide

theorem test_decode_control_2 :
    decode [0xDA0D, 0x32CD] = .ok (.regroup 45 (.reg 27) (.reg 22)) := by decide

theorem test_decode_system :
    decode [0x810F, 0x000D] = .ok (.trap 2 (.reg 27)) ∧
    decode [0x010F, 0x0800] = .ok (.eret 2) ∧
    decode [0xDB0F, 0x1003] = .ok (.csrr 2 45 7) ∧
    decode [0x8F0F, 0x180D] = .ok (.csrw 2 7 (.reg 27)) ∧
    decode [0xDB0F, 0x200D] = .ok (.capr 2 45 (.reg 27)) ∧
    decode [0x000F, 0x2800] = .ok (.wfi 0) ∧
    decode [0x010F, 0x3000] = .ok (.ifence 2) ∧
    decode [0x000F, 0x3E91] = .ok (.mapinv 0 (.reg 34) 52) ∧
    decode [0x000F, 0x4691] = .ok (.harvest 0 (.reg 34) 52) ∧
    decode [0xDA0F, 0x480D] = .ok (.keyset 0 45 (.reg 27)) ∧
    decode [0xDA0F, 0x500D] = .ok (.keykill 0 45 (.reg 27)) ∧
    decode [0x5A0F, 0x5AD1] = .ok (.polld 0 45 (.reg 34) (.reg 22)) ∧
    decode [0xDA0F, 0x600D] = .ok (.polsw 0 45 (.reg 27)) := by decide

theorem test_decode_vector_integer_1 :
    decode [0xDB11, 0x02CD] = .ok (.vadd 2 45 (.reg 27) (.reg 22)) ∧
    decode [0xDB11, 0x0ACD] = .ok (.vsub 2 45 (.reg 27) (.reg 22)) ∧
    decode [0xDB11, 0x12CD] = .ok (.vmul 2 45 (.reg 27) (.reg 22)) ∧
    decode [0xDB11, 0x1ACD] = .ok (.vmulh 2 45 (.reg 27) (.reg 22)) ∧
    decode [0xDB11, 0x22CD] = .ok (.vand 2 45 (.reg 27) (.reg 22)) ∧
    decode [0xDB11, 0x2ACD] = .ok (.vor 2 45 (.reg 27) (.reg 22)) ∧
    decode [0xDB11, 0x32CD] = .ok (.vxor 2 45 (.reg 27) (.reg 22)) ∧
    decode [0xDB11, 0x3ACD] = .ok (.vshl 2 45 (.reg 27) (.reg 22)) ∧
    decode [0xDB11, 0x42CD] = .ok (.vshr 2 45 (.reg 27) (.reg 22)) ∧
    decode [0xDB11, 0x4ACD] = .ok (.vsar 2 45 (.reg 27) (.reg 22)) ∧
    decode [0xDB11, 0x52CD] = .ok (.vmin 2 45 (.reg 27) (.reg 22)) ∧
    decode [0xDB11, 0x5ACD] = .ok (.vmax 2 45 (.reg 27) (.reg 22)) ∧
    decode [0xDB11, 0x62CD] = .ok (.vminu 2 45 (.reg 27) (.reg 22)) ∧
    decode [0xDB11, 0x6ACD] = .ok (.vmaxu 2 45 (.reg 27) (.reg 22)) ∧
    decode [0xDB11, 0x700D] = .ok (.vabs 2 45 (.reg 27)) ∧
    decode [0xDB11, 0x780D] = .ok (.vneg 2 45 (.reg 27)) := by decide

theorem test_decode_vector_integer_2 :
    decode [0xDB11, 0x800D] = .ok (.vclz 2 45 (.reg 27)) ∧
    decode [0xDB11, 0x880D] = .ok (.vpopc 2 45 (.reg 27)) ∧
    decode [0xDB11, 0x92CD] = .ok (.vadds 2 45 (.reg 27) (.reg 22)) ∧
    decode [0xDB11, 0x9ACD] = .ok (.vsubs 2 45 (.reg 27) (.reg 22)) ∧
    decode [0xDB11, 0xA00D] = .ok (.vmov 2 45 (.reg 27)) ∧
    decode [0xDB11, 0xAACD] = .ok (.vsel 2 45 (.reg 27) (.reg 22)) ∧
    decode [0xD313, 0x02CD] = .ok (.vmad 2 41 (.reg 27) (.reg 22)) ∧
    decode [0xD313, 0x0ACD] = .ok (.vmadh 2 41 (.reg 27) (.reg 22)) ∧
    decode [0xD313, 0x12CD] = .ok (.vdot4 2 41 (.reg 27) (.reg 22)) ∧
    decode [0xD313, 0x1ACD] = .ok (.vdot4u 2 41 (.reg 27) (.reg 22)) ∧
    decode [0x8D15, 0x02CD] = .ok (.vcmpEq 2 6 (.reg 27) (.reg 22)) ∧
    decode [0x8D15, 0x0ACD] = .ok (.vcmpNe 2 6 (.reg 27) (.reg 22)) ∧
    decode [0x8D15, 0x12CD] = .ok (.vcmpLt 2 6 (.reg 27) (.reg 22)) ∧
    decode [0x8D15, 0x1ACD] = .ok (.vcmpLtu 2 6 (.reg 27) (.reg 22)) ∧
    decode [0x8D15, 0x22CD] = .ok (.vcmpLe 2 6 (.reg 27) (.reg 22)) ∧
    decode [0x8D15, 0x2ACD] = .ok (.vcmpLeu 2 6 (.reg 27) (.reg 22)) := by decide

theorem test_decode_vector_integer_3 :
    decode [0x8D15, 0x32CD] = .ok (.vcmpGt 2 6 (.reg 27) (.reg 22)) ∧
    decode [0x8D15, 0x3ACD] = .ok (.vcmpGtu 2 6 (.reg 27) (.reg 22)) ∧
    decode [0x8D15, 0x42CD] = .ok (.vcmpGe 2 6 (.reg 27) (.reg 22)) ∧
    decode [0x8D15, 0x4ACD] = .ok (.vcmpGeu 2 6 (.reg 27) (.reg 22)) ∧
    decode [0x8D17, 0x0062] = .ok (.kand 2 6 5 3) ∧
    decode [0x8D17, 0x0862] = .ok (.kor 2 6 5 3) ∧
    decode [0x8D17, 0x1062] = .ok (.kxor 2 6 5 3) ∧
    decode [0x8D17, 0x1802] = .ok (.knot 2 6 5) ∧
    decode [0x8D17, 0x2002] = .ok (.kmov 2 6 5) ∧
    decode [0x8D17, 0x2818] = .ok (.kfroms 2 6 49) ∧
    decode [0xE317, 0x3002] = .ok (.ktos 2 49 5) := by decide

theorem test_decode_vector_float_1 :
    decode [0xDB19, 0x02CD] = .ok (.vfadd 2 45 (.reg 27) (.reg 22)) ∧
    decode [0xDB19, 0x0ACD] = .ok (.vfsub 2 45 (.reg 27) (.reg 22)) ∧
    decode [0xDB19, 0x12CD] = .ok (.vfmul 2 45 (.reg 27) (.reg 22)) ∧
    decode [0xD319, 0x1ACD] = .ok (.vfma 2 41 (.reg 27) (.reg 22)) ∧
    decode [0xD319, 0x22CD] = .ok (.vfms 2 41 (.reg 27) (.reg 22)) ∧
    decode [0xD319, 0x2ACD] = .ok (.vfnma 2 41 (.reg 27) (.reg 22)) ∧
    decode [0xDB19, 0x32CD] = .ok (.vfmin 2 45 (.reg 27) (.reg 22)) ∧
    decode [0xDB19, 0x3ACD] = .ok (.vfmax 2 45 (.reg 27) (.reg 22)) ∧
    decode [0xDB19, 0x400D] = .ok (.vfabs 2 45 (.reg 27)) ∧
    decode [0xDB19, 0x480D] = .ok (.vfneg 2 45 (.reg 27)) ∧
    decode [0xDB19, 0x500D] = .ok (.vfclass 2 45 (.reg 27)) ∧
    decode [0xDB19, 0x586D] = .ok (.vfrnd 2 45 (.reg 27) 3) ∧
    decode [0x4D1B, 0x0511] = .ok (.vdadd 2 38 (.reg 34) (.reg 40)) ∧
    decode [0x4D1B, 0x0D11] = .ok (.vdsub 2 38 (.reg 34) (.reg 40)) ∧
    decode [0x4D1B, 0x1511] = .ok (.vdmul 2 38 (.reg 34) (.reg 40)) ∧
    decode [0x491B, 0x1D11] = .ok (.vdfma 2 36 (.reg 34) (.reg 40)) := by decide

theorem test_decode_vector_float_2 :
    decode [0x4D1B, 0x2511] = .ok (.vdmin 2 38 (.reg 34) (.reg 40)) ∧
    decode [0x4D1B, 0x2D11] = .ok (.vdmax 2 38 (.reg 34) (.reg 40)) ∧
    decode [0x0D1D, 0x4511] = .ok (.vfcmpEq true 2 6 (.reg 34) (.reg 40)) ∧
    decode [0x0D1D, 0x4D11] = .ok (.vfcmpNe true 2 6 (.reg 34) (.reg 40)) ∧
    decode [0x0D1D, 0x5511] = .ok (.vfcmpLt true 2 6 (.reg 34) (.reg 40)) ∧
    decode [0x0D1D, 0x5D11] = .ok (.vfcmpLe true 2 6 (.reg 34) (.reg 40)) ∧
    decode [0x0D1D, 0x6511] = .ok (.vfcmpGt true 2 6 (.reg 34) (.reg 40)) ∧
    decode [0x0D1D, 0x6D11] = .ok (.vfcmpGe true 2 6 (.reg 34) (.reg 40)) ∧
    decode [0x0D1D, 0x7511] = .ok (.vfcmpUn true 2 6 (.reg 34) (.reg 40)) ∧
    decode [0x0D1D, 0x7D11] = .ok (.vfcmpOrd true 2 6 (.reg 34) (.reg 40)) ∧
    decode [0x4D1F, 0xC871] = .ok (.vcvt 25 2 38 (.reg 34) 3) := by decide

theorem test_decode_conversion_and_sfu_1 :
    decode [0xDB21, 0x02CD] = .ok (.pk4 2 45 (.reg 27) (.reg 22)) ∧
    decode [0xDB21, 0x0ACD] = .ok (.upk4 2 45 (.reg 27) (.reg 22)) ∧
    decode [0xAD21, 0x1010] = .ok (.pk6 2 22 33) ∧
    decode [0x4321, 0x180B] = .ok (.upk6 2 33 22) ∧
    decode [0xDB21, 0x22CD] = .ok (.pkts 2 45 (.reg 27) (.reg 22)) ∧
    decode [0xDB21, 0x2ACD] = .ok (.upkts 2 45 (.reg 27) (.reg 22)) ∧
    decode [0xDB21, 0x32CD] = .ok (.vscale 2 45 (.reg 27) (.reg 22)) ∧
    decode [0xDB23, 0x000D] = .ok (.srcp 2 45 (.reg 27)) ∧
    decode [0xDB23, 0x080D] = .ok (.srsq 2 45 (.reg 27)) ∧
    decode [0xDB23, 0x100D] = .ok (.ssqrt 2 45 (.reg 27)) ∧
    decode [0xDB23, 0x180D] = .ok (.sexp2 2 45 (.reg 27)) ∧
    decode [0xDB23, 0x200D] = .ok (.slog2 2 45 (.reg 27)) ∧
    decode [0xDB23, 0x280D] = .ok (.ssin 2 45 (.reg 27)) ∧
    decode [0xDB23, 0x300D] = .ok (.scos 2 45 (.reg 27)) ∧
    decode [0xDB23, 0x380D] = .ok (.stanh 2 45 (.reg 27)) ∧
    decode [0xDB23, 0x400D] = .ok (.sact 2 45 (.reg 27)) := by decide

theorem test_decode_conversion_and_sfu_2 :
    decode [0x8123, 0x480D] = .ok (.atld 2 (.reg 27)) ∧
    decode [0x0123, 0x5000] = .ok (.atswap 2) ∧
    decode [0xDB25, 0x002D] = .ok (.nbl 2 45 (.reg 27) 1) ∧
    decode [0xDB25, 0x082D] = .ok (.nbr 2 45 (.reg 27) 1) ∧
    decode [0xDB25, 0x12CD] = .ok (.nrot 2 45 (.reg 27) (.reg 22)) := by decide

theorem test_decode_memory :
    decode [0x4D31, 0xB2D1] = .ok (.ld 5 2 2 38 (.reg 34) (.reg 22)) ∧
    decode [0x4933, 0xB2D1] = .ok (.st 5 2 2 36 (.reg 34) (.reg 22)) ∧
    decode [0x4D35, 0xB2D1] = .ok (.sld 5 2 2 38 (.reg 34) (.reg 22)) ∧
    decode [0x4937, 0xB2D1] = .ok (.sst 5 2 2 36 (.reg 34) (.reg 22)) ∧
    decode [0xCD39, 0xB2CD] = .ok (.ldsp 5 2 2 38 (.reg 27) (.reg 22)) ∧
    decode [0xC93B, 0xB2CD] = .ok (.stsp 5 2 2 36 (.reg 27) (.reg 22)) ∧
    decode [0xCD3D, 0xA525] = .ok (.tld 5 2 38 11 41) ∧
    decode [0xC93F, 0xA525] = .ok (.tst 5 2 36 11 41) ∧
    decode [0x4D41, 0x8AD1] = .ok (.ldacq 4 1 2 38 (.reg 34) (.reg 22)) ∧
    decode [0x4943, 0x8AD1] = .ok (.strel 4 1 2 36 (.reg 34) (.reg 22)) ∧
    decode [0x0145, 0x8800] = .ok (.fence 4 false true 2) := by decide

theorem test_decode_sync :
    decode [0xDB47, 0x02CD] = .ok (.bar 2 45 (.reg 27) (.reg 22)) ∧
    decode [0xDB47, 0x0ACD] = .ok (.bara 2 45 (.reg 27) (.reg 22)) ∧
    decode [0xDB47, 0x12CD] = .ok (.barw 2 45 (.reg 27) (.reg 22)) ∧
    decode [0x5B47, 0x1800] = .ok (.dbar 2 45) ∧
    decode [0x5B47, 0x22D1] = .ok (.waitw 2 45 (.reg 34) (.reg 22)) ∧
    decode [0x0147, 0x2811] = .ok (.wakew 2 (.reg 34)) ∧
    decode [0x9B49, 0x000D] = .ok (.cpy 2 13 (.reg 27)) ∧
    decode [0x8149, 0x0ACD] = .ok (.give 2 (.reg 27) (.reg 22)) ∧
    decode [0x8149, 0x12CD] = .ok (.take 2 (.reg 27) (.reg 22)) ∧
    decode [0xCD49, 0x1805] = .ok (.hwait 2 38 11) ∧
    decode [0xDB49, 0x2005] = .ok (.htest 2 45 11) ∧
    decode [0x8149, 0x2805] = .ok (.hcancel 2 11) ∧
    decode [0x9B49, 0x32C5] = .ok (.hpass 2 13 11 (.reg 22)) := by decide

theorem test_decode_tasks_fabric_sketch :
    decode [0xDB4B, 0x068D] = .ok (.spawn 2 45 (.reg 27) 52) ∧
    decode [0x5B4B, 0x0AC0] = .ok (.steal 2 45 (.reg 22)) ∧
    decode [0xDB4B, 0x12CD] = .ok (.tdone 2 45 (.reg 27) (.reg 22)) ∧
    decode [0xDA4B, 0x1ACD] = .ok (.remq 0 45 (.reg 27) (.reg 22)) ∧
    decode [0xDB4B, 0x200D] = .ok (.pwrget 2 45 (.reg 27)) ∧
    decode [0x814B, 0x280D] = .ok (.pwrrel 2 (.reg 27)) ∧
    decode [0x9B4D, 0x056D] = .ok (.wsig 2 13 (.reg 27) 43) ∧
    decode [0xD34D, 0x0ACD] = .ok (.allred 2 41 (.reg 27) (.reg 22)) ∧
    decode [0x5B4D, 0x12D1] = .ok (.wincfg 2 45 (.reg 34) (.reg 22)) ∧
    decode [0x4D4D, 0x1811] = .ok (.ntime 2 38 (.reg 34)) ∧
    decode [0x814F, 0x02CD] = .ok (.skclr 2 (.reg 27) (.reg 22)) ∧
    decode [0x494F, 0x0D1A] = .ok (.skins 2 36 52 (.reg 40)) ∧
    decode [0x9B4F, 0x100D] = .ok (.skrecon 2 13 (.reg 27)) ∧
    decode [0xD74F, 0x1805] = .ok (.skstat 2 43 11) := by decide

theorem test_decode_atomics :
    decode [0x4D59, 0x8511] = .ok (.aadd 4 true 2 38 (.reg 34) (.reg 40)) ∧
    decode [0x4D59, 0x8D11] = .ok (.asub 4 true 2 38 (.reg 34) (.reg 40)) ∧
    decode [0x4D59, 0x9511] = .ok (.amin 4 true 2 38 (.reg 34) (.reg 40)) ∧
    decode [0x4D59, 0x9D11] = .ok (.amax 4 true 2 38 (.reg 34) (.reg 40)) ∧
    decode [0x4D59, 0xA511] = .ok (.aminu 4 true 2 38 (.reg 34) (.reg 40)) ∧
    decode [0x4D59, 0xAD11] = .ok (.amaxu 4 true 2 38 (.reg 34) (.reg 40)) ∧
    decode [0x4D59, 0xB511] = .ok (.aand 4 true 2 38 (.reg 34) (.reg 40)) ∧
    decode [0x4D59, 0xBD11] = .ok (.aor 4 true 2 38 (.reg 34) (.reg 40)) ∧
    decode [0x4D59, 0xC511] = .ok (.axor 4 true 2 38 (.reg 34) (.reg 40)) ∧
    decode [0x4D59, 0xCD11] = .ok (.axchg 4 true 2 38 (.reg 34) (.reg 40)) ∧
    decode [0x4D59, 0xD491] = .ok (.acas 4 true 2 38 (.reg 34) 36) ∧
    decode [0x4D59, 0xDD11] = .ok (.afadd 4 true 2 38 (.reg 34) (.reg 40)) := by decide

theorem test_decode_engine :
    decode [0x0161, 0x0B16] = .ok (.wload 22 44 2) ∧
    decode [0x0961, 0x68D6] = .ok (.rload 22 35 6 2) ∧
    decode [0x12E1, 0xB046] = .ok (.mmul 6 1 11 5) ∧
    decode [0x1AE1, 0xB39D] = .ok (.chb 29 14 11 5) ∧
    decode [0x22E1, 0xB000] = .ok (.che 11 5) ∧
    decode [0x28E1, 0xBB16] = .ok (.accst 22 44 11 1) ∧
    decode [0x3061, 0x4A1D] = .ok (.nest 29 40 4) ∧
    decode [0x3861, 0x0007] = .ok (.go 7) ∧
    decode [0x42E1, 0x001D] = .ok (.vcset 29 5) ∧
    decode [0x4AE1, 0xB000] = .ok (.shdw 11 5) ∧
    decode [0x52E1, 0xB000] = .ok (.scmt 11 5) ∧
    decode [0x5AE1, 0xB000] = .ok (.sdsc 11 5) ∧
    decode [0x6061, 0x4000] = .ok (.qfuse 4) ∧
    decode [0x6861, 0x0000] = .ok .qsplit := by decide

theorem test_decode_compact_1 :
    decode [0xD4C2] = .ok (.movCompact 19 26) ∧
    decode [0xD4C4] = .ok (.addCompact 19 26) ∧
    decode [0xD4C6] = .ok (.subCompact 19 26) ∧
    decode [0xD4C8] = .ok (.andCompact 19 26) ∧
    decode [0xD4CA] = .ok (.orCompact 19 26) ∧
    decode [0xD4CC] = .ok (.xorCompact 19 26) ∧
    decode [0xD4CE] = .ok (.addImmCompact 19 26) ∧
    decode [0xD4D0] = .ok (.shlCompact 19 26) ∧
    decode [0xD4D2] = .ok (.shrCompact 19 26) ∧
    decode [0xD4D4] = .ok (.sarCompact 19 26) ∧
    decode [0xD4D6] = .ok (.movImmCompact 19 26) ∧
    decode [0xD4D8] = .ok (.vmovCompact 19 26) ∧
    decode [0xD4DA] = .ok (.vaddCompact 19 26) ∧
    decode [0xD4DC] = .ok (.vfaddCompact 19 26) ∧
    decode [0xD4DE] = .ok (.vfmulCompact 19 26) ∧
    decode [0x30E0] = .ok (.kmovCompact 3 6) := by decide

theorem test_decode_compact_2 :
    decode [0x0022] = .ok .nopCompact ∧
    decode [0xD164] = .ok (.xferCompact 5 26) ∧
    decode [0xD166] = .ok (.xfernCompact 5 26) := by decide

theorem test_decode_policy_1 :
    decPol 0x05A7 = .ok (.polLdi 5 167) ∧
    decPol 0x0DA7 = .ok (.polLdih 5 167) ∧
    decPol 0x1566 = .ok (.polAdd 5 3 6) ∧
    decPol 0x1D66 = .ok (.polSub 5 3 6) ∧
    decPol 0x2566 = .ok (.polAnd 5 3 6) ∧
    decPol 0x2D66 = .ok (.polOr 5 3 6) ∧
    decPol 0x3566 = .ok (.polXor 5 3 6) ∧
    decPol 0x3D66 = .ok (.polMinu 5 3 6) ∧
    decPol 0x4566 = .ok (.polMaxu 5 3 6) ∧
    decPol 0x4D73 = .ok (.polShl 5 3 19) ∧
    decPol 0x5573 = .ok (.polShr 5 3 19) ∧
    decPol 0x5D73 = .ok (.polAddi 5 3 19) ∧
    decPol 0x6564 = .ok (.polRqf 5 3 4) ∧
    decPol 0x6D64 = .ok (.polRuf 5 3 4) ∧
    decPol 0x73D3 = .ok (.polBeq 3 6 19) ∧
    decPol 0x7BD3 = .ok (.polBne 3 6 19) := by decide

theorem test_decode_policy_2 :
    decPol 0x83D3 = .ok (.polBltu 3 6 19) ∧
    decPol 0x8BD3 = .ok (.polBgeu 3 6 19) ∧
    decPol 0x9564 = .ok (.polArgminq 5 3 4) ∧
    decPol 0x9D64 = .ok (.polArgmaxq 5 3 4) ∧
    decPol 0xA564 = .ok (.polArgminu 5 3 4) ∧
    decPol 0xAD64 = .ok (.polArgmaxu 5 3 4) ∧
    decPol 0xB502 = .ok (.polLdp 5 2) ∧
    decPol 0xBB02 = .ok (.polStp 3 2) ∧
    decPol 0xC066 = .ok (.polDecPick 3 6) ∧
    decPol 0xC166 = .ok (.polDecKeep 3 6) ∧
    decPol 0xC266 = .ok (.polDecPreempt 3 6) ∧
    decPol 0xC366 = .ok (.polDecKill 3 6) ∧
    decPol 0xC466 = .ok (.polDecResume 3 6) ∧
    decPol 0xC566 = .ok (.polDecNotify 3 6) ∧
    decPol 0xC666 = .ok (.polDecSuspend 3 6) ∧
    decPol 0xC766 = .ok (.polDecFallback 3 6) := by decide

/-- Literals: the two halfwords after the instruction, low half first (R108). -/
theorem test_decode_literals :
    decode [0x0005, 0x0FE1, 0x5678, 0x1234] = .ok (.sub 0 0 (.reg 2) (.lit 0x12345678)) ∧
    decode [0xFC05, 0xD01F, 0xFFFF, 0x8000] = .ok (.mov 0 62 (.lit 0x8000FFFF)) ∧
    ilen [0x0005, 0x0FE1, 0x5678, 0x1234] = 4 ∧ ilen [0x0005, 0x0861] = 2 ∧ ilen [0x794E] = 1 := by decide

/-! ### Well-formedness: an ill-formed term for each check -/

theorem test_wf_pair_odd : (Instr.add64 0 2 (.reg 5) (.reg 6)).wf = false := by decide
theorem test_wf_pair_62 : (Instr.add64 0 2 (.reg 62) (.reg 6)).wf = false := by decide
theorem test_wf_pdst_odd : (Instr.adda 0 3 (.reg 4) (.reg 6)).wf = false := by decide
theorem test_wf_src_63 : (Instr.add 0 2 (.reg 63) (.reg 6)).wf = false := by decide
theorem test_wf_reg_63 : (Instr.bfi 0 63 (.reg 1) (.reg 2)).wf = false := by decide
theorem test_wf_preg_63 : (Instr.vdfma 0 63 (.reg 2) (.reg 4)).wf = false := by decide
theorem test_wf_ksrc : (Instr.vany 0 2 8).wf = false := by decide
theorem test_wf_kdst : (Instr.kmov 0 8 1).wf = false := by decide
theorem test_wf_kdst_discard : (Instr.kmov 0 63 1).wf = true := by decide
theorem test_wf_branch_target : (Instr.xfer 0 8 (.reg 1)).wf = false := by decide
theorem test_wf_handle : (Instr.cpy 0 16 (.reg 1)).wf = false := by decide
theorem test_wf_descriptor : (Instr.tld 4 0 2 16 3).wf = false := by decide
theorem test_wf_control_register : (Instr.csrr 0 2 13).wf = false := by decide
theorem test_wf_csrr_pair : (Instr.csrr 0 3 4).wf = false := by decide
theorem test_wf_csrw_pair : (Instr.csrw 0 10 (.reg 3)).wf = false := by decide
theorem test_wf_rounding_5 : (Instr.vfrnd 0 2 (.reg 3) 5).wf = false := by decide
theorem test_wf_rounding_7 : (Instr.vfrnd 0 2 (.reg 3) 7).wf = true := by decide
theorem test_wf_edge_mode : (Instr.nbl 0 2 (.reg 3) 2).wf = false := by decide
theorem test_wf_group_2 : (Instr.mapinv 0 (.reg 2) 62).wf = false := by decide
theorem test_wf_group_3 : (Instr.vbal 0 61 1).wf = false := by decide
theorem test_wf_group_4 : (Instr.wsig 0 1 (.reg 2) 60).wf = false := by decide
theorem test_wf_group_8 : (Instr.nest 1 56 0).wf = false := by decide
theorem test_wf_cas_pairs : (Instr.acas 3 true 0 2 (.reg 4) 6).wf = false := by decide
theorem test_wf_size_6 : (Instr.ld 6 0 0 2 (.reg 4) (.reg 1)).wf = false := by decide
theorem test_wf_store_size_unsigned : (Instr.st 1 0 0 2 (.reg 4) (.reg 1)).wf = false := by decide
theorem test_wf_store_size_3 : (Instr.stsp 3 0 0 2 (.reg 4) (.reg 1)).wf = false := by decide
theorem test_wf_acquire_size : (Instr.ldacq 3 2 0 2 (.reg 4) (.reg 1)).wf = false := by decide
theorem test_wf_scope_6 : (Instr.fence 6 false false 0).wf = false := by decide
theorem test_wf_atomic_scope : (Instr.aadd 7 false 0 2 (.reg 4) (.reg 1)).wf = false := by decide
theorem test_wf_conversion_31 : (Instr.vcvt 31 0 2 (.reg 4) 0).wf = false := by decide
theorem test_wf_load_tokens : (Instr.wload 2 4 1).wf = false := by decide
theorem test_wf_store_tokens : (Instr.accst 2 4 0 2).wf = false := by decide
theorem test_wf_ring_8 : (Instr.rload 2 4 8 2).wf = false := by decide
theorem test_wf_mmul_ring : (Instr.mmul 8 0 0 0).wf = false := by decide
theorem test_wf_mmul_keep : (Instr.mmul 7 2 0 0).wf = false := by decide
theorem test_wf_chain_kind_3 : (Instr.chb 2 3 0 0).wf = false := by decide
theorem test_wf_chain_flags : (Instr.chb 2 16 0 0).wf = false := by decide
theorem test_wf_nest_level : (Instr.nest 1 2 6).wf = false := by decide
theorem test_wf_go_0 : (Instr.go 0).wf = false := by decide
theorem test_wf_go_9 : (Instr.go 9).wf = false := by decide
theorem test_wf_fuse_5 : (Instr.qfuse 5).wf = false := by decide
theorem test_wf_compact_predicate : (Instr.kmovCompact 8 1).wf = false := by decide
theorem test_wf_compact_target : (Instr.xferCompact 8 1).wf = false := by decide
theorem test_wf_policy_offset : (Instr.polBeq 1 2 0).wf = false := by decide

/-! ### Single steps on small states -/

/-- A run of `n` instructions of zeros, one pass left, about to issue its first instruction of `l` halfwords. -/
def runOf (n l : Nat) : Run := { inRun := true, pc := 0x1000, code := List.replicate (2 * n) 0, cnt := n, left := 1, ilen := l }

/-- A wave on CU 0 in a run of eight instructions, all lanes on. -/
def wave : Agent :=
  { profile := .wave, die := 10, run := runOf 8 2, s := [(60, 0xFFFFFFFF), (61, 0xFFFFFFFF), (62, 0xFFFFFFFF)] }

/-- A sequencer on quadrant 0 and a core in such a run. -/
def sequencer : Agent := { profile := .sequencer, die := 2, run := runOf 8 2 }
def core : Agent := { profile := .host, die := 1, run := runOf 8 2 }

/-- The reset state with one agent, whose turn it is; where its stream has a page, translation is on. -/
def with_ (id : Nat) (ag : Agent) : State :=
  { State.reset with
    cur := .agent id
    agents := [(id, ag)]
    rot := { State.reset.rot with ptRoot := if ag.strm.cur.isSome then [(0, 1)] else [] } }

/-- An agent with scalar registers set. -/
def Machine.Agent.regs (ag : Agent) (l : Tab Word) : Agent := l.foldl (fun a e => a.sSet e.1 e.2) ag

/-- A vector register, and a predicate, in every lane from the list. -/
def Machine.Agent.vreg (ag : Agent) (r : Nat) (l : List Word) : Agent :=
  ag.vSet r (BitVec.allOnes 96) (fun i => l.getD i 0)
def Machine.Agent.pred (ag : Agent) (r : Nat) (m : Mask) : Agent := ag.kSet r (BitVec.allOnes 96) m

/-- The next state an outcome gives, the agent in it, a scalar, a pair, a vector lane, a predicate. -/
def got (o : Out) : Option State := match o with
  | .next t => some t
  | _ => none
def agentIn (o : Out) (id : Nat) : Option Agent := (got o).bind (fun t => t.agent? id)
def sIn (ag : Agent) (i : Instr) (r : Nat) : Option Word := (agentIn (exec i (with_ 0 ag)) 0).map (fun a => a.sGet r)
def pIn (ag : Agent) (i : Instr) (r : Nat) : Option DWord := (agentIn (exec i (with_ 0 ag)) 0).map (fun a => a.pGet r)
def vIn (ag : Agent) (i : Instr) (r : Nat) (l : Nat) : Option Word := (agentIn (exec i (with_ 0 ag)) 0).map (fun a => a.vGet r l)
def kIn (ag : Agent) (i : Instr) (r : Nat) : Option Mask := (agentIn (exec i (with_ 0 ag)) 0).map (fun a => a.kGet r)
def flagsIn (ag : Agent) (i : Instr) : Option Word := (agentIn (exec i (with_ 0 ag)) 0).map (fun a => a.rstat)
/-- The cause of the trap an agent has taken, and its value. -/
def trapIn (o : Out) (id : Nat) : Option (Nat × DWord) :=
  (agentIn o id).bind (fun a => if a.tcause.getLsbD 31 then some (a.tcause.toNat % 256, a.tval) else none)

/-- s1 = −1, s2 = 7, s3 = −2³¹, s4 = 0. -/
def nums : Agent := Machine.Agent.regs wave [(1, 0xFFFFFFFF), (2, 7), (3, 0x80000000)]

theorem test_scalar_arithmetic :
    sIn nums (.add 0 5 (.reg 1) (.reg 2)) 5 = some 6 ∧ sIn nums (.sub 0 5 (.reg 2) (.reg 1)) 5 = some 8 ∧
    sIn nums (.mul 0 5 (.reg 1) (.reg 2)) 5 = some 0xFFFFFFF9 ∧ sIn nums (.mulh 0 5 (.reg 1) (.reg 2)) 5 = some 0xFFFFFFFF ∧
    sIn nums (.mulhu 0 5 (.reg 1) (.reg 2)) 5 = some 6 ∧ sIn nums (.and 0 5 (.reg 1) (.reg 2)) 5 = some 7 ∧
    sIn nums (.or 0 5 (.reg 3) (.reg 2)) 5 = some 0x80000007 ∧ sIn nums (.xor 0 5 (.reg 1) (.reg 2)) 5 = some 0xFFFFFFF8 ∧
    sIn nums (.andn 0 5 (.reg 1) (.reg 2)) 5 = some 0xFFFFFFF8 ∧ sIn nums (.min 0 5 (.reg 2) (.reg 1)) 5 = some 0xFFFFFFFF ∧
    sIn nums (.max 0 5 (.reg 2) (.reg 1)) 5 = some 7 ∧ sIn nums (.minu 0 5 (.reg 2) (.reg 1)) 5 = some 7 ∧
    sIn nums (.maxu 0 5 (.reg 2) (.reg 1)) 5 = some 0xFFFFFFFF ∧ sIn nums (.clz 0 5 (.reg 2)) 5 = some 29 ∧
    sIn nums (.clz 0 5 (.reg 4)) 5 = some 32 ∧ sIn nums (.popc 0 5 (.reg 1)) 5 = some 32 ∧
    sIn nums (.mov 0 5 (.lit 300)) 5 = some 300 := by decide

theorem test_scalar_division :
    sIn nums (.div 0 5 (.reg 2) (.reg 1)) 5 = some 0xFFFFFFF9 ∧ sIn nums (.div 0 5 (.reg 3) (.reg 1)) 5 = some 0x80000000 ∧
    sIn nums (.divu 0 5 (.reg 1) (.reg 2)) 5 = some 613566756 ∧ sIn nums (.rem 0 5 (.reg 3) (.reg 2)) 5 = some 0xFFFFFFFE ∧
    sIn nums (.remu 0 5 (.reg 1) (.reg 2)) 5 = some 3 ∧ sIn nums (.div 0 5 (.reg 2) (.reg 4)) 5 = some 0xFFFFFFFF ∧
    sIn nums (.rem 0 5 (.reg 2) (.reg 4)) 5 = some 7 ∧ flagsIn nums (.remu 0 5 (.reg 2) (.reg 4)) = some 8 ∧
    flagsIn nums (.div 0 5 (.reg 2) (.reg 1)) = some 0 := by decide

theorem test_scalar_shifts :
    sIn nums (.shl 0 5 (.reg 2) (.lit 31)) 5 = some 0x80000000 ∧ sIn nums (.shl 0 5 (.reg 2) (.lit 32)) 5 = some 0 ∧
    sIn nums (.shr 0 5 (.reg 3) (.lit 31)) 5 = some 1 ∧ sIn nums (.sar 0 5 (.reg 3) (.lit 31)) 5 = some 0xFFFFFFFF ∧
    sIn nums (.sar 0 5 (.reg 3) (.lit 77)) 5 = some 0xFFFFFFFF ∧ sIn nums (.rol 0 5 (.reg 3) (.lit 33)) 5 = some 1 ∧
    sIn nums (.bfx 0 5 (.lit 0x0000ABCD) (.lit 0x0704)) 5 = some 0xBC ∧
    sIn nums (.bfx 0 5 (.lit 0x0000ABCD) (.lit 0x10704)) 5 = some 0xFFFFFFBC ∧
    sIn nums (.bfi 0 1 (.lit 0x5A) (.lit 0x0704)) 1 = some 0xFFFFF5AF ∧
    sIn nums (.sel 0 2 (.lit 1) (.lit 2)) 2 = some 1 ∧ sIn nums (.sel 0 4 (.lit 1) (.lit 2)) 4 = some 2 := by decide

theorem test_scalar_compare :
    sIn nums (.cmpEq 0 5 (.reg 1) (.reg 2)) 5 = some 0 ∧ sIn nums (.cmpNe 0 5 (.reg 1) (.reg 2)) 5 = some 1 ∧
    sIn nums (.cmpLt 0 5 (.reg 1) (.reg 2)) 5 = some 1 ∧ sIn nums (.cmpLtu 0 5 (.reg 1) (.reg 2)) 5 = some 0 ∧
    sIn nums (.cmpLe 0 5 (.reg 2) (.reg 2)) 5 = some 1 ∧ sIn nums (.cmpLeu 0 5 (.reg 1) (.reg 2)) 5 = some 0 ∧
    sIn nums (.cmpGt 0 5 (.reg 1) (.reg 2)) 5 = some 0 ∧ sIn nums (.cmpGtu 0 5 (.reg 1) (.reg 2)) 5 = some 1 ∧
    sIn nums (.cmpGe 0 5 (.reg 2) (.reg 2)) 5 = some 1 ∧ sIn nums (.cmpGeu 0 5 (.reg 2) (.reg 1)) 5 = some 0 := by decide

/-- Pair 2 is 7 + 2³² · (−2³¹): s2 = 7, s3 = 0x80000000. -/
theorem test_pairs :
    pIn nums (.add64 0 6 (.reg 2) (.lit 0xFFFFFFFF)) 6 = some 0x8000000000000006 ∧
    pIn nums (.sub64 0 6 (.reg 0) (.lit 1)) 6 = some 0xFFFFFFFFFFFFFFFF ∧
    pIn nums (.mul64 0 6 (.reg 2) (.lit 2)) 6 = some 14 ∧
    pIn nums (.shl64 0 6 (.reg 2) (.lit 61)) 6 = some 0xE000000000000000 ∧
    pIn nums (.shr64 0 6 (.reg 2) (.lit 63)) 6 = some 1 ∧ pIn nums (.sar64 0 6 (.reg 2) (.lit 64)) 6 = some 0xFFFFFFFFFFFFFFFF ∧
    pIn nums (.adda 0 6 (.reg 2) (.lit 0x80000003)) 6 = some 0x8000000000000013 := by decide

theorem test_compact :
    sIn nums (.movCompact 5 2) 5 = some 7 ∧ sIn nums (.addCompact 2 1) 2 = some 6 ∧ sIn nums (.subCompact 2 1) 2 = some 8 ∧
    sIn nums (.andCompact 1 2) 1 = some 7 ∧ sIn nums (.orCompact 3 2) 3 = some 0x80000007 ∧
    sIn nums (.xorCompact 1 2) 1 = some 0xFFFFFFF8 ∧ sIn nums (.addImmCompact 2 31) 2 = some 6 ∧
    sIn nums (.shlCompact 2 31) 2 = some 0x80000000 ∧ sIn nums (.shrCompact 3 31) 3 = some 1 ∧
    sIn nums (.sarCompact 3 31) 3 = some 0xFFFFFFFF ∧ sIn nums (.movImmCompact 5 16) 5 = some 0xFFFFFFF0 := by decide

/-- s0 reads 0 and s0 and code 63 discard writes (R96, R107). -/
theorem test_discard : sIn nums (.mov 0 0 (.lit 9)) 0 = some 0 ∧ sIn nums (.mov 0 63 (.lit 9)) 63 = sIn nums (.nop 0) 63 := by
  decide

/-- Vector registers v1 = (1, 2, −1, 2³¹, …), v2 = (3, 0xFFFFFFFF, 2, 33), k1 on lanes 0 to 2, k2 on lane 1. -/
def lanes4 : Agent :=
  Machine.Agent.pred (Machine.Agent.pred (Machine.Agent.vreg (Machine.Agent.vreg wave 1 [1, 2, 0xFFFFFFFF, 0x80000000]) 2 [3, 0xFFFFFFFF, 2, 33]) 1 7) 2 2

def v4 (i : Instr) (r : Nat) : List (Option Word) := (List.range 4).map (vIn lanes4 i r)

theorem test_vector_1 :
    v4 (.vadd 0 3 (.reg 1) (.reg 2)) 3 = [some 4, some 1, some 1, some 0x80000021] ∧
    v4 (.vsub 1 3 (.reg 1) (.reg 2)) 3 = [some 0xFFFFFFFE, some 3, some 0xFFFFFFFD, some 0] ∧
    v4 (.vmul 0 3 (.reg 1) (.reg 2)) 3 = [some 3, some 0xFFFFFFFE, some 0xFFFFFFFE, some 0x80000000] ∧
    v4 (.vmulh 0 3 (.reg 1) (.reg 2)) 3 = [some 0, some 0xFFFFFFFF, some 0xFFFFFFFF, some 0xFFFFFFEF] ∧
    v4 (.vand 0 3 (.reg 1) (.reg 2)) 3 = [some 1, some 2, some 2, some 0] ∧
    v4 (.vor 0 3 (.reg 1) (.reg 2)) 3 = [some 3, some 0xFFFFFFFF, some 0xFFFFFFFF, some 0x80000021] := by decide

theorem test_vector_2 :
    v4 (.vxor 0 3 (.reg 1) (.reg 2)) 3 = [some 2, some 0xFFFFFFFD, some 0xFFFFFFFD, some 0x80000021] ∧
    v4 (.vshl 0 3 (.reg 1) (.reg 2)) 3 = [some 8, some 0, some 0xFFFFFFFC, some 0] ∧
    v4 (.vshr 0 3 (.reg 1) (.reg 2)) 3 = [some 0, some 0, some 0x3FFFFFFF, some 0] ∧
    v4 (.vsar 0 3 (.reg 1) (.reg 2)) 3 = [some 0, some 0, some 0xFFFFFFFF, some 0xFFFFFFFF] ∧
    v4 (.vmin 0 3 (.reg 1) (.reg 2)) 3 = [some 1, some 0xFFFFFFFF, some 0xFFFFFFFF, some 0x80000000] ∧
    v4 (.vmax 0 3 (.reg 1) (.reg 2)) 3 = [some 3, some 2, some 2, some 33] ∧
    v4 (.vminu 0 3 (.reg 1) (.reg 2)) 3 = [some 1, some 2, some 2, some 33] ∧
    v4 (.vmaxu 0 3 (.reg 1) (.reg 2)) 3 = [some 3, some 0xFFFFFFFF, some 0xFFFFFFFF, some 0x80000000] := by decide

theorem test_vector_3 :
    v4 (.vabs 0 3 (.reg 1)) 3 = [some 1, some 2, some 1, some 0x80000000] ∧
    v4 (.vneg 0 3 (.reg 1)) 3 = [some 0xFFFFFFFF, some 0xFFFFFFFE, some 1, some 0x80000000] ∧
    v4 (.vclz 0 3 (.reg 1)) 3 = [some 31, some 30, some 0, some 0] ∧
    v4 (.vpopc 0 3 (.reg 1)) 3 = [some 1, some 1, some 32, some 1] ∧
    v4 (.vadds 0 3 (.reg 1) (.lit 0x7FFFFFFF)) 3 = [some 0x7FFFFFFF, some 0x7FFFFFFF, some 0x7FFFFFFE, some 0xFFFFFFFF] ∧
    v4 (.vsubs 0 3 (.reg 1) (.lit 0x7FFFFFFF)) 3 = [some 0x80000002, some 0x80000003, some 0x80000000, some 0x80000000] ∧
    v4 (.vmov 2 1 (.reg 2)) 1 = [some 1, some 0xFFFFFFFF, some 0xFFFFFFFF, some 0x80000000] ∧
    v4 (.vsel 2 3 (.reg 1) (.reg 2)) 3 = [some 3, some 2, some 2, some 33] := by decide

theorem test_vector_accumulate :
    v4 (.vmad 0 2 (.reg 1) (.lit 2)) 2 = [some 5, some 3, some 0, some 33] ∧
    v4 (.vmadh 0 2 (.reg 1) (.lit 0x80000000)) 2 = [some 2, some 0xFFFFFFFE, some 2, some 0x40000021] ∧
    v4 (.vdot4 0 2 (.reg 1) (.lit 0x01020304)) 2 = [some 7, some 7, some 0xFFFFFFF8, some 0xFFFFFFA1] ∧
    v4 (.vdot4u 0 2 (.reg 1) (.lit 0x01020304)) 2 = [some 7, some 7, some 2552, some 161] := by decide

theorem test_vector_compare :
    kIn lanes4 (.vcmpEq 0 3 (.reg 1) (.lit 2)) 3 = some 2 ∧
    kIn lanes4 (.vcmpNe 1 3 (.reg 1) (.lit 2)) 3 = some 5 ∧
    kIn lanes4 (.vcmpLt 1 3 (.reg 1) (.lit 2)) 3 = some 5 ∧ kIn lanes4 (.vcmpLtu 1 3 (.reg 1) (.lit 2)) 3 = some 1 ∧
    kIn lanes4 (.vcmpLe 1 3 (.reg 1) (.lit 2)) 3 = some 7 ∧ kIn lanes4 (.vcmpLeu 1 3 (.reg 1) (.lit 2)) 3 = some 3 ∧
    kIn lanes4 (.vcmpGt 1 3 (.reg 1) (.lit 1)) 3 = some 2 ∧ kIn lanes4 (.vcmpGtu 1 3 (.reg 1) (.lit 1)) 3 = some 6 ∧
    kIn lanes4 (.vcmpGe 1 3 (.reg 1) (.lit 2)) 3 = some 2 ∧ kIn lanes4 (.vcmpGeu 1 3 (.reg 1) (.lit 2)) 3 = some 6 := by decide

theorem test_predicates :
    kIn lanes4 (.kand 0 3 1 2) 3 = some 2 ∧ kIn lanes4 (.kor 0 3 1 2) 3 = some 7 ∧ kIn lanes4 (.kxor 0 3 1 2) 3 = some 5 ∧
    kIn lanes4 (.knot 0 3 1) 3 = some (BitVec.allOnes 96 - 7) ∧ kIn lanes4 (.kmov 0 3 2) 3 = some 2 ∧
    kIn lanes4 (.kmov 0 3 0) 3 = some (BitVec.allOnes 96) ∧ kIn lanes4 (.kmovCompact 3 1) 3 = some 7 ∧
    kIn (Machine.Agent.regs wave [(4, 1), (5, 2), (6, 4)]) (.kfroms 0 3 4) 3 = some 0x000000040000000200000001 ∧
    (List.range 3).map (fun r => sIn lanes4 (.ktos 0 4 1) (4 + r)) = [some 7, some 0, some 0] := by decide

theorem test_votes :
    sIn lanes4 (.vany 1 5 2) 5 = some 1 ∧ sIn lanes4 (.vall 1 5 2) 5 = some 0 ∧ sIn lanes4 (.vall 2 5 1) 5 = some 1 ∧
    sIn lanes4 (.vbal 0 5 1) 5 = some 7 ∧ sIn lanes4 (.vcnt 0 5 1) 5 = some 3 ∧ sIn lanes4 (.vffs 0 5 2) 5 = some 1 ∧
    sIn lanes4 (.vffs 0 5 4) 5 = some 0xFFFFFFFF ∧ sIn lanes4 (.vbcast 0 5 (.reg 1) (.lit 3)) 5 = some 0x80000000 ∧
    sIn lanes4 (.vbcast 0 5 (.reg 1) (.lit 96)) 5 = some 0 := by decide

theorem test_lane_network :
    v4 (.nbl 0 3 (.reg 1) 0) 3 = [some 0, some 1, some 2, some 0xFFFFFFFF] ∧
    v4 (.nbr 0 3 (.reg 1) 0) 3 = [some 2, some 0xFFFFFFFF, some 0x80000000, some 0] ∧
    v4 (.nrot 0 3 (.reg 1) (.lit 95)) 3 = [some 0, some 1, some 2, some 0xFFFFFFFF] ∧
    vIn lanes4 (.nbr 0 3 (.reg 1) 1) 3 95 = some 1 := by decide

theorem test_packing :
    v4 (.pk4 0 3 (.lit 0x01020304) (.lit 0x05060708)) 3 = List.replicate 4 (some 0x56781234) ∧
    v4 (.upk4 0 3 (.lit 0x1234ABCD) (.lit 2)) 3 = List.replicate 4 (some 0xFAFBFCFD) ∧
    v4 (.pkts 0 3 (.lit 0x01020304) (.lit 0x05060708)) 3 = List.replicate 4 (some 0x15263748) ∧
    v4 (.upkts 0 3 (.lit 0x00000019) (.lit 0)) 3 = List.replicate 4 (some 0) := by decide

theorem test_packing_6 :
    (List.range 3).map (fun r => vIn (Machine.Agent.vreg wave 8 [0x3F]) (.pk6 0 12 8) (12 + r) 0) = [some 0x3F, some 0, some 0] ∧
    (List.range 4).map (fun r => vIn (Machine.Agent.vreg wave 8 [0xFFF]) (.upk6 0 12 8) (12 + r) 0) =
      [some 0x3F3F, some 0, some 0, some 0] := by decide

theorem test_float :
    v4 (.vfadd 0 3 (.lit 0x3F800000) (.lit 0x40000000)) 3 = List.replicate 4 (some 0x40400000) ∧
    v4 (.vfsub 0 3 (.lit 0x3F800000) (.lit 0x40000000)) 3 = List.replicate 4 (some 0xBF800000) ∧
    v4 (.vfmul 0 3 (.lit 0x40400000) (.lit 0x40000000)) 3 = List.replicate 4 (some 0x40C00000) ∧
    vIn (Machine.Agent.vreg wave 3 [0x3F800000]) (.vfma 0 3 (.lit 0x40400000) (.lit 0x40000000)) 3 0 = some 0x40E00000 ∧
    vIn (Machine.Agent.vreg wave 3 [0x3F800000]) (.vfms 0 3 (.lit 0x40400000) (.lit 0x40000000)) 3 0 = some 0x40A00000 ∧
    vIn (Machine.Agent.vreg wave 3 [0x3F800000]) (.vfnma 0 3 (.lit 0x40400000) (.lit 0x40000000)) 3 0 = some 0xC0A00000 ∧
    flagsIn wave (.vfadd 0 3 (.lit 0x7F800000) (.lit 0xFF800000)) = some 16 := by decide

theorem test_float_minmax :
    v4 (.vfmin 0 3 (.lit 0) (.lit 0x80000000)) 3 = List.replicate 4 (some 0x80000000) ∧
    v4 (.vfmax 0 3 (.lit 0x80000000) (.lit 0)) 3 = List.replicate 4 (some 0) ∧
    v4 (.vfabs 0 3 (.lit 0xBF800000)) 3 = List.replicate 4 (some 0x3F800000) ∧
    v4 (.vfneg 0 3 (.lit 0x3F800000)) 3 = List.replicate 4 (some 0xBF800000) ∧
    v4 (.vfclass 0 3 (.lit 0xFF800000)) 3 = List.replicate 4 (some 1) ∧
    v4 (.vfclass 0 3 (.lit 0x7FC00000)) 3 = List.replicate 4 (some 512) ∧
    v4 (.vfrnd 0 3 (.lit 0x40200000) 0) 3 = List.replicate 4 (some 0x40000000) ∧
    v4 (.vscale 0 3 (.lit 0x3F800000) (.lit 0x00808080)) 3 = List.replicate 4 (some 0x40000000) := by decide

/-- An agent with 1.0 in pair v4 and 2.0 in pair v6, as FP64. -/
def doubles : Agent := Machine.Agent.vreg (Machine.Agent.vreg wave 5 [0x3FF00000]) 7 [0x40000000]

theorem test_double :
    vIn doubles (.vdadd 0 8 (.reg 4) (.reg 6)) 9 0 = some 0x40080000 ∧
    vIn doubles (.vdsub 0 8 (.reg 4) (.reg 6)) 9 0 = some 0xBFF00000 ∧
    vIn doubles (.vdmul 0 8 (.reg 6) (.reg 6)) 9 0 = some 0x40100000 ∧
    vIn doubles (.vdfma 0 4 (.reg 6) (.reg 6)) 5 0 = some 0x40140000 ∧
    vIn doubles (.vdmin 0 8 (.reg 4) (.reg 6)) 9 0 = some 0x3FF00000 ∧
    vIn doubles (.vdmax 0 8 (.reg 4) (.reg 6)) 9 0 = some 0x40000000 := by decide

theorem test_float_compare :
    kIn doubles (.vfcmpLt true 0 1 (.reg 4) (.reg 6)) 1 = some 1 ∧
    kIn doubles (.vfcmpEq true 0 1 (.reg 4) (.reg 6)) 1 = some (BitVec.allOnes 96 - 1) ∧
    kIn wave (.vfcmpUn false 0 1 (.lit 0x7FC00000) (.lit 0)) 1 = some (BitVec.allOnes 96) ∧
    kIn wave (.vfcmpOrd false 0 1 (.lit 0x7FC00000) (.lit 0)) 1 = some 0 ∧
    kIn wave (.vfcmpNe false 0 1 (.lit 0x7FC00000) (.lit 0)) 1 = some (BitVec.allOnes 96) ∧
    kIn wave (.vfcmpLe false 0 1 (.lit 0x80000000) (.lit 0)) 1 = some (BitVec.allOnes 96) ∧
    kIn wave (.vfcmpGt false 0 1 (.lit 0x40000000) (.lit 0x3F800000)) 1 = some (BitVec.allOnes 96) ∧
    kIn wave (.vfcmpGe false 0 1 (.lit 0x7FC00000) (.lit 0)) 1 = some 0 ∧
    flagsIn wave (.vfcmpGe false 0 1 (.lit 0x7FC00000) (.lit 0)) = some 16 := by decide

/-! ### Control, traps and control registers -/

/-- Where an agent is after an instruction: in a run or not, its position, and what is pending. -/
def at? (ag : Agent) (i : Instr) : Option (Bool × DWord × Nat × Nat) :=
  (agentIn (exec i (with_ 0 ag)) 0).map (fun a => (a.run.inRun, a.run.pc, a.run.off, a.run.idx))
def pendIn (ag : Agent) (i : Instr) : Option Xfer := (agentIn (exec i (with_ 0 ag)) 0).map (fun a => a.run.pend)

/-- The last instruction of the last pass: the next run follows the eight instructions of two halfwords. -/
def atEnd : Agent := { wave with run := { runOf 8 2 with idx := 7, off := 14 } }

theorem test_run_advance :
    at? wave (.nop 0) = some (true, 0x1000, 2, 1) ∧ at? atEnd (.nop 0) = some (false, 0x1024, 0, 0) ∧
    at? { wave with run := { runOf 8 2 with idx := 7, off := 14, left := 2 } } (.nop 0) = some (true, 0x1000, 0, 0) ∧
    at? { wave with run := { runOf 8 1 with idx := 0 } } .nopCompact = some (true, 0x1000, 1, 1) := by decide

/-- b2 = 0x2000. -/
def targets : Agent := Machine.Agent.regs ({ atEnd with bt := [(2, 0x2000)] }) [(1, 1), (8, 0x3000)]

def early : Agent := { targets with run := runOf 8 2 }

theorem test_transfers :
    at? targets (.xfer 0 2 (.reg 1)) = some (false, 0x2000, 0, 0) ∧ at? targets (.xfer 0 2 (.reg 0)) = some (false, 0x1024, 0, 0) ∧
    at? targets (.xfern 0 2 (.reg 0)) = some (false, 0x2000, 0, 0) ∧ at? targets (.ret 0 2 (.lit 1)) = some (false, 0x2000, 0, 0) := by decide

theorem test_call :
    at? targets (.call 0 40 2 (.lit 1)) = some (false, 0x2000, 0, 0) ∧ pIn targets (.call 0 40 2 (.lit 1)) 40 = some 0x1024 ∧
    at? targets (.xferCompact 2 1) = some (false, 0x2000, 0, 0) ∧ at? targets (.xfernCompact 2 1) = some (false, 0x1024, 0, 0) := by decide

theorem test_transfer_waits : pendIn early (.xfer 0 2 (.reg 1)) = some (.jump 0x2000) := by decide

theorem test_prep :
    (agentIn (exec (.prep 0 3 (.reg 8)) (with_ 0 targets)) 0).map (fun a => a.btGet 3) = some 0x3000 ∧
    (agentIn (exec (.prep 0 3 (.lit 0xFFFFFFF0)) (with_ 0 wave)) 0).map (fun a => a.btGet 3) = some 0xFF4 := by decide

/-- SPLIT on k1 = lanes 0 to 2 at the end of a run: three lanes against 93, the larger part first (R294). -/
def parts : Agent := Machine.Agent.pred ({ atEnd with bt := [(2, 0x2000), (3, 0x4000)] }) 1 7

theorem test_split :
    (agentIn (exec (.split 1 2 3) (with_ 0 parts)) 0).map (fun a => (a.run.pc, a.beat, a.depth)) =
      some (0x1024, BitVec.allOnes 96 - 7, 1) ∧
    (agentIn (exec (.split 1 2 3) (with_ 0 parts)) 0).map (fun a => a.stk) =
      some [{ join := 0x4000, defer := 0x2000, dmask := 7, rmask := BitVec.allOnes 96, run2 := false }] := by
  decide

theorem test_join :
    (agentIn (exec .join (with_ 0 { atEnd with depth := 1, stk := [{ join := 0x4000, defer := 0x1024, dmask := 8 }] })) 0).map
      (fun a => (a.run.pc, a.beat, a.stk.length)) = some (0x1024, 8, 1) ∧
    (agentIn (exec .join (with_ 0 { atEnd with depth := 1, stk := [{ join := 0x4000, rmask := 15, run2 := true }] })) 0).map
      (fun a => (a.run.pc, a.beat, a.stk.length, a.depth)) = some (0x4000, 15, 0, 0) := by decide

theorem test_yield_and_halt :
    (agentIn (exec (.yield 0) (with_ 0 wave)) 0).map (fun a => a.yielded) = some true ∧
    (agentIn (exec (.halt 0) (with_ 0 wave)) 0).map (fun a => a.wait) = some .ending ∧
    (agentIn (exec (.halt 0) (with_ 8192 core)) 8192).map (fun a => a.live) = some false := by decide

/-- A page register that maps the first MiB at itself, readable, writable and executable. -/
def page : Xlat := { part := 0, tid := none, base := 0, size := 0x100000, pte := 0x3B }
def mapped (ag : Agent) : Agent := { ag with strm := { cur := some page } }

/-- A trap table at 0x8000 whose entries all name the handler at 0x9000 (R347). -/
def trapping (id : Nat) (ag : Agent) : State :=
  { with_ id ag with
    rot := { (with_ id ag).rot with trapTab := [(0, 0x8001)], rsTrap := 0x8001 }
    mem := (List.range 192).map (fun c => (0x8001 + 8 * c, 0x90)) }

/-- What a trap leaves: cause, tepc, tval and where the agent is. -/
def trapped (ag : Agent) (i : Instr) : Option (Word × DWord × DWord × DWord) :=
  (agentIn (exec i (trapping 0 (mapped ag))) 0).map (fun a => (a.tcause, a.tepc, a.tval, a.run.pc))

/-- The instruction after TRAP is at 0x1008; an illegal profile holds the instruction's own address and its word; JOIN with
an empty stack is condition 3 of cause 0x09 (R345, R350). -/
theorem test_trap :
    trapped wave (.trap 0 (.lit 77)) = some (0xA000000B, 0x1008, 77, 0x9000) ∧
    trapped wave (.wfi 0) = some (0xA0000003, 0x1004, 0, 0x9000) ∧
    trapped wave .join = some (0xA0000009, 0x1004, 3, 0x9000) := by decide

/-- The bank of s56 to s59 and b7 changes places (R348). -/
theorem test_trap_bank :
    (agentIn (exec (.trap 0 (.lit 77)) (trapping 0 (mapped (Machine.Agent.regs { wave with bankS := [(56, 5)], bankBt := 6 } [(56, 9)])))) 0).map
      (fun a => (a.sGet 56, Tab.get 0 a.bankS 56, a.btGet 7)) = some (5, 9, 6) := by decide

theorem test_eret :
    (agentIn (exec (.eret 0) (with_ 0 { atEnd with tcause := 0x8000000B, tepc := 0x5000 })) 0).map (fun a => (a.tcause, a.run.pc)) =
      some (0x0000000B, 0x5000) ∧
    trapped wave (.eret 0) = some (0xA0000001, 0x1004, 0, 0x9000) := by decide

theorem test_control_registers :
    sIn { wave with gw := 3, slot := 2, cu := 7 } (.csrr 0 5 8) 5 = some 0x0A072300 ∧
    sIn { wave with npdist := 77 } (.csrr 0 5 6) 5 = some 77 ∧
    (agentIn (exec (.csrw 0 0 (.lit 0xFFFFFFEC)) (with_ 0 wave)) 0).map (fun a => a.rmode) = some 0xC ∧
    (agentIn (exec (.csrw 0 0 (.lit 5)) (with_ 0 wave)) 0).map (fun a => a.rmode) = some 0 ∧
    (agentIn (exec (.csrw 0 2 (.lit 3)) (with_ 0 { wave with rstat := 0x1F })) 0).map (fun a => a.rstat) = some 0x1C ∧
    sIn wave (.capr 0 5 (.lit 15)) 5 = some 0 ∧ (got (exec (.ifence 0) (with_ 0 wave))).isSome = true := by decide

/-- A core: keys, ranges, policy images (R34, R51, R343, R344). -/
def onCore (i : Instr) (f : State → Bool) : Bool := (got (exec i (with_ 8192 core))).elim false f

theorem test_core_keys :
    onCore (.keyset 0 5 (.lit 0x10305)) (fun t => decide ((Tab.get {} t.ms.keys 5) = { st := 1, owner := 3, shared := true, key := 2 })) = true ∧
    onCore (.keykill 0 5 (.lit 0)) (fun t => decide ((t.agent? 8192).map (fun a => a.sGet 5) = some 1)) = true ∧
    onCore (.polsw 0 5 (.lit 0)) (fun t => decide ((t.agent? 8192).map (fun a => a.sGet 5) = some 1)) = true ∧
    onCore (.mapinv 0 (.reg 2) 4) (fun t => decide (t.ms.tlb = [])) = true ∧
    onCore (.harvest 0 (.reg 2) 4) (fun t => decide ((t.agent? 8192).map (fun a => a.run.idx) = some 1)) = true ∧
    onCore (.wfi 0) (fun t => decide ((t.agent? 8192).map (fun a => a.wait) = some (.wfi false t.ntime))) = true := by decide

/-! ### Witnesses: states and operands that meet the hypotheses of each obligation -/

theorem wave_moves : (with_ 0 wave).mover = some (0, wave) := by decide
theorem sequencer_moves : (with_ 4096 sequencer).mover = some (4096, sequencer) := by decide
theorem core_moves : (with_ 8192 core).mover = some (8192, core) := by decide
theorem wave_issues : wave.Issues 0 := ⟨fun _ => by decide, fun h => absurd rfl h⟩
theorem sequencer_issues : sequencer.Issues 0 := ⟨fun h => (nomatch h), fun _ => rfl⟩
theorem core_issues : core.Issues 0 := ⟨fun h => (nomatch h), fun _ => rfl⟩

theorem witness_ScalarRegisters :
    (wave.sSet 59 5).sGet 59 = 5 ∧ (wave.sSet 59 5).sGet 1 = 0 ∧ (wave.sSet 1 5).sGet 1 = 5 ∧ (wave.sSet 62 5).sGet 62 = 5 ∧
    (wave.pSet 2 0x700000005).sGet 2 = 5 ∧ (wave.pSet 60 0x700000005).sGet 61 = 7 ∧ (wave.sSet 2 5).pGet 1 = 0x500000000 := by decide
theorem witness_ScalarArithmetic : (with_ 0 wave).mover = some (0, wave) ∧ wave.Issues 0 := ⟨wave_moves, wave_issues⟩
/-- Both clauses: a divisor of 0 and one that is not. -/
theorem witness_ScalarDivision : (with_ 0 wave).mover = some (0, wave) ∧ wave.Issues 0 ∧ wave.src (.lit 0) = 0 ∧
    wave.src (.lit 1) ≠ 0 := ⟨wave_moves, wave_issues, by decide, by decide⟩
theorem witness_ScalarCompare : (with_ 0 wave).mover = some (0, wave) ∧ wave.Issues 0 := ⟨wave_moves, wave_issues⟩
/-- Counts 63 and 64. -/
theorem witness_PairArithmetic : (with_ 0 wave).mover = some (0, wave) ∧ wave.Issues 0 ∧ (wave.src (.lit 63)).toNat < 64 ∧
    ¬ (wave.src (.lit 64)).toNat < 64 := ⟨wave_moves, wave_issues, by decide, by decide⟩
theorem witness_CompactForms : (with_ 0 wave).mover = some (0, wave) := wave_moves
/-- Counts 31 and 32. -/
theorem witness_ScalarShiftsAndFields : (with_ 0 wave).mover = some (0, wave) ∧ wave.Issues 0 ∧ (wave.src (.lit 31)).toNat < 32 ∧
    ¬ (wave.src (.lit 32)).toNat < 32 := ⟨wave_moves, wave_issues, by decide, by decide⟩
theorem witness_VectorInteger : (with_ 0 wave).mover = some (0, wave) ∧ wave.profile = .wave := ⟨wave_moves, rfl⟩
theorem witness_VectorAccumulate : (with_ 0 wave).mover = some (0, wave) ∧ wave.profile = .wave := ⟨wave_moves, rfl⟩
/-- A guard that fires, and the mask 2 of the lanes where v1 = 2. -/
theorem witness_VectorCompareAndPredicates : (with_ 0 lanes4).mover = some (0, lanes4) ∧ lanes4.profile = .wave ∧
    lanes4.fires 0 = true ∧ ∀ l, l < 96 → ((2 : Mask).getLsbD l = true ↔ lanes4.vsrc (.reg 1) l = 2) := by decide
theorem witness_PackingAndLaneNetwork : (with_ 0 wave).mover = some (0, wave) ∧ wave.profile = .wave := ⟨wave_moves, rfl⟩
/-- Finite operands, both infinities, an infinity with a zero, and a signalling NaN. -/
theorem witness_FloatArithmetic : (with_ 0 wave).mover = some (0, wave) ∧ wave.profile = .wave ∧
    (Fmt.fp32.decode 0x3F800000).isNan = false ∧ (Fmt.fp32.decode 0x3F800000).isInf = false ∧
    (Fmt.fp32.decode 0x7F800000).isInf = true ∧ (Fmt.fp32.decode 0x7F800000).neg ≠ (Fmt.fp32.decode 0xFF800000).neg ∧
    (Fmt.fp32.decode 0x80000000).isZero = true ∧ (Fmt.fp32.decode 0x7F800001).isSig = true ∧
    (Fmt.fp64.decode 0x7FF0000000000000).isInf = true := by decide
/-- A pair of R182 for each kind; the scales 255 and 0. -/
theorem witness_Conversions : (with_ 0 wave).mover = some (0, wave) ∧ wave.profile = .wave ∧
    (cvtPairs[0]?).isSome = true ∧ (cvtPairs[30]?).isSome = true ∧
    (wave.vsrc (.lit 0xFF) 0).toNat / 256 ^ (0 / 32) % 256 = 255 ∧ (wave.vsrc (.lit 0xFF) 32).toNat / 256 ^ (32 / 32) % 256 = 0 := by
  decide
/-- An image of 3,088 bytes that ends at the scratchpad's end, one that starts 16 bytes later, one that is not aligned. -/
theorem witness_SpecialFunctions : (with_ 0 wave).mover = some (0, wave) ∧ wave.profile = .wave ∧ wave.fires 0 = true ∧
    (wave.src (.lit 521200)).toNat % 16 = 0 ∧ (wave.src (.lit 521200)).toNat + 3088 = spadSize wave.unit ∧
    (with_ 0 wave).enginePlot wave.unit 521200 3088 = none ∧ wave.barred = false ∧
    spadSize wave.unit < (wave.src (.lit 521216)).toNat + 3088 ∧ (wave.src (.lit 8)).toNat % 16 ≠ 0 := by decide

/-- Every clause: the next iteration, the next instruction, the next pass, the next run, a jump, a SPLIT, a JOIN. -/
theorem witness_RunAdvance :
    (let r : Run := { runOf 8 2 with rep := some { cnt := 2, i := 0, stepd := 0, stepa := 0, stepb := 0 } }
     r.rep = some { cnt := 2, i := 0, stepd := 0, stepa := 0, stepb := 0 } ∧ 0 + 1 < 2) ∧
    ((runOf 8 2).rep = none ∧ (runOf 8 2).idx + 1 < (runOf 8 2).cnt) ∧
    (atEnd.run.rep = none ∧ atEnd.run.cnt ≤ atEnd.run.idx + 1 ∧ atEnd.run.pend = .none ∧ atEnd.run.left ≤ 1) ∧
    (let r : Run := { atEnd.run with left := 2 }
     r.cnt ≤ r.idx + 1 ∧ 1 < r.left) ∧
    wave.depth < 16 := by decide

/-- A wave before a run of one NOP at 0x1000, in memory as two halfwords; a run of none and one of 25. -/
def atHeader : Agent := mapped { wave with run := { pc := 0x1000 } }
def header (neg : BitVec 3) (rep cnt : BitVec 6) (code : List Byte) : State :=
  { with_ 0 atHeader with
    mem := ([(0x1000, 1), (0x1001, BitVec.ofNat 8 (2 * cnt.toNat + rep.toNat % 2 * 128)),
             (0x1002, BitVec.ofNat 8 (rep.toNat / 2 + neg.toNat * 32))] ++ code.zipIdx.map (fun (b : Byte × Nat) => (0x1004 + b.2, b.1))).filter
               (fun (e : Nat × Byte) => e.2 != 0) }

theorem witness_RunHeader :
    (header 0 0 1 [0x4E, 0x79]).mover = some (0, atHeader) ∧ atHeader.run.inRun = false ∧
    (let got := (header 0 0 1 [0x4E, 0x79]).fetchCode atHeader (atHeader.run.pc + 4) 144
     let code := got.map (fun h => h.half)
     let lay := runLayout 1 code 0 []
     lay.2 ≤ code.length ∧ runBad (code.take lay.2) lay.1 = false ∧ lay.2 = 1) := by decide

/-- A header whose run lies past the end of what its agent's page covers, and its agent has no right to run code there. -/
def noExec : Agent := { wave with run := { pc := 0x1000 }, strm := { cur := some { page with pte := 0x1B } } }
theorem witness_RunHeader_stops :
    (runLayout 1 [] 0 []).2 = 1 ∧ (with_ 0 noExec).mover = some (0, noExec) ∧ (with_ 0 noExec).fetchCode noExec (noExec.run.pc + 4) 144 = [] ∧
    (with_ 0 noExec).target noExec .fetch (.flat (noExec.run.pc + 4)) = .protect ∧
    (let code := ((header 0 0 1 [1, 0, 0, 0]).fetchCode atHeader (atHeader.run.pc + 4) 144).map (fun h => h.half)
     let lay := runLayout 1 code 0 []
     lay.2 ≤ code.length ∧ runBad (code.take lay.2) lay.1 = true) := by decide

/-- REP before an ADD with a count of two; before a compact form. -/
def repeating (h0 h1 : Half) : Agent := { wave with run := { runOf 8 2 with code := [0, 0, h0, h1] } }
theorem witness_RepeatPrefix :
    (with_ 0 (repeating 0xDB05 0x02CD)).mover = some (0, repeating 0xDB05 0x02CD) ∧
    (repeating 0xDB05 0x02CD).run.inRun = true ∧ (repeating 0xDB05 0x02CD).run.rep = none ∧
    (repeating 0xDB05 0x02CD).run.code[2]? = some 0xDB05 ∧ (repeating 0xDB05 0x02CD).run.code[3]? = some 0x02CD ∧
    (0xDB05 : Half).getLsbD 0 = true ∧
    repOk ((0x02CD : Half) ++ (0xDB05 : Half)) { cnt := 2, i := 0, stepd := 1, stepa := 0, stepb := 0 } = true ∧
    (0x794E : Half).getLsbD 0 = false ∧
    (agentIn (exec (.rep 0 0 1 1) (with_ 0 (repeating 0xDB05 0x02CD))) 0).map (fun a => (a.run.off, a.run.idx, a.run.rep)) =
      some (2, 1, some { cnt := 2, i := 0, stepd := 1, stepa := 0, stepb := 0 }) := by decide

theorem witness_Transfers : (with_ 0 wave).mover = some (0, wave) ∧ wave.Issues 0 ∧ wave.profile = .wave ∧ wave.depth < 16 ∧
    wave.stk = [] ∧ (with_ 8192 core).mover = some (8192, core) ∧ core.Issues 0 ∧ core.profile = .host :=
  ⟨wave_moves, wave_issues, rfl, by decide, rfl, core_moves, core_issues, rfl⟩

/-- Predicate k2 has lane 1; k4 has none. -/
theorem witness_Votes : (with_ 0 lanes4).mover = some (0, lanes4) ∧ lanes4.profile = .wave ∧ lanes4.fires 1 = true ∧
    (∀ l, l < 96 → (2 : Mask).getLsbD l = ((lanes4.active 1).getLsbD l && (lanes4.kGet 2).getLsbD l)) ∧
    (∀ l, l < 96 → (0 : Mask).getLsbD l = ((lanes4.active 1).getLsbD l && (lanes4.kGet 4).getLsbD l)) := by decide

/-- Two waves of one group: the first has lanes 0 to 2, the second waits in REGROUP with lanes 0 and 1 for v8 to v10. -/
def first : Agent := { Machine.Agent.regs wave [(60, 7), (61, 0), (62, 0)] with gw := 0 }
def second : Agent :=
  Machine.Agent.vreg { Machine.Agent.regs wave [(60, 3), (61, 0), (62, 0)] with gw := 1, slot := 1, wait := .regroup 0x1004 0 0x00000A08 } 8 [11, 12]
def both (a b : Agent) : State := { with_ 0 a with agents := [(0, a), (1, b)] }

theorem witness_Regroup :
    (both first second).mover = some (0, first) ∧ first.profile = .wave ∧ first.wait = .none ∧ first.stk = [] ∧
    (both first second).sfuBusy 0 first = false ∧ first.h = [] ∧ (both first second).allPerformed 0 first = true ∧
    (both first second).waveOf first.unit 0 = some (0, first) ∧ (both first second).waveOf first.unit 2 = none ∧
    (both first second).waveOf first.unit 1 = some (1, second) ∧ first.run.here = 0x1004 ∧
    maskCount first.beat + maskCount second.beat ≤ 96 ∧ first.gw.toNat < second.gw.toNat := by decide

/-- Fusing gives lanes 0 to 4; lanes 3 and 4 hold the partner's values; the statuses 2 and 0. -/
theorem test_regroup :
    (agentIn (exec (.regroup 5 (.lit 1) (.lit 0x00000A08)) (both first second)) 0).map
      (fun a => (a.beat, a.sGet 5, a.vGet 8 3, a.vGet 8 4)) = some (0x1F, 1, 11, 12) ∧
    (got (exec (.regroup 5 (.lit 1) (.lit 0x00000A08)) (both first second))).map (fun t => t.agents.length) = some 1 ∧
    (agentIn (exec (.regroup 5 (.lit 1) (.lit 0x00000A09)) (both first second)) 0).map (fun a => a.sGet 5) = some 2 ∧
    (agentIn (exec (.regroup 5 (.lit 9) (.lit 0)) (both first second)) 0).map (fun a => a.sGet 5) = some 0 := by decide

theorem witness_TrapEntry :
    wave.tcause.getLsbD 31 = false ∧ (trapping 0 (mapped wave)).sfuBusy 0 (mapped wave) = false ∧
    (trapping 0 (mapped wave)).handler (mapped wave) 0 = some 0x9000 ∧ (trapping 0 (mapped wave)).handler (mapped wave) 0x22 = some 0x9000 ∧
    ({ wave with tcause := 0x80000000 } : Agent).tcause.getLsbD 31 = true ∧ wave.run.inRun = true := by decide

/-- A partition whose trap table's address is homed on package 3, and one with no trap table. -/
def farTable : State := { with_ 0 wave with rot := { (with_ 0 wave).rot with trapTab := [(0, 0x0080600000008001)] } }
def repeatedWave : Agent := { wave with run := { runOf 8 2 with rep := some { cnt := 2, i := 1, stepd := 0, stepa := 0, stepb := 0 } } }
theorem witness_TrapEntry_none :
    (with_ 0 wave).handler wave 0 = none ∧ (with_ 0 wave).trapFar wave 0 = false ∧ (with_ 0 wave).sfuBusy 0 wave = false ∧
    farTable.handler wave 0 = none ∧ farTable.trapFar wave 0 = true ∧ repeatedWave.run.inRun = true ∧
    repeatedWave.run.rep = some { cnt := 2, i := 1, stepd := 0, stepa := 0, stepb := 0 } := by decide

theorem witness_TrapAndReturn :
    (with_ 0 wave).mover = some (0, wave) ∧ wave.Issues 0 ∧ ((retire (with_ 0 wave) 0 wave).agent? 0).isSome = true ∧
    wave.tcause.getLsbD 31 = false ∧ ({ wave with tcause := 0x80000000 } : Agent).tcause.getLsbD 31 = true ∧
    atEnd.run.rep = none ∧ atEnd.run.cnt ≤ atEnd.run.idx + 1 := ⟨wave_moves, wave_issues, by decide, by decide, by decide, by decide, by decide⟩

theorem witness_ControlRegisterReads :
    (with_ 0 wave).mover = some (0, wave) ∧ wave.Issues 0 ∧ wave.profile ≠ .host ∧ (with_ 0 wave).sfuBusy 0 wave = false ∧
    core.profile = .host ∧ (with_ 8192 core).plat.hostQ = [] ∧ (with_ 0 wave).releaseReady 0 wave 3 (wave.nextTag + 1) = true :=
  ⟨wave_moves, wave_issues, by decide, by decide, rfl, rfl, by decide⟩

theorem witness_ControlRegisterWrites :
    (with_ 0 wave).mover = some (0, wave) ∧ wave.Issues 0 ∧ wave.profile = .wave ∧ wave.rmode.getLsbD 4 = false ∧
    ({ wave with rmode := 16 } : Agent).rmode.getLsbD 4 = true ∧ (with_ 0 wave).sfuBusy 0 wave = false :=
  ⟨wave_moves, wave_issues, rfl, by decide, by decide, by decide⟩

/-- Key slots 5 (empty) and 0 (loaded), a loaded slot 5, an image of one halfword, a policy with a shadow image. -/
def keyed5 : State := { with_ 8192 core with ms := { State.reset.ms with keys := [(0, { st := 1, key := 1 }), (5, { st := 1, key := 2 })] } }
def withShadow : State := { with_ 8192 core with hub := { State.reset.hub with pol := [(0, { shadow := [0xF200] })] } }
theorem witness_HostSystem :
    (with_ 8192 core).mover = some (8192, core) ∧ core.profile = .host ∧
    (Tab.get {} (with_ 8192 core).ms.keys 5).st = 0 ∧ (Tab.get {} (with_ 8192 core).ms.keys 0).st ≠ 0 ∧
    (Tab.get {} keyed5.ms.keys 5).st = 1 ∧ (with_ 8192 core).mapQuiet 0 (Machine.mapRange 0 0 0).2 = true ∧
    flatOk (core.srcP (.lit 0x2000)) = true ∧ (core.srcP (.lit 0x2000)).getLsbD 0 = false ∧
    (core.src (.lit 0x10000)).toNat / 65536 % 1024 = 1 ∧
    ((with_ 8192 core).readImage core (core.srcP (.lit 0x2000)) 1 [] matches .ok _) = true ∧
    (withShadow.pol 0).shadow ≠ [] ∧ (withShadow.pol 0).dec = none ∧ ((with_ 8192 core).pol 0).shadow = [] := by decide

/-- Frames 2 and 3 with no record, a read and a write. -/
def framed (a b : BitVec 2) : State := { with_ 8192 core with ms := { State.reset.ms with frames := [(2, a), (3, b)] } }
theorem witness_HostSystem_waits :
    pteBase 0x201A / 4096 = 2 ∧ (framed 0 0).ms.frames.all (fun x => x.2 == 0) = true ∧
    (framed 1 0).ms.frames.any (fun x => decide (2 ≤ x.1 ∧ x.1 < 2 + (4096 + 4095) / 4096) && x.2 != 0) = true ∧
    (framed 1 0).ms.frames.all (fun x => x.2.getLsbD 1 == false) = true ∧
    (framed 2 1).ms.frames.any (fun x => decide (2 ≤ x.1 ∧ x.1 < 2 + (4096 + 4095) / 4096) && x.2.getLsbD 1) = true ∧
    ({ core with wait := .keykill 5 } : Agent).wait = .keykill 5 ∧ core.wait = .none := by decide

/-- An agent in its run, an agent before a run, a decision, an event of the environment. -/
theorem witness_StepRunsDecoded :
    (with_ 0 early).sched = [] ∧ (with_ 0 early).stalled = false ∧ ((with_ 0 early).free + 1) % 64 ≠ 0 ∧
    (with_ 0 early).cur = .agent 0 ∧ (with_ 0 early).agent? 0 = some early ∧ (with_ 0 early).canMove 0 early = true ∧
    early.trapDue = false ∧ decode ([0x000B, 0x4000] : List Half) = .ok (.halt 0) ∧
    ((header 0 0 1 [0x4E, 0x79]).fetchHalf atHeader 0x1000).map (fun h => (h.pa, h.half)) = some (0x1000, 0x0201) ∧ atHeader.yielded = false ∧
    encode (.timeSync 3) = [] := by decide

/-- One instruction after another. -/
def thenDo (o : Out) (i : Instr) : Out := match o with
  | .next t => exec i t
  | x => x

/-- A question about the next state; false where there is none. -/
def holds (o : Out) (f : State → Bool) : Bool := (got o).elim false f

theorem witness_DecodeEncode : (Instr.add 0 1 (.reg 2) (.lit 3)).wf = true ∧ encode (.add 0 1 (.reg 2) (.lit 3)) ≠ [] ∧
    decode (encode (.add 0 1 (.reg 2) (.lit 3)) ++ [7]) = .ok (.add 0 1 (.reg 2) (.lit 3)) ∧ decPol 0 = .ok (.polLdi 0 0) := by decide

theorem witness_StepKeepsMemory : Memory.wf (trapping 0 (mapped wave)).mem = true ∧
    (got (exec (.nop 0) (trapping 0 (mapped wave)))).isSome = true := by decide

/-- A guard that fires, one that does not (k1 is empty), and an instruction that goes on. -/
theorem witness_FrameScalar : (with_ 0 wave).mover = some (0, wave) ∧ wave.Issues 0 ∧ wave.fires 1 = false ∧
    (Instr.add64 0 2 (.reg 4) (.reg 6)).scalarDest = some (0, 2, 2) ∧ (Instr.add64 1 2 (.reg 4) (.reg 6)).scalarDest = some (1, 2, 2) ∧
    (got (exec (.add64 0 2 (.reg 4) (.reg 6)) (with_ 0 wave))).isSome = true ∧ wave.run.pend = .none :=
  ⟨wave_moves, wave_issues, by decide, by decide, by decide, by decide, rfl⟩

theorem witness_FrameVector : (with_ 0 lanes4).mover = some (0, lanes4) ∧ lanes4.profile = .wave ∧
    (Instr.upk6 2 4 (1)).wf = true ∧ (Instr.upk6 2 4 1).vectorDest = some (2, 4, 4) ∧
    (got (exec (.upk6 2 4 1) (with_ 0 lanes4))).isSome = true ∧ lanes4.run.pend = .none := by decide

theorem witness_ProfilesAndGuards : (with_ 8192 core).mover = some (8192, core) ∧ core.profile ≠ .wave ∧
    (Instr.add 1 2 (.reg 4) (.reg 6)).scalarDest = some (1, 2, 1) ∧ (Instr.vadd 0 2 (.reg 4) (.reg 6)).vectorDest = some (0, 2, 1) ∧
    (with_ 0 wave).mover = some (0, wave) ∧ wave.profile = .wave := by decide

/-- Memory at 0x2000: 0x80, 0x81, 0x82, 0x83; a wave whose page register maps it; v1 holds 4 times the lane's number in
lanes 0 and 1. -/
def reader : Agent := mapped (Machine.Agent.pred (Machine.Agent.vreg (Machine.Agent.regs wave [(2, 0x2000), (6, 0x2002), (7, 5)]) 1 [0, 4]) 1 3)
def filled (ag : Agent) : State := { with_ 0 ag with mem := [(0x2000, 0x80), (0x2001, 0x81), (0x2002, 0x82), (0x2003, 0x83)] }

/-- A page at which nothing stands, and one that may only be fetched from. -/
def farPage : Xlat := { page with pte := 0x800000000003B }
def fewer : Agent := { reader with strm := { cur := some farPage } }
def fetcher : Agent := { reader with strm := { cur := some { page with pte := 0x22 } } }

/-- A page that answers, one behind which nothing stands, a misaligned address, one that no entry maps, one of package 1, one
that may not be read. -/
theorem witness_FlatLoads :
    (filled reader).mover = some (0, reader) ∧ reader.profile ≠ .sequencer ∧ reader.fires 0 = true ∧
    (BitVec.ofInt 64 ((reader.srcP (.reg 2)).toNat + (reader.src (.reg 0)).toInt * 2 ^ 0)).toNat = 0x2000 ∧
    (filled reader).target reader .read (.flat 0x2000) = .mem (page.flatPa 0x2000) page ∧
    (filled reader).replaying reader.part (.flat 0x2000) = false ∧ (filled reader).answers reader page (page.flatPa 0x2000) = true ∧
    (filled fewer).target fewer .read (.flat 0x2000) = .mem (0x2000 + 2 ^ 51) farPage ∧
    (filled fewer).answers fewer farPage (farPage.flatPa 0x2000) = false ∧ reader.Issues 0 ∧
    0x2001 % 4 ≠ 0 ∧ (filled reader).isRemote reader 0x00804000_00000000 = true ∧
    (filled fetcher).target fetcher .read (.flat 0x2000) = .protect ∧
    (filled reader).target reader .read (.flat 0x200000) = .absent ∧ (filled reader).replaying reader.part (.flat 0x200000) = false :=
  ⟨by decide, by decide, by decide, by decide, by decide, by decide, by decide, by decide, by decide,
    ⟨fun _ => by decide, fun h => absurd rfl h⟩, by decide, by decide, by decide, by decide, by decide⟩

/-- The lanes of LD are lanes 0 and 1 under k1, at 0x2000 and 0x2004, and answer. -/
theorem witness_FlatLoads_lanes :
    (let ls := (lanesOf (reader.active 1)).map (fun l =>
        let ea := BitVec.ofInt 64 ((reader.srcP (.reg 2)).toNat + (reader.vsrc (.reg 1) l).toInt * 2 ^ 0)
        ({ l := l, va := ea, key := .flat ea, n := 4, dst := .v 5 l, sx := 4, data := (reader.vGet 5 l).zeroExtend 64 } : Lane))
     let r := (filled reader).targets .read reader ls
     ls.map (fun x => x.va) = [0x2000, 0x2004] ∧ (∀ x ∈ ls, x.va.toNat < 2 ^ 56 ∧ x.va.toNat % x.n = 0) ∧
     r.2.all (fun p => !(filled reader).replaying r.1.part p.1.key &&
       (match p.2 with
        | .mem pa x => (filled reader).answers r.1 x pa
        | .remote _ => true
        | _ => false)) = true) := by decide

/-- The value a load of size `z` gives: sign and zero extension (R128). -/
noncomputable def loaded (i : Instr) (r : Nat) : Option DWord :=
  (agentIn (thenDo (exec i (filled reader)) (.loadPerform 0 0 0 .clean)) 0).map (fun a => a.pGet r)

theorem test_loads :
    loaded (.sld 0 0 0 4 (.reg 2) (.reg 0)) 4 = some 0xFFFFFF80 ∧ loaded (.sld 1 0 0 4 (.reg 2) (.reg 0)) 4 = some 0x80 ∧
    loaded (.sld 2 0 0 4 (.reg 2) (.lit 2)) 4 = some 0xFFFF8382 ∧ loaded (.sld 3 1 0 4 (.reg 2) (.lit 1)) 4 = some 0x8382 ∧
    loaded (.sld 4 0 0 4 (.reg 2) (.reg 0)) 4 = some 0x83828180 ∧ loaded (.sld 5 3 0 4 (.reg 2) (.reg 0)) 4 = some 0x83828180 := by
  decide
theorem test_load_acquire :
    (agentIn (thenDo (exec (.ldacq 3 0 0 4 (.reg 2) (.reg 0)) (filled reader)) (.loadPerform 0 0 0 .clean)) 0).map
      (fun a => (a.sGet 4, a.opens.length)) = some (0x83828180, 0) := by decide
theorem test_load_lanes :
    (agentIn (thenDo (exec (.ld 4 0 1 5 (.reg 2) (.reg 1)) (filled reader)) (.loadPerform 0 0 0 .clean)) 0).map
      (fun a => (a.vGet 5 0, a.opens.map (fun o => o.dst))) = some (0x83828180, [.v 5 1]) ∧
    trapped (Machine.Agent.regs wave [(2, 0x2001)]) (.sld 4 0 0 4 (.reg 2) (.reg 0)) = some (0xA0000005, 0x1004, 0x2001, 0x9000) := by decide

theorem witness_FlatStores :
    (filled reader).mover = some (0, reader) ∧ reader.profile ≠ .sequencer ∧ reader.fires 0 = true ∧
    (filled reader).target reader .write (.flat 0x2000) = .mem (page.flatPa 0x2000) page ∧
    0x2002 % 4 ≠ 0 ∧ (filled reader).target reader .write (.flat 0x200000) = .absent ∧
    ((filled reader).unit reader.unit).slog.length + 1 ≤ 128 ∧ ((filled reader).unit reader.unit).slogQ = [] := by decide
theorem witness_FlatStores_lanes :
    (let ls := (lanesOf (reader.active 1)).map (fun l =>
        let ea := BitVec.ofInt 64 ((reader.srcP (.reg 2)).toNat + (reader.vsrc (.reg 1) l).toInt * 2 ^ 0)
        ({ l := l, va := ea, key := .flat ea, n := 4, dst := .v 5 l, sx := 4, data := (reader.vGet 5 l).zeroExtend 64 } : Lane))
     (∀ x ∈ ls, x.va.toNat < 2 ^ 56 ∧ x.va.toNat % x.n = 0) ∧
     ((filled reader).targets .write reader ls).2.all (fun p => match p.2 with
        | .mem _ _ => true
        | _ => false) = true) := by decide

/-- A store by its level: pending, the inner copies of the unit and of its cluster, the package store (R219, R222). -/
def stored (l : List Instr) : Option (List PWrite × List Byte) :=
  (got (l.foldl thenDo (.next (filled reader)))).bind (fun t => (t.agent? 0).map (fun a =>
    (a.pend.map (fun w => { w with va := 0 }), (List.range 4).map (fun i => t.pkRead 0 (0x2000 + i)))))

theorem test_store :
    stored [.sst 2 0 0 7 (.reg 2) (.lit 2), .storePerform 0 0] =
      some ([{ loc := .mem 0x2002 false 0, bytes := [5, 0], tag := 1, seq := 1 }], [0x80, 0x81, 0x82, 0x83]) ∧
    stored [.sst 2 0 0 7 (.reg 2) (.lit 2), .storePerform 0 0, .writePropagate 0 0, .writePropagate 0 0, .writePropagate 0 0] =
      some ([], [0x80, 0x81, 5, 0]) ∧
    (stored [.st 4 0 1 1 (.reg 2) (.reg 1), .storePerform 0 0]).map (fun r => r.1.length) = some 1 ∧
    (stored [.strel 1 0 0 7 (.reg 2) (.reg 0), .storePerform 0 0]).map (fun r => r.1.map (fun w => w.bytes)) = some [[5, 0, 0, 0]] := by
  decide

/-- A wave with k1 on lanes 0 and 1, scratchpad addresses 0 and 4 in v1; the scratchpad's first bytes are 0x80 and 1; one
address past the end, one misaligned in lane 1. -/
def inPad : State := { with_ 0 reader with mem := [(spadBase 0, 0x80), (spadBase 0 + 4, 1)] }
theorem witness_ScratchpadAccesses :
    inPad.mover = some (0, reader) ∧ reader.profile = .wave ∧ reader.wait = .none ∧ reader.barred = false ∧
    (∀ l, l < 96 → (reader.active 1).getLsbD l = true →
      (reader.src (.reg 0) + BitVec.ofInt 32 ((reader.vsrc (.reg 1) l).toInt * 2 ^ 0)).toNat + 4 ≤ spadSize reader.unit ∧
      (reader.src (.reg 0) + BitVec.ofInt 32 ((reader.vsrc (.reg 1) l).toInt * 2 ^ 0)).toNat % 4 = 0 ∧
      inPad.enginePlot reader.unit (reader.src (.reg 0) + BitVec.ofInt 32 ((reader.vsrc (.reg 1) l).toInt * 2 ^ 0)).toNat 4 = none ∧
      (inPad.unit reader.unit).overTag (reader.src (.reg 0) + BitVec.ofInt 32 ((reader.vsrc (.reg 1) l).toInt * 2 ^ 0)).toNat 4 = false) ∧
    (reader.src (.lit 2) + BitVec.ofInt 32 ((reader.vsrc (.reg 1) 0).toInt * 2 ^ 0)).toNat % 4 ≠ 0 := by decide

theorem test_scratchpad :
    (agentIn (exec (.ldsp 0 0 1 5 (.reg 0) (.reg 1)) inPad) 0).map (fun a => (a.vGet 5 0, a.vGet 5 1, a.vGet 5 2)) =
      some (0xFFFFFF80, 1, 0) ∧
    (got (exec (.stsp 4 0 1 1 (.lit 8) (.reg 1)) inPad)).map (fun t => t.mem) =
      some [(spadBase 0, 0x80), (spadBase 0 + 4, 1), (spadBase 0 + 12, 4)] ∧
    trapIn (exec (.stsp 4 0 1 1 (.lit 2) (.reg 1)) { inPad with rot := { inPad.rot with trapTab := [(0, 0x8001)] }, mem := (trapping 0 reader).mem }) 0 =
      some (5, 2) := by decide

/-- Tensor 0: one dimension of 16,384 32-bit elements in one tile of 64 KiB at 0x20000; its record at 0x4000, its tile table
at 0x6000 (R52, R53, R55). d5 names it; v8 holds coordinates 0 and 3; element 3 holds 9. -/
def tensors : Agent := { Machine.Agent.pred (Machine.Agent.vreg wave 8 [0, 3]) 1 3 with d := [(5, 0x80000000)] }
def withTensor_ : State :=
  { with_ 0 tensors with
    rot := { State.reset.rot with ttCtl := [(0, 0x4020)] }
    mem := [(0x4000, 1), (0x4001, 4), (0x4002, 1), (0x4009, 0x60), (0x4011, 0x40)] ++
      (List.range 9).map (fun i => (0x4014 + 4 * i, 1)) ++ [(0x4038, 14), (0x6000, 0x1A), (0x6002, 2), (0x2000C, 9)] }
theorem witness_ScratchpadAccesses_tensor :
    withTensor_.mover = some (0, tensors) ∧ tensors.profile = .wave ∧
    (∃ ls, withTensor_.tensorLanes tensors 4 1 6 5 8 = some ls ∧ (∀ x ∈ ls, x.bad = false) ∧
      (let r := ({ withTensor_ with free := withTensor_.free + 96 } : State).targets .read tensors ls
       r.2.all (fun p => match p.2 with
        | .mem pa x => withTensor_.answers r.1 x pa && !withTensor_.replaying r.1.part p.1.key
        | _ => false) = true)) := ⟨by decide, by decide, _, rfl, by decide, by decide⟩
theorem test_tensor :
    (agentIn (thenDo (thenDo (exec (.tld 4 1 6 5 8) withTensor_) (.loadPerform 0 0 0 .clean)) (.loadPerform 0 0 0 .clean)) 0).map
      (fun a => (a.vGet 6 0, a.vGet 6 1, a.vGet 6 2)) = some (0, 9, 0) ∧
    (agentIn (exec (.tst 4 1 8 5 8) withTensor_) 0).map (fun a => a.opens.map (fun o => o.loc)) =
      some [.mem 0x20000 false 0, .mem 0x2000C false 0] := by decide

/-- A core with physical addressing; its word at 0x2000 holds 0x83828180. -/
def onHost : State := { with_ 8192 core with mem := [(0x2000, 0x80), (0x2001, 0x81), (0x2002, 0x82), (0x2003, 0x83)] }
theorem witness_Atomics :
    onHost.mover = some (8192, core) ∧ core.profile = .host ∧
    onHost.target core .readWrite (.flat 0x2000) = .mem ((Xlat.identity 0).flatPa 0x2000) (Xlat.identity 0) ∧ onHost.replaying core.part (.flat 0x2000) = false ∧
    onHost.answers core (Xlat.identity 0) ((Xlat.identity 0).flatPa 0x2000) = true ∧ 0x2000 % 8 = 0 := by decide
def spadPair : Agent := Machine.Agent.pred (Machine.Agent.vreg (Machine.Agent.vreg wave 8 [0, 4]) 9 [0x80000000, 0x80000000]) 1 3
theorem witness_Atomics_scratchpad :
    (with_ 0 spadPair).mover = some (0, spadPair) ∧ spadPair.profile = .wave ∧ spadPair.fires 1 = true ∧ spadPair.barred = false ∧
    (∀ l, l < 96 → (spadPair.active 1).getLsbD l = true → (spadPair.vsrcP (.reg 8) l).toNat / 2 ^ 32 = 2 ^ 31 ∧
      (with_ 0 spadPair).tagBad spadPair (spadPair.vsrcP (.reg 8) l) 4 = false) ∧
    (with_ 0 spadPair).spTrap spadPair true ((lanesOf (spadPair.active 1)).map (fun l =>
      { l := l, a := (spadPair.vsrcP (.reg 8) l).toNat % 2 ^ 32, n := 4, dst := .v 5 l, sx := 4, data := 7 })) = none := by decide

/-- One lane's atomic of memory through the mapped page, at 0x2000. -/
def atomLane : Agent := Machine.Agent.pred (Machine.Agent.vreg (Machine.Agent.vreg reader 8 [0x2000]) 9 [0]) 1 1
theorem witness_Atomics_flat :
    (filled atomLane).mover = some (0, atomLane) ∧ atomLane.profile = .wave ∧ atomLane.fires 1 = true ∧
    (let ls : List Lane := (lanesOf (atomLane.active 1)).map (fun l =>
       { l := l, va := atomLane.vsrcP (.reg 8) l, key := .flat (atomLane.vsrcP (.reg 8) l), n := 4, dst := .v 5 l, sx := 4, data := 7 })
     ls.length = 1 ∧ (∀ x ∈ ls, x.va.toNat < 2 ^ 56 ∧ x.va.toNat % x.n = 0) ∧
     (let r := (filled atomLane).targets .readWrite atomLane ls
      ∀ p ∈ r.2, (filled atomLane).replaying r.1.part p.1.key = false ∧ (match p.2 with
        | .mem pa x => (filled atomLane).answers r.1 x pa
        | _ => false) = true)) := by decide

/-- What an atomic leaves in the word and in the register: old 0x83828180, operand 5. -/
noncomputable def atomic (i : Instr) : Option (Nat × Word) :=
  (got (thenDo (exec i onHost) (.atomicPerform 8192 0 .clean))).bind (fun t => (t.agent? 8192).map (fun a =>
    (leVal ((List.range 4).map (fun i => t.pkRead 0 (0x2000 + i))), a.sGet 4)))
theorem test_atomics_1 :
    atomic (.aadd 4 false 0 4 (.lit 0x2000) (.lit 5)) = some (0x83828185, 0x83828180) ∧
    atomic (.asub 4 false 0 4 (.lit 0x2000) (.lit 5)) = some (0x8382817B, 0x83828180) ∧
    atomic (.amin 4 false 0 4 (.lit 0x2000) (.lit 5)) = some (0x83828180, 0x83828180) ∧
    atomic (.amax 4 false 0 4 (.lit 0x2000) (.lit 5)) = some (5, 0x83828180) ∧
    atomic (.aminu 4 false 0 4 (.lit 0x2000) (.lit 5)) = some (5, 0x83828180) ∧
    atomic (.amaxu 4 false 0 4 (.lit 0x2000) (.lit 5)) = some (0x83828180, 0x83828180) := by decide
theorem test_atomics_2 :
    atomic (.aand 4 false 0 4 (.lit 0x2000) (.lit 0xFF)) = some (0x80, 0x83828180) ∧
    atomic (.aor 4 false 0 4 (.lit 0x2000) (.lit 5)) = some (0x83828185, 0x83828180) ∧
    atomic (.axor 4 false 0 4 (.lit 0x2000) (.lit 0x180)) = some (0x83828000, 0x83828180) ∧
    atomic (.axchg 4 false 0 4 (.lit 0x2000) (.lit 5)) = some (5, 0x83828180) ∧
    atomic (.acas 4 false 0 4 (.lit 0x2000) 2) = some (0x83828180, 0x83828180) ∧
    atomic (.afadd 4 false 0 4 (.lit 0x2000) (.lit 0x3F800000)) = some (0x3F800000, 0x83828180) := by decide

/-- An open load, store and atomic of one word, and the two parts of a FENCE; the bytes stand at level 1; the home holds the line
in its cache. -/
def word_ : Loc := .mem 0x2000 false 0
def atHome (ag : Agent) : State :=
  { filled ag with ms := { State.reset.ms with orng := [(0, { sector := 32, slot := 0, valid := 15, data := [(0, 1)] })] } }
def inner4 (ag : Agent) : State :=
  { filled ag with ms := { State.reset.ms with l1 := [(0, [(0x2000, 1), (0x2001, 2), (0x2002, 3), (0x2003, 4)])] } }
def opened (k : AccKind) (unc : Bool) : Agent :=
  { reader with nextTag := 1, opens := [{ kind := k, loc := .mem 0x2000 unc 0, size := 4, scope := 3, data := 5, dst := .s 4, va := 0x2000, tag := 1 }] }
theorem witness_OrderingEvents :
    (filled (opened .load false)).agent? 0 = some (opened .load false) ∧ ((opened .load false).opens[0]?).isSome = true ∧
    paKind 0x2000 ≠ .mmio ∧ (filled reader).reachable 0 0 0x2000 = true ∧
    (opened .load false).profile = .wave ∧ (opened .load true).writePeer true 0x2000 = 0 ∧ keyed 0x2000 = true ∧
    ((atHome (opened .load true)).hit? 0 0x2000).isSome = true ∧ (∀ q, q < 16 → (atHome (opened .load true)).lostAt 0 q = false) ∧
    (atHome reader).ms.dropped = [] ∧ (atHome reader).ms.mixed = [] ∧ (atHome reader).ms.uses = [] ∧
    (inner4 (opened .load false)).levelWhole (opened .load false) 1 ((List.range' 0x2000 4).filter
      (fun a => !(opened .load false).ownByte a)) = true ∧
    (opened (.atomic .add) true).pend = [] ∧
    ({ reader with opens := [{ kind := .fenceAcq, scope := 1 }] } : Agent).opens[0]? = some { kind := .fenceAcq, scope := 1 } ∧
    ({ reader with opens := [{ kind := .fenceRel false false, scope := 4 }] } : Agent).opens[0]? = some { kind := .fenceRel false false, scope := 4 } := by
  decide

/-- An atomic of one CU over whole copied bytes, a release store behind a pending write, and a fence part ahead of the rest. -/
def atomic1 : Agent := { reader with nextTag := 1, opens := [{ kind := .atomic .add, loc := .mem 0x2000 false 0, size := 4, scope := 1, data := 5, dst := .s 4, tag := 1 }] }
def relStore : Agent :=
  { reader with
    opens := [{ kind := .store, loc := .mem 0x2000 false 0, size := 4, scope := 3, rel := true, tag := 2 }]
    pend := [{ loc := .mem 0x3000 false 0, bytes := [1], tag := 1, level := 2 }] }
theorem witness_OrderingEvents_more :
    (atHome (opened (.atomic .add) true)).ms.latent = [] ∧ (inner4 atomic1).levelWhole atomic1 1 (List.range' 0x2000 4) = true ∧ atomic1.pend = [] ∧
    atomic1.opens.length = 1 ∧ atomWrites .add false 1 0 = true ∧ atomWrites .cas false 1 0 = false ∧
    relStore.pend.any (fun w => decide (w.tag < 2) && decide (w.level < 3)) = true ∧ (∀ o ∈ relStore.opens.drop 1, o.tag ≠ 2) ∧
    (∀ o ∈ (opened .load false).opens.take 0, o.acq = false) := by decide

/-- Scopes 1 and 3: the inner copy stays, then goes; a release with an older pending write waits (R225, R226). -/
def copied (ag : Agent) : State := { filled ag with ms := { State.reset.ms with l1 := [(0, [(0x2000, 1)])] } }
def releasing (n : Nat) : Agent := { reader with opens := [{ kind := .fenceRel false false, scope := 3, tag := 2 }], pend := [{ loc := word_, bytes := [1], tag := 1, level := n }] }
def openIn (o : Out) : Option Nat := (agentIn o 0).map (fun a => a.opens.length)
theorem test_fence_parts :
    holds (exec (.acquire 0 0) (copied { reader with opens := [{ kind := .fenceAcq, scope := 1 }] })) (fun t => t.ms.l1.length == 1) = true ∧
    holds (exec (.acquire 0 0) (copied { reader with opens := [{ kind := .fenceAcq, scope := 3 }] }))
      (fun t => (Tab.find? (Tab.get [] t.ms.l1 0) 0x2000).isNone) = true ∧
    openIn (exec (.release 0 0) (copied (releasing 2))) = some 1 ∧ openIn (exec (.release 0 0) (copied (releasing 3))) = some 0 := by
  decide

/-- A pending write of a wave at level 0 through a cached page, one of a core at an uncached one, one that nothing backs, one
to another package; a copied byte that is pinned and one that is not. -/
def writing (l : Loc) : Agent := { reader with pend := [{ loc := l, bytes := [7], va := 0x2000 }] }
def pinning : Agent := { reader with pend := [{ loc := word_, bytes := [7], va := 0x2000, level := 1 }] }
theorem witness_PendingWrites :
    (copied (writing word_)).agent? 0 = some (writing word_) ∧ (copied (writing word_)).reachable 0 0 0x2000 = true ∧
    (copied (writing word_)).backed 0 0xFFFFFFFFFFF = false ∧ (writing word_).profile = .wave ∧
    (writing (.mem 0x2000 true 0)).writePeer true 0x2000 = 0 ∧ ((atHome (writing (.mem 0x2000 true 0))).hit? 0 0x2000).isSome = true ∧ (copied (writing (.remote 3 0x2000))).agent? 0 = some (writing (.remote 3 0x2000)) ∧
    (copied pinning).pinned 1 0 0x2000 = true ∧ (copied reader).pinned 1 0 0x2000 = false ∧ (copied reader).pinned 2 0 0x2000 = false := by
  decide
theorem test_eviction :
    holds (exec (.cacheEviction 1 0 0x2000) (copied reader)) (fun t => (Tab.find? (Tab.get [] t.ms.l1 0) 0x2000).isNone) = true ∧
    holds (exec (.writeErrorRemoval 0 0) (copied (writing (.mem 0xFFFFFFFFFFF false 0))))
      (fun t => (t.agent? 0).elim false (fun a => decide (a.stErr = [0x2000] ∧ a.pend = []))) = true := by decide

/-- A line that was written under key 2, and slot 1 holds key 3. -/
def otherKey : State :=
  { filled reader with ms := { State.reset.ms with lineKey := [(128, 2)], keys := [(0, { st := 1, key := 1 }), (1, { st := 1, key := 3 })] } }
theorem witness_MemoryReadAfterWrite :
    Memory.wf (filled reader).mem = true ∧ keyed (spadBase 0) = false ∧ (filled reader).isDropped (spadBase 0) = false ∧
    (filled reader).sharers (spadBase 0 / 256) = [] ∧ (filled reader).ms.orng = [] ∧
    keyed 0x2000 = true ∧ (filled reader).isDropped 0x2000 = false ∧ (otherKey.hit? 1 0x2000) = none ∧
    Tab.find? otherKey.ms.lineKey (0x2000 / 64) = some 2 ∧ 2 ≠ otherKey.keyOf 1 := by decide

/-! ### Synchronisation, handles, copies, tasks -/

/-- A barrier at 0 of CU 0: two expected, one arrived, phase 7 (R235); with nobody arrived; without a tag. -/
def barrier (ag : Agent) (ar : Byte) (tags : List Nat) : State :=
  { with_ 0 ag with
    units := [(0, { ustate := .running, waves := 2, tags := tags })]
    mem := ([(spadBase 0, ar), (spadBase 0 + 2, 2), (spadBase 0 + 4, 7)] : List Host.Cell).filter (fun (e : Nat × Byte) => e.2 != 0) }
theorem witness_Barriers :
    (barrier wave 1 [0]).mover = some (0, wave) ∧ wave.profile = .wave ∧ wave.fires 0 = true ∧ wave.wait = .none ∧
    (barrier wave 1 [0]).enginePlot wave.unit 0 8 = none ∧
    ((barrier wave 1 [0]).spWord wave.unit 0 8).toNat = 7 * 2 ^ 32 + 2 * 2 ^ 16 + 1 ∧ 0 ∈ ((barrier wave 1 [0]).unit wave.unit).tags ∧
    (barrier wave 1 [0]).releaseNow 0 wave 1 = true ∧ wave.barred = false ∧
    ((barrier wave 0 [0]).spWord wave.unit 0 8).toNat = 7 * 2 ^ 32 + 2 * 2 ^ 16 + 0 ∧
    0 ∉ ((barrier wave 0 []).unit wave.unit).tags ∧ (barrier wave 0 []).releaseNow 0 wave 1 = true := by decide

def padWord (o : Out) : Option Nat := (got o).map (fun t => (t.spWord 0 0 8).toNat)
theorem test_barrier :
    padWord (exec (.bara 0 5 (.lit 0) (.lit 2)) (barrier wave 1 [0])) = some (8 * 2 ^ 32 + 2 * 2 ^ 16) ∧
    padWord (exec (.bara 0 5 (.lit 0) (.lit 2)) (barrier wave 0 [0])) = some (7 * 2 ^ 32 + 2 * 2 ^ 16 + 1) ∧
    padWord (exec (.bara 0 5 (.lit 0) (.lit 1)) (barrier wave 0 [])) = some (2 ^ 32 + 2 ^ 16) ∧
    padWord (exec (.bara 0 5 (.lit 0) (.lit 16)) (barrier wave 0 [])) = some (16 * 2 ^ 16 + 1) ∧
    (agentIn (exec (.bara 0 5 (.lit 0) (.lit 2)) (barrier wave 1 [0])) 0).map (fun a => a.sGet 5) = some 7 := by decide
theorem test_barrier_waits :
    (agentIn (exec (.bar 0 5 (.lit 0) (.lit 2)) (barrier wave 0 [0])) 0).map (fun a => a.wait) = some (.barrier 0 7) ∧
    (agentIn (exec (.bar 0 5 (.lit 0) (.lit 2)) (barrier wave 1 [0])) 0).map (fun a => (a.wait, a.sGet 5)) = some (.none, 8) ∧
    (agentIn (exec (.barw 0 5 (.lit 0) (.lit 6)) (barrier wave 1 [0])) 0).map (fun a => a.sGet 5) = some 7 ∧
    (agentIn (exec (.barw 0 5 (.lit 0) (.lit 7)) (barrier wave 1 [0])) 0).map (fun a => a.wait) = some (.barrier 0 7) ∧
    (agentIn (exec (.bara 0 5 (.lit 0) (.lit 0)) (barrier wave 0 [0])) 0).map (fun a => a.sGet 5) = some 7 := by decide

/-- A fence that has been performed; one about to begin; a DBAR of one member and of two; a scratchpad word; a word in memory. -/
def fenced : Agent := { wave with wait := .fence }
def member (n : Nat) : Agent := { wave with dmem := BitVec.ofNat 32 (2 ^ 29 + n) }
theorem witness_FencesAndWaits :
    (with_ 0 fenced).mover = some (0, fenced) ∧ fenced.opens = [] ∧ fenced.fires 0 = true ∧ wave.wait = .none ∧
    wave.unrep = false ∧ (with_ 0 wave).postedOpen 0 = false ∧ wave.dmem.toNat / 2 ^ 29 = 0 ∧
    (with_ 0 wave).releaseNow 0 wave 0 = true ∧ 1 ≤ (member 2).dmem.toNat / 2 ^ 29 ∧
    (with_ 0 (member 2)).releaseNow 0 (member 2) ((member 2).flatScope 1) = true ∧
    (with_ 0 (member 2)).redn (member 2) false 1 = none ∧ (member 1).dmem.toNat % 2 ^ 16 ≤ 1 ∧ 2 ≤ (member 2).dmem.toNat % 2 ^ 16 ∧
    (wave.srcP (.reg 2)).toNat = 0 ∧ wave.barred = false ∧ (0x8000000000000004 : DWord).toNat / 2 ^ 32 = 2 ^ 31 ∧
    (with_ 0 wave).enginePlot wave.unit 4 4 = none ∧ (filled reader).answers (reader.enter (.flat 0x2000) page) page (page.flatPa 0x2000) = true ∧
    reader.opens = [] ∧ (filled reader).releaseNow 0 reader 3 = true := by decide

/-- The mapped page as an uncached one, held by the agent's page register; its word at 0x2000 in the home's cache. -/
def uncPage : Xlat := { page with pte := 0x7B }
def uncReader : Agent := { reader with strm := { cur := some uncPage } }
theorem witness_FencesAndWaits_memory :
    (with_ 0 wave).dispatchedDone wave (wave.nextTag + 1) = true ∧ uncPage.pte.getLsbD 6 = true ∧
    (uncReader.srcP (.lit 0x2000)).toNat < 2 ^ 56 ∧ (atHome uncReader).mover = some (0, uncReader) ∧
    (atHome uncReader).target uncReader .read (.flat 0x2000) = .mem (uncPage.flatPa 0x2000) uncPage ∧
    (atHome uncReader).replaying uncReader.part (.flat 0x2000) = false ∧
    (atHome uncReader).answers (uncReader.enter (.flat 0x2000) uncPage) uncPage (uncPage.flatPa 0x2000) = true ∧
    ((atHome uncReader).cached uncReader.strm (fun z => z == uncPage)).isSome = true ∧ ((atHome uncReader).hit? 0 0x2000).isSome = true ∧
    (atHome uncReader).ms.latent = [] ∧ uncReader.wait = .none := by decide
theorem witness_FencesAndWaits_wake :
    ({ wave with wait := .waitwOut 0x2004 } : Agent).part = reader.part ∧ (0x2004 : DWord).toNat / 64 = (0x2000 : DWord).toNat / 64 := by decide

theorem test_fence :
    (agentIn (exec (.fence 4 true false 0) (with_ 0 wave)) 0).map (fun a => a.opens.map (fun o => o.kind)) =
      some [.fenceRel false true, .fenceAcq] ∧
    (agentIn (exec (.fence 4 true false 0) (with_ 0 fenced)) 0).map (fun a => (a.wait, a.run.idx)) = some (.none, 1) := by decide
theorem test_dbar :
    sIn wave (.dbar 0 5) 5 = some 0 ∧ sIn (member 1) (.dbar 0 5) 5 = some 1 ∧
    (agentIn (exec (.dbar 0 5) (with_ 0 (member 2))) 0).map (fun a => a.wait) = some (.dbar 1) := by decide
def waiting : Agent := Machine.Agent.regs wave [(2, 4), (3, 0x80000000)]
theorem test_waitw :
    sIn waiting (.waitw 0 5 (.reg 2) (.lit 1)) 5 = some 0 ∧
    (agentIn (exec (.waitw 0 5 (.reg 2) (.lit 0)) (with_ 0 waiting)) 0).map (fun a => a.wait) = some (.waitw 0x8000000000000004) ∧
    ((got (exec (.wakew 0 (.reg 2)) { filled reader with agents := [(0, reader), (1, { wave with wait := .waitwOut 0x2004 })] })).bind
      (fun t => t.agent? 1)).map (fun a => a.wait) = some (.waitwReady 0x2004) := by decide

/-- Plots 0 to 127 of a CU; handles idle, pending and done. -/
def handles : Agent := { wave with h := [(1, { st := .pending, op := 9 }), (2, { st := .done, status := 0x6000000000000005 }),
  (3, { st := .done, status := 0x7000000000000001 }), (4, { st := .done, status := 0x3000000000000000 })] }
theorem witness_HandlesAndPlots :
    (with_ 0 handles).mover = some (0, handles) ∧ handles.profile ≠ .host ∧ handles.fires 0 = true ∧
    (wave.src (.lit 127)).toNat + 1 ≤ 128 ∧ 128 < (wave.src (.lit 127)).toNat + 2 ∧
    (((with_ 0 handles).unit 0).plot 127).engine = false ∧ (((with_ 0 handles).unit 0).plot 127).bound = none ∧
    (with_ 0 handles).releaseNow 0 handles 3 = true ∧
    (handles.hGet 1).st = .pending ∧ (handles.hGet 0).st = .idle ∧ (handles.hGet 2).st = .done ∧
    (handles.hGet 2).status.toNat / 2 ^ 60 = 6 ∧ (handles.hGet 3).status.toNat / 2 ^ 60 = 7 ∧ (handles.hGet 4).status.toNat / 2 ^ 60 = 3 ∧
    handles.rstat.getLsbD 31 = false ∧ handles.rstat.getLsbD 30 = false ∧ (wave.src (.lit 0)).toNat = handles.gw.toNat ∧
    (both first { second with wait := .none }).waveOf first.unit 1 = some (1, { second with wait := .none }) := by decide

/-- Plot 4 of CU 0 is with the engine; no wave 5. -/
def engined : State := { with_ 0 handles with units := [(0, { ustate := .running, waves := 1, plots := [(4, { engine := true })] })] }
theorem witness_HandlesAndPlots_traps :
    engined.mover = some (0, handles) ∧ 3 + 2 ≤ 128 ∧ ((engined.unit 0).plot 4).engine = true ∧ ((engined.unit 0).plot 3).engine = false ∧
    (wave.src (.lit 5)).toNat ≠ handles.gw.toNat ∧ engined.waveOf handles.unit 5 = none ∧
    ({ handles with rstat := 0x80000000 } : Agent).rstat.getLsbD 31 = true ∧ ({ handles with rstat := 0x40000000 } : Agent).rstat.getLsbD 30 = true := by decide
theorem test_plot_owner : trapIn (exec (.give 0 (.lit 3) (.lit 2)) { trapping 0 (mapped wave) with units := engined.units }) 0 = some (6, 4) := by decide

theorem test_plots :
    (got (exec (.give 0 (.lit 126) (.lit 2)) (with_ 0 wave))).map (fun t => ((t.unit 0).plot 125, (t.unit 0).plot 126, (t.unit 0).plot 127)) =
      some ({}, { engine := true, bound := none }, { engine := true, bound := none }) ∧
    trapIn (exec (.give 0 (.lit 127) (.lit 2)) (trapping 0 (mapped wave))) 0 = some (5, 127) ∧
    (got (exec (.take 0 (.lit 126) (.lit 2)) (with_ 0 wave))).map (fun t => (t.unit 0).plot 126) = some {} := by decide
theorem test_handles :
    pIn handles (.hwait 0 6 0) 6 = some 0xF000000000000000 ∧ pIn handles (.hwait 0 6 4) 6 = some 0x3000000000000000 ∧
    (agentIn (exec (.hwait 0 6 1) (with_ 0 handles)) 0).map (fun a => a.wait) = some .again ∧
    sIn handles (.htest 0 6 1) 6 = some 0 ∧ sIn handles (.htest 0 6 4) 6 = some 1 ∧ flagsIn handles (.hwait 0 6 2) = some 0x400 ∧
    (agentIn (exec (.hpass 0 7 4 (.lit 0)) (with_ 0 handles)) 0).map (fun a => ((a.hGet 7).status, (a.hGet 4).st)) =
      some (0x3000000000000000, .idle) ∧
    (agentIn (exec (.hcancel 0 4) (with_ 0 handles)) 0).map (fun a => a.run.idx) = some 1 := by decide

/-- A byte list at an offset of the scratchpad of CU 0, as memory. -/
def inPad0 (off : Nat) (bs : List Byte) : List Host.Cell :=
  (bs.zipIdx.map (fun (b : Byte × Nat) => (spadBase 0 + off + b.2, b.1))).filter (fun (e : Nat × Byte) => e.2 != 0)

/-- CPY's block at 0: two bytes as INT8 from 0x3000 to 0x2000 of the own scratchpad (R70); plots 2 and 3 are the engine's. -/
def copyBlock : List Byte :=
  leBytes 4 0x48664000 ++ leBytes 4 0 ++ leBytes 8 0x3000 ++ leBytes 8 0x2000 ++ leBytes 4 2 ++
    (List.replicate 9 (leBytes 4 1)).flatten ++ leBytes 4 1 ++ List.replicate 36 0 ++ leBytes 4 1 ++ List.replicate 52 0
def copyState (ag : Agent) : State :=
  { with_ 0 ag with
    units := [(0, { ustate := .running, waves := 1, plots := [(2, { engine := true }), (3, { engine := true })] })]
    mem := inPad0 0 copyBlock ++ [(spadBase 0 + 0x3000, 5), (spadBase 0 + 0x3001, 6)] }
/-- The copy in its queue, running, and with both elements moved. -/
def aCopy : Copy := { agent := 0, hnd := 4, unit_ := 0, engine := 0, part := 0, skind := 2, dkind := 2, sfmt := 9, dfmt := 9, src := 0x3000, dst := 0x2000, ext := 2 :: List.replicate 9 1, sstr := 1 :: List.replicate 9 0, dstr := 1 :: List.replicate 9 0 }
def copying (c : Copy) : State :=
  { copyState { wave with h := [(4, { st := .pending, op := 1 })] } with
    units := [(0, { ustate := .running, waves := 1, plots := [(2, { engine := true, bound := some 1 }), (3, { engine := true, bound := some 1 })] })]
    fab := { State.reset.fab with copies := [(1, c)], nextOp := 2 } }

/-- A TAKE that waits for operation 1, while it is open and after. -/
def taking : Agent := { wave with wait := .take [1] }
theorem witness_HandlesAndPlots_take : (∀ ops, handles.wait ≠ .take ops) ∧ taking.wait = .take [1] ∧
    ([1].any (copying aCopy).opOpen) = true ∧ ([1].any (with_ 0 taking).opOpen) = false ∧
    ((copying aCopy).unit 0).plot 2 = { engine := true, bound := some 1 } :=
  ⟨fun _ => by simp [handles, wave], by decide, by decide, by decide, by decide⟩
theorem witness_Copies :
    (copyState wave).mover = some (0, wave) ∧ wave.profile ≠ .host ∧ wave.fires 0 = true ∧ (wave.hGet 4).st ≠ .pending ∧
    (copyState wave).enginePlot wave.unit 0 160 = none ∧ wave.barred = false ∧ spadSize wave.unit < 524160 + 160 ∧
    (parseCopy wave.unit ((copyState wave).spadRead wave.unit 0 160)).map (fun c => (c.plots, c.ext.getD 0 0)) = some ([3, 2], 2) ∧
    (((copyState wave).unit 0).plot 2) = { engine := true, bound := none } ∧ (((copyState wave).unit 0).plot 3) = { engine := true, bound := none } ∧
    (copyState wave).copyQueue 0 < 32 ∧ (copyState wave).releaseReady 0 wave 3 (wave.nextTag + 1) = true ∧
    parseCopy wave.unit ((with_ 0 wave).spadRead wave.unit 0 160) = none := by decide
theorem witness_Copies_events :
    Tab.find? (copying aCopy).fab.copies 1 = some aCopy ∧ (copying aCopy).nextCopy 0 = some 1 ∧
    fmtOf aCopy.sfmt = .int8 ∧ aCopy.dst.toNat % 64 + 2 ≤ 64 ∧ aCopy.src.toNat + 2 ≤ spadSize 0 ∧ aCopy.dst.toNat + 2 ≤ aCopy.src.toNat ∧
    (copying { aCopy with running := true }).copyLogged 1 = false ∧
    ((copying aCopy).unit 0).plot (0x2000 / plotSize 0) = { engine := true, bound := some 1 } ∧
    ((copying aCopy).unit 0).plot (0x3000 / plotSize 0) = { engine := true, bound := some 1 } ∧
    Tab.sorted ((copying aCopy).unit 0).plots = true ∧
    (let c : Copy := { aCopy with running := true, moved := 2 }
     c.ext.foldl (· * ·) 1 ≤ c.moved ∧ c.touched = []) := by decide

theorem test_copy :
    (agentIn (exec (.cpy 0 4 (.lit 0)) (copyState wave)) 0).map (fun a => a.hGet 4) = some { st := .pending, op := 1 } ∧
    (agentIn (exec (.cpy 0 4 (.lit 32)) (copyState wave)) 0).map (fun a => a.hGet 4) = some { st := .done, status := 0x3000000000000000 } ∧
    (got (exec (.copyStart 1) (copying aCopy))).map (fun t => t.fab.copies.map (fun c => c.2.running)) = some [true] ∧
    (got (exec (.copyChunk 1 .clean) (copying { aCopy with running := true }))).map
      (fun t => (t.spadRead 0 0x2000 2, t.fab.copies.map (fun c => c.2.moved))) = some ([5, 6], [2]) ∧
    (agentIn (exec (.copyCompletion 1) (copying { aCopy with running := true, moved := 2 })) 0).map (fun a => a.hGet 4) =
      some { st := .done, status := 2 } := by decide

/-- A task launch 3 on CU 0; a record at 0 of the scratchpad: entry 0x5000, arguments 1 to 6 (R311). -/
def tasker : Agent := Machine.Agent.regs { wave with launch := 3 } [(4, 0), (6, 0x80000001), (7, 2), (8, 0xC0000000)]
def taskState (kind : Nat) (deps : Tab DepEnt) : State :=
  { with_ 0 tasker with
    units := [(0, { ustate := .running, launch := 3, waves := 2 }), (1, { ustate := .running, launch := 3, waves := 2, deque := [{ entry := 0x6000 }] }),
              (2, { ustate := .running, launch := 3, waves := 2 })]
    hub := { State.reset.hub with launches := [(3, { id := 3, kind := kind, waves := 2, live := [0, 1, 2] })], parts := [(0, { part := 0, units := [0, 1, 2], depLo := 0, depHi := 16 })], deps := deps }
    mem := inPad0 0 (leBytes 8 0x5000 ++ leBytes 4 1 ++ leBytes 4 2 ++ leBytes 4 3 ++ leBytes 4 4 ++ leBytes 4 5 ++ leBytes 4 6) }
def anEntry (n : Nat) : DepEnt := { part := 0, launch := 3, count := n, task := { entry := 0x5000 }, inputs := [] }

theorem witness_TaskInstructions :
    (taskState 2 []).mover = some (0, tasker) ∧ tasker.profile = .wave ∧ tasker.fires 0 = true ∧
    (taskState 2 []).enginePlot tasker.unit 0 64 = none ∧ (taskState 2 []).enginePlot tasker.unit 0 32 = none ∧
    (taskState 2 []).releaseNow 0 tasker 3 = true ∧ ((taskState 2 []).launch? tasker.launch).map (fun l => l.kind) = some 2 ∧
    ((taskState 0 []).launch? tasker.launch).map (fun l => l.kind) = some 0 ∧ (tasker.sGet 4).toNat / 2 ^ 30 = 0 ∧
    (tasker.sGet 6).toNat / 2 ^ 30 = 2 ∧ (tasker.sGet 8).toNat / 2 ^ 30 = 3 ∧ (tasker.sGet 7).toNat = 2 ∧
    (taskState 2 []).depIndex 0 1 = some 1 ∧ Tab.find? (taskState 2 []).hub.deps 1 = none ∧
    ((taskState 2 []).unit 0).deque.length < 64 := by decide
theorem witness_TaskInstructions_others :
    tasker.wait = .none ∧ (taskState 2 []).taskGroup 1 3 = true ∧ ((taskState 2 []).unit 1).deque = [{ entry := 0x6000 }] ∧
    (taskState 2 []).taskGroup 2 3 = true ∧ ((taskState 2 []).unit 2).deque = [] ∧ (taskState 2 []).taskGroup 191 3 = false ∧
    Tab.find? (taskState 2 [(1, anEntry 2)]).hub.deps 1 = some (anEntry 2) ∧
    (with_ 4096 sequencer).mover = some (4096, sequencer) ∧ sequencer.profile = .sequencer ∧ sequencer.wait = .none ∧ 544 ≤ spadSize sequencer.unit := by decide

def taskSt (i : Instr) (k : Nat) (d : Tab DepEnt) : Option Word := (agentIn (exec i (taskState k d)) 0).map (fun a => a.sGet 5)
theorem test_tasks :
    taskSt (.spawn 0 5 (.lit 0) 4) 2 [] = some 0 ∧ taskSt (.spawn 0 5 (.lit 0) 4) 0 [] = some 4 ∧ taskSt (.spawn 0 5 (.lit 0) 8) 2 [] = some 4 ∧
    (got (exec (.spawn 0 5 (.lit 0) 4) (taskState 2 []))).map (fun t => (t.unit 0).deque) =
      some [{ entry := 0x5000, args := [1, 2, 3, 4, 5, 6] }] ∧
    (got (exec (.spawn 0 5 (.lit 0) 6) (taskState 2 []))).map (fun t => t.hub.deps.map (fun e => e.2.count)) = some [2] := by decide
theorem test_tasks_move :
    taskSt (.steal 0 5 (.lit 1)) 2 [] = some 0 ∧ taskSt (.steal 0 5 (.lit 2)) 2 [] = some 1 ∧ taskSt (.steal 0 5 (.lit 191)) 2 [] = some 2 ∧
    taskSt (.tdone 0 5 (.lit 1) (.lit 1)) 2 [(1, anEntry 2)] = some 0 ∧ taskSt (.tdone 0 5 (.lit 1) (.lit 2)) 2 [(1, anEntry 2)] = some 1 ∧
    taskSt (.tdone 0 5 (.lit 1) (.lit 3)) 2 [(1, anEntry 2)] = some 2 ∧ taskSt (.tdone 0 5 (.lit 1) (.lit 1)) 2 [] = some 2 := by decide

/-- A power pool of 10 of which 4 are held (R327). -/
def powered : State := { with_ 0 wave with
                         rot := { State.reset.rot with pwrPool := [(0, 10)], pwrHeld := [(0, 4)] }
                         units := [(0, { ustate := .running, tokens := 4 })] }
theorem test_power :
    (agentIn (exec (.pwrget 0 5 (.lit 9)) powered) 0).map (fun a => a.sGet 5) = some 6 ∧
    (got (exec (.pwrget 0 5 (.lit 9)) powered)).map (fun t => (Tab.get 0 t.rot.pwrHeld 0, (t.unit 0).tokens)) = some (10, 10) ∧
    (got (exec (.pwrrel 0 (.lit 9)) powered)).map (fun t => (Tab.get 0 t.rot.pwrHeld 0, (t.unit 0).tokens)) = some (0, 0) ∧
    (agentIn (exec (.remq 0 5 (.lit 0) (.lit 32)) (with_ 4096 sequencer)) 4096).map (fun a => a.sGet 5) = some 2 := by decide

/-- A time of 1,000; windows of CU 0 towards group 1 of the same package; an ALLRED of one member; a WSIG. -/
def timed : State := { with_ 0 wave with ntime := 1000 }
def windows : State := { with_ 0 wave with
                         units := [(0, { ustate := .running, launch := 3, waves := 2 }), (1, { ustate := .running, launch := 3, waves := 2 })]
                         hub := { State.reset.hub with launches := [(3, { id := 3, waves := 2, live := [0, 1] })] } }
theorem witness_FabricInstructions :
    (with_ 0 wave).mover = some (0, wave) ∧ wave.fires 0 = true ∧ timed.ntime.toNat + 2 < 2 ^ 64 ∧
    (wave.srcP (.lit 1000)).toNat ≤ timed.ntime.toNat ∧ timed.ntime.toNat + 2 < (wave.srcP (.lit 1003)).toNat ∧
    wave.profile ≠ .host ∧ (with_ 0 wave).winTraffic 0 3 = false ∧ (((with_ 0 wave).unit 0).win 3).bind = none ∧
    (wave.srcP (.reg 0)).getLsbD 63 = false ∧ wave.dmem.toNat / 2 ^ 29 = 0 ∧ (with_ 0 wave).releaseNow 0 wave 0 = true ∧
    (with_ 0 wave).enginePlot 0 0 4 = none ∧ (wave.src (.lit 0x100)).toNat = 0 + 256 * 1 ∧
    (wave.hGet 4).st ≠ .pending ∧ (wave.sGet 3 &&& 0xFFFFFEE0) = 0 ∧ (with_ 0 wave).releaseNow 0 wave 4 = true := by decide
/-- CU 1 is up; the configuration word 0x8402001402000000 binds a window to it with an allowance of 8 (R244); the window 3 so
bound; WSIG's addresses 0x40 and 0x80 in it (R259). -/
def binder : Agent := Machine.Agent.regs wave [(8, 0x02000000), (9, 0x84020014), (20, 0x1180040), (21, 0x1180080), (22, 77), (23, 1)]
def bindable : State := { with_ 0 binder with
                          units := [(0, { ustate := .running, waves := 2 }), (1, { ustate := .running, waves := 2 })]
                          plat := { State.reset.plat with dies := [(10, { link := .up, units := 3 })] } }
def bound : State := { bindable with
                       units := [(0, { ustate := .running, waves := 2, wins := [(3, { cfg := 0x8402001402000000, bind := some 1 })] }), (1, { ustate := .running, waves := 2 })]
                       fab := { State.reset.fab with binds := [(1, { srcUnit := 0, dstPkg := 0, dstUnit := 1, sets := 2 })], nextOp := 2 }
                       mem := [(spadBase 0, 5)] }
theorem witness_FabricInstructions_windows :
    bindable.mover = some (0, binder) ∧ binder.fires 0 = true ∧ binder.srcP (.reg 8) = 0x8402001402000000 ∧
    (binder.srcP (.reg 8)).getLsbD 63 = true ∧ winBad (binder.srcP (.reg 8)) = false ∧
    (binder.srcP (.reg 8)).toNat / 2 ^ 37 % 512 = bindable.plat.pkg.toNat ∧
    (bindable.bindAnswer 0 ((binder.srcP (.reg 8)).toNat / 2 ^ 33 % 16) ((binder.srcP (.reg 8)).toNat / 2 ^ 25 % 256) 2 matches .ok (1, 0)) = true ∧
    ((with_ 0 binder).bindAnswer 0 10 1 2 matches .error 2) = true ∧
    bound.mover = some (0, binder) ∧ ((bound.unit 0).win 3).cfg.getLsbD 63 = true ∧ ((bound.unit 0).win 3).queue = [] ∧
    ((bound.unit 0).win 3).used + 2 ≤ ((bound.unit 0).win 3).cfg.toNat / 2 ^ 46 % 256 ∧
    bound.winBusy 0 0 3 [0x40, 0x41, 0x42, 0x43] = false ∧ bound.winBusy 0 0 3 [0x80, 0x81, 0x82, 0x83] = false ∧
    bound.releaseNow 0 binder 4 = true ∧ bound.enginePlot 0 0 4 = none ∧ (binder.sGet 20).toNat = 0x1000000 + 3 * 2 ^ 19 + 0x40 := by decide
/-- A window toward package 5, with a pairing and without; a peer unit that does not exist; an off word. -/
def farCfg : DWord := 0x840200B402000000
theorem witness_FabricInstructions_far :
    farCfg.getLsbD 63 = true ∧ winBad farCfg = false ∧ farCfg.toNat / 2 ^ 37 % 512 = 5 ∧ bindable.plat.pkg.toNat = 0 ∧
    (peerUnit (farCfg.toNat / 2 ^ 33 % 16) (farCfg.toNat / 2 ^ 25 % 256)).isSome = true ∧ peerUnit 10 48 = none ∧ bindable.noRoute = true ∧
    bindable.plat.pairs.contains (0, 5) = false ∧
    ({ bindable with plat := { bindable.plat with pairs := [(0, 5)] } } : State).plat.pairs.contains (0, 5) = true ∧
    (wave.src (.lit 16)).toNat = 16 ∧ 15 < (wave.src (.lit 16)).toNat := by decide
theorem test_windows :
    (got (exec (.wincfg 0 5 (.reg 8) (.lit 3)) bindable)).map (fun t => (((t.unit 0).win 3).bind, t.fab.binds.map (fun b => b.2.dstUnit))) =
      some (some 1, [1]) ∧
    (agentIn (exec (.wincfg 0 5 (.reg 8) (.lit 3)) (with_ 0 binder)) 0).map (fun a => a.sGet 5) = some 2 ∧
    (got (exec (.wsig 0 4 (.reg 0) 20) bound)).map (fun t => t.fab.posted.map (fun e => e.2.bytes)) =
      some [[(0x40, 5), (0x41, 0), (0x42, 0), (0x43, 0)], []] := by decide

theorem test_fabric :
    sIn (Machine.Agent.regs wave [(8, 0), (9, 0)]) (.wincfg 0 5 (.reg 8) (.lit 3)) 5 = some 1 ∧
    sIn (Machine.Agent.regs wave [(9, 0x80000000)]) (.wincfg 0 5 (.reg 8) (.lit 3)) 5 = some 5 ∧
    (got (exec (.allred 0 4 (.lit 8) (.lit 0x100)) { with_ 0 wave with mem := [(spadBase 0 + 8, 7)] })).map (fun t => t.spadRead 0 0 4) =
      some [7, 0, 0, 0] ∧
    (agentIn (exec (.wsig 0 4 (.lit 0) 8) (with_ 0 (Machine.Agent.regs wave [(11, 17)]))) 0).map (fun a => (a.hGet 4).status) =
      some 0x3000000000000000 := by decide

/-- Tables of partition 0 whose root is at 0x10000 and a leaf of 4 KiB that maps the page 0x2000 at itself (R46, R47). -/
def tabled (s : State) : State :=
  { s with
    rot := { s.rot with ptRoot := [(0, 0x10001)], trapTab := [(0, 0x8001)] }
    mem := [(0x10000, 1), (0x10001, 0x10), (0x10002, 1), (0x11000, 1), (0x11001, 0x20), (0x11002, 1), (0x12000, 1), (0x12001, 0x30), (0x12002, 1),
            (0x13000, 1), (0x13001, 0x40), (0x13002, 1), (0x14010, 0x1A), (0x14011, 0x20)] }

/-- A posted write of two bytes at 0x40 in flight through that binding, and an ordered flag at 0x80; a delivered one; an open
load from package 3; two arrivals of a sum; a link with one flit outstanding; a circuit of each state. -/
def aPosted (k : PostKind) : Posted := { agent := 0, unit_ := 0, win := 3, bind := 1, path := 0, kind := k, off := if k = .data then 0x40 else 0x80, len := 4, bytes := if k = .data then [(0x40, 6), (0x41, 7)] else [] }
def posting (e : Posted) : State := { bound with fab := { bound.fab with posted := [(7, e)] } }
/-- A long time later; the binding names package 5. -/
def later (s : State) : State := { s with ntime := 1000000000 }
def farBound : State := { posting (aPosted .data) with fab := { (posting (aPosted .data)).fab with binds := [(1, { srcUnit := 0, dstPkg := 5, dstUnit := 1, sets := 2 })] } }
theorem witness_FabricEvents :
    Tab.find? (posting (aPosted .data)).fab.posted 7 = some (aPosted .data) ∧ ((Tab.find? bound.fab.binds 1).map (fun b => b.dstPkg)) = some 0 ∧
    (posting (aPosted .data)).landing { srcUnit := 0, dstPkg := 0, dstUnit := 1, sets := 2 } 0x40 4 [0x40, 0x41] = some (1, 0x40) ∧
    [0x40, 0x41].Nodup ∧ (∀ x ∈ (aPosted .data).bytes, (aPosted .data).off ≤ x.1) ∧
    (posting (aPosted (.flag 9 4 false [0, 0, 0, 0]))).landing { srcUnit := 0, dstPkg := 0, dstUnit := 1, sets := 2 } 0x80 4 (List.range' 0x80 4) = some (1, 0x80) ∧
    (∀ p, p < 4 → (0 + 65536 - ([0, 0, 0, 0] : List Nat).getD p 0) % 65536 < 32768) ∧
    32768 ≤ (0 + 65536 - ([1, 0, 0, 0] : List Nat).getD 0 0) % 65536 ∧ (aPosted .data).unit_ < 2 ^ 20 ∧
    (bound.link (aPosted .data).path).down = false ∧ bound.past (aPosted .data).born (winTmo ((bound.groupOf 0).win 3).cfg) = false ∧
    (later (posting (aPosted .data))).past (aPosted .data).born (winTmo (((later (posting (aPosted .data))).groupOf 0).win 3).cfg) = true ∧
    (farBound.fab.binds.map (fun b => b.2.dstPkg)) = [5] := by decide
/-- Link die 14 is up. -/
def routed (s : State) : State := { s with plat := { s.plat with dies := [(14, { link := .up })] } }
def farLoad : Agent := { wave with opens := [{ kind := .load, loc := .remote 3 0x00804000_00000000, size := 4, dst := .s 5, tag := 1 }] }
def aRedn : Redn := { launch := 3, inst := 0, n := 1, allred := true, members := 2, arr := [{ key := 1, agent := 1, cnt := 1, data := [0xFFFFFFFF] }, { key := 0, agent := 0, cnt := 1, data := [2] }] }
theorem witness_FabricEvents_others :
    (with_ 0 farLoad).agent? 0 = some farLoad ∧ (farLoad.opens[0]?).map (fun e => farLoad.mayPerform 0 e) = some true ∧ farLoad.wait = .none ∧
    (filled reader).inboundXlat 0 0x2000 4 .read = none ∧ (tabled (with_ 0 wave)).inboundXlat 0 0x2000 4 .read = some (0x2000, 0) ∧
    (tabled (with_ 0 wave)).reachable 0 0 0x2000 = true ∧ aRedn.arr.length = 2 ∧ farLoad.pend = [] ∧ farLoad.rstat.getLsbD 31 = false ∧
    (∀ e ∈ farLoad.opens, (with_ 0 farLoad).overdue farLoad e = false ∧ (later (with_ 0 farLoad)).overdue farLoad e = true) ∧
    (with_ 0 farLoad).noRoute = true ∧ (routed (with_ 0 farLoad)).noRoute = false ∧
    (later (with_ 0 wave)).plat.syncAt = none ∧
    ({ unacked := [(250, 0)], width := 16 } : RingLink).down = false ∧ (filled reader).circDies 0 = false ∧
    (Tab.get 0 (filled reader).rot.circ 5).toNat / 2 ^ 61 % 4 = 0 := by decide

/-- Delivered writes of a binding: counted under die 10's present incarnation and under an old one; path 2 of a package whose link
die 15 is away; a load of another package with a second like it; flits at their last resend. -/
def counted (k : BitVec 8) : Posted := { aPosted .data with delivered := true, by_ := some (10, k) }
def sibling : Agent := { farLoad with opens := farLoad.opens ++ [{ kind := .load, loc := .remote 3 0x00804000_00000008, size := 4, dst := .s 6, tag := 2 }] }
theorem witness_FabricEvents_routes :
    (routed State.reset).stationUp 0 = true ∧ ((routed State.reset).link 0).down = false ∧ (routed State.reset).stationUp 2 = false ∧
    (routed State.reset).stationUp (2 ^^^ 2) = true ∧ ((routed State.reset).link (2 ^^^ 2)).down = false ∧
    (({ routed State.reset with plat := { (routed State.reset).plat with links := [(0, { down := true })] } } : State).link 0).down = true ∧
    ((posting (counted 0)).die 10).inc = 0 ∧ (counted 1).by_ = some (10, 1) ∧ (counted 0).lostRsp = false ∧ (counted 0).acked = false ∧
    (counted 0).wsig = none ∧ (counted 0).ok = true ∧ (aPosted .data).by_ = none ∧
    (∀ e ∈ sibling.opens.drop 1, ∀ f ∈ farLoad.opens, e.sameAs f = false) ∧
    (∃ e ∈ farLoad.opens, e.loc = .remote 3 0x00804000_00000000) ∧
    (∀ f ∈ ({ unacked := [(250, 15)] } : RingLink).unacked, f.2 < 16) ∧ (∃ f ∈ ({ unacked := [(250, 16)] } : RingLink).unacked, 16 ≤ f.2) ∧
    8 < ({} : RingLink).width ∧ 0 < ({} : RingLink).width := by decide
theorem test_window_events :
    (got (exec (.windowDeliver 7) (posting (aPosted .data)))).map (fun t => (t.spadRead 1 0x40 2, t.fab.posted.map (fun e => e.2.delivered))) =
      some ([6, 7], [true]) ∧
    (got (exec (.windowDeliver 7) (posting (aPosted (.flag 9 4 false [0, 0, 0, 0]))))).map (fun t => t.spadRead 1 0x80 4) = some [9, 0, 0, 0] ∧
    (got (exec (.windowDeliver 7) (posting (aPosted (.flag 9 4 false [1, 0, 0, 0]))))).map (fun t => t.fab.posted.map (fun e => e.2.delivered)) =
      some [false] ∧
    (got (exec (.windowAck 7 true) (posting { aPosted .data with delivered := true }))).map (fun t => t.fab.posted.length) = some 0 ∧
    (got (exec (.windowTimeout 7) (later (posting (aPosted .data))))).bind (fun t => (t.agent? 0).map (fun a => (a.rstat, a.unrep))) = some (0x400, true) ∧
    (got (exec (.requestReissue 7) (posting (aPosted .data)))).map (fun t => t.rot.ringReiss) = some 1 := by decide
theorem test_remote_events :
    (agentIn (exec (.remoteResponse 0 0 { data := 9, err := false, applied := false, line := [] }) (routed (with_ 0 farLoad))) 0).map (fun a => (a.sGet 5, a.opens.length)) =
      some (9, 0) ∧
    (agentIn (exec (.requestTimeout 0 0) (later (with_ 0 farLoad))) 0).map (fun a => (a.sGet 5, a.rstat)) = some (0, 0x400) ∧
    (got (exec (.inboundRemoteAccess (.flatLoad 0 0x2000 4) .clean) (with_ 0 wave))).map (fun t => t.fab.out) =
      some [{ data := 0, err := true, applied := false, line := [] }] := by decide
def linked (l : RingLink) : State := { State.reset with plat := { State.reset.plat with links := [(5, l)] } }
theorem test_links :
    (got (exec (.flitAck 5 250 2) (linked { unacked := [(250, 0), (251, 3)] }))).map (fun t => (t.link 5).unacked) = some [(251, 4)] ∧
    (got (exec (.linkWidthChange 5 8) (linked {}))).map (fun t => (t.link 5).width) = some 8 ∧
    (got (exec (.laneFailure 5 0) (linked {}))).map (fun t => (t.link 5).down) = some true ∧
    (got (exec (.timeSync 20) State.reset)).map (fun t => t.ntime) = some 12 := by decide
theorem test_circuits :
    (got (exec (.circWrite 5 0) State.reset)).map (fun t => t.rot.circRej) = some 1 ∧
    (got (exec (.circuitUp 5) { State.reset with rot := { State.reset.rot with circ := [(5, 0xA000000000000000)] } })).map (fun t => Tab.get 0 t.rot.circ 5) =
      some 0xC000000000000000 ∧
    (got (exec (.circuitDown 5) { State.reset with rot := { State.reset.rot with circ := [(5, 0x6000000000000000)] } })).map (fun t => Tab.get 0 t.rot.circ 5) =
      some 0 := by decide

/-! ### Translations, faults, waits -/

def leaf : Xlat := { part := 0, tid := none, base := 0x2000, size := 0x1000, pte := 0x201A }
def aFault : FaultRec := { part := 0, key := .flat 0x2000, perm := .read, waiters := [0] }
def held : Agent := { wave with wait := .held 0x2000 }
def faulted (f : FaultRec) (ag : Agent) : State := { with_ 0 ag with ms := { State.reset.ms with faults := [f] } }
/-- A side-log entry of one byte 7 at 0x2005. -/
def anEnt : SideEnt := { agent := 0, part := 0, launch := 0, die := 10, inc := 0, key := .flat 0x2000, bytes := [(5, 7, 0xFF)], tag := 1 }
def logged (s : State) (e : SideEnt) : State := { s with units := [(0, { slog := [e] })] }
def beside : Xlat := { part := 0, tid := none, base := 0x1000, size := 0x1000, pte := 0x101A }
def neighbour : Agent := { wave with strm := { cur := some beside, last := some (.flat 0x1F80), walk := some (.flat 0x2000) } }

theorem witness_FaultsAndWaits :
    (tabled (with_ 0 wave)).walkKey 0 (.flat 0x2000) .read = .ok leaf ∧ (tabled (with_ 0 wave)).walkKey 0 (.flat 0x3000) .read = .notPresent ∧
    (tabled (with_ 0 neighbour)).agent? 0 = some neighbour ∧ neighbour.strm.walk = some (.flat 0x2000) ∧ neighbour.strm.cur = some beside ∧
    (VKey.flat 0x1F80).stepTo (.flat 0x1FC0) beside.size = 64 ∧ beside.size ≤ (VKey.flat 0x1FC0).offIn beside + 1024 ∧
    (VKey.flat 0x1040).stepTo (.flat 0x1000) beside.size = -64 ∧ (VKey.flat 0x1000).offIn beside < 1024 ∧ 0 < beside.base ∧
    (tabled (with_ 0 neighbour)).target neighbour .read (.flat 0x2000) = .walking ∧
    (tabled (with_ 0 neighbour)).walkAny 0 (.flat 0x2000) = some leaf ∧
    (tabled (faulted aFault held)).ms.faults[0]? = some aFault ∧ aFault.resolved = false ∧
    (tabled (faulted aFault held)).logged 0 (.flat 0x2000) = false ∧ (logged (tabled (faulted aFault held)) anEnt).logged 0 (.flat 0x2000) = true ∧
    aFault.waiters = [0] ∧ aFault.copies = [] ∧ aFault.queues = [] ∧ held.wait = .held 0x2000 := by decide
/-- The walk that a neighbour's page takes, a copy's stream and a quadrant's; an unresolvable fault with no entry of its page; a WFI
at and before its millisecond. -/
def idleCopy : Copy := { agent := 0, hnd := 4, unit_ := 0, engine := 0, part := 0, skind := 2, dkind := 2, sfmt := 9, dfmt := 9, src := 0x3000, dst := 0x2000, ext := [], sstr := [], dstr := [] }
theorem witness_FaultsAndWaits_others :
    ((tabled (with_ 0 neighbour)).noteStream (.agent 0)).agent? 0 = some neighbour ∧
    (Tab.find? ({ with_ 0 wave with fab := { State.reset.fab with copies := [(1, idleCopy)] } } : State).fab.copies 1).isSome = true ∧
    (Tab.find? ({ with_ 0 wave with quads := [(0, {})] } : State).quads 0).isSome = true ∧
    (tabled (faulted aFault held)).walkKey 0 aFault.key aFault.perm ≠ .notPresent ∧
    (tabled (with_ 0 wave)).walkKey 0 (.flat 0x2000) .write ≠ .notPresent ∧ (faulted aFault held).units.all (fun x => x.2.slog.isEmpty) = true ∧
    State.past { State.reset with ntime := 1000001 } 0 1000000 = true ∧ State.past { State.reset with ntime := 1000 } 0 1000000 = false ∧
    (logged (with_ 0 wave) anEnt).units.all (fun x => x.2.slog.all (fun y => !(y.key.samePage (.flat 0x5000)))) = true := by decide
def replay : State := logged (tabled (faulted { aFault with resolved := true, waiters := [] } wave)) anEnt
theorem witness_FaultsAndWaits_replay :
    (replay.unit 0).slog[0]? = some anEnt ∧ replay.replaying 0 anEnt.key = true ∧ replay.mayReplay anEnt = true ∧
    replay.replayTurn (replay.unit 0) 0 anEnt = true ∧ (logged (with_ 0 wave) anEnt).replayTurn ((logged (with_ 0 wave) anEnt).unit 0) 0 anEnt = false ∧
    anEnt.inc = (replay.die 10).inc ∧ ({ anEnt with inc := 1 } : SideEnt).inc ≠ (replay.die 10).inc ∧
    replay.walkKey 0 anEnt.key .write = .ok leaf ∧ replay.reachable 0 0 (anEnt.key.pa leaf) = true := by decide
theorem witness_FaultsAndWaits_traps :
    wave.live = true ∧ wave.wait = .none ∧ ({ wave with stErr := [0x2000] } : Agent).stErr = [0x2000] ∧
    ({ wave with tcause := 0x00010000 } : Agent).tcause.getLsbD 16 = true ∧ ({ wave with tcause := 0x00020000 } : Agent).tcause.getLsbD 16 = false ∧
    ({ wave with tcause := 0x00020000 } : Agent).tcause.getLsbD 17 = true ∧ ({ wave with tcause := 0x00040000 } : Agent).tcause.getLsbD 17 = false ∧
    ({ wave with tcause := 0x00040000 } : Agent).tcause.getLsbD 18 = true ∧ ({ wave with wait := .waitw 4 } : Agent).wait = .waitw 4 := by decide

theorem test_walks :
    (got (exec (.pageWalk 0 0x2000 false .read) (tabled (with_ 0 wave)))).map (fun t => t.ms.tlb) = some [leaf] ∧
    (got (exec (.pageWalk 0 0x3000 false .read) (tabled (with_ 0 wave)))).map (fun t => t.ms.tlb) = some [] ∧
    (agentIn (exec (.nextPageWalk (.agent 0)) (tabled (with_ 0 neighbour))) 0).map (fun a => (a.strm.next, a.strm.walk)) = some (some leaf, none) := by decide
theorem test_faults :
    (got (exec (.faultResolve 0) (tabled (faulted aFault held)))).bind (fun t => (t.agent? 0).map (fun a => (a.wait, t.ms.faults.length))) =
      some (.again, 0) ∧
    (got (exec (.faultResolve 0) (faulted aFault held))).map (fun t => t.ms.faults.length) = some 1 ∧
    trapIn (exec (.faultUnresolvable 0) { faulted aFault (mapped held) with rot := (trapping 0 (mapped wave)).rot, mem := (trapping 0 wave).mem }) 0 =
      some (5, 0x2000) := by decide
theorem test_replay :
    (got (exec (.sideLogReplay 0 0) replay)).map (fun t => (t.homeByte 0x2005, (t.unit 0).slog.length)) = some (7, 0) ∧
    (got (exec (.sideLogReplay 0 0) (logged replay { anEnt with inc := 1 }))).map (fun t => (t.homeByte 0x2005, t.rot.incDrop)) = some (0, 1) := by decide
theorem test_async_traps :
    trapIn (exec (.asyncTrap 0) (trapping 0 (mapped { wave with stErr := [0x2000] }))) 0 = some (5, 0x2000) ∧
    trapIn (exec (.asyncTrap 0) (trapping 0 (mapped { wave with tcause := 0x00040000, remVal := 3 }))) 0 = some (0x20, 3) ∧
    trapIn (exec (.asyncTrap 0) (trapping 0 (mapped { wave with tcause := 0x00030000, recVal := 4, engVal := 5 }))) 0 = some (0x22, 4) := by decide
def waitAfter (i : Instr) (w : Wait) : Option Wait := (agentIn (exec i { with_ 0 { wave with wait := w } with ntime := 1000 }) 0).map (fun a => a.wait)
theorem test_waits :
    waitAfter (.waitwYield 0) (.waitw 4) = some (.waitwOut 4) ∧ waitAfter (.waitwTimer 0) (.waitwOut 4) = some (.waitwReady 4) ∧
    waitAfter (.waitwReread 0) (.waitwReady 4) = some (.waitw 4) ∧ waitAfter (.wfiTimeout 0) (.wfi false 0) = some (.wfi false 0) ∧
    (agentIn (exec (.wfiTimeout 0) { with_ 0 { wave with wait := .wfi false 0 } with ntime := 1000001 }) 0).map (fun a => a.wait) = some (.wfi true 0) := by decide

/-! ### Coherence and the Orangery -/

/-- An empty sector, one that peer 3 owns modified, one of another partition; a line in DRAM; a CXL port; ways and limits. -/
def aReq (k : SpanKind) : SpanReq := { kind := k, peer := 2, sector := 0x20, lo := 0, hi := 3, part := 0, slot := 0 }
def peers : State := { State.reset with ms := { State.reset.ms with uses := [(128, 1)] }, plat := { State.reset.plat with dies := [(10, { link := .up }), (11, { link := .up }), (12, { link := .up })] } }
def owned (p : Nat) : State := { peers with ms := { peers.ms with dir := [(0x20, [{ peer := 3, st := .m, lo := 0, hi := 3, part := p }])] } }
def ways : State := { State.reset with ms := { State.reset.ms with moves := [(3, { kind := 2, slot := 0, owner := 5 }), (4, { kind := 1, slot := 0, owner := 5 })] } }
theorem witness_CoherenceAndOrangery :
    State.reset.backed 0 (256 * 0x20) = true ∧ peers.sharers 0x20 = [] ∧ peers.spanAsked (aReq .readOwn) = true ∧ peers.freeIdx 2 = some 0 ∧
    peers.reachable 0 0 (256 * 0x20) = true ∧ State.reset.spanAsked (aReq .readOwn) = false ∧ peers.ms.dirty = [] ∧
    (owned 1).spanAsked (aReq .readOwn) = true ∧ (State.reset.linesOf 3) = [] ∧
    (owned 0).sharers 0x20 = [{ peer := 3, st := .m, lo := 0, hi := 3, part := 0 }] ∧
    (owned 1).sharers 0x20 = [{ peer := 3, st := .m, lo := 0, hi := 3, part := 1 }] ∧
    (Tab.get 0 (owned 1).rot.errRing 0).getLsbD 63 = false ∧ (owned 1).rot.rsErr.getLsbD 63 = false ∧ paKind (64 * 5) = .dram ∧
    Tab.find? ways.ms.moves 3 = some { kind := 2, slot := 0, owner := 5 } ∧ Tab.find? ways.ms.moves 4 = some { kind := 1, slot := 0, owner := 5 } ∧
    (State.reset.waysOf 5 2).length = 0 ∧ State.reset.heldWays 5 = 0 ∧ State.reset.splitBusy 5 = false ∧
    (State.reset.lim 5).toNat / 65536 % 64 = 0 := by decide
/-- CXL ports 0 and 1 with devices; the port of the first interleave unit is present, then lost. -/
def ported (lost : List Nat) : State := { State.reset with plat := { State.reset.plat with cxl := [(0, 0x100000), (1, 0x100000)], cxlLost := lost } }
theorem witness_CoherenceAndOrangery_ports :
    0 ∉ (ported []).plat.cxlLost ∧ (∃ e ∈ (ported []).plat.cxl, e.1 = 0) ∧ 0 ∈ (ported [0]).plat.cxlLost ∧ paKind cxlBase = .cxl ∧
    ((ported []).plat.cxl.map (fun e => e.1)).getD ((cxlBase - cxlBase) / 4096 % (ported []).plat.cxl.length) 0 = 0 ∧
    State.reset.ms.thrDram = 0 ∧ (∀ p, p < 64 → (Tab.get 0 State.reset.rot.errRing p).getLsbD 63 = false) := by decide
theorem test_spans :
    (got (exec (.spanTransaction (aReq .readShared)) peers)).map (fun t => t.sharers 0x20) =
      some [{ peer := 2, st := .e, lo := 0, hi := 3, part := 0 }] ∧
    (got (exec (.spanTransaction (aReq .readShared)) (owned 0))).map (fun t => t.sharers 0x20) =
      some [{ peer := 2, st := .s, lo := 0, hi := 3, part := 0 }, { peer := 3, st := .o, lo := 0, hi := 3, part := 0 }] ∧
    (got (exec (.spanTransaction (aReq .readOwn)) (owned 0))).map (fun t => t.sharers 0x20) =
      some [{ peer := 2, st := .m, lo := 0, hi := 3, part := 0 }] ∧
    (got (exec (.spanTransaction (aReq .readOwn)) (owned 1))).map (fun t => (t.sharers 0x20).length) = some 1 ∧
    (got (exec (.spanEviction 0x20 0) (owned 0))).map (fun t => t.sharers 0x20) = some [] := by decide
theorem test_orangery :
    (got (exec (.patrolScrub 5 .corrected false) State.reset)).map (fun t => t.ms.corrDram) = some 1 ∧
    (got (exec (.patrolScrub 5 .uncorrected false) State.reset)).map (fun t => t.isDropped (64 * 5)) = some true ∧
    (got (exec (.orngLimWrite 5 0x80082001) State.reset)).map (fun t => t.lim 5) = some 0x80082001 ∧
    (got (exec (.orngLimWrite 5 0x80083301) State.reset)).map (fun t => (t.lim 5, t.rot.orngLimrej)) = some (0, 1) ∧
    (got (exec (.orngSplitWrite 5 0x00010000) State.reset)).map (fun t => Tab.get 0 t.rot.orngSplit 5) = some 0x80000000 ∧
    (got (exec (.wayCleaning 4) ways)).map (fun t => Tab.get 0 t.rot.orngWay 4) = some 0x40000005 ∧
    (got (exec .orangeryEpoch State.reset)).map (fun t => t.ms.hits) = some [] ∧
    (got (exec (.cxlDeviceLoss 2) { State.reset with plat := { State.reset.plat with cxl := [(2, 64)] } })).map (fun t => t.plat.cxlLost) = some [2] := by decide

/-! ### Launches, tasks and the package's events -/

/-- A CU of task launch 3 with one record; a fire held for die 10; a REMQ block at a quadrant; a packet of a new group. -/
def tasks : State :=
  { State.reset with
    units := [(0, { ustate := .running, launch := 3, waves := 1, deque := [{ entry := 0x5000, args := [1, 2, 3, 4, 5, 6] }] })]
    hub := { State.reset.hub with launches := [(3, { id := 3, kind := 2, waves := 1, live := [0] })], fires := [{ id := 1, launch := 3, part := 0, task := { entry := 0x6000 }, dies := [10], inputs := [] }] }
    plat := { State.reset.plat with dies := [(10, { link := .up, units := 3, opc := 7, opcTo := 7 })] } }
def groups : State :=
  { State.reset with
    hub := { State.reset.hub with launches := [(3, { id := 3, kind := 0, waves := 1, entry := 0x5000, curve := 0, ext := [4, 1, 1] })], packets := [{ pkind := 0, launch := 3, ord := 2, idx := [2, 0, 0], dest := 1 }] }
    plat := { State.reset.plat with dies := [(10, { link := .up, units := 3, opc := 7, opcTo := 7 })] } }
/-- A saving unit with its wave, its saved context, and the packet that resumes it; a hot unit that may migrate to CU 1. -/
def resident : Agent := { wave with launch := 3, gw := 0 }
def saving : State :=
  { with_ 0 resident with
    units := [(0, { ustate := .saving, launch := 3, waves := 1 })]
    hub := { State.reset.hub with launches := [(3, { id := 3, kind := 0, waves := 1, live := [0] })] }
    plat := groups.plat }
def aSaved : Saved := { from_ := 0, launch := 3, agents := [(1048576, resident)] }
def saved : State :=
  { groups with
    hub := { groups.hub with packets := [{ pkind := 2, launch := 3, ctx := 5, dest := 1 }], saves := [(5, aSaved)] } }
def hot : State :=
  { saving with
    ntime := 5000000
    units := [(0, { ustate := .running, launch := 3, waves := 1, temp := 7, holder := some 0 }), (1, { holder := some 0 })]
    hub := { saving.hub with launches := [(3, { id := 3, kind := 0, waves := 1, live := [0], migr := true })] } }
/-- A REMQ block of one VCSET (function 8 in the word of R326) at quadrant 0, from the sequencer of quadrant 1. -/
def remote : State :=
  { with_ 4096 sequencer with
    agents := [(4096, sequencer), (4097, { sequencer with cu := 1, wait := .remq none })]
    units := [(192, { ustate := .running, waves := 1 }), (193, { ustate := .running, waves := 1 })]
    quads := [(0, { inq := [{ agent := 4097, cmds := [] }] })] }
/-- VCSET's word, its command with a count, and a quadrant whose compute queue is full. -/
def vcsetWord : Word := 0x00004061
def vcsetOf (n : Nat) : Cmd := mkCmd 8 0 0 0 0 [BitVec.ofNat 32 n] (fun _ => 0) 0
def fullQuad : State := { remote with quads := [(0, { compQ := List.replicate 32 { cmd := { fn := 8 } } })] }

theorem witness_LaunchesAndTasks :
    0 < (tasks.unit 0).waves ∧ tasks.taskGroup 0 (tasks.unit 0).launch = true ∧ tasks.agent? (16 * 0 + 0) = none ∧
    (tasks.unit 0).deque = [] ++ [{ entry := 0x5000, args := [1, 2, 3, 4, 5, 6] }] ∧ (tasks.launch? 3).map (fun l => l.id) = some 3 ∧
    tasks.hub.fires[0]? = some { id := 1, launch := 3, part := 0, task := { entry := 0x6000 }, dies := [10], inputs := [] } ∧
    tasks.taskGroup (48 * (10 - 10) + 0) 3 = true ∧ (tasks.unit 0).deque.length < 64 ∧
    (remote.quad 0).inq = [{ agent := 4097, cmds := [] }] ∧ (remote.quad 0).capture = 0 ∧ (remote.quad 0).gen = none ∧
    remote.blockRun sequencer (remote.quad 0) [] 0 = (remote.quad 0, [], 0, some 0) ∧ remote.quadRuns 0 = true ∧
    (remote.agent? 4097).map (fun a => a.wait) = some (.remq none) ∧ sequencer.dGet 0 = 0 ∧
    (blockFields vcsetWord).map (fun f => f.1) = some 8 ∧ remote.lacks (vcsetOf 64) = false ∧
    ((remote.quad 0).enqueue (vcsetOf 64)).isSome = true ∧
    remote.cmdCond 0 (remote.quad 0).model (vcsetOf 64) = none ∧ remote.cmdCond 0 (remote.quad 0).model (vcsetOf 129) = some 2 ∧
    ((fullQuad.quad 0).enqueue (vcsetOf 64)).isNone = true := by decide
theorem witness_LaunchesAndTasks_groups :
    groups.hub.packets[0]? = some { pkind := 0, launch := 3, ord := 2, idx := [2, 0, 0], dest := 1 } ∧ groups.unitUp 1 = true ∧
    (groups.unit 1).ustate = .free ∧ min (Tab.get 7 groups.plat.opLimit 10) 0 ≤ (groups.die 10).opc ∧
    (groups.launch? 3).map (fun x => (x.id, x.kind, x.waves, x.susp)) = some (3, 0, 1, false) := by decide
theorem witness_LaunchesAndTasks_saves :
    (saving.unit 0).ustate = .saving ∧ saving.savable 0 = true ∧ (saving.unit 0).sfu = [] ∧ (saving.launch? 3).map (fun x => x.id) = some 3 ∧
    saved.hub.packets[0]? = some { pkind := 2, launch := 3, ctx := 5, dest := 1 } ∧ Tab.find? saved.hub.saves 5 = some aSaved ∧
    aSaved.agents = [(1048576, resident)] ∧ saved.unitUp 1 = true ∧ (saved.unit 1).ustate = .free ∧
    hot.mayMigrate 0 1 = true ∧ (groups.die 10).link = .up := by decide
/-- A header of a launch of one wave at 0x2000, 64-aligned, and one that is not well formed. -/
def headed (waves : Byte) : State :=
  let t := tabled State.reset
  { t with
    rot := { t.rot with bootSt := 0x08000000 }
    hub := { t.hub with parts := [(0, { part := 0, units := [0, 1], depLo := 0, depHi := 0 })] }
    mem := ([(0x2001, 0x50), (0x2009, waves), (0x2010, 1), (0x2014, 1), (0x2018, 1), (0x2024, 0xFF), (0x2025, 0xFF)] : List Host.Cell) ++ t.mem }
/-- A code table whose entry 0 is wave code for this part. -/
def codeTable (s : State) : List (Nat × List Nat) := [(0, [s.partCode])]
/-- The launch that this header gives. -/
def checked (waves : Byte) (codes : List (Nat × List Nat)) : Option Launch :=
  ((headed waves).readHeader 0 0x2000).2.bind (fun r => (headed waves).headerCheck 0 3 0x2000 r.1 r.2 codes)
theorem witness_LaunchesAndTasks_headers :
    7 ≤ (headed 1).rot.bootSt.toNat / 2 ^ 24 ∧ (Tab.find? (headed 1).hub.parts 0).isSome = true ∧
    (checked 1 (codeTable (headed 1))).isSome = true ∧ checked 17 (codeTable (headed 17)) = none ∧ checked 1 [] = none := by decide
/-- The power limit of 4,000 with draws above it, at it, within 200 and below; the dies' limits at 7 and all at 0. -/
def drawing (c : Nat) : State :=
  { State.reset with plat := { State.reset.plat with dies := [(2, { link := .up, opc := c, opcTo := c }), (10, { link := .up, opc := 7, opcTo := 7 })] } }
theorem witness_LaunchesAndTasks_bound :
    (groups.unit 1).boundPlots = [] ∧ ((copying aCopy).unit 0).boundPlots ≠ [] ∧ (groups.launch? 3).map (fun x => x.sync) = some 0 ∧
    (headed 1).hub.ending.contains 0 = false ∧ ((headed 1).readHeader 0 0x2000).2.isSome = true ∧
    (((headed 1).readHeader 0 0x9000).2).isNone = true ∧ (0x2020 : BitVec 64).toNat % 64 ≠ 0 ∧ sequencer.wait = .none ∧
    (saved.unit 1).boundPlots = [] ∧ (saved.launch? 3).map (fun x => x.sync) = some 0 := by decide
theorem witness_LaunchesAndTasks_power :
    min 4000 (max 1000 (State.reset.rot.pkgPlim.toNat % 2 ^ 16)) = 4000 ∧ 4000 < 4001 ∧ 0 < ((drawing 7).die 2).opc ∧
    (∀ d, d < 10 → 2 ≤ d → ((drawing 0).die d).opc = 0) ∧ 3800 + 200 ≤ 4000 ∧ 3799 + 200 < 4000 ∧
    State.reset.plat.belowMs < 4 := by decide

theorem test_starts :
    (got (exec (.taskStart 0 0) tasks)).bind (fun t => (t.agent? 0).map (fun a => (a.run.pc, a.sGet 2, a.sGet 7, a.beat))) =
      some (0x5000, 1, 6, BitVec.allOnes 96) ∧
    (got (exec (.heldFirePlace 0) tasks)).map (fun t => (t.hub.fires.length, (t.unit 0).deque.length)) = some (0, 2) ∧
    (got (exec (.groupStart 0) groups)).bind (fun t => (t.agent? 16).map (fun a => (a.run.pc, a.sGet 2, a.sGet 6, t.hub.packets.length))) =
      some (0x5000, 2, 4, 0) := by decide
theorem test_contexts :
    (got (exec (.contextSave 0) saving)).map (fun t => (t.agents.length, t.hub.saves.map (fun e => e.2.agents.length))) = some (0, [1]) ∧
    (got (exec (.contextRestore 0) saved)).bind (fun t => (t.agent? 16).map (fun a => (a.cu, a.run.resumed, t.hub.saves.length))) = some (1, false, 0) ∧
    (got (exec (.migration 0 1) hot)).map (fun t => t.hub.packets) = some [{ pkind := 2, launch := 3, ctx := 1, dest := 1 }] ∧
    (got (exec (.remqBlockDispatch 0) remote)).bind (fun t => (t.agent? 4097).map (fun a => a.wait)) = some (.remq (some 0)) := by decide
theorem test_launch_append :
    (got (exec (.launchAppend 0 3 0x2000 (codeTable (headed 1)) []) (headed 1))).map (fun t => t.hub.launches.map (fun l => (l.2.entry, l.2.queue))) = some [(0x5000, 3)] ∧
    (got (exec (.launchAppend 0 3 0x2000 (codeTable (headed 17)) []) (headed 17))).map (fun t => t.hub.launches.length) = some 0 := by decide
theorem test_power_window :
    (got (exec (.powerWindow 4001) (drawing 7))).map (fun t => (Tab.get 7 t.plat.opLimit 2, (t.die 2).opc, (t.die 10).opc)) = some (6, 6, 7) ∧
    (got (exec (.powerWindow 4001) (drawing 0))).map (fun t => ((t.die 2).opc, (t.die 10).opc)) = some (0, 6) ∧
    (got (exec (.powerWindow 3799) State.reset)).map (fun t => t.plat.belowMs) = some 1 ∧
    (got (exec (.opPointChange 10) groups)).map (fun t => (t.die 10).opc) = some 0 := by decide

/-! ### Reset, start-up and the platform -/

/-- Slot A with the public key of private key 1 and a signature over a header with entry 0x2000 and 64 zero bytes: r is the base
point's abscissa (nonce 1), and the second half below is (digest + r) modulo the group's order (FIPS 186-5). -/
def fwKey : List Byte := 4 :: (beBytes 66 curveG.1 ++ beBytes 66 curveG.2)
def fwSig : List Byte :=
  beBytes 66 curveG.1 ++ beBytes 66 0xC707C6EAC1B475F441959954FFBC1158C2D0BF0FDC3BF5DFA29A3203A8D6022E19517CE58C4ED5F7971A4D23854DEBF70BEF8804CDA6A541C675B92C4000EDA6E6
def fwHead : List Byte :=
  leBytes 4 0x4A584657 ++ List.replicate 8 0 ++ leBytes 4 64 ++ leBytes 8 0x2000 ++ List.replicate 40 0 ++ fwKey ++ [0, 0, 0] ++ fwSig
def flashed : State :=
  { State.reset with
    rot := { State.reset.rot with svnFuse := 0 }
    plat := { State.reset.plat with
      flash := fwHead.zipIdx.map (fun (b : Byte × Nat) => (b.2, b.1))
      rootHash := beBytes 64 0x27B9676AC0E98CF4BABA737F74F65B37D42F22661CC2AAEFEE5AFC12005E8680AC3698E53DD1F8FCBD238E72DBDBF8CEAAB33E5F7E3977E86BDD151E8525F2AD } }
theorem table_reads (l : List Byte) (k i : Nat) :
    Tab.get 0 ((l.zipIdx k).map (fun (b : Byte × Nat) => (b.2, b.1))) (k + i) = l.getD i 0 := by
  induction l generalizing k i with
  | nil => simp [Tab.get, Tab.find?]
  | cons b l ih =>
    cases i with
    | zero => simp [Tab.get, Tab.find?]
    | succ i =>
      have h := ih (k + 1) i
      rw [show k + 1 + i = k + (i + 1) by omega] at h
      simp only [Tab.get, Tab.find?, List.zipIdx_cons, List.map_cons] at h ⊢
      rw [if_neg (by omega)]
      simpa using h
theorem flash_bytes (off n : Nat) : flashed.flashBytes off n = (List.range n).map (fun i => fwHead.getD (off + i) 0) := by
  unfold State.flashBytes
  congr 1
  funext i
  have h := table_reads fwHead 0 (off + i)
  rwa [Nat.zero_add] at h
theorem witness_PlatformEvents_slot : flashed.fwCheck false = 0 := by
  simp only [State.fwCheck, State.fwHeader, flash_bytes]
  decide
theorem witness_PlatformEvents_no_slot : State.reset.fwCheck false = 1 ∧ State.reset.fwCheck true = 1 := by decide
theorem test_reset_halts :
    (got (exec (.packageReset true) State.reset)).map (fun t => (t.plat.halted, t.rot.bootSt, t.agents.length)) = some (true, 0x00010100, 0) := by decide

def staged (n : Nat) : State := { State.reset with rot := { State.reset.rot with bootSt := BitVec.ofNat 32 (n * 2 ^ 24) } }
def linkUp (n : Nat) (d : Die) : State := { staged 8 with plat := { State.reset.plat with dies := [(n, d)] } }
def aBoot : BootCfg := { dies := [], cxl := [], pkg := 5, dom := 6, parts := [], thrDram := 0, thrOrng := 0, podPorts := 0, epoch := 0, keys := [], traps := [], rsTrap := 0, images := [], objects := [], pairs := [] }
theorem witness_PlatformEvents :
    (staged 1).plat.halted = false ∧ (staged 1).rot.bootSt.toNat / 2 ^ 24 + 1 = 2 ∧ (staged 7).rot.bootSt.toNat / 2 ^ 24 + 1 = 8 ∧
    (staged 8).die 10 = {} ∧ ({} : Die).link = .down ∧ ({} : Die).enumAt = none ∧ 3 ≤ (staged 8).rot.bootSt.toNat / 2 ^ 24 ∧
    (((linkUp 10 { enumAt := some 0 }).ntime - 0).toNat < 16000000) ∧
    ((linkUp 10 { link := .up, silent := 100 }).die 10).silent = 100 ∧ ((linkUp 10 { link := .up, silent := 99 }).die 10).silent < 100 ∧
    ((linkUp 10 { link := .resetting }).die 10).link = .resetting ∧
    (linkUp 10 { link := .up, units := 3 }).unitUp 1 = true ∧ (linkUp 2 { link := .up, units := 3 }).unitUp 193 = true ∧
    Tab.get false (staged 8).ms.banksOff (1024 * 7 + 1023) = false ∧ ((linkUp 10 { link := .up }).link (16 + 10)).width = 16 ∧
    ((linkUp 14 { link := .up }).die 14).link = .up := by decide
/-- What stage 7 takes: two units of partition 1 with a key slot; a key slot above the table. -/
def loads (slot : Nat) : BootCfg := { aBoot with parts := [{ part := 1, units := [0, 1], depLo := 0, depHi := 0 }], keys := [(slot, 1, false)], pairs := [(1, 5)] }
theorem witness_PlatformEvents_more :
    (staged 6).rot.bootSt.toNat / 2 ^ 24 + 1 = 7 ∧ (staged 6).loadable (loads 3) = true ∧ (staged 6).loadable (loads 256) = false ∧
    ((loads 3).images.map (fun e => e.1)).Nodup ∧ (staged 8).hub.ending = [] ∧ (staged 8).rot.capGen.getLsbD 0 = false ∧
    ({ (staged 8).rot with capGen := 3 } : Rot).capGen.getLsbD 0 = true ∧ State.reset.buildCap.rot.cap ≠ State.reset.rot.cap ∧
    ((linkUp 10 { link := .up }).capStep.endParts.die 10).link = .up ∧
    ((linkUp 14 { link := .up }).die 14).link = .up ∧ ((linkUp 10 { link := .up, units := 3 }).unit 1).ustate = .free ∧
    (({ linkUp 10 { link := .up, units := 3 } with units := [(1, { ustate := .running })] } : State).unit 1).ustate = .running ∧
    ({ State.reset with rot := { State.reset.rot with bootSt := 0x08000301 } } : State).rot.bootSt.getLsbD 9 = true := by decide
theorem test_platform_1 :
    (got (exec (.bootStage 2 aBoot) (staged 1))).map (fun t => t.rot.bootSt) = some 0x02000000 ∧
    (got (exec (.bootStage 6 aBoot) (staged 5))).map (fun t => (t.plat.pkg, t.plat.dom)) = some (5, 6) ∧
    (got (exec (.enumeration 10) (linkUp 10 { present := 5 }))).map (fun t => ((t.die 10).units, (t.die 10).inc, t.rot.capGen)) = some (5, 1, 1) ∧
    (got (exec (.heartbeat 10 false []) (linkUp 10 { link := .up, silent := 90 }))).map (fun t => (t.die 10).silent) = some 100 ∧
    (got (exec (.isolation 10) (linkUp 10 { link := .up, silent := 100, units := 3 }))).map (fun t => ((t.die 10).link, (t.die 10).units)) =
      some (.resetting, 0) := by decide
theorem test_platform_2 :
    (got (exec (.chipletSelfTest 10 7) (linkUp 10 { link := .resetting }))).map (fun t => ((t.die 10).link, (t.die 10).present)) = some (.down, 7) ∧
    (got (exec (.heartbeat 10 true [3, 5]) (linkUp 10 { link := .up, silent := 90 }))).map (fun t => ((t.die 10).silent, (t.unit 1).temp)) = some (0, 5) ∧
    (got (exec (.staleResponseDrop 10 1 11 0) (staged 8))).map (fun t => t.rot.incDrop) = some 1 ∧
    (got (exec (.staleResponseDrop 10 0 11 0) (staged 8))).map (fun t => t.rot.incDrop) = some 0 ∧
    (got (exec (.fenceCu 10 1 true) (linkUp 10 { link := .up, units := 3 }))).map (fun t => (t.die 10).units) = some 1 ∧
    (got (exec (.fenceQuadrant 2 0 true) (linkUp 2 { link := .up, units := 3 }))).map (fun t => (t.die 2).units) = some 2 := by decide
theorem test_platform_3 :
    (got (exec (.fenceDramBank 7 1023) (staged 8))).map (fun t => (Tab.get false t.ms.banksOff 8191, t.rot.nFenced)) = some (true, 1) ∧
    (got (exec (.fenceLinkLane 10 15) (linkUp 10 { link := .up }))).map (fun t => (t.link 26).width) = some 8 ∧
    (got (exec (.fenceDie 14 true) (linkUp 14 { link := .up }))).map (fun t => (t.die 14).link) = some .fenced ∧
    (got (exec (.svnFuseWrite 3) (staged 8))).map (fun t => t.rot.svnFuse) = some 3 ∧
    (got (exec (.registerWrite 0x260010 0x1FFFF) (staged 8))).map (fun t => t.rot.domTmo) = some 0xFFFF := by decide

/-! ### Requests -/

/-- Flows of die 14 at entries 16 (a task queue) and 3 (management), with a mapped buffer at 0x2000 and a task queue of 16 records. -/
def aFlow : Flow := { en := true, tq := 1, lgslot := 6, ep := 9, svc := 2, nslot := 4, entry := 0x5000, buf := 0x2000 }
def flowing (i : Nat) (on : Bool) (full : Bool) : State :=
  let t := tabled (linkUp 14 { link := .up })
  { t with
    hub := { t.hub with flows := [(i, aFlow)] }
    rot := { t.rot with tqCfg := if on then [(1, 0x8000000000100004)] else [], tqTail := if full then [(1, 16)] else [] } }
/-- A request has come through the resident service's entries. -/
def asked : State := { linkUp 14 { link := .up } with plat := { (linkUp 14 { link := .up }).plat with hostQ := [.mgmt] } }
def aUe (n : Nat) : UeReq := { die := 14, ep := 9, svc := 2, srcEp := 1, srcSvc := 1, payload := List.replicate n 7 }
theorem witness_Requests :
    ((flowing 16 true false).die 14).link = .up ∧ 8 ≤ (flowing 16 true false).rot.bootSt.toNat / 2 ^ 24 ∧
    (flowing 16 true false).flowMatch (aUe 64) = some (16, aFlow) ∧ (flowing 3 true false).flowMatch (aUe 64) = some (3, aFlow) ∧
    (flowing 16 true false).flowMatch { aUe 1 with ep := 8 } = none ∧ 2 ^ max 6 (min 15 aFlow.lgslot) < (aUe 65).payload.length ∧
    (aUe 64).payload.length ≤ 2 ^ max 6 (min 15 aFlow.lgslot) ∧ (flowing 16 true true).tqFull 0 1 = true ∧
    (flowing 16 true false).tqOn 0 1 = true ∧ (flowing 16 true false).tqFull 0 1 = false ∧
    (flowing 16 true false).linkOk 0 0x2000 64 = true ∧ Tab.find? (staged 8).hub.parts 63 = none := by decide
theorem witness_Requests_management :
    HostEvent.mgmt ∈ asked.plat.hostQ ∧ HostEvent.mgmt ∉ (staged 8).plat.hostQ ∧ (staged 8).plat.halted = false ∧
    (flowing 16 true false).linkOk 0 0x9000 64 = false ∧ ((staged 8).die 11).link ≠ .up ∧ ({ asked.plat with bootHash := List.replicate 64 0 } : Plat).bootHash.length = 64 ∧
    (Tab.get (List.replicate 64 0) asked.plat.meas 3 : List Byte).length = 64 := by decide
theorem test_requests :
    (got (exec (.ueRequest (aUe 4)) (flowing 16 true false))).map (fun t => (t.homeByte 0x2003, Tab.get 0 t.rot.tqTail 1)) = some (7, 1) ∧
    (got (exec (.ueRequest (aUe 65)) (flowing 16 true false))).map (fun t => t.plat.dropReq) = some 1 ∧
    (got (exec (.managementRequest (.powerLimit 2000)) asked)).map (fun t => t.rot.pkgPlim) = some 2000 ∧
    (got (exec (.managementRequest .status) asked)).map (fun t => t.plat.reports.map (fun r => r.take 4)) = some [[0, 0, 0, 8]] ∧
    (got (exec (.managementRequest (.createPart { part := 63, units := [2], depLo := 0, depHi := 0 })) asked)).map
      (fun t => (t.unit 2).holder) = some (some 63) := by decide

/-! ### Engine commands and events -/

/-- A sequencer's quadrant with an engine state. -/
def quadded (x : QuadSt) : State :=
  { with_ 4096 sequencer with
    units := [(192, { ustate := .running, waves := 1 }), (193, { ustate := .reserved, leader := 192 }), (194, { ustate := .reserved, leader := 192 }),
              (195, { ustate := .reserved, leader := 192 })]
    quads := [(0, x)] }
/-- A dispatch model: chains on banks 1 (of FP32) and 2 (at its limit), a shadow on banks 2 and 3; one WLOAD of BF16. -/
def aModel : DModel :=
  { nW := 1
    fmt := 1
    banks := [(1, { chainOpen := true, kind := 1 }), (2, { chainOpen := true, kind := 1, shadow := true, count := 131072 }), (3, { shadow := true })] }
def condOf (c : Cmd) : Option Nat := (quadded { model := aModel }).cmdCond 0 aModel c

theorem witness_EngineCommands :
    (quadded { model := aModel }).mover = some (4096, sequencer) ∧ sequencer.profile = .sequencer ∧ sequencer.unit - 192 = 0 ∧
    (quadded { model := aModel }).quad 0 = { model := aModel } ∧ ({ model := aModel } : QuadSt).gen = none ∧
    ({ model := aModel } : QuadSt).capture = 0 ∧ ({ model := aModel } : QuadSt).loadQ.length < 32 ∧
    32 ≤ ({ loadQ := List.replicate 32 { cmd := {} } } : QuadSt).loadQ.length ∧
    16 ≤ ({ storeQ := List.replicate 16 { cmd := { fn := 5 } } } : QuadSt).storeQ.length := by decide
theorem witness_EngineCommands_conditions :
    condOf { fn := 0, ctl := 0x7F400002 } = none ∧ condOf { fn := 0, ctl := 0x7F40000E } = some 2 ∧ condOf { fn := 1, ctl := 0x400002 } = none ∧
    condOf { fn := 1, ctl := 0xC00002 } = some 2 ∧ condOf { fn := 5, ctl := 0x400003 } = none ∧ condOf { fn := 5, ctl := 0x400004 } = some 2 ∧
    condOf { fn := 2, bank := 1 } = none ∧ condOf { fn := 2, bank := 0 } = some 4 ∧ condOf { fn := 2, bank := 2 } = some 6 ∧
    (quadded {}).cmdCond 0 {} { fn := 2, bank := 1 } = some 1 ∧
    (quadded {}).cmdCond 0 { aModel with fmt := 0 } { fn := 2, bank := 1 } = some 5 := by decide
theorem witness_EngineCommands_chains :
    condOf { fn := 3, bank := 0, anchor := 127 } = none ∧ condOf { fn := 3, bank := 0, anchor := 128 } = some 2 ∧
    condOf { fn := 3, bank := 0, anchor := -161 } = some 2 ∧ condOf { fn := 3, bank := 0, imm := 1, anchor := 128 } = none ∧
    condOf { fn := 3, bank := 1 } = some 3 ∧ condOf { fn := 4, bank := 1 } = none ∧ condOf { fn := 4, bank := 0 } = some 4 ∧
    condOf { fn := 9, bank := 2 } = some 7 ∧ condOf { fn := 8, imm := 128 } = none ∧ condOf { fn := 8, imm := 129 } = some 2 ∧
    condOf { fn := 10, bank := 3 } = none ∧ condOf { fn := 11, bank := 1 } = some 7 := by decide
theorem witness_EngineCommands_fusion :
    aModel.anyOpen = true ∧ ({} : DModel).anyOpen = false ∧ ({} : QuadSt).fused = none ∧ ({ fused := some 4 } : QuadSt).fused = some 4 ∧
    ({ fused := some 4 } : QuadSt).loadQ = [] ∧ (0 : Nat) % 4 = [0, 2, 0, 1, 0].getD (4 : BitVec 4).toNat 0 ∧
    (0 : Nat) % 4 ≠ [0, 2, 0, 1, 0].getD (1 : BitVec 4).toNat 0 ∧
    ∀ p ∈ edgeParts 4, ((quadded {}).unit (192 + (0 + p.q))).ustate = .reserved ∧ ((quadded {}).unit (192 + (0 + p.q))).leader = 192 + 0 := by decide

/-- The quadrant after a command of the sequencer whose registers are as listed, or the trap it takes. -/
def quadAfter (x : QuadSt) (regs : Tab Word) (i : Instr) : Option QuadSt :=
  (got (exec i { quadded x with agents := [(4096, Machine.Agent.regs sequencer regs)] })).map (fun t => t.quad 0)
def opTrap (x : QuadSt) (regs : Tab Word) (i : Instr) : Option (Nat × DWord) :=
  trapIn (exec i { quadded x with
    agents := [(4096, mapped (Machine.Agent.regs sequencer regs))]
    rot := (trapping 0 wave).rot
    mem := (trapping 0 wave).mem }) 4096
theorem test_engine_commands :
    (quadAfter { model := aModel } [(4, 0x100), (6, 0x7F400002), (7, 8)] (.wload 4 6 3)).map (fun x => x.loadQ.map (fun e => (e.cmd.fn, e.cmd.half))) =
      some [(0, 2)] ∧
    (quadAfter { model := aModel } [] (.mmul 5 1 1 0)).map (fun x => x.compQ.map (fun e => (e.cmd.ring, e.cmd.imm, e.cmd.bank, e.cmd.half))) =
      some [(5, 1, 1, 1)] ∧
    (quadAfter { model := aModel } [(4, 0xFFFFFFFF)] (.chb 4 0 0 0)).map (fun x => x.compQ.map (fun e => e.cmd.anchor)) = some [-1] ∧
    (quadAfter { model := aModel } [(6, 0x400003)] (.accst 4 6 1 2)).map (fun x => x.storeQ.map (fun e => (e.cmd.bank, e.cmd.tok))) = some [(1, 2)] ∧
    (quadAfter { model := aModel } [(4, 64)] (.vcset 4 0)).map (fun x => (x.compQ.map (fun e => e.cmd.imm), x.vc)) = some ([64], 128) := by decide
theorem test_engine_chains :
    (quadAfter { model := aModel } [] (.che 1 0)).map (fun x => (x.model.bank 1).chainOpen) = some false ∧
    (quadAfter { model := aModel } [] (.shdw 1 0)).map (fun x => (x.model.bank 1).shadow) = some true ∧
    (quadAfter { model := aModel } [] (.scmt 3 0)).map (fun x => (x.model.bank 3).shadow) = some false ∧
    (quadAfter { model := aModel } [] (.sdsc 3 0)).map (fun x => (x.model.bank 3).shadow) = some false ∧
    (quadAfter { model := aModel } [(4, 0x100), (6, 0x400002)] (.rload 4 6 7 0)).map (fun x => x.loadQ.map (fun e => e.cmd.ring)) = some [7] := by decide
theorem test_engine_traps :
    opTrap { model := aModel } [] (.mmul 5 1 0 0) = some (0x0A, 4) ∧ opTrap {} [(4, 65537)] (.nest 4 8 0) = some (0x0A, 2) ∧
    opTrap { model := aModel } [] .qsplit = some (0x0A, 10) ∧ opTrap {} [] (.qfuse 1) = some (0x0A, 9) := by decide
theorem test_nests :
    (quadAfter {} [(4, 3), (8, 5)] (.nest 4 8 1)).map (fun x => ((nestLevel x.shadowNest 1).count, Tab.get 0 (nestLevel x.shadowNest 1).steps 0)) =
      some (3, 5) ∧
    (quadAfter { shadowNest := [(0, { count := 2 })] } [] (.go 3)).map (fun x => (x.capture, (nestLevel x.activeNest 0).count)) = some (3, 2) ∧
    (quadAfter {} [] (.qfuse 4)).map (fun x => x.fused) = some (some 4) ∧
    (quadAfter { fused := some 4, vc := 5 } [] .qsplit).map (fun x => (x.fused, x.vc)) = some (none, 128) := by decide

/-- Entries of the queues: a VCSET, a CHB of FP32, a SHDW, a WLOAD read, an MMUL that pops, an ACCST of no rows. -/
def anEntryOf (fn imm : Nat) (issued : Bool) : QEnt := { cmd := { fn := fn, imm := imm, bank := 1, half := 1 }, issued := issued }
def running (es : List QEnt) : State := quadded { compQ := es, chains := [(1, { kind := 1, work := [(0, { fp := 7 })] })] }
theorem witness_EngineEvents :
    ((running []).unit (192 + 0)).ustate = .running ∧ (running []).agent? (4096 + 0) = some sequencer ∧
    ((running [anEntryOf 2 0 true, anEntryOf 8 5 false]).quad 0).compQ = [anEntryOf 2 0 true] ++ anEntryOf 8 5 false :: [] ∧
    (∀ y ∈ [anEntryOf 2 0 true], y.issued = true) ∧ (anEntryOf 8 5 false).cmd.tok = 0 ∧ (anEntryOf 8 5 false).cmd.fn = 8 ∧
    (anEntryOf 3 3 false).cmd.fn = 3 ∧ (anEntryOf 3 3 false).cmd.imm < 4 ∧ (anEntryOf 9 0 false).cmd.fn = 9 ∧
    firstWaiting ((running [{ cmd := { tok := 1 } }]).quad 0).compQ = some (0, { cmd := { tok := 1 } }) ∧
    ((running [{ cmd := { tok := 1 } }]).quad 0).pops (popsOf .compute 1) = none := by decide
theorem witness_EngineEvents_retire :
    (anEntryOf 0 0 true).issued = true ∧ (anEntryOf 0 0 true).err = none ∧ (anEntryOf 0 0 true).cmd.fn = 0 ∧
    (anEntryOf 2 0 true).cmd.imm = 0 ∧ (anEntryOf 5 0 true).rows = 0 ∧ (anEntryOf 5 0 true).cmd.ctl.getLsbD 4 = false ∧
    ((quadded { loadQ := [anEntryOf 0 0 true] }).quad 0).loadQ = anEntryOf 0 0 true :: [] ∧
    ((quadded { compQ := [anEntryOf 2 0 true] }).quad 0).compQ = anEntryOf 2 0 true :: [] ∧
    ((quadded { storeQ := [anEntryOf 5 0 true] }).quad 0).storeQ = anEntryOf 5 0 true :: [] ∧
    ((running [anEntryOf 8 5 false]).quad 0).queue .compute = [anEntryOf 8 5 false] ∧ (anEntryOf 8 5 false).issued = false := by decide
/-- A captured body of two commands, the first to be emitted and the second. -/
def emitting (j : Nat) : State := quadded { body := [{ fn := 2 }, { fn := 2 }], gen := some ([0, 0, 0, 0, 0, 0], j) }
theorem witness_EngineEvents_nest :
    ((emitting 1).quad 0).gen = some ([0, 0, 0, 0, 0, 0], 1) ∧ (((emitting 1).quad 0).enqueue (((emitting 1).quad 0).body.getD 1 {})).isSome = true ∧
    (∀ l, l < 6 → (nestLevel ((emitting 1).quad 0).activeNest l).count = 1) ∧ 1 < ((emitting 1).quad 0).body.length ∧
    0 + 1 < ((emitting 0).quad 0).body.length ∧ (((emitting 1).quad 0).body.getD 1 {}).kind ≠ 2 ∧ (((emitting 1).quad 0).body.getD 1 {}).kind ≠ 1 := by decide
/-- Commands with token fields: a VCSET that pops FIFO 3 and pushes FIFO 1, a WLOAD that pops FIFO 2, an ACCST that pops FIFO 1; FIFOs
empty, holding one and full; an MMUL whose tile stands in ring 5. -/
def tokened (n : Nat) : State := quadded { compQ := [{ cmd := { fn := 8, imm := 5, tok := 6 } }], tok := [(1, 16), (2, n), (3, n)] }
def loadEnt : QEnt := { cmd := { fn := 0, tok := 4, ctl := 0x08400009, stride := 128, addr := 0x100, half := 1, tag := 1 } }
def storing : State := quadded { storeQ := [{ cmd := { fn := 5, tok := 1, tag := 1 } }], tok := [(1, 2)] }
def multiplying : State := quadded { rings := [(5, { count := 1, slots := [(0, {})] })], chains := [(1, {})], compQ := [{ cmd := { fn := 2, ring := 5, bank := 1 } }] }
theorem witness_EngineEvents_tokens :
    Tab.get 0 ((tokened 0).quad 0).tok 3 = 0 ∧ Tab.get 0 ((tokened 1).quad 0).tok 3 ≠ 0 ∧ (6 : BitVec 4).getLsbD 2 = true ∧ (6 : BitVec 4).getLsbD 0 = false ∧
    16 ≤ Tab.get 0 ((tokened 1).quad 0).tok 1 ∧ Tab.get 0 ((tokened 1).quad 0).tok 0 < 16 ∧ (6 : BitVec 4).getLsbD 1 = true ∧
    multiplying.mmulReady 0 (multiplying.quad 0) { fn := 2, ring := 5, bank := 1 } = true ∧
    ((quadded { loadQ := [loadEnt], tok := [(2, 1)] }).quad 0).queue .load = [] ++ loadEnt :: [] ∧ loadEnt.cmd.kind = 1 ∧ loadEnt.cmd.bits = 8 ∧
    loadEnt.cmd.addr.toNat + 127 * loadEnt.cmd.stride.toNat + 128 ≤ 0x1000000 ∧ sequencer.opens = [] ∧ ((quadded {}).unit 192).slog = [] ∧
    (storing.quad 0).storeQ.map (fun e => e.cmd.fn) = [5] ∧ (storing.quad 0).bank 0 = {} := by decide
theorem witness_EngineEvents_plots (o : Nat) : storing.enginePlot (192 + 0) o 1 = none :=
  List.find?_eq_none.mpr fun _ _ h => Bool.noConfusion h
/-- A nest of two iterations of level 0 and three of level 1, at the first and at the last of level 0. -/
def nested (i : Nat) : State :=
  quadded { body := [{ fn := 2 }], activeNest := [(0, { count := 2 }), (1, { count := 3 })], gen := some ([i, 0, 0, 0, 0, 0], 0) }
theorem witness_EngineEvents_levels :
    (nestLevel ((nested 0).quad 0).activeNest 0).count = 2 ∧ 0 + 1 < (nestLevel ((nested 0).quad 0).activeNest 0).count ∧
    (nestLevel ((nested 1).quad 0).activeNest 0).count ≤ 1 + 1 ∧ 0 + 1 < (nestLevel ((nested 1).quad 0).activeNest 1).count ∧
    0 + 1 = ((nested 0).quad 0).body.length := by decide
theorem test_nest_order :
    (got (exec (.nestEmit 0) (nested 0))).map (fun t => (t.quad 0).gen) = some (some ([1, 0, 0, 0, 0, 0], 0)) ∧
    (got (exec (.nestEmit 0) (nested 1))).map (fun t => (t.quad 0).gen) = some (some ([0, 1, 0, 0, 0, 0], 0)) := by decide
theorem witness_EngineEvents_sums :
    -(2 ^ 127) < (0 : Int) ∧ (0 : Int) < 2 ^ 127 ∧ (2 : Int) ^ 127 ≤ 2 ^ 127 ∧ -(2 : Int) ^ 127 ≤ -(2 ^ 127) := by decide
def quadOf (o : Out) : Option QuadSt := (got o).map (fun t => t.quad 0)
theorem test_engine_events :
    (quadOf (exec (.engineEntryIssue 0 .compute .clean) (running [anEntryOf 8 5 false]))).map (fun x => (x.vc, x.compQ.map (fun e => e.issued))) = some (5, [true]) ∧
    (quadOf (exec (.engineEntryIssue 0 .compute .clean) (running [anEntryOf 9 0 false]))).map (fun x => (x.chain 1).shadow) = some (some [(0, { fp := 7 })]) ∧
    (quadOf (exec (.engineEntryRetire 0 .load) (quadded { loadQ := [{ anEntryOf 0 0 true with stage := some { fmt := 2 } }] }))).map
      (fun x => (x.nW, (Tab.find? x.latch 0).map (fun t => t.fmt), x.loadQ.length)) = some (1, some 2, 0) ∧
    (quadOf (exec (.nestEmit 0) (emitting 1))).map (fun x => (x.compQ.length, x.gen, x.body.length)) = some (1, none, 0) := by decide

/-! ### Policy code -/

/-- A decision of partition 0 whose registers are as listed: q1 = 5, q2 = 7. -/
def aDec : Decision := { ev := { q1 := 0 }, q := [(1, 5), (2, 7)], snapQ := [(64, [3, 0, 0, 0, 0, 0, 0, 1]), (65, [2, 0, 0, 0, 0, 0, 0, 1])] }
def deciding (x : Decision) : State :=
  { State.reset with
    cur := .policy 0
    hub := { State.reset.hub with pol := [(0, { dec := some x, pm := [(3, 9)] })], parts := [(0, { part := 0, units := [0, 1], depLo := 0, depHi := 0 })] }
    units := [(0, { holder := some 0, ustate := .running, waves := 1 }), (1, { holder := some 0 })]
    plat := { State.reset.plat with dies := [(10, { link := .up, units := 3 })] } }
def decIn (i : Instr) (x : Decision) : Option Decision := (got (exec i (deciding x))).bind (fun t => (t.pol 0).dec)
def qIn (i : Instr) (r : BitVec 3) : Option Word := (decIn i aDec).map (fun y => y.get r)

theorem aDec_decides (n : Nat) (h : n ≤ 34) : (deciding aDec).Decides 0 aDec n :=
  ⟨rfl, by decide, Nat.le_trans (Nat.le_trans (Nat.le_of_eq (Nat.zero_add n)) h) (by decide : 34 ≤ (deciding aDec).budget 0)⟩
theorem witness_PolicyOperations :
    (deciding aDec).Decides 0 aDec 34 ∧ (deciding { aDec with cyc := 256 }).Decides 0 { aDec with cyc := 256 } 0 ∧
    (deciding { aDec with cyc := 256 }).budget 0 < 256 + 1 ∧
    Tab.get 0 aDec.q 1 = 5 ∧ Tab.get 0 aDec.q 2 = 7 ∧ (∀ e ∈ ({} : Decision).snapU, False) ∧
    aDec.snapQ = [(64, [3, 0, 0, 0, 0, 0, 0, 1])] ++ (65, [2, 0, 0, 0, 0, 0, 0, 1]) :: [] ∧
    nth 0 [(2 : Word), 0, 0, 0, 0, 0, 0, 1] 7 &&& Tab.get 0 aDec.q 0 = Tab.get 0 aDec.q 0 ∧ (nth 0 [(2 : Word), 0, 0, 0, 0, 0, 0, 1] 7).getLsbD 0 = true :=
  ⟨aDec_decides 34 (by decide), ⟨rfl, by decide, by decide⟩, by decide, by decide, by decide, by decide, by decide, by decide, by decide⟩
theorem test_policy_registers :
    qIn (.polLdi 4 0xFF) 4 = some 0xFF ∧ qIn (.polLdih 1 0xFF) 1 = some 0x5FF ∧ qIn (.polAdd 4 1 2) 4 = some 12 ∧ qIn (.polSub 4 1 2) 4 = some 0xFFFFFFFE ∧
    qIn (.polAnd 4 1 2) 4 = some 5 ∧ qIn (.polOr 4 1 2) 4 = some 7 ∧ qIn (.polXor 4 1 2) 4 = some 2 ∧ qIn (.polMinu 4 1 2) 4 = some 5 ∧
    qIn (.polMaxu 4 1 2) 4 = some 7 ∧ qIn (.polShl 4 1 31) 4 = some 0x80000000 ∧ qIn (.polShr 4 1 1) 4 = some 2 ∧
    qIn (.polAddi 4 1 31) 4 = some 4 ∧ qIn (.polLdp 4 3) 4 = some 9 := by decide
theorem test_policy_records :
    qIn (.polArgminq 4 0 0) 4 = some 65 ∧ qIn (.polArgmaxq 4 0 0) 4 = some 64 ∧ qIn (.polArgminu 4 0 0) 4 = some 0xFFFFFFFF ∧
    qIn (.polArgmaxu 4 0 0) 4 = some 0xFFFFFFFF ∧ (decIn (.polRqf 1 2 0) { aDec with q := [(2, 64)] }).map (fun y => y.get 1) = some 3 ∧
    (decIn (.polRuf 1 2 0) { aDec with snapU := [(7, [8])] }).map (fun y => y.get 1) = some 8 ∧
    (got (exec (.polStp 2 6) (deciding aDec))).map (fun t => (t.pol 0).pm) = some [(3, 9), (6, 7)] := by decide
theorem test_policy_branches :
    (decIn (.polBeq 1 2 9) aDec).map (fun y => (y.pc, y.cyc)) = some (1, 1) ∧ (decIn (.polBne 1 2 9) aDec).map (fun y => (y.pc, y.cyc)) = some (9, 2) ∧
    (decIn (.polBltu 1 2 9) aDec).map (fun y => y.pc) = some 9 ∧ (decIn (.polBgeu 1 2 9) aDec).map (fun y => y.pc) = some 1 ∧
    (got (exec (.polAdd 4 1 2) (deciding { aDec with cyc := 256 }))).map (fun t => ((t.pol 0).dec, Tab.get 0 t.rot.polCnt 1)) = some (none, 1) := by decide

/-- Decisions whose events are of the entry and trigger. -/
def decOf (entry trig : Nat) (q1 q3 : Word) (a b : Word) : Decision := { ev := { entry := entry, trig := trig, q1 := q1, q3 := q3 }, q := Tab.set 0 (Tab.set 0 [] 1 a) 2 b }
theorem witness_PolicyDecisions :
    (deciding (decOf 0 2 0 0 64 0xFFFFFFFF)).Decides 0 (decOf 0 2 0 0 64 0xFFFFFFFF) 1 ∧
    ((decOf 0 2 0 0 64 0xFFFFFFFF).ev.entry = 0 ∧ (decOf 0 2 0 0 64 0xFFFFFFFF).ev.trig = 2) ∧
    Tab.get 0 (decOf 0 2 0 0 64 0xFFFFFFFF).q 2 = 0xFFFFFFFF ∧ (deciding (decOf 1 0 0 0 0 0)).Decides 0 (decOf 1 0 0 0 0 0) 1 ∧
    (deciding (decOf 2 0 0 0 0 0)).Decides 0 (decOf 2 0 0 0 0 0) 1 ∧ (decOf 2 0 0 0 0 0).ev.q3 ≠ 0xFFFFFFFF ∧
    (decOf 2 0 0 0xFFFFFFFF 0 0).ev.q3 = 0xFFFFFFFF ∧ ((deciding aDec).unit 0).holder = some 0 ∧ (deciding aDec).unitUp 0 = true ∧
    ((deciding aDec).unit 0).ustate = .running ∧ ((deciding aDec).unit 1).ustate ≠ .running ∧ 223 < (224 : Word).toNat :=
  ⟨⟨rfl, by decide, by decide⟩, by decide, by decide, ⟨rfl, by decide, by decide⟩, ⟨rfl, by decide, by decide⟩, by decide, by decide, by decide, by decide,
    by decide, by decide, by decide⟩
/-- PICK's four triggers: a queue's head launch and a free unit; a task queue's record and a task group; a victim with a task; a
held fire of die 10. -/
def aLaunch : Launch := { id := 3, part := 0, kind := 0, waves := 1, entry := 0x5000, ext := [4, 1, 1] }
def pick0 : State :=
  { deciding (decOf 0 0 0 0 64 1) with
    hub := { (deciding (decOf 0 0 0 0 64 1)).hub with launches := [(3, aLaunch)] } }
def taskUnits (ag : Agent) : State :=
  { with_ 1 ag with
    units := [(0, { holder := some 0, ustate := .running, launch := 3, waves := 1, deque := [{ entry := 0x6000 }] }),
              (1, { holder := some 0, ustate := .running, launch := 3, waves := 1 })]
    hub := { (deciding (decOf 0 1 0 0 1 0)).hub with
      launches := [(3, { id := 3, part := 0, kind := 2, waves := 1, live := [0, 1] })]
      fires := [{ id := 7, launch := 3, part := 0, task := { entry := 0x6000 }, dies := [10], inputs := [] }] }
    plat := { State.reset.plat with dies := [(10, { link := .up, units := 3 })] }
    rot := { (with_ 1 ag).rot with tqCfg := [(1, 0x8000000000002000)], tqTail := [(1, 1)] } }
def thief : Agent := { wave with cu := 1, launch := 3, wait := .steal none }
theorem witness_PolicyDecisions_picks :
    pick0.pickable 0 64 = some aLaunch ∧ pick0.pickOk aLaunch 1 = true ∧ (pick0.unit 1).holder = some 0 ∧ pick0.unitUp 1 = true ∧
    pick0.starveNs 0 = 0 ∧ aLaunch.sync ≤ 1 ∧ pick0.savedOf aLaunch = [] ∧ pick0.launch? aLaunch.id = some aLaunch ∧
    aLaunch.seek (aLaunch.planePoints + 1) aLaunch.walk ≠ none ∧ pick0.pickable 0 65 = none := by decide
theorem witness_PolicyDecisions_tasks :
    (taskUnits thief).tqReady 0 1 = true ∧ (taskUnits thief).taskSlot 0 = true ∧ (taskUnits thief).agent? (16 * 0 + 0) = none ∧
    ((taskUnits thief).unit 0).holder = some 0 ∧ (taskUnits thief).unitUp 0 = true ∧ (taskUnits thief).starveNs 0 = 0 ∧
    (taskUnits thief).agent? 1 = some thief ∧ thief.wait = .steal none ∧ 0 ≠ thief.unit ∧ (taskUnits thief).taskGroup 0 thief.launch = true ∧
    ((taskUnits thief).unit 0).deque = { entry := 0x6000 } :: [] ∧ ((taskUnits thief).unit thief.unit).deque.length < 64 ∧
    ((taskUnits thief).hub.fires.find? (fun y => y.id == 7)).isSome = true ∧ (1 : Word).getLsbD (0 / 48) = true ∧
    (taskUnits thief).taskGroup (48 * (0 / 48) + 0) 3 = true := by decide
/-- An event that waits at partition 0, with an image that decides or without. -/
def eventful (on : Bool) (n : Nat) : State :=
  { deciding aDec with
    rot := { State.reset.rot with polCtl := [(0, if on then 0x8000000001000014 else 0x01000014)] }
    hub := { (deciding aDec).hub with
      pol := (0, { evq := [{ entry := 2, q3 := 0 }], cur := [0xD803] }) :: (List.range n).map (fun i => (i + 1, { dec := some aDec })) } }
theorem witness_PolicyDecisions_events :
    ((eventful true 3).pol 0).ovf = [] ∧ ((eventful true 3).pol 0).dec = none ∧ ((eventful true 3).pol 0).evq = { entry := 2, q3 := 0 } :: [] ∧
    (eventful true 3).polRuns 0 = true ∧ (eventful false 3).polRuns 0 = false ∧
    ((eventful true 3).hub.pol.filter (fun (x : Nat × Pol) => x.2.dec.isSome)).length < 4 ∧
    4 ≤ ((eventful true 4).hub.pol.filter (fun (x : Nat × Pol) => x.2.dec.isSome)).length ∧
    (deciding { aDec with cyc := 256 }).budget 0 < 256 + (deciding { aDec with cyc := 256 }).nextCost 0 { aDec with cyc := 256 } ∧
    aDec.cyc + (deciding aDec).nextCost 0 aDec ≤ (deciding aDec).budget 0 := by decide
def sliced : State := { deciding aDec with ntime := 1000000 }
theorem witness_PolicyDecisions_slices :
    (sliced.unit 0).ustate = .running ∧ (sliced.unit 0).sliceAt.toNat + sliced.sliceNs (sliced.unit 0).part ≤ sliced.ntime.toNat := by decide
def counts (o : Out) : Option (Word × Word) := (got o).map (fun t => ((Tab.get 0 t.rot.polCnt 0).setWidth 32, (Tab.get 0 t.rot.polCnt 2).setWidth 32))
theorem test_decisions :
    counts (exec (.polDecKeep 1 2) (deciding (decOf 1 0 0 0 0 0))) = some (1, 0) ∧ counts (exec (.polDecKeep 1 2) (deciding (decOf 0 2 0 0 0 0))) = some (0, 1) ∧
    counts (exec (.polDecPick 1 2) (deciding (decOf 0 2 0 0 0 0xFFFFFFFF))) = some (1, 0) ∧
    counts (exec (.polDecKill 1 2) (deciding (decOf 2 0 0 0xFFFFFFFF 0 0))) = some (1, 0) ∧
    counts (exec (.polDecResume 1 2) (deciding (decOf 1 0 0 0 0 0))) = some (0, 1) ∧ counts (exec (.polDecFallback 1 2) (deciding (decOf 1 0 0 0 0 0))) = some (0, 0) := by decide
theorem test_decisions_2 :
    counts (exec (.polDecPreempt 1 2) (deciding (decOf 1 0 0 0 0 0))) = some (1, 0) ∧
    ((got (exec (.polDecPreempt 1 2) (deciding (decOf 1 0 0 0 0 0)))).map (fun t => (t.unit 0).ustate)) = some .saving ∧
    counts (exec (.polDecNotify 1 2) (deciding (decOf 2 0 0 0 0 0))) = some (1, 0) ∧ counts (exec (.polDecSuspend 1 2) (deciding (decOf 1 0 0 0 0 0))) = some (0, 1) ∧
    ((got (exec (.policyDecisionStart 0) (eventful true 0))).bind (fun t => (t.pol 0).dec)).map (fun y => y.q) = some [(0, 0x200)] := by decide
theorem test_policy_events :
    (got (exec (.budgetOverrun 0) (deciding { aDec with cyc := 256 }))).map (fun t => ((t.pol 0).dec, Tab.get 0 t.rot.polCnt 1)) = some (none, 1) ∧
    (got (exec (.sliceEnd 0) sliced)).map (fun t => ((t.unit 0).sliceAt, (t.pol 0).evq.map (fun e => (e.entry, e.trig)))) = some (1000000, [(1, 0)]) := by decide
/-! ### Rounding, and reconciliation -/

theorem witness_FloatRoundingAndCompare :
    (2 : Rat) ^ 128 - (2 : Rat) ^ 103 ≤ |1 * ((1 : Nat) : Rat) * (2 : Rat) ^ (128 : Int)| ∧ (2 : Rat) ^ 128 ≤ |1 * ((1 : Nat) : Rat) * (2 : Rat) ^ (128 : Int)| ∧
    (2 : Rat) ^ 128 - (2 : Rat) ^ 104 < |1 * ((1 : Nat) : Rat) * (2 : Rat) ^ (128 : Int)| ∧
    ¬ (2 : Rat) ^ 128 - (2 : Rat) ^ 103 ≤ |1 * ((1 : Nat) : Rat) * (2 : Rat) ^ (0 : Int)| ∧ ¬ (2 : Rat) ^ 128 ≤ |1 * ((1 : Nat) : Rat) * (2 : Rat) ^ (0 : Int)| ∧
    ¬ (2 : Rat) ^ 128 - (2 : Rat) ^ 104 < |1 * ((1 : Nat) : Rat) * (2 : Rat) ^ (0 : Int)| := by
  norm_num
theorem witness_FloatRoundingAndCompare_codes :
    wave.profile = .wave ∧ (Fmt.fp32.decode 0x3F800000).isNan = false ∧ (Fmt.fp32.decode 0x3F800000).isInf = false ∧ (Fmt.fp32.decode 0x7F800001).isNan = true ∧
    (Fmt.fp32.decode 0x7F800001).isSig = true ∧ (Fmt.fp32.decode 0x7FC00000).isSig = false ∧ (Fmt.fp64.decode 0).isNan = false ∧
    (Fmt.fp64.decode 0x7FF8000000000000).isNan = true ∧ ∀ l : Nat, (fun _ : Nat => Fmt.fp32.flushIn wave.ftz 0) l = Fmt.fp32.flushIn wave.ftz 0 := by
  exact ⟨by decide, by decide, by decide, by decide, by decide, by decide, by decide, by decide, fun _ => rfl⟩
/-- (2²⁴ + 1) · 2⁻²⁴ lies halfway between 1 and the next FP32 number (R84); −0 is below +0 for the minimum (R178). -/
theorem test_rounding :
    roundTo .fp32 0 0 (.fin false 16777217 (-24)) = (0x3F800000, 1) ∧ roundTo .fp32 2 0 (.fin false 16777217 (-24)) = (0x3F800001, 1) ∧
    roundTo .fp32 0 0 (.fin true 1 128) = (0xFF800000, 5) ∧ roundTo .fp32 1 0 (.fin true 1 128) = (0xFF7FFFFF, 5) ∧
    fMinMax .fp32 false false 0 0x80000000 = (0x80000000, 0) ∧ fCompare .fp32 .lt false 0x7FC00000 0 = (false, 16) ∧
    fCompare .fp32 .eq false 0x7F800001 0 = (false, 16) ∧ fCompare .fp32 .eq false 0 0x80000000 = (true, 0) := by decide

/-- SKRECON's block (R279) at 0x3000: six cells in mode 1, the sketch at 0 of the own scratchpad, output plot 2. -/
def reconBlock (nout : Nat) : List Byte :=
  leBytes 4 9 ++ leBytes 4 0 ++ leBytes 4 6 ++ leBytes 4 6 ++ leBytes 4 6 ++ leBytes 4 0x80000 ++ leBytes 8 (2 ^ 63) ++ leBytes 8 0x2000 ++ leBytes 4 0 ++
    leBytes 2 2 ++ leBytes 2 nout ++ List.replicate 16 0
def reconState (nout : Nat) (ag : Agent) : State :=
  { with_ 0 ag with
    units := [(0, { ustate := .running, waves := 1, plots := [(0, { engine := true }), (2, { engine := true })] })]
    plat := { State.reset.plat with dies := [(14, { link := .up })] }
    rot := { State.reset.rot with cap := [(1, 7), (2, 0x100)] }
    mem := inPad0 0x3000 (reconBlock nout) }
/-- The reconciliation in its queue; its peer; SKINS of one entry, the key in pair 6 of lane 0, in six cells at 0x4000. -/
def aRecon : Recon := { agent := 0, hnd := 4, unit_ := 0, engine := 14, part := 0, cls := 9, cells := 6, minc := 6, maxc := 6, mode := true, wait := 2, sk := 0x8000000000000000, set := 0x2000, out := 2, nout := 1 }
def aPeer : PeerRecon := { dom := 0, pkg := 0, toDom := 0, toPkg := 0, cls := 9, rnd := 0, cells := 6, mode := true, minc := 6, maxc := 6, lim := 0, gf := false, paired := false, sketch := [], entries := [(1, 2)] }
def reconciling (r : Recon) : State :=
  { reconState 1 { wave with h := [(4, { st := .pending, op := 1 })] } with
    ntime := 1000000
    units := [(0, { ustate := .running, waves := 1, plots := [(0, { engine := true, bound := some 1 }), (2, { engine := true, bound := some 1 })] })]
    fab := { State.reset.fab with recons := [(1, r)], nextOp := 2 } }
def inserter : Agent := Machine.Agent.vreg (Machine.Agent.regs wave [(60, 1), (61, 0), (62, 0), (4, 0x4000), (5, 0x80000006)]) 6 [0x00010005]

theorem witness_Reconciliation_sketches :
    (reconState 1 wave).mover = some (0, wave) ∧ wave.profile = .wave ∧ wave.fires 0 = true ∧ wave.barred = false ∧ 0x4000 % 8 = 0 ∧
    0x4000 + 24 * 6 ≤ spadSize wave.unit ∧ (reconState 1 wave).enginePlot wave.unit 0x4000 (24 * 6) = none ∧
    ((reconState 1 wave).unit wave.unit).overTag 0x4000 (24 * 6) = false ∧ (reconState 1 inserter).mover = some (0, inserter) ∧
    (∀ m, m < 96 → (inserter.active 0).getLsbD m = decide (m = 0)) ∧ (inserter.sGet 4).toNat = 0x4000 ∧ (inserter.sGet 5).toNat = 6 + 2 ^ 31 := by decide
theorem witness_Reconciliation_issue :
    0x3000 % 32 = 0 ∧ 0x3000 + 64 ≤ spadSize wave.unit ∧ (reconState 1 wave).enginePlot wave.unit 0x3000 64 = none ∧ (wave.hGet 4).st ≠ .pending ∧
    ((reconState 1 wave).die 14).link = .up ∧ (parseRecon wave.unit ((reconState 0 wave).spadRead wave.unit 0x3000 64)).2 = true ∧
    (parseRecon wave.unit ((reconState 1 wave).spadRead wave.unit 0x3000 64)).2 = false ∧
    (∀ q ∈ (parseRecon wave.unit ((reconState 1 wave).spadRead wave.unit 0x3000 64)).1.plots,
      (((reconState 1 wave).unit wave.unit).plot q).engine = true ∧ (((reconState 1 wave).unit wave.unit).plot q).bound = none) ∧
    (reconState 1 wave).releaseReady 0 wave 5 (wave.nextTag + 1) = true ∧ wave.mods = [] ∧
    (reconState 1 wave).hasUnit 1 = true ∧ ({ with_ 0 wave with rot := { State.reset.rot with cap := [(1, 5)] } } : State).hasUnit 1 = false ∧ (reconState 1 wave).linkDies = [14] := by decide
theorem witness_Reconciliation_status :
    (wave.hGet 4).st = .idle ∧ (wave.hGet 4).stat = [] ∧
    (({ wave with h := [(4, { st := .done, stat := [1, 2, 3, 4] })] } : Agent).hGet 4) = { st := .done, stat := [1, 2, 3, 4] } := by decide
theorem witness_Reconciliation_events :
    Tab.find? (reconciling aRecon).fab.recons 1 = some aRecon ∧ aRecon.code = none ∧ aRecon.cancel = false ∧ aRecon.started = none ∧
    aRecon.sk.getLsbD 63 = true ∧ aRecon.nset = 0 ∧ aRecon.set.toNat < 2 ^ 56 ∧ (∀ x ∈ (reconciling aRecon).fab.recons, x.1 = 1) ∧
    Tab.sorted (reconciling aRecon).fab.recons = true ∧ (reconciling aRecon).duplicate 1 aRecon = false ∧
    ((reconciling aRecon).agent? 0).map (fun a => a.h) = some [(4, { st := .pending, op := 1 })] := by decide
theorem witness_Reconciliation_pairing :
    aRecon.peer = none ∧ aPeer.toDom = (reconciling aRecon).plat.dom ∧ aPeer.toPkg = (reconciling aRecon).plat.pkg ∧ aPeer.dom = aRecon.dom ∧
    aPeer.pkg = aRecon.pkg ∧ aPeer.cls = aRecon.cls ∧ aPeer.paired = false ∧ aPeer.rnd = aRecon.rnd ∧ aPeer.cells = aRecon.cells ∧ aPeer.mode = aRecon.mode ∧
    aPeer.minc = aRecon.minc ∧ aPeer.maxc = aRecon.maxc ∧ aPeer.lim = aRecon.lim ∧ aPeer.gf = aRecon.gf ∧ aRecon.npairs = 0 ∧
    (reconciling aRecon).waitOver { aRecon with started := some 0 } = false ∧
    (later (reconciling aRecon)).waitOver { aRecon with started := some 0 } = true ∧
    (0 : DWord).toNat + aRecon.wait * 1000000 ≤ (later (reconciling aRecon)).ntime.toNat := by decide
theorem witness_Reconciliation_ends :
    (∀ r : Recon, r = { aRecon with started := some 0, peer := some aPeer } → r.full = false ∧ aPeer.sketch = r.sketch ∧ r.merr = false ∧ r.residual = 0) ∧
    (({ aRecon with started := some 0, peer := some { aPeer with entries := [] }, full := true } : Recon).full = true) ∧
    (fullDiff [] []).length * 24 ≤ (if aRecon.unit_ < 192 then 0x1000 else 0x10000) * aRecon.nout := by
  refine ⟨?_, rfl, ?_⟩
  · rintro r rfl; decide
  · simp [fullDiff, aRecon]

/-- A pure cell of the key 5 and payload 7; a reconciliation whose peer's sketch peels to nothing, and one that leaves a cell. -/
def pureCell : Cell := { count := 1, chk := skChk true 5 7, kx := 5, px := 7 }
def leftOver (lim : Nat) : Recon := { aRecon with started := some 0, lim := lim, peer := some { aPeer with sketch := [5] } }
theorem witness_Reconciliation_peels :
    (reconciling aRecon).reconOwns 1 aRecon = true ∧ (reconciling aRecon).reconOwns 2 aRecon = false ∧ aRecon.merr = false ∧
    ((reconciling aRecon).fab.recons.filter (fun (x : Nat × Recon) => x.2.engine == aRecon.engine && x.2.started.isNone)).map (fun x => x.1) = [1] ∧
    (match (reconciling aRecon).reconRead 1 aRecon aRecon.set (16 * aRecon.nset) with
      | .ok _ => true
      | .error _ => false) = true ∧
    pureCell.pure true 2 (skCell true 5 7 2 0) = true ∧ ((cellsOf 6 []).length = 6) ∧
    (peel true (cellsOf 6 []) (cellsOf 6 [])).1.all (fun x => x == {}) = true ∧
    (peel true (cellsOf 6 []) (cellsOf 6 [5])).1.any (fun x => x != {}) = true ∧ (leftOver 1).rnd < (leftOver 1).lim ∧
    (leftOver 0).lim ≤ (leftOver 0).rnd ∧ 0x1000 * 1 < 24 * (List.replicate 171 ((0, 0, 0) : PeelRec)).length := by decide

def hIn (i : Instr) (s : State) : Option Handle := (agentIn (exec i s) 0).map (fun a => a.hGet 4)
theorem test_sketches :
    (got (exec (.skins 0 6 4 (.lit 7)) (reconState 1 inserter))).map (fun t =>
      (t.spadRead 0 (0x4000 + 24) 4, t.spadRead 0 (0x4000 + 24 + 8) 4, t.spadRead 0 (0x4000 + 24 + 16) 4)) = some ([1, 0, 0, 0], [5, 0, 1, 0], [7, 0, 0, 0]) ∧
    (got (exec (.skclr 0 (.lit 0x3000) (.lit 1)) (reconState 1 wave))).map (fun t => (t.spadRead 0 0x3000 1, t.spadRead 0 0x3018 8)) =
      some ([0], [0, 0, 0, 0, 0, 0, 0, 0x80]) := by decide
theorem test_skrecon :
    hIn (.skrecon 0 4 (.lit 0x3000)) (reconState 1 wave) = some { st := .pending, op := 1 } ∧
    (hIn (.skrecon 0 4 (.lit 0x3000)) (reconState 0 wave)).map (fun h => h.status) = some 0x3000000000000000 ∧
    (agentIn (exec (.skstat 0 8 4) (reconState 1 wave)) 0).map (fun a => (a.sGet 8, a.sGet 11)) = some (0, 15) ∧
    (hIn (.reconcileStart 1) (reconciling aRecon)).map (fun h => h.st) = some .pending := by decide
theorem test_reconciliations :
    (got (exec (.reconcileStart 1) (reconciling aRecon))).map (fun t => t.fab.recons.map (fun r => (r.2.started, r.2.sketch.length))) = some [(some 1000000, 144)] ∧
    (got (exec (.reconcileMatch 1 aPeer) (reconciling { aRecon with started := some 0 }))).map (fun t => t.fab.recons.map (fun r => r.2.sent)) = some [144] ∧
    (hIn (.reconcileMatch 1 { aPeer with rnd := 1 }) (reconciling { aRecon with started := some 0 })).map (fun h => (h.status, h.stat)) =
      some (0x6000000000000000, [0, 0, 0, 4]) ∧
    (hIn (.reconcileWaitExpiry 1) (later (reconciling { aRecon with started := some 0 }))).map (fun h => h.status) = some 0x6000000000000000 := by decide
theorem test_peel_left :
    (hIn (.sketchPeel 1 false) (reconciling (leftOver 1))).map (fun h => (h.status, h.stat)) = some (0x7000000000000000, [1, 0, 0, 1]) := by decide
theorem test_peel :
    (hIn (.sketchPeel 1 false) (reconciling { aRecon with started := some 0, peer := some aPeer })).map (fun h => (h.status, h.stat)) = some (0, [0, 0, 0, 0]) := by decide
theorem witness_VectorRegistersAndMasks : 0 < 96 ∧ 95 < 96 := by decide
/-- The chapter's example of R267: die 11 upgrades in place, die 12 reads words 4 to 7, die 10 supplies them. -/
def spans : State :=
  { staged 8 with plat := peers.plat, ms := { State.reset.ms with
      keys := [(0, { st := 1, key := 1 }), (5, { st := 1, owner := 7, key := 2 })]
      uses := [(65543, 1)]
      dir := [(0x4000, [{ peer := 3, slot := 5, st := .s, lo := 32, hi := 47, part := 7 }, { peer := 2, slot := 5, st := .m, lo := 0, hi := 15, part := 7 }])] } }
theorem test_spans_whole :
    (got (exec (.spanTransaction { kind := .readOwn, peer := 3, sector := 0x4000, lo := 32, hi := 47, part := 7, slot := 5 }) spans)).map
      (fun t => (t.sharers 0x4000).map (fun e => (e.peer, e.st, e.lo))) = some [(3, .m, 32), (2, .m, 0)] ∧
    ((got (exec (.spanTransaction { kind := .readOwn, peer := 3, sector := 0x4000, lo := 32, hi := 47, part := 7, slot := 5 }) spans)).bind
      (fun u => got (exec (.spanTransaction { kind := .readShared, peer := 4, sector := 0x4000, lo := 4, hi := 7, part := 7, slot := 5 }) u))).map
      (fun t => (t.sharers 0x4000).map (fun e => (e.peer, e.st, e.lo))) = some [(4, .s, 4), (3, .m, 32), (2, .o, 0)] := by decide
end Sys2Proof.Tests
end

section
/-! Memory stays in its canonical form (log 1, R6, R218). `KeepsInv` says it of an outcome; the lemmas below say it once for
each function of the model that answers a state or an outcome, in the order of the definitions, so that each proof follows
its function's branches and cites the lemmas of the functions it calls. -/
namespace Sys2Proof.Machine

/-! ### Outcomes, pairs and the shared shapes of an instruction -/

/-- Every next state that an outcome answers has memory in its canonical form (log 1). -/
def KeepsInv (o : Out) : Prop := ∀ t, o = .next t → t.Inv

theorem keepsInv_next {t : State} (h : t.Inv) : KeepsInv (.next t) := fun _ ht => by cases ht; exact h

theorem keepsInv_fault (f : Fault) : KeepsInv (.fault f) := fun _ ht => by cases ht

/-- The state of a pair that has been taken apart. -/
theorem State.inv_fst {α : Type} {p : State × α} {t : State} {a : α} (he : p = (t, a)) (h : p.1.Inv) : t.Inv := by
  subst he; exact h

theorem State.inv_snd {α : Type} {p : α × State} {t : State} {a : α} (he : p = (a, t)) (h : p.2.Inv) : t.Inv := by
  subst he; exact h

theorem State.inv_foldl_fst {α β : Type} (l : List α) (f : State × β → α → State × β)
    (hf : ∀ t a, t.1.Inv → (f t a).1.Inv) : ∀ {p : State × β}, p.1.Inv → (l.foldl f p).1.Inv := by
  induction l with
  | nil => exact fun h => h
  | cons a l ih => exact fun h => ih (hf _ a h)

theorem State.inv_getD {s : State} {o : Option State} (ho : ∀ t, o = some t → t.Inv) (h : s.Inv) : (o.getD s).Inv := by
  cases o with
  | none => exact h
  | some t => exact ho t rfl

theorem keepsInv_onMover {s : State} {k : Nat → Agent → State} (hk : ∀ i a, (k i a).Inv) : KeepsInv (onMover s k) := by
  unfold onMover
  split
  · exact keepsInv_next (hk _ _)
  · exact keepsInv_fault _

theorem keepsInv_issue {s : State} {legal : Profile → Bool} {g : BitVec 2} {k : Nat → Agent → State} (h : s.Inv)
    (hk : ∀ i a, (k i a).Inv) : KeepsInv (issue legal g s k) := fun _ => inv_issue hk h

theorem keepsInv_issueOnce {s : State} {legal : Profile → Bool} {g : BitVec 2} {k : Nat → Agent → State} (h : s.Inv)
    (hk : ∀ i a, (k i a).Inv) : KeepsInv (issueOnce legal g s k) := fun _ => inv_issueOnce hk h

theorem keepsInv_regOp {s : State} {legal : Profile → Bool} {g : BitVec 2} {f : Agent → Agent} (h : s.Inv) :
    KeepsInv (regOp legal g s f) := fun _ => inv_regOp h

theorem keepsInv_vecOp {s : State} {g : BitVec 2} {f : Mask → Agent → Agent} (h : s.Inv) : KeepsInv (vecOp g s f) :=
  fun _ => inv_vecOp h

/-! ### What `Sys2Proof/Machine/Memory.lean` defines -/

theorem State.inv_putLine {s : State} {k : Nat} {l : OLine} (h : s.Inv) : (s.putLine k l).Inv := h

theorem State.inv_dropLineAt {s : State} {k : Nat} (h : s.Inv) : (s.dropLineAt k).Inv := h

theorem State.inv_touch {s : State} {pa : Nat} {m : BitVec 2} (h : s.Inv) : (s.touch pa m).Inv := h

theorem State.inv_noteUse {s : State} {part pa : Nat} {unc : Bool} (h : s.Inv) : (s.noteUse part pa unc).Inv := h

theorem State.inv_mend {s : State} {pa : Nat} (h : s.Inv) : (s.mend pa).Inv := h

/-! ### What `Sys2Proof/Machine/Records.lean` defines -/

theorem State.inv_putAgent {s : State} {id : Nat} {ag : Agent} (h : s.Inv) : (s.putAgent id ag).Inv := h

theorem State.inv_putUnit {s : State} {u : Nat} {x : UnitSt} (h : s.Inv) : (s.putUnit u x).Inv := h

theorem State.inv_putQuad {s : State} {q : Nat} {x : QuadSt} (h : s.Inv) : (s.putQuad q x).Inv := h

theorem State.inv_draw {s : State} (h : s.Inv) : s.draw.2.Inv := h

theorem State.inv_wakePa {s : State} {pa : Nat} (h : s.Inv) : (s.wakePa pa).Inv := h

theorem State.inv_sendFlit {s : State} {path : Nat} (h : s.Inv) : (s.sendFlit path).Inv := by
  unfold State.sendFlit
  split
  · exact h
  · exact h

theorem State.inv_sendOff {s : State} (h : s.Inv) : s.sendOff.Inv := by
  unfold State.sendOff
  split
  · exact State.inv_sendFlit h
  · exact h

theorem State.inv_putPol {s : State} {p : Nat} {x : Pol} (h : s.Inv) : (s.putPol p x).Inv := h

theorem State.inv_polCount {s : State} {p i : Nat} (h : s.Inv) : (s.polCount p i).Inv := h

theorem State.inv_violation {s : State} {part : Nat} {slot : BitVec 8} {pa : Nat} {j : JobRef} {unit : Word}
    {die : Byte} (h : s.Inv) : (s.violation part slot pa j unit die).Inv := by
  unfold State.violation
  split
  · exact h
  · split
    · exact State.inv_record _ _ _ _ h
    · split
      · exact State.inv_record _ _ _ _ h
      · exact h

theorem State.inv_recordDrop {s : State} {part : Nat} {slot : BitVec 8} {pa : Nat} {die : Byte} {j : JobRef}
    {unit : Word} (h : s.Inv) : (s.recordDrop part slot pa die j unit).Inv :=
  State.inv_recordLoss _ _ _ _ _ _ _ h

/-! ### What `Sys2Proof/Machine/Coherence.lean` defines -/

theorem State.inv_putSharers {s : State} {sector : Nat} {es : List SpanEnt} (h : s.Inv) :
    (s.putSharers sector es).Inv :=
  h

theorem keepsInv_execSpanTransaction {r : SpanReq} {s : State} (h : s.Inv) : KeepsInv (execSpanTransaction r s) := by
  unfold execSpanTransaction
  apply keepsInv_next
  dsimp only
  split
  · exact h
  · split
    · exact State.inv_violation h
    · exact State.inv_spanRun _ h

theorem keepsInv_execSpanEviction {sector n : Nat} {s : State} (h : s.Inv) :
    KeepsInv (execSpanEviction sector n s) := by
  unfold execSpanEviction
  apply keepsInv_next
  split
  · exact State.inv_putSharers (State.inv_backEntry _ _ h)
  · exact h

theorem State.inv_revertSpan {s : State} {sector : Nat} {e : SpanEnt} (h : s.Inv) : (s.revertSpan sector e).Inv :=
  State.inv_record _ _ _ _ (State.inv_spanLose _ _ _ _ h)

theorem State.inv_cleanPeer {s : State} {peer : Nat} (h : s.Inv) : (s.cleanPeer peer).Inv := by
  unfold State.cleanPeer
  refine State.inv_foldl _ _ (fun _ _ ht => ?_) h
  dsimp only
  exact State.inv_foldl _ _ (fun _ _ ht1 => State.inv_revertSpan ht1) (State.inv_putSharers ht)

/-! ### What `Sys2Proof/Machine/Orangery.lean` defines -/

theorem State.inv_moveWay {s : State} {w : Nat} {m : WayMove} (h : s.Inv) : (s.moveWay w m).Inv := h

theorem State.inv_carveWays {p slot n : Nat} : ∀ {s : State}, s.Inv → (s.carveWays p slot n).Inv := by
  induction n with
  | zero => exact fun h => h
  | succ n ih =>
    intro s h
    unfold State.carveWays
    dsimp only
    split
    · exact ih (State.inv_moveWay h)
    · exact h

theorem State.inv_shrinkTo {p ceil n : Nat} : ∀ {s : State}, s.Inv → (s.shrinkTo p ceil n).Inv := by
  induction n with
  | zero => exact fun h => h
  | succ n ih =>
    intro s h
    unfold State.shrinkTo
    split
    · exact h
    · split
      · exact ih (State.inv_moveWay h)
      · exact h

theorem State.inv_writeLim {s : State} {p : Nat} {v : Word} (h : s.Inv) : (s.writeLim p v).Inv := by
  unfold State.writeLim
  dsimp only
  split
  · exact State.inv_shrinkTo h
  · exact h

theorem keepsInv_execOrngLimWrite {p : Nat} {v : BitVec 32} {s : State} (h : s.Inv) :
    KeepsInv (execOrngLimWrite p v s) := by
  unfold execOrngLimWrite
  apply keepsInv_next
  split
  · exact h
  · exact State.inv_writeLim h

theorem State.inv_writeSplit {s : State} {p : Nat} {v : Word} (h : s.Inv) : (s.writeSplit p v).Inv := by
  unfold State.writeSplit
  dsimp only
  split
  · exact h
  · split
    · exact State.inv_carveWays h
    · exact State.inv_foldl _ _ (fun _ _ ht => State.inv_moveWay ht) h

theorem keepsInv_execOrngSplitWrite {p : Nat} {v : BitVec 32} {s : State} (h : s.Inv) :
    KeepsInv (execOrngSplitWrite p v s) := by
  unfold execOrngSplitWrite
  apply keepsInv_next
  split
  · exact h
  · exact State.inv_writeSplit h

/-- A change that forgets a range of memory, so that it reads as unlisted, keeps the canonical form. -/
theorem State.inv_of_dropRange {s t : State} {lo n : Nat} (he : t.mem = Tab.dropRange s.mem lo n) (h : s.Inv) : t.Inv := by
  unfold State.Inv
  rw [he]
  exact Tab.wf_filter 0 _ h

theorem State.inv_zeroRange {s : State} {lo n : Nat} (h : s.Inv) : (s.zeroRange lo n).Inv := State.inv_of_dropRange rfl h

theorem keepsInv_execWayCleaning {w : Nat} {s : State} (h : s.Inv) : KeepsInv (execWayCleaning w s) := by
  unfold execWayCleaning
  apply keepsInv_next
  split
  · exact h
  · dsimp only
    refine State.inv_of_mem rfl ?_
    split
    · exact State.inv_zeroRange (State.inv_foldl _ _ (fun _ _ ht => State.inv_evictLine _ ht) h)
    · exact State.inv_foldl _ _ (fun _ _ ht => State.inv_evictLine _ ht) h

theorem State.inv_giveWay {s : State} {p : Nat} {from_ : Option Nat} (h : s.Inv) : (s.giveWay p from_).Inv := by
  unfold State.giveWay
  dsimp only
  split
  · exact State.inv_moveWay h
  · exact h

theorem State.inv_epochMove {s : State} (h : s.Inv) : s.epochMove.Inv := by
  unfold State.epochMove
  dsimp only
  split
  · split
    · split
      · exact State.inv_giveWay h
      · exact h
    · exact State.inv_giveWay h
  · split
    · exact h
    · split
      · split
        · exact State.inv_giveWay h
        · exact h
      · split
        · split
          · exact State.inv_giveWay h
          · exact h
        · exact h

theorem keepsInv_execOrangeryEpoch {s : State} (h : s.Inv) : KeepsInv (execOrangeryEpoch s) :=
  keepsInv_next (State.inv_of_mem rfl (State.inv_epochMove h))

theorem State.inv_sample {s : State} {part pa : Nat} (h : s.Inv) : (s.sample part pa).Inv := by
  unfold State.sample
  dsimp only
  split <;> exact h

theorem State.inv_dropLine {s : State} {pa : Nat} (h : s.Inv) : (s.dropLine pa).Inv := h

theorem State.inv_strike {s : State} {pa : Nat} {ecc : Ecc} (h : s.Inv) : (s.strike pa ecc).Inv := by
  unfold State.strike
  split <;> exact h

theorem keepsInv_execPatrolScrub {line : Nat} {ecc : Ecc} {later : Bool} {s : State} (h : s.Inv) :
    KeepsInv (execPatrolScrub line ecc later s) := by
  unfold execPatrolScrub
  dsimp only
  apply keepsInv_next
  split
  · exact State.inv_strike h
  · split
    · exact h
    · split
      · exact State.inv_corrected _ _ h
      · split
        · exact State.inv_recordDrop (State.inv_dropLine h)
        · exact State.inv_dropLine h
      · exact h

theorem State.inv_badWriteBack {s : State} {k pa : Nat} (h : s.Inv) : (s.badWriteBack k pa).Inv := by
  unfold State.badWriteBack
  split
  · split
    · dsimp only
      exact State.inv_recordLoss _ _ _ _ _ _ _ (State.inv_evictLine _ (State.inv_dropBlock _ _ _ h))
    · exact h
  · exact h

/-! ### What `Sys2Proof/Machine/Ops.lean` defines -/

theorem State.inv_trapLine {s : State} {id : Nat} {ag : Agent} {c : Nat} {va : DWord} {line : List Byte} {err : Bool}
    (h : s.Inv) : (s.trapLine id ag c va line err).Inv :=
  State.inv_enterHandler _ _ _ _ _ h

theorem inv_trapWord {s : State} {id : Nat} {ag : Agent} {c : Nat} (h : s.Inv) : (trapWord s id ag c).Inv :=
  inv_trapHere _ _ _ _ h

theorem State.inv_wakeSp {s : State} {u off n : Nat} (h : s.Inv) : (s.wakeSp u off n).Inv := h

theorem State.inv_spadStore {s : State} {u off : Nat} {bs : List Byte} (h : s.Inv) : (s.spadStore u off bs).Inv :=
  State.inv_wakeSp (State.inv_spadWrite _ _ _ h)

theorem inv_gotoTarget {s : State} {id : Nat} {ag : Agent} {t : DWord} (h : s.Inv) : (gotoTarget s id ag t).Inv :=
  State.inv_putAgent h

theorem inv_returnFromTrap {s : State} {id : Nat} {ag : Agent} (h : s.Inv) : (returnFromTrap s id ag).Inv := by
  unfold returnFromTrap
  dsimp only
  split
  · exact State.inv_putAgent h
  · exact inv_gotoTarget h

theorem inv_endPass {s : State} {id : Nat} {ag : Agent} (h : s.Inv) : (endPass s id ag).Inv := by
  unfold endPass
  dsimp only
  split
  · exact h
  · split
    · split <;> exact State.inv_putAgent h
    · exact inv_gotoTarget h
    · exact inv_gotoTarget (State.inv_pushEntry _ _ h)
    · split
      · exact inv_gotoTarget h
      · split <;> exact inv_gotoTarget h
    · exact inv_returnFromTrap h

theorem inv_nextInstr {s : State} {id : Nat} {ag : Agent} (h : s.Inv) : (nextInstr s id ag).Inv := by
  unfold nextInstr
  dsimp only
  split
  · exact State.inv_putAgent h
  · exact inv_endPass h

theorem inv_waitFor {s : State} {id : Nat} {ag : Agent} {w : Wait} (h : s.Inv) : (waitFor s id ag w).Inv := h

theorem inv_retireThenTrap {s : State} {id : Nat} {ag : Agent} {c : Nat} {tval : DWord} (h : s.Inv) :
    (retireThenTrap s id ag c tval).Inv := by
  unfold retireThenTrap
  dsimp only
  split
  · exact inv_takeTrap _ _ _ _ _ (inv_retire _ _ h)
  · exact inv_retire _ _ h

/-! ### What `Sys2Proof/Machine/Access.lean` defines -/

theorem State.inv_writeBackOf {s : State} {id : Nat} (h : s.Inv) : (s.writeBackOf id).Inv := by
  unfold State.writeBackOf
  split
  · exact State.inv_putAgent (State.inv_foldl _ _ (fun _ _ ht => State.inv_writeBack _ ht) h)
  · exact h

theorem State.inv_emptyLevel {s : State} {level idx : Nat} (h : s.Inv) : (s.emptyLevel level idx).Inv := by
  unfold State.emptyLevel
  split <;> exact h

theorem State.inv_acquire {s : State} {ag : Agent} {sc : Nat} (h : s.Inv) : (s.acquire ag sc).Inv := by
  unfold State.acquire
  split
  · dsimp only
    split
    · refine State.inv_emptyLevel ?_
      split
      · exact State.inv_emptyLevel h
      · exact h
    · split
      · exact State.inv_emptyLevel h
      · exact h
  · exact h

theorem State.inv_raiseFault {s : State} {part : Nat} {k : VKey} {perm : Perm} {ag cp : Option Nat} (h : s.Inv) :
    (s.raiseFault part k perm ag cp).Inv := by
  unfold State.raiseFault
  dsimp only
  split <;> exact State.inv_of_mem rfl (State.inv_noteWalk _ _ h)

theorem State.inv_waitSlog {s : State} {id : Nat} {ag : Agent} (h : s.Inv) : (s.waitSlog id ag).Inv :=
  inv_waitFor (State.inv_putUnit h)

theorem State.inv_leaveSlog {s : State} {u asker : Nat} (h : s.Inv) : (s.leaveSlog u asker).Inv := by
  unfold State.leaveSlog
  dsimp only
  split
  · exact State.inv_putUnit h
  · exact h

theorem State.inv_hold {s : State} {id : Nat} {ag : Agent} {x : Lane} {need : Perm} (h : s.Inv) :
    (s.hold id ag x need).Inv :=
  inv_waitFor (State.inv_raiseFault h)

theorem State.inv_sendFar {s : State} {ts : List (Lane × Target)} (h : s.Inv) : (s.sendFar ts).Inv := by
  unfold State.sendFar
  refine State.inv_foldl _ _ (fun _ _ ht => ?_) h
  split
  · exact State.inv_sendOff ht
  · exact ht

theorem inv_addrTrap {s : State} {id : Nat} {ag : Agent} {va : DWord} (h : s.Inv) : (addrTrap s id ag va).Inv :=
  inv_trapHere _ _ _ _ h

theorem State.inv_noteLanes {s : State} {ag : Agent} {ts : List (Lane × Target)} (h : s.Inv) :
    (s.noteLanes ag ts).Inv :=
  State.inv_foldl _ _ (fun _ _ ht => State.inv_noteAgXlat _ _ ht) h

theorem inv_issueReturning {s : State} {id : Nat} {ag : Agent} {need : Perm} {ls : List Lane}
    {mk : Lane → Target → Nat → Access} {fin : State → Agent → State} (hfin : ∀ t a, t.Inv → (fin t a).Inv)
    (h : s.Inv) : (issueReturning s id ag need ls mk fin).Inv := by
  unfold issueReturning
  split
  · exact inv_addrTrap h
  · dsimp only
    split
    · exact inv_addrTrap h
    · split
      · split
        · exact inv_waitFor h
        · exact State.inv_hold h
      · split
        · refine inv_addrTrap ?_
          split
          · exact State.inv_violationOf _ _ _ h
          · exact h
        · exact hfin _ _ (State.inv_sendFar (State.inv_noteLanes h))

theorem inv_issuePosted {s : State} {id : Nat} {ag : Agent} {need : Perm} {op : Option AtomOp} {scope : Nat}
    {rel : Option Nat} {ls : List Lane} {mk : Lane → Target → Nat → Access} {fin : State → Agent → State}
    (hfin : ∀ t a, t.Inv → (fin t a).Inv) (h : s.Inv) : (issuePosted s id ag need op scope rel ls mk fin).Inv := by
  unfold issuePosted
  split
  · exact inv_addrTrap (State.inv_leaveSlog h)
  · dsimp only
    split
    · exact inv_addrTrap (State.inv_leaveSlog h)
    · split
      · exact inv_waitFor h
      · split
        · exact hfin _ _ (State.inv_sendFar (State.inv_noteLanes (State.inv_leaveSlog h)))
        · split
          · split
            · exact inv_waitFor h
            · split
              · refine hfin _ _ ?_
                refine State.inv_sendFar ?_
                refine State.inv_noteLanes ?_
                refine State.inv_foldl _ _ (fun _ _ ht => State.inv_raiseFault ht) ?_
                split
                · exact State.inv_foldl _ _ (fun _ _ ht => State.inv_writeBack _ ht) (State.inv_putUnit h)
                · exact State.inv_putUnit h
              · exact State.inv_waitSlog h
          · split
            · exact inv_waitFor h
            · split
              · refine hfin _ _ ?_
                refine State.inv_sendFar ?_
                refine State.inv_noteLanes ?_
                refine State.inv_foldl _ _ (fun _ _ ht => State.inv_raiseFault ht) ?_
                split
                · exact State.inv_foldl _ _ (fun _ _ ht => State.inv_writeBack _ ht) (State.inv_putUnit h)
                · exact State.inv_putUnit h
              · exact State.inv_waitSlog h

theorem State.inv_askFar {s : State} {id : Nat} {ag : Agent} {va : DWord} (h : s.Inv) : (s.askFar id ag va).Inv := by
  unfold State.askFar
  dsimp only
  split
  · exact inv_waitFor h
  · exact inv_waitFor (State.inv_sendOff h)

/-- A posted write that goes out leaves memory: it is written where it arrives. -/
theorem State.inv_post {s t : State} {id : Nat} {ag : Agent} {w off len : Nat} {bytes : List (Nat × Byte)}
    {flag : Option (DWord × Nat × Bool)} {wsig : Option Nat} (ht : s.post id ag w off len bytes flag wsig = some t) (h : s.Inv) :
    t.Inv := by
  simp only [State.post, Option.ite_none_left_eq_some, Option.ite_none_right_eq_some, Option.some.injEq] at ht
  obtain ⟨-, -, rfl⟩ := ht
  exact State.inv_of_mem rfl h

theorem State.inv_askWin {s : State} {id u w : Nat} (h : s.Inv) : (s.askWin id u w).Inv := State.inv_putUnit h

theorem State.inv_wake {s : State} {ag : Agent} {ea : DWord} (h : s.Inv) : (s.wake ag ea).Inv := h

/-! ### What `Sys2Proof/Machine/LoadStore.lean` defines -/

theorem keepsInv_execLd {size : BitVec 3} {scale g : BitVec 2} {d : BitVec 6} {a b : Src} {s : State} (h : s.Inv) :
    KeepsInv (execLd size scale g d a b s) :=
  keepsInv_issue h (fun _ _ => inv_issueReturning (fun _ _ ht => inv_retire _ _ ht) h)

theorem keepsInv_execSt {size : BitVec 3} {scale g : BitVec 2} {d : BitVec 6} {a b : Src} {s : State} (h : s.Inv) :
    KeepsInv (execSt size scale g d a b s) :=
  keepsInv_issue h (fun _ _ => inv_issuePosted (fun _ _ ht => inv_retire _ _ ht) h)

theorem keepsInv_execSld {size : BitVec 3} {scale g : BitVec 2} {d : BitVec 6} {a b : Src} {s : State} (h : s.Inv) :
    KeepsInv (execSld size scale g d a b s) :=
  keepsInv_issueOnce h (fun _ _ => inv_issueReturning (fun _ _ ht => inv_retire _ _ ht) h)

theorem keepsInv_execSst {size : BitVec 3} {scale g : BitVec 2} {d : BitVec 6} {a b : Src} {s : State} (h : s.Inv) :
    KeepsInv (execSst size scale g d a b s) :=
  keepsInv_issueOnce h (fun _ _ => inv_issuePosted (fun _ _ ht => inv_retire _ _ ht) h)

theorem State.inv_ownStores {s : State} {ag : Agent} {ls : List SpLane} (h : s.Inv) : (s.ownStores ag ls).Inv := by
  unfold State.ownStores
  refine State.inv_foldl _ _ (fun _ _ ht => ?_) h
  split
  · exact State.inv_spadStore ht
  · exact ht

theorem State.inv_sendGroups {id : Nat} {gs : List (Nat × Nat × List (Nat × Byte))} :
    ∀ {s : State} {ag : Agent} {n : Nat}, s.Inv → (s.sendGroups id ag gs n).Inv := by
  induction gs with
  | nil => exact fun h => inv_retire _ _ h
  | cons e gs ih =>
    intro s ag n h
    obtain ⟨w, k, bs⟩ := e
    unfold State.sendGroups
    split
    · dsimp only
      split
      · exact ih (State.inv_post ‹_› h)
      · exact inv_waitFor (State.inv_askWin h)
    · exact ih h

theorem keepsInv_execLdsp {size : BitVec 3} {scale g : BitVec 2} {d : BitVec 6} {a b : Src} {s : State} (h : s.Inv) :
    KeepsInv (execLdsp size scale g d a b s) := by
  unfold execLdsp
  refine keepsInv_issue h (fun _ _ => ?_)
  split
  · split
    · exact inv_waitFor h
    · exact inv_retire _ _ h
  · dsimp only
    split
    · exact inv_trapHere _ _ _ _ h
    · split
      · exact inv_waitFor h
      · split
        · exact inv_retire _ _ h
        · exact inv_waitFor h

theorem keepsInv_execStsp {size : BitVec 3} {scale g : BitVec 2} {d : BitVec 6} {a b : Src} {s : State} (h : s.Inv) :
    KeepsInv (execStsp size scale g d a b s) := by
  unfold execStsp
  refine keepsInv_issue h (fun _ _ => ?_)
  dsimp only
  split
  · exact State.inv_sendGroups h
  · split
    · exact inv_trapHere _ _ _ _ h
    · split
      · exact inv_waitFor h
      · exact State.inv_sendGroups (State.inv_ownStores h)

theorem inv_withTensor {s : State} {id : Nat} {ag : Agent} {ls : Option (List Lane)} {k : State → List Lane → State}
    (hk : ∀ t x, t.Inv → (k t x).Inv) (h : s.Inv) : (withTensor s id ag ls k).Inv := by
  unfold withTensor
  dsimp only
  split
  · exact hk _ _ h
  · exact inv_addrTrap h

theorem keepsInv_execTld {size : BitVec 3} {g : BitVec 2} {d a b : BitVec 6} {s : State} (h : s.Inv) :
    KeepsInv (execTld size g d a b s) :=
  keepsInv_issue h (fun _ _ => inv_withTensor (fun _ _ ht => inv_issueReturning (fun _ _ ht1 => inv_retire _ _ ht1)
    ht) h)

theorem keepsInv_execTst {size : BitVec 3} {g : BitVec 2} {d a b : BitVec 6} {s : State} (h : s.Inv) :
    KeepsInv (execTst size g d a b s) :=
  keepsInv_issue h (fun _ _ => inv_withTensor (fun _ _ ht => inv_issuePosted (fun _ _ ht1 => inv_retire _ _ ht1) ht)
    h)

theorem keepsInv_execLdacq {scope : BitVec 3} {size : BitVec 2} {g : BitVec 2} {d : BitVec 6} {a b : Src} {s : State}
    (h : s.Inv) : KeepsInv (execLdacq scope size g d a b s) := by
  unfold execLdacq
  refine keepsInv_issueOnce h (fun _ _ => ?_)
  dsimp only
  split
  · split
    · exact inv_addrTrap h
    · split
      · exact inv_trapHere _ _ _ _ h
      · split
        · exact inv_waitFor h
        · exact inv_retire _ _ (State.inv_acquire h)
  · exact inv_issueReturning (fun _ _ ht => inv_retire _ _ ht) h

theorem State.inv_released {s : State} {id sc : Nat} (h : s.Inv) : (s.released id sc).Inv := by
  unfold State.released
  split
  · exact State.inv_writeBackOf h
  · exact h

theorem keepsInv_execStrel {scope : BitVec 3} {size : BitVec 2} {g : BitVec 2} {d : BitVec 6} {a b : Src} {s : State}
    (h : s.Inv) : KeepsInv (execStrel scope size g d a b s) := by
  unfold execStrel
  refine keepsInv_issueOnce h (fun _ _ => ?_)
  dsimp only
  split
  · split
    · exact inv_addrTrap h
    · split
      · exact inv_trapHere _ _ _ _ h
      · split
        · exact inv_waitFor h
        · split
          · split
            · refine inv_retire _ _ ?_
              rename_i he
              exact State.inv_post he (State.inv_released h)
            · exact inv_waitFor (State.inv_askWin (State.inv_released h))
          · exact inv_retire _ _ (State.inv_ownStores (State.inv_released h))
  · exact inv_issuePosted (fun _ _ ht => inv_retire _ _ ht) h

/-! ### What `Sys2Proof/Machine/Scalar.lean` defines -/

theorem keepsInv_scalar2 {g : BitVec 2} {d : BitVec 6} {a b : Src} {f : Word → Word → Word} {s : State} (h : s.Inv) :
    KeepsInv (scalar2 g d a b f s) :=
  keepsInv_regOp h

theorem keepsInv_scalar1 {g : BitVec 2} {d : BitVec 6} {a : Src} {f : Word → Word} {s : State} (h : s.Inv) :
    KeepsInv (scalar1 g d a f s) :=
  keepsInv_regOp h

theorem keepsInv_scalarDiv {g : BitVec 2} {d : BitVec 6} {a b : Src} {f : Word → Word → Word} {s : State} (h : s.Inv) :
    KeepsInv (scalarDiv g d a b f s) :=
  keepsInv_regOp h

theorem keepsInv_scalar3 {g : BitVec 2} {d : BitVec 6} {a b : Src} {f : Word → Word → Word → Word} {s : State}
    (h : s.Inv) : KeepsInv (scalar3 g d a b f s) :=
  keepsInv_regOp h

theorem keepsInv_scalarCmp {c : Cond} {g : BitVec 2} {d : BitVec 6} {a b : Src} {s : State} (h : s.Inv) :
    KeepsInv (scalarCmp c g d a b s) :=
  keepsInv_scalar2 h

theorem keepsInv_pair2 {g : BitVec 2} {d : BitVec 6} {a b : Src} {f : DWord → DWord → DWord} {s : State} (h : s.Inv) :
    KeepsInv (pair2 g d a b f s) :=
  keepsInv_regOp h

theorem keepsInv_pairW {g : BitVec 2} {d : BitVec 6} {a b : Src} {f : DWord → Word → DWord} {s : State} (h : s.Inv) :
    KeepsInv (pairW g d a b f s) :=
  keepsInv_regOp h

/-! ### What `Sys2Proof/Machine/VectorInt.lean` defines -/

theorem keepsInv_vector2 {g : BitVec 2} {d : BitVec 6} {a b : Src} {f : Word → Word → Word} {s : State} (h : s.Inv) :
    KeepsInv (vector2 g d a b f s) :=
  keepsInv_vecOp h

theorem keepsInv_vector1 {g : BitVec 2} {d : BitVec 6} {a : Src} {f : Word → Word} {s : State} (h : s.Inv) :
    KeepsInv (vector1 g d a f s) :=
  keepsInv_vecOp h

theorem keepsInv_vector3 {g : BitVec 2} {d : BitVec 6} {a b : Src} {f : Word → Word → Word → Word} {s : State}
    (h : s.Inv) : KeepsInv (vector3 g d a b f s) :=
  keepsInv_vecOp h

theorem keepsInv_vectorCmp {c : Cond} {g : BitVec 2} {d : BitVec 6} {a b : Src} {s : State} (h : s.Inv) :
    KeepsInv (vectorCmp c g d a b s) :=
  keepsInv_vecOp h

theorem keepsInv_predOp {g : BitVec 2} {d : BitVec 6} {f : Agent → Mask} {s : State} (h : s.Inv) :
    KeepsInv (predOp g d f s) :=
  keepsInv_regOp h

theorem keepsInv_execVsel {g : BitVec 2} {d : BitVec 6} {a b : Src} {s : State} (h : s.Inv) :
    KeepsInv (execVsel g d a b s) :=
  keepsInv_issue h (fun _ _ => inv_retire _ _ h)

theorem keepsInv_laneNet {g : BitVec 2} {d : BitVec 6} {a : Src} {m : Agent → Nat → Option Nat} {s : State}
    (h : s.Inv) : KeepsInv (laneNet g d a m s) :=
  keepsInv_vecOp h

/-! ### What `Sys2Proof/Machine/Control.lean` defines -/

theorem State.inv_keepCode {s : State} {id : Nat} {ag : Agent} {hs : List Fetched} (h : s.Inv) :
    (s.keepCode id ag hs).Inv :=
  State.inv_of_mem rfl (State.inv_foldl _ _ (fun _ _ ht => State.inv_noteRead _ _ _ _ _ ht) h)

theorem State.inv_fetchStop {s : State} {id : Nat} {ag : Agent} {hdr va : DWord} (h : s.Inv) :
    (s.fetchStop id ag hdr va).Inv := by
  unfold State.fetchStop
  split
  · exact State.inv_hold h
  · exact inv_waitFor h
  · exact State.inv_askFar h
  · exact inv_takeTrap _ _ _ _ _ (State.inv_violationOf _ _ _ h)
  · exact inv_takeTrap _ _ _ _ _ h

theorem keepsInv_execBlk {neg : BitVec 3} {rep cnt : BitVec 6} {s : State} (h : s.Inv) :
    KeepsInv (execBlk neg rep cnt s) := by
  unfold execBlk
  refine keepsInv_onMover (fun _ _ => ?_)
  dsimp only
  split
  · exact inv_trapWord h
  · split
    · exact inv_takeTrap _ _ _ _ _ h
    · split
      · exact State.inv_fetchStop h
      · split
        · exact inv_takeTrap _ _ _ _ _ h
        · exact State.inv_updAgent _ _ (State.inv_keepCode h)

theorem keepsInv_execRep {stepb stepa stepd : BitVec 4} {cnt : BitVec 6} {s : State} (h : s.Inv) :
    KeepsInv (execRep stepb stepa stepd cnt s) := by
  unfold execRep
  refine keepsInv_onMover (fun _ _ => ?_)
  dsimp only
  split
  · exact inv_trapWord h
  · split
    · split
      · exact State.inv_putAgent h
      · exact inv_nextInstr h
    · split
      · exact State.inv_putAgent h
      · exact inv_nextInstr h

theorem keepsInv_xferIf {g : BitVec 2} {a : Nat} {b : Src} {taken : Word → Bool} {s : State} (h : s.Inv) :
    KeepsInv (xferIf g a b taken s) :=
  keepsInv_regOp h

theorem keepsInv_execSplit {d a b : BitVec 6} {s : State} (h : s.Inv) : KeepsInv (execSplit d a b s) := by
  unfold execSplit
  refine keepsInv_issue h (fun _ _ => ?_)
  split
  · exact inv_trapHere _ _ _ _ h
  · split
    · exact inv_trapHere _ _ _ _ h
    · dsimp only
      exact inv_retire _ _ h

theorem keepsInv_execJoin {s : State} (h : s.Inv) : KeepsInv (execJoin s) := by
  unfold execJoin
  refine keepsInv_issue h (fun _ _ => ?_)
  split
  · exact inv_trapHere _ _ _ _ h
  · split
    · exact inv_trapHere _ _ _ _ h
    · exact inv_retire _ _ h

theorem keepsInv_execHalt {g : BitVec 2} {s : State} (h : s.Inv) : KeepsInv (execHalt g s) := by
  unfold execHalt
  refine keepsInv_issueOnce h (fun _ _ => ?_)
  split
  · exact State.inv_putAgent h
  · exact inv_waitFor h

theorem keepsInv_vote {g : BitVec 2} {a : BitVec 6} {s : State} {f : Agent → Mask → Mask → Agent} (h : s.Inv) :
    KeepsInv (vote g a s f) :=
  keepsInv_regOp h

theorem State.inv_fuseWaves {s : State} {wi xi : Nat} {w x : Agent} {lo hi : Nat} (h : s.Inv) :
    (s.fuseWaves wi xi w x lo hi).Inv :=
  h

theorem State.inv_jilt {s : State} {u gw : Nat} {but : Option Nat} (h : s.Inv) : (s.jilt u gw but).Inv := h

theorem State.inv_widow {s : State} {u gw : Nat} (h : s.Inv) : (s.widow u gw).Inv := h

theorem keepsInv_execRegroup {d : BitVec 6} {a b : Src} {s : State} (h : s.Inv) : KeepsInv (execRegroup d a b s) := by
  unfold execRegroup
  refine keepsInv_issue h (fun _ _ => ?_)
  dsimp only
  split
  · exact inv_retire _ _ h
  · split
    · exact inv_retire _ _ h
    · exact inv_waitFor h
  · split
    · exact inv_trapHere _ _ _ _ h
    · split
      · exact inv_waitFor h
      · split
        · exact inv_retire _ _ (State.inv_jilt h)
        · split
          · exact inv_retire _ _ (State.inv_jilt h)
          · split
            · split
              · split
                · exact inv_waitFor h
                · split
                  · exact inv_retire _ _ (State.inv_putAgent (State.inv_jilt h))
                  · split
                    · exact inv_retire _ _ (State.inv_fuseWaves (State.inv_jilt h))
                    · exact State.inv_fuseWaves (State.inv_jilt h)
              · exact inv_retire _ _ (State.inv_putAgent (State.inv_jilt h))
            · split
              · exact inv_retire _ _ (State.inv_jilt h)
              · exact inv_waitFor h

/-! ### What `Sys2Proof/Machine/Async.lean` defines -/

theorem State.inv_finishOp {s : State} {op : Nat} {status : DWord} {stat : List Word} (h : s.Inv) :
    (s.finishOp op status stat).Inv :=
  h

theorem keepsInv_execCpy {g : BitVec 2} {d : BitVec 6} {a : Src} {s : State} (h : s.Inv) :
    KeepsInv (execCpy g d a s) := by
  unfold execCpy
  refine keepsInv_issueOnce h (fun _ _ => ?_)
  dsimp only
  split
  · exact inv_addrTrap h
  · split
    · exact inv_trapHere _ _ _ _ h
    · split
      · exact inv_waitFor h
      · split
        · split
          · exact inv_waitFor h
          · exact inv_retire _ _ h
        · split
          · exact inv_trapHere _ _ _ _ h
          · split
            · exact inv_waitFor h
            · exact inv_retire _ _ h

theorem keepsInv_plotRange {g : BitVec 2} {a b : Src} {s : State} {k : Nat → Agent → List Nat → State} (hk : ∀ i a x,
    (k i a x).Inv) (h : s.Inv) : KeepsInv (plotRange g a b s k) := by
  unfold plotRange
  refine keepsInv_issueOnce h (fun _ _ => ?_)
  dsimp only
  split
  · exact inv_retire _ _ h
  · split
    · exact inv_addrTrap h
    · exact hk _ _ _

theorem keepsInv_execGive {g : BitVec 2} {a b : Src} {s : State} (h : s.Inv) : KeepsInv (execGive g a b s) := by
  unfold execGive
  refine keepsInv_plotRange (fun _ _ _ => ?_) h
  dsimp only
  split
  · exact inv_trapHere _ _ _ _ h
  · split
    · exact inv_waitFor h
    · exact inv_retire _ _ (State.inv_putUnit h)

theorem keepsInv_execTake {g : BitVec 2} {a b : Src} {s : State} (h : s.Inv) : KeepsInv (execTake g a b s) := by
  unfold execTake
  refine keepsInv_plotRange (fun _ _ _ => ?_) h
  dsimp only
  split
  · split
    · exact inv_waitFor h
    · exact inv_retire _ _ (State.inv_acquire h)
  · split
    · exact inv_waitFor (State.inv_putUnit h)
    · exact inv_retire _ _ (State.inv_acquire (State.inv_putUnit h))

theorem keepsInv_execHwait {g : BitVec 2} {d a : BitVec 6} {s : State} (h : s.Inv) :
    KeepsInv (execHwait g d a s) := by
  unfold execHwait
  refine keepsInv_issueOnce h (fun _ _ => ?_)
  dsimp only
  split
  · exact inv_waitFor h
  · split
    · split
      · exact inv_retireThenTrap (State.inv_acquire h)
      · exact inv_retire _ _ (State.inv_acquire h)
    · split
      · exact inv_retireThenTrap h
      · exact inv_retire _ _ h

theorem keepsInv_execHtest {g : BitVec 2} {d a : BitVec 6} {s : State} (h : s.Inv) :
    KeepsInv (execHtest g d a s) := by
  unfold execHtest
  refine keepsInv_issueOnce h (fun _ _ => ?_)
  dsimp only
  refine inv_retire _ _ ?_
  split
  · exact State.inv_acquire h
  · exact h

theorem State.inv_cancelOp {s : State} {n : Nat} (h : s.Inv) : (s.cancelOp n).Inv := h

theorem keepsInv_execHcancel {g : BitVec 2} {a : BitVec 6} {s : State} (h : s.Inv) :
    KeepsInv (execHcancel g a s) := by
  unfold execHcancel
  refine keepsInv_issueOnce h (fun _ _ => ?_)
  dsimp only
  refine inv_retire _ _ ?_
  split
  · exact State.inv_cancelOp h
  · exact h

theorem keepsInv_execHpass {g : BitVec 2} {d a : BitVec 6} {b : Src} {s : State} (h : s.Inv) :
    KeepsInv (execHpass g d a b s) := by
  unfold execHpass
  refine keepsInv_issueOnce h (fun _ _ => ?_)
  dsimp only
  split
  · split
    · exact inv_retire _ _ h
    · split
      · exact inv_waitFor h
      · exact inv_retire _ _ h
  · split
    · exact inv_addrTrap h
    · split
      · exact inv_waitFor h
      · exact inv_retire _ _ (State.inv_putAgent h)

/-! ### What `Sys2Proof/Machine/Sched.lean` defines -/

theorem State.inv_renameAgent {s : State} {f : Nat → Nat} (h : s.Inv) : (s.renameAgent f).Inv := h

theorem State.inv_renameGroup {s : State} {f : Nat → Nat} (h : s.Inv) : (s.renameGroup f).Inv := h

theorem State.inv_updAny {s : State} {id : Nat} {f : Agent → Agent} (h : s.Inv) : (s.updAny id f).Inv := by
  unfold State.updAny
  split
  · exact State.inv_putAgent h
  · exact h

theorem State.inv_tqAppend {s : State} {p n : Nat} {r : TaskRec} (h : s.Inv) : (s.tqAppend p n r).Inv :=
  State.inv_of_mem rfl (State.inv_pkStore _ _ _ _ h)

theorem State.inv_took {s : State} {p rec : Nat} (h : s.Inv) : (s.took p rec).Inv := h

theorem State.inv_tqPop {s : State} {p n : Nat} (h : s.Inv) : (s.tqPop p n).2.Inv := State.inv_took h

theorem State.inv_putLaunch {s : State} {x : Launch} (h : s.Inv) : (s.putLaunch x).Inv := h

theorem State.inv_pwrTake {s : State} {p n : Nat} (h : s.Inv) : (s.pwrTake p n).Inv := h

theorem State.inv_pwrGive {s : State} {p n : Nat} (h : s.Inv) : (s.pwrGive p n).Inv := h

theorem State.inv_raiseOp {s : State} {x : Launch} {die : Nat} (h : s.Inv) : (s.raiseOp x die).Inv := h

theorem State.inv_sendPacket {s : State} {x : Launch} {k : Packet} (h : s.Inv) : (s.sendPacket x k).Inv := h

theorem State.inv_dispatchNext {s : State} {l u : Nat} (h : s.Inv) : (s.dispatchNext l u).Inv := by
  unfold State.dispatchNext
  split
  · exact h
  · split
    · dsimp only
      exact State.inv_sendPacket (State.inv_putLaunch h)
    · split
      · exact h
      · dsimp only
        exact State.inv_sendPacket (State.inv_putLaunch h)

theorem State.inv_resumeOn {s : State} {l ctx u : Nat} (h : s.Inv) : (s.resumeOn l ctx u).Inv := by
  unfold State.resumeOn
  split
  · exact h
  · exact State.inv_sendPacket h

theorem State.inv_dispatch {s : State} {x : Launch} {u : Nat} (h : s.Inv) : (s.dispatch x u).Inv := by
  unfold State.dispatch
  dsimp only
  split
  · exact State.inv_foldl _ _ (fun _ _ ht => State.inv_dispatchNext ht) (State.inv_took h)
  · exact State.inv_foldl _ _ (fun _ _ ht => State.inv_resumeOn ht) (State.inv_took h)

theorem State.inv_startAgent {s : State} {x : Launch} {u gw : Nat} {entry : DWord} {args : List Word} (h : s.Inv) :
    (s.startAgent x u gw entry args).Inv :=
  State.inv_putAgent (State.inv_acquire h)

theorem State.inv_startTask {s : State} {x : Launch} {u gw : Nat} {r : TaskRec} (h : s.Inv) :
    (s.startTask x u gw r).Inv :=
  State.inv_startAgent h

theorem State.inv_startGroup {s : State} {x : Launch} {k : Packet} (h : s.Inv) : (s.startGroup x k).Inv := by
  unfold State.startGroup
  extract_lets u us n s1 s2
  have h1 : s1.Inv := by
    refine State.inv_foldl _ _ (fun t v ht => ?_) h
    dsimp only
    split
    · exact State.inv_of_dropRange (s := t) rfl ht
    · exact State.inv_of_dropRange (s := t) rfl ht
  have h2 : s2.Inv := State.inv_putLaunch h1
  split
  · split
    · exact State.inv_startAgent h2
    · exact h2
  · exact State.inv_foldl _ _ (fun _ _ ht => State.inv_startAgent ht) h2

theorem State.inv_dropBindings {s : State} {g : Nat} (h : s.Inv) : (s.dropBindings g).Inv := h

theorem State.inv_forgetGroup {s : State} {g : Nat} (h : s.Inv) : (s.forgetGroup g).Inv :=
  State.inv_renameGroup (State.inv_dropBindings h)

theorem State.inv_refuseBlocks {s : State} {q : Nat} (h : s.Inv) : (s.refuseBlocks q).Inv :=
  State.inv_foldl _ _ (fun _ _ ht => State.inv_updAny ht) h

theorem State.inv_freeUnit {s : State} {u : Nat} (h : s.Inv) : (s.freeUnit u).Inv := by
  unfold State.freeUnit
  dsimp only
  refine State.inv_foldl _ _ (fun _ _ ht => ?_) (State.inv_pwrGive h)
  refine State.inv_putUnit ?_
  split
  · exact State.inv_putQuad (State.inv_refuseBlocks ht)
  · exact ht

theorem State.inv_completeLaunch {s : State} {l : Nat} {killed : Bool} (h : s.Inv) :
    (s.completeLaunch l killed).Inv :=
  h

theorem State.inv_retireAgent {s : State} {id : Nat} (h : s.Inv) : (s.retireAgent id).Inv := by
  unfold State.retireAgent
  split
  · exact h
  · dsimp only
    split
    · exact h
    · exact State.inv_putAgent h

theorem State.inv_endGroup {s : State} {u : Nat} (h : s.Inv) : (s.endGroup u).Inv := by
  unfold State.endGroup
  dsimp only
  split
  · exact State.inv_putLaunch (State.inv_freeUnit (State.inv_forgetGroup h))
  · exact State.inv_freeUnit (State.inv_forgetGroup h)

theorem State.inv_dropSaved {s : State} {c : Nat} (h : s.Inv) : (s.dropSaved c).Inv :=
  State.inv_of_mem (s := s) rfl h

theorem State.inv_dropPackets {s : State} {x : Launch} (h : s.Inv) : (s.dropPackets x).Inv := h

theorem State.inv_checkLaunch {s : State} {l : Nat} (h : s.Inv) : (s.checkLaunch l).Inv := by
  unfold State.checkLaunch
  split
  · exact h
  · split
    · dsimp only
      exact State.inv_completeLaunch (State.inv_dropPackets (State.inv_foldl _ _ (fun _ _ ht => State.inv_dropSaved
        ht) (State.inv_foldl _ _ (fun _ _ ht => State.inv_endGroup ht) h)))
    · exact h

theorem State.inv_endAgent {s : State} {id : Nat} (h : s.Inv) : (s.endAgent id).Inv := by
  unfold State.endAgent
  split
  · exact h
  · dsimp only
    refine State.inv_checkLaunch ?_
    split
    · split
      · exact State.inv_endGroup (State.inv_widow (State.inv_retireAgent h))
      · exact State.inv_widow (State.inv_retireAgent h)
    · split
      · exact State.inv_endGroup (State.inv_widow (State.inv_retireAgent h))
      · exact State.inv_widow (State.inv_retireAgent h)

theorem State.inv_killAgents {s : State} {u : Nat} (h : s.Inv) : (s.killAgents u).Inv :=
  State.inv_foldl _ _ (fun _ _ ht => State.inv_retireAgent ht) h

theorem State.inv_killLaunch {s : State} {l : Nat} (h : s.Inv) : (s.killLaunch l).Inv := by
  unfold State.killLaunch
  split
  · exact h
  · dsimp only
    exact State.inv_completeLaunch (State.inv_dropPackets (State.inv_foldl _ _ (fun _ _ ht => State.inv_dropSaved ht)
      (State.inv_foldl _ _ (fun _ _ ht => State.inv_endGroup (State.inv_killAgents ht)) h)))

theorem State.inv_preempt {s : State} {u : Nat} (h : s.Inv) : (s.preempt u).Inv := by
  unfold State.preempt
  dsimp only
  split
  · split
    · refine State.inv_foldl _ _ (fun _ _ ht => ?_) h
      split
      · exact State.inv_putUnit ht
      · exact ht
    · split
      · exact State.inv_putUnit h
      · exact h
  · split
    · exact State.inv_putUnit h
    · exact h

theorem State.inv_placeFire {s : State} {l p : Nat} {r : TaskRec} {inputs : List (DWord × Nat)} {die : Option Nat}
    (h : s.Inv) : (s.placeFire l p r inputs die).Inv := by
  unfold State.placeFire
  dsimp only
  split
  · exact State.inv_putUnit h
  · split
    · split
      · exact State.inv_tqAppend h
      · exact h
    · exact h

theorem State.inv_fire {s : State} {e : Nat} {x : DepEnt} (h : s.Inv) : (s.fire e x).Inv := by
  unfold State.fire
  dsimp only
  split
  · exact State.inv_raiseEvent _ _ h
  · exact State.inv_placeFire h

/-! ### What `Sys2Proof/Machine/Sync.lean` defines -/

theorem keepsInv_execFence {scope : BitVec 3} {ack log : Bool} {g : BitVec 2} {s : State} (h : s.Inv) :
    KeepsInv (execFence scope ack log g s) := by
  unfold execFence
  refine keepsInv_issueOnce h (fun _ _ => ?_)
  split
  · split
    · exact inv_waitFor h
    · exact inv_retire _ _ h
  · dsimp only
    exact inv_waitFor h

theorem State.inv_putBar {s : State} {u off : Nat} {w : DWord} (h : s.Inv) : (s.putBar u off w).Inv :=
  State.inv_spadStore h

theorem inv_barWait {s : State} {id : Nat} {ag : Agent} {d a : Nat} {tok : Word} (h : s.Inv) :
    (barWait s id ag d a tok).Inv := by
  unfold barWait
  dsimp only
  split
  · exact inv_waitFor h
  · exact inv_retire _ _ (State.inv_acquire h)

theorem State.inv_arrive {s : State} {u a : Nat} (h : s.Inv) : (s.arrive u a).Inv := State.inv_putBar h

theorem keepsInv_barrierOp {arriveOnly : Bool} {g : BitVec 2} {d : BitVec 6} {a b : Src} {s : State} (h : s.Inv) :
    KeepsInv (barrierOp arriveOnly g d a b s) := by
  unfold barrierOp
  refine keepsInv_issueOnce h (fun _ _ => ?_)
  dsimp only
  split
  · exact inv_barWait h
  · split
    · exact inv_trapHere _ _ _ _ h
    · split
      · exact inv_retire _ _ (State.inv_putUnit h)
      · split
        · exact inv_trapHere _ _ _ _ h
        · split
          · split
            · exact inv_waitFor h
            · split
              · exact inv_retire _ _ (State.inv_arrive h)
              · exact inv_barWait (State.inv_arrive h)
          · split
            · exact inv_waitFor (State.inv_putBar (State.inv_putUnit h))
            · split
              · exact inv_retire _ _ (State.inv_arrive (State.inv_putBar (State.inv_putUnit h)))
              · exact inv_barWait (State.inv_arrive (State.inv_putBar (State.inv_putUnit h)))

theorem keepsInv_execBarw {g : BitVec 2} {d : BitVec 6} {a b : Src} {s : State} (h : s.Inv) :
    KeepsInv (execBarw g d a b s) := by
  unfold execBarw
  refine keepsInv_issueOnce h (fun _ _ => ?_)
  split
  · exact inv_barWait h
  · dsimp only
    split
    · exact inv_trapHere _ _ _ _ h
    · split
      · exact inv_trapHere _ _ _ _ h
      · split
        · exact inv_waitFor h
        · exact inv_barWait h

theorem State.inv_arriveAt {s : State} {ag : Agent} {all : Bool} {n : Nat} {a : Arrival} (h : s.Inv) :
    (s.arriveAt ag all n a).Inv := by
  unfold State.arriveAt
  split
  · exact h
  · exact h

theorem State.inv_takeResult {s : State} {k : Nat} {r : Redn} (h : s.Inv) : (s.takeResult k r).Inv := h

theorem keepsInv_execDbar {g : BitVec 2} {d : BitVec 6} {s : State} (h : s.Inv) : KeepsInv (execDbar g d s) := by
  unfold execDbar
  refine keepsInv_issueOnce h (fun _ _ => ?_)
  dsimp only
  split
  · split
    · split
      · exact inv_retire _ _ (State.inv_takeResult (State.inv_acquire h))
      · exact inv_waitFor h
    · exact inv_waitFor h
  · split
    · split
      · exact inv_waitFor h
      · exact inv_retire _ _ h
    · split
      · exact inv_waitFor h
      · split
        · split
          · exact inv_retire _ _ (State.inv_takeResult (State.inv_acquire (State.inv_arriveAt h)))
          · exact inv_waitFor (State.inv_arriveAt h)
        · exact inv_waitFor (State.inv_arriveAt h)

theorem inv_waitwAgain {s : State} {id : Nat} {ag : Agent} {ea : DWord} (h : s.Inv) : (waitwAgain s id ag ea).Inv :=
  inv_waitFor h

theorem inv_waitwRead {s : State} {id : Nat} {ag : Agent} {d : Nat} {ea : DWord} {v cmp : Word} {sc : Nat} (h : s.Inv) :
    (waitwRead s id ag d ea v cmp sc).Inv := by
  unfold waitwRead
  split
  · exact inv_waitwAgain h
  · exact inv_retire _ _ (State.inv_acquire h)

theorem keepsInv_execWaitw {g : BitVec 2} {d : BitVec 6} {a b : Src} {s : State} (h : s.Inv) :
    KeepsInv (execWaitw g d a b s) := by
  unfold execWaitw
  refine keepsInv_issueOnce h (fun _ _ => ?_)
  dsimp only
  split
  · split
    · exact inv_addrTrap h
    · split
      · exact inv_trapHere _ _ _ _ h
      · split
        · exact inv_waitFor h
        · exact inv_waitwRead h
  · split
    · exact inv_waitwRead h
    · split
      · exact inv_addrTrap h
      · split
        · exact inv_addrTrap h
        · exact State.inv_hold h
        · exact inv_waitwAgain h
        · split
          · exact inv_waitwAgain h
          · exact inv_waitwAgain (State.inv_sendOff h)
        · split
          · exact State.inv_hold h
          · split
            · exact inv_addrTrap (State.inv_violationOf _ _ _ h)
            · split
              · exact inv_waitwAgain h
              · exact inv_waitwRead (State.inv_noteRead _ _ _ _ _ (State.inv_acquire (State.inv_putAgent
                  (State.inv_noteAgXlat _ _ h))))

theorem keepsInv_execWakew {g : BitVec 2} {a : Src} {s : State} (h : s.Inv) : KeepsInv (execWakew g a s) := by
  unfold execWakew
  refine keepsInv_issueOnce h (fun _ _ => ?_)
  dsimp only
  split
  · split
    · exact inv_addrTrap h
    · split
      · exact inv_waitFor h
      · exact inv_retire _ _ (State.inv_wake h)
  · split
    · exact inv_addrTrap h
    · split
      · exact inv_waitFor h
      · exact inv_retire _ _ (State.inv_wake h)

/-! ### What `Sys2Proof/Machine/VectorFloat.lean` defines -/

theorem keepsInv_fp32Op {o : FOp} {g : BitVec 2} {d : BitVec 6} {a b : Src} {s : State} (h : s.Inv) :
    KeepsInv (fp32Op o g d a b s) :=
  keepsInv_vecOp h

theorem keepsInv_fp64Op {o : FOp} {g : BitVec 2} {d : BitVec 6} {a b : Src} {s : State} (h : s.Inv) :
    KeepsInv (fp64Op o g d a b s) :=
  keepsInv_vecOp h

theorem keepsInv_fp32Bits {f : Word → Word} {g : BitVec 2} {d : BitVec 6} {a : Src} {s : State} (h : s.Inv) :
    KeepsInv (fp32Bits f g d a s) :=
  keepsInv_vecOp h

theorem keepsInv_floatCmp {c : FCond} {dbl : Bool} {g : BitVec 2} {d : BitVec 6} {a b : Src} {s : State} (h : s.Inv) :
    KeepsInv (floatCmp c dbl g d a b s) :=
  keepsInv_vecOp h

/-! ### What `Sys2Proof/Machine/System.lean` defines -/

theorem keepsInv_execTrap {g : BitVec 2} {a : Src} {s : State} (h : s.Inv) : KeepsInv (execTrap g a s) :=
  keepsInv_issueOnce h (fun _ _ => inv_retireThenTrap h)

theorem keepsInv_execEret {g : BitVec 2} {s : State} (h : s.Inv) : KeepsInv (execEret g s) := by
  unfold execEret
  refine keepsInv_issue h (fun _ _ => ?_)
  split
  · exact inv_trapWord h
  · split <;> exact inv_retire _ _ h

theorem keepsInv_execCsrr {g : BitVec 2} {d a : BitVec 6} {s : State} (h : s.Inv) : KeepsInv (execCsrr g d a s) := by
  unfold execCsrr
  refine keepsInv_issue h (fun _ _ => ?_)
  split
  · exact inv_trapWord h
  · split
    · exact inv_retire _ _ h
    · split
      · exact inv_waitFor h
      · dsimp only
        exact inv_retire _ _ h

theorem keepsInv_execCsrw {g : BitVec 2} {d : BitVec 6} {a : Src} {s : State} (h : s.Inv) :
    KeepsInv (execCsrw g d a s) := by
  unfold execCsrw
  refine keepsInv_issue h (fun _ _ => ?_)
  split
  · exact inv_trapWord h
  · split
    · exact inv_retire _ _ h
    · split
      · exact inv_waitFor h
      · exact inv_retire _ _ h

theorem keepsInv_execWfi {g : BitVec 2} {s : State} (h : s.Inv) : KeepsInv (execWfi g s) := by
  unfold execWfi
  refine keepsInv_issue h (fun _ _ => ?_)
  split
  · split
    · exact inv_retire _ _ h
    · exact inv_waitFor h
  · split
    · exact inv_retire _ _ h
    · exact inv_waitFor h

theorem keepsInv_execIfence {g : BitVec 2} {s : State} (h : s.Inv) : KeepsInv (execIfence g s) := by
  unfold execIfence
  refine keepsInv_issueOnce h (fun _ _ => ?_)
  split
  · exact inv_waitFor h
  · dsimp only
    exact inv_retire _ _ h

theorem State.inv_dropXlat {s : State} {p : Nat} {m : MapRange} (h : s.Inv) : (s.dropXlat p m).Inv := h

theorem keepsInv_execMapinv {g : BitVec 2} {a : Src} {b : BitVec 6} {s : State} (h : s.Inv) :
    KeepsInv (execMapinv g a b s) := by
  unfold execMapinv
  refine keepsInv_issue h (fun _ _ => ?_)
  split
  split
  · dsimp only
    exact inv_retire _ _ (State.inv_dropXlat h)
  · exact inv_waitFor h

theorem State.inv_harvestEntry {s : State} {x : Nat × DWord × Nat} (h : s.Inv) : (s.harvestEntry x).Inv := by
  unfold State.harvestEntry
  split
  dsimp only
  split
  · exact State.inv_pkStore _ _ _ _ h
  · exact h

theorem keepsInv_execHarvest {g : BitVec 2} {a : Src} {b : BitVec 6} {s : State} (h : s.Inv) :
    KeepsInv (execHarvest g a b s) := by
  unfold execHarvest
  refine keepsInv_issue h (fun _ _ => ?_)
  split
  exact inv_retire _ _ (State.inv_foldl _ _ (fun _ _ ht => State.inv_harvestEntry ht) h)

theorem keepsInv_execKeyset {g : BitVec 2} {d : BitVec 6} {a : Src} {s : State} (h : s.Inv) :
    KeepsInv (execKeyset g d a s) := by
  unfold execKeyset
  refine keepsInv_issue h (fun _ _ => ?_)
  dsimp only
  split <;> exact inv_retire _ _ h

theorem State.inv_dropSpans {s : State} {slot : BitVec 8} (h : s.Inv) : (s.dropSpans slot).Inv := h

theorem State.inv_dropTagged {s : State} {slot : BitVec 8} (h : s.Inv) : (s.dropTagged slot).Inv :=
  State.inv_foldl _ _ (fun _ _ ht => State.inv_evictLine _ ht) h

theorem State.inv_killKey {s : State} {n : Nat} (h : s.Inv) : (s.killKey n).Inv :=
  State.inv_of_mem rfl (State.inv_foldl _ _ (fun _ _ ht => State.inv_zeroRange ht) (State.inv_of_mem rfl
    (State.inv_dropTagged (State.inv_dropSpans h))))

theorem keepsInv_execKeykill {g : BitVec 2} {d : BitVec 6} {a : Src} {s : State} (h : s.Inv) :
    KeepsInv (execKeykill g d a s) := by
  unfold execKeykill
  refine keepsInv_issue h (fun _ _ => ?_)
  dsimp only
  split
  · exact inv_retire _ _ (State.inv_killKey h)
  · split
    · exact inv_waitFor h
    · exact inv_retire _ _ h

theorem State.inv_noteImage {s : State} {id : Nat} {ag : Agent} {va : DWord} {n : Nat} (h : s.Inv) :
    (s.noteImage id ag va n).Inv := by
  unfold State.noteImage
  dsimp only
  refine State.inv_foldl _ _ (fun _ _ ht => ?_) h
  split
  · exact State.inv_noteRead _ _ _ _ _ ht
  · exact ht

theorem State.inv_measure {s : State} {p : Nat} {image : List Byte} (h : s.Inv) : (s.measure p image).Inv := h

theorem keepsInv_execPolld {g : BitVec 2} {d : BitVec 6} {a b : Src} {s : State} (h : s.Inv) :
    KeepsInv (execPolld g d a b s) := by
  unfold execPolld
  refine keepsInv_issue h (fun _ _ => ?_)
  dsimp only
  split
  · exact inv_addrTrap h
  · split
    · exact inv_retire _ _ h
    · split
      · exact State.inv_hold h
      · exact inv_waitFor h
      · exact State.inv_askFar h
      · exact inv_addrTrap (State.inv_violationOf _ _ _ h)
      · exact inv_addrTrap h
      · refine inv_retire _ _ ?_
        split
        · exact State.inv_measure (State.inv_putPol (State.inv_noteImage (State.inv_putAgent h)))
        · exact State.inv_noteImage (State.inv_putAgent h)

theorem keepsInv_execPolsw {g : BitVec 2} {d : BitVec 6} {a : Src} {s : State} (h : s.Inv) :
    KeepsInv (execPolsw g d a s) := by
  unfold execPolsw
  refine keepsInv_issue h (fun _ _ => ?_)
  dsimp only
  split
  · split
    · exact inv_retire _ _ h
    · exact inv_waitFor h
  · split
    · exact inv_retire _ _ h
    · split
      · exact inv_retire _ _ (State.inv_putPol h)
      · exact inv_waitFor (State.inv_putPol h)

/-! ### What `Sys2Proof/Machine/Fabric.lean` defines -/

theorem State.inv_wsigFlag {s : State} {id : Nat} {ag : Agent} {op w o : Nat} {v : Word} {add : Bool} (h : s.Inv) :
    (s.wsigFlag id ag op w o v add).Inv := by
  unfold State.wsigFlag
  split
  · refine inv_retire _ _ ?_
    rename_i he
    exact State.inv_post he h
  · exact inv_waitFor (State.inv_askWin h)

theorem keepsInv_execWsig {g : BitVec 2} {d : BitVec 6} {a : Src} {b : BitVec 6} {s : State} (h : s.Inv) :
    KeepsInv (execWsig g d a b s) := by
  unfold execWsig
  refine keepsInv_issueOnce h (fun _ _ => ?_)
  dsimp only
  split
  · split
    · exact State.inv_wsigFlag h
    · exact inv_retire _ _ h
  · split
    · exact inv_waitFor h
    · split
      · exact inv_retire _ _ h
      · split
        · exact inv_addrTrap h
        · split
          · exact inv_trapHere _ _ _ _ h
          · split
            · exact inv_waitFor h
            · split
              · split
                · refine inv_retire _ _ ?_
                  rename_i he
                  exact State.inv_post he h
                · exact inv_waitFor (State.inv_askWin h)
              · split
                · refine State.inv_wsigFlag ?_
                  rename_i he
                  exact State.inv_post he h
                · exact inv_waitFor (State.inv_askWin h)

theorem keepsInv_execAllred {g : BitVec 2} {d : BitVec 6} {a b : Src} {s : State} (h : s.Inv) :
    KeepsInv (execAllred g d a b s) := by
  unfold execAllred
  refine keepsInv_issueOnce h (fun _ _ => ?_)
  dsimp only
  split
  · split
    · split
      · refine inv_retire _ _ ?_
        refine State.inv_takeResult ?_
        refine State.inv_acquire ?_
        split <;> exact State.inv_spadStore h
      · exact inv_waitFor h
    · exact inv_waitFor h
  · split
    · split
      · exact inv_waitFor h
      · exact inv_retire _ _ (State.inv_spadStore h)
    · split
      · exact inv_waitFor h
      · split
        · split
          · refine inv_retire _ _ ?_
            refine State.inv_takeResult ?_
            refine State.inv_acquire ?_
            split <;> exact State.inv_spadStore (State.inv_arriveAt h)
          · exact inv_waitFor (State.inv_arriveAt h)
        · exact inv_waitFor (State.inv_arriveAt h)
  · split
    · exact inv_addrTrap h
    · split
      · exact inv_waitFor h
      · split
        · split
          · exact inv_waitFor h
          · exact inv_retire _ _ (State.inv_spadStore h)
        · split
          · exact inv_waitFor h
          · split
            · split
              · refine inv_retire _ _ ?_
                refine State.inv_takeResult ?_
                refine State.inv_acquire ?_
                split <;> exact State.inv_spadStore (State.inv_arriveAt h)
              · exact inv_waitFor (State.inv_arriveAt h)
            · exact inv_waitFor (State.inv_arriveAt h)

theorem State.inv_winConfig {s : State} {ag : Agent} {w : Nat} {cfg : DWord} (h : s.Inv) : (s.winConfig ag w cfg).2.Inv := by
  unfold State.winConfig
  extract_lets u x fab s1 off sets on pkg die unit
  have h1 : s1.Inv := by
    unfold s1
    split <;> exact h
  have hoff : ∀ st t, t.Inv → (off st t).2.Inv := fun _ _ ht => ht
  have hon : ∀ t p g m, t.Inv → (on t p g m).2.Inv := fun _ _ _ _ ht => ht
  split
  · exact hoff _ _ h1
  · split
    · exact hoff _ _ h1
    · split
      · split
        · exact hoff _ _ h1
        · exact hon _ _ _ _ h1
      · split
        · exact hoff _ _ h1
        · dsimp only
          split
          · exact hoff _ _ h1
          · split
            · exact hon _ _ _ _ h1
            · exact hoff _ _ h1

theorem keepsInv_execWincfg {g : BitVec 2} {d : BitVec 6} {a b : Src} {s : State} (h : s.Inv) :
    KeepsInv (execWincfg g d a b s) := by
  unfold execWincfg
  refine keepsInv_issueOnce h (fun _ _ => ?_)
  dsimp only
  split
  · exact inv_addrTrap h
  · split
    · exact inv_waitFor h
    · exact inv_retire _ _ (State.inv_winConfig h)

theorem keepsInv_execNtime {g : BitVec 2} {d : BitVec 6} {a : Src} {s : State} (h : s.Inv) :
    KeepsInv (execNtime g d a s) := by
  unfold execNtime
  refine keepsInv_issueOnce h (fun _ _ => ?_)
  dsimp only
  split
  · exact inv_waitFor h
  · exact inv_retire _ _ h

/-! ### What `Sys2Proof/Machine/Sketch.lean` defines -/

theorem keepsInv_execSkclr {g : BitVec 2} {a b : Src} {s : State} (h : s.Inv) : KeepsInv (execSkclr g a b s) := by
  unfold execSkclr
  refine keepsInv_issueOnce h (fun _ _ => ?_)
  dsimp only
  split
  · exact inv_retire _ _ h
  · split
    · exact inv_trapHere _ _ _ _ h
    · split
      · exact inv_waitFor h
      · exact inv_retire _ _ (State.inv_spadStore h)

theorem State.inv_skInsert {s : State} {u a : Nat} {mode : Bool} {n : Nat} {k p : DWord} (h : s.Inv) :
    (s.skInsert u a mode n k p).Inv := by
  unfold State.skInsert
  refine State.inv_foldl _ _ (fun _ _ ht => ?_) h
  dsimp only
  exact State.inv_spadStore ht

theorem keepsInv_execSkins {g : BitVec 2} {d a : BitVec 6} {b : Src} {s : State} (h : s.Inv) :
    KeepsInv (execSkins g d a b s) := by
  unfold execSkins
  refine keepsInv_issue h (fun _ _ => ?_)
  dsimp only
  split
  · exact inv_retire _ _ h
  · split
    · exact inv_addrTrap h
    · split
      · exact inv_trapHere _ _ _ _ h
      · split
        · exact inv_waitFor h
        · exact inv_retire _ _ (State.inv_foldl _ _ (fun _ _ ht => State.inv_skInsert ht) h)

theorem keepsInv_execSkrecon {g : BitVec 2} {d : BitVec 6} {a : Src} {s : State} (h : s.Inv) :
    KeepsInv (execSkrecon g d a s) := by
  unfold execSkrecon
  refine keepsInv_issue h (fun _ _ => ?_)
  split
  · exact inv_trapWord h
  · split
    · exact inv_retire _ _ h
    · dsimp only
      split
      · exact inv_addrTrap h
      · split
        · exact inv_trapHere _ _ _ _ h
        · split
          · exact inv_waitFor h
          · split
            · split
              · exact inv_waitFor h
              · exact inv_retire _ _ h
            · split
              · exact inv_trapHere _ _ _ _ h
              · split
                · exact inv_waitFor h
                · exact inv_retire _ _ (State.inv_of_mem rfl (State.inv_released h))

theorem keepsInv_execSkstat {g : BitVec 2} {d a : BitVec 6} {s : State} (h : s.Inv) :
    KeepsInv (execSkstat g d a s) := by
  unfold execSkstat
  refine keepsInv_issue h (fun _ _ => ?_)
  split
  · exact inv_trapWord h
  · split
    · exact inv_retire _ _ h
    · dsimp only
      split
      · exact inv_waitFor h
      · refine inv_retire _ _ ?_
        split
        · exact State.inv_acquire h
        · exact h

/-! ### What `Sys2Proof/Machine/Platform.lean` defines -/

theorem keepsInv_execCxlDeviceLoss {port : Nat} {s : State} (h : s.Inv) : KeepsInv (execCxlDeviceLoss port s) := by
  unfold execCxlDeviceLoss
  apply keepsInv_next
  split
  · exact h
  · dsimp only
    refine State.inv_foldl _ _ (fun _ _ ht => ?_) h
    split
    · exact State.inv_record _ _ _ _ ht
    · exact ht

@[simp] theorem State.buildCap_mem (s : State) : s.buildCap.mem = s.mem := by unfold State.buildCap; rfl

theorem State.inv_buildCap {s : State} (h : s.Inv) : s.buildCap.Inv := State.inv_of_mem s.buildCap_mem h

/-! ### What `Sys2Proof/Machine/State.lean` defines -/

theorem State.inv_reset : State.reset.Inv := reset_mem_wf

/-! ### What `Sys2Proof/Machine/Platform.lean` defines -/

theorem State.inv_bumpGen {s : State} (h : s.Inv) : s.bumpGen.Inv := h

theorem State.inv_rewriteCap {s : State} (h : s.Inv) : s.rewriteCap.Inv := by
  unfold State.rewriteCap
  split
  · exact h
  · exact State.inv_bumpGen h

theorem State.inv_capStep {s : State} (h : s.Inv) : s.capStep.Inv := by
  unfold State.capStep
  split
  · exact h
  · split
    · exact State.inv_bumpGen h
    · exact State.inv_buildCap h

theorem State.inv_putDie {s : State} {n : Nat} {d : Die} (h : s.Inv) : (s.putDie n d).Inv := h

theorem State.inv_countFenced {s : State} {n : Nat} (h : s.Inv) : (s.countFenced n).Inv := h

theorem State.inv_recordFence {s : State} {us : List Nat} {w : Word} (h : s.Inv) : (s.recordFence us w).Inv := by
  unfold State.recordFence
  dsimp only
  split
  · exact State.inv_recordRs _ _ h
  · refine State.inv_foldl _ _ (fun _ _ ht => ?_) h
    split <;> exact State.inv_record _ _ _ _ ht

theorem State.inv_loseAgent {s : State} {id : Nat} (h : s.Inv) : (s.loseAgent id).Inv := h

theorem State.inv_loseAgents {s : State} {u : Nat} (h : s.Inv) : (s.loseAgents u).Inv :=
  State.inv_foldl _ _ (fun _ _ ht => State.inv_loseAgent ht) h

theorem State.inv_loseGroup {s : State} {u : Nat} (h : s.Inv) : (s.loseGroup u).Inv := by
  unfold State.loseGroup
  dsimp only
  split
  · exact State.inv_loseAgents h
  · exact State.inv_loseAgents h
  · exact State.inv_checkLaunch (State.inv_endGroup (State.inv_loseAgents (State.inv_record _ _ _ _ h)))

theorem State.inv_fenceBit {s : State} {u : Nat} (h : s.Inv) : (s.fenceBit u).Inv :=
  State.inv_countFenced (State.inv_putDie h)

theorem State.inv_fenceUnit {s : State} {u : Nat} {answers : Bool} (h : s.Inv) : (s.fenceUnit u answers).Inv := by
  unfold State.fenceUnit
  dsimp only
  refine State.inv_fenceBit ?_
  split
  · exact State.inv_preempt h
  · exact State.inv_putUnit (State.inv_loseGroup h)

theorem keepsInv_execFenceCu {die c : Nat} {answers : Bool} {s : State} (h : s.Inv) :
    KeepsInv (execFenceCu die c answers s) := by
  unfold execFenceCu
  dsimp only
  apply keepsInv_next
  split
  · exact State.inv_rewriteCap (State.inv_fenceUnit (State.inv_recordFence h))
  · exact h

theorem keepsInv_execFenceQuadrant {die q : Nat} {answers : Bool} {s : State} (h : s.Inv) :
    KeepsInv (execFenceQuadrant die q answers s) := by
  unfold execFenceQuadrant
  dsimp only
  apply keepsInv_next
  split
  · exact State.inv_rewriteCap (State.inv_fenceUnit (State.inv_recordFence h))
  · exact h

theorem keepsInv_execFenceDramBank {stack bank : Nat} {s : State} (h : s.Inv) :
    KeepsInv (execFenceDramBank stack bank s) := by
  unfold execFenceDramBank
  apply keepsInv_next
  split
  · exact h
  · dsimp only
    exact State.inv_rewriteCap (State.inv_countFenced (State.inv_recordRs _ _ h))

theorem State.inv_putLink {s : State} {n : Nat} {l : RingLink} (h : s.Inv) : (s.putLink n l).Inv := h

theorem State.inv_downLink {s : State} {n : Nat} (h : s.Inv) : (s.downLink n).Inv := by
  unfold State.downLink
  split
  refine State.inv_recordRs _ _ ?_
  rename_i he
  exact State.inv_snd he (State.inv_draw (State.inv_putLink h))

theorem State.inv_narrow {s : State} {n width : Nat} (h : s.Inv) : (s.narrow n width).Inv := by
  unfold State.narrow
  dsimp only
  split
  · exact State.inv_downLink h
  · exact State.inv_putLink h

theorem keepsInv_execFenceLinkLane {die lane : Nat} {s : State} (h : s.Inv) :
    KeepsInv (execFenceLinkLane die lane s) := by
  unfold execFenceLinkLane
  apply keepsInv_next
  split
  · exact h
  · dsimp only
    exact State.inv_rewriteCap (State.inv_countFenced (State.inv_recordRs _ _ (State.inv_narrow h)))

theorem keepsInv_execFenceDie {die : Nat} {answers : Bool} {s : State} (h : s.Inv) :
    KeepsInv (execFenceDie die answers s) := by
  unfold execFenceDie
  apply keepsInv_next
  split
  · exact h
  · dsimp only
    refine State.inv_rewriteCap ?_
    refine State.inv_putDie ?_
    split
    · exact State.inv_countFenced (State.inv_recordFence h)
    · exact State.inv_foldl _ _ (fun _ _ ht => State.inv_fenceUnit ht) (State.inv_recordFence h)

theorem keepsInv_execFlitAck {link : Nat} {base : BitVec 8} {bitmap : BitVec 64} {s : State} (h : s.Inv) :
    KeepsInv (execFlitAck link base bitmap s) := by
  unfold execFlitAck
  dsimp only
  apply keepsInv_next
  split
  · exact h
  · split
    · exact State.inv_downLink h
    · exact State.inv_putLink h

theorem keepsInv_execLinkWidthChange {link width : Nat} {s : State} (h : s.Inv) :
    KeepsInv (execLinkWidthChange link width s) := by
  unfold execLinkWidthChange
  dsimp only
  apply keepsInv_next
  split
  · exact State.inv_putLink h
  · exact h

theorem keepsInv_execLaneFailure {link width : Nat} {s : State} (h : s.Inv) :
    KeepsInv (execLaneFailure link width s) := by
  unfold execLaneFailure
  dsimp only
  apply keepsInv_next
  split
  · exact h
  · exact State.inv_rewriteCap (State.inv_countFenced (State.inv_recordRs _ _ (State.inv_narrow h)))

theorem State.inv_endPart {s : State} {p : Nat} (h : s.Inv) : (s.endPart p).Inv :=
  State.inv_of_mem rfl (State.inv_foldl _ _ (fun _ _ ht => State.inv_killKey ht) h)

theorem State.inv_endParts {s : State} (h : s.Inv) : s.endParts.Inv :=
  State.inv_foldl _ _ (fun _ _ ht => State.inv_endPart ht) h

theorem keepsInv_execHeartbeat {die : Nat} {answered : Bool} {temps : List Nat} {s : State} (h : s.Inv) :
    KeepsInv (execHeartbeat die answered temps s) := by
  unfold execHeartbeat
  dsimp only
  apply keepsInv_next
  split
  · exact State.inv_endParts (State.inv_capStep h)
  · split
    · exact State.inv_foldl _ _ (fun _ _ ht => State.inv_putUnit ht) (State.inv_putDie (State.inv_endParts
        (State.inv_capStep h)))
    · exact State.inv_putDie (State.inv_endParts (State.inv_capStep h))

theorem State.inv_dropCircuits {s : State} {die : Nat} (h : s.Inv) : (s.dropCircuits die).Inv := h

theorem State.inv_redispatch {die : Nat} {ks : List Packet} : ∀ {s : State}, s.Inv → (s.redispatch die ks).Inv := by
  induction ks with
  | nil => exact fun h => h
  | cons k ks ih =>
    intro s h
    unfold State.redispatch
    dsimp only
    split
    · exact ih (State.inv_of_mem (s := s) rfl h)
    · exact ih h

/-- Scratchpads that are forgotten one after another leave memory in its canonical form. -/
theorem Memory.wf_foldl_dropRange {lo n : Nat → Nat} (us : List Nat) : ∀ {m : List Host.Cell}, Memory.wf m = true →
    Memory.wf (us.foldl (fun m u => Tab.dropRange m (lo u) (n u)) m) = true := by
  induction us with
  | nil => exact fun h => h
  | cons u us ih => exact fun h => ih (Tab.wf_filter 0 _ h)

theorem keepsInv_execIsolation {die : Nat} {s : State} (h : s.Inv) : KeepsInv (execIsolation die s) := by
  unfold execIsolation
  extract_lets d t1 t2 t3 gone _ _ t4 t5
  have h1 : t1.Inv := State.inv_dropCircuits (State.inv_putDie h)
  have h2 : t2.Inv := by
    unfold t2
    split
    · exact State.inv_cleanPeer h1
    · exact h1
  have h3 : t3.Inv := State.inv_foldl _ _ (fun _ _ ht => State.inv_loseGroup ht) h2
  have h4 : t4.Inv := Memory.wf_foldl_dropRange _ h3
  apply keepsInv_next
  split
  · exact h
  · exact State.inv_putDie (State.inv_redispatch h4)

theorem keepsInv_execChipletSelfTest {die mask : Nat} {s : State} (h : s.Inv) :
    KeepsInv (execChipletSelfTest die mask s) := by
  unfold execChipletSelfTest
  dsimp only
  apply keepsInv_next
  split
  · exact State.inv_putDie h
  · exact h

theorem State.inv_enumerate {s : State} {die mask : Nat} (h : s.Inv) : (s.enumerate die mask).Inv := by
  unfold State.enumerate
  dsimp only
  split
  · exact State.inv_putDie h
  · exact State.inv_countFenced (State.inv_putDie h)

theorem State.inv_introduce {s : State} {die mask : Nat} (h : s.Inv) : (s.introduce die mask).Inv :=
  State.inv_foldl _ _ (fun _ _ ht => State.inv_recordFence ht) (State.inv_enumerate h)

theorem State.inv_fenceAbsent {s : State} {die : Nat} (h : s.Inv) : (s.fenceAbsent die).Inv :=
  State.inv_recordRs _ _ (State.inv_countFenced (State.inv_putDie h))

theorem keepsInv_execEnumeration {die : Nat} {s : State} (h : s.Inv) : KeepsInv (execEnumeration die s) := by
  unfold execEnumeration
  dsimp only
  apply keepsInv_next
  split
  · split
    · exact h
    · exact State.inv_rewriteCap (State.inv_introduce h)
  · split
    · exact h
    · exact State.inv_rewriteCap (State.inv_introduce h)

theorem keepsInv_execStaleResponseDrop {reqDie : Nat} {reqInc : BitVec 8} {rspDie : Nat} {rspInc : BitVec 8}
    {s : State} (h : s.Inv) : KeepsInv (execStaleResponseDrop reqDie reqInc rspDie rspInc s) := by
  unfold execStaleResponseDrop
  apply keepsInv_next
  split <;> exact h

theorem State.inv_startCores {s : State} {entry : DWord} (h : s.Inv) : (s.startCores entry).Inv :=
  State.inv_foldl _ _ (fun _ _ ht => State.inv_putAgent ht) h

theorem State.inv_bootSlot {s : State} {b : Bool} (h : s.Inv) : (s.bootSlot b).Inv := by
  unfold State.bootSlot
  extract_lets hdr body ways _ _ t u
  have ht : t.Inv := State.inv_of_mem (s := s) rfl h
  exact State.inv_startCores (State.inv_foldl _ _ (fun _ _ hv => State.inv_setHome _ _ hv) ht)

theorem keepsInv_execPackageReset {cold : Bool} {s : State} : KeepsInv (execPackageReset cold s) := by
  unfold execPackageReset
  extract_lets _ _ _ t a ta _ _ t0 b tb _ _ _
  have ht : t.Inv := State.inv_of_mem (s := State.reset) (by unfold t; dsimp only) State.inv_reset
  have hta : ta.Inv := State.inv_bootSlot ht
  have ht0 : t0.Inv := State.inv_of_mem (s := t) (by unfold t0; dsimp only) ht
  have htb : tb.Inv := State.inv_bootSlot ht0
  apply keepsInv_next
  split
  · exact State.inv_of_mem (s := ta) (by dsimp only) hta
  · split
    · exact State.inv_of_mem (s := tb) (by dsimp only) htb
    · exact State.inv_of_mem (s := t0) (by dsimp only) ht0

theorem State.inv_createPart {s : State} {c : PartCfg} (h : s.Inv) : (s.createPart c).Inv :=
  State.inv_foldl _ _ (fun _ _ ht => State.inv_putUnit ht) h

theorem State.inv_loadKey {s : State} {e : Nat × Nat × Bool} (h : s.Inv) : (s.loadKey e).Inv := h

theorem State.inv_loadParts {s : State} {c : BootCfg} (h : s.Inv) : (s.loadParts c).Inv :=
  State.inv_foldl _ _ (fun _ _ ht => State.inv_measure (State.inv_putPol ht)) (State.inv_foldl _ _ (fun _ _ ht =>
    State.inv_measure ht) (State.inv_of_mem rfl (State.inv_foldl _ _ (fun _ _ ht => State.inv_loadKey ht)
    (State.inv_foldl _ _ (fun _ _ ht => State.inv_createPart ht) h))))

theorem keepsInv_execBootStage {n : Nat} {cfg : BootCfg} {s : State} (h : s.Inv) : KeepsInv (execBootStage n cfg s) := by
  unfold execBootStage
  extract_lets stage _ t seen t3 lost _ _ u
  have ht : t.Inv := State.inv_of_mem (s := s) rfl h
  apply keepsInv_next
  split
  · exact h
  · split
    · exact State.inv_buildCap (State.inv_foldl _ _ (fun _ _ hv => State.inv_fenceAbsent hv)
        (State.inv_foldl _ _ (fun _ _ hv => State.inv_introduce hv) ht))
    · exact State.inv_rewriteCap (State.inv_of_mem (s := t) rfl ht)
    · have hu : u.Inv := State.inv_of_mem (s := t) rfl ht
      split
      · exact hu
      · exact State.inv_rewriteCap hu
    · split
      · exact State.inv_loadParts ht
      · exact h
    · exact ht

theorem State.inv_writeSvn {s : State} {v : Nat} (h : s.Inv) : (s.writeSvn v).Inv := by
  unfold State.writeSvn
  split <;> exact h

theorem keepsInv_execSvnFuseWrite {v : Nat} {s : State} (h : s.Inv) : KeepsInv (execSvnFuseWrite v s) :=
  keepsInv_next (State.inv_writeSvn h)

theorem keepsInv_execOpPointChange {die : Nat} {s : State} (h : s.Inv) : KeepsInv (execOpPointChange die s) := by
  unfold execOpPointChange
  dsimp only
  apply keepsInv_next
  split
  · exact State.inv_putDie h
  · exact h

theorem State.inv_lowerOp {s t : State} {ds : List Nat} (ht : s.lowerOp ds = some t) (h : s.Inv) : t.Inv := by
  unfold State.lowerOp at ht
  dsimp only at ht
  split at ht
  · cases ht
  · cases ht
    refine State.inv_foldl _ _ (fun t _ ht => ?_) h
    exact ht

theorem State.inv_raiseLimit {s t : State} {ds : List Nat} (ht : s.raiseLimit ds = some t) (h : s.Inv) : t.Inv := by
  unfold State.raiseLimit at ht
  dsimp only at ht
  split at ht
  · cases ht
  · cases ht
    exact State.inv_of_mem (s := s) rfl h

theorem keepsInv_execPowerWindow {draw : Nat} {s : State} (h : s.Inv) : KeepsInv (execPowerWindow draw s) := by
  unfold execPowerWindow
  extract_lets arrays vectors ms plat t
  have ht : t.Inv := State.inv_of_mem (s := s) rfl h
  apply keepsInv_next
  split
  · split
    · exact State.inv_lowerOp ‹_› ht
    · exact State.inv_getD (fun _ hu => State.inv_lowerOp hu ht) ht
  · split
    · split
      · exact State.inv_raiseLimit ‹_› ht
      · exact State.inv_getD (fun _ hu => State.inv_raiseLimit hu ht) ht
    · exact ht

/-! ### What `Sys2Proof/Machine/Mmio.lean` defines -/

theorem State.inv_writeCirc {s : State} {c : Nat} {v : DWord} (h : s.Inv) : (s.writeCirc c v).Inv := by
  unfold State.writeCirc
  dsimp only
  split <;> exact h

theorem keepsInv_execCircWrite {c : Nat} {v : BitVec 64} {s : State} (h : s.Inv) :
    KeepsInv (execCircWrite c v s) := by
  unfold execCircWrite
  apply keepsInv_next
  split
  · exact h
  · exact State.inv_writeCirc h

theorem State.inv_circStep {s : State} {c from_ goal : Nat} (h : s.Inv) : (s.circStep c from_ goal).Inv := by
  unfold State.circStep
  dsimp only
  split <;> exact h

/-- The state that an outcome answers, else the state `s`. -/
theorem KeepsInv.next_or {s : State} {o : Out} (ho : KeepsInv o) (h : s.Inv) :
    (match o with | .next t => t | _ => s).Inv := by
  cases o with
  | next t => exact ho t rfl
  | fault f => exact h
  | refused r => exact h

theorem State.inv_writeFence {s : State} {v : DWord} (h : s.Inv) : (s.writeFence v).Inv := by
  unfold State.writeFence
  split
  · exact h
  · extract_lets _ t die idx answers run
    have ht : t.Inv := h
    have hrun : ∀ {o : Out}, KeepsInv o → (run o).Inv := fun ho => ho.next_or ht
    split
    · split
      · exact hrun (keepsInv_execFenceCu ht)
      · exact hrun (keepsInv_execFenceQuadrant ht)
      · exact hrun (keepsInv_execFenceDramBank ht)
      · exact hrun (keepsInv_execFenceLinkLane ht)
      · split
        · exact hrun (keepsInv_execFenceDie ht)
        · exact ht
      · exact ht
    · exact ht

theorem State.inv_put64 {s : State} {off : Nat} {v : DWord} (h : s.Inv) : (s.put64 off v).Inv := by
  unfold State.put64
  dsimp only
  split
  · exact h
  · exact h
  · exact State.inv_writeCirc h
  · exact h
  · exact h
  · exact h
  · exact h
  · split
    · exact h
    · exact h
    · exact State.inv_writeFence h
    · split <;> exact h

theorem State.inv_put32 {s : State} {off : Nat} {v : Word} (h : s.Inv) : (s.put32 off v).Inv := by
  unfold State.put32
  dsimp only
  split
  · exact State.inv_writeLim h
  · exact State.inv_writeSplit h
  · exact h
  · exact h
  · split
    · exact h
    · exact h
    · exact State.inv_writeSvn h
    · exact h
    · exact h

theorem State.inv_mmioWrite {s : State} {off n : Nat} {v : DWord} (h : s.Inv) : (s.mmioWrite off n v).Inv := by
  unfold State.mmioWrite
  split
  · exact State.inv_put64 h
  · split
    · exact State.inv_put32 (State.inv_put32 h)
    · exact State.inv_put32 h

theorem keepsInv_execRegisterWrite {off : Nat} {v : BitVec 64} {s : State} (h : s.Inv) :
    KeepsInv (execRegisterWrite off v s) := by
  unfold execRegisterWrite
  apply keepsInv_next
  split
  · exact h
  · split
    · exact State.inv_put64 h
    · exact State.inv_put32 h

/-! ### What `Sys2Proof/Machine/Order.lean` defines -/

theorem State.inv_putInner {s : State} {ag : Agent} {level : Nat} {wrote : Bool} {pa : Nat} {b : Byte} (h : s.Inv) :
    (s.putInner ag level wrote pa b).Inv := by
  unfold State.putInner
  dsimp only
  split <;> exact h

theorem State.inv_dropInner {s : State} {level idx : Nat} {addrs : List Nat} (h : s.Inv) :
    (s.dropInner level idx addrs).Inv := by
  unfold State.dropInner
  split <;> exact h

theorem State.inv_tick2 {s : State} (h : s.Inv) : s.tick2.Inv := h

theorem State.inv_settleLevel {s : State} {ag : Agent} {level : Nat} {addrs : List Nat} (h : s.Inv) :
    (s.settleLevel ag level addrs).Inv := by
  unfold State.settleLevel
  split
  · exact h
  · exact State.inv_dropInner h

theorem State.inv_settleRead {s : State} {ag : Agent} {level : Nat} {unc : Bool} {addrs : List Nat} (h : s.Inv) :
    (s.settleRead ag level unc addrs).Inv := by
  unfold State.settleRead
  split
  · exact h
  · dsimp only
    split
    · split
      · exact State.inv_settleLevel h
      · exact State.inv_settleLevel (State.inv_settleLevel h)
    · split
      · exact h
      · exact State.inv_settleLevel h

theorem State.inv_installAll {s : State} {ag : Agent} {unc : Bool} {slot : BitVec 8} {install : Nat}
    {addrs : List Nat} (h : s.Inv) : (s.installAll ag unc slot install addrs).Inv := by
  unfold State.installAll
  split
  · exact h
  · refine State.inv_foldl _ _ (fun _ _ ht => ?_) (State.inv_tick2 h)
    dsimp only
    split
    · split
      · exact State.inv_putInner (State.inv_putInner ht)
      · exact State.inv_putInner ht
    · split
      · exact State.inv_putInner ht
      · exact ht

theorem keepsInv_onOpen {s : State} {id n : Nat} {k : Agent → Access → State} (hk : ∀ a x, (k a x).Inv) (h : s.Inv) :
    KeepsInv (onOpen s id n k) := by
  unfold onOpen
  apply keepsInv_next
  split
  · split
    · split
      · exact hk _ _
      · exact h
    · exact h
  · exact h

theorem State.inv_noteLoss {s : State} {id : Nat} {ag : Agent} {k : Option Nat} {slot : BitVec 8} {pa : Nat}
    (h : s.Inv) : (s.noteLoss id ag k slot pa).Inv := by
  unfold State.noteLoss
  split
  · exact State.inv_updAgent _ _ (State.inv_recordLoss _ _ _ _ _ _ _ h)
  · exact h

theorem State.inv_lateError {s : State} {id : Nat} {ag : Agent} {slot : BitVec 8} {e : Access} (h : s.Inv) :
    (s.lateError id ag slot e).Inv := by
  unfold State.lateError
  dsimp only
  refine State.inv_updAgent _ _ ?_
  split
  · exact State.inv_violationOf _ _ _ h
  · exact h

theorem keepsInv_execLoadPerform {id n install : Nat} {ecc : Ecc} {s : State} (h : s.Inv) :
    KeepsInv (execLoadPerform id n install ecc s) := by
  unfold execLoadPerform
  refine keepsInv_onOpen (fun _ _ => ?_) h
  split
  · dsimp only
    split
    · split
      · split
        · exact State.inv_lateError (State.inv_putAgent (State.inv_acquire h))
        · exact State.inv_putAgent (State.inv_acquire h)
      · split
        · exact State.inv_lateError (State.inv_putAgent h)
        · exact State.inv_putAgent h
    · split
      · split
        · exact State.inv_lateError (State.inv_putAgent (State.inv_acquire h))
        · refine State.inv_noteLoss ?_
          refine State.inv_putAgent ?_
          split
          · split
            · exact State.inv_agentRead _ _ _ _ _ _ (State.inv_settleRead (State.inv_acquire h))
            · exact State.inv_installAll (State.inv_agentRead _ _ _ _ _ _ (State.inv_settleRead (State.inv_acquire
                h)))
          · split
            · exact State.inv_settleRead (State.inv_acquire h)
            · exact State.inv_installAll (State.inv_settleRead (State.inv_acquire h))
      · split
        · exact State.inv_lateError (State.inv_putAgent h)
        · refine State.inv_noteLoss ?_
          refine State.inv_putAgent ?_
          split
          · split
            · exact State.inv_agentRead _ _ _ _ _ _ (State.inv_settleRead h)
            · exact State.inv_installAll (State.inv_agentRead _ _ _ _ _ _ (State.inv_settleRead h))
          · split
            · exact State.inv_settleRead h
            · exact State.inv_installAll (State.inv_settleRead h)
  · exact h

theorem keepsInv_execStorePerform {id n : Nat} {s : State} (h : s.Inv) : KeepsInv (execStorePerform id n s) := by
  unfold execStorePerform
  refine keepsInv_onOpen (fun _ _ => ?_) h
  split
  · exact h
  · split
    · exact h
    · dsimp only
      split
      · split
        · exact State.inv_putAgent (State.inv_writeBackOf h)
        · split
          · split
            · split
              · exact State.inv_mmioWrite (State.inv_putAgent (State.inv_writeBackOf h))
              · exact State.inv_updAgent _ _ (State.inv_putAgent (State.inv_writeBackOf h))
            · exact State.inv_putAgent (State.inv_tick2 (State.inv_writeBackOf h))
          · exact State.inv_putAgent (State.inv_tick2 (State.inv_writeBackOf h))
      · split
        · exact State.inv_putAgent h
        · split
          · split
            · split
              · exact State.inv_mmioWrite (State.inv_putAgent h)
              · exact State.inv_updAgent _ _ (State.inv_putAgent h)
            · exact State.inv_putAgent (State.inv_tick2 h)
          · exact State.inv_putAgent (State.inv_tick2 h)

theorem State.inv_spill {s : State} {ag : Agent} {level : Nat} {unc : Bool} {slot : BitVec 8} {pa : Nat} {w : PWrite}
    (h : s.Inv) : (s.spill ag level unc slot pa w).Inv :=
  State.inv_foldl _ _ (fun _ _ ht => State.inv_putInner ht) (State.inv_tick2 h)

theorem State.inv_shadowCode {s : State} {unit_ : Option Nat} {slot : BitVec 8} {pa n : Nat} (h : s.Inv) :
    (s.shadowCode unit_ slot pa n).Inv := by
  unfold State.shadowCode
  split
  · exact h
  · exact h

theorem State.inv_arriveWrite {s : State} {unit_ : Option Nat} {part peer : Nat} {slot : BitVec 8} {pa : Nat}
    {bs : List Byte} {msk : Byte} (h : s.Inv) : (s.arriveWrite unit_ part peer slot pa bs msk).Inv := by
  unfold State.arriveWrite
  dsimp only
  refine State.inv_wakePa ?_
  refine State.inv_sample ?_
  refine State.inv_pkWriteN _ _ _ _ ?_
  split
  · exact State.inv_askWords _ _ _ _ _ _ (State.inv_shadowCode h)
  · exact State.inv_fillLine _ _ _ (State.inv_shadowCode h)

theorem keepsInv_execWritePropagate {id n : Nat} {s : State} (h : s.Inv) : KeepsInv (execWritePropagate id n s) := by
  unfold execWritePropagate
  apply keepsInv_next
  split
  · exact h
  · split
    · exact h
    · split
      · exact h
      · split
        · split
          · exact h
          · split
            · exact State.inv_putAgent (State.inv_spill h)
            · dsimp only
              exact State.inv_updAgent _ _ (State.inv_arriveWrite (State.inv_noteUse h))
        · split
          · exact h
          · exact State.inv_putAgent h

theorem keepsInv_execWriteErrorRemoval {id n : Nat} {s : State} (h : s.Inv) :
    KeepsInv (execWriteErrorRemoval id n s) := by
  unfold execWriteErrorRemoval
  apply keepsInv_next
  split
  · exact h
  · split
    · exact h
    · dsimp only
      split
      · split
        · exact h
        · exact State.inv_putAgent (State.inv_violationOf _ _ _ h)
      · exact State.inv_putAgent h

theorem keepsInv_execCacheEviction {level idx pa : Nat} {s : State} (h : s.Inv) :
    KeepsInv (execCacheEviction level idx pa s) := by
  unfold execCacheEviction
  apply keepsInv_next
  split
  · exact h
  · split
    · exact h
    · exact State.inv_dropInner h
  · split
    · exact h
    · exact State.inv_dropInner h
  · split
    · exact State.inv_evictLine _ h
    · exact h
  · exact h
  · exact h
  · split
    · exact State.inv_badWriteBack h
    · exact h
  · exact h

theorem keepsInv_execRelease {id n : Nat} {s : State} (h : s.Inv) : KeepsInv (execRelease id n s) := by
  unfold execRelease
  refine keepsInv_onOpen (fun _ _ => ?_) h
  split
  · split
    · dsimp only
      refine State.inv_updAgent _ _ ?_
      split
      · exact State.inv_writeBackOf h
      · exact h
    · exact h
  · exact h

theorem keepsInv_execAcquire {id n : Nat} {s : State} (h : s.Inv) : KeepsInv (execAcquire id n s) := by
  unfold execAcquire
  refine keepsInv_onOpen (fun _ _ => ?_) h
  split
  · exact State.inv_putAgent (State.inv_acquire h)
  · exact h

theorem State.inv_atomAt {s : State} {ag : Agent} {op : AtomOp} {e : Access} {level pa : Nat} {unc : Bool}
    {slot : BitVec 8} {gone : Bool} (h : s.Inv) : (s.atomAt ag op e level pa unc slot gone).1.Inv := by
  unfold State.atomAt
  dsimp only
  split
  · split
    · split
      · refine State.inv_foldl _ _ (fun _ _ ht => ?_) (State.inv_tick2 h)
        split
        · exact State.inv_putInner ht
        · exact ht
      · exact h
    · split
      · exact State.inv_foldl _ _ (fun _ _ ht => State.inv_putInner ht) (State.inv_tick2 h)
      · exact State.inv_arriveWrite h
  · split
    · split
      · refine State.inv_foldl _ _ (fun _ _ ht => ?_) (State.inv_tick2 h)
        split
        · exact State.inv_putInner ht
        · exact ht
      · exact h
    · split
      · exact State.inv_foldl _ _ (fun _ _ ht => State.inv_putInner ht) (State.inv_tick2 h)
      · exact State.inv_arriveWrite h

theorem State.inv_atomLanes {id : Nat} {op : AtomOp} {level pa : Nat} {unc : Bool} {slot : BitVec 8} {es : List Access} :
    ∀ {s : State} {gone : Bool}, s.Inv → (s.atomLanes id op level pa unc slot gone es).Inv := by
  induction es with
  | nil => exact fun h => h
  | cons e es ih =>
    intro s gone h
    unfold State.atomLanes
    split
    · exact h
    · exact ih (State.inv_updAgent _ _ (State.inv_atomAt h))

theorem keepsInv_execAtomicPerform {id n : Nat} {ecc : Ecc} {s : State} (h : s.Inv) :
    KeepsInv (execAtomicPerform id n ecc s) := by
  unfold execAtomicPerform
  refine keepsInv_onOpen (fun _ _ => ?_) h
  split
  · dsimp only
    split
    · exact h
    · split
      · exact h
      · split
        · split
          · exact State.inv_lateError (State.inv_putAgent h)
          · split
            · exact State.inv_mmioWrite (State.inv_putAgent h)
            · exact State.inv_putAgent h
        · split
          · exact State.inv_lateError (State.inv_putAgent h)
          · refine State.inv_noteLoss ?_
            refine State.inv_updAgent _ _ ?_
            refine State.inv_atomLanes ?_
            split
            · exact State.inv_arriveRead _ _ _ _ _ (State.inv_noteUse (State.inv_settleRead h))
            · exact State.inv_settleRead h
  · exact h

theorem State.inv_inboundError {s : State} {part : Nat} (h : s.Inv) : (s.inboundError part).Inv := by
  unfold State.inboundError
  split
  rename_i he
  have hd := State.inv_snd he (State.inv_draw h)
  exact State.inv_recordRs _ _ hd

theorem State.inv_answerLine {s : State} {id : Nat} {ag : Agent} {e : Access} {w off : Nat} {r : RemoteRsp}
    {late : Bool} (h : s.Inv) : (s.answerLine id ag e w off r late).Inv := by
  unfold State.answerLine
  dsimp only
  refine State.inv_putAgent ?_
  split
  · split
    · exact State.inv_inboundError h
    · exact h
  · split
    · exact State.inv_inboundError h
    · exact h

theorem State.inv_answerFar {s : State} {id n : Nat} {ag : Agent} {e : Access} {pkg : Nat} {va : DWord}
    {r : RemoteRsp} (h : s.Inv) : (s.answerFar id n ag e pkg va r).Inv := by
  unfold State.answerFar
  dsimp only
  split
  · refine State.inv_trapLine ?_
    split
    · exact State.inv_acquire h
    · exact h
  · refine State.inv_putAgent ?_
    split
    · exact State.inv_acquire h
    · exact h

theorem State.inv_answerOpen {s : State} {id n : Nat} {ag : Agent} {e : Access} {r : RemoteRsp} {late : Bool}
    (h : s.Inv) : (s.answerOpen id n ag e r late).Inv := by
  unfold State.answerOpen
  split
  · exact State.inv_answerLine h
  · dsimp only
    split
    · split
      · exact h
      · exact State.inv_answerFar h
    · split
      · exact h
      · exact State.inv_answerFar h
  · exact h

theorem keepsInv_execRemoteResponse {id n : Nat} {r : RemoteRsp} {s : State} (h : s.Inv) :
    KeepsInv (execRemoteResponse id n r s) := by
  unfold execRemoteResponse
  refine keepsInv_onOpen (fun _ _ => ?_) h
  split
  · exact h
  · exact State.inv_answerOpen h

theorem keepsInv_execRequestTimeout {id n : Nat} {s : State} (h : s.Inv) : KeepsInv (execRequestTimeout id n s) := by
  unfold execRequestTimeout
  refine keepsInv_onOpen (fun _ _ => ?_) h
  split
  · exact State.inv_answerOpen h
  · exact h

/-! ### What `Sys2Proof/Machine/Wire.lean` defines -/

theorem State.inv_land {s : State} {u o off : Nat} {bytes : List (Nat × Byte)} {k : PostKind} (h : s.Inv) :
    (s.land u o off bytes k).Inv := by
  unfold State.land
  split
  · exact State.inv_foldl _ _ (fun _ _ ht => State.inv_wakeSp (State.inv_setHome _ _ ht)) h
  · dsimp only
    exact State.inv_wakeSp (State.inv_spadWrite _ _ _ h)

theorem State.inv_putPosted {s : State} {n : Nat} {e : Posted} (h : s.Inv) : (s.putPosted n e).Inv := h

theorem keepsInv_execWindowDeliver {n : Nat} {s : State} (h : s.Inv) : KeepsInv (execWindowDeliver n s) := by
  unfold execWindowDeliver
  apply keepsInv_next
  split
  · exact h
  · split
    · exact h
    · split
      · exact State.inv_putPosted h
      · split
        · exact State.inv_putPosted (State.inv_sendFlit h)
        · split
          · exact h
          · split
            · exact State.inv_inboundError (State.inv_putPosted h)
            · dsimp only
              exact State.inv_putPosted (State.inv_of_mem rfl (State.inv_land h))

theorem State.inv_updGroup {s : State} {g : Nat} {f : UnitSt → UnitSt} (h : s.Inv) : (s.updGroup g f).Inv := by
  unfold State.updGroup
  split
  · exact State.inv_putUnit h
  · split <;> exact h

theorem State.inv_giveUnit {s : State} {e : Posted} (h : s.Inv) : (s.giveUnit e).Inv := State.inv_updGroup h

theorem State.inv_wsigAck {s : State} {op : Nat} {flag ok : Bool} (h : s.Inv) : (s.wsigAck op flag ok).Inv := by
  unfold State.wsigAck
  split
  · exact h
  · dsimp only
    split
    · exact State.inv_finishOp h
    · exact h

theorem State.inv_ackPosted {s : State} {e : Posted} {ok : Bool} (h : s.Inv) : (s.ackPosted e ok).Inv := by
  unfold State.ackPosted
  dsimp only
  split
  · split
    · exact State.inv_wsigAck (State.inv_giveUnit h)
    · exact State.inv_giveUnit h
  · refine State.inv_updAny ?_
    split
    · exact State.inv_wsigAck (State.inv_giveUnit h)
    · exact State.inv_giveUnit h

theorem keepsInv_execWindowAck {n : Nat} {ok : Bool} {s : State} (h : s.Inv) : KeepsInv (execWindowAck n ok s) := by
  unfold execWindowAck
  apply keepsInv_next
  split
  · exact h
  · split
    · exact h
    · split
      · dsimp only
        exact h
      · dsimp only
        split
        · exact h
        · exact State.inv_ackPosted h

theorem keepsInv_execWindowTimeout {n : Nat} {s : State} (h : s.Inv) : KeepsInv (execWindowTimeout n s) := by
  unfold execWindowTimeout
  apply keepsInv_next
  split
  · exact h
  · split
    · exact h
    · exact State.inv_ackPosted (State.inv_putPosted h)

theorem keepsInv_execRequestReissue {n : Nat} {s : State} (h : s.Inv) : KeepsInv (execRequestReissue n s) := by
  unfold execRequestReissue
  dsimp only
  apply keepsInv_next
  split <;> split <;> split <;> split <;> split <;> exact h

theorem State.inv_reply {s : State} {r : RemoteRsp} (h : s.Inv) : (s.reply r).Inv :=
  State.inv_of_mem rfl (State.inv_sendOff h)

theorem State.inv_replyVal {s : State} {x : DWord} (h : s.Inv) : (s.replyVal x).Inv := State.inv_reply h

theorem State.inv_replyBytes {s : State} {bs : List Byte} (h : s.Inv) : (s.replyBytes bs).Inv := State.inv_reply h

theorem State.inv_refuse {s : State} {part : Nat} (h : s.Inv) : (s.refuse part).Inv :=
  State.inv_reply (State.inv_inboundError h)

theorem State.inv_inboundAt {s : State} {part : Nat} {va : DWord} {n : Nat} {need : Perm}
    {k : State → Nat → BitVec 8 → State} (hk : ∀ t i x, t.Inv → (k t i x).Inv) (h : s.Inv) :
    (s.inboundAt part va n need k).Inv := by
  unfold State.inboundAt
  dsimp only
  split
  · exact State.inv_refuse (State.inv_noteWalk _ _ h)
  · split
    · exact hk _ _ _ (State.inv_noteWalk _ _ h)
    · exact State.inv_refuse (State.inv_violation (State.inv_noteWalk _ _ h))

theorem State.inv_inboundRead {s : State} {part : Nat} {slot : BitVec 8} {pa n : Nat} {ecc : Ecc} (h : s.Inv) :
    (s.inboundRead part slot pa n ecc).1.Inv := by
  unfold State.inboundRead
  split
  · refine State.inv_recordLoss _ _ _ _ _ _ _ ?_
    rename_i he
    exact State.inv_fst he (State.inv_arriveRead _ _ _ _ _ h)
  · rename_i he
    exact State.inv_fst he (State.inv_arriveRead _ _ _ _ _ h)

theorem State.inv_inboundCopy {s : State} {b off n : Nat} {writes : Bool} {k : Nat → Nat → State} (hk : ∀ i i',
    (k i i').Inv) (h : s.Inv) : (s.inboundCopy b off n writes k).Inv := by
  unfold State.inboundCopy
  split
  · exact State.inv_refuse h
  · split
    · exact hk _ _
    · exact State.inv_reply h
    · exact State.inv_refuse h

theorem State.inv_contribute {s : State} {launch n : Nat} {allred : Bool} {a : Arrival} (h : s.Inv) :
    (s.contribute launch n allred a).Inv := by
  unfold State.contribute
  split
  · exact h
  · split
    · exact h
    · dsimp only
      split
      · split <;> exact h
      · exact h

theorem keepsInv_execInboundRemoteAccess {r : Inbound} {ecc : Ecc} {s : State} (h : s.Inv) :
    KeepsInv (execInboundRemoteAccess r ecc s) := by
  unfold execInboundRemoteAccess
  apply keepsInv_next
  split
  · refine State.inv_inboundAt (fun _ _ _ ht => ?_) h
    split
    refine State.inv_replyBytes ?_
    rename_i he
    exact State.inv_fst he (State.inv_inboundRead ht)
  · exact State.inv_inboundAt (fun _ _ _ ht => State.inv_replyVal (State.inv_arriveWrite ht)) h
  · dsimp only
    refine State.inv_inboundAt (fun _ _ _ ht => ?_) h
    refine State.inv_replyVal ?_
    split
    · split
      · split
        · exact State.inv_arriveWrite (State.inv_inboundRead ht)
        · exact State.inv_inboundRead ht
      · split
        · exact State.inv_arriveWrite (State.inv_inboundRead ht)
        · exact State.inv_inboundRead ht
    · split
      · split
        · exact State.inv_arriveWrite (State.inv_inboundRead ht)
        · exact State.inv_inboundRead ht
      · split
        · exact State.inv_arriveWrite (State.inv_inboundRead ht)
        · exact State.inv_inboundRead ht
  · split
    · exact State.inv_refuse h
    · dsimp only
      split
      · exact State.inv_refuse h
      · exact State.inv_replyVal (State.inv_of_mem rfl (State.inv_land h))
  · split
    · exact State.inv_refuse h
    · split
      · exact h
      · split
        · exact State.inv_refuse h
        · dsimp only
          exact State.inv_replyVal (State.inv_of_mem rfl (State.inv_land h))
  · split
    · exact State.inv_refuse h
    · split
      · exact State.inv_refuse h
      · exact State.inv_replyBytes h
  · split
    · exact State.inv_replyVal h
    · dsimp only
      exact State.inv_replyVal h
  · split
    · exact State.inv_replyVal h
    · exact h
  · exact State.inv_inboundCopy (fun _ _ => State.inv_replyBytes h) h
  · exact State.inv_inboundCopy (fun _ _ => State.inv_replyVal (State.inv_spadStore h)) h
  · split
    · exact h
    · split
      · exact h
      · exact State.inv_updGroup h
  · exact State.inv_contribute h

theorem keepsInv_execReductionFold {n : Nat} {s : State} (h : s.Inv) : KeepsInv (execReductionFold n s) := by
  unfold execReductionFold
  apply keepsInv_next
  split
  · split <;> exact h
  · exact h

theorem keepsInv_execTimeSync {corr : Nat} {s : State} (h : s.Inv) : KeepsInv (execTimeSync corr s) := by
  unfold execTimeSync
  dsimp only
  apply keepsInv_next
  split <;> exact h

/-! ### What `Sys2Proof/Machine/Faults.lean` defines -/

theorem State.inv_keepXlat {s : State} {x : Xlat} (h : s.Inv) : (s.keepXlat x).Inv := by
  unfold State.keepXlat
  split <;> exact h

theorem State.inv_keepUpper {s : State} {part : Nat} {k : VKey} (h : s.Inv) : (s.keepUpper part k).Inv := by
  unfold State.keepUpper
  split
  · dsimp only
    split <;> exact h
  · exact h

theorem keepsInv_execPageWalk {part : Nat} {key : BitVec 64} {tile : Bool} {need : Perm} {s : State} (h : s.Inv) :
    KeepsInv (execPageWalk part key tile need s) := by
  unfold execPageWalk
  dsimp only
  apply keepsInv_next
  split
  · exact State.inv_keepXlat (State.inv_keepUpper (State.inv_noteWalk _ _ h))
  · exact State.inv_keepUpper (State.inv_noteWalk _ _ h)
  · exact State.inv_noteWalk _ _ h

theorem State.inv_noteStream {s : State} {r : StreamRef} (h : s.Inv) : (s.noteStream r).Inv := by
  unfold State.noteStream
  split
  · split
    · exact State.inv_noteWalk _ _ h
    · exact h
  · exact h

theorem keepsInv_execNextPageWalk {r : StreamRef} {s : State} (h : s.Inv) : KeepsInv (execNextPageWalk r s) := by
  unfold execNextPageWalk
  dsimp only
  apply keepsInv_next
  split
  · exact State.inv_updAgent _ _ (State.inv_noteStream h)
  · exact State.inv_of_mem rfl (State.inv_noteStream h)
  · exact State.inv_of_mem rfl (State.inv_noteStream h)
  · exact State.inv_of_mem rfl (State.inv_noteStream h)
  · exact State.inv_of_mem rfl (State.inv_noteStream h)

theorem State.inv_releaseHeld {s : State} {ids : List Nat} (h : s.Inv) : (s.releaseHeld ids).Inv := h

theorem State.inv_settle {s : State} {part : Nat} {k : VKey} (h : s.Inv) : (s.settle part k).Inv := by
  unfold State.settle
  split
  · exact h
  · dsimp only
    exact State.inv_releaseHeld h

theorem keepsInv_execFaultResolve {n : Nat} {s : State} (h : s.Inv) : KeepsInv (execFaultResolve n s) := by
  unfold execFaultResolve
  apply keepsInv_next
  split
  · split
    · exact h
    · dsimp only
      exact State.inv_settle (State.inv_of_mem rfl (State.inv_noteWalk _ _ h))
  · exact h

theorem State.inv_pageName {s : State} {k : VKey} (h : s.Inv) : (s.pageName k).1.Inv := by
  unfold State.pageName
  split
  · exact h
  · split
    rename_i he
    exact State.inv_snd he (State.inv_draw h)

theorem State.inv_discardCopy {s : State} {n before : Nat} (h : s.Inv) : (s.discardCopy n before).Inv := h

theorem State.inv_orderDone {s : State} {id : Nat} (h : s.Inv) : (s.orderDone id).Inv := by
  unfold State.orderDone
  dsimp only
  split
  · exact State.inv_updAny h
  · exact h

theorem State.inv_discard {s : State} {part : Nat} {k : VKey} {u : Nat} (h : s.Inv) : (s.discard part k u).Inv := by
  unfold State.discard
  dsimp only
  split
  · exact h
  · refine State.inv_record _ _ _ _ ?_
    refine State.inv_pageName ?_
    refine State.inv_foldl _ _ (fun _ _ ht => State.inv_orderDone ht) ?_
    refine State.inv_foldl _ _ (fun _ _ ht => ?_) (State.inv_putUnit h)
    split
    · exact State.inv_updAny ht
    · exact State.inv_discardCopy ht

theorem keepsInv_execFaultUnresolvable {n : Nat} {s : State} (h : s.Inv) : KeepsInv (execFaultUnresolvable n s) := by
  unfold execFaultUnresolvable
  apply keepsInv_next
  split
  · exact h
  · split
    · exact h
    · dsimp only
      refine State.inv_foldl _ _ (fun _ _ ht => ?_) (State.inv_foldl _ _ (fun _ _ ht => State.inv_discard ht) h)
      split
      · split
        · exact inv_takeTrap _ _ _ _ _ ht
        · exact ht
      · exact ht

theorem State.inv_replayAt {s : State} {u : Nat} {e : SideEnt} {pa : Nat} {slot : BitVec 8} (h : s.Inv) :
    (s.replayAt u e pa slot).Inv := by
  unfold State.replayAt
  dsimp only
  split
  · exact State.inv_foldl _ _ (fun _ _ ht => State.inv_arriveWrite ht) h
  · refine State.inv_foldl _ _ (fun _ _ ht => ?_) h
    split
    · split
      · refine State.inv_arriveWrite ?_
        split
        · exact State.inv_updAny (State.inv_recordLoss _ _ _ _ _ _ _ (State.inv_arriveRead _ _ _ _ _ ht))
        · exact State.inv_arriveRead _ _ _ _ _ ht
      · split
        · exact State.inv_updAny (State.inv_recordLoss _ _ _ _ _ _ _ (State.inv_arriveRead _ _ _ _ _ ht))
        · exact State.inv_arriveRead _ _ _ _ _ ht
    · split
      · split
        · exact State.inv_arriveWrite (State.inv_updAny (State.inv_recordLoss _ _ _ _ _ _ _ (State.inv_arriveRead _ _
            _ _ _ ht)))
        · exact State.inv_updAny (State.inv_recordLoss _ _ _ _ _ _ _ (State.inv_arriveRead _ _ _ _ _ ht))
      · split
        · exact State.inv_arriveWrite (State.inv_arriveRead _ _ _ _ _ ht)
        · exact State.inv_arriveRead _ _ _ _ _ ht

theorem keepsInv_execSideLogReplay {u n : Nat} {s : State} (h : s.Inv) : KeepsInv (execSideLogReplay u n s) := by
  unfold execSideLogReplay
  apply keepsInv_next
  split
  · exact h
  · dsimp only
    split
    · exact h
    · split
      · exact State.inv_settle (State.inv_orderDone (State.inv_putUnit h))
      · split
        · exact h
        · split
          · exact State.inv_settle (State.inv_orderDone (State.inv_putUnit (State.inv_replayAt (State.inv_noteWalk _ _
              h))))
          · split
            · exact State.inv_updAny (State.inv_settle (State.inv_orderDone (State.inv_putUnit (State.inv_violation
                h))))
            · exact State.inv_discardCopy (State.inv_settle (State.inv_orderDone (State.inv_putUnit
                (State.inv_violation h))))
        · split
          · exact State.inv_updAny (State.inv_settle (State.inv_orderDone (State.inv_putUnit h)))
          · exact State.inv_discardCopy (State.inv_settle (State.inv_orderDone (State.inv_putUnit h)))

theorem State.inv_leaveQueues {s : State} {id u : Nat} (h : s.Inv) : (s.leaveQueues id u).Inv := State.inv_putUnit h

theorem keepsInv_execAsyncTrap {id : Nat} {s : State} (h : s.Inv) : KeepsInv (execAsyncTrap id s) := by
  unfold execAsyncTrap
  apply keepsInv_next
  split
  · exact h
  · split
    · exact h
    · split
      · exact h
      · dsimp only
        refine inv_takeTrap _ _ _ _ _ ?_
        split
        · exact h
        · exact State.inv_leaveQueues h

theorem keepsInv_onWait {s : State} {id : Nat} {f : Agent → Wait → Option Wait} (h : s.Inv) :
    KeepsInv (onWait s id f) := by
  unfold onWait
  apply keepsInv_next
  split
  · split
    · exact State.inv_putAgent h
    · exact h
  · exact h

/-! ### What `Sys2Proof/Machine/Copies.lean` defines -/

theorem State.inv_farCode {s : State} {win : Bool} (h : s.Inv) : (s.farCode win).2.Inv := by
  unfold State.farCode
  split
  · exact h
  · split
    split
    · rename_i he _ _
      exact State.inv_snd he (State.inv_draw (State.inv_sendOff h))
    · rename_i he _ _
      exact State.inv_snd he (State.inv_draw (State.inv_sendOff h))
    · rename_i he _ _ _
      exact State.inv_snd he (State.inv_draw (State.inv_sendOff h))

theorem State.inv_noteFar {s : State} {x : Side} {code : Nat} (h : s.Inv) : (s.noteFar x code).Inv := by
  unfold State.noteFar
  split
  · split
    · exact State.inv_inboundError h
    · exact h
  · exact h

theorem State.inv_putCopy {s : State} {n : Nat} {c : Copy} (h : s.Inv) : (s.putCopy n c).Inv := h

theorem Copy.inv_violation {c : Copy} {s : State} {pa : Nat} {slot : BitVec 8} (h : s.Inv) :
    (Copy.violation c s pa slot).Inv :=
  State.inv_violation h

theorem State.inv_stopCopy {s : State} {n : Nat} {c : Copy} {code : Nat} (h : s.Inv) : (s.stopCopy n c code).Inv :=
  State.inv_putCopy h

theorem State.inv_noteReaches {s : State} {st : Stream} {rs : List Reach} (h : s.Inv) : (s.noteReaches st rs).Inv :=
  State.inv_foldl _ _ (fun _ _ ht => State.inv_noteXlat _ _ ht) h

theorem State.inv_engineReads {s : State} {part launch unit_ : Nat} {ecc : Ecc} {rs : List Reach} (h : s.Inv) :
    (s.engineReads part launch unit_ ecc rs).1.Inv := by
  unfold State.engineReads
  refine State.inv_foldl_fst _ _ (fun _ _ ht => ?_) h
  split
  split
  · refine State.inv_recordLoss _ _ _ _ _ _ _ ?_
    rename_i he
    exact State.inv_fst he (State.inv_arriveRead _ _ _ _ _ (State.inv_noteUse ht))
  · rename_i he
    exact State.inv_fst he (State.inv_arriveRead _ _ _ _ _ (State.inv_noteUse ht))

theorem State.inv_engineWrite {s : State} {part : Nat} {r : Reach} {b m : Byte} (h : s.Inv) :
    (s.engineWrite part r b m).Inv := by
  unfold State.engineWrite
  split
  · exact State.inv_arriveWrite (State.inv_noteUse h)
  · exact State.inv_spadStore h
  · exact State.inv_spadStore h
  · exact h

theorem State.inv_logChunk {s : State} {n : Nat} {c : Copy} {c' : Copy} {bs : List OutByte} {ks : List VKey}
    (h : s.Inv) : (s.logChunk n c c' bs ks).Inv := by
  unfold State.logChunk
  dsimp only
  split
  · refine State.inv_putCopy ?_
    refine State.inv_foldl _ _ (fun _ _ ht => ?_) (State.inv_putUnit h)
    split
    · exact ht
    · exact State.inv_raiseFault ht
  · exact State.inv_putUnit h

theorem State.inv_writeChunk {s : State} {n : Nat} {c : Copy} {es : List Nat} {bs : List OutByte} {xs : Tab Word}
    {touch : List Nat} {gone : Bool} (h : s.Inv) : (s.writeChunk n c es bs xs touch gone).Inv := by
  unfold State.writeChunk
  dsimp only
  split
  · refine State.inv_stopCopy ?_
    refine State.inv_leaveSlog ?_
    split
    · exact Copy.inv_violation h
    · exact State.inv_noteFar h
  · split
    · exact h
    · split
      · exact State.inv_logChunk h
      · split
        · exact State.inv_leaveSlog h
        · split
          · refine State.inv_stopCopy ?_
            split
            · exact State.inv_farCode (State.inv_noteReaches (State.inv_leaveSlog h))
            · exact State.inv_noteReaches (State.inv_leaveSlog h)
          · refine State.inv_putCopy ?_
            refine State.inv_foldl _ _ (fun _ _ ht => ?_) ?_
            · split
              · exact State.inv_engineWrite (State.inv_draw ht)
              · exact State.inv_engineWrite ht
            · split
              · exact State.inv_farCode (State.inv_noteReaches (State.inv_leaveSlog h))
              · exact State.inv_noteReaches (State.inv_leaveSlog h)

theorem keepsInv_execCopyChunk {n : Nat} {ecc : Ecc} {s : State} (h : s.Inv) : KeepsInv (execCopyChunk n ecc s) := by
  unfold execCopyChunk
  apply keepsInv_next
  split
  · exact h
  · split
    · exact h
    · dsimp only
      split
      · refine State.inv_stopCopy ?_
        split
        · exact Copy.inv_violation h
        · exact State.inv_noteFar h
      · split
        · split
          · exact h
          · exact State.inv_raiseFault h
        · split
          · exact h
          · split
            · refine State.inv_stopCopy ?_
              split
              · exact State.inv_farCode h
              · exact h
            · refine State.inv_writeChunk ?_
              split
              · exact State.inv_of_mem rfl (State.inv_engineReads (State.inv_noteReaches (State.inv_farCode h)))
              · exact State.inv_engineReads (State.inv_noteReaches h)

theorem keepsInv_execCopyStart {n : Nat} {s : State} (h : s.Inv) : KeepsInv (execCopyStart n s) := by
  unfold execCopyStart
  apply keepsInv_next
  split
  · exact h
  · dsimp only
    split
    · exact h
    · exact State.inv_putCopy h

theorem keepsInv_execCopyCompletion {n : Nat} {s : State} (h : s.Inv) : KeepsInv (execCopyCompletion n s) := by
  unfold execCopyCompletion
  apply keepsInv_next
  split
  · exact h
  · split
    · exact h
    · dsimp only
      exact State.inv_finishOp (State.inv_of_mem rfl (State.inv_foldl _ _ (fun _ _ ht => State.inv_updGroup ht) h))

theorem keepsInv_execSfuEntry {cu : Nat} {s : State} (h : s.Inv) : KeepsInv (execSfuEntry cu s) := by
  unfold execSfuEntry
  apply keepsInv_next
  split
  · exact State.inv_sfuRun _ _ h
  · exact h

theorem State.inv_putRecon {s : State} {n : Nat} {r : Recon} (h : s.Inv) : (s.putRecon n r).Inv := h

theorem State.inv_endRecon {s : State} {n : Nat} {r : Recon} {code reason moved : Nat} (h : s.Inv) :
    (s.endRecon n r code reason moved).Inv :=
  State.inv_finishOp h

theorem keepsInv_onRecon {s : State} {n : Nat} {k : Recon → State} (hk : ∀ x, (k x).Inv) (h : s.Inv) :
    KeepsInv (onRecon s n k) := by
  unfold onRecon
  apply keepsInv_next
  split
  · exact h
  · split
    · exact State.inv_endRecon h
    · exact State.inv_endRecon h
    · split
      · exact State.inv_endRecon h
      · exact hk _

/-- The state that a read of a reconcile job carries on, whether the job goes on or stops. -/
def carried {α β : Type} : Except State (α × β × State) → State
  | .error t => t
  | .ok p => p.2.2

theorem State.inv_reconRead {s : State} {n : Nat} {r : Recon} {va : DWord} {len : Nat} (h : s.Inv) :
    (carried (s.reconRead n r va len)).Inv := by
  unfold State.reconRead
  extract_lets unit die
  split
  · refine State.inv_foldl_fst _ _ (fun t l ht => ?_) (State.inv_foldl _ _ (fun _ _ ht => State.inv_noteWalk _ _ ht) h)
    split
    · rename_i he
      exact State.inv_recordLoss _ _ _ _ _ _ _ (State.inv_fst he (State.inv_arriveRead _ _ _ _ _ ht))
    · rename_i he
      exact State.inv_fst he (State.inv_arriveRead _ _ _ _ _ ht)
  · unfold carried
    dsimp only
    split
    · exact h
    · exact State.inv_raiseFault h
  · refine State.inv_endRecon ?_
    split
    · exact State.inv_violation h
    · exact h
  · split
    rename_i he
    have hf := State.inv_snd he (State.inv_farCode h)
    split
    · exact State.inv_endRecon hf
    · exact hf

theorem keepsInv_execReconcileStart {n : Nat} {s : State} (h : s.Inv) : KeepsInv (execReconcileStart n s) := by
  unfold execReconcileStart
  refine keepsInv_onRecon (fun r => ?_) h
  extract_lets mine busy first sk
  have hsk : (carried sk).Inv := by
    unfold sk
    split
    · exact h
    · exact State.inv_reconRead h
  split
  · exact h
  split
  · exact State.inv_endRecon h
  split
  · exact State.inv_endRecon h
  clear_value sk
  rcases sk with t | ⟨bs, e1, t⟩
  · exact hsk
  · have hset : (carried (t.reconRead n r r.set (16 * r.nset))).Inv := State.inv_reconRead hsk
    dsimp only
    split
    next u hu => rw [hu] at hset; exact hset
    next es e2 u hu => rw [hu] at hset; exact State.inv_putRecon hset

theorem keepsInv_execReconcileMatch {n : Nat} {p : PeerRecon} {s : State} (h : s.Inv) :
    KeepsInv (execReconcileMatch n p s) := by
  unfold execReconcileMatch
  refine keepsInv_onRecon (fun _ => ?_) h
  split
  · exact h
  · split
    · exact State.inv_endRecon h
    · split
      · exact State.inv_endRecon h
      · exact State.inv_putRecon h

theorem keepsInv_execReconcileWaitExpiry {n : Nat} {s : State} (h : s.Inv) :
    KeepsInv (execReconcileWaitExpiry n s) := by
  unfold execReconcileWaitExpiry
  refine keepsInv_onRecon (fun _ => ?_) h
  split
  · exact State.inv_endRecon h
  · exact h

theorem State.inv_emitPairs {s : State} {n : Nat} {r : Recon} {out : List PeelRec} {reason : Nat} (h : s.Inv) :
    (s.emitPairs n r out reason).Inv := by
  unfold State.emitPairs
  dsimp only
  split
  · exact State.inv_endRecon h
  · split
    · exact State.inv_endRecon h
    · split <;> exact State.inv_endRecon (State.inv_spadStore h)

theorem keepsInv_execSketchPeel {n : Nat} {fail : Bool} {s : State} (h : s.Inv) :
    KeepsInv (execSketchPeel n fail s) := by
  unfold execSketchPeel
  refine keepsInv_onRecon (fun _ => ?_) h
  split
  · exact h
  · split
    · exact h
    · split
      · exact State.inv_endRecon h
      · split
        dsimp only
        split
        · exact State.inv_emitPairs h
        · split
          · exact State.inv_endRecon h
          · exact State.inv_putRecon h

theorem keepsInv_execFullSetTransfer {n : Nat} {fail : Bool} {s : State} (h : s.Inv) :
    KeepsInv (execFullSetTransfer n fail s) := by
  unfold execFullSetTransfer
  refine keepsInv_onRecon (fun _ => ?_) h
  split
  · exact h
  · split
    · exact State.inv_endRecon h
    · split
      · exact State.inv_emitPairs h
      · exact h

/-! ### What `Sys2Proof/Machine/Array.lean` defines -/

theorem State.inv_dropCapture {s : State} {q : Nat} (h : s.Inv) : (s.dropCapture q).Inv := State.inv_putQuad h

theorem inv_captureTrap {s : State} {id : Nat} {ag : Agent} {q n : Nat} (h : s.Inv) : (captureTrap s id ag q n).Inv :=
  inv_trapHere _ _ _ _ (State.inv_dropCapture h)

theorem State.inv_badWord {s : State} {ag : Agent} (h : s.Inv) : (s.badWord ag).Inv := by
  unfold State.badWord
  split
  · exact State.inv_dropCapture h
  · exact h

theorem inv_captureCmd {s : State} {id : Nat} {ag : Agent} {q : Nat} {c : Cmd} (h : s.Inv) :
    (captureCmd s id ag q c).Inv := by
  unfold captureCmd
  dsimp only
  split
  · exact inv_captureTrap h
  · split
    · split
      · exact inv_captureTrap h
      · exact inv_retire _ _ (State.inv_putQuad h)
    · exact inv_retire _ _ (State.inv_putQuad h)

theorem keepsInv_execNestEmit {q : Nat} {s : State} (h : s.Inv) : KeepsInv (execNestEmit q s) := by
  unfold execNestEmit
  dsimp only
  apply keepsInv_next
  split
  · exact h
  · split
    · exact h
    · split
      · exact h
      · exact State.inv_putQuad h

theorem keepsInv_engineCmd {mk : Agent → Cmd} {s : State} (h : s.Inv) : KeepsInv (engineCmd mk s) := by
  unfold engineCmd
  refine keepsInv_issue h (fun _ _ => ?_)
  dsimp only
  split
  · refine inv_trapWord ?_
    split
    · exact State.inv_dropCapture h
    · exact h
  · split
    · exact inv_waitFor h
    · split
      · exact inv_captureCmd h
      · split
        · exact inv_trapHere _ _ _ _ h
        · split
          · exact inv_waitFor h
          · exact inv_retire _ _ (State.inv_putQuad h)

theorem keepsInv_dispatchOp {s : State} {k : Nat → Agent → Nat → QuadSt → State} (hk : ∀ i a i' x, (k i a i' x).Inv)
    (h : s.Inv) : KeepsInv (dispatchOp s k) := by
  unfold dispatchOp
  refine keepsInv_issue h (fun _ _ => ?_)
  dsimp only
  split
  · exact inv_captureTrap h
  · exact hk _ _ _ _

theorem keepsInv_execNest {a b : BitVec 6} {c : BitVec 4} {s : State} (h : s.Inv) : KeepsInv (execNest a b c s) := by
  unfold execNest
  refine keepsInv_dispatchOp (fun _ _ _ _ => ?_) h
  dsimp only
  split
  · exact inv_waitFor h
  · split
    · exact inv_trapHere _ _ _ _ h
    · exact inv_retire _ _ (State.inv_putQuad h)

theorem keepsInv_execGo {a : BitVec 6} {s : State} (h : s.Inv) : KeepsInv (execGo a s) := by
  unfold execGo
  refine keepsInv_dispatchOp (fun _ _ _ _ => ?_) h
  split
  · exact inv_waitFor h
  · exact inv_retire _ _ (State.inv_putQuad h)

theorem State.inv_putFlags {s : State} {ps : List Part} {n : Nat} {f : Bool × Bool} (h : s.Inv) :
    (s.putFlags ps n f).Inv := by
  unfold State.putFlags
  refine State.inv_foldl _ _ (fun _ _ ht => ?_) h
  dsimp only
  exact State.inv_putQuad ht

theorem State.inv_resetParts {s : State} {ps : List Part} {lead : Option Nat} {edge : Option Nat} (h : s.Inv) :
    (s.resetParts ps lead edge).Inv :=
  State.inv_foldl _ _ (fun _ _ ht => State.inv_putQuad ht) h

theorem keepsInv_execQfuse {c : BitVec 4} {s : State} (h : s.Inv) : KeepsInv (execQfuse c s) := by
  unfold execQfuse
  refine keepsInv_dispatchOp (fun _ _ _ _ => ?_) h
  dsimp only
  split
  · exact inv_trapHere _ _ _ _ h
  · split
    · exact inv_trapHere _ _ _ _ h
    · split
      · exact inv_waitFor h
      · exact inv_retire _ _ (State.inv_resetParts (State.inv_resetParts h))

theorem keepsInv_execQsplit {s : State} (h : s.Inv) : KeepsInv (execQsplit s) := by
  unfold execQsplit
  refine keepsInv_dispatchOp (fun _ _ _ _ => ?_) h
  split
  · exact inv_trapHere _ _ _ _ h
  · split
    · exact inv_retire _ _ h
    · split
      · exact inv_waitFor h
      · dsimp only
        exact inv_retire _ _ (State.inv_resetParts (State.inv_foldl _ _ (fun _ _ ht => State.inv_putFlags ht) h))

theorem State.inv_holdQueue {s : State} {q part : Nat} {k : VKey} (h : s.Inv) : (s.holdQueue q part k).Inv := by
  unfold State.holdQueue
  split
  · exact h
  · dsimp only
    exact State.inv_of_mem rfl (State.inv_raiseFault h)

theorem State.inv_seqReads {s : State} {id : Nat} {ag : Agent} {ecc : Ecc} {rs : List Reach} (h : s.Inv) :
    (s.seqReads id ag ecc rs).1.Inv := by
  unfold State.seqReads
  dsimp only
  split
  · split
    · exact State.inv_engineReads (State.inv_violationOf _ _ _ h)
    · exact State.inv_updAgent _ _ (State.inv_engineReads (State.inv_violationOf _ _ _ h))
  · split
    · exact State.inv_engineReads h
    · exact State.inv_updAgent _ _ (State.inv_engineReads h)

theorem State.inv_issueLoad {s : State} {q : Nat} {id : Nat} {ag : Agent} {x : QuadSt} {e : QEnt} {ecc : Ecc}
    {put : State → QEnt → State} (hput : ∀ t x, t.Inv → (put t x).Inv) (h : s.Inv) :
    (s.issueLoad q id ag x e ecc put).Inv := by
  unfold State.issueLoad
  dsimp only
  split
  · exact h
  · split
    · exact h
    · exact State.inv_holdQueue h
    · refine hput _ _ ?_
      refine State.inv_putQuad ?_
      split
      · exact State.inv_of_mem rfl (State.inv_seqReads (State.inv_noteReaches (State.inv_farCode h)))
      · exact State.inv_seqReads (State.inv_noteReaches h)

theorem State.inv_retireRload {s : State} {q : Nat} {c : Cmd} {t : Tile} (h : s.Inv) : (s.retireRload q c t).Inv :=
  State.inv_putQuad (State.inv_foldl _ _ (fun _ _ ht => State.inv_foldl _ _ (fun _ _ ht1 => State.inv_spadStore ht1)
    ht) h)

theorem State.inv_openChain {s : State} {q : Nat} {x : QuadSt} {c : Cmd} (h : s.Inv) : (s.openChain q x c).Inv := by
  unfold State.openChain
  dsimp only
  split
  · exact State.inv_foldl _ _ (fun _ _ ht => State.inv_putQuad ht) (State.inv_putQuad h)
  · exact State.inv_putQuad h

theorem State.inv_closeChain {s : State} {q : Nat} {x : QuadSt} {c : Cmd} (h : s.Inv) : (s.closeChain q x c).Inv :=
  State.inv_foldl _ _ (fun _ _ ht => State.inv_putQuad ht) (State.inv_putQuad h)

theorem State.inv_shadowOp {s : State} {q : Nat} {x : QuadSt} {c : Cmd} (h : s.Inv) : (s.shadowOp q x c).Inv := by
  unfold State.shadowOp
  dsimp only
  split
  · exact State.inv_putQuad h
  · exact State.inv_putFlags (State.inv_putQuad h)
  · exact State.inv_putQuad h

theorem State.inv_issueCompute {s : State} {q : Nat} {x : QuadSt} {e : QEnt} {put : State → QEnt → State}
    (hput : ∀ t x, t.Inv → (put t x).Inv) (h : s.Inv) : (s.issueCompute q x e put).Inv := by
  unfold State.issueCompute
  dsimp only
  split
  · split
    · exact h
    · exact hput _ _ (State.inv_putQuad h)
  · exact hput _ _ (State.inv_openChain h)
  · exact hput _ _ (State.inv_closeChain h)
  · exact hput _ _ (State.inv_putQuad h)
  · exact hput _ _ (State.inv_shadowOp h)

theorem State.inv_issueStore {s : State} {q : Nat} {ag : Agent} {x : QuadSt} {e : QEnt} {put : State → QEnt → State}
    (hput : ∀ t x, t.Inv → (put t x).Inv) (h : s.Inv) : (s.issueStore q ag x e put).Inv := by
  unfold State.issueStore
  dsimp only
  split
  · split
    · split
      · exact h
      · refine hput _ _ ?_
        split
        · exact State.inv_putFlags (State.inv_putQuad h)
        · exact State.inv_putQuad h
    · split
      · exact h
      · refine hput _ _ ?_
        split
        · exact State.inv_putFlags (State.inv_putQuad h)
        · exact State.inv_putQuad h
  · split
    · split
      · exact h
      · refine hput _ _ ?_
        split
        · exact State.inv_putFlags (State.inv_putQuad h)
        · exact State.inv_putQuad h
    · split
      · exact h
      · refine hput _ _ ?_
        split
        · exact State.inv_putFlags (State.inv_putQuad h)
        · exact State.inv_putQuad h

theorem State.inv_storeRun {s : State} {id tag : Nat} {ag : Agent} {va : DWord} {bs : List Byte} {r : Reach}
    (h : s.Inv) : (s.storeRun id tag ag va bs r).1.Inv := by
  unfold State.storeRun
  dsimp only
  split
  · exact State.inv_updAgent _ _ h
  · exact State.inv_spadStore h
  · exact State.inv_updAgent _ _ h
  · exact State.inv_violationOf _ _ _ h
  · exact h
  · exact h

theorem State.inv_storeOne {s : State} {id : Nat} {ag : Agent} {u tag : Nat} {bs : List (Place × Byte)} (h : s.Inv) :
    (s.storeOne id ag u tag bs).1.Inv := by
  unfold State.storeOne
  dsimp only
  split
  · exact h
  · split
    · exact State.inv_putUnit h
    · refine State.inv_foldl_fst _ _ (fun t _ ht => ?_) ?_
      · exact State.inv_storeRun (s := t.1) ht
      refine State.inv_putQuad ?_
      refine State.inv_foldl _ _ (fun _ _ ht => ?_) ?_
      · split
        · exact ht
        · exact State.inv_raiseFault ht
      · split
        · exact State.inv_leaveSlog (State.inv_noteReaches h)
        · exact State.inv_putUnit (State.inv_noteReaches h)

theorem State.inv_storeRowsFrom {id u cols : Nat} {ms : List Nat} :
    ∀ {s : State} {e : QEnt}, s.Inv → (s.storeRowsFrom id u cols ms e).1.Inv := by
  induction ms with
  | nil => exact fun h => h
  | cons m ms ih =>
    intro s e h
    unfold State.storeRowsFrom
    split
    · exact h
    · split
      · rename_i he
        exact State.inv_fst he (State.inv_storeOne h)
      · rename_i he
        exact ih (State.inv_fst he (State.inv_storeOne h))

theorem keepsInv_execEngineEntryIssue {q : Nat} {which : Queue} {ecc : Ecc} {s : State} (h : s.Inv) :
    KeepsInv (execEngineEntryIssue q which ecc s) := by
  unfold execEngineEntryIssue
  dsimp only
  apply keepsInv_next
  split
  · split
    · exact h
    · split
      · exact h
      · split
        · exact State.inv_issueLoad (fun _ _ ht => State.inv_putQuad ht) h
        · exact State.inv_issueCompute (fun _ _ ht => State.inv_putQuad ht) h
        · exact State.inv_issueStore (fun _ _ ht => State.inv_putQuad ht) h
  · exact h

theorem State.inv_retireEntry {s : State} {q : Nat} {e : QEnt} (h : s.Inv) : (s.retireEntry q e).Inv := by
  unfold State.retireEntry
  dsimp only
  split
  · exact State.inv_putQuad h
  · exact State.inv_retireRload h
  · split
    · exact State.inv_putQuad h
    · exact h
  · exact h

theorem keepsInv_execEngineEntryRetire {q : Nat} {which : Queue} {s : State} (h : s.Inv) :
    KeepsInv (execEngineEntryRetire q which s) := by
  unfold execEngineEntryRetire
  dsimp only
  apply keepsInv_next
  split
  · exact h
  · split
    · exact h
    · split
      · split
        · exact State.inv_putQuad (State.inv_storeRowsFrom h)
        · split
          · exact State.inv_putQuad (State.inv_storeRowsFrom h)
          · exact State.inv_updAgent _ _ (State.inv_retireEntry (State.inv_putQuad (State.inv_storeRowsFrom h)))
      · split
        · exact State.inv_putQuad h
        · split
          · exact State.inv_putQuad h
          · exact State.inv_updAgent _ _ (State.inv_retireEntry (State.inv_putQuad h))

theorem keepsInv_execRemq {g : BitVec 2} {d : BitVec 6} {a b : Src} {s : State} (h : s.Inv) :
    KeepsInv (execRemq g d a b s) := by
  unfold execRemq
  refine keepsInv_issue h (fun _ _ => ?_)
  dsimp only
  split
  · exact inv_waitFor h
  · exact inv_retire _ _ h
  · split
    · exact inv_addrTrap h
    · split
      · exact inv_trapHere _ _ _ _ h
      · split
        · exact inv_addrTrap h
        · split
          · exact inv_trapHere _ _ _ _ h
          · split
            · exact inv_retire _ _ h
            · split
              · exact inv_waitFor h
              · split
                · exact inv_retire _ _ h
                · exact inv_waitFor (State.inv_putQuad h)

theorem keepsInv_execRemqBlockDispatch {q : Nat} {s : State} (h : s.Inv) : KeepsInv (execRemqBlockDispatch q s) := by
  unfold execRemqBlockDispatch
  dsimp only
  apply keepsInv_next
  split
  · split
    · exact h
    · split
      · exact State.inv_putQuad h
      · exact State.inv_updAny (State.inv_putQuad h)
  · exact h

/-! ### What `Sys2Proof/Machine/Atomics.lean` defines -/

theorem inv_ownAtomics {op : AtomOp} {dbl : Bool} {ls : List SpLane} :
    ∀ {s : State} {ag : Agent}, s.Inv → (ownAtomics op dbl ls s ag).1.Inv := by
  induction ls with
  | nil => exact fun h => h
  | cons x ls ih =>
    intro s ag h
    unfold ownAtomics
    split
    · refine ih ?_
      split
      · exact State.inv_spadStore h
      · exact h
    · exact ih h

theorem keepsInv_atomic {op : AtomOp} {scope : BitVec 3} {dbl : Bool} {g : BitVec 2} {d : BitVec 6} {a b : Src}
    {cmp : Option Nat} {s : State} (h : s.Inv) : KeepsInv (atomic op scope dbl g d a b cmp s) := by
  unfold atomic
  refine keepsInv_issue h (fun i ag => ?_)
  split
  · exact inv_retire _ _ h
  · dsimp only
    split
    · exact inv_addrTrap h
    · split
      · exact inv_trapHere _ _ _ _ h
      · split
        · exact inv_waitFor h
        · split
          · exact inv_issuePosted (fun _ _ ht => inv_retire _ _ (inv_ownAtomics ht)) h
          · exact inv_issueReturning (fun _ _ ht => inv_retire _ _ (inv_ownAtomics ht)) h

/-! ### What `Sys2Proof/Machine/Launching.lean` defines -/

theorem State.inv_hubRead {part n : Nat} : ∀ {s : State} {va k : Nat}, s.Inv → (s.hubRead part n va k).1.Inv := by
  induction n with
  | zero => exact fun h => h
  | succ n ih =>
    intro s va k h
    unfold State.hubRead
    split
    · exact h
    · dsimp only
      split
      · split
        · exact ih (State.inv_inboundRead (State.inv_of_mem (State.noteUse_mem _ _ _ _) (State.inv_noteWalk _ _ h)))
        · exact State.inv_violation (State.inv_noteWalk _ _ h)
      · exact State.inv_noteWalk _ _ h

theorem State.inv_readFlat {s : State} {part : Nat} {va : DWord} {n : Nat} (h : s.Inv) :
    (s.readFlat part va n).1.Inv := by
  unfold State.readFlat
  split
  · exact h
  · exact State.inv_hubRead h

theorem State.inv_readHeader {s : State} {p : Nat} {hdr : DWord} (h : s.Inv) : (s.readHeader p hdr).1.Inv := by
  unfold State.readHeader
  split
  · exact h
  · split
    · rename_i he
      exact State.inv_fst he (State.inv_readFlat h)
    · split
      · split
        rename_i he
        refine State.inv_fst he ?_
        refine State.inv_readFlat ?_
        rename_i he1 _ _ _ _
        exact State.inv_fst he1 (State.inv_readFlat h)
      · rename_i he _
        exact State.inv_fst he (State.inv_readFlat h)

theorem State.inv_refuseLaunch {s : State} {p : Nat} {hdr : DWord} (h : s.Inv) : (s.refuseLaunch p hdr).Inv := by
  unfold State.refuseLaunch
  split
  refine State.inv_recordRs _ _ ?_
  rename_i he
  exact State.inv_snd he (State.inv_draw h)

theorem keepsInv_execLaunchAppend {p q : Nat} {hdr : BitVec 64} {codes : List (Nat × List Nat)}
    {objs : List (List (BitVec 8))} {s : State} (h : s.Inv) : KeepsInv (execLaunchAppend p q hdr codes objs s) := by
  unfold execLaunchAppend
  apply keepsInv_next
  split
  · exact h
  · extract_lets t
    have ht : (t.readHeader p hdr).1.Inv := State.inv_readHeader (State.inv_foldl _ _ (fun _ _ hu => State.inv_measure hu) h)
    split
    next u he => exact State.inv_refuseLaunch (State.inv_fst he ht)
    next u bs os he =>
      have hu := State.inv_fst he ht
      split
      · exact State.inv_refuseLaunch hu
      · exact State.inv_measure (State.inv_putLaunch hu)

theorem keepsInv_onPacket {s : State} {n : Nat} {resume : Bool} {k : State → Launch → Packet → State}
    (hk : ∀ t x x', t.Inv → (k t x x').Inv) (h : s.Inv) : KeepsInv (onPacket s n resume k) := by
  unfold onPacket
  apply keepsInv_next
  split
  · exact h
  · split
    · exact h
    · split
      · dsimp only
        split
        · exact h
        · exact State.inv_raiseOp h
      · split
        · exact h
        · exact hk _ _ _ h

theorem State.inv_settleIn {t : State} {x : Launch} {u : Nat} (h : t.Inv) : (t.settleIn x u).Inv := by
  unfold State.settleIn
  split
  · exact State.inv_preempt h
  · exact h

theorem keepsInv_execGroupStart {n : Nat} {s : State} (h : s.Inv) : KeepsInv (execGroupStart n s) :=
  keepsInv_onPacket (fun _ _ _ ht => State.inv_settleIn (State.inv_startGroup ht)) h

theorem keepsInv_execTaskStart {cu slot : Nat} {s : State} (h : s.Inv) : KeepsInv (execTaskStart cu slot s) := by
  unfold execTaskStart
  dsimp only
  apply keepsInv_next
  split
  · exact h
  · split
    · exact State.inv_startTask (State.inv_putUnit h)
    · exact h

theorem keepsInv_execHeldFirePlace {n : Nat} {s : State} (h : s.Inv) : KeepsInv (execHeldFirePlace n s) := by
  unfold execHeldFirePlace
  apply keepsInv_next
  split
  · exact h
  · split
    · exact h
    · dsimp only
      split
      · split
        · exact State.inv_placeFire h
        · exact h
      · split
        · exact State.inv_placeFire h
        · exact h

theorem Memory.wf_foldl_set {a : Nat × Byte → Nat} (bs : Tab Byte) : ∀ {m : List Host.Cell}, Memory.wf m = true →
    Memory.wf (bs.foldl (fun (t : List Host.Cell) b => Tab.set 0 t (a b) b.2) m) = true := by
  induction bs with
  | nil => exact fun h => h
  | cons b bs ih => exact fun h => ih (Tab.wf_set 0 _ _ h)

theorem State.inv_putSpad {s : State} {v : Nat} {bs : Tab Byte} (h : s.Inv) : (s.putSpad v bs).Inv :=
  Memory.wf_foldl_set bs (Tab.wf_filter 0 _ h)

theorem State.inv_unhold {s : State} {ids qs : List Nat} (h : s.Inv) : (s.unhold ids qs).Inv := h

theorem State.inv_saveGroup {s : State} {u : Nat} (h : s.Inv) : (s.saveGroup u).Inv := by
  unfold State.saveGroup
  dsimp only
  split
  · refine State.inv_putLaunch ?_
    refine State.inv_freeUnit ?_
    refine State.inv_foldl _ _ (fun _ _ ht => ?_) (State.inv_of_mem rfl (State.inv_foldl _ _ (fun _ _ ht =>
      State.inv_drainSfu _ _ (State.inv_leaveQueues ht)) h))
    split
    · exact State.inv_putQuad ht
    · exact ht
  · refine State.inv_freeUnit ?_
    refine State.inv_foldl _ _ (fun _ _ ht => ?_) (State.inv_of_mem rfl (State.inv_foldl _ _ (fun _ _ ht =>
      State.inv_drainSfu _ _ (State.inv_leaveQueues ht)) h))
    split
    · exact State.inv_putQuad ht
    · exact ht

theorem keepsInv_execContextSave {u : Nat} {s : State} (h : s.Inv) : KeepsInv (execContextSave u s) := by
  unfold execContextSave
  apply keepsInv_next
  split
  · exact State.inv_saveGroup h
  · exact h

theorem State.inv_restoreGroup {s : State} {x : Launch} {k : Packet} (h : s.Inv) : (s.restoreGroup x k).Inv := by
  unfold State.restoreGroup
  dsimp only
  split
  · exact h
  · refine State.inv_putLaunch ?_
    refine State.inv_of_mem rfl ?_
    refine State.inv_foldl _ _ (fun _ _ ht => State.inv_putAgent (State.inv_acquire ht)) ?_
    refine State.inv_renameGroup ?_
    refine State.inv_renameAgent ?_
    refine State.inv_foldl _ _ (fun _ _ ht => ?_) h
    split
    · exact State.inv_putQuad (State.inv_of_mem rfl (State.inv_putSpad (State.inv_putUnit ht)))
    · exact State.inv_of_mem rfl (State.inv_putSpad (State.inv_putUnit ht))

theorem keepsInv_execContextRestore {n : Nat} {s : State} (h : s.Inv) : KeepsInv (execContextRestore n s) :=
  keepsInv_onPacket (fun _ _ _ ht => State.inv_settleIn (State.inv_restoreGroup ht)) h

theorem keepsInv_execMigration {u v : Nat} {s : State} (h : s.Inv) : KeepsInv (execMigration u v s) := by
  unfold execMigration
  apply keepsInv_next
  split
  · dsimp only
    exact State.inv_resumeOn (State.inv_saveGroup h)
  · exact h

/-! ### What `Sys2Proof/Machine/Tasks.lean` defines -/

theorem State.inv_spawn {s : State} {ag : Agent} {ctl cnt : Word} {r : TaskRec} {inputs : List (DWord × Nat)}
    (h : s.Inv) : (s.spawn ag ctl cnt r inputs).2.Inv := by
  unfold State.spawn
  dsimp only
  split
  · split
    · exact h
    · split
      · exact h
      · split
        · exact State.inv_putUnit h
        · split
          · exact State.inv_tqAppend h
          · exact h
  · split
    · exact h
    · split
      · exact h
      · exact State.inv_tqAppend h
  · split
    · exact h
    · split
      · exact h
      · split <;> exact h
  · exact h

theorem keepsInv_execSpawn {g : BitVec 2} {d : BitVec 6} {a : Src} {b : BitVec 6} {s : State} (h : s.Inv) :
    KeepsInv (execSpawn g d a b s) := by
  unfold execSpawn
  refine keepsInv_issueOnce h (fun _ _ => ?_)
  dsimp only
  split
  · split
    · exact inv_addrTrap h
    · split
      · exact inv_trapHere _ _ _ _ h
      · split
        · exact inv_waitFor h
        · exact inv_retire _ _ (State.inv_spawn h)
  · split
    · exact inv_addrTrap h
    · split
      · exact inv_trapHere _ _ _ _ h
      · split
        · exact inv_waitFor h
        · exact inv_retire _ _ (State.inv_spawn h)

theorem State.inv_stealFrom {s : State} {ag : Agent} {v : Nat} (h : s.Inv) : (s.stealFrom ag v).2.Inv := by
  unfold State.stealFrom
  dsimp only
  split
  · exact h
  · split
    · exact h
    · split
      · exact h
      · exact State.inv_putUnit (State.inv_putUnit h)

theorem keepsInv_execSteal {g : BitVec 2} {d : BitVec 6} {b : Src} {s : State} (h : s.Inv) :
    KeepsInv (execSteal g d b s) := by
  unfold execSteal
  refine keepsInv_issueOnce h (fun _ _ => ?_)
  split
  · exact inv_waitFor h
  · exact inv_retire _ _ h
  · dsimp only
    split
    · exact inv_waitFor (State.inv_raiseEvent _ _ h)
    · exact inv_retire _ _ (State.inv_stealFrom h)

theorem State.inv_tdone {s : State} {ag : Agent} {i n : Nat} (h : s.Inv) : (s.tdone ag i n).2.Inv := by
  unfold State.tdone
  split
  · exact h
  · split
    · exact h
    · split
      · exact h
      · split
        · exact State.inv_fire h
        · exact h

theorem keepsInv_execTdone {g : BitVec 2} {d : BitVec 6} {a b : Src} {s : State} (h : s.Inv) :
    KeepsInv (execTdone g d a b s) := by
  unfold execTdone
  refine keepsInv_issueOnce h (fun _ _ => ?_)
  split
  · exact inv_waitFor h
  · split
    refine inv_retire _ _ ?_
    rename_i he
    exact State.inv_snd he (State.inv_tdone h)

theorem keepsInv_execPwrget {g : BitVec 2} {d : BitVec 6} {a : Src} {s : State} (h : s.Inv) :
    KeepsInv (execPwrget g d a s) := by
  unfold execPwrget
  refine keepsInv_issueOnce h (fun _ _ => ?_)
  dsimp only
  exact inv_retire _ _ (State.inv_putUnit (State.inv_pwrTake h))

theorem keepsInv_execPwrrel {g : BitVec 2} {a : Src} {s : State} (h : s.Inv) : KeepsInv (execPwrrel g a s) := by
  unfold execPwrrel
  refine keepsInv_issueOnce h (fun _ _ => ?_)
  dsimp only
  exact inv_retire _ _ (State.inv_putUnit (State.inv_pwrGive h))

/-! ### What `Sys2Proof/Machine/Policy.lean` defines -/

theorem State.inv_dueReset {s : State} {p : Nat} (h : s.Inv) : (s.dueReset p).Inv := State.inv_putPol h

theorem State.inv_pick0 {s : State} {p i u : Nat} (h : s.Inv) : (s.pick0 p i u).Inv := by
  unfold State.pick0
  split
  · exact State.inv_dueReset (State.inv_dispatch h)
  · exact h

theorem State.inv_pick1 {s : State} {p i u : Nat} (h : s.Inv) : (s.pick1 p i u).Inv := by
  unfold State.pick1
  split
  · split
    refine State.inv_dueReset ?_
    refine State.inv_startTask ?_
    rename_i he
    exact State.inv_snd he (State.inv_tqPop h)
  · exact h

theorem State.inv_pick2 {s : State} {e : PolEvent} {v : Word} (h : s.Inv) : (s.pick2 e v).Inv := by
  unfold State.pick2
  dsimp only
  split
  · exact h
  · split
    · refine State.inv_updAgent _ _ ?_
      split
      · exact h
      · exact State.inv_stealFrom h
    · exact h

theorem State.inv_pick3 {s : State} {e : PolEvent} {die : Nat} (h : s.Inv) : (s.pick3 e die).Inv := by
  unfold State.pick3
  split
  · exact h
  · exact State.inv_placeFire h

theorem State.inv_notifyJob {s : State} {e : PolEvent} (h : s.Inv) : (s.notifyJob e).Inv :=
  State.inv_foldl _ _ (fun _ _ ht => State.inv_updAny ht) h

theorem State.inv_suspendJob {s : State} {e : PolEvent} (h : s.Inv) : (s.suspendJob e).Inv := by
  unfold State.suspendJob
  split
  · exact h
  · exact State.inv_foldl _ _ (fun _ _ ht => State.inv_preempt ht) (State.inv_putLaunch h)

theorem State.inv_applyDec {s : State} {p : Nat} {e : PolEvent} {k : DecKind} {a b : Word} (h : s.Inv) :
    (s.applyDec p e k a b).Inv := by
  unfold State.applyDec
  split
  · split
    · exact State.inv_pick0 h
    · exact State.inv_pick1 h
    · exact State.inv_pick2 h
    · exact State.inv_pick3 h
  · exact h
  · exact State.inv_preempt h
  · split
    · exact State.inv_killLaunch h
    · exact h
  · exact h
  · split
    · exact State.inv_notifyJob h
    · exact h
  · split
    · exact State.inv_suspendJob h
    · exact h

theorem State.inv_fallback {s : State} {p : Nat} {e : PolEvent} (h : s.Inv) : (s.fallback p e).Inv := by
  unfold State.fallback
  split
  · split
    · exact h
    · split
      · exact h
      · split
        · exact State.inv_pick0 h
        · exact h
  · split
    · split
      · exact State.inv_pick1 h
      · exact h
    · exact h
  · dsimp only
    split <;> exact State.inv_pick2 h
  · split
    · exact State.inv_pick3 h
    · exact h
  · dsimp only
    split
    · exact State.inv_preempt h
    · exact h
  · split
    · split
      · exact State.inv_preempt h
      · exact h
    · exact h
  · split
    · exact State.inv_killLaunch h
    · exact h

theorem State.inv_raiseDue {s : State} {p : Nat} (h : s.Inv) : (s.raiseDue p).Inv := by
  unfold State.raiseDue
  dsimp only
  split
  · exact h
  · split
    · exact State.inv_raiseEvent _ _ (State.inv_putPol h)
    · exact h

theorem State.inv_endDec {s : State} {p : Nat} (h : s.Inv) : (s.endDec p).Inv := State.inv_putPol h

theorem State.inv_startDec {s : State} {p : Nat} {e : PolEvent} (h : s.Inv) : (s.startDec p e).Inv :=
  State.inv_putPol h

theorem keepsInv_execPolicyDecisionStart {p : Nat} {s : State} (h : s.Inv) :
    KeepsInv (execPolicyDecisionStart p s) := by
  unfold execPolicyDecisionStart
  apply keepsInv_next
  split
  · exact State.inv_fallback (State.inv_putPol h)
  · split
    · exact h
    · dsimp only
      split
      · exact State.inv_raiseDue h
      · split
        · exact State.inv_fallback (State.inv_putPol (State.inv_raiseDue h))
        · split
          · exact State.inv_raiseDue h
          · exact State.inv_startDec (State.inv_putPol (State.inv_raiseDue h))

theorem State.inv_overrun {s : State} {p : Nat} {e : PolEvent} (h : s.Inv) : (s.overrun p e).Inv :=
  State.inv_fallback (State.inv_endDec (State.inv_polCount h))

theorem keepsInv_execBudgetOverrun {p : Nat} {s : State} (h : s.Inv) : KeepsInv (execBudgetOverrun p s) := by
  unfold execBudgetOverrun
  apply keepsInv_next
  split
  · split
    · exact State.inv_overrun h
    · exact h
  · exact h

theorem keepsInv_execSliceEnd {u : Nat} {s : State} (h : s.Inv) : KeepsInv (execSliceEnd u s) := by
  unfold execSliceEnd
  dsimp only
  apply keepsInv_next
  split
  · exact State.inv_raiseEvent _ _ (State.inv_putUnit h)
  · exact h

theorem keepsInv_onDec {s : State} {cost : Decision → Nat} {k : Nat → Decision → State} (hk : ∀ i x, (k i x).Inv)
    (h : s.Inv) : KeepsInv (onDec s cost k) := by
  unfold onDec
  split
  · split
    · apply keepsInv_next
      split
      · exact State.inv_overrun h
      · exact hk _ _
    · exact keepsInv_fault _
  · exact keepsInv_fault _

theorem keepsInv_polReg {s : State} {cost : Nat} {r : BitVec 3} {f : Decision → Word} (h : s.Inv) :
    KeepsInv (polReg s cost r f) :=
  keepsInv_onDec (fun _ _ => State.inv_putPol h) h

theorem keepsInv_polBranch {s : State} {off : BitVec 5} {t : Decision → Bool} (h : s.Inv) :
    KeepsInv (polBranch s off t) :=
  keepsInv_onDec (fun _ _ => State.inv_putPol h) h

theorem keepsInv_polDec {s : State} {k : DecKind} {a b : BitVec 3} (h : s.Inv) : KeepsInv (polDec s k a b) := by
  unfold polDec
  refine keepsInv_onDec (fun _ _ => ?_) h
  split
  · exact State.inv_applyDec (State.inv_endDec (State.inv_polCount h))
  · exact State.inv_fallback (State.inv_endDec (State.inv_polCount h))

/-! ### What `Sys2Proof/Machine/Requests.lean` defines -/

theorem State.inv_dropRequest {s : State} {part : Nat} (h : s.Inv) : (s.dropRequest part).Inv := by
  unfold State.dropRequest
  split
  rename_i he
  have hd := State.inv_snd he (State.inv_draw h)
  exact State.inv_recordRs _ _ hd

theorem State.inv_linkWrite {part : Nat} {bs : List Byte} : ∀ {s : State} {va : Nat}, s.Inv → (s.linkWrite part va bs).Inv := by
  induction bs with
  | nil => exact fun h => h
  | cons b bs ih =>
    intro s va h
    unfold State.linkWrite
    refine ih ?_
    split
    · exact State.inv_arriveWrite (State.inv_of_mem (State.noteUse_mem _ _ _ _) h)
    · exact h

theorem State.inv_linkDenied {s : State} {die part va n : Nat} (h : s.Inv) : (s.linkDenied die part va n).Inv := by
  unfold State.linkDenied
  split
  · exact State.inv_violation h
  · exact h

theorem keepsInv_execUeRequest {r : UeReq} {s : State} (h : s.Inv) : KeepsInv (execUeRequest r s) := by
  unfold execUeRequest
  apply keepsInv_next
  split
  · exact h
  · split
    · exact State.inv_dropRequest h
    · dsimp only
      split
      · exact State.inv_dropRequest h
      · split
        · exact h
        · split
          · exact State.inv_dropRequest (State.inv_linkDenied h)
          · split
            · exact State.inv_of_mem rfl (State.inv_linkWrite h)
            · exact State.inv_tqAppend (State.inv_of_mem rfl (State.inv_linkWrite h))

theorem State.inv_answer {s : State} {bs : List Byte} (h : s.Inv) : (s.answer bs).Inv := h

theorem State.inv_dropQueues {s : State} {p : Nat} (h : s.Inv) : (s.dropQueues p).Inv := h

theorem State.inv_destroyPart {s : State} {p : Nat} (h : s.Inv) : (s.destroyPart p).Inv := by
  unfold State.destroyPart
  split
  · exact h
  · dsimp only
    exact State.inv_endParts (State.inv_foldl _ _ (fun _ _ ht => State.inv_killLaunch ht) (State.inv_dropQueues h))

theorem State.inv_takeRequest {s t : State} (ht : s.takeRequest = some t) (h : s.Inv) : t.Inv := by
  unfold State.takeRequest at ht
  split at ht
  · cases ht
    exact State.inv_of_mem (s := s) rfl h
  · cases ht

theorem keepsInv_execManagementRequest {r : MgmtReq} {s : State} (h : s.Inv) : KeepsInv (execManagementRequest r s) := by
  unfold execManagementRequest
  apply keepsInv_next
  split
  · exact h
  next t he =>
    have ht : t.Inv := State.inv_takeRequest he h
    split
    · exact State.inv_answer ht
    · split
      · exact ht
      · exact State.inv_createPart ht
    · exact State.inv_destroyPart ht
    · split
      · exact ht
      · exact State.inv_answer (State.inv_writeSplit ht)
    · exact State.inv_writeFence ht
    · split
      · exact State.inv_putLaunch ht
      · exact ht
    · exact ht

theorem keepsInv_execAttestationRequest {part : Nat} {nonce : List (BitVec 8)} {s : State} (h : s.Inv) :
    KeepsInv (execAttestationRequest part nonce s) := by
  unfold execAttestationRequest
  apply keepsInv_next
  split
  · exact h
  · split
    dsimp only
    refine State.inv_answer ?_
    refine State.inv_answer ?_
    rename_i he
    refine State.inv_snd he ?_
    refine State.inv_draw ?_
    rename_i he1 _ _ _
    exact State.inv_takeRequest he1 h

/-! ### What `Sys2Proof/Machine/Special.lean` defines -/

theorem State.inv_sfuEnter {s : State} {id : Nat} {ag : Agent} {e : UnitSt → SfuEntry} (h : s.Inv) :
    (s.sfuEnter id ag e).Inv := by
  unfold State.sfuEnter
  dsimp only
  split
  · exact inv_retire _ _ (State.inv_putUnit h)
  · exact inv_waitFor h

theorem keepsInv_sfuOp {op : SfuOp} {g : BitVec 2} {d : BitVec 6} {a : Src} {s : State} (h : s.Inv) :
    KeepsInv (sfuOp op g d a s) :=
  keepsInv_issueOnce h (fun _ _ => State.inv_sfuEnter h)

theorem keepsInv_execAtld {g : BitVec 2} {a : Src} {s : State} (h : s.Inv) : KeepsInv (execAtld g a s) := by
  unfold execAtld
  refine keepsInv_issueOnce h (fun _ _ => ?_)
  dsimp only
  split
  · exact inv_addrTrap h
  · split
    · exact inv_trapHere _ _ _ _ h
    · split
      · exact inv_waitFor h
      · exact State.inv_sfuEnter h

theorem keepsInv_execAtswap {g : BitVec 2} {s : State} (h : s.Inv) : KeepsInv (execAtswap g s) := by
  unfold execAtswap
  refine keepsInv_issueOnce h (fun _ _ => ?_)
  dsimp only
  split
  · exact inv_retire _ _ (State.inv_putUnit h)
  · exact inv_waitFor h

/-! ### What `Sys2Proof/Machine/Turn.lean` defines -/

theorem State.inv_tick {s : State} (h : s.Inv) : s.tick.Inv := h

theorem State.inv_inRunTurn {s : State} {id : Nat} {ag : Agent} (h : s.Inv) : (s.inRunTurn id ag).1.Inv := by
  unfold State.inRunTurn
  split
  · split
    · exact h
    · exact State.inv_putAgent h
  · exact inv_trapWord (State.inv_badWord h)

theorem State.inv_boundaryTurn {s : State} {id : Nat} {ag : Agent} (h : s.Inv) : (s.boundaryTurn id ag).1.Inv := by
  unfold State.boundaryTurn
  dsimp only
  split
  · exact h
  · split
    · exact inv_takeTrap _ _ _ _ _ h
    · split
      · exact State.inv_fetchStop h
      · exact State.inv_fetchStop h
      · split
        · exact State.inv_keepCode h
        · exact inv_takeTrap _ _ _ _ _ h

theorem State.inv_agentTurn {s : State} {id : Nat} {ag : Agent} (h : s.Inv) : (s.agentTurn id ag).1.Inv := by
  unfold State.agentTurn
  split
  · exact h
  · split
    · exact State.inv_endAgent h
    · split
      · exact h
      · split
        · exact inv_endPass h
        · split
          · exact State.inv_inRunTurn h
          · exact State.inv_boundaryTurn h

theorem State.inv_policyTurn {s : State} {p : Nat} (h : s.Inv) : (s.policyTurn p).1.Inv := by
  unfold State.policyTurn
  split
  · exact h
  · split
    · exact State.inv_fallback (State.inv_endDec h)
    · split
      · exact h
      · exact State.inv_fallback (State.inv_endDec h)

theorem State.inv_pass {s : State} (h : s.Inv) : s.pass.Inv := h

theorem State.inv_plan {s : State} (h : s.Inv) : s.plan.1.Inv := by
  unfold State.plan
  split
  · exact h
  · exact h
  · split
    · exact State.inv_pass h
    · split
      · exact State.inv_pass h
      · exact State.inv_policyTurn h
      · split
        · exact State.inv_agentTurn h
        · exact h

/-! ### One instruction and one step -/

/-- Every instruction and every step of the package keeps memory in its canonical form. -/
theorem keepsInv_exec {i : Instr} {s : State} (h : s.Inv) : KeepsInv (exec i s) := by
  cases i with
  | blk => exact keepsInv_execBlk h
  | rep => exact keepsInv_execRep h
  | add | sub | mul | mulh | mulhu | and | or | xor | andn | shl | shr | sar | rol | min | max | minu | maxu | bfx
  | addCompact | subCompact | andCompact | orCompact | xorCompact | addImmCompact | shlCompact | shrCompact
  | sarCompact =>
    unfold exec
    exact keepsInv_scalar2 h
  | div | divu | rem | remu =>
    unfold exec
    exact keepsInv_scalarDiv h
  | clz | popc | mov | movCompact | movImmCompact =>
    unfold exec
    exact keepsInv_scalar1 h
  | bfi | sel =>
    unfold exec
    exact keepsInv_scalar3 h
  | cmpEq | cmpNe | cmpLt | cmpLtu | cmpLe | cmpLeu | cmpGt | cmpGtu | cmpGe | cmpGeu =>
    unfold exec
    exact keepsInv_scalarCmp h
  | add64 | sub64 | mul64 =>
    unfold exec
    exact keepsInv_pair2 h
  | shl64 | shr64 | sar64 | adda =>
    unfold exec
    exact keepsInv_pairW h
  | prep | call | yield | nop | vbcast | capr | ktos | nopCompact =>
    unfold exec
    exact keepsInv_regOp h
  | xfer | xfern | ret | xferCompact | xfernCompact =>
    unfold exec
    exact keepsInv_xferIf h
  | split => exact keepsInv_execSplit h
  | join => exact keepsInv_execJoin h
  | halt => exact keepsInv_execHalt h
  | vany | vall | vbal | vcnt | vffs =>
    unfold exec
    exact keepsInv_vote h
  | regroup => exact keepsInv_execRegroup h
  | trap => exact keepsInv_execTrap h
  | eret => exact keepsInv_execEret h
  | csrr => exact keepsInv_execCsrr h
  | csrw => exact keepsInv_execCsrw h
  | wfi => exact keepsInv_execWfi h
  | ifence => exact keepsInv_execIfence h
  | mapinv => exact keepsInv_execMapinv h
  | harvest => exact keepsInv_execHarvest h
  | keyset => exact keepsInv_execKeyset h
  | keykill => exact keepsInv_execKeykill h
  | polld => exact keepsInv_execPolld h
  | polsw => exact keepsInv_execPolsw h
  | vadd | vsub | vmul | vmulh | vand | vor | vxor | vshl | vshr | vsar | vmin | vmax | vminu | vmaxu | vadds
  | vsubs | pk4 | upk4 | pkts | upkts | vaddCompact =>
    unfold exec
    exact keepsInv_vector2 h
  | vabs | vneg | vclz | vpopc | vmov | vmovCompact =>
    unfold exec
    exact keepsInv_vector1 h
  | vsel => exact keepsInv_execVsel h
  | vmad | vmadh | vdot4 | vdot4u =>
    unfold exec
    exact keepsInv_vector3 h
  | vcmpEq | vcmpNe | vcmpLt | vcmpLtu | vcmpLe | vcmpLeu | vcmpGt | vcmpGtu | vcmpGe | vcmpGeu =>
    unfold exec
    exact keepsInv_vectorCmp h
  | kand | kor | kxor | knot | kmov | kfroms | kmovCompact =>
    unfold exec
    exact keepsInv_predOp h
  | vfadd | vfsub | vfmul | vfma | vfms | vfnma | vfaddCompact | vfmulCompact =>
    unfold exec
    exact keepsInv_fp32Op h
  | vfmin | vfmax | vfclass | vfrnd | vdmin | vdmax | vcvt | pk6 | upk6 | vscale =>
    unfold exec
    exact keepsInv_vecOp h
  | vfabs | vfneg =>
    unfold exec
    exact keepsInv_fp32Bits h
  | vdadd | vdsub | vdmul | vdfma =>
    unfold exec
    exact keepsInv_fp64Op h
  | vfcmpEq | vfcmpNe | vfcmpLt | vfcmpLe | vfcmpGt | vfcmpGe | vfcmpUn | vfcmpOrd =>
    unfold exec
    exact keepsInv_floatCmp h
  | srcp | srsq | ssqrt | sexp2 | slog2 | ssin | scos | stanh | sact =>
    unfold exec
    exact keepsInv_sfuOp h
  | atld => exact keepsInv_execAtld h
  | atswap => exact keepsInv_execAtswap h
  | nbl | nbr | nrot =>
    unfold exec
    exact keepsInv_laneNet h
  | ld => exact keepsInv_execLd h
  | st => exact keepsInv_execSt h
  | sld => exact keepsInv_execSld h
  | sst => exact keepsInv_execSst h
  | ldsp => exact keepsInv_execLdsp h
  | stsp => exact keepsInv_execStsp h
  | tld => exact keepsInv_execTld h
  | tst => exact keepsInv_execTst h
  | ldacq => exact keepsInv_execLdacq h
  | strel => exact keepsInv_execStrel h
  | fence => exact keepsInv_execFence h
  | bar | bara =>
    unfold exec
    exact keepsInv_barrierOp h
  | barw => exact keepsInv_execBarw h
  | dbar => exact keepsInv_execDbar h
  | waitw => exact keepsInv_execWaitw h
  | wakew => exact keepsInv_execWakew h
  | cpy => exact keepsInv_execCpy h
  | give => exact keepsInv_execGive h
  | take => exact keepsInv_execTake h
  | hwait => exact keepsInv_execHwait h
  | htest => exact keepsInv_execHtest h
  | hcancel => exact keepsInv_execHcancel h
  | hpass => exact keepsInv_execHpass h
  | spawn => exact keepsInv_execSpawn h
  | steal => exact keepsInv_execSteal h
  | tdone => exact keepsInv_execTdone h
  | remq => exact keepsInv_execRemq h
  | pwrget => exact keepsInv_execPwrget h
  | pwrrel => exact keepsInv_execPwrrel h
  | wsig => exact keepsInv_execWsig h
  | allred => exact keepsInv_execAllred h
  | wincfg => exact keepsInv_execWincfg h
  | ntime => exact keepsInv_execNtime h
  | skclr => exact keepsInv_execSkclr h
  | skins => exact keepsInv_execSkins h
  | skrecon => exact keepsInv_execSkrecon h
  | skstat => exact keepsInv_execSkstat h
  | aadd | asub | amin | amax | aminu | amaxu | aand | aor | axor | axchg | acas | afadd =>
    unfold exec
    exact keepsInv_atomic h
  | wload | rload | mmul | chb | che | accst | vcset | shdw | scmt | sdsc =>
    unfold exec
    exact keepsInv_engineCmd h
  | nest => exact keepsInv_execNest h
  | go => exact keepsInv_execGo h
  | qfuse => exact keepsInv_execQfuse h
  | qsplit => exact keepsInv_execQsplit h
  | polLdi | polLdih | polAdd | polSub | polAnd | polOr | polXor | polMinu | polMaxu | polShl | polShr | polAddi
  | polRqf | polRuf | polArgminq | polArgmaxq | polArgminu | polArgmaxu =>
    unfold exec
    exact keepsInv_polReg h
  | polBeq | polBne | polBltu | polBgeu =>
    unfold exec
    exact keepsInv_polBranch h
  | polLdp | polStp =>
    unfold exec
    exact keepsInv_onDec (fun _ _ => State.inv_putPol h) h
  | polDecPick | polDecKeep | polDecPreempt | polDecKill | polDecResume | polDecNotify | polDecSuspend =>
    unfold exec
    exact keepsInv_polDec h
  | polDecFallback =>
    unfold exec
    exact keepsInv_onDec (fun _ _ => State.inv_fallback (State.inv_endDec h)) h
  | policyDecisionStart => exact keepsInv_execPolicyDecisionStart h
  | budgetOverrun => exact keepsInv_execBudgetOverrun h
  | sliceEnd => exact keepsInv_execSliceEnd h
  | packageReset => exact keepsInv_execPackageReset
  | bootStage => exact keepsInv_execBootStage h
  | enumeration => exact keepsInv_execEnumeration h
  | heartbeat => exact keepsInv_execHeartbeat h
  | isolation => exact keepsInv_execIsolation h
  | chipletSelfTest => exact keepsInv_execChipletSelfTest h
  | staleResponseDrop => exact keepsInv_execStaleResponseDrop h
  | patrolScrub => exact keepsInv_execPatrolScrub h
  | cxlDeviceLoss => exact keepsInv_execCxlDeviceLoss h
  | orngLimWrite => exact keepsInv_execOrngLimWrite h
  | orngSplitWrite => exact keepsInv_execOrngSplitWrite h
  | wayCleaning => exact keepsInv_execWayCleaning h
  | orangeryEpoch => exact keepsInv_execOrangeryEpoch h
  | pageWalk => exact keepsInv_execPageWalk h
  | nextPageWalk => exact keepsInv_execNextPageWalk h
  | faultResolve => exact keepsInv_execFaultResolve h
  | faultUnresolvable => exact keepsInv_execFaultUnresolvable h
  | sideLogReplay => exact keepsInv_execSideLogReplay h
  | loadPerform => exact keepsInv_execLoadPerform h
  | storePerform => exact keepsInv_execStorePerform h
  | writePropagate => exact keepsInv_execWritePropagate h
  | cacheEviction => exact keepsInv_execCacheEviction h
  | acquire => exact keepsInv_execAcquire h
  | release => exact keepsInv_execRelease h
  | atomicPerform => exact keepsInv_execAtomicPerform h
  | writeErrorRemoval => exact keepsInv_execWriteErrorRemoval h
  | windowDeliver => exact keepsInv_execWindowDeliver h
  | windowAck => exact keepsInv_execWindowAck h
  | windowTimeout => exact keepsInv_execWindowTimeout h
  | requestTimeout => exact keepsInv_execRequestTimeout h
  | inboundRemoteAccess => exact keepsInv_execInboundRemoteAccess h
  | requestReissue => exact keepsInv_execRequestReissue h
  | flitAck => exact keepsInv_execFlitAck h
  | linkWidthChange => exact keepsInv_execLinkWidthChange h
  | laneFailure => exact keepsInv_execLaneFailure h
  | timeSync => exact keepsInv_execTimeSync h
  | reductionFold => exact keepsInv_execReductionFold h
  | ueRequest => exact keepsInv_execUeRequest h
  | managementRequest => exact keepsInv_execManagementRequest h
  | attestationRequest => exact keepsInv_execAttestationRequest h
  | circWrite => exact keepsInv_execCircWrite h
  | circuitUp | circuitDown =>
    unfold exec
    exact keepsInv_next (State.inv_circStep h)
  | copyStart => exact keepsInv_execCopyStart h
  | copyChunk => exact keepsInv_execCopyChunk h
  | copyCompletion => exact keepsInv_execCopyCompletion h
  | sfuEntry => exact keepsInv_execSfuEntry h
  | engineEntryIssue => exact keepsInv_execEngineEntryIssue h
  | engineEntryRetire => exact keepsInv_execEngineEntryRetire h
  | nestEmit => exact keepsInv_execNestEmit h
  | remqBlockDispatch => exact keepsInv_execRemqBlockDispatch h
  | reconcileMatch => exact keepsInv_execReconcileMatch h
  | reconcileWaitExpiry => exact keepsInv_execReconcileWaitExpiry h
  | sketchPeel => exact keepsInv_execSketchPeel h
  | fullSetTransfer => exact keepsInv_execFullSetTransfer h
  | spanTransaction => exact keepsInv_execSpanTransaction h
  | spanEviction => exact keepsInv_execSpanEviction h
  | launchAppend => exact keepsInv_execLaunchAppend h
  | groupStart => exact keepsInv_execGroupStart h
  | taskStart => exact keepsInv_execTaskStart h
  | heldFirePlace => exact keepsInv_execHeldFirePlace h
  | contextSave => exact keepsInv_execContextSave h
  | contextRestore => exact keepsInv_execContextRestore h
  | migration => exact keepsInv_execMigration h
  | opPointChange => exact keepsInv_execOpPointChange h
  | powerWindow => exact keepsInv_execPowerWindow h
  | asyncTrap => exact keepsInv_execAsyncTrap h
  | waitwYield | waitwReread | waitwTimer | ntimeDeadline | wfiTimeout =>
    unfold exec
    exact keepsInv_onWait h
  | svnFuseWrite => exact keepsInv_execSvnFuseWrite h
  | fenceCu => exact keepsInv_execFenceCu h
  | fenceQuadrant => exact keepsInv_execFenceQuadrant h
  | fenceDramBank => exact keepsInv_execFenceDramBank h
  | fenceLinkLane => exact keepsInv_execFenceLinkLane h
  | fenceDie => exact keepsInv_execFenceDie h
  | registerWrite => exact keepsInv_execRegisterWrite h
  | remoteResponse => exact keepsInv_execRemoteResponse h
  | reconcileStart => exact keepsInv_execReconcileStart h

/-- One step keeps memory in its canonical form. -/
theorem keepsInv_step {s : State} (h : s.Inv) : KeepsInv (step s) := by
  have hp : s.tick.plan.1.Inv := State.inv_plan (State.inv_tick h)
  unfold step
  split
  next t i he => exact keepsInv_exec (State.inv_fst he hp)
  next t he => exact keepsInv_next (State.inv_fst he hp)

end Sys2Proof.Machine

namespace Sys2Proof.Settled
open Sys2Proof Sys2Proof.Machine

/-- Settles O30: the plan of the step keeps memory in its canonical form, and so does the instruction or the package's own
step that it names. -/
theorem stepKeepsMemory : Obligations.StepKeepsMemory := fun _ _ h ht => keepsInv_step h _ ht

end Sys2Proof.Settled
end

section
/-! The frame of the scalar instructions (R10, R96, R109, R149): each of them is one change of its agent's registers under the
guard, and the change meets `Agent.ScalarFrame`. What retiring then does is the same for every instruction. -/
namespace Sys2Proof.Machine

/-! ### Retiring an agent that stands where another stands -/

/-- Unless a SPLIT is pending, retiring changes the agent and the mark that others move, and no byte of memory. -/
theorem retire_frame (s : State) (id : Nat) {ag x : Agent} (hr : x.run = ag.run)
    (h : ∀ p q m k, ag.run.pend ≠ .split p q m k) :
    (∃ y : Agent, retire s id x = { s.putAgent id y with stalled := (retire s id x).stalled }) ∧
      s.SameBytes (retire s id x) := by
  obtain ⟨y, hy⟩ := (retire_agent s id x (hr ▸ h)).frame
  exact ⟨⟨y, hy⟩, State.sameBytes_of_eq (by rw [hy]; rfl) (by rw [hy]; rfl)⟩

/-! ### What a scalar write leaves alone -/

/-- `x` is `ag` but for the scalars `d` to `d + n - 1`, and for `rstat.dz` where the instruction divides. -/
def Agent.ScalarFrame (ag x : Agent) (d n : Nat) (divides : Bool) : Prop :=
  x = { ag with s := x.s, rstat := x.rstat } ∧ (∀ r, r < d ∨ d + n ≤ r → x.sGet r = ag.sGet r) ∧
    (∀ b, b ≠ 3 → x.rstat.getLsbD b = ag.rstat.getLsbD b) ∧ (divides = false → x.rstat = ag.rstat)

theorem Agent.sSet_eq (ag : Agent) (r : Nat) (w : Word) : ag.sSet r w = { ag with s := (ag.sSet r w).s } := by
  unfold Agent.sSet
  split <;> rfl

theorem Agent.pSet_eq (ag : Agent) (r : Nat) (w : DWord) : ag.pSet r w = { ag with s := (ag.pSet r w).s } := by
  unfold Agent.pSet
  split
  · rfl
  · rw [Agent.sSet_eq, Agent.sSet_eq]

theorem Agent.sSet_frame (ag : Agent) (d : Nat) (w : Word) (divides : Bool) : ag.ScalarFrame (ag.sSet d w) d 1 divides := by
  refine ⟨?_, fun r hr => ag.sGet_sSet_ne w (by omega), fun b _ => by rw [Agent.sSet_rstat], fun _ => ag.sSet_rstat d w⟩
  rw [Agent.sSet_rstat]
  exact ag.sSet_eq d w

theorem Agent.pSet_frame (ag : Agent) (d : Nat) (w : DWord) (divides : Bool) : ag.ScalarFrame (ag.pSet d w) d 2 divides := by
  refine ⟨?_, fun r hr => ag.sGet_pSet_ne w (by omega) (by omega), fun b _ => by rw [Agent.pSet_rstat],
    fun _ => ag.pSet_rstat d w⟩
  rw [Agent.pSet_rstat]
  exact ag.pSet_eq d w

/-- A division sets `dz` alone among the bits of `rstat` (R151). -/
theorem divFlag_getLsbD (w : Word) {b : Nat} (h : b ≠ 3) : ((divFlag w).setWidth 32).getLsbD b = false := by
  unfold divFlag
  split
  · have hb : b = 0 ∨ b = 1 ∨ b = 2 ∨ b = 4 ∨ 5 ≤ b := by omega
    rcases hb with rfl | rfl | rfl | rfl | hb
    · rfl
    · rfl
    · rfl
    · rfl
    · simp [BitVec.getLsbD_setWidth, BitVec.getLsbD_of_ge flDZ b hb]
  · simp

theorem Agent.divide_frame (ag : Agent) (d : Nat) (w b : Word) : ag.ScalarFrame ((ag.sSet d w).orFlags (divFlag b)) d 1 true := by
  refine ⟨?_, fun r hr => ag.sGet_sSet_ne w (by omega), fun b hb => ?_, fun h => absurd h (by decide)⟩
  · rw [Agent.sSet_eq]; rfl
  · simp only [Agent.orFlags, Agent.orStat, Agent.sSet_rstat, BitVec.getLsbD_or, divFlag_getLsbD _ hb, Bool.or_false]

/-! ### The scalar instructions -/

theorem cReg_toNat (r : BitVec 5) : (cReg r).toNat = r.toNat := by
  simp only [cReg, BitVec.toNat_setWidth]
  omega

theorem Agent.sSet_cReg_frame (ag : Agent) (r : BitVec 5) (w : Word) (divides : Bool) :
    ag.ScalarFrame (ag.sSet (cReg r).toNat w) r.toNat 1 divides := by
  rw [cReg_toNat]
  exact ag.sSet_frame _ w divides

/-- A scalar instruction is one change of its agent's registers under the guard, in its destination and `dz` alone. -/
theorem scalarDest_regOp {i : Instr} {g : BitVec 2} {d n : Nat} (h : i.scalarDest = some (g, d, n)) :
    ∃ f : Agent → Agent, (∀ s, exec i s = regOp anyProfile g s f) ∧ ∀ ag : Agent, ag.ScalarFrame (f ag) d n i.divides := by
  cases i with
  | add | sub | mul | mulh | mulhu | and | or | xor | andn | shl | shr | sar | rol | min | max | minu | maxu
  | bfx | clz | popc | mov | bfi | sel | cmpEq | cmpNe | cmpLt | cmpLtu | cmpLe | cmpLeu | cmpGt | cmpGtu
  | cmpGe | cmpGeu =>
    cases h
    exact ⟨_, fun _ => rfl, fun ag => Agent.sSet_frame ag _ _ _⟩
  | div | divu | rem | remu =>
    cases h
    exact ⟨_, fun _ => rfl, fun ag => Agent.divide_frame ag _ _ _⟩
  | add64 | sub64 | mul64 | shl64 | shr64 | sar64 | adda =>
    cases h
    exact ⟨_, fun _ => rfl, fun ag => Agent.pSet_frame ag _ _ _⟩
  | movCompact | movImmCompact | addCompact | subCompact | andCompact | orCompact | xorCompact | addImmCompact
  | shlCompact | shrCompact | sarCompact =>
    cases h
    exact ⟨_, fun _ => rfl, fun ag => Agent.sSet_cReg_frame ag _ _ _⟩
  | _ => cases h

end Sys2Proof.Machine

namespace Sys2Proof.Settled
open Sys2Proof Sys2Proof.Machine

/-- Settles O32: the instruction changes its registers within `Agent.ScalarFrame` and retires; retiring has its own frame. -/
theorem frameScalar : Obligations.FrameScalar := by
  constructor
  · intro s t id ag i g d n hm hi hd ht
    obtain ⟨f, hf, hx⟩ := scalarDest_regOp hd
    rw [hf s, regOp_of f hm hi rfl] at ht
    cases ht
    refine ⟨⟨f ag, rfl, hx ag⟩, retire_frame s id ?_⟩
    obtain ⟨he, -⟩ := hx ag
    rw [he]
  · intro s id ag i g d n hm hw hg hd
    obtain ⟨f, hf, -⟩ := scalarDest_regOp hd
    rw [hf s]
    exact issueOnce_silent _ hm hw hg rfl

end Sys2Proof.Settled
end

section
/-! The frame of the vector instructions (R10, R86, R88, R98, R109, R160): each of them is one change of its wave's registers,
built from writes of vector registers, the draw of the rounding sequences and the flags, and each of these stays within
`Agent.VectorFrame`. -/
namespace Sys2Proof.Machine

/-! ### What a vector write leaves alone -/

/-- `x` is `ag` but for the registers `d` to `d + n - 1` in the lanes of `wr`, the arithmetic flags, and the rounding
sequences of the lanes of `act`. -/
def Agent.VectorFrame (ag x : Agent) (d n : Nat) (wr act : Mask) : Prop :=
  x = { ag with v := x.v, x := x.x, rstat := x.rstat } ∧
    (∀ r l, l < 96 → r < d ∨ d + n ≤ r ∨ wr.getLsbD l = false → x.vGet r l = ag.vGet r l) ∧
    (∀ b, 5 ≤ b → x.rstat.getLsbD b = ag.rstat.getLsbD b) ∧
    (∀ l, l < 96 → act.getLsbD l = false → Tab.get 0 x.x l = Tab.get 0 ag.x l)

theorem Agent.VectorFrame.refl (ag : Agent) (d n : Nat) (wr act : Mask) : ag.VectorFrame ag d n wr act :=
  ⟨rfl, fun _ _ _ _ => rfl, fun _ _ => rfl, fun _ _ _ => rfl⟩

theorem Agent.vSet_eq (ag : Agent) (r : Nat) (m : Mask) (f : Nat → Word) : ag.vSet r m f = { ag with v := (ag.vSet r m f).v } := by
  unfold Agent.vSet
  split <;> rfl

/-- Lanes outside the mask keep their value, in every register and for every register code. -/
theorem Agent.vGet_vSet_off (ag : Agent) {r q l : Nat} {m : Mask} (f : Nat → Word) (hl : l < 96) (h : m.getLsbD l = false) :
    (ag.vSet r m f).vGet q l = ag.vGet q l := by
  by_cases hq : q = r
  · subst hq
    by_cases hr : q < 63
    · rw [Agent.vGet_vSet_self ag m f hr hl, h]; rfl
    · rw [Agent.vSet, if_pos (by omega)]
  · exact ag.vGet_vSet_ne m f l hq

section
variable {ag x : Agent} {d n : Nat} {wr act : Mask} (h : ag.VectorFrame x d n wr act)
include h

/-- A write of one of the destination registers, in the lanes written. -/
theorem Agent.VectorFrame.vSet {r : Nat} (hr : d ≤ r) (hn : r < d + n) (f : Nat → Word) :
    ag.VectorFrame (x.vSet r wr f) d n wr act := by
  obtain ⟨he, hv, hs, hx⟩ := h
  refine ⟨?_, fun q l hl hq => ?_, fun b hb => by rw [Agent.vSet_rstat, hs b hb], fun l hl ha => by rw [Agent.vSet_x, hx l hl ha]⟩
  · rw [Agent.vSet_x, Agent.vSet_rstat, Agent.vSet_eq, he]
  · rw [← hv q l hl hq]
    by_cases hw : wr.getLsbD l = false
    · exact x.vGet_vSet_off f hl hw
    · exact x.vGet_vSet_ne wr f l (by rcases hq with hq | hq | hq <;> [omega; omega; exact absurd hq hw])

/-- A write of a destination pair, in the lanes written. -/
theorem Agent.VectorFrame.vpSet {r : Nat} (hr : d ≤ r) (hn : r + 1 < d + n) (f : Nat → DWord) :
    ag.VectorFrame (x.vpSet r wr f) d n wr act := by
  unfold Agent.vpSet
  split
  · exact h
  · exact (h.vSet hr (by omega) _).vSet (by omega) hn _

theorem Agent.VectorFrame.orFlags (f : Fl) : ag.VectorFrame (x.orFlags f) d n wr act := by
  obtain ⟨he, hv, hs, hx⟩ := h
  refine ⟨?_, hv, fun b hb => ?_, hx⟩
  · unfold Agent.orFlags Agent.orStat
    rw [he]
  · simp only [Agent.orFlags, Agent.orStat, BitVec.getLsbD_or, hs b hb, BitVec.getLsbD_setWidth, BitVec.getLsbD_of_ge f b hb,
      Bool.and_false, Bool.or_false]

theorem Agent.VectorFrame.putF {r : Nat} (hr : d ≤ r) (hn : r < d + n) (f : Nat → Nat × Fl) :
    ag.VectorFrame (x.putF r wr f) d n wr act := (h.vSet hr hn _).orFlags _

theorem Agent.VectorFrame.putD {r : Nat} (hr : d ≤ r) (hn : r + 1 < d + n) (f : Nat → Nat × Fl) :
    ag.VectorFrame (x.putD r wr f) d n wr act := (h.vpSet hr hn _).orFlags _

end

/-- Only active lanes draw (R86). -/
theorem Agent.VectorFrame.draw (ag : Agent) (d n mode : Nat) (wr act : Mask) :
    ag.VectorFrame (ag.drawLanes mode act) d n wr act := by
  unfold Agent.drawLanes
  split
  · refine ⟨rfl, fun _ _ _ _ => rfl, fun _ _ => rfl, fun l hl ha => ?_⟩
    dsimp only
    rw [get_lanes _ hl, ha]
    rfl
  · exact .refl ag d n wr act

/-- Writes of consecutive destination registers. -/
theorem Agent.VectorFrame.vSets {ag : Agent} {d n : Nat} {wr act : Mask} (f : Nat → Nat → Word) (ws : List Nat) :
    ∀ {x : Agent}, (∀ w ∈ ws, w < n) → ag.VectorFrame x d n wr act →
      ag.VectorFrame (ws.foldl (fun t w => t.vSet (d + w) wr (f w)) x) d n wr act := by
  induction ws with
  | nil => exact fun _ h => h
  | cons w ws ih =>
    intro x hw h
    have hn : w < n := hw w (List.mem_cons_self ..)
    exact ih (fun k hk => hw k (List.mem_cons_of_mem _ hk)) (h.vSet (by omega) (by omega) _)

/-! ### The vector instructions -/

/-- In a wave the instruction makes one change of its agent's registers, in the lanes it writes, and retires. -/
def VectorMeaning (i : Instr) (g : BitVec 2) (d n : Nat) : Prop :=
  ∃ f : Agent → Agent,
    (∀ s id ag, s.mover = some (id, ag) → ag.profile = .wave → exec i s = .next (retire s id (f ag))) ∧
    ∀ ag : Agent, ag.VectorFrame (f ag) d n (i.vectorLanes ag g) (ag.active g)

theorem vectorMeaning_of_vecOp {i : Instr} {g : BitVec 2} {d n : Nat} {f : Mask → Agent → Agent}
    (he : ∀ s, exec i s = vecOp g s f) (hl : ∀ ag, i.vectorLanes ag g = ag.active g)
    (hf : ∀ (act : Mask) (ag : Agent), ag.VectorFrame (f act ag) d n act act) : VectorMeaning i g d n :=
  ⟨fun ag => f (ag.active g) ag, fun s _ _ hm hw => (he s).trans (vecOp_of f hm hw), fun ag => by rw [hl]; exact hf _ ag⟩

/-- A function of the sources written to one register. -/
theorem vSet_frame (act : Mask) (ag : Agent) (d : Nat) (f : Nat → Word) : ag.VectorFrame (ag.vSet d act f) d 1 act act :=
  (Agent.VectorFrame.refl ag d 1 act act).vSet (Nat.le_refl d) (by omega) f

/-- A float function written to one register, without a draw. -/
theorem putF_frame (act : Mask) (ag : Agent) (d : Nat) (f : Nat → Nat × Fl) : ag.VectorFrame (ag.putF d act f) d 1 act act :=
  (Agent.VectorFrame.refl ag d 1 act act).putF (Nat.le_refl d) (by omega) f

/-- A float function written to one pair, without a draw. -/
theorem putD_frame (act : Mask) (ag : Agent) (d : Nat) (f : Nat → Nat × Fl) : ag.VectorFrame (ag.putD d act f) d 2 act act :=
  (Agent.VectorFrame.refl ag d 2 act act).putD (Nat.le_refl d) (by omega) f

/-- A float function written to one register after a draw. -/
theorem drawF_frame (act : Mask) (ag : Agent) (mode d : Nat) (f : Nat → Nat × Fl) :
    ag.VectorFrame ((ag.drawLanes mode act).putF d act f) d 1 act act :=
  (Agent.VectorFrame.draw ag d 1 mode act act).putF (Nat.le_refl d) (by omega) f

/-- A float function written to one pair after a draw. -/
theorem drawD_frame (act : Mask) (ag : Agent) (mode d : Nat) (f : Nat → Nat × Fl) :
    ag.VectorFrame ((ag.drawLanes mode act).putD d act f) d 2 act act :=
  (Agent.VectorFrame.draw ag d 2 mode act act).putD (Nat.le_refl d) (by omega) f

/-! The shared forms of the chapter, each a `vecOp`. -/

section
variable {i : Instr} {g : BitVec 2} {d : BitVec 6} {a b : Src} (hl : ∀ ag, i.vectorLanes ag g = ag.active g)
include hl

theorem vectorMeaning_vector1 {f : Word → Word} (he : ∀ s, exec i s = vector1 g d a f s) : VectorMeaning i g d.toNat 1 :=
  vectorMeaning_of_vecOp he hl fun act ag => vSet_frame act ag _ _

theorem vectorMeaning_vector2 {f : Word → Word → Word} (he : ∀ s, exec i s = vector2 g d a b f s) :
    VectorMeaning i g d.toNat 1 :=
  vectorMeaning_of_vecOp he hl fun act ag => vSet_frame act ag _ _

theorem vectorMeaning_vector3 {f : Word → Word → Word → Word} (he : ∀ s, exec i s = vector3 g d a b f s) :
    VectorMeaning i g d.toNat 1 :=
  vectorMeaning_of_vecOp he hl fun act ag => vSet_frame act ag _ _

theorem vectorMeaning_laneNet {m : Agent → Nat → Option Nat} (he : ∀ s, exec i s = laneNet g d a m s) :
    VectorMeaning i g d.toNat 1 :=
  vectorMeaning_of_vecOp he hl fun act ag => vSet_frame act ag _ _

theorem vectorMeaning_fp32Bits {f : Word → Word} (he : ∀ s, exec i s = fp32Bits f g d a s) : VectorMeaning i g d.toNat 1 :=
  vectorMeaning_of_vecOp he hl fun act ag => vSet_frame act ag _ _

theorem vectorMeaning_fp32Op {o : FOp} (he : ∀ s, exec i s = fp32Op o g d a b s) : VectorMeaning i g d.toNat 1 :=
  vectorMeaning_of_vecOp he hl fun act ag => drawF_frame act ag _ _ _

theorem vectorMeaning_fp64Op {o : FOp} (he : ∀ s, exec i s = fp64Op o g d a b s) : VectorMeaning i g d.toNat 2 :=
  vectorMeaning_of_vecOp he hl fun act ag => drawD_frame act ag _ _ _

end

/-- A conversion writes a pair exactly where its code names a 64-bit destination (R181). -/
theorem cvtPair_bits : ∀ p : BitVec 5, p ≠ 31 → ((cvtPair p).1.bits = 64 ↔ cvtDst64 p = true) := by decide

theorem vectorMeaning_vcvt {p : BitVec 5} {g : BitVec 2} {d : BitVec 6} {a : Src} {b : BitVec 6} (hp : p ≠ 31) :
    VectorMeaning (.vcvt p g d a b) g d.toNat (if cvtDst64 p then 2 else 1) := by
  apply vectorMeaning_of_vecOp
  case he => intro s; unfold exec; exact rfl
  case hl => exact fun _ => rfl
  intro act ag
  have hb := cvtPair_bits p hp
  dsimp only
  by_cases h64 : (cvtPair p).1.bits = 64
  · rw [if_pos h64, if_pos (hb.mp h64)]
    split
    · exact drawD_frame act ag _ _ _
    · exact putD_frame act ag _ _
  · rw [if_neg h64, if_neg (fun h => h64 (hb.mpr h))]
    split
    · exact drawF_frame act ag _ _ _
    · exact putF_frame act ag _ _

theorem vectorDest_meaning {i : Instr} {g : BitVec 2} {d n : Nat} (hw : i.wf = true) (h : i.vectorDest = some (g, d, n)) :
    VectorMeaning i g d n := by
  cases i with
  | vabs | vneg | vclz | vpopc | vmov =>
    cases h
    exact vectorMeaning_vector1 (fun _ => rfl) (fun _ => by unfold exec; exact rfl)
  | vadd | vsub | vmul | vmulh | vand | vor | vxor | vshl | vshr | vsar | vmin | vmax | vminu | vmaxu | vadds
  | vsubs | pk4 | upk4 | pkts | upkts =>
    cases h
    exact vectorMeaning_vector2 (fun _ => rfl) (fun _ => by unfold exec; exact rfl)
  | vmad | vmadh | vdot4 | vdot4u =>
    cases h
    exact vectorMeaning_vector3 (fun _ => rfl) (fun _ => by unfold exec; exact rfl)
  | nbl | nbr | nrot =>
    cases h
    exact vectorMeaning_laneNet (fun _ => rfl) (fun _ => by unfold exec; exact rfl)
  | vfabs | vfneg =>
    cases h
    exact vectorMeaning_fp32Bits (fun _ => rfl) (fun _ => by unfold exec; exact rfl)
  | vfadd | vfsub | vfmul | vfma | vfms | vfnma =>
    cases h
    exact vectorMeaning_fp32Op (fun _ => rfl) (fun _ => by unfold exec; exact rfl)
  | vdadd | vdsub | vdmul | vdfma =>
    cases h
    exact vectorMeaning_fp64Op (fun _ => rfl) (fun _ => by unfold exec; exact rfl)
  | vfclass =>
    cases h
    exact vectorMeaning_of_vecOp (fun _ => by unfold exec; exact rfl) (fun _ => rfl) (fun act ag => vSet_frame act ag _ _)
  | vfmin | vfmax =>
    cases h
    exact vectorMeaning_of_vecOp (fun _ => by unfold exec; exact rfl) (fun _ => rfl) (fun act ag => putF_frame act ag _ _)
  | vdmin | vdmax =>
    cases h
    exact vectorMeaning_of_vecOp (fun _ => by unfold exec; exact rfl) (fun _ => rfl) (fun act ag => putD_frame act ag _ _)
  | vfrnd | vscale =>
    cases h
    exact vectorMeaning_of_vecOp (fun _ => by unfold exec; exact rfl) (fun _ => rfl) (fun act ag => drawF_frame act ag _ _ _)
  | pk6 | upk6 =>
    cases h
    exact vectorMeaning_of_vecOp (fun _ => by unfold exec; exact rfl) (fun _ => rfl)
      (fun act ag => .vSets _ _ (by simp) (.refl ag _ _ _ _))
  | vmovCompact =>
    cases h
    exact cReg_toNat _ ▸ vectorMeaning_vector1 (fun _ => rfl) (fun _ => by unfold exec; exact rfl)
  | vaddCompact =>
    cases h
    exact cReg_toNat _ ▸ vectorMeaning_vector2 (fun _ => rfl) (fun _ => by unfold exec; exact rfl)
  | vfaddCompact | vfmulCompact =>
    cases h
    exact cReg_toNat _ ▸ vectorMeaning_fp32Op (fun _ => rfl) (fun _ => by unfold exec; exact rfl)
  | vcvt =>
    cases h
    simp only [Instr.wf, Bool.and_eq_true, bne_iff_ne] at hw
    exact vectorMeaning_vcvt hw.1.1.1
  | vsel g d a b =>
    cases h
    exact ⟨_, fun s id ag hm hp => issue_of _ hm (fun hc => absurd hp hc) (by rw [hp]; rfl),
      fun ag => (Agent.VectorFrame.refl ag _ _ _ _).vSet (Nat.le_refl _) (by omega) _⟩
  | _ => cases h

end Sys2Proof.Machine

namespace Sys2Proof.Settled
open Sys2Proof Sys2Proof.Machine

/-- Settles O33: the instruction changes its registers within `Agent.VectorFrame` and retires; retiring has its own frame. -/
theorem frameVector : Obligations.FrameVector := by
  intro s t id ag i g d n hm hp hw hd ht
  obtain ⟨f, hf, hx⟩ := vectorDest_meaning hw hd
  rw [hf s id ag hm hp] at ht
  cases ht
  refine ⟨⟨f ag, rfl, hx ag⟩, retire_frame s id ?_⟩
  obtain ⟨he, -⟩ := hx ag
  rw [he]

end Sys2Proof.Settled
end

section
/-! CSRW (R7, R85, R86, R101, R102, R346, R350): what each control register takes of the value written, and what its write
does besides. -/
namespace Sys2Proof.Machine

/-- CSRW of a register that the profile has, once its guard fires; `rstat` also waits for the agent's SFU entries. -/
theorem csrw_of {s : State} {id : Nat} {ag : Agent} {g : BitVec 2} {a : Src} {n : BitVec 6} (hm : s.mover = some (id, ag))
    (hi : ag.Issues g) (hc : csrHere ag.profile n = true) (hb : n = 2 → s.sfuBusy id ag = false) :
    exec (.csrw g n a) s =
      .next (retire s id (ag.csrWrite n (if csr64 n then ag.srcP a else (ag.src a).zeroExtend 64))) := by
  refine (issue_of _ hm hi.2 rfl).trans ?_
  have hf : ¬(ag.profile = .wave ∧ (!ag.fires g) = true) := fun h => by simp [hi.1 h.1] at h
  have hn : ¬(n = 2 ∧ s.sfuBusy id ag = true) := fun h => by simp [hb h.1] at h
  simp only [hc, Bool.not_true, Bool.false_eq_true, if_false, hf, hn]

/-- The profiles that lack a register lack none of 2, 4, 5 and 7 to 11 (R101). -/
theorem csrHere_any {p : Profile} {n : BitVec 6} (h : n ∉ ([0, 1, 3, 6, 12] : List (BitVec 6))) : csrHere p n = true := by
  revert n
  cases p <;> decide

theorem csrHere_notHost {p : Profile} {n : BitVec 6} (h : p ≠ .host) (hn : n ≠ 12) : csrHere p n = true := by
  revert n
  cases p with
  | host => exact absurd rfl h
  | wave => decide
  | sequencer => decide

/-! ### The fields that a register keeps -/

/-- A 32-bit value that CSRW extends is what the register takes. -/
theorem extract_zeroExtend (w : Word) : (w.zeroExtend 64).extractLsb' 0 32 = w := by
  apply BitVec.eq_of_toNat_eq
  simp [Nat.mod_eq_of_lt w.isLt]

/-- Two words are equal where the bits of their numbers are. -/
theorem word_ext {v : Word} {k : Nat} (h : ∀ i, i < 32 → v.getLsbD i = k.testBit i) : v = BitVec.ofNat 32 k := by
  apply BitVec.eq_of_getLsbD_eq
  intro i hi
  rw [h i hi, BitVec.getLsbD_ofNat]
  simp [hi]

/-- The low `k` bits (R85, R102). -/
theorem and_lowMask (w : Word) (k : Nat) :
    w &&& BitVec.ofNat 32 (2 ^ k - 1) = BitVec.ofNat 32 (w.toNat % 2 ^ k) := by
  refine word_ext fun i hi => ?_
  rw [BitVec.getLsbD_and, BitVec.getLsbD_ofNat, Nat.testBit_two_pow_sub_one, Nat.testBit_mod_two_pow, BitVec.testBit_toNat]
  simp [hi, Bool.and_comm]

/-- The address field of `dspill` (R296). -/
theorem and_dspill (w : Word) : w &&& 0xFFFFFFF0 = BitVec.ofNat 32 (w.toNat / 16 * 16) := by
  refine word_ext fun i hi => ?_
  have hm : ∀ i, i < 32 → (0xFFFFFFF0 : Word).getLsbD i = decide (4 ≤ i) := by decide
  rw [BitVec.getLsbD_and, hm i hi, show w.toNat / 16 * 16 = w.toNat / 2 ^ 4 * 2 ^ 4 from rfl, Nat.testBit_mul_two_pow,
    Nat.testBit_div_two_pow]
  by_cases h : 4 ≤ i
  · simp [h, Nat.sub_add_cancel h, BitVec.testBit_toNat]
  · simp [h]

/-- `act` and `idx` of `repst` (R114). -/
theorem and_repst (w : Word) : w &&& 0x8000003F = BitVec.ofNat 32 (w.toNat / 2 ^ 31 * 2 ^ 31 + w.toNat % 64) := by
  refine word_ext fun i hi => ?_
  have hm : ∀ i, i < 32 → (0x8000003F : Word).getLsbD i = (decide (i < 6) || decide (31 ≤ i)) := by decide
  rw [BitVec.getLsbD_and, hm i hi, Nat.mul_comm, Nat.testBit_two_pow_mul_add _ (by omega)]
  by_cases h : i < 31
  · rw [if_pos h, show (64 : Nat) = 2 ^ 6 from rfl, Nat.testBit_mod_two_pow, BitVec.testBit_toNat]
    simp [show ¬31 ≤ i by omega, Bool.and_comm]
  · rw [if_neg h, Nat.testBit_div_two_pow, BitVec.testBit_toNat, Nat.sub_add_cancel (by omega)]
    simp [show 31 ≤ i by omega]

/-! ### One register each -/

section
variable (ag : Agent)

theorem csrWrite_rmode (w : Word) : ag.csrWrite 0 (w.zeroExtend 64) =
    if 5 ≤ w.toNat % 8 then ag else { ag with rmode := BitVec.ofNat 32 (w.toNat % 32) } := by
  have hx : (w.extractLsb' 0 3).toNat = w.toNat % 8 := by simp
  have hm : w &&& 0x1F = BitVec.ofNat 32 (w.toNat % 32) := and_lowMask w 5
  unfold Agent.csrWrite
  rw [extract_zeroExtend]
  simp only [hx, hm]
  rfl

theorem csrWrite_npdist (w : Word) :
    ag.csrWrite 6 (w.zeroExtend 64) = { ag with npdist := BitVec.ofNat 32 (w.toNat % 2 ^ 22) } := by
  have hm : w &&& 0x3FFFFF = BitVec.ofNat 32 (w.toNat % 2 ^ 22) := and_lowMask w 22
  unfold Agent.csrWrite
  rw [extract_zeroExtend, ← hm]
  rfl

theorem csrWrite_repst (w : Word) : ag.csrWrite 7 (w.zeroExtend 64) =
    { ag with repst := BitVec.ofNat 32 (w.toNat / 2 ^ 31 * 2 ^ 31 + w.toNat % 64) } := by
  unfold Agent.csrWrite
  rw [extract_zeroExtend, ← and_repst]
  rfl

theorem csrWrite_dspill (w : Word) : ag.csrWrite 12 (w.zeroExtend 64) =
    if 16 < ag.depth then ag else { ag with dspill := BitVec.ofNat 32 (w.toNat / 16 * 16) } := by
  unfold Agent.csrWrite
  rw [extract_zeroExtend, ← and_dspill]
  rfl

/-- `seed` alone, where `rmode` keeps the sequences (R86). -/
theorem csrWrite_seed_kept (w : Word) (h : ag.rmode.getLsbD 4 = true) :
    ag.csrWrite 1 (w.zeroExtend 64) = { ag with seed := w } := by
  unfold Agent.csrWrite
  rw [extract_zeroExtend]
  exact if_pos (.inl h)

/-- `seed` and the sequences that it gives (R86). -/
theorem csrWrite_seed (w : Word) (h : ag.rmode.getLsbD 4 = false) (hp : ag.profile = .wave) :
    ag.csrWrite 1 (w.zeroExtend 64) = { ag with seed := w, x := seedLanes w } := by
  unfold Agent.csrWrite
  rw [extract_zeroExtend]
  exact if_neg fun hc => hc.elim (fun hr => by rw [h] at hr; cases hr) (fun hn => hn hp)

/-- The sequence that a seed gives a lane. -/
theorem get_seedLanes (w : Word) {l : Nat} (hl : l < 96) : Tab.get 0 (seedLanes w) l =
    (let y := w ^^^ BitVec.ofNat 32 (0x9E3779B9 * (l + 1))
     if y = 0 then 0x6D2B79F5 else y) := by
  have hm : (0x9E3779B9 * BitVec.ofNat 32 (l + 1) : Word) = BitVec.ofNat 32 (0x9E3779B9 * (l + 1)) := by
    apply BitVec.eq_of_toNat_eq
    simp [BitVec.toNat_mul]
  rw [seedLanes, get_lanes _ hl, seedLane, hm]

/-- `rstat`: the sticky bits written with 1 are cleared, `rte` and `pfm` are as written (R88, R102). -/
theorem csrWrite_rstat (w : Word) : ∃ r : Word, ag.csrWrite 2 (w.zeroExtend 64) = { ag with rstat := r } ∧
    r.toNat / 2 ^ 30 = w.toNat / 2 ^ 30 ∧ ∀ n, n < 30 → r.getLsbD n =
      (ag.rstat.getLsbD n && !w.getLsbD n && (decide (n ≤ 4) || decide (n = 9) || decide (n = 10) || decide (n = 11))) := by
  refine ⟨(ag.rstat &&& 0x00000E1F &&& ~~~w) ||| (w &&& 0xC0000000), ?_, ?_, fun n hn => ?_⟩
  · unfold Agent.csrWrite
    rw [extract_zeroExtend]
    rfl
  · refine Nat.eq_of_testBit_eq fun i => ?_
    rw [Nat.testBit_div_two_pow, Nat.testBit_div_two_pow, BitVec.testBit_toNat, BitVec.testBit_toNat]
    by_cases hi : i + 30 < 32
    · have h1 : (0x00000E1F : Word).getLsbD (i + 30) = false := by
        have : ∀ k, k < 2 → (0x00000E1F : Word).getLsbD (k + 30) = false := by decide
        exact this i (by omega)
      have h2 : (0xC0000000 : Word).getLsbD (i + 30) = true := by
        have : ∀ k, k < 2 → (0xC0000000 : Word).getLsbD (k + 30) = true := by decide
        exact this i (by omega)
      simp only [BitVec.getLsbD_or, BitVec.getLsbD_and, h1, h2, Bool.and_false, Bool.false_and, Bool.false_or, Bool.and_true]
    · rw [BitVec.getLsbD_of_ge _ _ (by omega), BitVec.getLsbD_of_ge _ _ (by omega)]
  · have h1 : ∀ k, k < 30 → (0x00000E1F : Word).getLsbD k =
        (decide (k ≤ 4) || decide (k = 9) || decide (k = 10) || decide (k = 11)) := by decide
    have h2 : ∀ k, k < 30 → (0xC0000000 : Word).getLsbD k = false := by decide
    have h3 : n < 32 := by omega
    simp only [BitVec.getLsbD_or, BitVec.getLsbD_and, BitVec.getLsbD_not, h1 n hn, h2 n hn, h3, decide_true, Bool.true_and,
      Bool.and_false, Bool.or_false]
    rw [Bool.and_right_comm]

/-- `tepc`: the saved run state is discarded, and `tcause.mid` with it (R346, R350). -/
theorem csrWrite_tepc (x : DWord) : ∃ t : Agent, ag.csrWrite 10 x = t ∧ t.tepc = x ∧ t.tcause.getLsbD 29 = false ∧
    (∀ n, n ≠ 29 → t.tcause.getLsbD n = ag.tcause.getLsbD n) ∧ (ag.tcause.getLsbD 29 = true → t.saved = {}) ∧
    t.s = ag.s ∧ t.run = ag.run := by
  refine ⟨_, rfl, rfl, ?_, fun n hn => ?_, fun h => ?_, rfl, rfl⟩
  · show (ag.tcause &&& 0xDFFFFFFF).getLsbD 29 = false
    rw [BitVec.getLsbD_and, show (0xDFFFFFFF : Word).getLsbD 29 = false from rfl, Bool.and_false]
  · show (ag.tcause &&& 0xDFFFFFFF).getLsbD n = ag.tcause.getLsbD n
    have hm : ∀ k, k < 32 → k ≠ 29 → (0xDFFFFFFF : Word).getLsbD k = true := by decide
    rw [BitVec.getLsbD_and]
    by_cases hk : n < 32
    · rw [hm n hk hn, Bool.and_true]
    · rw [BitVec.getLsbD_of_ge _ _ (by omega), Bool.false_and]
  · exact if_pos h

end

end Sys2Proof.Machine

namespace Sys2Proof.Settled
open Sys2Proof Sys2Proof.Machine

/-- Settles O24: CSRW retires with `Agent.csrWrite`, whose value is said once for each register. -/
theorem controlRegisterWrites : Obligations.ControlRegisterWrites := by
  intro s id ag g a w x hm hi hw hx puts
  subst hw hx
  have put : ∀ n : BitVec 6, n ≠ 2 → csrHere ag.profile n = true →
      puts n (ag.csrWrite n (if csr64 n then ag.srcP a else (ag.src a).zeroExtend 64)) := fun n hn hc =>
    csrw_of hm hi hc fun h => absurd h hn
  have any : ∀ n : BitVec 6, n ≠ 2 → n ∉ ([0, 1, 3, 6, 12] : List (BitVec 6)) →
      puts n (ag.csrWrite n (if csr64 n then ag.srcP a else (ag.src a).zeroExtend 64)) := fun n hn h =>
    put n hn (csrHere_any h)
  refine ⟨fun hp => ⟨?_, ?_, ?_⟩, fun hp => ⟨fun hr => ?_, fun hr => ?_, ?_⟩, fun hb => ?_, any 4 (by decide) (by decide),
    any 5 (by decide) (by decide), any 8 (by decide) (by decide), any 9 (by decide) (by decide), ?_,
    any 11 (by decide) (by decide), ?_⟩
  · rw [← csrWrite_rmode]
    exact put 0 (by decide) (csrHere_notHost hp (by decide))
  · exact put 3 (by decide) (csrHere_notHost hp (by decide))
  · rw [← csrWrite_npdist]
    exact put 6 (by decide) (csrHere_notHost hp (by decide))
  · rw [← csrWrite_seed_kept ag _ hr]
    exact put 1 (by decide) (by rw [hp]; rfl)
  · refine ⟨{ ag with seed := ag.src a, x := seedLanes (ag.src a) }, ?_, rfl, rfl, rfl, fun l hl => get_seedLanes _ hl⟩
    rw [← csrWrite_seed ag _ hr hp]
    exact put 1 (by decide) (by rw [hp]; rfl)
  · rw [← csrWrite_dspill]
    exact put 12 (by decide) (by rw [hp]; rfl)
  · obtain ⟨r, he, hr⟩ := csrWrite_rstat ag (ag.src a)
    exact ⟨r, he ▸ csrw_of hm hi (csrHere_any (by decide)) fun _ => hb, hr⟩
  · rw [← csrWrite_repst]
    exact any 7 (by decide) (by decide)
  · obtain ⟨t, he, ht⟩ := csrWrite_tepc ag (ag.srcP a)
    exact ⟨t, he ▸ any 10 (by decide) (by decide), ht⟩

end Sys2Proof.Settled
end

section
/-! Requests (R314, R347, R353, R365 to R368) and writes of Rotunda's registers (R7, R17). What a link die or the error rings write
to memory leaves the registers, the platform and the hub alone (`State.ctl`). -/
namespace Sys2Proof.Machine

/-! ### What an access of the package store leaves alone -/

/-- What a write of bytes of the package store leaves alone: Rotunda's registers, the platform, the hub. -/
def State.ctl (s : State) : Rot × Plat × Hub := (s.rot, s.plat, s.hub)

theorem State.ctl_eq_iff {s t : State} : t.ctl = s.ctl ↔ t.rot = s.rot ∧ t.plat = s.plat ∧ t.hub = s.hub := by
  simp [State.ctl]

theorem State.ctl_foldl {α : Type} (l : List α) (f : State → α → State) (hf : ∀ t a, (f t a).ctl = t.ctl) :
    ∀ s : State, (l.foldl f s).ctl = s.ctl := by
  induction l with
  | nil => exact fun _ => rfl
  | cons a l ih => exact fun s => (ih (f s a)).trans (hf s a)

theorem State.setHome_ctl (s : State) (pa : Nat) (b : Byte) : (s.setHome pa b).ctl = s.ctl := rfl

theorem State.rekey_ctl (s : State) (slot : BitVec 8) (pa : Nat) : (s.rekey slot pa).ctl = s.ctl := by
  unfold State.rekey
  generalize lineAddrs pa = l
  split
  · rfl
  · dsimp only
    split
    · rfl
    · split
      · rfl
      · exact State.ctl_foldl _ _ (fun t a => t.setHome_ctl a _) s

theorem State.undrop_ctl (s : State) (pa : Nat) : (s.undrop pa).ctl = s.ctl := by
  unfold State.undrop
  generalize lineAddrs pa = l
  split
  · exact State.ctl_foldl _ _ (fun t a => t.setHome_ctl a _) s
  · rfl

theorem State.memWrite_ctl (s : State) (slot : BitVec 8) (pa : Nat) (b : Byte) : (s.memWrite slot pa b).ctl = s.ctl :=
  (State.undrop_ctl _ pa).trans (s.rekey_ctl slot pa)

@[simp] theorem State.homeWrite_ctl (s : State) (slot : BitVec 8) (pa : Nat) (b : Byte) : (s.homeWrite slot pa b).ctl = s.ctl := by
  unfold State.homeWrite
  split
  · rfl
  · exact s.memWrite_ctl slot pa b

@[simp] theorem State.setPk_ctl (s : State) (slot : BitVec 8) (peer : Bool) (pa : Nat) (b : Byte) :
    (s.setPk slot peer pa b).ctl = s.ctl := by
  unfold State.setPk
  split
  · rfl
  · exact s.homeWrite_ctl slot pa b

@[simp] theorem State.pkPutN_ctl (slot : BitVec 8) (peer : Bool) (bs : List Byte) :
    ∀ (s : State) (pa : Nat), (s.pkPutN slot peer pa bs).ctl = s.ctl := by
  induction bs with
  | nil => exact fun _ _ => rfl
  | cons b bs ih => exact fun s pa => (ih _ _).trans (State.setPk_ctl _ slot peer pa b)

@[simp] theorem State.backEntry_ctl (s : State) (sector : Nat) (e : SpanEnt) : (s.backEntry sector e).ctl = s.ctl := by
  unfold State.backEntry
  split
  · refine State.ctl_foldl _ _ (fun t a => ?_) s
    split
    · exact t.setPk_ctl _ _ _ _
    · rfl
  · rfl

@[simp] theorem State.ioLose_ctl (s : State) (sector lo hi : Nat) : (s.ioLose sector lo hi).ctl = s.ctl := by
  unfold State.ioLose
  dsimp only
  split
  · exact State.ctl_foldl _ _ (fun t e => t.backEntry_ctl sector e) s
  · rfl

@[simp] theorem State.pkWriteN_ctl (s : State) (slot : BitVec 8) (peer : Bool) (pa : Nat) (bs : List Byte) :
    (s.pkWriteN slot peer pa bs).ctl = s.ctl := by
  unfold State.pkWriteN
  split
  · rfl
  · rw [State.pkPutN_ctl]
    split
    · rfl
    · exact State.ctl_foldl _ _ (fun t _ => t.ioLose_ctl _ _ _) s

@[simp] theorem State.wakePa_ctl (s : State) (pa : Nat) : (s.wakePa pa).ctl = s.ctl := rfl

@[simp] theorem State.pkStore_ctl (s : State) (slot : BitVec 8) (peer : Bool) (pa : Nat) (bs : List Byte) :
    (s.pkStore slot peer pa bs).ctl = s.ctl :=
  (State.ctl_foldl _ _ (fun t _ => t.wakePa_ctl _) _).trans (s.pkWriteN_ctl slot peer pa bs)

theorem State.dropLineAt_ctl (s : State) (k : Nat) : (s.dropLineAt k).ctl = s.ctl := rfl

@[simp] theorem State.evictLine_ctl (s : State) (k : Nat) : (s.evictLine k).ctl = s.ctl := by
  have hback : ∀ l : OLine, (s.backLine l).ctl = s.ctl := by
    intro l
    refine State.ctl_foldl _ _ (fun t i => ?_) s
    split
    · exact t.memWrite_ctl _ _ _
    · rfl
  unfold State.evictLine
  split
  · exact (State.dropLineAt_ctl _ k).trans (hback _)
  · rfl

@[simp] theorem State.fillLine_ctl (s : State) (part : Nat) (slot : BitVec 8) (pa : Nat) : (s.fillLine part slot pa).ctl = s.ctl := by
  have hfill : ∀ (t : State) (w : Nat), (t.fillAt slot pa w).ctl = t.ctl := by
    intro t w
    unfold State.fillAt
    dsimp only
    split
    · exact t.evictLine_ctl _
    · rfl
  unfold State.fillLine
  split
  · rfl
  · extract_lets cache ways
    split
    · rfl
    · split
      rename_i n t hd
      have ht : t.ctl = s.ctl := by cases hd; rfl
      dsimp only
      split
      · exact ht
      · exact (hfill t _).trans ht

@[simp] theorem State.sample_ctl (s : State) (part pa : Nat) : (s.sample part pa).ctl = s.ctl := by
  unfold State.sample
  dsimp only
  split <;> rfl

/-- A link die's write of a byte. -/
theorem State.arriveWrite_link_ctl (s : State) (part : Nat) (slot : BitVec 8) (pa : Nat) (bs : List Byte) (msk : Byte) :
    (s.arriveWrite none part 0 slot pa bs msk).ctl = s.ctl := by
  unfold State.arriveWrite
  simp [State.shadowCode]

@[simp] theorem State.linkWrite_ctl (part : Nat) (bs : List Byte) :
    ∀ (s : State) (va : Nat), (s.linkWrite part va bs).ctl = s.ctl := by
  induction bs with
  | nil => exact fun _ _ => rfl
  | cons b bs ih =>
    intro s va
    refine (ih _ _).trans ?_
    split
    · exact State.arriveWrite_link_ctl _ _ _ _ _ _
    · rfl

/-! ### Records -/

theorem State.ringAppend_rest (s : State) (n : Nat) (reg : DWord) (rec : List Byte) :
    (s.ringAppend n reg rec).plat = s.plat ∧ (s.ringAppend n reg rec).hub = s.hub := by
  unfold State.ringAppend
  extract_lets tail base cap t
  have ht : t.ctl = s.ctl := by
    unfold t
    split
    · exact (State.pkStore_ctl _ _ _ _ _).trans (State.pkStore_ctl _ _ _ _ _)
    · rfl
  obtain ⟨-, hp, hh⟩ := State.ctl_eq_iff.mp ht
  exact ⟨hp, hh⟩

theorem State.recordRs_rest (s : State) (part : Nat) (e : ErrRec) :
    (s.recordRs part e).plat.dropReq = s.plat.dropReq ∧ (s.recordRs part e).hub = s.hub := by
  unfold State.recordRs
  extract_lets key count _ t u _
  obtain ⟨hp, hh⟩ : u.plat = t.plat ∧ u.hub = t.hub := State.ringAppend_rest _ _ _ _
  have hd : u.plat.dropReq = t.plat.dropReq := by rw [hp]
  exact ⟨hd, hh⟩

theorem State.raiseEvent_plat (s : State) (p : Nat) (e : PolEvent) : (s.raiseEvent p e).plat = s.plat := by
  unfold State.raiseEvent
  dsimp only
  split
  · rfl
  · split <;> rfl

theorem State.record_dropReq (s : State) (part : Nat) (e : ErrRec) (j : JobRef) (unit : Word) :
    (s.record part e j unit).plat.dropReq = s.plat.dropReq := by
  have hev : ∀ (l : List (Word × Nat)) (f : Word × Nat → PolEvent) (t : State),
      (l.foldl (fun t w => t.raiseEvent part (f w)) t).plat = t.plat := by
    intro l f
    induction l with
    | nil => exact fun _ => rfl
    | cons w l ih => exact fun t => (ih _).trans (t.raiseEvent_plat part (f w))
  unfold State.record
  extract_lets key count _ t bs u v _ w tail
  have hu : u.plat = t.plat := (State.ringAppend_rest _ _ _ _).1
  have hv : v.plat = u.plat := (State.ringAppend_rest _ _ _ _).1
  rw [hev]
  have hd : v.plat.dropReq = t.plat.dropReq := by rw [hv, hu]
  exact hd

theorem State.violation_dropReq (s : State) (part : Nat) (slot : BitVec 8) (pa : Nat) (j : JobRef) (unit : Word) (die : Byte) :
    (s.violation part slot pa j unit die).plat.dropReq = s.plat.dropReq := by
  unfold State.violation
  split
  · rfl
  · split
    · exact s.record_dropReq _ _ _ _
    · split
      · exact s.record_dropReq _ _ _ _
      · rfl

theorem State.linkDenied_dropReq (s : State) (die part va n : Nat) :
    (s.linkDenied die part va n).plat.dropReq = s.plat.dropReq := by
  unfold State.linkDenied
  split
  · exact s.violation_dropReq _ _ _ _ _ _
  · rfl

/-- A request that is dropped is counted, and the hub stands (R314). -/
theorem State.dropRequest_rest (s : State) (part : Nat) :
    (s.dropRequest part).plat.dropReq = s.plat.dropReq + 1 ∧ (s.dropRequest part).hub = s.hub := by
  unfold State.dropRequest
  split
  rename_i n t hd
  cases hd
  exact State.recordRs_rest _ _ _

/-! ### Ultra Ethernet requests (R314, R364) -/

theorem State.portsOpen_of {s : State} {die : Nat} (hd : die = 14 ∨ die = 15) (hl : (s.die die).link = .up)
    (hb : 8 ≤ s.rot.bootSt.toNat / 2 ^ 24) (hh : s.plat.halted = false) : s.portsOpen die = true := by
  have h8 : (s.rot.bootSt.extractLsb' 24 8).toNat = s.rot.bootSt.toNat / 2 ^ 24 := by
    rw [BitVec.extractLsb'_toNat, Nat.shiftRight_eq_div_pow]
    omega
  unfold State.portsOpen
  rw [h8, hh, hl]
  rcases hd with rfl | rfl <;> simpa using hb

/-- An entry of the first 16, or one whose task queue takes a record, is not held back. -/
theorem not_held_back {s : State} {i : Nat} {f : Flow}
    (hi : i % 4096 < 16 ∨ s.tqOn f.part f.tq = true ∧ s.tqFull f.part f.tq = false) :
    ¬(16 ≤ i % 4096 ∧ ((!s.tqOn f.part f.tq) = true ∨ s.tqFull f.part f.tq = true)) := by
  rintro ⟨h16, h⟩
  rcases hi with hi | ⟨h1, h2⟩
  · omega
  · simp [h1, h2] at h

section
variable {s : State} {r : UeReq} (ho : s.portsOpen r.die = true)
include ho

theorem ueRequest_unmatched (hf : s.flowMatch r = none) : exec (.ueRequest r) s = .next (s.dropRequest 0) := by
  show execUeRequest r s = _
  simp [execUeRequest, ho, hf]

variable {i : Nat} {f : Flow} (hf : s.flowMatch r = some (i, f))
include hf

theorem ueRequest_long (hn : f.slotSize < r.payload.length) : exec (.ueRequest r) s = .next (s.dropRequest f.part) := by
  show execUeRequest r s = _
  simp [execUeRequest, ho, hf, hn]

theorem ueRequest_full (hn : r.payload.length ≤ f.slotSize) (hi : 16 ≤ i % 4096) (hq : s.tqFull f.part f.tq = true) :
    exec (.ueRequest r) s = .next s := by
  show execUeRequest r s = _
  simp [execUeRequest, ho, hf, hq, hi, Nat.not_lt.mpr hn]

theorem ueRequest_unwritable (hn : r.payload.length ≤ f.slotSize)
    (hi : i % 4096 < 16 ∨ s.tqOn f.part f.tq = true ∧ s.tqFull f.part f.tq = false)
    (hk : s.linkOk f.part (f.buf.toNat + f.slot * f.slotSize) r.payload.length = false) :
    exec (.ueRequest r) s = .next
      ((s.linkDenied r.die f.part (f.buf.toNat + f.slot * f.slotSize) r.payload.length).dropRequest f.part) := by
  have hq := not_held_back hi
  show execUeRequest r s = _
  simp only [execUeRequest, ho, hf, hk, hq, Nat.not_lt.mpr hn, Bool.not_true, Bool.not_false, Bool.false_eq_true, if_false, if_true]

/-- A request that arrives is written, and its entry counts it. -/
theorem ueRequest_arrives (hn : r.payload.length ≤ f.slotSize)
    (hi : i % 4096 < 16 ∨ s.tqOn f.part f.tq = true ∧ s.tqFull f.part f.tq = false)
    (hk : s.linkOk f.part (f.buf.toNat + f.slot * f.slotSize) r.payload.length = true) :
    ∃ t : State, t.rot = s.rot ∧ t.plat = s.plat ∧ Tab.find? t.hub.flows i = some f.arrived ∧
      exec (.ueRequest r) s = .next (if i % 4096 < 16 then { t with plat := { t.plat with hostQ := t.plat.hostQ ++ [.mgmt] } }
        else t.tqAppend f.part f.tq (f.record r (f.buf.toNat + f.slot * f.slotSize))) := by
  have hq := not_held_back hi
  let u := s.linkWrite f.part (f.buf.toNat + f.slot * f.slotSize) r.payload
  obtain ⟨hr, hp, -⟩ := State.ctl_eq_iff.mp (State.linkWrite_ctl f.part r.payload s (f.buf.toNat + f.slot * f.slotSize))
  refine ⟨{ u with hub := { u.hub with flows := Tab.put u.hub.flows i f.arrived } }, hr, hp, Tab.find?_put_self _ _ _, ?_⟩
  show execUeRequest r s = _
  simp only [execUeRequest, ho, hf, hk, hq, Nat.not_lt.mpr hn, Bool.not_true, Bool.false_eq_true, if_false]
  rfl

end

/-- A task queue takes a record: its tail moves on, and the hub stands (R313). -/
theorem State.tqAppend_rest (s : State) (p n : Nat) (r : TaskRec) :
    (s.tqAppend p n r).hub = s.hub ∧
      Tab.get 0 (s.tqAppend p n r).rot.tqTail (64 * p + n) = Tab.get 0 s.rot.tqTail (64 * p + n) + 1 := by
  unfold State.tqAppend
  extract_lets reg i t
  obtain ⟨hr, -, hh⟩ := State.ctl_eq_iff.mp
    (State.pkStore_ctl s 0 false ((reg.extractLsb' 12 40).toNat * 4096 + 32 * (i % tqCap reg)) r.bytes)
  exact ⟨hh, Tab.get_put_self _ _ _ _⟩

/-! ### Management and attestation (R347, R366 to R369) -/

theorem State.takeRequest_none {s : State} (h : HostEvent.mgmt ∉ s.plat.hostQ) : s.takeRequest = none := by
  simp [State.takeRequest, h]

theorem State.takeRequest_some {s : State} (h : HostEvent.mgmt ∈ s.plat.hostQ) :
    s.takeRequest = some { s with plat := { s.plat with hostQ := s.plat.hostQ.erase .mgmt } } := by
  simp [State.takeRequest, h]

/-- A unit as it is handed to a partition (R369). -/
def UnitSt.given (x : UnitSt) (p : Nat) : UnitSt := { x with holder := some p, act0 := {}, act1 := {}, front := false }

/-- A unit that stands as handed to a partition. -/
def UnitSt.Held (x : UnitSt) (p : Nat) : Prop := x.holder = some p ∧ x.act0 = {} ∧ x.act1 = {} ∧ x.front = false

/-- Handing units over one after another leaves each of them held. -/
theorem State.held_foldl (p : Nat) (us : List Nat) : ∀ (s : State) (u : Nat), u ∈ us ∨ (s.unit u).Held p →
    ((us.foldl (fun t v => t.putUnit v ((t.unit v).given p)) s).unit u).Held p := by
  induction us with
  | nil => exact fun s u h => h.resolve_left List.not_mem_nil
  | cons v us ih =>
    intro s u h
    refine ih _ u ?_
    by_cases huv : u = v
    · subst huv
      right
      unfold State.unit State.putUnit
      rw [Tab.get_put_self]
      exact ⟨rfl, rfl, rfl, rfl⟩
    · rcases h with h | h
      · exact .inl (List.mem_of_ne_of_mem huv h)
      · right
        unfold State.unit State.putUnit
        rw [Tab.get_put_ne _ _ _ huv]
        exact h

/-- What handing units over leaves alone. -/
theorem State.given_rest (p : Nat) (us : List Nat) : ∀ s : State,
    (us.foldl (fun t v => t.putUnit v ((t.unit v).given p)) s).ctl = s.ctl :=
  State.ctl_foldl us _ fun _ _ => rfl

/-- The units that a partition asks for and nobody holds are handed to it (R369). -/
theorem State.unit_createPart {s : State} {c : PartCfg} {u : Nat} (hu : u ∈ c.units) (h224 : u < 224)
    (hh : (s.unit u).holder = none) : ((s.createPart c).unit u).Held c.part := by
  unfold State.createPart
  refine State.held_foldl c.part _ _ u (.inl ?_)
  simp only [List.mem_filter, Bool.and_eq_true, decide_eq_true_eq]
  exact ⟨hu, h224, by rw [Option.isNone_iff_eq_none]; exact hh⟩

theorem State.createPart_rest (s : State) (c : PartCfg) :
    Tab.find? (s.createPart c).hub.parts c.part = some c ∧ (s.createPart c).plat.hostQ = s.plat.hostQ := by
  obtain ⟨-, hp, hh⟩ := State.ctl_eq_iff.mp (State.given_rest c.part
    (c.units.filter (fun u => decide (u < 224) && (s.unit u).holder.isNone))
    { s with hub := { s.hub with parts := Tab.put s.hub.parts c.part c },
             plat := { s.plat with meas := Tab.erase s.plat.meas c.part } })
  constructor
  · exact (congrArg (fun h : Hub => Tab.find? h.parts c.part) hh).trans (Tab.find?_put_self _ _ _)
  · have hq := congrArg Plat.hostQ hp
    exact hq

theorem leBytes_length (n : Nat) : ∀ x : Nat, (leBytes n x).length = n := by
  induction n with
  | zero => exact fun _ => rfl
  | succ n ih => exact fun x => congrArg (· + 1) (ih (x / 256))

theorem ecdsaSign_length (key secret : Nat) (digest : List Byte) : (ecdsaSign key secret digest).length = 132 := by
  simp only [ecdsaSign, beBytes, List.length_append, List.length_reverse, leBytes_length]

/-- A part of a list of bytes that other bytes stand before and behind. -/
theorem take_drop_append {a b c : List Byte} {m n : Nat} (ha : a.length = m) (hb : b.length = n) :
    ((a ++ (b ++ c)).drop m).take n = b := by
  subst ha hb
  rw [List.drop_left, List.take_left]

/-- A list that is long enough is not padded. -/
theorem take_padded {a z : List Byte} {n : Nat} (h : a.length = n) : (a ++ z).take n = a := by
  subst h
  exact List.take_left ..

/-- The layout of a report's body (R367). -/
theorem State.reportBody_layout (s : State) {p : Nat} {nonce : List Byte} (hp : p < 64) (hn : nonce.length = 64)
    (hb : s.plat.bootHash.length = 64) (hm : (Tab.get (List.replicate 64 0) s.plat.meas p).length = 64) :
    (s.reportBody p nonce).length = 224 ∧ ((s.reportBody p nonce).drop 8).take 64 = nonce ∧
      ((s.reportBody p nonce).drop 72).take 64 = s.plat.bootHash ∧
      ((s.reportBody p nonce).drop 136).take 64 = Tab.get (List.replicate 64 0) s.plat.meas p ∧
      ((s.reportBody p nonce).drop 200).take 8 = leBytes 8 s.ntime.toNat := by
  have he : ∀ k x, (leBytes k x).length = k := leBytes_length
  unfold State.reportBody
  simp only [take_padded hn, take_padded hb, if_pos hp]
  refine ⟨by simp only [List.length_append, he, hn, hb, hm], ?_, ?_, ?_, ?_⟩
  · simp only [List.append_assoc]
    rw [← List.append_assoc (leBytes 4 1)]
    exact take_drop_append (by simp only [List.length_append, he]) hn
  · simp only [List.append_assoc]
    rw [← List.append_assoc (leBytes 4 1), ← List.append_assoc (leBytes 4 1 ++ _)]
    exact take_drop_append (by simp only [List.length_append, he, hn]) hb
  · simp only [List.append_assoc]
    rw [← List.append_assoc (leBytes 4 1), ← List.append_assoc (leBytes 4 1 ++ _), ← List.append_assoc (leBytes 4 1 ++ _ ++ _)]
    exact take_drop_append (by simp only [List.length_append, he, hn, hb]) hm
  · simp only [List.append_assoc]
    rw [← List.append_assoc (leBytes 4 1), ← List.append_assoc (leBytes 4 1 ++ _), ← List.append_assoc (leBytes 4 1 ++ _ ++ _),
      ← List.append_assoc (leBytes 4 1 ++ _ ++ _ ++ _)]
    exact take_drop_append (by simp only [List.length_append, he, hn, hb, hm]) (he 8 _)

/-! ### Rotunda's registers (R7, R17, R365) -/

theorem arrayAt_some {base n w i : Nat} (hw : 0 < w) (hi : i < n) : arrayAt (base + w * i) base n w = some i := by
  have hlt : w * i < n * w := by rw [Nat.mul_comm n w]; exact Nat.mul_lt_mul_of_pos_left hi hw
  rw [arrayAt, if_pos ⟨by omega, by omega⟩, Nat.add_sub_cancel_left, Nat.mul_div_cancel_left i hw]

theorem arrayAt_none {off base n w : Nat} (h : off < base ∨ base + n * w ≤ off) : arrayAt off base n w = none := by
  rw [arrayAt, if_neg (by omega)]

theorem flowAt_none {off : Nat} (h : off < 0xE0000000) : flowAt off = none := by
  rw [flowAt, if_neg (by omega), if_neg (by omega)]

theorem paKind_mmio {off : Nat} (h : off < 0x100000000) : paKind (mmioBase + off) = .mmio := by
  have hm : mmioBase = 0x30000000000 := rfl
  have hc : carveBase = 0x10000000000 := rfl
  have hq : quadSpBase = 0x20000000000 := rfl
  have hu : cuSpBase = 0x20040000000 := rfl
  unfold paKind
  rw [if_neg (by omega), if_neg (by omega), if_neg (by omega), if_neg (by omega), if_pos (by omega)]

/-- Rotunda's own block always answers. -/
theorem State.mmioUp_rotunda (s : State) {off : Nat} (h : off < 0x10000000) : s.mmioUp (mmioBase + off) = true := by
  have hd : (mmioBase + off - mmioBase) / 0x10000000 = 0 := by omega
  unfold State.mmioUp
  rw [paKind_mmio (by omega), hd]
  rfl

/-- The block of a die whose link is not open does not answer. -/
theorem State.mmioUp_closed {s : State} {d x : Nat} (h1 : 1 ≤ d) (hx : x < 0x10000000) (hl : (s.die d).link ≠ .up) :
    s.mmioUp (mmioBase + (d * 0x10000000 + x)) = false := by
  have hd : (mmioBase + (d * 0x10000000 + x) - mmioBase) / 0x10000000 = d := by omega
  unfold State.mmioUp
  rw [hd]
  have h0 : (d == 0) = false := by simp; omega
  have hu : ((s.die d).link == .up) = false := by simpa using hl
  simp [h0, hu]

theorem registerWrite_closed {s : State} {d x : Nat} (v : DWord) (h1 : 1 ≤ d) (hx : x < 0x10000000) (hl : (s.die d).link ≠ .up) :
    exec (.registerWrite (d * 0x10000000 + x) v) s = .next s := by
  show execRegisterWrite _ v s = _
  simp [execRegisterWrite, State.mmioUp_closed h1 hx hl]

theorem registerWrite_64 {s : State} {off : Nat} (v : DWord) (h : off < 0x10000000) (hr : (s.reg64 off).isSome = true) :
    exec (.registerWrite off v) s = .next (s.put64 off v) := by
  show execRegisterWrite off v s = _
  simp [execRegisterWrite, s.mmioUp_rotunda h, hr]

theorem registerWrite_32 {s : State} {off : Nat} (v : DWord) (h : off < 0x10000000) (hr : s.reg64 off = none) :
    exec (.registerWrite off v) s = .next (s.put32 off (v.extractLsb' 0 32)) := by
  show execRegisterWrite off v s = _
  simp [execRegisterWrite, s.mmioUp_rotunda h, hr]

/-- An array of 64-bit registers holds a 64-bit register at each of its offsets. -/
theorem State.reg64_array (s : State) {off : Nat} (h : (arrayAt off 0x220000 64 8).isSome ∨ (arrayAt off 0x220200 64 8).isSome ∨
    (arrayAt off 0x280000 4096 8).isSome ∨ (arrayAt off 0x2A0000 64 8).isSome ∨ (arrayAt off 0x2C0000 64 8).isSome ∨
    (arrayAt off 0x2C0200 64 8).isSome) : (s.reg64 off).isSome = true := by
  unfold State.reg64
  simp only [Option.orElse_eq_or, Option.isSome_or, Option.isSome_map, Bool.or_eq_true]
  tauto

/-- No 64-bit register lies at the offset. -/
theorem State.reg64_none (s : State) {off : Nat} (h : off < 0xE0000000)
    (ha : arrayAt off 0x220000 64 8 = none ∧ arrayAt off 0x220200 64 8 = none ∧ arrayAt off 0x240000 256 8 = none ∧
      arrayAt off 0x280000 4096 8 = none ∧ arrayAt off 0x2A0000 64 8 = none ∧ arrayAt off 0x2C0000 64 8 = none ∧
      arrayAt off 0x2C0200 64 8 = none)
    (hn : off ∉ [0x260000, 0x2C0400, 0x2C0408, 0x2C0410, 0x2C0500]) : s.reg64 off = none := by
  obtain ⟨h1, h2, h3, h4, h5, h6, h7⟩ := ha
  simp only [List.mem_cons, List.not_mem_nil, or_false, not_or] at hn
  obtain ⟨n1, n2, n3, n4, n5⟩ := hn
  unfold State.reg64
  simp only [h1, h2, h3, h4, h5, h6, h7, flowAt_none h, Option.map_none, Option.orElse_none]

/-- The low `k` bits of the word written (R7). -/
theorem lowMask_written (v : DWord) (k : Nat) (hk : k ≤ 32) :
    v.extractLsb' 0 32 &&& BitVec.ofNat 32 (2 ^ k - 1) = BitVec.ofNat 32 (v.toNat % 2 ^ k) := by
  have hd : 2 ^ k ∣ 2 ^ 32 := Nat.pow_dvd_pow 2 hk
  rw [and_lowMask _ k, BitVec.extractLsb'_toNat, Nat.shiftRight_zero, Nat.mod_mod_of_dvd _ hd]

section
variable (s : State) (v : DWord)

/-- The arrays of 64-bit registers, at the offset of register `p`. -/
theorem registerWrite_arrays {p : Nat} (hp : p < 64) :
    exec (.registerWrite (0x220000 + 8 * p) v) s =
      .next { s with rot := { s.rot with ptRoot := Tab.set 0 s.rot.ptRoot p (v &&& 0x000FFFFFFFFFF001) } } ∧
    exec (.registerWrite (0x220200 + 8 * p) v) s =
      .next { s with rot := { s.rot with ttCtl := Tab.set 0 s.rot.ttCtl p (v &&& 0x000FFFFFFFFFF03F) } } ∧
    exec (.registerWrite (0x280000 + 8 * p) v) s =
      .next { s with rot := { s.rot with tqCfg := Tab.set 0 s.rot.tqCfg p (v &&& 0x800FFFFFFFFFF01F) } } ∧
    exec (.registerWrite (0x2A0000 + 8 * p) v) s =
      .next { s with rot := { s.rot with polCtl := Tab.set 0x01000014 s.rot.polCtl p (v &&& 0x8000FFFF01FF07FF) } } ∧
    exec (.registerWrite (0x2C0000 + 8 * p) v) s =
      .next { s with rot := { s.rot with trapTab := Tab.set 0 s.rot.trapTab p (v &&& 0x00FFFFFFFFFFF001) } } ∧
    exec (.registerWrite (0x2C0200 + 8 * p) v) s =
      .next { s with rot := { s.rot with errRing := Tab.set 0 s.rot.errRing p (v &&& 0x800FFFFFFFFFF01F) } } := by
  have hat : ∀ base, arrayAt (base + 8 * p) base 64 8 = some p := fun base => arrayAt_some (by decide) hp
  have htq : arrayAt (0x280000 + 8 * p) 0x280000 4096 8 = some p := arrayAt_some (by decide) (by omega)
  refine ⟨?_, ?_, ?_, ?_, ?_, ?_⟩
  · rw [registerWrite_64 v (by omega) (s.reg64_array (by simp [hat]))]
    simp only [State.put64, hat]
  · rw [registerWrite_64 v (by omega) (s.reg64_array (by simp [hat]))]
    simp (disch := omega) only [State.put64, hat, arrayAt_none]
  · rw [registerWrite_64 v (by omega) (s.reg64_array (by simp [htq]))]
    simp (disch := omega) only [State.put64, htq, arrayAt_none]
  · rw [registerWrite_64 v (by omega) (s.reg64_array (by simp [hat]))]
    simp (disch := omega) only [State.put64, hat, arrayAt_none]
  · rw [registerWrite_64 v (by omega) (s.reg64_array (by simp [hat]))]
    simp (disch := omega) only [State.put64, hat, arrayAt_none]
  · rw [registerWrite_64 v (by omega) (s.reg64_array (by simp [hat]))]
    simp (disch := omega) only [State.put64, hat, arrayAt_none]

/-- The single 64-bit registers; `ring_reiss` and `inc_drop` are read-only. -/
theorem registerWrite_single64 :
    exec (.registerWrite 0x2C0400 v) s = .next { s with rot := { s.rot with rsTrap := v &&& 0x00FFFFFFFFFFF001 } } ∧
    exec (.registerWrite 0x2C0408 v) s = .next { s with rot := { s.rot with rsErr := v &&& 0x800FFFFFFFFFF01F } } ∧
    exec (.registerWrite 0x260000 v) s = .next s ∧ exec (.registerWrite 0x2C0410 v) s = .next s := by
  refine ⟨?_, ?_, ?_, ?_⟩
  all_goals
    rw [registerWrite_64 v (by decide) (by simp [State.reg64, arrayAt, flowAt])]
    simp [State.put64, arrayAt, flowAt]

/-- The 32-bit registers; `orng_limrej` and `boot_st` are read-only. -/
theorem registerWrite_single32 :
    exec (.registerWrite 0x260010 v) s = .next { s with rot := { s.rot with domTmo := BitVec.ofNat 32 (v.toNat % 2 ^ 16) } } ∧
    exec (.registerWrite 0x2E0010 v) s = .next { s with rot := { s.rot with pkgPlim := BitVec.ofNat 32 (v.toNat % 2 ^ 16) } } ∧
    exec (.registerWrite 0x2C0508 v) s = .next { s with rot := { s.rot with replThr := BitVec.ofNat 32 (v.toNat % 256) } } ∧
    exec (.registerWrite 0x2E0000 v) s = .next s ∧ exec (.registerWrite 0x201800 v) s = .next s := by
  have h16 : v.extractLsb' 0 32 &&& 0xFFFF = BitVec.ofNat 32 (v.toNat % 2 ^ 16) := lowMask_written v 16 (by decide)
  have h8 : v.extractLsb' 0 32 &&& 0xFF = BitVec.ofNat 32 (v.toNat % 256) := lowMask_written v 8 (by decide)
  rw [← h16, ← h8]
  refine ⟨?_, ?_, ?_, ?_, ?_⟩
  all_goals
    rw [registerWrite_32 v (by decide) (s.reg64_none (by decide) (by decide) (by decide))]
    simp [State.put32, arrayAt]

/-- The power pools (R320). -/
theorem registerWrite_pwrPool {p : Nat} (hp : p < 64) : exec (.registerWrite (0x288000 + 4 * p) v) s =
    .next { s with rot := { s.rot with pwrPool := Tab.set 0 s.rot.pwrPool p (v.toNat % 4096) } } := by
  have hat : arrayAt (0x288000 + 4 * p) 0x288000 64 4 = some p := arrayAt_some (by decide) hp
  have hv : ((v.extractLsb' 0 32).extractLsb' 0 12).toNat = v.toNat % 4096 := by
    rw [BitVec.extractLsb'_toNat, BitVec.extractLsb'_toNat, Nat.shiftRight_zero, Nat.shiftRight_zero,
      Nat.mod_mod_of_dvd _ (by decide)]
  have hnone := s.reg64_none (off := 0x288000 + 4 * p) (by omega)
    ⟨arrayAt_none (by omega), arrayAt_none (by omega), arrayAt_none (by omega), arrayAt_none (by omega), arrayAt_none (by omega),
      arrayAt_none (by omega), arrayAt_none (by omega)⟩
    (by simp only [List.mem_cons, List.not_mem_nil, or_false]; omega)
  rw [registerWrite_32 v (by omega) hnone]
  simp (disch := omega) only [State.put32, hat, arrayAt_none, hv]

end

/-! ### What a management request and an attestation answer -/

section
variable {s : State}

theorem managementRequest_idle (h : HostEvent.mgmt ∉ s.plat.hostQ) (r : MgmtReq) : exec (.managementRequest r) s = .next s := by
  show execManagementRequest r s = _
  rw [execManagementRequest, State.takeRequest_none h]

theorem attestationRequest_idle (h : HostEvent.mgmt ∉ s.plat.hostQ) (p : Nat) (nonce : List (BitVec 8)) :
    exec (.attestationRequest p nonce) s = .next s := by
  show execAttestationRequest p nonce s = _
  rw [execAttestationRequest, State.takeRequest_none h]

/-- The state in which the resident service has taken a request out of its queue. -/
def State.taken (s : State) : State := { s with plat := { s.plat with hostQ := s.plat.hostQ.erase .mgmt } }

variable (h : HostEvent.mgmt ∈ s.plat.hostQ)
include h

theorem managementRequest_powerLimit (v : Word) : exec (.managementRequest (.powerLimit v)) s =
    .next { s with plat := { s.plat with hostQ := s.plat.hostQ.erase .mgmt }, rot := { s.rot with pkgPlim := v &&& 0xFFFF } } := by
  show execManagementRequest (.powerLimit v) s = _
  rw [execManagementRequest, State.takeRequest_some h]

theorem managementRequest_status :
    exec (.managementRequest .status) s = .next (s.taken.answer s.taken.statusBytes) := by
  show execManagementRequest .status s = _
  rw [execManagementRequest, State.takeRequest_some h]
  rfl

theorem managementRequest_release {l : Nat} {x : Launch} (hx : s.launch? l = some x) :
    exec (.managementRequest (.release l)) s = .next (s.taken.putLaunch { x with susp := false }) := by
  have ht : s.taken.launch? l = some x := hx
  show execManagementRequest (.release l) s = _
  rw [execManagementRequest, State.takeRequest_some h]
  show Host.Outcome.next (match s.taken.launch? l with
    | some x => s.taken.putLaunch { x with susp := false }
    | none => s.taken) = _
  rw [ht]

theorem managementRequest_createPart {c : PartCfg} (hc : c.part < 64) (hn : Tab.find? s.hub.parts c.part = none) :
    exec (.managementRequest (.createPart c)) s = .next (s.taken.createPart c) := by
  have hneg : ¬(63 < c.part ∨ (Tab.find? s.taken.hub.parts c.part).isSome = true) := by
    rintro (h63 | hs)
    · omega
    · rw [show Tab.find? s.taken.hub.parts c.part = none from hn] at hs
      cases hs
  show execManagementRequest (.createPart c) s = _
  rw [execManagementRequest, State.takeRequest_some h]
  exact congrArg Host.Outcome.next (if_neg hneg)

/-- An attestation answers with the signed report and the certificates (R366, R367); the secret number of the signature is a
free value (log 22). -/
theorem attestationRequest_answer (p : Nat) (nonce : List (BitVec 8)) :
    ∃ t : State, exec (.attestationRequest p nonce) s = .next t ∧ t.mem = s.mem ∧
      t.plat.hostQ = s.plat.hostQ.erase .mgmt ∧
      t.plat.reports = s.plat.reports ++ [s.reportBody p nonce ++
        ecdsaSign s.plat.idKey (Config.nonce s.free) (sha512 (s.reportBody p nonce)), s.plat.certs] := by
  let u := { s.taken with free := s.free + 1 }
  refine ⟨(u.answer (s.reportBody p nonce ++ s.sign s.free (s.reportBody p nonce))).answer s.plat.certs, ?_, rfl, rfl, ?_⟩
  · show execAttestationRequest p nonce s = _
    rw [execAttestationRequest, State.takeRequest_some h]
    rfl
  · exact List.append_assoc s.plat.reports [_] [_]

end

/-- The first four bytes of the status are `boot_st` (R368). -/
theorem State.statusBytes_take (s : State) : s.statusBytes.take 4 = leBytes 4 s.rot.bootSt.toNat := by
  unfold State.statusBytes
  simp only [List.append_assoc]
  exact take_padded (leBytes_length 4 _)

end Sys2Proof.Machine

namespace Sys2Proof.Settled
open Sys2Proof Sys2Proof.Machine

/-- The Ultra Ethernet part of O53. -/
theorem ueRequests (s : State) (r : UeReq) (ho : s.portsOpen r.die = true) (i : Nat) (f : Flow) (hf : s.flowMatch r = some (i, f))
    (hn : r.payload.length ≤ f.slotSize) (hk : s.linkOk f.part (f.buf.toNat + f.slot * f.slotSize) r.payload.length = true) :
    (i % 4096 < 16 → ∃ t : State, exec (.ueRequest r) s = .next t ∧ Tab.find? t.hub.flows i = some f.arrived ∧
      t.plat.hostQ = s.plat.hostQ ++ [.mgmt] ∧ t.rot = s.rot) ∧
    (16 ≤ i % 4096 → s.tqOn f.part f.tq = true → s.tqFull f.part f.tq = false → ∃ t : State,
      exec (.ueRequest r) s = .next t ∧ Tab.find? t.hub.flows i = some f.arrived ∧
      Tab.get 0 t.rot.tqTail (64 * f.part + f.tq) = Tab.get 0 s.rot.tqTail (64 * f.part + f.tq) + 1) := by
  constructor
  · intro hi
    obtain ⟨t, hr, hp, hg, he⟩ := ueRequest_arrives ho hf hn (.inl hi) hk
    rw [if_pos hi] at he
    exact ⟨_, he, hg, by rw [← hp], hr⟩
  · intro hi hon hfull
    obtain ⟨t, hr, -, hg, he⟩ := ueRequest_arrives ho hf hn (.inr ⟨hon, hfull⟩) hk
    rw [if_neg (by omega)] at he
    obtain ⟨hh, ht⟩ := t.tqAppend_rest f.part f.tq (f.record r (f.buf.toNat + f.slot * f.slotSize))
    exact ⟨_, he, by rw [hh]; exact hg, by rw [ht, hr]⟩

/-- Settles O53: each request and register write has its equation above. -/
theorem requests : Obligations.Requests := by
  refine ⟨fun s r hd hl hb hh => ?_, fun s => ⟨fun hq => ?_, fun hq => ?_⟩, fun s n => ?_, fun s p v hp => ?_⟩
  · have ho := State.portsOpen_of hd hl hb hh
    refine ⟨fun hf => ?_, fun i f hf => ⟨fun hn => ?_, fun hn hi hk => ?_, fun hn hi hk => ueRequest_full ho hf hn hi hk,
      fun hn hk => ueRequests s r ho i f hf hn hk⟩⟩
    · obtain ⟨h1, h2⟩ := s.dropRequest_rest 0
      exact ⟨_, ueRequest_unmatched ho hf, h1, h2⟩
    · obtain ⟨h1, h2⟩ := s.dropRequest_rest f.part
      exact ⟨_, ueRequest_long ho hf hn, h1, h2⟩
    · refine ⟨_, ueRequest_unwritable ho hf hn hi hk, ?_⟩
      rw [(State.dropRequest_rest _ _).1, State.linkDenied_dropReq]
  · exact ⟨managementRequest_idle hq, attestationRequest_idle hq⟩
  · refine ⟨managementRequest_powerLimit hq, ⟨_, _, managementRequest_status hq, rfl, rfl, rfl, rfl, s.taken.statusBytes_take⟩,
      fun l x hx hid => ⟨_, managementRequest_release hq hx, ?_, rfl, rfl⟩, fun c hc hn => ?_, fun p nonce hp hn hb hm => ?_⟩
    · subst hid
      exact Tab.find?_put_self _ _ _
    · obtain ⟨hp, hr⟩ := s.taken.createPart_rest c
      exact ⟨_, managementRequest_createPart hq hc hn, hp, hr, fun u hu h224 hh => State.unit_createPart (s := s.taken) hu h224 hh⟩
    · obtain ⟨t, he, hmem, hqt, hrep⟩ := attestationRequest_answer hq p nonce
      obtain ⟨l0, l1, l2, l3, l4⟩ := s.reportBody_layout hp hn hb hm
      exact ⟨t, _, _, he, hmem, hqt, hrep, l0, ecdsaSign_length _ _ _, rfl, l1, l2, l3, l4⟩
  · show execSvnFuseWrite n s = _
    rfl
  · obtain ⟨a1, a2, a3, a4, a5, a6⟩ := registerWrite_arrays s v hp
    obtain ⟨b1, b2, b3, b4⟩ := registerWrite_single64 s v
    obtain ⟨c1, c2, c3, c4, c5⟩ := registerWrite_single32 s v
    exact ⟨a1, a2, a3, a4, a5, a6, b1, b2, c1, c2, c3, registerWrite_pwrPool s v hp, b3, b4, c4, c5,
      fun d x h1 _ hx hl => registerWrite_closed v h1 hx hl⟩

end Sys2Proof.Settled
end

section
/-! Every step answers a next state (R4, R118, R119, R349). Each instruction's meaning is one over its issuer (`execForm`), what the
decoders accept tells who the issuer is (`fromAgents_decode`, `issuer_of_decPol`), and the plan of a step names an instruction only
where its issuer is there (`canRun_plan`). -/
namespace Sys2Proof

/-! ### Who issues an instruction, and what its meaning then answers -/

/-- Who issues an instruction: an agent, the policy engine, or nobody, where it is a step of the package itself. -/
inductive Issuer where
  | agent | policy | package

/-- The operations of policy code (R336, R338). -/
def Instr.ofPolicy : Instr → Bool
  | .polLdi .. | .polLdih .. | .polAdd .. | .polSub .. | .polAnd .. | .polOr .. | .polXor .. | .polMinu .. | .polMaxu ..
  | .polShl .. | .polShr .. | .polAddi .. | .polRqf .. | .polRuf .. | .polBeq .. | .polBne .. | .polBltu .. | .polBgeu ..
  | .polArgminq .. | .polArgmaxq .. | .polArgminu .. | .polArgmaxu .. | .polLdp .. | .polStp .. | .polDecPick ..
  | .polDecKeep .. | .polDecPreempt .. | .polDecKill .. | .polDecResume .. | .polDecNotify .. | .polDecSuspend ..
  | .polDecFallback .. => true
  | _ => false

/-- A step of the package has no encoding. -/
def Instr.issuer (i : Instr) : Issuer :=
  bif (encode i).isEmpty then .package else bif i.ofPolicy then .policy else .agent

end Sys2Proof

namespace Sys2Proof.Machine

/-- What stands behind an instruction's meaning: the agent whose turn it is, the decision in progress, or nothing. -/
def ExecForm (i : Instr) (s : State) : Issuer → Prop
  | .agent => ∃ k, exec i s = onMover s k
  | .policy => ∃ cost k, exec i s = onDec s cost k
  | .package => ∃ t, exec i s = .next t

theorem polReg_onDec (s : State) (c : Nat) (r : BitVec 3) (f : Decision → Word) :
    ∃ cost k, polReg s c r f = onDec s cost k := ⟨_, _, rfl⟩

theorem polBranch_onDec (s : State) (off : BitVec 5) (t : Decision → Bool) :
    ∃ cost k, polBranch s off t = onDec s cost k := ⟨_, _, rfl⟩

theorem polDec_onDec (s : State) (kind : DecKind) (a b : BitVec 3) :
    ∃ cost k, polDec s kind a b = onDec s cost k := ⟨_, _, rfl⟩

/-- Each instruction's meaning is one over its issuer. -/
theorem execForm (i : Instr) (s : State) : ExecForm i s i.issuer := by
  cases i with
  | blk | rep | add | sub | mul | mulh | mulhu | div | divu | rem | remu | and | or | xor | andn | shl | shr | sar | rol
  | min | max | minu | maxu | clz | popc | bfx | bfi | sel | mov | cmpEq | cmpNe | cmpLt | cmpLtu | cmpLe | cmpLeu | cmpGt
  | cmpGtu | cmpGe | cmpGeu | add64 | sub64 | mul64 | shl64 | shr64 | sar64 | adda | prep | xfer | xfern | call | ret
  | split | join | yield | halt | nop | vany | vall | vbal | vcnt | vffs | vbcast | regroup | trap | eret | csrr | csrw
  | capr | wfi | ifence | mapinv | harvest | keyset | keykill | polld | polsw | vadd | vsub | vmul | vmulh | vand | vor
  | vxor | vshl | vshr | vsar | vmin | vmax | vminu | vmaxu | vabs | vneg | vclz | vpopc | vadds | vsubs | vmov | vsel
  | vmad | vmadh | vdot4 | vdot4u | vcmpEq | vcmpNe | vcmpLt | vcmpLtu | vcmpLe | vcmpLeu | vcmpGt | vcmpGtu | vcmpGe
  | vcmpGeu | kand | kor | kxor | knot | kmov | kfroms | ktos | vfadd | vfsub | vfmul | vfma | vfms | vfnma | vfmin | vfmax
  | vfabs | vfneg | vfclass | vfrnd | vdadd | vdsub | vdmul | vdfma | vdmin | vdmax | vfcmpEq | vfcmpNe | vfcmpLt | vfcmpLe
  | vfcmpGt | vfcmpGe | vfcmpUn | vfcmpOrd | vcvt | pk4 | upk4 | pk6 | upk6 | pkts | upkts | vscale | srcp | srsq | ssqrt
  | sexp2 | slog2 | ssin | scos | stanh | sact | atld | atswap | nbl | nbr | nrot | ld | st | sld | sst | ldsp | stsp | tld
  | tst | ldacq | strel | fence | bar | bara | barw | dbar | waitw | wakew | cpy | give | take | hwait | htest | hcancel
  | hpass | spawn | steal | tdone | remq | pwrget | pwrrel | wsig | allred | wincfg | ntime | skclr | skins | skrecon
  | skstat | aadd | asub | amin | amax | aminu | amaxu | aand | aor | axor | axchg | acas | afadd | wload | rload | mmul
  | chb | che | accst | nest | go | vcset | shdw | scmt | sdsc | qfuse | qsplit | movCompact | addCompact | subCompact
  | andCompact | orCompact | xorCompact | addImmCompact | shlCompact | shrCompact | sarCompact | movImmCompact | vmovCompact
  | vaddCompact | vfaddCompact | vfmulCompact | kmovCompact | nopCompact | xferCompact | xfernCompact =>
    show ∃ k, exec _ s = onMover s k
    exact ⟨_, rfl⟩
  | polLdi | polLdih | polAdd | polSub | polAnd | polOr | polXor | polMinu | polMaxu | polShl | polShr | polAddi | polRqf
  | polRuf | polArgminq | polArgmaxq | polArgminu | polArgmaxu =>
    show ∃ cost k, exec _ s = onDec s cost k
    unfold exec
    exact polReg_onDec _ _ _ _
  | polBeq | polBne | polBltu | polBgeu =>
    show ∃ cost k, exec _ s = onDec s cost k
    unfold exec
    exact polBranch_onDec _ _ _
  | polDecPick | polDecKeep | polDecPreempt | polDecKill | polDecResume | polDecNotify | polDecSuspend =>
    show ∃ cost k, exec _ s = onDec s cost k
    unfold exec
    exact polDec_onDec _ _ _ _
  | polLdp | polStp | polDecFallback =>
    show ∃ cost k, exec _ s = onDec s cost k
    unfold exec
    exact ⟨_, _, rfl⟩
  | policyDecisionStart | budgetOverrun | sliceEnd | packageReset | bootStage | enumeration | heartbeat | isolation
  | chipletSelfTest | staleResponseDrop | patrolScrub | cxlDeviceLoss | orngLimWrite | orngSplitWrite | wayCleaning
  | orangeryEpoch | pageWalk | nextPageWalk | faultResolve | faultUnresolvable | sideLogReplay | loadPerform | storePerform
  | writePropagate | cacheEviction | acquire | release | atomicPerform | writeErrorRemoval | windowDeliver | windowAck
  | windowTimeout | requestTimeout | inboundRemoteAccess | requestReissue | flitAck | linkWidthChange | laneFailure
  | timeSync | reductionFold | ueRequest | managementRequest | attestationRequest | circWrite | circuitUp | circuitDown
  | copyStart | copyChunk | copyCompletion | sfuEntry | engineEntryIssue | engineEntryRetire | nestEmit | remqBlockDispatch
  | reconcileMatch | reconcileWaitExpiry | sketchPeel | fullSetTransfer | spanTransaction | spanEviction | launchAppend
  | groupStart | taskStart | heldFirePlace | contextSave | contextRestore | migration | opPointChange | powerWindow
  | asyncTrap | waitwYield | waitwReread | waitwTimer | ntimeDeadline | wfiTimeout | svnFuseWrite | fenceCu | fenceQuadrant
  | fenceDramBank | fenceLinkLane | fenceDie | registerWrite | remoteResponse | reconcileStart =>
    show ∃ t, exec _ s = .next t
    exact ⟨_, rfl⟩

end Sys2Proof.Machine

namespace Sys2Proof

/-! ### What the decoder answers is an agent's instruction, what policy code holds is the engine's -/

/-- What decoding accepts is issued by an agent. -/
def FromAgents (r : Except Bad Instr) : Prop := ∀ i, r = .ok i → i.issuer = .agent

theorem fromAgents_error (e : Bad) : FromAgents (.error e) := nofun

theorem fromAgents_ok {j : Instr} (hj : j.issuer = .agent) : FromAgents (.ok j) := fun _ h => by cases h; exact hj

theorem fromAgents_ite {c : Prop} [Decidable c] {r r' : Except Bad Instr} (h : FromAgents r) (h' : FromAgents r') :
    FromAgents (if c then r else r') := by
  split
  · exact h
  · exact h'

theorem fromAgents_accept {ok : Bool} {j : Instr} (hj : j.issuer = .agent) : FromAgents (accept ok j) :=
  fromAgents_ite (fromAgents_ok hj) (fromAgents_error _)

theorem fromAgents_dec02 (f : Fld) (la lb : Word) : FromAgents (dec02 f la lb) := by
  unfold dec02
  split
  on_goal -1 => exact fromAgents_error _
  all_goals exact fromAgents_accept rfl

theorem fromAgents_dec03 (f : Fld) (la lb : Word) : FromAgents (dec03 f la lb) := by
  unfold dec03
  split
  on_goal -1 => exact fromAgents_error _
  all_goals exact fromAgents_accept rfl

theorem fromAgents_dec04 (f : Fld) (la lb : Word) : FromAgents (dec04 f la lb) := by
  unfold dec04
  split
  on_goal -1 => exact fromAgents_error _
  all_goals exact fromAgents_accept rfl

theorem fromAgents_dec05 (f : Fld) (la lb : Word) : FromAgents (dec05 f la lb) := by
  unfold dec05
  split
  on_goal -1 => exact fromAgents_error _
  all_goals exact fromAgents_accept rfl

theorem fromAgents_dec06 (f : Fld) (la lb : Word) : FromAgents (dec06 f la lb) := by
  unfold dec06
  split
  on_goal -1 => exact fromAgents_error _
  all_goals exact fromAgents_accept rfl

theorem fromAgents_dec07 (f : Fld) (la lb : Word) : FromAgents (dec07 f la lb) := by
  unfold dec07
  split
  on_goal -1 => exact fromAgents_error _
  all_goals exact fromAgents_accept rfl

theorem fromAgents_dec08 (f : Fld) (la lb : Word) : FromAgents (dec08 f la lb) := by
  unfold dec08
  split
  on_goal -1 => exact fromAgents_error _
  all_goals exact fromAgents_accept rfl

theorem fromAgents_dec09 (f : Fld) (la lb : Word) : FromAgents (dec09 f la lb) := by
  unfold dec09
  split
  on_goal -1 => exact fromAgents_error _
  all_goals exact fromAgents_accept rfl

theorem fromAgents_dec0A (f : Fld) (la lb : Word) : FromAgents (dec0A f la lb) := by
  unfold dec0A
  split
  on_goal -1 => exact fromAgents_error _
  all_goals exact fromAgents_accept rfl

theorem fromAgents_dec0B (f : Fld) (la lb : Word) : FromAgents (dec0B f la lb) := by
  unfold dec0B
  split
  on_goal -1 => exact fromAgents_error _
  all_goals exact fromAgents_accept rfl

theorem fromAgents_dec0C (f : Fld) (la lb : Word) : FromAgents (dec0C f la lb) := by
  unfold dec0C
  split
  on_goal -1 => exact fromAgents_error _
  all_goals exact fromAgents_accept rfl

theorem fromAgents_dec0D (f : Fld) (la lb : Word) : FromAgents (dec0D f la lb) := by
  unfold dec0D
  split
  on_goal -1 => exact fromAgents_error _
  all_goals exact fromAgents_accept rfl

theorem fromAgents_dec10 (f : Fld) (la lb : Word) : FromAgents (dec10 f la lb) := by
  unfold dec10
  split
  on_goal -1 => exact fromAgents_error _
  all_goals exact fromAgents_accept rfl

theorem fromAgents_dec11 (f : Fld) (la lb : Word) : FromAgents (dec11 f la lb) := by
  unfold dec11
  split
  on_goal -1 => exact fromAgents_error _
  all_goals exact fromAgents_accept rfl

theorem fromAgents_dec12 (f : Fld) (la lb : Word) : FromAgents (dec12 f la lb) := by
  unfold dec12
  split
  on_goal -1 => exact fromAgents_error _
  all_goals exact fromAgents_accept rfl

theorem fromAgents_dec23 (f : Fld) (la lb : Word) : FromAgents (dec23 f la lb) := by
  unfold dec23
  split
  on_goal -1 => exact fromAgents_error _
  all_goals exact fromAgents_accept rfl

theorem fromAgents_dec24 (f : Fld) (la lb : Word) : FromAgents (dec24 f la lb) := by
  unfold dec24
  split
  on_goal -1 => exact fromAgents_error _
  all_goals exact fromAgents_accept rfl

theorem fromAgents_dec25 (f : Fld) (la lb : Word) : FromAgents (dec25 f la lb) := by
  unfold dec25
  split
  on_goal -1 => exact fromAgents_error _
  all_goals exact fromAgents_accept rfl

theorem fromAgents_dec26 (f : Fld) (la lb : Word) : FromAgents (dec26 f la lb) := by
  unfold dec26
  split
  on_goal -1 => exact fromAgents_error _
  all_goals exact fromAgents_accept rfl

theorem fromAgents_dec27 (f : Fld) (la lb : Word) : FromAgents (dec27 f la lb) := by
  unfold dec27
  split
  on_goal -1 => exact fromAgents_error _
  all_goals exact fromAgents_accept rfl

theorem fromAgents_dec30 (f : EFld) : FromAgents (dec30 f) := by
  unfold dec30
  split
  on_goal -1 => exact fromAgents_error _
  all_goals exact fromAgents_accept rfl

theorem fromAgents_dec18 (f : Fld) (la lb : Word) : FromAgents (dec18 f la lb) :=
  fromAgents_ite (fromAgents_accept rfl) (fromAgents_error _)

theorem fromAgents_dec19 (f : Fld) (la lb : Word) : FromAgents (dec19 f la lb) :=
  fromAgents_ite (fromAgents_accept rfl) (fromAgents_error _)

theorem fromAgents_dec1A (f : Fld) (la lb : Word) : FromAgents (dec1A f la lb) :=
  fromAgents_ite (fromAgents_accept rfl) (fromAgents_error _)

theorem fromAgents_dec1B (f : Fld) (la lb : Word) : FromAgents (dec1B f la lb) :=
  fromAgents_ite (fromAgents_accept rfl) (fromAgents_error _)

theorem fromAgents_dec1C (f : Fld) (la lb : Word) : FromAgents (dec1C f la lb) :=
  fromAgents_ite (fromAgents_accept rfl) (fromAgents_error _)

theorem fromAgents_dec1D (f : Fld) (la lb : Word) : FromAgents (dec1D f la lb) :=
  fromAgents_ite (fromAgents_accept rfl) (fromAgents_error _)

theorem fromAgents_dec1E (f : Fld) (la lb : Word) : FromAgents (dec1E f la lb) :=
  fromAgents_ite (fromAgents_accept rfl) (fromAgents_error _)

theorem fromAgents_dec1F (f : Fld) (la lb : Word) : FromAgents (dec1F f la lb) :=
  fromAgents_ite (fromAgents_accept rfl) (fromAgents_error _)

theorem fromAgents_dec20 (f : Fld) (la lb : Word) : FromAgents (dec20 f la lb) :=
  fromAgents_ite (fromAgents_accept rfl) (fromAgents_error _)

theorem fromAgents_dec21 (f : Fld) (la lb : Word) : FromAgents (dec21 f la lb) :=
  fromAgents_ite (fromAgents_accept rfl) (fromAgents_error _)

theorem fromAgents_dec22 (f : Fld) (la lb : Word) : FromAgents (dec22 f la lb) :=
  fromAgents_ite (fromAgents_accept rfl) (fromAgents_error _)

theorem fromAgents_dec0E (f : Fld) (la lb : Word) : FromAgents (dec0E f la lb) := by
  refine fromAgents_ite (fromAgents_error _) ?_
  split
  all_goals exact fromAgents_accept rfl

theorem fromAgents_dec0F (f : Fld) (la lb : Word) : FromAgents (dec0F f la lb) :=
  fromAgents_ite (fromAgents_error _) (fromAgents_accept rfl)

theorem fromAgents_dec28 (f : Fld) (la lb : Word) : FromAgents (dec28 f la lb) := by
  unfold dec28
  dsimp only
  split
  on_goal -1 => exact fromAgents_error _
  all_goals exact fromAgents_ite (fromAgents_accept rfl) (fromAgents_error _)

theorem fromAgents_dec32 (w la lb : Word) : FromAgents (dec32 w la lb) := by
  unfold dec32
  dsimp only
  split
  · exact fromAgents_ite (fromAgents_ok rfl) (fromAgents_error _)
  · exact fromAgents_ite (fromAgents_ok rfl) (fromAgents_error _)
  · exact fromAgents_dec02 _ _ _
  · exact fromAgents_dec03 _ _ _
  · exact fromAgents_dec04 _ _ _
  · exact fromAgents_dec05 _ _ _
  · exact fromAgents_dec06 _ _ _
  · exact fromAgents_dec07 _ _ _
  · exact fromAgents_dec08 _ _ _
  · exact fromAgents_dec09 _ _ _
  · exact fromAgents_dec0A _ _ _
  · exact fromAgents_dec0B _ _ _
  · exact fromAgents_dec0C _ _ _
  · exact fromAgents_dec0D _ _ _
  · exact fromAgents_dec0E _ _ _
  · exact fromAgents_dec0F _ _ _
  · exact fromAgents_dec10 _ _ _
  · exact fromAgents_dec11 _ _ _
  · exact fromAgents_dec12 _ _ _
  · exact fromAgents_dec18 _ _ _
  · exact fromAgents_dec19 _ _ _
  · exact fromAgents_dec1A _ _ _
  · exact fromAgents_dec1B _ _ _
  · exact fromAgents_dec1C _ _ _
  · exact fromAgents_dec1D _ _ _
  · exact fromAgents_dec1E _ _ _
  · exact fromAgents_dec1F _ _ _
  · exact fromAgents_dec20 _ _ _
  · exact fromAgents_dec21 _ _ _
  · exact fromAgents_dec22 _ _ _
  · exact fromAgents_dec23 _ _ _
  · exact fromAgents_dec24 _ _ _
  · exact fromAgents_dec25 _ _ _
  · exact fromAgents_dec26 _ _ _
  · exact fromAgents_dec27 _ _ _
  on_goal -1 => exact fromAgents_error _
  on_goal -1 => exact fromAgents_dec30 _
  all_goals exact fromAgents_dec28 _ _ _

theorem fromAgents_dec16 (h : Half) : FromAgents (dec16 h) := by
  unfold dec16
  dsimp only
  split
  on_goal -1 => exact fromAgents_error _
  iterate 15 exact fromAgents_ok rfl
  all_goals exact fromAgents_accept rfl

/-- The stream of instructions holds agents' instructions alone (R105). -/
theorem fromAgents_decode (hs : List Half) : FromAgents (decode hs) := by
  unfold decode
  split
  · exact fromAgents_error _
  · split
    · exact fromAgents_error _
    · split
      · split
        · exact fromAgents_error _
        · exact fromAgents_dec32 _ _ _
      · exact fromAgents_dec16 _

/-- Policy code holds the policy engine's operations alone (R335, R336). -/
theorem issuer_of_decPol {h : Half} {i : Instr} (hi : decPol h = .ok i) : i.issuer = .policy := by
  unfold decPol at hi
  dsimp only at hi
  split at hi
  · cases hi
  · split at hi
    on_goal -1 => cases hi
    on_goal 25 => split at hi
    all_goals
      cases hi
      rfl

end Sys2Proof

namespace Sys2Proof.Machine

/-! ### The mover stays (R41, R42, R48) -/

/-- Somebody moves: it is the turn of an agent that lives. -/
def State.HasMover (s : State) : Prop := ∃ id ag, s.mover = some (id, ag)

theorem State.hasMover_of {s : State} {id : Nat} {ag : Agent} (hc : s.cur = .agent id) (ha : s.agent? id = some ag)
    (hl : ag.live = true) : s.HasMover := ⟨id, ag, s.mover_of hc ha hl⟩

/-- Whether somebody moves depends on whose turn it is and on the agents alone. -/
theorem State.hasMover_of_eq {s t : State} (hc : t.cur = s.cur) (ha : t.agents = s.agents) (h : s.HasMover) : t.HasMover := by
  obtain ⟨id, ag, hm⟩ := h
  obtain ⟨hcur, hag, hl⟩ := State.mover_eq hm
  exact State.hasMover_of (hc.trans hcur) ((congrArg (Tab.find? · id) ha).trans hag) hl

theorem State.hasMover_foldl {α : Type} (l : List α) (f : State → α → State) (hf : ∀ t a, t.HasMover → (f t a).HasMover) :
    ∀ {s : State}, s.HasMover → (l.foldl f s).HasMover := by
  induction l with
  | nil => exact fun h => h
  | cons a l ih => exact fun h => ih (hf _ a h)

theorem State.hasMover_touch {s : State} {pa : Nat} {m : BitVec 2} (h : s.HasMover) : (s.touch pa m).HasMover := h

theorem State.hasMover_putSharers {s : State} {sector : Nat} {es : List SpanEnt} (h : s.HasMover) :
    (s.putSharers sector es).HasMover := h

theorem State.hasMover_dropLineAt {s : State} {k : Nat} (h : s.HasMover) : (s.dropLineAt k).HasMover := h

theorem State.hasMover_rekey {s : State} (slot : BitVec 8) (pa : Nat) (h : s.HasMover) : (s.rekey slot pa).HasMover := by
  unfold State.rekey
  generalize lineAddrs pa = l
  dsimp only
  split
  · exact h
  · split
    · exact h
    · split
      · exact h
      · exact State.hasMover_of_eq rfl rfl (State.hasMover_foldl l
          (fun t a => t.setHome a (s.memRead slot a)) (fun _ _ ht => State.hasMover_of_eq rfl rfl ht) h)

theorem State.hasMover_undrop {s : State} (pa : Nat) (h : s.HasMover) : (s.undrop pa).HasMover := by
  unfold State.undrop
  generalize lineAddrs pa = l
  split
  · exact State.hasMover_of_eq rfl rfl (State.hasMover_foldl l
      (fun t a => t.setHome a 0) (fun _ _ ht => State.hasMover_of_eq rfl rfl ht) h)
  · exact h

theorem State.hasMover_memWrite {s : State} (slot : BitVec 8) (pa : Nat) (b : Byte) (h : s.HasMover) :
    (s.memWrite slot pa b).HasMover :=
  State.hasMover_undrop pa (State.hasMover_rekey slot pa h)

theorem State.hasMover_setPk {s : State} (slot : BitVec 8) (peer : Bool) (pa : Nat) (b : Byte) (h : s.HasMover) :
    (s.setPk slot peer pa b).HasMover := by
  unfold State.setPk State.homeWrite
  dsimp only
  split
  · exact h
  · split
    · exact h
    · exact State.hasMover_memWrite slot pa b h

theorem State.hasMover_backEntry {s : State} (sector : Nat) (e : SpanEnt) (h : s.HasMover) : (s.backEntry sector e).HasMover := by
  unfold State.backEntry
  split
  · refine State.hasMover_foldl _ _ (fun t a ht => ?_) h
    split
    · exact State.hasMover_setPk _ _ _ _ ht
    · exact ht
  · exact h

theorem State.hasMover_pkPutN (slot : BitVec 8) (peer : Bool) (bs : List Byte) :
    ∀ {s : State} (pa : Nat), s.HasMover → (s.pkPutN slot peer pa bs).HasMover := by
  induction bs with
  | nil => exact fun _ h => h
  | cons b bs ih => exact fun {s} pa h => ih (pa + 1) (State.hasMover_setPk (s := (s.touch pa 2).mend pa) slot peer pa b h)

theorem State.hasMover_ioLose {s : State} (sector lo hi : Nat) (h : s.HasMover) : (s.ioLose sector lo hi).HasMover := by
  unfold State.ioLose
  dsimp only
  split
  · exact State.hasMover_foldl _ _ (fun _ e ht => State.hasMover_backEntry sector e ht) h
  · exact h

theorem State.hasMover_pkWriteN {s : State} (slot : BitVec 8) (peer : Bool) (pa : Nat) (bs : List Byte) (h : s.HasMover) :
    (s.pkWriteN slot peer pa bs).HasMover := by
  unfold State.pkWriteN
  split
  · exact h
  · refine State.hasMover_pkPutN slot peer bs pa ?_
    split
    · exact h
    · exact State.hasMover_foldl _ _ (fun _ _ ht => State.hasMover_ioLose _ _ _ ht) h

/-- A change of agents that keeps which of them live. -/
theorem State.hasMover_mapAgents {s : State} (f : Nat × Agent → Nat × Agent) (hf : ∀ e, (f e).1 = e.1 ∧ (f e).2.live = e.2.live)
    (h : s.HasMover) : ({ s with agents := s.agents.map f } : State).HasMover := by
  obtain ⟨id, ag, hm⟩ := h
  obtain ⟨hc, ha, hl⟩ := State.mover_eq hm
  have hfind : ∀ (t : Tab Agent), Tab.find? t id = some ag →
      ∃ x, Tab.find? (t.map f) id = some x ∧ x.live = true := by
    intro t
    induction t with
    | nil => intro ht; cases ht
    | cons e t ih =>
      intro ht
      obtain ⟨k, a⟩ := e
      obtain ⟨hk, hlive⟩ := hf (k, a)
      rw [Tab.find?] at ht
      rw [List.map_cons, show f (k, a) = (k, (f (k, a)).2) from Prod.ext hk rfl, Tab.find?]
      split at ht
      · cases ht
        exact ⟨_, if_pos ‹_›, hlive.trans hl⟩
      · rw [if_neg ‹_›]
        exact ih ht
  obtain ⟨x, hx, hxl⟩ := hfind s.agents ha
  exact State.hasMover_of hc hx hxl

/-- Waking who waits on a line ends no agent. -/
theorem State.hasMover_wakePa {s : State} (pa : Nat) (h : s.HasMover) : (s.wakePa pa).HasMover := by
  refine State.hasMover_mapAgents _ (fun e => ?_) h
  split
  · split
    · exact ⟨rfl, rfl⟩
    · split
      · split <;> exact ⟨rfl, rfl⟩
      · exact ⟨rfl, rfl⟩
  · exact ⟨rfl, rfl⟩

theorem State.hasMover_pkStore {s : State} (slot : BitVec 8) (peer : Bool) (pa : Nat) (bs : List Byte) (h : s.HasMover) :
    (s.pkStore slot peer pa bs).HasMover :=
  State.hasMover_foldl _ _ (fun _ _ ht => State.hasMover_wakePa _ ht) (State.hasMover_pkWriteN slot peer pa bs h)

theorem State.hasMover_ringAppend {s : State} (n : Nat) (reg : DWord) (rec : List Byte) (h : s.HasMover) :
    (s.ringAppend n reg rec).HasMover := by
  unfold State.ringAppend
  extract_lets tail base cap t
  have ht : t.HasMover := by
    unfold t
    split
    · exact State.hasMover_pkStore _ _ _ _ (State.hasMover_pkStore _ _ _ _ h)
    · exact h
  exact ht

theorem State.hasMover_raiseEvent {s : State} (p : Nat) (e : PolEvent) (h : s.HasMover) : (s.raiseEvent p e).HasMover := by
  unfold State.raiseEvent
  dsimp only
  split
  · exact h
  · split <;> exact h

theorem State.hasMover_record {s : State} (part : Nat) (e : ErrRec) (j : JobRef) (unit : Word) (h : s.HasMover) :
    (s.record part e j unit).HasMover :=
  State.hasMover_foldl _ _ (fun _ _ ht => State.hasMover_raiseEvent _ _ ht)
    (State.hasMover_ringAppend _ _ _ (State.hasMover_ringAppend _ _ _ h))

theorem State.hasMover_recordRs {s : State} (part : Nat) (e : ErrRec) (h : s.HasMover) : (s.recordRs part e).HasMover :=
  State.hasMover_ringAppend _ _ _ h

theorem State.hasMover_evictLine {s : State} (k : Nat) (h : s.HasMover) : (s.evictLine k).HasMover := by
  have hback : ∀ l : OLine, (s.backLine l).HasMover := by
    intro l
    refine State.hasMover_foldl _ _ (fun t i ht => ?_) h
    split
    · exact State.hasMover_memWrite _ _ _ ht
    · exact ht
  unfold State.evictLine
  split
  · exact State.hasMover_dropLineAt (hback _)
  · exact h

theorem State.hasMover_fillAt {s : State} (slot : BitVec 8) (pa w : Nat) (h : s.HasMover) : (s.fillAt slot pa w).HasMover := by
  unfold State.fillAt
  generalize lineAddrs pa = l
  dsimp only
  split
  · exact State.hasMover_evictLine _ h
  · exact h

theorem State.hasMover_fillLine {s : State} (part : Nat) (slot : BitVec 8) (pa : Nat) (h : s.HasMover) :
    (s.fillLine part slot pa).HasMover := by
  unfold State.fillLine
  split
  · exact h
  · extract_lets cache ways
    split
    · exact h
    · split
      rename_i n t hd
      have ht : t.HasMover := by cases hd; exact State.hasMover_of_eq (s := s) rfl rfl h
      dsimp only
      split
      · exact ht
      · exact State.hasMover_fillAt _ _ _ ht

theorem State.hasMover_sample {s : State} (part pa : Nat) (h : s.HasMover) : (s.sample part pa).HasMover := by
  unfold State.sample
  dsimp only
  split <;> exact h

theorem State.hasMover_corrected {s : State} (orng : Bool) (pa : Nat) (h : s.HasMover) : (s.corrected orng pa).HasMover := by
  unfold State.corrected
  dsimp only
  split
  · split
    · exact State.hasMover_recordRs _ _ h
    · exact h
  · exact h
  · split
    · exact State.hasMover_recordRs _ _ h
    · exact h

theorem State.hasMover_loseLine {s : State} (w set : Nat) (h : s.HasMover) : (s.loseLine w set).HasMover := by
  unfold State.loseLine
  dsimp only
  split
  · exact State.hasMover_record _ _ _ _ h
  · exact h

theorem State.hasMover_dropBlock {s : State} (k : Nat) (l : OLine) (pa : Nat) (h : s.HasMover) : (s.dropBlock k l pa).HasMover := by
  unfold State.dropBlock
  dsimp only
  split <;> exact h

theorem State.hasMover_eccEvent {s : State} (slot : BitVec 8) (pa n : Nat) (e : Ecc) (h : s.HasMover) :
    (s.eccEvent slot pa n e).1.HasMover := by
  have h' : ({ s with ms := { s.ms with latent := Tab.erase s.ms.latent (pa / 64) } } : State).HasMover := h
  unfold State.eccEvent
  dsimp only
  split
  · exact h
  · split
    · exact h'
    · split
      · exact State.hasMover_corrected _ _ h'
      · split
        · exact State.hasMover_corrected _ _ h'
        · exact h'
    · split
      · split
        · exact State.hasMover_dropBlock _ _ _ h'
        · exact h'
      · split <;> exact h'
    · split
      · exact State.hasMover_loseLine _ _ h'
      · exact h'

/-- A read that arrives at the package store. -/
theorem State.hasMover_arriveRead {s : State} (part : Nat) (slot : BitVec 8) (pa n : Nat) (ecc : Ecc) (h : s.HasMover) :
    (s.arriveRead part slot pa n ecc).1.HasMover := by
  have he := State.hasMover_eccEvent slot pa n ecc (State.hasMover_sample (s := s.touch pa 1) part pa h)
  unfold State.arriveRead
  dsimp only
  split
  · exact he
  · split
    · exact he
    · exact State.hasMover_fillLine _ _ _ he

theorem State.hasMover_spanFill {s : State} (sector : Nat) (e : SpanEnt) (write : Bool) (h : s.HasMover) :
    (s.spanFill sector e write).HasMover := by
  have hr : (s.spanRoom sector e.peer).HasMover := by
    unfold State.spanRoom
    dsimp only
    split
    · split
      · exact State.hasMover_backEntry sector _ h
      · exact h
    · exact h
  unfold State.spanFill
  dsimp only
  split <;> exact hr

theorem State.hasMover_spanLose {s : State} (sector lo hi : Nat) (keep : SpanEnt → Bool) (h : s.HasMover) :
    (s.spanLose sector lo hi keep).HasMover := by
  have hb : (s.backCrowded sector lo hi).HasMover :=
    State.hasMover_foldl _ _ (fun _ e ht => State.hasMover_backEntry _ e ht) h
  exact hb

theorem State.hasMover_spanRun {s : State} (r : SpanReq) (h : s.HasMover) : (s.spanRun r).HasMover := by
  unfold State.spanRun
  dsimp only
  split
  · split
    · exact h
    · exact State.hasMover_foldl _ _ (fun _ _ ht => State.hasMover_spanFill _ _ _ ht) (State.hasMover_putSharers h)
  · split
    · exact h
    · split
      · exact State.hasMover_putSharers (State.hasMover_touch (State.hasMover_spanLose _ _ _ _ h))
      · exact State.hasMover_spanFill _ _ _ (State.hasMover_spanLose _ _ _ _ h)
  · exact h
  · have hw := State.hasMover_foldl ((s.sharers r.sector).filter (fun e => e.meets r.lo r.hi)) _
      (fun _ e ht => State.hasMover_backEntry r.sector e ht) h
    exact State.hasMover_spanLose _ _ _ _ (State.hasMover_touch hw)

theorem State.hasMover_agentRead {s : State} (ag : Agent) (unc : Bool) (slot : BitVec 8) (pa n : Nat) (ecc : Ecc)
    (h : s.HasMover) : (s.agentRead ag unc slot pa n ecc).1.HasMover := by
  unfold State.agentRead State.askWords
  dsimp only
  apply State.hasMover_arriveRead
  split
  · split
    · exact h
    · exact State.hasMover_foldl _ _ (fun _ _ ht => State.hasMover_spanRun _ ht) h
  · exact h

theorem State.hasMover_noteWalk {s : State} (part : Nat) (k : VKey) (h : s.HasMover) : (s.noteWalk part k).HasMover := by
  refine State.hasMover_foldl _ _ (fun t pa ht => ?_) h
  have ha := State.hasMover_arriveRead part 0 pa 8 .clean ht
  split <;> rename_i he <;> rw [he] at ha
  · exact State.hasMover_record _ _ _ _ ha
  · exact ha

theorem State.hasMover_noteAgXlat {s : State} (ag : Agent) (x : Xlat) (h : s.HasMover) : (s.noteAgXlat ag x).HasMover := by
  unfold State.noteAgXlat State.noteXlat
  split
  · exact h
  · split
    · exact h
    · exact State.hasMover_noteWalk _ _ h

/-- A change of one agent that does not end it. -/
theorem State.hasMover_putAgent {s : State} {n : Nat} {a x : Agent} (ha : s.agent? n = some a) (hx : x.live = a.live)
    (h : s.HasMover) : (s.putAgent n x).HasMover := by
  obtain ⟨id, ag, hm⟩ := h
  obtain ⟨hc, hi, hl⟩ := State.mover_eq hm
  by_cases hn : id = n
  · subst hn
    rw [ha] at hi
    cases hi
    exact State.hasMover_of hc (Tab.find?_put_self _ _ _) (hx.trans hl)
  · exact State.hasMover_of hc ((Tab.find?_put_ne _ _ hn).trans hi) hl

theorem State.hasMover_noteRead {s : State} (id : Nat) (ag : Agent) (x : Xlat) (pa n : Nat) (h : s.HasMover) :
    (s.noteRead id ag x pa n).HasMover := by
  have ha := State.hasMover_agentRead ag (pteUnc x.pte) (pteSlot x.pte) pa n .clean (State.hasMover_noteAgXlat ag x h)
  unfold State.noteRead State.updAgent
  split <;> rename_i he <;> rw [he] at ha
  next t k =>
    have hr : (t.recordLoss k ag.part (pteSlot x.pte) pa ag.die ag.jobRef ag.unitWord).HasMover := State.hasMover_record _ _ _ _ ha
    split
    next a hx => exact State.hasMover_putAgent hx rfl hr
    · exact hr
  · exact ha

/-- Fetching a run header leaves the agent that fetches it the mover (R130, R287). -/
theorem State.hasMover_keepCode {s : State} (id : Nat) (ag : Agent) (hs : List Fetched) (h : s.HasMover) :
    (s.keepCode id ag hs).HasMover := by
  have hr := State.hasMover_foldl
    ((hs.filterMap (fun h => h.x.map (fun x => (h.pa, x)))).zipIdx.filter (fun p =>
      !(((hs.filterMap (fun h => h.x.map (fun x => (h.pa, x)))).take p.2).any (fun q => q.1 / 64 == p.1.1 / 64)))) _
    (fun _ p ht => State.hasMover_noteRead id ag p.1.2 p.1.1 2 ht) h
  exact hr

/-! ### What the next step names can be carried out -/

theorem exec_of_package {i : Instr} (hi : i.issuer = .package) (s : State) : ∃ t, exec i s = .next t := by
  have h := execForm i s
  rwa [hi] at h

theorem exec_of_agent {i : Instr} {s : State} (hi : i.issuer = .agent) (hm : s.HasMover) : ∃ t, exec i s = .next t := by
  have h := execForm i s
  rw [hi] at h
  obtain ⟨k, hk⟩ := h
  obtain ⟨id, ag, hm⟩ := hm
  exact ⟨_, hk.trans (onMover_of k hm)⟩

theorem exec_of_policy {i : Instr} {s : State} {p : Nat} {d : Decision} (hi : i.issuer = .policy) (hc : s.cur = .policy p)
    (hd : (s.pol p).dec = some d) : ∃ t, exec i s = .next t := by
  have h := execForm i s
  rw [hi] at h
  obtain ⟨cost, k, hk⟩ := h
  exact ⟨_, hk.trans (onDec_of cost k hc hd)⟩

/-- What a plan names can be carried out in the state it leaves. -/
def CanRun (p : State × Option Instr) : Prop := ∀ i, p.2 = some i → ∃ t, exec i p.1 = .next t

theorem canRun_none (s : State) : CanRun (s, none) := nofun

theorem canRun_some {s : State} {i : Instr} (h : ∃ t, exec i s = .next t) : CanRun (s, some i) := fun _ hi => by
  cases hi; exact h

/-- A step of the package that is due answers a next state: that is what being due means (log 7). -/
theorem canRun_ownStep (s : State) : CanRun (s, s.ownStep) := by
  intro i hi
  have he : s.enabled i = true := List.find?_some hi
  unfold State.enabled at he
  split at he
  next t ht => exact ⟨t, ht⟩
  · cases he

theorem Run.next_issuer {r : Run} {i : Instr} (h : r.next = .ok i) : i.issuer = .agent := by
  unfold Run.next at h
  dsimp only at h
  split at h
  · exact fromAgents_decode _ i h
  · split at h
    · split at h
      · exact fromAgents_decode _ i h
      · cases h
    · cases h

theorem canRun_inRunTurn {s : State} {id : Nat} {ag : Agent} (hc : s.cur = .agent id) (hl : ag.live = true) :
    CanRun (s.inRunTurn id ag) := by
  unfold State.inRunTurn
  split
  next i hi =>
    split
    · exact canRun_none _
    · exact canRun_some (exec_of_agent (Run.next_issuer hi) (State.hasMover_of hc (Tab.find?_put_self _ _ _) hl))
  · exact canRun_none _

theorem canRun_boundaryTurn {s : State} (id : Nat) (ag : Agent) (hm : s.HasMover) : CanRun (s.boundaryTurn id ag) := by
  unfold State.boundaryTurn
  dsimp only
  split
  · exact canRun_none _
  · split
    · exact canRun_none _
    · split
      · exact canRun_none _
      · exact canRun_none _
      · split
        · exact canRun_some (exec_of_agent rfl (State.hasMover_keepCode id ag _ hm))
        · exact canRun_none _

theorem State.live_of_canMove {s : State} {id : Nat} {ag : Agent} (h : s.canMove id ag = true) : ag.live = true := by
  unfold State.canMove at h
  exact (Bool.and_eq_true_iff.mp h).1

theorem canRun_agentTurn {s : State} {id : Nat} {ag : Agent} (hc : s.cur = .agent id) (ha : s.agent? id = some ag) :
    CanRun (s.agentTurn id ag) := by
  unfold State.agentTurn
  split
  · exact canRun_none _
  next hmove =>
    have hl : ag.live = true := State.live_of_canMove (by simpa using hmove)
    split
    · exact canRun_none _
    · split
      · exact canRun_some (exec_of_package rfl s)
      · split
        · exact canRun_none _
        · split
          · exact canRun_inRunTurn hc hl
          · exact canRun_boundaryTurn id ag (State.hasMover_of hc ha hl)

theorem canRun_policyTurn {s : State} {p : Nat} (hc : s.cur = .policy p) : CanRun (s.policyTurn p) := by
  unfold State.policyTurn
  split
  · exact canRun_none _
  next d hd =>
    split
    · exact canRun_none _
    · split
      next i hi => exact canRun_some (exec_of_policy (issuer_of_decPol hi) hc hd)
      · exact canRun_none _

/-- Whatever the next step names, it can be carried out (log 7). -/
theorem canRun_plan (s : State) : CanRun s.plan := by
  unfold State.plan
  split
  · exact canRun_none _
  · split
    next he => exact canRun_some (exec_of_package (by rw [Instr.issuer, he]; rfl) _)
    · exact canRun_none _
  · split
    · exact canRun_ownStep _
    · split
      · exact canRun_ownStep _
      next p hc => exact canRun_policyTurn hc
      next id hc =>
        split
        next ag ha => exact canRun_agentTurn hc ha
        · exact canRun_none _

theorem step_goesOn (s : State) : GoesOn s := by
  have hrun := canRun_plan s.tick
  unfold GoesOn step
  split
  next t i hp =>
    rw [hp] at hrun
    exact hrun i rfl
  next t hp => exact ⟨t, rfl⟩

end Sys2Proof.Machine

namespace Sys2Proof.Settled
open Sys2Proof Sys2Proof.Machine

/-- Settles O29: whatever the plan of a step names, its issuer is there: an agent that lives, a decision in progress, or the
package itself. -/
theorem everyStepGoesOn : Obligations.EveryStepGoesOn := step_goesOn

end Sys2Proof.Settled
end

section
/-! The state after reset (R19, R32): its tables are empty or listed, so what they read is read off. -/
namespace Sys2Proof.Machine

/-- A table made of a list's entries that are not 0, keyed by their place from `k` on, reads as the list. -/
theorem get_zipIdx_filterMap (l : List Word) : ∀ k n : Nat,
    Tab.get 0 ((l.zipIdx k).filterMap (fun e => if e.1 = 0 then none else some (e.2, e.1))) (k + n) = nth 0 l n ∧
    ∀ m, m < k → Tab.find? ((l.zipIdx k).filterMap (fun e => if e.1 = 0 then none else some (e.2, e.1))) m = none := by
  induction l with
  | nil => exact fun k n => ⟨rfl, fun m _ => rfl⟩
  | cons w l ih =>
    intro k n
    have hlow : ∀ m, m < k + 1 → Tab.find? ((l.zipIdx (k + 1)).filterMap
        (fun e => if e.1 = 0 then none else some (e.2, e.1))) m = none := fun m hm => (ih (k + 1) 0).2 m hm
    rw [List.zipIdx_cons, List.filterMap_cons]
    by_cases hw : w = 0
    · simp only [hw, if_true]
      refine ⟨?_, fun m hm => hlow m (by omega)⟩
      cases n with
      | zero => simp only [Nat.add_zero, Tab.get, hlow k (by omega)]; rfl
      | succ n => rw [show k + (n + 1) = k + 1 + n by omega, (ih (k + 1) n).1]; simp [nth]
    · simp only [hw, if_false]
      refine ⟨?_, fun m hm => ?_⟩
      · cases n with
        | zero => simp [Tab.get, Tab.find?, nth]
        | succ n =>
          have := (ih (k + 1) n).1
          rw [Tab.get] at this
          rw [Tab.get, Tab.find?, if_neg (by omega), show k + (n + 1) = k + 1 + n by omega, this]
          simp [nth]
      · rw [Tab.find?, if_neg (by omega), hlow m (by omega)]

/-- After reset the capability table reads as the Reset column (R18, R19). -/
theorem reset_cap (n : Nat) : Tab.get 0 State.reset.rot.cap n = nth 0 capReset n := by
  have h := (get_zipIdx_filterMap capReset 0 n).1
  rw [Nat.zero_add] at h
  exact h

/-- After reset key slot 0 alone is loaded (R32). -/
theorem reset_keys {n : Nat} (h : n ≠ 0) : Tab.find? State.reset.ms.keys n = none :=
  if_neg (Ne.symm h)

/-- After reset every byte of the package store reads 0 (log 1). -/
theorem reset_pkRead (slot : BitVec 8) (pa : Nat) : State.reset.pkRead slot pa = 0 := by
  show State.reset.memRead slot pa = 0
  unfold State.memRead
  split
  · rfl
  · split <;> rfl

/-- An agent starts with every register of its files at 0. -/
theorem newAgent_sGet (n : Nat) : ({} : Agent).sGet n = 0 := by
  unfold Agent.sGet
  split <;> rfl

theorem newAgent_vGet (r l : Nat) : ({} : Agent).vGet r l = 0 := rfl

end Sys2Proof.Machine

namespace Sys2Proof.Settled
open Sys2Proof Sys2Proof.Machine

/-- Settles O31: the tables of the state after reset are empty but for the capability table and key slot 0. -/
theorem resetState : Obligations.ResetState :=
  ⟨reset_mem_wf, rfl, rfl, rfl, rfl, fun _ h => reset_keys h, rfl, rfl, reset_cap, rfl, fun _ => rfl, fun _ => rfl, fun _ => rfl,
    rfl, rfl, rfl, rfl, fun _ => ⟨rfl, rfl, rfl, rfl, rfl, rfl, rfl⟩, rfl, rfl, rfl, rfl, rfl, rfl, rfl, rfl, rfl, rfl, rfl,
    reset_pkRead, rfl, rfl, rfl, rfl, rfl, rfl, rfl, fun _ => rfl, newAgent_sGet, newAgent_vGet⟩

end Sys2Proof.Settled
end

section
/-! Memory, read after write (R16, R31, R35, R218, R268): what a write of the package store changes at other addresses, where
neither a key nor a peer cache nor a line of the Orangery stands between the reader and memory. -/
namespace Sys2Proof.Machine

/-- At an address without key slots memory gives its own byte, whatever the slot (R31). -/
theorem State.memRead_unkeyed (s : State) (slot : BitVec 8) {pa : Nat} (h : keyed pa = false) :
    s.memRead slot pa = if s.isDropped pa then 0 else s.homeByte pa := by
  simp [State.memRead, h]

/-- A line in use is written without a change of its key or marker (R31, R42). -/
theorem State.memWrite_unkeyed (s : State) (slot : BitVec 8) {pa : Nat} (b : Byte) (h : keyed pa = false)
    (hd : s.isDropped pa = false) : s.memWrite slot pa b = s.setHome pa b := by
  simp [State.memWrite, State.rekey, State.undrop, h, hd]

/-- The Orangery holds no line of the sector, so no slot hits (R36). -/
theorem State.hit?_none {s : State} {pa : Nat} (h : ∀ e ∈ s.ms.orng, e.2.sector ≠ pa / 256) (slot : BitVec 8) :
    s.hit? slot pa = none := by
  have : s.oline? slot pa = none := List.find?_eq_none.2 fun e he => by simp [h e he]
  simp [State.hit?, this]

/-- No peer is in the sector's sharer list, so no entry owns the byte (R265). -/
theorem State.ownerOf_none {s : State} {pa : Nat} (h : s.sharers (pa / 256) = []) : s.ownerOf pa = none := by
  simp [State.ownerOf, h]

/-- Writing at the home what its owner's slot reads keeps what that slot reads (R218, R268). -/
theorem State.writeBack_reads (s : State) (pa : Nat) :
    (s.writeBack pa).pkRead (((s.ownerOf pa).map (fun e => e.slot)).getD 0) pa =
        s.pkRead (((s.ownerOf pa).map (fun e => e.slot)).getD 0) pa ∧
      (s.writeBack pa).homeRead (((s.ownerOf pa).map (fun e => e.slot)).getD 0) pa =
        s.pkRead (((s.ownerOf pa).map (fun e => e.slot)).getD 0) pa := by
  unfold State.writeBack
  cases hd : Tab.find? s.ms.dirty pa with
  | none => exact ⟨rfl, by simp [State.pkRead, State.peerByte, hd]⟩
  | some b =>
    have hr : s.pkRead (((s.ownerOf pa).map (fun e => e.slot)).getD 0) pa = b := by
      cases ho : s.ownerOf pa <;> simp [State.pkRead, State.peerByte, hd, ho]
    rw [hr]
    exact ⟨State.pkRead_setPk_home _ _ _ _, State.homeRead_homeWrite_self _ _ _ _⟩

/-- What the package store gives at an address without key slots depends on the peer's byte and its owner, the Orangery, the
marker and memory's byte. -/
theorem State.pkRead_unkeyed_congr {s t : State} {r : BitVec 8} {q : Nat} (hk : keyed q = false)
    (hy : Tab.find? t.ms.dirty q = Tab.find? s.ms.dirty q) (hd : t.ms.dir = s.ms.dir) (ho : t.ms.orng = s.ms.orng)
    (hx : t.ms.dropped = s.ms.dropped) (hb : t.homeByte q = s.homeByte q) : t.pkRead r q = s.pkRead r q := by
  have hp : t.peerByte r q = s.peerByte r q := by simp only [State.peerByte, State.ownerOf, State.sharers, hy, hd]
  have hh : t.hit? r q = s.hit? r q := by simp only [State.hit?, State.oline?, ho]
  have hz : t.isDropped q = s.isDropped q := by rw [State.isDropped, State.isDropped, hx]
  have hm : t.memRead r q = s.memRead r q := by rw [State.memRead_unkeyed _ _ hk, State.memRead_unkeyed _ _ hk, hz, hb]
  rw [State.pkRead, State.pkRead, State.homeRead, State.homeRead, hp, hh, hm]

/-- A write into a peer cache is read back under any slot where no entry owns the byte. -/
theorem State.pkRead_pkWrite_peer_self {s : State} {pa : Nat} (h : s.sharers (pa / 256) = []) (slot r : BitVec 8) (b : Byte) :
    (s.pkWrite slot true pa b).pkRead r pa = b := by
  have hf : Tab.find? (s.pkWrite slot true pa b).ms.dirty pa = some b := Tab.find?_put_self _ _ _
  have ho : (s.pkWrite slot true pa b).ownerOf pa = none := State.ownerOf_none (s := s.pkWrite slot true pa b) h
  simp [State.pkRead, State.peerByte, hf, ho]

/-- A write into a peer cache leaves what is read at another address without key slots. -/
theorem State.pkRead_pkWrite_peer_ne (s : State) (slot r : BitVec 8) (pa : Nat) (b : Byte) {q : Nat} (hq : q ≠ pa)
    (hkq : keyed q = false) : (s.pkWrite slot true pa b).pkRead r q = s.pkRead r q :=
  State.pkRead_unkeyed_congr hkq (Tab.find?_put_ne _ _ hq) rfl rfl rfl rfl

section
variable {s : State} {pa : Nat} (hk : keyed pa = false) (hd : s.isDropped pa = false)
  (ho : ∀ e ∈ s.ms.orng, e.2.sector ≠ pa / 256)
include hk hd ho

/-- At such an address, the home takes a write into memory itself. -/
theorem State.homeWrite_unkeyed (slot : BitVec 8) (b : Byte) :
    ((s.touch pa 2).mend pa).homeWrite slot pa b = ((s.touch pa 2).mend pa).setHome pa b := by
  have hh : ((s.touch pa 2).mend pa).hit? slot pa = none := State.hit?_none (s := (s.touch pa 2).mend pa) ho slot
  rw [State.homeWrite, hh]
  exact State.memWrite_unkeyed _ _ _ hk hd

theorem State.homeByte_pkWrite_home (slot : BitVec 8) (b : Byte) (q : Nat) :
    (s.pkWrite slot false pa b).homeByte q = (s.setHome pa b).homeByte q := by
  show (((s.touch pa 2).mend pa).homeWrite slot pa b).homeByte q = _
  rw [State.homeWrite_unkeyed hk hd ho]
  rfl

/-- The home's write ends the peer's byte and leaves the sharer lists, the Orangery and the markers. -/
theorem State.pkWrite_home_rest (slot : BitVec 8) (b : Byte) :
    (s.pkWrite slot false pa b).ms.dirty = Tab.erase s.ms.dirty pa ∧ (s.pkWrite slot false pa b).ms.dir = s.ms.dir ∧
      (s.pkWrite slot false pa b).ms.orng = s.ms.orng ∧ (s.pkWrite slot false pa b).ms.dropped = s.ms.dropped := by
  have hm : (((s.touch pa 2).mend pa).homeWrite slot pa b).ms = ((s.touch pa 2).mend pa).ms := by
    rw [State.homeWrite_unkeyed hk hd ho]
    rfl
  refine ⟨?_, ?_, ?_, ?_⟩
  · show Tab.erase (((s.touch pa 2).mend pa).homeWrite slot pa b).ms.dirty pa = _
    rw [hm]
    rfl
  · show (((s.touch pa 2).mend pa).homeWrite slot pa b).ms.dir = _
    rw [hm]
    rfl
  · show (((s.touch pa 2).mend pa).homeWrite slot pa b).ms.orng = _
    rw [hm]
    rfl
  · show (((s.touch pa 2).mend pa).homeWrite slot pa b).ms.dropped = _
    rw [hm]
    rfl

/-- The home's write is read back under any slot. -/
theorem State.pkRead_pkWrite_home_self (slot r : BitVec 8) (b : Byte) : (s.pkWrite slot false pa b).pkRead r pa = b := by
  obtain ⟨hy, -, hg, hx⟩ := State.pkWrite_home_rest hk hd ho slot b
  have hhit : (s.pkWrite slot false pa b).hit? r pa = none := State.hit?_none (by rw [hg]; exact ho) r
  have hdrop : (s.pkWrite slot false pa b).isDropped pa = false := by rw [State.isDropped, hx]; exact hd
  have hpeer : (s.pkWrite slot false pa b).peerByte r pa = none := by simp [State.peerByte, hy]
  simp [State.pkRead, hpeer, State.homeRead, hhit, State.memRead_unkeyed _ _ hk, hdrop, State.homeByte_pkWrite_home hk hd ho]

/-- The home's write leaves what is read at another address without key slots. -/
theorem State.pkRead_pkWrite_home_ne (slot r : BitVec 8) (b : Byte) {q : Nat} (hq : q ≠ pa) (hkq : keyed q = false) :
    (s.pkWrite slot false pa b).pkRead r q = s.pkRead r q := by
  obtain ⟨hy, hdir, hg, hx⟩ := State.pkWrite_home_rest hk hd ho slot b
  refine State.pkRead_unkeyed_congr hkq ?_ hdir hg hx ?_
  · rw [hy, Tab.find?_erase_ne _ hq]
  · rw [State.homeByte_pkWrite_home hk hd ho, State.homeByte_setHome_ne _ _ hq]

end

/-- Memory gives the bits that the reader's key decrypts from a block written under another (R31, R35). -/
theorem State.homeRead_crossKey {s : State} {slot : BitVec 8} {pa kw : Nat} (hk : keyed pa = true) (hd : s.isDropped pa = false)
    (hh : s.hit? slot pa = none) (hl : Tab.find? s.ms.lineKey (pa / 64) = some kw) (hne : kw ≠ s.keyOf slot) :
    s.homeRead slot pa = nth 0 (crossRead kw (s.keyOf slot) pa (s.blockOf pa)) (pa % 16) := by
  simp [State.homeRead, hh, State.memRead, hd, hk, hl, hne]

end Sys2Proof.Machine

namespace Sys2Proof.Settled
open Sys2Proof Sys2Proof.Machine

/-- Settles O41: memory is a table, so a byte reads back and the others stay; the package store adds a peer's byte, the
Orangery's line, the marker and the line's key, each of which a clause either names or excludes. -/
theorem memoryReadAfterWrite : Obligations.MemoryReadAfterWrite := by
  refine ⟨fun s pa b h => ⟨?_, fun q hq => ?_, ?_⟩, reset_mem_wf, fun s u off bs h => ⟨?_, ?_, fun pa hpa => ?_⟩,
    fun s slot pa b => ⟨?_, ?_⟩, fun s slot r pa b hk hd hs ho => ⟨?_, ?_, ?_, rfl, fun q hq hkq => ⟨?_, ?_⟩⟩,
    fun s pa o ho => ?_, fun s slot pa kw hk hd hh hl hne => ?_⟩
  · exact State.homeByte_setHome_self s pa b
  · exact State.homeByte_setHome_ne s b hq
  · exact State.inv_setHome pa b h
  · exact State.spadRead_spadWrite s u off bs
  · exact State.inv_spadWrite u bs off h
  · exact State.homeByte_spadWrite_ne u bs s off pa fun i hi => by omega
  · exact State.pkRead_setPk_home _ slot pa b
  · exact State.homeRead_homeWrite_self _ slot pa b
  · exact State.pkRead_pkWrite_home_self hk hd ho slot r b
  · exact State.pkRead_pkWrite_peer_self hs slot r b
  · rw [State.homeByte_pkWrite_home hk hd ho, State.homeByte_setHome_self]
  · exact State.pkRead_pkWrite_home_ne hk hd ho slot r b hq hkq
  · exact State.pkRead_pkWrite_peer_ne s slot r pa b hq hkq
  · subst ho; exact State.writeBack_reads s pa
  · exact State.homeRead_crossKey hk hd hh hl hne

end Sys2Proof.Settled
end

section
/-! CSRR, CAPR, WFI and IFENCE (R18, R101 to R103, R254, R352): what each control register holds, and when the profile has it. -/
namespace Sys2Proof.Machine

section
variable {s : State} {id : Nat} {ag : Agent} {g : BitVec 2} (hm : s.mover = some (id, ag)) (hi : ag.Issues g)
include hm hi

/-- CSRR of a register other than `ntime` that the profile has; `rstat` also waits for the agent's SFU entries. -/
theorem csrr_of {d n : BitVec 6} (hc : csrHere ag.profile n = true) (hb : n = 2 → s.sfuBusy id ag = false) (hn : n ≠ 4) :
    exec (.csrr g d n) s =
      .next (retire s id (if csr64 n then ag.pSet d.toNat (s.csr ag n)
        else ag.sSet d.toNat ((s.csr ag n).extractLsb' 0 32))) := by
  refine (issue_of _ hm hi.2 rfl).trans ?_
  have hf : ¬(ag.profile = .wave ∧ (!ag.fires g) = true) := fun h => by simp [hi.1 h.1] at h
  have hw : ¬(n = 2 ∧ s.sfuBusy id ag = true) := fun h => by simp [hb h.1] at h
  simp only [hc, Bool.not_true, Bool.false_eq_true, if_false, hf, hw, hn]

/-- CSRR of a 32-bit register puts its value in s[D]. -/
theorem csrr_word {d n : BitVec 6} {w : Word} (hc : csrHere ag.profile n = true) (hb : n = 2 → s.sfuBusy id ag = false)
    (hn : n ≠ 4) (h64 : csr64 n = false) (hv : s.csr ag n = w.zeroExtend 64) :
    exec (.csrr g d n) s = .next (retire s id (ag.sSet d.toNat w)) := by
  rw [csrr_of hm hi hc hb hn, h64, hv, extract_zeroExtend]
  rfl

/-- CSRR of a register that the profile lacks takes the illegal-profile trap (R101). -/
theorem csrr_absent {d n : BitVec 6} (hc : csrHere ag.profile n = false) :
    exec (.csrr g d n) s = .next (trapHere s id ag 0x03 ag.run.word) := by
  refine (issue_of _ hm hi.2 rfl).trans ?_
  simp only [hc, Bool.not_false, if_true]
  rfl

/-- CSRR of `rstat` waits while an SFU entry of the agent is in the queue (R183). -/
theorem csrr_rstat_waits {d : BitVec 6} (hb : s.sfuBusy id ag = true) :
    exec (.csrr g d 2) s = .next (waitFor s id ag .again) := by
  refine (issue_of _ hm hi.2 rfl).trans ?_
  have hf : ¬(ag.profile = .wave ∧ (!ag.fires g) = true) := fun h => by simp [hi.1 h.1] at h
  simp only [csrHere_any (p := ag.profile) (n := 2) (by decide), Bool.not_true, Bool.false_eq_true, if_false, hf, hb, and_self,
    if_true]

/-- CSRR of `ntime` gives the agent's reading of the time and keeps it as its last (R254). -/
theorem csrr_ntime {d : BitVec 6} :
    exec (.csrr g d 4) s = .next (retire s id (({ ag with lastT := s.time ag } : Agent).pSet d.toNat (s.time ag))) := by
  refine (issue_of _ hm hi.2 rfl).trans ?_
  have hf : ¬(ag.profile = .wave ∧ (!ag.fires g) = true) := fun h => by simp [hi.1 h.1] at h
  have h4 : ¬((4 : BitVec 6) = 2 ∧ s.sfuBusy id ag = true) := fun h => absurd h.1 (by decide)
  simp only [csrHere_any (p := ag.profile) (n := 4) (by decide), Bool.not_true, Bool.false_eq_true, if_false, hf, h4, if_true]
  rfl

/-- WFI completes with an entry of the event queue, or once its millisecond has passed (R352). -/
theorem wfi_completes (hp : ag.profile = .host) (h : s.plat.hostQ ≠ [] ∨ ∃ t, ag.wait = .wfi true t) :
    exec (.wfi g) s = .next (retire s id ag) := by
  refine (issue_of _ hm hi.2 (by rw [hp]; rfl)).trans ?_
  rcases h with h | ⟨t, ht⟩
  · have he : s.plat.hostQ.isEmpty = false := by simpa using h
    simp only [he, Bool.not_false, Bool.or_true, if_true]
    split <;> rfl
  · simp only [ht, Bool.true_or, if_true]

/-- WFI that has not waited yet starts its wait now. -/
theorem wfi_starts (hp : ag.profile = .host) (hq : s.plat.hostQ = []) (hw : ∀ out t, ag.wait ≠ .wfi out t) :
    exec (.wfi g) s = .next (waitFor s id ag (.wfi false s.ntime)) := by
  refine (issue_of _ hm hi.2 (by rw [hp]; rfl)).trans ?_
  simp only [hq, List.isEmpty_nil, Bool.not_true, Bool.false_eq_true, if_false]

/-- WFI that waits goes on waiting. -/
theorem wfi_waits (hp : ag.profile = .host) (hq : s.plat.hostQ = []) {t : DWord} (hw : ag.wait = .wfi false t) :
    exec (.wfi g) s = .next (waitFor s id ag (.wfi false t)) := by
  refine (issue_of _ hm hi.2 (by rw [hp]; rfl)).trans ?_
  simp only [hw, hq, List.isEmpty_nil, Bool.not_true, Bool.or_false, Bool.false_eq_true, if_false]

/-- IFENCE waits for its release and then discards the unit's fetched code (R352). -/
theorem ifence_of : exec (.ifence g) s =
    .next (if s.releaseReady id ag 3 (ag.nextTag + 1) then
        retire { s with ms := { s.ms with
          code := Tab.erase s.ms.code ag.codeUnit, own := Tab.erase s.ms.own ag.codeUnit } } id ag
      else waitFor s id ag .again) := by
  refine (issueOnce_of _ hm hi rfl).trans ?_
  cases s.releaseReady id ag 3 (ag.nextTag + 1) <;> rfl

end

/-- A sequencer and a core lack `dspill` (R101). -/
theorem csrHere_dspill {p : Profile} (h : p ≠ .wave) : csrHere p 12 = false := by
  cases p with
  | wave => exact absurd rfl h
  | sequencer => rfl
  | host => rfl

/-- A word put together of two fields: the upper one counts by the width of the lower (R103). -/
theorem toNat_append_add {m n : Nat} (x : BitVec m) (y : BitVec n) : (x ++ y).toNat = x.toNat * 2 ^ n + y.toNat := by
  rw [BitVec.toNat_append, ← Nat.shiftLeft_add_eq_or_of_lt y.isLt, Nat.shiftLeft_eq]

/-- `tskew` is the domain's bound over 2 ns (R254). -/
theorem State.tskew_eq (s : State) : s.tskew = BitVec.ofNat 32 (s.plat.domNs.toNat * 2 ^ 16 + 2) := by
  have h := s.plat.domNs.isLt
  apply BitVec.eq_of_toNat_eq
  rw [State.tskew, toNat_append_add, BitVec.toNat_ofNat, show (2 : Half).toNat = 2 from rfl, Nat.mod_eq_of_lt (by omega)]

/-- `wid` by its fields (R103). -/
theorem Agent.wid_eq (ag : Agent) : ag.wid =
    BitVec.ofNat 32 (ag.die.toNat * 2 ^ 24 + ag.cu.toNat * 2 ^ 16 + ag.slot.toNat * 2 ^ 12 + ag.gw.toNat * 2 ^ 8) := by
  have h := ag.wid.isLt
  apply BitVec.eq_of_toNat_eq
  have hw : ag.wid.toNat =
      ag.die.toNat * 2 ^ 24 + ag.cu.toNat * 2 ^ 16 + ag.slot.toNat * 2 ^ 12 + ag.gw.toNat * 2 ^ 8 := by
    rw [Agent.wid, toNat_append_add, toNat_append_add, toNat_append_add, toNat_append_add, show (0 : Byte).toNat = 0 from rfl]
    omega
  rw [BitVec.toNat_ofNat, ← hw, Nat.mod_eq_of_lt h]

/-- An agent's reading of the time lies at most 2 ns ahead of the package's count and never below its last (R254, log 9). -/
theorem State.time_eq (s : State) (ag : Agent) : ∃ (k : Nat) (t : DWord), k ≤ 2 ∧ t = s.ntime + BitVec.ofNat 64 k ∧
    s.time ag = if t.toNat < ag.lastT.toNat then ag.lastT else t := by
  refine ⟨Config.dieSkew ag.die.toNat % 3, _, by omega, rfl, ?_⟩
  unfold State.time
  simp only [BitVec.ult, decide_eq_true_eq]

/-- CAPR reads the capability table; `gen` stands at index 15 (R18). -/
theorem State.capWord_eq (s : State) (n : Nat) :
    s.capWord n = if n = 15 then s.rot.capGen else if n < 15 then Tab.get 0 s.rot.cap n else 0 := by
  unfold State.capWord
  by_cases h : n = 15
  · simp [h]
  · have : n < 16 ↔ n < 15 := by omega
    simp only [h, if_false, this]

end Sys2Proof.Machine

namespace Sys2Proof.Settled
open Sys2Proof Sys2Proof.Machine

/-- Settles O23: CSRR of each register is `csrr_word` or `csrr_of` at the value that R101 to R104 give it. -/
theorem controlRegisterReads : Obligations.ControlRegisterReads := by
  intro s id ag g d a hm hi word pair absent
  have any : ∀ {n : BitVec 6} {w : Word}, n ∉ ([0, 1, 3, 6, 12] : List (BitVec 6)) → n ≠ 2 → n ≠ 4 → csr64 n = false →
      s.csr ag n = w.zeroExtend 64 → word n w := fun h h2 h4 h64 hv =>
    csrr_word hm hi (csrHere_any h) (fun e => absurd e h2) h4 h64 hv
  have inUnits : ∀ {n : BitVec 6} {w : Word}, ag.profile ≠ .host → n ≠ 12 → n ≠ 2 → n ≠ 4 → csr64 n = false →
      s.csr ag n = w.zeroExtend 64 → word n w := fun hp h12 h2 h4 h64 hv =>
    csrr_word hm hi (csrHere_notHost hp h12) (fun e => absurd e h2) h4 h64 hv
  have both : ∀ {n : BitVec 6}, n ∉ ([0, 1, 3, 6, 12] : List (BitVec 6)) → n ≠ 2 → n ≠ 4 → csr64 n = true →
      pair n (s.csr ag n) := fun {n} h h2 h4 h64 => by
    have := csrr_of (d := d) hm hi (csrHere_any h) (fun e => absurd e h2) h4
    rwa [h64, if_pos rfl] at this
  refine ⟨fun hp => ⟨inUnits hp (by decide) (by decide) (by decide) rfl rfl, inUnits hp (by decide) (by decide) (by decide) rfl rfl,
      inUnits hp (by decide) (by decide) (by decide) rfl rfl, inUnits hp (by decide) (by decide) (by decide) rfl rfl⟩,
    fun hp => ⟨csrr_absent hm hi (by rw [hp]; rfl), csrr_absent hm hi (by rw [hp]; rfl), csrr_absent hm hi (by rw [hp]; rfl),
      csrr_absent hm hi (by rw [hp]; rfl)⟩,
    fun hp => csrr_word hm hi (by rw [hp]; rfl) (fun e => absurd e (by decide)) (by decide) rfl rfl,
    fun hp => csrr_absent hm hi (csrHere_dspill hp),
    fun hb => csrr_word hm hi (csrHere_any (by decide)) (fun _ => hb) (by decide) rfl rfl,
    fun hb => csrr_rstat_waits hm hi hb,
    any (by decide) (by decide) (by decide) rfl rfl, any (by decide) (by decide) (by decide) rfl (by rw [← Agent.wid_eq]; rfl),
    any (by decide) (by decide) (by decide) rfl rfl, both (by decide) (by decide) (by decide) rfl,
    both (by decide) (by decide) (by decide) rfl, ?_, any (by decide) (by decide) (by decide) rfl ?_, ?_,
    fun hp => ⟨fun h => wfi_completes hm hi hp h, fun hq hw => wfi_starts hm hi hp hq hw,
      fun t hq hw => wfi_waits hm hi hp hq hw⟩, fun h => ?_, fun h => ?_⟩
  · obtain ⟨k, t, hk, ht, hx⟩ := s.time_eq ag
    exact ⟨k, t, s.time ag, hk, ht, hx, csrr_ntime hm hi⟩
  · rw [← State.tskew_eq]; rfl
  · rw [← State.capWord_eq]
    exact regOp_of _ hm hi rfl
  · rw [ifence_of hm hi, h, if_pos rfl]
  · rw [ifence_of hm hi, h, if_neg (by decide)]

end Sys2Proof.Settled
end

section
/-! What the package store and the error records leave alone (R43, R218, R353): `State.still` is the rest of the package, and an
access or a record keeps it. -/
namespace Sys2Proof.Machine

/-- The package but for what an access of the package store or an error record may change: the agents, memory and its caches, the
free values drawn, the rings and their counters, the cores' event queue and the policy engine. -/
def State.still (s : State) : State :=
  { s with
    free := 0, agents := [], mem := [], ms := { banksOff := s.ms.banksOff },
    rot := { s.rot with ringTail := [], recCount := [], polCnt := [] },
    plat := { s.plat with hostQ := [] }, hub := { s.hub with pol := [] } }

theorem State.still_foldl {α : Type} (l : List α) (f : State → α → State) (hf : ∀ t a, (f t a).still = t.still) :
    ∀ s : State, (l.foldl f s).still = s.still := by
  induction l with
  | nil => exact fun _ => rfl
  | cons a l ih => exact fun s => (ih (f s a)).trans (hf s a)

/-! ### Reading what stands -/

section
variable {s t : State} (h : t.still = s.still)
include h

theorem State.still_units : t.units = s.units := (congrArg (fun s : State => s.units) h :)
theorem State.still_banksOff : t.ms.banksOff = s.ms.banksOff := (congrArg (fun s : State => s.ms.banksOff) h :)
theorem State.still_dies : t.plat.dies = s.plat.dies := (congrArg (fun s : State => s.plat.dies) h :)
theorem State.still_links : t.plat.links = s.plat.links := (congrArg (fun s : State => s.plat.links) h :)
theorem State.still_launches : t.hub.launches = s.hub.launches := (congrArg (fun s : State => s.hub.launches) h :)
theorem State.still_cap : t.rot.cap = s.rot.cap := (congrArg (fun s : State => s.rot.cap) h :)
theorem State.still_capGen : t.rot.capGen = s.rot.capGen := (congrArg (fun s : State => s.rot.capGen) h :)
theorem State.still_nFenced : t.rot.nFenced = s.rot.nFenced := (congrArg (fun s : State => s.rot.nFenced) h :)
theorem State.still_bootSt : t.rot.bootSt = s.rot.bootSt := (congrArg (fun s : State => s.rot.bootSt) h :)

theorem State.still_unit (u : Nat) : t.unit u = s.unit u := by rw [State.unit, State.still_units h]; rfl
theorem State.still_die (n : Nat) : t.die n = s.die n := by rw [State.die, State.still_dies h]; rfl
theorem State.still_link (n : Nat) : t.link n = s.link n := by rw [State.link, State.still_links h]; rfl
theorem State.still_launch? (l : Nat) : t.launch? l = s.launch? l := by rw [State.launch?, State.still_launches h]; rfl
theorem State.still_partCode : t.partCode = s.partCode := by rw [State.partCode, State.still_cap h]; rfl

end

/-! ### Writes of the package store -/

theorem State.setHome_still (s : State) (pa : Nat) (b : Byte) : (s.setHome pa b).still = s.still := rfl

theorem State.setHomes_still (f : Nat → Byte) (l : List Nat) (s : State) :
    (l.foldl (fun t a => t.setHome a (f a)) s).still = s.still :=
  State.still_foldl l _ (fun t a => t.setHome_still a (f a)) s

theorem State.rekey_still (s : State) (slot : BitVec 8) (pa : Nat) : (s.rekey slot pa).still = s.still := by
  unfold State.rekey
  generalize lineAddrs pa = l
  dsimp only
  split
  · rfl
  · split
    · rfl
    · split
      · rfl
      · exact State.setHomes_still _ l s

theorem State.undrop_still (s : State) (pa : Nat) : (s.undrop pa).still = s.still := by
  unfold State.undrop
  generalize lineAddrs pa = l
  split
  · exact State.setHomes_still _ l s
  · rfl

theorem State.memWrite_still (s : State) (slot : BitVec 8) (pa : Nat) (b : Byte) : (s.memWrite slot pa b).still = s.still :=
  (State.undrop_still _ pa).trans (s.rekey_still slot pa)

theorem State.homeWrite_still (s : State) (slot : BitVec 8) (pa : Nat) (b : Byte) : (s.homeWrite slot pa b).still = s.still := by
  unfold State.homeWrite
  split
  · rfl
  · exact s.memWrite_still slot pa b

theorem State.setPk_still (s : State) (slot : BitVec 8) (peer : Bool) (pa : Nat) (b : Byte) :
    (s.setPk slot peer pa b).still = s.still := by
  cases peer with
  | true => rfl
  | false => exact s.homeWrite_still slot pa b

theorem State.pkPutN_still (slot : BitVec 8) (peer : Bool) (bs : List Byte) :
    ∀ (s : State) (pa : Nat), (s.pkPutN slot peer pa bs).still = s.still := by
  induction bs with
  | nil => exact fun _ _ => rfl
  | cons b bs ih => exact fun s pa => (ih _ _).trans (State.setPk_still _ slot peer pa b)

theorem State.backEntry_still (s : State) (sector : Nat) (e : SpanEnt) : (s.backEntry sector e).still = s.still := by
  unfold State.backEntry
  split
  · refine State.still_foldl _ _ (fun t a => ?_) s
    split
    · exact t.setPk_still _ _ _ _
    · rfl
  · rfl

theorem State.ioLose_still (s : State) (sector lo hi : Nat) : (s.ioLose sector lo hi).still = s.still := by
  unfold State.ioLose
  dsimp only
  split
  · exact State.still_foldl _ _ (fun t e => t.backEntry_still sector e) s
  · rfl

theorem State.pkWriteN_still (s : State) (slot : BitVec 8) (peer : Bool) (pa : Nat) (bs : List Byte) :
    (s.pkWriteN slot peer pa bs).still = s.still := by
  unfold State.pkWriteN
  split
  · rfl
  · rw [State.pkPutN_still]
    split
    · rfl
    · exact State.still_foldl _ _ (fun t _ => t.ioLose_still _ _ _) s

theorem State.pkStore_still (s : State) (slot : BitVec 8) (peer : Bool) (pa : Nat) (bs : List Byte) :
    (s.pkStore slot peer pa bs).still = s.still :=
  (State.still_foldl _ (fun t l => t.wakePa (64 * l)) (fun _ _ => rfl) _).trans (s.pkWriteN_still slot peer pa bs)

/-! ### Records -/

theorem State.ringAppend_still (s : State) (n : Nat) (reg : DWord) (rec : List Byte) :
    (s.ringAppend n reg rec).still = s.still := by
  unfold State.ringAppend
  extract_lets tail base cap t
  have ht : t.still = s.still := by
    unfold t
    split
    · exact (State.pkStore_still _ _ _ _ _).trans (State.pkStore_still _ _ _ _ _)
    · rfl
  exact ht

theorem State.raiseEvent_still (s : State) (p : Nat) (e : PolEvent) : (s.raiseEvent p e).still = s.still := by
  unfold State.raiseEvent
  dsimp only
  split
  · rfl
  · split <;> rfl

theorem State.record_still (s : State) (part : Nat) (e : ErrRec) (j : JobRef) (unit : Word) :
    (s.record part e j unit).still = s.still := by
  unfold State.record
  extract_lets key count _ t bs u v _ w tail
  have hu : u.still = t.still := State.ringAppend_still _ _ _ _
  have hv : v.still = u.still := State.ringAppend_still _ _ _ _
  exact (State.still_foldl _ _ (fun _ _ => State.raiseEvent_still _ _ _) w).trans (hv.trans hu)

theorem State.recordRs_still (s : State) (part : Nat) (e : ErrRec) : (s.recordRs part e).still = s.still := by
  unfold State.recordRs
  extract_lets key count _ t u _
  have hu : u.still = t.still := State.ringAppend_still _ _ _ _
  exact hu

theorem State.recordLoss_still (s : State) (kind part : Nat) (slot : BitVec 8) (pa : Nat) (die : Byte) (j : JobRef) (unit : Word) :
    (s.recordLoss kind part slot pa die j unit).still = s.still := State.record_still _ _ _ _ _

theorem State.violation_still (s : State) (part : Nat) (slot : BitVec 8) (pa : Nat) (j : JobRef) (unit : Word) (die : Byte) :
    (s.violation part slot pa j unit die).still = s.still := by
  unfold State.violation
  split
  · rfl
  · split
    · exact s.record_still _ _ _ _
    · split
      · exact s.record_still _ _ _ _
      · rfl

theorem State.recordFence_still (s : State) (us : List Nat) (w : Word) : (s.recordFence us w).still = s.still := by
  unfold State.recordFence
  dsimp only
  split
  · exact s.recordRs_still _ _
  · refine State.still_foldl _ _ (fun t p => ?_) s
    split <;> exact t.record_still _ _ _ _

/-! ### Reads of the package store -/

theorem State.dropLineAt_still (s : State) (k : Nat) : (s.dropLineAt k).still = s.still := rfl

theorem State.evictLine_still (s : State) (k : Nat) : (s.evictLine k).still = s.still := by
  have hback : ∀ l : OLine, (s.backLine l).still = s.still := by
    intro l
    refine State.still_foldl _ _ (fun t i => ?_) s
    split
    · exact t.memWrite_still _ _ _
    · rfl
  unfold State.evictLine
  split
  · exact (State.dropLineAt_still _ k).trans (hback _)
  · rfl

theorem State.fillAt_still (s : State) (slot : BitVec 8) (pa w : Nat) : (s.fillAt slot pa w).still = s.still := by
  unfold State.fillAt
  dsimp only
  split
  · exact s.evictLine_still _
  · rfl

theorem State.fillLine_still (s : State) (part : Nat) (slot : BitVec 8) (pa : Nat) :
    (s.fillLine part slot pa).still = s.still := by
  unfold State.fillLine
  split
  · rfl
  · extract_lets cache ways
    split
    · rfl
    · split
      rename_i n t hd
      have ht : t.still = s.still := by cases hd; rfl
      dsimp only
      split
      · exact ht
      · exact (t.fillAt_still slot pa _).trans ht

theorem State.sample_still (s : State) (part pa : Nat) : (s.sample part pa).still = s.still := by
  unfold State.sample
  dsimp only
  split <;> rfl

theorem State.corrected_still (s : State) (orng : Bool) (pa : Nat) : (s.corrected orng pa).still = s.still := by
  unfold State.corrected
  dsimp only
  split
  · split
    · exact State.recordRs_still _ _ _
    · rfl
  · rfl
  · split
    · exact State.recordRs_still _ _ _
    · rfl

theorem State.dropBlock_still (s : State) (k : Nat) (l : OLine) (pa : Nat) : (s.dropBlock k l pa).still = s.still := by
  unfold State.dropBlock
  dsimp only
  split <;> rfl

theorem State.loseLine_still (s : State) (w set : Nat) : (s.loseLine w set).still = s.still := by
  unfold State.loseLine
  dsimp only
  split
  · exact State.record_still _ _ _ _ _
  · rfl

theorem State.eccEvent_still (s : State) (slot : BitVec 8) (pa n : Nat) (e : Ecc) : (s.eccEvent slot pa n e).1.still = s.still := by
  unfold State.eccEvent
  dsimp only
  generalize ht' : ({ s with ms := { s.ms with latent := Tab.erase s.ms.latent (pa / 64) } } : State) = t
  have ht : t.still = s.still := by subst ht'; rfl
  split
  · rfl
  · split
    · exact ht
    · split
      · exact (t.corrected_still _ _).trans ht
      · split
        · exact (t.corrected_still _ _).trans ht
        · exact ht
    · split
      · split
        · exact (t.dropBlock_still _ _ _).trans ht
        · exact ht
      · split <;> exact ht
    · split
      · exact (t.loseLine_still _ _).trans ht
      · exact ht

theorem State.arriveRead_still (s : State) (part : Nat) (slot : BitVec 8) (pa n : Nat) (ecc : Ecc) :
    (s.arriveRead part slot pa n ecc).1.still = s.still := by
  have hs : ((s.touch pa 1).sample part pa).still = s.still := State.sample_still _ _ _
  have he := (State.eccEvent_still ((s.touch pa 1).sample part pa) slot pa n ecc).trans hs
  unfold State.arriveRead
  dsimp only
  split
  · exact he
  · split
    · exact he
    · exact (State.fillLine_still _ _ _ _).trans he

theorem State.inboundRead_still (s : State) (part : Nat) (slot : BitVec 8) (pa n : Nat) (ecc : Ecc) :
    (s.inboundRead part slot pa n ecc).1.still = s.still := by
  have ha := s.arriveRead_still part slot pa n ecc
  unfold State.inboundRead
  split <;> rename_i he <;> rw [he] at ha
  · exact (State.recordLoss_still _ _ _ _ _ _ _ _).trans ha
  · exact ha

/-- The reads of a walk (R48). -/
theorem State.noteWalk_still (s : State) (part : Nat) (k : VKey) : (s.noteWalk part k).still = s.still := by
  refine State.still_foldl _ _ (fun t pa => ?_) s
  have ha := t.arriveRead_still part 0 pa 8 .clean
  split <;> rename_i he <;> rw [he] at ha
  · exact (State.recordLoss_still _ _ _ _ _ _ _ _).trans ha
  · exact ha

theorem State.hubRead_still (part : Nat) : ∀ (f : Nat) (s : State) (va n : Nat), (s.hubRead part f va n).1.still = s.still := by
  intro f
  induction f with
  | zero => exact fun _ _ _ => rfl
  | succ f ih =>
    intro s va n
    have hw := s.noteWalk_still part (.flat (BitVec.ofNat 64 va))
    unfold State.hubRead
    split
    · rfl
    · extract_lets k t
      split
      · extract_lets pa slot
        split
        · exact (ih _ _ _).trans ((State.inboundRead_still _ _ _ _ _ _).trans hw)
        · exact (State.violation_still _ _ _ _ _ _ _).trans hw
      · exact hw

theorem State.readFlat_still (s : State) (part : Nat) (va : DWord) (n : Nat) : (s.readFlat part va n).1.still = s.still := by
  unfold State.readFlat
  split
  · rfl
  · exact State.hubRead_still part _ s _ _

theorem State.readHeader_still (s : State) (p : Nat) (hdr : DWord) : (s.readHeader p hdr).1.still = s.still := by
  have hr := s.readFlat_still p hdr 128
  unfold State.readHeader
  split
  · rfl
  · split <;> rename_i he <;> rw [he] at hr
    · exact hr
    · split
      · exact (State.readFlat_still _ _ _ _).trans hr
      · exact hr

end Sys2Proof.Machine
end

section
/-! PROOF. Operating points and the power window (R27, R319, R371). -/
namespace Sys2Proof.Machine

/-! ### Dies and their operating points (R27, R319, R371) -/

@[simp] theorem State.putDie_die_self (s : State) (n : Nat) (d : Die) : (s.putDie n d).die n = d := by
  simp [State.die, State.putDie]

theorem State.putDie_die_ne (s : State) {n m : Nat} (d : Die) (h : m ≠ n) : (s.putDie n d).die m = s.die m := by
  simp [State.die, State.putDie, Tab.get_put_ne _ _ _ h]

theorem opPointChange_up {s : State} {die : Nat} (h : (s.die die).link = .up) :
    exec (.opPointChange die) s = .next { s with plat := { s.plat with
      dies := Tab.put s.plat.dies die { s.die die with
        opc := min (Tab.get 7 s.plat.opLimit die) (s.residentClass die)
        opcTo := min (Tab.get 7 s.plat.opLimit die) (s.residentClass die) } } } := by
  show execOpPointChange die s = _
  simp only [execOpPointChange, h, if_true]
  rfl

/-- A die lowered by one class from the class it runs at, which is then its limit (R27). -/
def State.lowerDie (s : State) (d : Nat) : State :=
  let u := s.putDie d { s.die d with opc := (s.die d).opc - 1, opcTo := (s.die d).opc - 1 }
  { u with plat := { u.plat with opLimit := Tab.set 7 u.plat.opLimit d ((s.die d).opc - 1) } }

theorem State.lowerOp_eq (s : State) (ds : List Nat) : s.lowerOp ds =
    if ds.filter (fun d => decide (0 < (s.die d).opc)) = [] then none
    else some ((ds.filter (fun d => decide (0 < (s.die d).opc))).foldl State.lowerDie s) := by
  unfold State.lowerOp
  simp only [List.isEmpty_iff]
  rfl

/-- Lowering dies one after another lowers each of them once. -/
theorem State.lowerDie_foldl (l : List Nat) : ∀ s : State, l.Nodup →
    (l.foldl State.lowerDie s).plat.belowMs = s.plat.belowMs ∧
    (∀ d, ((l.foldl State.lowerDie s).die d).opc = if d ∈ l then (s.die d).opc - 1 else (s.die d).opc) ∧
    ∀ d, Tab.get 7 (l.foldl State.lowerDie s).plat.opLimit d =
      if d ∈ l then (s.die d).opc - 1 else Tab.get 7 s.plat.opLimit d := by
  induction l with
  | nil => exact fun s _ => ⟨rfl, fun d => rfl, fun d => rfl⟩
  | cons e l ih =>
    intro s hn
    obtain ⟨he, hn⟩ := List.nodup_cons.mp hn
    obtain ⟨hb, ho, hl⟩ := ih (s.lowerDie e) hn
    have hself : ((s.lowerDie e).die e).opc = (s.die e).opc - 1 := by
      show ((s.putDie e _).die e).opc = _
      rw [State.putDie_die_self]
    have hother : ∀ d, d ≠ e → (s.lowerDie e).die d = s.die d := fun d hd => State.putDie_die_ne s _ hd
    rw [List.foldl_cons]
    refine ⟨hb, fun d => ?_, fun d => ?_⟩
    · rw [ho]
      by_cases hd : d = e
      · subst hd; simp [he, hself]
      · simp [hd, hother d hd]
    · rw [hl]
      by_cases hd : d = e
      · subst hd; simp [he, State.lowerDie]
      · have : Tab.get 7 (s.lowerDie e).plat.opLimit d = Tab.get 7 s.plat.opLimit d := Tab.get_set_ne _ _ _ hd
        simp [hd, hother d hd, this]

/-- What a window above the limit does to the dies of a list (R27). -/
theorem State.lowerOp_spec {s : State} {ds : List Nat} (hn : ds.Nodup) :
    ((s.lowerOp ds).getD s).plat.belowMs = s.plat.belowMs ∧
    (∀ d, (((s.lowerOp ds).getD s).die d).opc = if d ∈ ds then (s.die d).opc - 1 else (s.die d).opc) ∧
    ∀ d, Tab.get 7 ((s.lowerOp ds).getD s).plat.opLimit d =
      if d ∈ ds ∧ 0 < (s.die d).opc then (s.die d).opc - 1 else Tab.get 7 s.plat.opLimit d := by
  have hg : (s.lowerOp ds).getD s = (ds.filter (fun d => decide (0 < (s.die d).opc))).foldl State.lowerDie s := by
    rw [State.lowerOp_eq]
    split
    · rename_i h; rw [h]; rfl
    · rfl
  obtain ⟨hb, ho, hl⟩ := State.lowerDie_foldl _ s (hn.filter (fun d => decide (0 < (s.die d).opc)))
  rw [hg]
  refine ⟨hb, fun d => ?_, fun d => ?_⟩
  · rw [ho]
    by_cases hd : d ∈ ds
    · by_cases h0 : 0 < (s.die d).opc
      · simp [hd, h0]
      · simp [hd, h0]; omega
    · simp [hd]
  · rw [hl]
    simp only [List.mem_filter, decide_eq_true_eq]

theorem State.wattLimit_eq (s : State) : s.wattLimit = min 4000 (max 1000 (s.rot.pkgPlim.toNat % 2 ^ 16)) := by
  simp [State.wattLimit]

/-- The state with the count of windows below the limit. -/
def State.below (s : State) (n : Nat) : State := { s with plat := { s.plat with belowMs := n } }

/-- POWER_WINDOW above the limit: the array dies from the class they run at, the vector dies once none of those can go lower
(R27). -/
theorem powerWindow_above {s : State} {draw : Nat} (h : s.wattLimit < draw) :
    exec (.powerWindow draw) s = .next (if ∃ d ∈ List.range' 2 8, 0 < (s.die d).opc
      then (((s.below 0).lowerOp (List.range' 2 8)).getD (s.below 0))
      else ((s.below 0).lowerOp (List.range' 10 4)).getD (s.below 0)) := by
  have hms : ¬ draw < s.wattLimit - 200 := by omega
  show execPowerWindow draw s = _
  simp only [execPowerWindow, hms, if_false, h, if_true]
  congr 1
  change (match (s.below 0).lowerOp (List.range' 2 8) with
    | some u => u
    | none => ((s.below 0).lowerOp (List.range' 10 4)).getD (s.below 0)) = _
  have hc : (List.range' 2 8).filter (fun d => decide (0 < ((s.below 0).die d).opc)) = [] ↔
      ¬ ∃ d ∈ List.range' 2 8, 0 < (s.die d).opc := by
    rw [List.filter_eq_nil_iff]
    simp only [decide_eq_true_eq, not_exists, not_and]
    exact Iff.rfl
  rw [State.lowerOp_eq (s.below 0) (List.range' 2 8)]
  by_cases he : ∃ d ∈ List.range' 2 8, 0 < (s.die d).opc
  · rw [if_pos he, if_neg (fun h => hc.mp h he)]
    rfl
  · rw [if_neg he, if_pos (hc.mpr he)]

theorem powerWindow_within {s : State} {draw : Nat} (h : draw ≤ s.wattLimit) (h' : s.wattLimit ≤ draw + 200) :
    exec (.powerWindow draw) s = .next { s with plat := { s.plat with belowMs := 0 } } := by
  have hms : ¬ draw < s.wattLimit - 200 := by omega
  have hd : ¬ s.wattLimit < draw := by omega
  show execPowerWindow draw s = _
  simp only [execPowerWindow, hms, if_false, hd, show ¬ 5 ≤ 0 by omega]

theorem powerWindow_below {s : State} {draw : Nat} (h : draw + 200 < s.wattLimit) (hb : s.plat.belowMs < 4) :
    exec (.powerWindow draw) s = .next { s with plat := { s.plat with belowMs := s.plat.belowMs + 1 } } := by
  have hms : draw < s.wattLimit - 200 := by omega
  have hd : ¬ s.wattLimit < draw := by omega
  show execPowerWindow draw s = _
  simp only [execPowerWindow, hms, if_true, hd, if_false, show ¬ 5 ≤ s.plat.belowMs + 1 by omega]

/-- The power window (R27, R371). -/
theorem powerWindows (s : State) (draw w : Nat) (hw : w = min 4000 (max 1000 (s.rot.pkgPlim.toNat % 2 ^ 16))) :
    let lowered : List Nat → Prop := fun ds => ∃ t : State, exec (.powerWindow draw) s = .next t ∧ t.plat.belowMs = 0 ∧
      (∀ d, (t.die d).opc = if d ∈ ds then (s.die d).opc - 1 else (s.die d).opc) ∧
      ∀ d, Tab.get 7 t.plat.opLimit d = if d ∈ ds ∧ 0 < (s.die d).opc then (s.die d).opc - 1 else Tab.get 7 s.plat.opLimit d
    (w < draw → (∃ d, 2 ≤ d ∧ d ≤ 9 ∧ 0 < (s.die d).opc) → lowered [2, 3, 4, 5, 6, 7, 8, 9]) ∧
    (w < draw → (∀ d, 2 ≤ d → d ≤ 9 → (s.die d).opc = 0) → lowered [10, 11, 12, 13]) ∧
    (draw ≤ w → w ≤ draw + 200 → exec (.powerWindow draw) s = .next { s with plat := { s.plat with belowMs := 0 } }) ∧
    (draw + 200 < w → s.plat.belowMs < 4 →
      exec (.powerWindow draw) s = .next { s with plat := { s.plat with belowMs := s.plat.belowMs + 1 } }) := by
  rw [← State.wattLimit_eq] at hw
  subst hw
  refine ⟨fun hd ⟨d, h2, h9, h0⟩ => ?_, fun hd h0 => ?_, powerWindow_within, powerWindow_below⟩
  · have he : ∃ d ∈ List.range' 2 8, 0 < (s.die d).opc := ⟨d, by simp only [List.mem_range'_1]; omega, h0⟩
    exact ⟨_, (powerWindow_above hd).trans (congrArg _ (if_pos he)),
      State.lowerOp_spec (s := s.below 0) (ds := [2, 3, 4, 5, 6, 7, 8, 9]) (by decide)⟩
  · have he : ¬ ∃ d ∈ List.range' 2 8, 0 < (s.die d).opc := by
      rintro ⟨d, hm, hp⟩
      simp only [List.mem_range'_1] at hm
      have := h0 d (by omega) (by omega)
      omega
    exact ⟨_, (powerWindow_above hd).trans (congrArg _ (if_neg he)),
      State.lowerOp_spec (s := s.below 0) (ds := [10, 11, 12, 13]) (by decide)⟩

end Sys2Proof.Machine
end

section
/-! PROOF. Agents that start: what a new agent holds, and a task's start (R303, R308, R311). -/
namespace Sys2Proof.Machine

/-! ### What an agent starts with (R308) -/

/-- A table written from a list, place by place, reads as the list there and as before elsewhere. -/
theorem Tab.get_foldl_zipIdx {α β : Type} [DecidableEq β] (d : β) (g : α → β) (c : Nat) (l : List α) :
    ∀ (k : Nat) (t : Tab β) (n : Nat), Tab.get d ((l.zipIdx k).foldl (fun t e => Tab.set d t (e.2 + c) (g e.1)) t) n =
      if k + c ≤ n then ((l[n - (k + c)]?).map g).getD (Tab.get d t n) else Tab.get d t n := by
  induction l with
  | nil => intro k t n; simp
  | cons a l ih =>
    intro k t n
    rw [List.zipIdx_cons, List.foldl_cons, ih]
    by_cases hk : n = k + c
    · subst hk
      rw [if_neg (by omega), if_pos (Nat.le_refl _), Tab.get_set_self]
      simp
    · rw [Tab.get_set_ne _ _ _ hk]
      by_cases h : k + c ≤ n
      · rw [if_pos (by omega), if_pos h, show n - (k + c) = n - (k + 1 + c) + 1 by omega, List.getElem?_cons_succ]
      · rw [if_neg (by omega), if_neg h]

/-- A table built from a list whose first element stands at `c`. -/
theorem Tab.get_ofList {α β : Type} [DecidableEq β] (d : β) (g : α → β) (c : Nat) (l : List α) (i : Nat) :
    Tab.get d (l.zipIdx.foldl (fun t e => Tab.set d t (e.2 + c) (g e.1)) []) (i + c) = ((l[i]?).map g).getD d := by
  rw [Tab.get_foldl_zipIdx, if_pos (by omega), show i + c - (0 + c) = i by omega]
  rfl

/-- The beat masks lie in s60 to s62; the other scalars stand (R97). -/
theorem Agent.sGet_setBeat (ag : Agent) (m : Mask) {n : Nat} (h : n < 60) : (ag.setBeat m).sGet n = ag.sGet n := by
  rw [Agent.setBeat, Agent.sGet_sSet_ne _ _ (by omega), Agent.sGet_sSet_ne _ _ (by omega), Agent.sGet_sSet_ne _ _ (by omega)]

theorem Agent.beat_setBeat_all (ag : Agent) : (ag.setBeat (BitVec.allOnes 96)).beat = BitVec.allOnes 96 := by
  have h62 : (ag.setBeat (BitVec.allOnes 96)).sGet 62 = BitVec.allOnes 32 := Agent.sGet_sSet_self _ _ (by decide) (by decide)
  have h61 : (ag.setBeat (BitVec.allOnes 96)).sGet 61 = BitVec.allOnes 32 := by
    rw [Agent.setBeat, Agent.sGet_sSet_ne _ _ (by decide)]
    exact Agent.sGet_sSet_self _ _ (by decide) (by decide)
  have h60 : (ag.setBeat (BitVec.allOnes 96)).sGet 60 = BitVec.allOnes 32 := by
    rw [Agent.setBeat, Agent.sGet_sSet_ne _ _ (by decide), Agent.sGet_sSet_ne _ _ (by decide)]
    exact Agent.sGet_sSet_self _ _ (by decide) (by decide)
  rw [Agent.beat, h62, h61, h60]
  decide

section
variable (s : State) (x : Launch) (u gw : Nat) (entry : DWord) (args : List Word)

/-- A wave's scalars at its start: `s1`, then its arguments (R308). -/
theorem State.newAgent_sGet {i : Nat} (h : i < 59) :
    (s.newAgent x .wave u gw entry args).sGet (i + 1) = nth 0 (s.startS1 :: args) i := by
  unfold State.newAgent
  dsimp only
  rw [Agent.sGet_setBeat _ _ (by omega), Agent.sGet, if_neg (by omega)]
  refine (Tab.get_ofList 0 id 1 (s.startS1 :: args) i).trans ?_
  rw [Option.map_id_fun]
  rfl

theorem State.newAgent_sGet_arg {i : Nat} (h : i < 58) :
    (s.newAgent x .wave u gw entry args).sGet (i + 2) = args.getD i 0 := by
  rw [State.newAgent_sGet s x u gw entry args (i := i + 1) (by omega)]
  simp [nth]

theorem State.newAgent_beat : (s.newAgent x .wave u gw entry args).beat = BitVec.allOnes 96 := Agent.beat_setBeat_all _

/-- A wave's other fields at its start (R103, R308). -/
theorem State.newAgent_fields :
    (s.newAgent x .wave u gw entry args).profile = .wave ∧ (s.newAgent x .wave u gw entry args).live = true ∧
    (s.newAgent x .wave u gw entry args).run = { pc := entry } ∧ (s.newAgent x .wave u gw entry args).part = x.part ∧
    (s.newAgent x .wave u gw entry args).launch = x.id ∧ (s.newAgent x .wave u gw entry args).rmode = x.rmode ∧
    (s.newAgent x .wave u gw entry args).seed = x.seed ∧ (s.newAgent x .wave u gw entry args).tcause = 0 ∧
    (s.newAgent x .wave u gw entry args).opens = [] ∧ (s.newAgent x .wave u gw entry args).dmem = (s.unit u).dmem := by
  unfold State.newAgent
  dsimp only
  simp only [Agent.setBeat, Agent.sSet_profile, Agent.sSet_live, Agent.sSet_run, Agent.sSet_part, Agent.sSet_launch,
    Agent.sSet_rmode, Agent.sSet_seed, Agent.sSet_tcause, Agent.sSet_opens, Agent.sSet_dmem, and_self]

/-- A wave's place at its start (R14, R103). -/
theorem State.newAgent_place (hu : u < 192) (hg : gw < 16) :
    (s.newAgent x .wave u gw entry args).die.toNat = 10 + u / 48 ∧ (s.newAgent x .wave u gw entry args).cu.toNat = u % 48 ∧
    (s.newAgent x .wave u gw entry args).slot.toNat = gw ∧ (s.newAgent x .wave u gw entry args).gw.toNat = gw := by
  unfold State.newAgent
  dsimp only
  simp only [Agent.setBeat, Agent.sSet_die, Agent.sSet_cu, Agent.sSet_slot, Agent.sSet_gw, BitVec.toNat_ofNat, unitDie, unitIdx,
    if_pos hu]
  omega

end

/-- An acquire changes caches alone (R224). -/
theorem State.acquire_eq (s : State) (ag : Agent) (sc : Nat) : ∃ m : MemSys, s.acquire ag sc = { s with ms := m } := by
  have he : ∀ (t : State) (l i : Nat), ∃ m : MemSys, t.emptyLevel l i = { t with ms := m } := by
    intro t l i
    unfold State.emptyLevel
    split
    · exact ⟨_, rfl⟩
    · exact ⟨_, rfl⟩
  obtain ⟨m, hm⟩ := he s 1 ag.unit
  unfold State.acquire
  split
  · rw [hm]
    by_cases h2 : 2 ≤ sc <;> by_cases h3 : 3 ≤ sc
    · rw [if_pos h2, if_pos h3]
      exact he { s with ms := m } 2 (ag.unit / 4)
    · rw [if_pos h2, if_neg h3]
      exact ⟨m, rfl⟩
    · rw [if_neg h2, if_pos h3]
      exact he s 2 (ag.unit / 4)
    · rw [if_neg h2, if_neg h3]
      exact ⟨s.ms, rfl⟩
  · exact ⟨s.ms, rfl⟩

theorem agentOf_cu {u : Nat} (h : u < 192) (gw : Nat) : agentOf u gw = 16 * u + gw := if_pos h

/-- Starting a wave puts it in its slot and changes caches alone besides. -/
theorem State.startAgent_eq (s : State) (x : Launch) {u : Nat} (gw : Nat) (entry : DWord) (args : List Word) (hu : u < 192) :
    ∃ m : MemSys, s.startAgent x u gw entry args =
      { s with ms := m, agents := Tab.put s.agents (16 * u + gw) (s.newAgent x .wave u gw entry args) } := by
  obtain ⟨m, hm⟩ := s.acquire_eq (s.newAgent x .wave u gw entry args) 3
  refine ⟨m, ?_⟩
  unfold State.startAgent
  dsimp only
  rw [if_pos hu, agentOf_cu hu, hm]
  rfl

/-! ### Tasks that start (R308, R311) -/

/-- TASK_START starts the tail record of the deque in a free slot. -/
theorem taskStart_of {s : State} {cu slot : Nat} {l : Launch} {rest : List TaskRec} {r : TaskRec} (hc : cu < 192)
    (hs : slot < (s.unit cu).waves) (hg : s.taskGroup cu (s.unit cu).launch = true) (hf : s.agent? (16 * cu + slot) = none)
    (hd : (s.unit cu).deque = rest ++ [r]) (hl : s.launch? (s.unit cu).launch = some l) :
    exec (.taskStart cu slot) s =
      .next ((s.putUnit cu { s.unit cu with deque := rest }).startAgent l cu slot r.entry r.args) := by
  have hn : ¬(191 < cu ∨ (s.unit cu).waves ≤ slot ∨ (!s.taskGroup cu (s.unit cu).launch) = true ∨
      (s.agent? (agentOf cu slot)).isSome = true) := by
    rw [agentOf_cu hc, hf, hg]
    simp
    omega
  show execTaskStart cu slot s = _
  simp only [execTaskStart, if_neg hn, hl, hd, List.getLast?_append, List.getLast?_singleton, Option.some_or,
    List.dropLast_concat]
  rfl

theorem taskStarts (s : State) (cu slot : Nat) (l : Launch) (rest : List TaskRec) (r : TaskRec) (hc : cu < 192)
    (hs : slot < (s.unit cu).waves) (h16 : slot < 16) (hg : s.taskGroup cu (s.unit cu).launch = true)
    (hf : s.agent? (16 * cu + slot) = none) (hd : (s.unit cu).deque = rest ++ [r]) (hl : s.launch? (s.unit cu).launch = some l)
    (h6 : r.args.length = 6) :
    ∃ (t : State) (x : Agent), exec (.taskStart cu slot) s = .next t ∧ t.mem = s.mem ∧ (t.unit cu).deque = rest ∧
      t.agent? (16 * cu + slot) = some x ∧ x.profile = .wave ∧ x.live = true ∧ x.run = { pc := r.entry } ∧
      x.part = l.part ∧ x.launch = l.id ∧ x.sGet 1 = BitVec.ofNat 32 (s.plat.dom.toNat * 2 ^ 20 + s.plat.pkg.toNat) ∧
      (∀ i, i < 6 → x.sGet (i + 2) = r.args.getD i 0) ∧ (∀ n, 8 ≤ n → n < 60 → x.sGet n = 0) ∧ x.beat = BitVec.allOnes 96 ∧
      x.die.toNat = 10 + cu / 48 ∧ x.cu.toNat = cu % 48 ∧ x.slot.toNat = slot ∧ x.gw.toNat = slot ∧
      x.rmode = l.rmode ∧ x.seed = l.seed ∧ x.tcause = 0 ∧ x.opens = [] := by
  obtain ⟨t, ht⟩ : ∃ t, s.putUnit cu { s.unit cu with deque := rest } = t := ⟨_, rfl⟩
  obtain ⟨hp, hv, hr, hpart, hlaunch, hrm, hsd, htc, hop, -⟩ := t.newAgent_fields l cu slot r.entry r.args
  obtain ⟨hdie, hcu, hslot, hgw⟩ := t.newAgent_place l cu slot r.entry r.args hc h16
  obtain ⟨m, he⟩ := t.startAgent_eq l slot r.entry r.args hc
  refine ⟨t.startAgent l cu slot r.entry r.args, t.newAgent l .wave cu slot r.entry r.args,
    ht ▸ taskStart_of hc hs hg hf hd hl, ?_, ?_, ?_, hp, hv, hr, hpart, hlaunch, ?_,
    fun i hi => t.newAgent_sGet_arg l cu slot r.entry r.args (by omega), fun n h8 hn => ?_, t.newAgent_beat l cu slot r.entry r.args,
    hdie, hcu, hslot, hgw, hrm, hsd, htc, hop⟩
  · rw [he, ← ht]; rfl
  · rw [he, ← ht]
    exact congrArg UnitSt.deque (State.putUnit_unit_self s cu { s.unit cu with deque := rest })
  · rw [he]; exact Tab.find?_put_self _ _ _
  · rw [t.newAgent_sGet l cu slot r.entry r.args (i := 0) (by omega), ← ht]; rfl
  · rw [show n = n - 2 + 2 by omega, t.newAgent_sGet_arg l cu slot r.entry r.args (by omega)]
    simp [List.getD, List.getElem?_eq_none (l := r.args) (i := n - 2) (by omega)]

end Sys2Proof.Machine
end

section
/-! PROOF. Held fires, remote command blocks and launch headers (R305, R315, R326, R366). -/
namespace Sys2Proof.Machine

/-! ### Held fires (R315) -/

theorem length_dropNth_lt {α : Type} : ∀ {l : List α} {n : Nat} {a : α}, l[n]? = some a → (dropNth l n).length < l.length := by
  intro l
  induction l with
  | nil => intro n a h; simp at h
  | cons b l ih =>
    intro n a h
    cases n with
    | zero => simp [dropNth]
    | succ n =>
      have := ih (n := n) (a := a) (by simpa using h)
      simpa [dropNth] using this

/-- The first unit of a die that a task can go to. -/
theorem find_lowest {p : Nat → Bool} {b c : Nat} (hc : c < 48) (hp : p (b + c) = true) (hl : ∀ i, i < c → p (b + i) = false) :
    ((List.range 48).map (fun c => b + c)).find? p = some (b + c) := by
  rw [List.find?_map, Option.map_eq_some_iff]
  refine ⟨c, List.find?_range_eq_some.mpr ⟨hp, List.mem_range.mpr hc, fun i hi => ?_⟩, rfl⟩
  simpa using hl i hi

/-- HELD_FIRE_PLACE puts a task that waits for one die on the lowest of its units that takes it. -/
theorem heldFirePlaced (s : State) (n d c : Nat) (f : HeldFire) (hf : s.hub.fires[n]? = some f) (hd : f.dies = [d]) (hc : c < 48)
    (hg : s.taskGroup (48 * (d - 10) + c) f.launch = true) (hq : (s.unit (48 * (d - 10) + c)).deque.length < 64)
    (hb : ∀ b, b < c → s.taskGroup (48 * (d - 10) + b) f.launch = false ∨ 64 ≤ (s.unit (48 * (d - 10) + b)).deque.length) :
    ∃ t : State, exec (.heldFirePlace n) s = .next t ∧ t.mem = s.mem ∧ t.hub.fires = dropNth s.hub.fires n ∧
      (t.unit (48 * (d - 10) + c)).deque = (s.unit (48 * (d - 10) + c)).deque ++ [f.task] := by
  let u : State := { s with hub := { s.hub with fires := dropNth s.hub.fires n } }
  let x : UnitSt := { u.unit (48 * (d - 10) + c) with deque := (u.unit (48 * (d - 10) + c)).deque ++ [f.task] }
  have hdie : f.dies.find? (s.dieHasGroup f.launch) = some d := by
    have : s.dieHasGroup f.launch d = true := List.any_eq_true.mpr ⟨c, List.mem_range.mpr hc, hg⟩
    rw [hd, List.find?_cons, this]
  have hfind : ((List.range 48).map (fun c => 48 * (d - 10) + c)).find?
      (fun v => u.taskGroup v f.launch && decide ((u.unit v).deque.length < dequeCap)) = some (48 * (d - 10) + c) := by
    refine find_lowest hc ?_ fun i hi => ?_
    · exact Bool.and_eq_true_iff.mpr ⟨hg, decide_eq_true hq⟩
    · rcases hb i hi with h | h
      · exact Bool.and_eq_false_iff.mpr (.inl h)
      · exact Bool.and_eq_false_iff.mpr (.inr (decide_eq_false (Nat.not_lt.mpr h)))
  have hplace : u.placeFire f.launch f.part f.task f.inputs (some d) = u.putUnit (48 * (d - 10) + c) x := by
    unfold State.placeFire
    rw [Option.bind_some, hfind]
  refine ⟨u.putUnit (48 * (d - 10) + c) x, ?_, rfl, rfl, ?_⟩
  · show execHeldFirePlace n s = _
    have hl : ¬ 1 < f.dies.length := by rw [hd]; simp
    have hlen : (u.putUnit (48 * (d - 10) + c) x).hub.fires.length < s.hub.fires.length := length_dropNth_lt hf
    unfold execHeldFirePlace
    rw [hf]
    dsimp only
    rw [if_neg hl, hdie]
    dsimp only
    change Host.Outcome.next (if (u.placeFire f.launch f.part f.task f.inputs (some d)).hub.fires.length < s.hub.fires.length
      then u.placeFire f.launch f.part f.task f.inputs (some d) else s) = _
    rw [hplace, if_pos hlen]
  · rw [State.putUnit_unit_self]
    rfl

/-! ### Command blocks (R326) -/

/-- A quadrant takes up a block at its sequencer's boundary, outside a nest's body and emission. -/
theorem remqBlock_goes {s : State} {q : Nat} {ag : Agent} (hc : (s.quad q).capture = 0) (hg : (s.quad q).gen = none)
    (hr : s.quadRuns q = true) (hw : ag.wait = .none ∨ ag.wait = .again) :
    (decide ((s.quad q).capture ≠ 0) || (s.quad q).gen.isSome || !s.quadRuns q || !(ag.wait == .none || ag.wait == .again)) = false := by
  rw [hc, hg, hr]
  rcases hw with h | h <;> rw [h] <;> rfl

section
variable {s : State} {q : Nat} {b : RemBlock} {rest : List RemBlock} {ag : Agent} (hb : (s.quad q).inq = b :: rest)
  (ha : s.agent? (4096 + q) = some ag)
  (hgo : (decide ((s.quad q).capture ≠ 0) || (s.quad q).gen.isSome || !s.quadRuns q ||
    !(ag.wait == .none || ag.wait == .again)) = false)
include hb ha hgo

/-- REMQ_BLOCK_DISPATCH at a sequencer's boundary, where the queues run out of room: the rest of the block waits. -/
theorem remqBlockDispatch_waits {y : QuadSt} {cs : List (Word × List Word)} {j : Nat}
    (h : s.blockRun ag (s.quad q) b.cmds b.done = (y, cs, j, none)) :
    exec (.remqBlockDispatch q) s = .next (s.putQuad q { y with inq := { b with cmds := cs, done := j } :: rest }) := by
  show execRemqBlockDispatch q s = _
  unfold execRemqBlockDispatch
  dsimp only
  rw [hb, show seqBase + q = 4096 + q from rfl, ha]
  dsimp only
  rw [if_neg (by rw [hgo]; decide), h]

/-- REMQ_BLOCK_DISPATCH at a sequencer's boundary, where none of the block is left or a command is refused: its REMQ has its
answer. -/
theorem remqBlockDispatch_answers {y : QuadSt} {cs : List (Word × List Word)} {j st : Nat} {x : Agent}
    (h : s.blockRun ag (s.quad q) b.cmds b.done = (y, cs, j, some st)) (hx : s.agent? b.agent = some x) (hxw : x.wait = .remq none) :
    exec (.remqBlockDispatch q) s = .next ((s.putQuad q { y with inq := rest }).putAgent b.agent
      { x with wait := .remq (some (BitVec.ofNat 32 st)) }) := by
  have hx' : (s.putQuad q { y with inq := rest }).agent? b.agent = some x := hx
  show execRemqBlockDispatch q s = _
  unfold execRemqBlockDispatch
  dsimp only
  rw [hb, show seqBase + q = 4096 + q from rfl, ha]
  dsimp only
  rw [if_neg (by rw [hgo]; decide), h]
  dsimp only
  rw [State.updAny, hx']
  dsimp only
  rw [hxw]

end

/-- A block of one command: it is dispatched, or refused with how many were before it. -/
theorem State.blockRun_one {s : State} {ag : Agent} {x y : QuadSt} {w : Word} {ws : List Word} {j fn a b c : Nat} {tok : BitVec 4}
    (hf : blockFields w = some (fn, a, b, c, tok)) (hl : s.lacks (mkCmd fn a b c tok ws ag.dGet ag.nextTag) = false)
    (hq : x.enqueue (mkCmd fn a b c tok ws ag.dGet ag.nextTag) = some y) :
    (s.cmdCond ag.part x.model (mkCmd fn a b c tok ws ag.dGet ag.nextTag) = none →
      s.blockRun ag x [(w, ws)] j = (y, [], j + 1, some 0)) ∧
    (s.cmdCond ag.part x.model (mkCmd fn a b c tok ws ag.dGet ag.nextTag) ≠ none →
      s.blockRun ag x [(w, ws)] j = (x, [], j, some (4 + 256 * j))) := by
  constructor
  · intro hn
    simp [State.blockRun, hf, hl, hn, hq]
  · intro hn
    simp [State.blockRun, hf, Option.isSome_iff_ne_none.mpr hn]

/-! ### Launches (R305, R307, R366) -/

/-- Loading objects leaves Rotunda's registers (R366). -/
theorem State.measures_rest (p : Nat) (objs : List (List Byte)) : ∀ s : State,
    (objs.foldl (fun t o => t.measure p o) s).rot = s.rot := by
  induction objs with
  | nil => exact fun _ => rfl
  | cons o objs ih => exact fun s => ih (s.measure p o)

theorem bootStage_eq (w : Word) : (w.extractLsb' 24 8).toNat = w.toNat / 2 ^ 24 := by
  rw [BitVec.extractLsb'_toNat, Nat.shiftRight_eq_div_pow]
  omega

/-- Once stage 7 is complete, LAUNCH_APPEND measures the objects and judges the header. -/
theorem launchAppend_of {s : State} {p q : Nat} (hdr : BitVec 64) (codes : List (Nat × List Nat)) (objs : List (List (BitVec 8)))
    (hb : 7 ≤ s.rot.bootSt.toNat / 2 ^ 24) (hp : (Tab.find? s.hub.parts p).isSome = true) (he : s.hub.ending.contains p = false)
    (hq : q < 16) : exec (.launchAppend p q hdr codes objs) s =
      .next (match (objs.foldl (fun t o => t.measure p o) s).readHeader p hdr with
        | (s, none) => s.refuseLaunch p hdr
        | (s, some (bs, os)) =>
          match s.headerCheck p q hdr bs os codes with
          | none => s.refuseLaunch p hdr
          | some x => (({ s with hub := { s.hub with nextId := s.hub.nextId + 1 } }).putLaunch x).measure p bs) := by
  have hn : ¬((s.rot.bootSt.extractLsb' 24 8).toNat < 7 ∨ (Tab.find? s.hub.parts p).isNone = true ∨
      s.hub.ending.contains p = true ∨ 15 < q) := by
    rw [bootStage_eq, he, Option.isNone_iff_eq_none]
    rintro (h | h | h | h)
    · omega
    · rw [h] at hp; exact absurd hp (by decide)
    · exact absurd h (by decide)
    · omega
  exact congrArg Host.Outcome.next (if_neg hn)

/-- What a header that passes says of its launch (R304, R305, R307). -/
theorem State.headerCheck_some {s : State} {p q : Nat} {hdr : DWord} {bs os : List Byte} {codes : List (Nat × List Nat)} {x : Launch}
    (h : s.headerCheck p q hdr bs os codes = some x) :
    x = headerLaunch s.hub.nextId p q hdr bs os s.ntime ∧ s.codeOk x codes = true := by
  unfold State.headerCheck at h
  dsimp only at h
  split at h
  · rename_i hc
    cases h
    rw [Bool.and_eq_true_iff] at hc
    exact ⟨rfl, hc.2⟩
  · cases h

theorem State.codeOk_iff {s : State} {x : Launch} {codes : List (Nat × List Nat)} (h : s.codeOk x codes = true) :
    ∃ parts, codes[x.code]? = some (if x.kind = 1 then 1 else 0, parts) ∧ s.partCode ∈ parts := by
  unfold State.codeOk at h
  split at h
  · rename_i k parts hc
    obtain ⟨hk, hm⟩ := Bool.and_eq_true_iff.mp h
    exact ⟨parts, by rw [hc, beq_iff_eq.mp hk], by simpa using hm⟩
  · cases h

theorem State.readHeader_aligned {s s1 : State} {p : Nat} {hdr : DWord} {r : List Byte × List Byte}
    (h : s.readHeader p hdr = (s1, some r)) : hdr.toNat % 64 = 0 := by
  by_contra hn
  rw [State.readHeader, if_pos hn] at h
  cases h

theorem launchAppends (s s0 : State) (p q : Nat) (hdr : BitVec 64) (codes : List (Nat × List Nat)) (objs : List (List (BitVec 8)))
    (hb : 7 ≤ s.rot.bootSt.toNat / 2 ^ 24) (hp : (Tab.find? s.hub.parts p).isSome = true) (he : s.hub.ending.contains p = false)
    (hq : q < 16) (h0 : s0 = objs.foldl (fun t o => t.measure p o) s) :
    let refused : State → Prop := fun u => exec (.launchAppend p q hdr codes objs) s =
      .next (u.draw.2.recordRs p { kind := (Config.refuseKind u.draw.1).toNat, pa := hdr })
    (hdr.toNat % 64 ≠ 0 → refused s0) ∧ (∀ s1, s0.readHeader p hdr = (s1, none) → refused s1) ∧
    (∀ s1 bs os, s0.readHeader p hdr = (s1, some (bs, os)) → (s1.headerCheck p q hdr bs os codes = none → refused s1) ∧
      (∀ x, s1.headerCheck p q hdr bs os codes = some x → ∃ t : State, exec (.launchAppend p q hdr codes objs) s = .next t ∧
        t.mem = s1.mem ∧ t.hub.nextId = s1.hub.nextId + 1 ∧ t.launch? s1.hub.nextId = some x ∧ x.part = p ∧ x.queue = q ∧
        x.next = 0 ∧ x.entry.toNat = leVal (bs.take 8) % 2 ^ 64 ∧ x.kind = leVal ((bs.drop 8).take 1) ∧
        x.waves = leVal ((bs.drop 9).take 1) ∧ x.code = leVal ((bs.drop 38).take 2) ∧
        Tab.find? t.plat.meas p = some (sha512 (Tab.get (List.replicate 64 0) s1.plat.meas p ++ sha512 bs)) ∧
        (∃ parts, codes[x.code]? = some (if x.kind = 1 then 1 else 0, parts) ∧ s.partCode ∈ parts) ∧ hdr.toNat % 64 = 0)) := by
  intro refused
  have hrun := launchAppend_of hdr codes objs hb hp he hq
  rw [← h0] at hrun
  have hnone : ∀ s1, s0.readHeader p hdr = (s1, none) → refused s1 := fun s1 h => by rw [h] at hrun; exact hrun
  refine ⟨fun ha => hnone s0 (if_pos ha), hnone, fun s1 bs os h => ⟨fun hc => ?_, fun x hx => ?_⟩⟩
  · rw [h] at hrun
    dsimp only at hrun
    rw [hc] at hrun
    exact hrun
  · rw [h] at hrun
    dsimp only at hrun
    rw [hx] at hrun
    obtain ⟨hl, hcode⟩ := State.headerCheck_some hx
    have hpart : s1.partCode = s.partCode := by
      have hs := State.still_partCode (s0.readHeader_still p hdr)
      rw [h] at hs
      rw [show s1.partCode = s0.partCode from hs, State.partCode, h0, State.measures_rest]
      rfl
    refine ⟨_, hrun, rfl, rfl, ?_, ?_, ?_, ?_, ?_, ?_, ?_, ?_, Tab.find?_put_self _ _ _, ?_, State.readHeader_aligned h⟩
    · rw [hl]; exact Tab.find?_put_self _ _ _
    · rw [hl]; rfl
    · rw [hl]; rfl
    · rw [hl]; rfl
    · rw [hl]; exact BitVec.toNat_ofNat _ _
    · rw [hl]; rfl
    · rw [hl]; rfl
    · rw [hl]; rfl
    · rw [← hpart]; exact State.codeOk_iff hcode

end Sys2Proof.Machine
end

section
/-! PROOF. Packets that arrive and groups that start on a CU (R64, R303, R307, R308, R319). -/
namespace Sys2Proof.Machine

/-! ### Tables that lose entries or change them -/

/-- A table filtered by its keys. -/
theorem Tab.find?_filter_key {α : Type} (p : Nat → Bool) (t : Tab α) (n : Nat) :
    Tab.find? (t.filter (fun e => p e.1)) n = if p n then Tab.find? t n else none := by
  induction t with
  | nil => simp
  | cons e t ih =>
    obtain ⟨k, v⟩ := e
    rw [List.filter_cons]
    by_cases hn : k = n
    · subst hn
      by_cases hp : p k = true
      · simp [hp, Tab.find?]
      · simp [hp, ih]
    · by_cases hp : p k = true
      · simp [hp, Tab.find?, hn, ih]
      · simp [hp, Tab.find?, hn, ih]

/-- A table whose values are changed by their keys. -/
theorem Tab.find?_map_val {α β : Type} (f : Nat → α → β) (t : Tab α) (n : Nat) :
    Tab.find? (t.map (fun e => (e.1, f e.1 e.2))) n = (Tab.find? t n).map (f n) := by
  induction t with
  | nil => rfl
  | cons e t ih =>
    obtain ⟨k, v⟩ := e
    rw [List.map_cons, Tab.find?, Tab.find?]
    by_cases hn : k = n
    · subst hn; simp
    · simp [hn, ih]

/-- A range of a table is dropped, and the rest stands. -/
theorem Tab.get_dropRange {α : Type} (d : α) (t : Tab α) (lo n q : Nat) :
    Tab.get d (Tab.dropRange t lo n) q = if lo ≤ q ∧ q < lo + n then d else Tab.get d t q := by
  unfold Tab.get Tab.dropRange
  rw [Tab.find?_filter_key (fun k => !(decide (lo ≤ k) && decide (k < lo + n)))]
  by_cases h : lo ≤ q ∧ q < lo + n
  · simp [h]
  · rw [if_neg h, if_pos (by by_contra hc; exact h (by simpa using hc))]

/-! ### Packets that arrive (R307, R319) -/

section
variable {s : State} {n : Nat} {k : Packet} {x : Launch} (hk : s.hub.packets[n]? = some k) (hx : s.launch? k.launch = some x)
  (hd : k.dest < 192)
include hk hx hd

/-- A packet whose group cannot start stays. -/
theorem onPacket_stays (resume : Bool) (f : State → Launch → Packet → State) (h : s.canStart x k.dest = false) :
    onPacket s n resume f = .next s := by
  have hn : ¬ k.dest = noDest := by unfold noDest; omega
  unfold onPacket
  rw [hk]
  dsimp only
  rw [hx]
  dsimp only
  rw [if_neg hn, if_pos (by rw [h]; simp)]

/-- A packet of the kind asked for, whose group can start, is taken. -/
theorem onPacket_takes {resume : Bool} (f : State → Launch → Packet → State) (hr : (k.pkind == 2) = resume)
    (h : s.canStart x k.dest = true) :
    onPacket s n resume f = .next (f { s with hub := { s.hub with packets := dropNth s.hub.packets n } } x k) := by
  have hn : ¬ k.dest = noDest := by unfold noDest; omega
  unfold onPacket
  rw [hk]
  dsimp only
  rw [hx]
  dsimp only
  rw [if_neg hn, if_neg (by rw [h, hr]; simp)]

end

theorem unitSet_cu {kind : Nat} (h : kind ≠ 1) (waves u : Nat) : unitSet kind waves u = [u] := if_pos h

/-- A group of a CU can start once no operation holds a plot there (R64, R319). -/
theorem State.canStart_cu {s : State} {x : Launch} {u : Nat} (hu : u < 192) (hk : x.kind ≠ 1) (hup : s.unitUp u = true)
    (hf : (s.unit u).ustate = .free) (ho : min (Tab.get 7 s.plat.opLimit (10 + u / 48)) x.opc ≤ (s.die (10 + u / 48)).opc) :
    s.canStart x u = decide ((s.unit u).boundPlots = []) := by
  have hn : decide (u ≠ noDest) = true := decide_eq_true (by unfold noDest; omega)
  have hop : s.opReady x u = true := decide_eq_true (by rw [State.opWant, unitDie, if_pos hu]; exact ho)
  have hfree : ((s.unit u).ustate == UState.free) = true := by rw [hf]; rfl
  rw [State.canStart, hn, hop, unitSet_cu hk]
  simp only [Bool.and_true, Bool.true_and, List.all_cons, List.all_nil, hup, hfree]
  cases (s.unit u).boundPlots <;> rfl

/-- A group of a launch that is neither suspended nor a gang stays as it has come (R317, R338). -/
theorem State.settleIn_stays {t : State} {x y : Launch} {u : Nat} (hs : x.susp = false) (hy : t.launch? x.id = some y)
    (hg : y.sync ≤ 1) : t.settleIn x u = t := by
  have hgang : y.gang = false := decide_eq_false (by omega)
  have hl : t.gangLeaves x.id u = false := by rw [State.gangLeaves, hy]; dsimp only; rw [hgang]; rfl
  rw [State.settleIn, hs, hl]
  rfl

/-! ### Groups that start (R303, R308) -/

/-- The waves of a group start one after another, each in its slot, with what the unit and the package give it. -/
theorem State.startAgents (x : Launch) {u : Nat} (hu : u < 192) (entry : DWord) (args : List Word) (l : List Nat) : ∀ s : State,
    ∃ (m : MemSys) (A : Tab Agent), l.foldl (fun t gw => t.startAgent x u gw entry args) s = { s with ms := m, agents := A } ∧
      (∀ gw ∈ l, Tab.find? A (16 * u + gw) = some (s.newAgent x .wave u gw entry args)) ∧
      ∀ id, (∀ gw ∈ l, id ≠ 16 * u + gw) → Tab.find? A id = s.agent? id := by
  induction l with
  | nil => exact fun s => ⟨s.ms, s.agents, rfl, fun _ h => absurd h (List.not_mem_nil), fun _ _ => rfl⟩
  | cons g l ih =>
    intro s
    obtain ⟨m, he⟩ := s.startAgent_eq x g entry args hu
    obtain ⟨m', A, hf, hin, hout⟩ := ih (s.startAgent x u g entry args)
    refine ⟨m', A, ?_, fun gw hgw => ?_, fun id hid => ?_⟩
    · rw [List.foldl_cons, hf, he]
    · by_cases hl : gw ∈ l
      · rw [hin gw hl, he]; rfl
      · obtain rfl : gw = g := (List.mem_cons.mp hgw).resolve_right hl
        rw [hout _ (fun v hv h => hl (by rwa [show gw = v by omega])), he]
        exact Tab.find?_put_self _ _ _
    · rw [hout id (fun gw hgw => hid gw (List.mem_cons_of_mem g hgw)), he]
      exact Tab.find?_put_ne _ _ (hid g List.mem_cons_self)

/-- The unit of a new group of a CU (R64, R303). -/
def State.groupUnit (s : State) (x : Launch) (k : Packet) : UnitSt :=
  (s.unit k.dest).newGroup x k.ord x.waves x.ptok s.ntime k.dest

/-- The state in which the waves of a loop-nest group start: the unit is the group's, its scratchpad is zeros, and the launch counts
it (R64, R303). -/
def State.groupState (s : State) (x : Launch) (k : Packet) : State :=
  { s with
    units := Tab.put s.units k.dest (s.groupUnit x k)
    mem := Tab.dropRange s.mem (spadBase k.dest) (spadSize k.dest)
    ms := { s.ms with code := Tab.erase s.ms.code k.dest, own := Tab.erase s.ms.own k.dest }
    hub := { s.hub with launches := Tab.put s.hub.launches x.id { x with live := x.live ++ [k.dest] } } }

theorem State.startGroup_nest {s : State} {x : Launch} {k : Packet} (hu : k.dest < 192) (hk : x.kind = 0) :
    s.startGroup x k = (List.range x.waves).foldl
      (fun t gw => t.startAgent x k.dest gw x.entry (x.iterArgs k.ord k.idx)) (s.groupState x k) := by
  have h1 : x.kind ≠ 1 := by omega
  have h2 : x.kind ≠ 2 := by omega
  have h192 : ¬ 192 ≤ k.dest := by omega
  unfold State.startGroup
  dsimp only
  rw [unitSet_cu h1, if_neg h2, if_neg h1]
  rw [List.foldl_cons, List.foldl_nil, if_neg h192, if_pos rfl, if_pos rfl]
  rfl

theorem groupStarts (s : State) (n u : Nat) (k : Packet) (x : Launch) (hk : s.hub.packets[n]? = some k)
    (hx : s.launch? k.launch = some x) (hp : k.pkind = 0) (hd : k.dest = u) (hu : u < 192) (h0 : x.kind = 0) (h16 : x.waves ≤ 16)
    (hs : x.susp = false) (hup : s.unitUp u = true) (hf : (s.unit u).ustate = .free)
    (ho : min (Tab.get 7 s.plat.opLimit (10 + u / 48)) x.opc ≤ (s.die (10 + u / 48)).opc) :
    ((s.unit u).boundPlots ≠ [] → exec (.groupStart n) s = .next s) ∧
    ((s.unit u).boundPlots = [] → x.sync ≤ 1 →
    ∃ t : State, exec (.groupStart n) s = .next t ∧ t.hub.packets = dropNth s.hub.packets n ∧ (t.unit u).ustate = .running ∧
      (t.unit u).plots = [] ∧ (t.unit u).sliceAt = s.ntime ∧
      (t.unit u).launch = x.id ∧ (t.unit u).ord = k.ord ∧ (t.unit u).tokens = x.ptok ∧
      t.launch? x.id = some { x with live := x.live ++ [u] } ∧
      (∀ q, t.homeByte q = if spadBase u ≤ q ∧ q < spadBase u + 0x80000 then 0 else s.homeByte q) ∧
      ∀ w, w < x.waves → ∃ ag, t.agent? (16 * u + w) = some ag ∧ ag.profile = .wave ∧ ag.run = { pc := x.entry } ∧
        ag.part = x.part ∧ ag.launch = x.id ∧ ag.dmem = x.dmem u ∧ ag.gw.toNat = w ∧ ag.beat = BitVec.allOnes 96 ∧
        ag.sGet 1 = BitVec.ofNat 32 (s.plat.dom.toNat * 2 ^ 20 + s.plat.pkg.toNat) ∧ ag.sGet 2 = BitVec.ofNat 32 k.ord ∧
        (∀ i, i < 3 → ag.sGet (3 + i) = BitVec.ofNat 32 (k.idx.getD i 0)) ∧ ag.sGet 6 = BitVec.ofNat 32 x.total ∧
        ag.sGet 7 = 0) := by
  subst hd
  have hc := State.canStart_cu hu (by omega : x.kind ≠ 1) hup hf ho
  refine ⟨fun hb => ?_, fun hb hg => ?_⟩
  · exact onPacket_stays hk hx hu false (fun s x k => (s.startGroup x k).settleIn x k.dest) (by rw [hc]; exact decide_eq_false hb)
  · obtain ⟨s', hs'⟩ : ∃ s', ({ s with hub := { s.hub with packets := dropNth s.hub.packets n } } : State) = s' := ⟨_, rfl⟩
    obtain ⟨g, hg'⟩ : ∃ g, s'.groupState x k = g := ⟨_, rfl⟩
    obtain ⟨m, A, hfold, hin, -⟩ := State.startAgents x hu x.entry (x.iterArgs k.ord k.idx) (List.range x.waves) g
    have hl : ({ g with ms := m, agents := A } : State).launch? x.id = some { x with live := x.live ++ [k.dest] } := by
      rw [← hg']; exact Tab.find?_put_self _ _ _
    have hun : ({ g with ms := m, agents := A } : State).unit k.dest = s.groupUnit x k := by
      rw [← hg', ← hs']; exact Tab.get_put_self _ _ _ _
    have hgu : g.unit k.dest = s.groupUnit x k := by rw [← hg', ← hs']; exact Tab.get_put_self _ _ _ _
    have hplat : g.plat = s.plat := by rw [← hg', ← hs']; rfl
    refine ⟨{ g with ms := m, agents := A }, ?_, ?_, ?_, ?_, ?_, ?_, ?_, ?_, hl, fun q => ?_, fun w hw => ?_⟩
    · refine (onPacket_takes (resume := false) hk hx hu (fun s x k => (s.startGroup x k).settleIn x k.dest)
        (by rw [hp]; rfl) (by rw [hc]; exact decide_eq_true hb)).trans ?_
      rw [hs', State.startGroup_nest hu h0, hg', hfold, State.settleIn_stays hs hl hg]
    · rw [← hg', ← hs']; rfl
    · rw [hun]; rfl
    · rw [hun]; rfl
    · rw [hun]; rfl
    · rw [hun]; rfl
    · rw [hun]; rfl
    · rw [hun]; rfl
    · rw [← hg', ← hs']
      have hsize : spadSize k.dest = 0x80000 := if_pos hu
      have := Tab.get_dropRange (0 : Byte) s.mem (spadBase k.dest) (spadSize k.dest) q
      rw [hsize] at this
      unfold State.homeByte State.groupState
      rw [hsize]
      exact this
    · obtain ⟨hpr, -, hr, hpart, hlaunch, -, -, -, -, hdm⟩ := g.newAgent_fields x k.dest w x.entry (x.iterArgs k.ord k.idx)
      obtain ⟨-, -, -, hgw⟩ := g.newAgent_place x k.dest w x.entry (x.iterArgs k.ord k.idx) hu (by omega)
      have arg := fun (i : Nat) (hi : i < 58) => g.newAgent_sGet_arg x k.dest w x.entry (x.iterArgs k.ord k.idx) hi
      refine ⟨_, hin w (List.mem_range.mpr hw), hpr, hr, hpart, hlaunch, ?_, hgw, g.newAgent_beat _ _ _ _ _, ?_, ?_,
        fun i hi => ?_, ?_, ?_⟩
      · rw [hdm, hgu]; rfl
      · rw [g.newAgent_sGet x k.dest w x.entry _ (i := 0) (by omega)]
        show g.startS1 = _
        rw [State.startS1, hplat]
      · rw [arg 0 (by omega)]; rfl
      · rw [show 3 + i = i + 1 + 2 by omega, arg (i + 1) (by omega)]
        have : i = 0 ∨ i = 1 ∨ i = 2 := by omega
        rcases this with rfl | rfl | rfl <;> rfl
      · rw [arg 4 (by omega)]; rfl
      · rw [arg 5 (by omega)]; rfl

end Sys2Proof.Machine
end

section
/-! PROOF. Saved contexts that are restored on a CU (R303, R355). -/
namespace Sys2Proof.Machine

/-! ### Names across a save and a restore (R303, R355) -/

/-- Renaming agents leaves a unit but for the issuers in its side log. -/
theorem State.renameAgent_unit (s : State) (f : Nat → Nat) (u : Nat) :
    (s.renameAgent f).unit u = { s.unit u with slog := (s.unit u).slog.map (fun (x : SideEnt) => { x with agent := f x.agent }) } := by
  have h := Tab.find?_map_val
    (fun _ (x : UnitSt) => { x with slog := x.slog.map (fun (y : SideEnt) => { y with agent := f y.agent }) }) s.units u
  unfold State.renameAgent State.unit Tab.get
  dsimp only
  rw [h]
  cases Tab.find? s.units u <;> rfl

/-! ### Contexts that are restored (R303, R355) -/

/-- The unit of a CU as it takes a saved group. -/
def Saved.onUnit (sv : Saved) (s : State) (x : Launch) (u : Nat) : UnitSt :=
  { sv.grp with
    holder := (s.unit u).holder, slog := (s.unit u).slog, slogQ := [], temp := (s.unit u).temp, sfu := (s.unit u).sfu,
    ustate := .running, start := s.ntime, sliceAt := s.ntime, leader := u, tokens := x.ptok }

/-- Restoring a group of one agent on a CU: what stands afterwards. -/
theorem State.restoreGroup_cu {s : State} {x : Launch} {k : Packet} {sv : Saved} {a : Nat} {ag : Agent} (hu : k.dest < 192)
    (hk : x.kind ≠ 1) (hsv : Tab.find? s.hub.saves k.ctx = some sv) (hag : sv.agents = [(a, ag)]) :
    (s.restoreGroup x k).hub.packets = s.hub.packets ∧ Tab.find? (s.restoreGroup x k).hub.saves k.ctx = none ∧
    ((s.restoreGroup x k).unit k.dest).ustate = .running ∧ ((s.restoreGroup x k).unit k.dest).plots = sv.grp.plots ∧
    (s.restoreGroup x k).agent? (16 * k.dest + ag.gw.toNat) = some (ag.placed k.dest) ∧
    (s.restoreGroup x k).launch? x.id =
      some { x with live := x.live ++ [k.dest], saved := x.saved.filter (fun c => c != k.ctx) } := by
  obtain ⟨t, ht⟩ : ∃ t, s.restoreGroup x k = t := ⟨_, rfl⟩
  rw [ht]
  unfold State.restoreGroup at ht
  rw [hsv] at ht
  dsimp -zeta only at ht
  extract_lets -lift u us grp s1 name s2 s3 binds hub fab s4 at ht
  have h192 : ¬ 192 ≤ k.dest := by omega
  have hz : s1.units = Tab.put s.units k.dest (sv.onUnit s x k.dest) ∧ s1.hub = s.hub := by
    unfold s1 us u
    rw [unitSet_cu hk, List.zipIdx_cons, List.zipIdx_nil, List.foldl_cons, List.foldl_nil, if_neg h192, if_pos rfl, if_pos hu, if_pos hu]
    exact ⟨rfl, rfl⟩
  have hun : s2.unit k.dest = { sv.onUnit s x k.dest with
      slog := (s.unit k.dest).slog.map (fun (y : SideEnt) => { y with agent := name y.agent }) } := by
    have h1 : s1.unit k.dest = sv.onUnit s x k.dest := by rw [State.unit, hz.1]; exact Tab.get_put_self _ _ _ _
    show (s1.renameAgent name).unit k.dest = _
    rw [State.renameAgent_unit, h1]
    rfl
  have hp2 : s2.hub.packets = s.hub.packets := by
    show s1.hub.packets = _
    rw [hz.2]
  obtain ⟨m, hm⟩ := s2.acquire_eq (ag.placed k.dest) 3
  have h3 : s3 = { s2 with ms := m, agents := Tab.put s2.agents (16 * k.dest + ag.gw.toNat) (ag.placed k.dest) } := by
    unfold s3 u
    rw [hag, List.foldl_cons, List.foldl_nil, hm, agentOf_cu hu]
    rfl
  subst ht
  refine ⟨?_, ?_, ?_, ?_, ?_, ?_⟩
  · show s3.hub.packets = _
    rw [h3]
    exact hp2
  · exact Tab.find?_erase_self _ _
  · show (s3.unit k.dest).ustate = _
    rw [h3]
    exact (congrArg UnitSt.ustate hun).trans rfl
  · show (s3.unit k.dest).plots = _
    rw [h3]
    exact (congrArg UnitSt.plots hun).trans rfl
  · show s3.agent? _ = _
    rw [h3]
    exact Tab.find?_put_self _ _ _
  · exact Tab.find?_put_self _ _ _

theorem contextRestores (s : State) (n u a : Nat) (k : Packet) (x : Launch) (sv : Saved) (ag : Agent)
    (hk : s.hub.packets[n]? = some k) (hx : s.launch? k.launch = some x) (hp : k.pkind = 2) (hd : k.dest = u) (hu : u < 192)
    (h1 : x.kind ≠ 1) (hs : x.susp = false) (hup : s.unitUp u = true) (hf : (s.unit u).ustate = .free)
    (ho : min (Tab.get 7 s.plat.opLimit (10 + u / 48)) x.opc ≤ (s.die (10 + u / 48)).opc)
    (hsv : Tab.find? s.hub.saves k.ctx = some sv) (hag : sv.agents = [(a, ag)]) (hb : (s.unit u).boundPlots = []) (hg : x.sync ≤ 1) :
    ∃ (t : State) (y : Agent), exec (.contextRestore n) s = .next t ∧ t.hub.packets = dropNth s.hub.packets n ∧
      Tab.find? t.hub.saves k.ctx = none ∧ (t.unit u).ustate = .running ∧ (t.unit u).plots = sv.grp.plots ∧
      t.agent? (16 * u + ag.gw.toNat) = some y ∧
      y.s = ag.s ∧ y.v = ag.v ∧ y.k = ag.k ∧ y.tcause = ag.tcause ∧ y.gw = ag.gw ∧ y.slot = ag.gw ∧
      y.die.toNat = 10 + u / 48 ∧ y.cu.toNat = u % 48 ∧ y.run = ag.run := by
  subst hd
  obtain ⟨s', hs'⟩ : ∃ s', ({ s with hub := { s.hub with packets := dropNth s.hub.packets n } } : State) = s' := ⟨_, rfl⟩
  have hsv' : Tab.find? s'.hub.saves k.ctx = some sv := by rw [← hs']; exact hsv
  obtain ⟨hpk, hsave, hst, hpl, hagent, hl⟩ := State.restoreGroup_cu (s := s') hu h1 hsv' hag
  refine ⟨s'.restoreGroup x k, ag.placed k.dest, ?_, ?_, hsave, hst, hpl, hagent, rfl, rfl, rfl, rfl, rfl, rfl, ?_, ?_, rfl⟩
  · refine (onPacket_takes (resume := true) hk hx hu (fun s x k => (s.restoreGroup x k).settleIn x k.dest) (by rw [hp]; rfl)
      (by rw [State.canStart_cu hu h1 hup hf ho]; exact decide_eq_true hb)).trans ?_
    rw [hs', State.settleIn_stays hs hl hg]
  · rw [hpk, ← hs']
  · show (BitVec.ofNat 8 (unitDie k.dest)).toNat = _
    rw [BitVec.toNat_ofNat, unitDie, if_pos hu]
    omega
  · show (BitVec.ofNat 8 (unitIdx k.dest)).toNat = _
    rw [BitVec.toNat_ofNat, unitIdx, if_pos hu]
    omega

end Sys2Proof.Machine
end

section
/-! PROOF. Saving a group: what its leaving keeps, the saved context, its migration (R68, R216, R321, R355); O51 from the events above. -/
namespace Sys2Proof.Machine

/-! ### Contexts that are saved (R68, R303, R321, R355) -/

/-- A context stands as it was saved, but for the waits of its agents. -/
structure Saved.Like (a b : Saved) : Prop where
  from_ : b.from_ = a.from_
  launch : b.launch = a.launch
  grp : b.grp = a.grp
  agents : ∀ i ag, (i, ag) ∈ a.agents → ∃ w, (i, { ag with wait := w }) ∈ b.agents

theorem Saved.Like.refl (a : Saved) : a.Like a := ⟨rfl, rfl, rfl, fun _ ag h => ⟨ag.wait, h⟩⟩

theorem Saved.Like.trans {a b c : Saved} (h : a.Like b) (g : b.Like c) : a.Like c where
  from_ := g.from_.trans h.from_
  launch := g.launch.trans h.launch
  grp := g.grp.trans h.grp
  agents i ag hi := by
    obtain ⟨w, hw⟩ := h.agents i ag hi
    obtain ⟨w', hw'⟩ := g.agents i _ hw
    exact ⟨w', hw'⟩

/-- What Rotunda counts of fences and shows of the dies. -/
def State.board (s : State) : Nat × Word × Tab Die := (s.rot.nFenced, s.rot.capGen, s.plat.dies)

/-- What freeing a unit keeps: memory, the board, packets, launches, the next context, the units that are free already, and the
contexts but for their agents' waits. -/
structure State.Frees (s t : State) : Prop where
  mem : t.mem = s.mem
  board : t.board = s.board
  packets : t.hub.packets = s.hub.packets
  nextCtx : t.hub.nextCtx = s.hub.nextCtx
  launches : t.hub.launches = s.hub.launches
  units : ∀ u, (s.unit u).ustate = .free → (t.unit u).ustate = .free
  saves : ∀ c sv, Tab.find? s.hub.saves c = some sv → ∃ sv', Tab.find? t.hub.saves c = some sv' ∧ sv.Like sv'

theorem State.Frees.refl (s : State) : s.Frees s := ⟨rfl, rfl, rfl, rfl, rfl, fun _ h => h, fun _ sv h => ⟨sv, h, .refl sv⟩⟩

theorem State.Frees.trans {s t r : State} (h : s.Frees t) (g : t.Frees r) : s.Frees r where
  mem := g.mem.trans h.mem
  board := g.board.trans h.board
  packets := g.packets.trans h.packets
  nextCtx := g.nextCtx.trans h.nextCtx
  launches := g.launches.trans h.launches
  units u hu := g.units u (h.units u hu)
  saves c sv hc := by
    obtain ⟨sv', hsv', hl⟩ := h.saves c sv hc
    obtain ⟨sv'', hsv'', hl'⟩ := g.saves c sv' hsv'
    exact ⟨sv'', hsv'', hl.trans hl'⟩

theorem State.Frees.foldl {α : Type} {f : State → α → State} (l : List α) (hf : ∀ (t : State) (a : α), t.Frees (f t a)) :
    ∀ s : State, s.Frees (l.foldl f s) := by
  induction l with
  | nil => exact .refl
  | cons a l ih => exact fun s => (hf s a).trans (ih (f s a))

/-- A change of units, quadrants, the fabric or agents that leaves every unit's state keeps the rest. -/
theorem State.Frees.of_eq {s t : State} (hm : t.mem = s.mem) (hb : t.board = s.board) (hh : t.hub = s.hub)
    (hu : t.units = s.units) : s.Frees t :=
  ⟨hm, hb, by rw [hh], by rw [hh], by rw [hh], fun u h => by rwa [State.unit, hu], fun c sv h => ⟨sv, by rwa [hh], .refl sv⟩⟩

/-- The wait of an agent, live or saved, changes. -/
theorem State.frees_updAny (s : State) (id : Nat) (f : Agent → Agent) (hf : ∀ ag, ∃ w, f ag = { ag with wait := w }) :
    s.Frees (s.updAny id f) := by
  unfold State.updAny
  cases s.agent? id with
  | some ag => exact .of_eq rfl rfl rfl rfl
  | none =>
    refine ⟨rfl, rfl, rfl, rfl, rfl, fun u h => h, fun c sv h => ?_⟩
    have hm := Tab.find?_map_val
      (fun _ (x : Saved) => { x with agents := x.agents.map (fun (a : Nat × Agent) => if a.1 = id then (a.1, f a.2) else a) }) s.hub.saves c
    rw [h] at hm
    refine ⟨_, hm, rfl, rfl, rfl, fun i ag hi => ?_⟩
    obtain ⟨w, hw⟩ := hf ag
    by_cases he : i = id
    · exact ⟨w, List.mem_map.mpr ⟨(i, ag), hi, by rw [if_pos he, hw]⟩⟩
    · exact ⟨ag.wait, List.mem_map.mpr ⟨(i, ag), hi, if_neg he⟩⟩

theorem State.frees_refuseBlocks (s : State) (q : Nat) : s.Frees (s.refuseBlocks q) := by
  unfold State.refuseBlocks
  refine .foldl _ (fun t b => State.frees_updAny t _ _ (fun ag => ?_)) s
  split
  · exact ⟨_, rfl⟩
  · exact ⟨ag.wait, rfl⟩

/-- A unit that is freed is free. -/
theorem State.frees_putUnit_freed (s t : State) (v : Nat) (h : s.Frees t) (x : UnitSt) : s.Frees (t.putUnit v x.freed) := by
  refine h.trans ⟨rfl, rfl, rfl, rfl, rfl, fun u hu => ?_, fun c sv h => ⟨sv, h, .refl sv⟩⟩
  by_cases he : u = v
  · subst he; rw [State.putUnit_unit_self]; rfl
  · rwa [State.putUnit_unit_ne _ _ he]

/-- The units that are freed with a unit: itself, and the members of its quadrant set (R316). -/
def State.leftUnits (s : State) (u : Nat) : List Nat :=
  if 192 ≤ u then (List.range' 192 32).filter (fun v => v = u ∨ ((s.unit v).ustate = .reserved ∧ (s.unit v).leader = u)) else [u]

theorem State.mem_leftUnits (s : State) {u : Nat} (hu : u < 224) : u ∈ s.leftUnits u := by
  unfold State.leftUnits
  split
  case isTrue h => exact List.mem_filter.mpr ⟨List.mem_range'_1.mpr ⟨h, by omega⟩, by simp⟩
  case isFalse => exact List.mem_singleton_self u

/-- One unit is freed. -/
def State.free1 (t : State) (v : Nat) : State :=
  (if 192 ≤ v then (t.refuseBlocks (v - 192)).putQuad (v - 192) {} else t).putUnit v (t.unit v).freed

theorem State.frees_free1 (t : State) (v : Nat) : t.Frees (t.free1 v) := by
  refine State.frees_putUnit_freed t _ v ?_ _
  split
  · exact (t.frees_refuseBlocks (v - 192)).trans (.of_eq rfl rfl rfl rfl)
  · exact .refl t

theorem State.free1_free (t : State) (v : Nat) : ((t.free1 v).unit v).ustate = .free := by
  rw [State.free1, State.putUnit_unit_self]; rfl

theorem State.foldl_free1_free {v : Nat} (l : List Nat) : ∀ s : State, v ∈ l ∨ (s.unit v).ustate = .free →
    ((l.foldl State.free1 s).unit v).ustate = .free := by
  induction l with
  | nil => exact fun s h => h.resolve_left List.not_mem_nil
  | cons a l ih =>
    intro s h
    refine ih (s.free1 a) ?_
    rcases h with h | h
    · rcases List.mem_cons.mp h with rfl | h
      · exact .inr (s.free1_free v)
      · exact .inl h
    · exact .inr ((s.frees_free1 a).units v h)

theorem State.freeUnit_eq (s : State) (u : Nat) :
    s.freeUnit u = ((s.pwrGive (s.unit u).part (s.unit u).tokens).leftUnits u).foldl State.free1
      (s.pwrGive (s.unit u).part (s.unit u).tokens) := rfl

theorem State.frees_freeUnit (s : State) (u : Nat) : s.Frees (s.freeUnit u) := by
  rw [State.freeUnit_eq]
  have h : s.Frees (s.pwrGive (s.unit u).part (s.unit u).tokens) := .of_eq rfl rfl rfl rfl
  exact h.trans (.foldl _ State.frees_free1 _)

theorem State.freeUnit_free (s : State) {u : Nat} (hu : u < 224) : ((s.freeUnit u).unit u).ustate = .free := by
  rw [State.freeUnit_eq]
  exact State.foldl_free1_free _ _ (.inl (State.mem_leftUnits _ hu))

/-- What a group's leaving of the queues keeps: memory, the hub, and every unit's launch and plots. -/
structure State.Quiets (s t : State) : Prop where
  mem : t.mem = s.mem
  hub : t.hub = s.hub
  unit : ∀ v, (t.unit v).launch = (s.unit v).launch ∧ (t.unit v).plots = (s.unit v).plots

theorem State.Quiets.refl (s : State) : s.Quiets s := ⟨rfl, rfl, fun _ => ⟨rfl, rfl⟩⟩

theorem State.Quiets.trans {s t r : State} (h : s.Quiets t) (g : t.Quiets r) : s.Quiets r :=
  ⟨g.mem.trans h.mem, g.hub.trans h.hub, fun v => ⟨(g.unit v).1.trans (h.unit v).1, (g.unit v).2.trans (h.unit v).2⟩⟩

theorem State.quiets_putUnit (s : State) (u : Nat) (x : UnitSt) (hl : x.launch = (s.unit u).launch) (hp : x.plots = (s.unit u).plots) :
    s.Quiets (s.putUnit u x) := by
  refine ⟨rfl, rfl, fun v => ?_⟩
  by_cases h : v = u
  · subst h; rw [State.putUnit_unit_self]; exact ⟨hl, hp⟩
  · rw [State.putUnit_unit_ne _ _ h]; exact ⟨rfl, rfl⟩

theorem State.quiets_updAgent (s : State) (id : Nat) (f : Agent → Agent) : s.Quiets (s.updAgent id f) := by
  unfold State.updAgent
  cases s.agent? id with
  | some ag => exact ⟨rfl, rfl, fun v => ⟨rfl, rfl⟩⟩
  | none => exact .refl s

theorem State.quiets_sfuExec (s : State) (u : Nat) (e : SfuEntry) : s.Quiets (s.sfuExec u e) := by
  unfold State.sfuExec
  dsimp only
  split
  · exact s.quiets_putUnit u _ (by split <;> rfl) (by split <;> rfl)
  · exact s.quiets_updAgent _ _

theorem State.quiets_sfuRun (u : Nat) : ∀ (n : Nat) (s : State), s.Quiets (s.sfuRun u n)
  | 0, s => .refl s
  | n + 1, s => by
    rw [State.sfuRun]
    split
    · exact .refl s
    next e rest _ =>
      exact (s.quiets_putUnit u { s.unit u with sfu := rest } rfl rfl).trans ((State.quiets_sfuExec _ u e).trans (quiets_sfuRun u n _))

theorem State.quiets_leave (s : State) (u id : Nat) (ag : Agent) : s.Quiets ((s.leaveQueues id u).drainSfu id ag) := by
  refine (s.quiets_putUnit u _ rfl rfl : s.Quiets (s.leaveQueues id u)).trans ?_
  unfold State.drainSfu
  split
  · exact State.quiets_sfuRun _ _ _
  · exact .refl _

/-- The state in which a group is saved: its agents have left the queues of their unit and the SFU has served them. -/
def State.quiet (s : State) (u : Nat) : State :=
  (s.agentsOn u).foldl (fun t e => (t.leaveQueues e.1 u).drainSfu e.1 e.2) s

theorem State.quiets_quiet (s : State) (u : Nat) : s.Quiets (s.quiet u) := by
  unfold State.quiet
  generalize s.agentsOn u = l
  induction l generalizing s with
  | nil => exact .refl s
  | cons e l ih => exact (s.quiets_leave u e.1 e.2).trans (ih _)

/-- Where the unit's SFU queue is empty, leaving the queues changes no agent. -/
theorem State.quiet_agents (s : State) (u : Nat) (h : (s.unit u).sfu = []) : (s.quiet u).agents = s.agents := by
  unfold State.quiet
  have hon : ∀ e ∈ s.agentsOn u, e.2.unit = u := fun e he => by
    have := (List.mem_filter.mp he).2
    simp only [Bool.and_eq_true, beq_iff_eq] at this
    exact this.2
  generalize s.agentsOn u = l at hon
  induction l generalizing s with
  | nil => rfl
  | cons e l ih =>
    have hs : ((s.leaveQueues e.1 u).unit u).sfu = [] := by
      rw [State.leaveQueues, State.putUnit_unit_self]; exact h
    have hd : (s.leaveQueues e.1 u).drainSfu e.1 e.2 = s.leaveQueues e.1 u := by
      unfold State.drainSfu
      rw [hon e List.mem_cons_self, hs]
      exact ite_self _
    rw [List.foldl_cons, hd]
    exact ih _ hs (fun e he => hon e (List.mem_cons_of_mem _ he))

/-- A saved agent keeps its registers and its number in the group. -/
theorem Agent.toSaved_fields (ag : Agent) : ag.toSaved.s = ag.s ∧ ag.toSaved.v = ag.v ∧ ag.toSaved.k = ag.k ∧ ag.toSaved.bt = ag.bt ∧
    ag.toSaved.d = ag.d ∧ ag.toSaved.tcause = ag.tcause ∧ ag.toSaved.gw = ag.gw := by
  unfold Agent.toSaved Agent.atRep
  show (_ : Agent).s = _ ∧ _
  cases h : ag.run.rep <;> simp [Agent.dropWaitw, h]

/-- Saving a group (R68, R216, R303, R355): what the saved context holds and what stands afterwards. -/
theorem State.saveGroup_spec (s : State) {u : Nat} (x : Launch) (hu : u < 224) (hx : s.launch? (s.unit u).launch = some x) :
    (s.saveGroup u).mem = s.mem ∧ ((s.saveGroup u).unit u).ustate = .free ∧ (s.saveGroup u).hub.packets = s.hub.packets ∧
    (s.saveGroup u).hub.nextCtx = s.hub.nextCtx + 1 ∧
    (s.saveGroup u).hub.launches =
      Tab.put s.hub.launches x.id { x with live := x.live.filter (· != u), saved := x.saved ++ [s.hub.nextCtx] } ∧
    ∃ sv, Tab.find? (s.saveGroup u).hub.saves s.hub.nextCtx = some sv ∧ sv.from_ = u ∧ sv.launch = (s.unit u).launch ∧
      sv.grp.plots = (s.unit u).plots ∧
      ∀ e ∈ (s.quiet u).agentsOn u, ∃ j w, (j, { e.2.toSaved with wait := w }) ∈ sv.agents := by
  obtain ⟨t, ht⟩ : ∃ t, s.saveGroup u = t := ⟨_, rfl⟩
  rw [ht]
  obtain ⟨q, hq⟩ : ∃ q, s.quiet u = q := ⟨_, rfl⟩
  have hqs : s.Quiets q := hq ▸ s.quiets_quiet u
  rw [hq]
  unfold State.saveGroup at ht
  extract_lets -lift c s0 x0 us ags sv name s1 s2 binds hub fab s3 s4 s5 at ht
  have h0 : s0 = q := hq
  have hm3 : s3.mem = s.mem := (congrArg State.mem h0).trans hqs.mem
  have hh0 : s0.hub = s.hub := (congrArg State.hub h0).trans hqs.hub
  have hp3 : s3.hub.packets = s.hub.packets := (congrArg Hub.packets hh0 :)
  have hl3 : s3.hub.launches = s.hub.launches := (congrArg Hub.launches hh0 :)
  have hs3 : Tab.find? s3.hub.saves s.hub.nextCtx = some sv := Tab.find?_put_self _ _ _
  have h4 : s3.Frees s4 := .foldl us (fun t v => by
    split
    · exact .of_eq rfl rfl rfl rfl
    · exact .refl t) s3
  have h5 : s3.Frees s5 := h4.trans (s4.frees_freeUnit u)
  have hx0 : x0.launch = (s.unit u).launch := by unfold x0; rw [h0]; exact (hqs.unit u).1
  have hx5 : s5.launch? x0.launch = some x := by rw [hx0, State.launch?, h5.launches, hl3]; exact hx
  rw [hx5] at ht
  obtain ⟨sv', hsv', hlike⟩ := h5.saves _ sv hs3
  subst ht
  refine ⟨h5.mem.trans hm3, s4.freeUnit_free hu, h5.packets.trans hp3, h5.nextCtx, ?_, sv', hsv', hlike.from_,
    hlike.launch.trans hx0, ?_, fun e he => ?_⟩
  · exact congrArg (fun l => Tab.put l x.id _) (h5.launches.trans hl3)
  · rw [hlike.grp]
    show x0.plots = _
    unfold x0
    rw [h0]
    exact (hqs.unit u).2
  · refine ⟨_, hlike.agents (savedAgent c e.2.gw.toNat) e.2.toSaved (List.mem_map.mpr ⟨e, ?_, rfl⟩)⟩
    unfold ags
    rw [h0]
    exact he

theorem contextSaves (s : State) (u : Nat) (x : Launch) (hu : u < 224) (hst : (s.unit u).ustate = .saving) (hsv : s.savable u = true)
    (hf : (s.unit u).sfu = []) (hx : s.launch? (s.unit u).launch = some x) (hid : x.id = (s.unit u).launch) :
    ∃ (t : State) (sv : Saved), exec (.contextSave u) s = .next t ∧ Tab.find? t.hub.saves s.hub.nextCtx = some sv ∧
      t.hub.nextCtx = s.hub.nextCtx + 1 ∧ t.mem = s.mem ∧ sv.from_ = u ∧ sv.launch = x.id ∧ sv.grp.plots = (s.unit u).plots ∧
      (t.unit u).ustate = .free ∧ t.launch? x.id = some { x with live := x.live.filter (· != u), saved := x.saved ++ [s.hub.nextCtx] } ∧
      ∀ i ag, (i, ag) ∈ s.agentsOn u → ∃ j y, (j, y) ∈ sv.agents ∧ y.s = ag.s ∧ y.v = ag.v ∧ y.k = ag.k ∧ y.bt = ag.bt ∧
        y.d = ag.d ∧ y.tcause = ag.tcause ∧ y.gw = ag.gw := by
  obtain ⟨hm, hfree, -, hc, hl, sv, hsaves, hfrom, hlaunch, hplots, hags⟩ := s.saveGroup_spec x hu hx
  refine ⟨s.saveGroup u, sv, congrArg Host.Outcome.next (if_pos ⟨hst, hsv⟩), hsaves, hc, hm, hfrom, hlaunch.trans hid.symm, hplots,
    hfree, ?_, fun i ag hi => ?_⟩
  · rw [State.launch?, hl]
    exact Tab.find?_put_self _ _ _
  · have hq : (s.quiet u).agentsOn u = s.agentsOn u := congrArg (List.filter _) (s.quiet_agents u hf)
    obtain ⟨j, w, hy⟩ := hags (i, ag) (hq ▸ hi)
    obtain ⟨hs, hv, hk, hbt, hd, htc, hgw⟩ := ag.toSaved_fields
    exact ⟨j, _, hy, hs, hv, hk, hbt, hd, htc, hgw⟩

theorem migrations (s : State) (u v : Nat) (hu : u < 224) (hm : s.mayMigrate u v = true) :
    ∃ t : State, exec (.migration u v) s = .next t ∧ t.mem = s.mem ∧
    (t.unit u).ustate = .free ∧ t.hub.packets = s.hub.packets ++
      [{ pkind := 2, launch := (s.unit u).launch, ctx := s.hub.nextCtx, dest := v,
         code := ((s.launch? (s.unit u).launch).map (fun x => x.code)).getD 0 }] := by
  cases hx : s.launch? (s.unit u).launch with
  | none => rw [State.mayMigrate, hx] at hm; exact absurd hm Bool.false_ne_true
  | some x =>
    have he : exec (.migration u v) s = .next ((s.saveGroup u).resumeOn (s.unit u).launch s.hub.nextCtx v) :=
      congrArg Host.Outcome.next (if_pos hm)
    obtain ⟨hmem, hfree, hp, -, hl, -⟩ := s.saveGroup_spec x hu hx
    rw [he]
    generalize s.saveGroup u = r at hmem hfree hp hl
    obtain ⟨y, hy, hcode⟩ : ∃ y, r.launch? (s.unit u).launch = some y ∧ y.code = x.code := by
      rw [State.launch?, hl]
      by_cases hid : (s.unit u).launch = x.id
      · rw [hid]; exact ⟨_, Tab.find?_put_self _ _ _, rfl⟩
      · exact ⟨x, (Tab.find?_put_ne _ _ hid).trans hx, rfl⟩
    have hr : r.resumeOn (s.unit u).launch s.hub.nextCtx v =
        r.sendPacket y { pkind := 2, launch := (s.unit u).launch, ctx := s.hub.nextCtx, dest := v } := by rw [State.resumeOn, hy]
    refine ⟨_, congrArg Host.Outcome.next hr, hmem, hfree, ?_⟩
    show r.hub.packets ++ [_] = _
    rw [hp, hcode]
    rfl

end Sys2Proof.Machine
namespace Sys2Proof.Settled
open Sys2Proof Sys2Proof.Machine

/-- Settles O51: one theorem for each of its events; a saved group is followed through the stages of its save, a started one through
its agents' starts. -/
theorem launchesAndTasks : Obligations.LaunchesAndTasks := by
  unfold Obligations.LaunchesAndTasks
  refine ⟨?_, ?_, ?_, launchAppends, ?_, ?_, ?_, migrations, ?_, powerWindows⟩
  case refine_1 =>
    intro s cu slot l rest r hc hs h16 hg hf hd hl h6 _
    exact taskStarts s cu slot l rest r hc hs h16 hg hf hd hl h6
  case refine_2 =>
    intro s n d c f hf hd _ _ hc hg hq hb
    exact heldFirePlaced s n d c f hf hd hc hg hq hb
  case refine_3 =>
    intro s q b rest ag x hb ha hc hg hr hw
    have hgo := remqBlock_goes hc hg hr hw
    refine ⟨fun y cs j h => remqBlockDispatch_waits hb ha hgo h,
      fun y cs j st h hx hxw => remqBlockDispatch_answers hb ha hgo h hx hxw, ?_⟩
    intro w ws fn a b' c tok y hbc hf hl hq
    rw [hbc]
    exact State.blockRun_one hf hl hq
  case refine_4 =>
    intro s n u k x hk hx hp hd hu h0 h16 hs hup _ hf ho
    exact groupStarts s n u k x hk hx hp hd hu h0 h16 hs hup hf ho
  case refine_5 =>
    intro s u x hu hst hsv hf hx hid
    exact contextSaves s u x hu hst hsv hf hx hid
  case refine_6 =>
    intro s n u a k x sv ag hk hx hp hd hu h1 hs hup hf ho hsv hag hb hg
    exact contextRestores s n u a k x sv ag hk hx hp hd hu h1 hs hup hf ho hsv hag hb hg
  case refine_7 =>
    intro s die c h hc
    rw [hc]
    exact opPointChange_up h

end Sys2Proof.Settled
end

section
/-! PROOF. Package reset (R32, R362, R363): the fields of `boot_st`, the slot that boots and the cores that start. -/
namespace Sys2Proof.Machine

/-- A field of `boot_st` reads back bit by bit, and every other bit stays. -/
theorem getLsbD_bootField (w : Word) {lo len v i : Nat} (hv : v < 2 ^ len) (hi : i < 32) :
    (bootField w lo len v).getLsbD i = if lo ≤ i ∧ i < lo + len then v.testBit (i - lo) else w.getLsbD i := by
  unfold bootField
  rw [BitVec.getLsbD_or, BitVec.getLsbD_and, BitVec.getLsbD_not, BitVec.getLsbD_ofNat, BitVec.getLsbD_ofNat,
    Nat.testBit_mul_two_pow, Nat.testBit_mul_two_pow, Nat.testBit_two_pow_sub_one]
  by_cases hin : lo ≤ i ∧ i < lo + len
  · have : i - lo < len := by omega
    simp [hin, hi, this]
  · rw [if_neg hin]
    by_cases hlo : lo ≤ i
    · have hlen : len ≤ i - lo := by omega
      have hb : v.testBit (i - lo) = false := Nat.testBit_lt_two_pow (Nat.lt_of_lt_of_le hv (Nat.pow_le_pow_right (by omega) hlen))
      simp [hi, hb, hlen]
    · simp [hi, hlo]

/-- A field of a word, by its bits. -/
theorem toNat_field_eq (w : Word) {lo len v : Nat} (hv : v < 2 ^ len)
    (h : ∀ i, i < len → w.getLsbD (lo + i) = v.testBit i) : w.toNat / 2 ^ lo % 2 ^ len = v := by
  apply Nat.eq_of_testBit_eq
  intro i
  rw [Nat.testBit_mod_two_pow, Nat.testBit_div_two_pow]
  by_cases hi : i < len
  · rw [decide_eq_true hi, Bool.true_and, Nat.add_comm i lo]
    exact h i hi
  · rw [decide_eq_false hi, Bool.false_and]
    exact (Nat.testBit_lt_two_pow (Nat.lt_of_lt_of_le hv (Nat.pow_le_pow_right (by omega) (by omega)))).symm

/-- The stage of `boot_st`, its top byte. -/
theorem toNat_stage_eq (w : Word) {v : Nat} (hv : v < 2 ^ 8) (h : ∀ i, i < 8 → w.getLsbD (24 + i) = v.testBit i) :
    w.toNat / 2 ^ 24 = v := by
  have hm : w.toNat / 2 ^ 24 % 2 ^ 8 = v := toNat_field_eq w hv h
  have := w.isLt
  omega

/-- What `boot_st` holds once a slot has booted: the slot, and stage 1. -/
theorem getLsbD_bootedWord (w : Word) {slot i : Nat} (hs : slot < 2) (hi : i < 32) :
    (bootedWord w slot).getLsbD i = if i = 0 then slot.testBit 0 else if 24 ≤ i then (1 : Nat).testBit (i - 24) else w.getLsbD i := by
  unfold bootedWord
  rw [getLsbD_bootField _ (by omega) hi, getLsbD_bootField _ (by omega) hi]
  by_cases h0 : i = 0
  · subst h0; rfl
  · rw [if_neg (by omega), if_neg h0]
    by_cases h24 : 24 ≤ i
    · rw [if_pos (by omega), if_pos h24]
    · rw [if_neg (by omega), if_neg h24]

theorem bootedWord_stage (w : Word) {slot : Nat} (hs : slot < 2) : (bootedWord w slot).toNat / 2 ^ 24 = 1 :=
  toNat_stage_eq _ (by omega) (fun i hi => by
    rw [getLsbD_bootedWord w hs (by omega), if_neg (by omega), if_pos (by omega), Nat.add_sub_cancel_left])

/-- The cores start, each at the entry. -/
theorem State.startCores_eq (s : State) (entry : DWord) : ∃ A, s.startCores entry = { s with agents := A } ∧
    ∀ n, n < 16 → Tab.find? A (8192 + n) = some { profile := .host, die := 1, cu := BitVec.ofNat 8 n, run := { pc := entry } } := by
  have H : ∀ k, ∃ A, (List.range k).foldl (fun (t : State) n =>
      t.putAgent (coreBase + n) { profile := .host, die := 1, cu := BitVec.ofNat 8 n, run := { pc := entry } }) s = { s with agents := A } ∧
      ∀ n, n < k → Tab.find? A (8192 + n) = some { profile := .host, die := 1, cu := BitVec.ofNat 8 n, run := { pc := entry } } := by
    intro k
    induction k with
    | zero => exact ⟨s.agents, rfl, fun n hn => absurd hn (Nat.not_lt_zero n)⟩
    | succ k ih =>
      obtain ⟨A, hA, hget⟩ := ih
      rw [List.range_succ, List.foldl_append, hA]
      refine ⟨_, rfl, fun n hn => ?_⟩
      by_cases hk : n = k
      · subst hk; exact Tab.find?_put_self _ _ _
      · exact (Tab.find?_put_ne _ _ (by unfold coreBase; omega)).trans (hget n (by omega))
  exact H 16

theorem State.setHomes_eq {α : Type} (a : α → Nat) (f : α → Byte) (l : List α) : ∀ s : State,
    ∃ m, l.foldl (fun t e => t.setHome (a e) (f e)) s = { s with mem := m } := by
  induction l with
  | nil => exact fun s => ⟨s.mem, rfl⟩
  | cons e l ih =>
    intro s
    obtain ⟨m, hm⟩ := ih (s.setHome (a e) (f e))
    exact ⟨m, hm⟩

/-- A slot that boots changes ways, memory and the boot's measurement, and starts the cores at its entry. -/
theorem State.bootSlot_eq (s : State) (b : Bool) : ∃ A m o p, s.bootSlot b = { s with
      agents := A, mem := m, rot := { s.rot with orngWay := o }, plat := p } ∧ p.halted = false ∧ p.flash = s.plat.flash ∧
    ∀ n, n < 16 → ∃ ag, Tab.find? A (8192 + n) = some ag ∧ ag.profile = .host ∧
      ag.run = { pc := BitVec.ofNat 64 (leVal (((s.fwHeader b).drop 16).take 8)) } := by
  obtain ⟨t, ht⟩ : ∃ t, s.bootSlot b = t := ⟨_, rfl⟩
  rw [ht]
  unfold State.bootSlot at ht
  extract_lets -lift h body ways rot plat s1 s2 at ht
  obtain ⟨m, hm⟩ := State.setHomes_eq (fun (e : Byte × Nat) => carveBase + e.2) (fun e => e.1) body.zipIdx s1
  have h2 : s2 = { s1 with mem := m } := hm
  obtain ⟨A, hA, hcores⟩ := s2.startCores_eq (BitVec.ofNat 64 (leVal ((h.drop 16).take 8)))
  refine ⟨A, m, s1.rot.orngWay, s1.plat, ?_, rfl, rfl, fun n hn => ⟨_, hcores n hn, rfl, rfl⟩⟩
  rw [← ht, hA, h2]

/-- The state once the ROM has booted a slot. -/
def State.booted (t : State) (b : Bool) (slot : Nat) : State :=
  let u := t.bootSlot b
  { u with rot := { u.rot with bootSt := bootedWord u.rot.bootSt slot } }

theorem State.booted_eq (t : State) (b : Bool) (slot : Nat) : ∃ A m o p, t.booted b slot = { t with
      agents := A, mem := m, rot := { t.rot with orngWay := o, bootSt := bootedWord t.rot.bootSt slot }, plat := p } ∧
    p.halted = false ∧ p.flash = t.plat.flash ∧
    ∀ n, n < 16 → ∃ ag, Tab.find? A (8192 + n) = some ag ∧ ag.profile = .host ∧
      ag.run = { pc := BitVec.ofNat 64 (leVal (((t.fwHeader b).drop 16).take 8)) } := by
  obtain ⟨A, m, o, p, he, hrest⟩ := t.bootSlot_eq b
  refine ⟨A, m, o, p, ?_, hrest⟩
  rw [State.booted, he]

/-- A slot that fails a check leaves its number in `boot_st`. -/
def State.failed (t : State) (lo a : Nat) : State := { t with rot := { t.rot with bootSt := bootField t.rot.bootSt lo 4 a } }

/-- What the ROM makes of the package after a reset (R362, R363): slot A is tried, then slot B. -/
def State.rom (t : State) : State :=
  let a := t.fwCheck false
  if a = 0 then
    let t := t.bootSlot false
    { t with rot := { t.rot with bootSt := bootedWord t.rot.bootSt 0 } }
  else
    let t := { t with rot := { t.rot with bootSt := bootField t.rot.bootSt 8 4 a } }
    let b := t.fwCheck true
    if b = 0 then
      let t := t.bootSlot true
      { t with rot := { t.rot with bootSt := bootedWord t.rot.bootSt 1 } }
    else { t with rot := { t.rot with bootSt := bootField t.rot.bootSt 16 4 b }, plat := { t.plat with halted := true } }

/-- A slot's checks look at the flash and the fuses alone. -/
theorem State.fwCheck_failed (t : State) (lo a : Nat) (b : Bool) : (t.failed lo a).fwCheck b = t.fwCheck b := by
  have hf : (t.failed lo a).plat = t.plat := rfl
  have hs : (t.failed lo a).rot.svnFuse = t.rot.svnFuse := rfl
  unfold State.fwCheck State.fwHeader State.flashBytes
  rw [hf, hs]

theorem State.rom_eq (t : State) : t.rom =
    if t.fwCheck false = 0 then t.booted false 0
    else
      let u := t.failed 8 (t.fwCheck false)
      if u.fwCheck true = 0 then u.booted true 1
      else { u.failed 16 (u.fwCheck true) with plat := { u.plat with halted := true } } := by
  delta State.rom State.booted State.failed
  with_reducible rfl

theorem State.rom_of_slotA {t : State} (h : t.fwCheck false = 0) : t.rom = t.booted false 0 := by
  rw [State.rom_eq, if_pos h]

theorem State.rom_of_slotB {t : State} (h : t.fwCheck false ≠ 0) (h' : t.fwCheck true = 0) :
    t.rom = (t.failed 8 (t.fwCheck false)).booted true 1 := by
  rw [State.rom_eq, if_neg h]
  dsimp only
  rw [State.fwCheck_failed, if_pos h']

theorem State.rom_of_none {t : State} (h : t.fwCheck false ≠ 0) (h' : t.fwCheck true ≠ 0) :
    t.rom = { (t.failed 8 (t.fwCheck false)).failed 16 (t.fwCheck true) with
      plat := { t.plat with halted := true } } := by
  rw [State.rom_eq, if_neg h]
  dsimp only
  rw [State.fwCheck_failed, if_neg h']
  rfl

/-- What the ROM leaves alone. -/
theorem State.rom_keeps (t : State) : t.rom.rot.svnFuse = t.rot.svnFuse ∧ t.rom.plat.flash = t.plat.flash ∧ t.rom.units = t.units ∧
    t.rom.hub = t.hub ∧ t.rom.fab = t.fab := by
  by_cases h : t.fwCheck false = 0
  · obtain ⟨A, m, o, p, he, -, hp, -⟩ := t.booted_eq false 0
    rw [State.rom_of_slotA h, he]; exact ⟨rfl, hp, rfl, rfl, rfl⟩
  by_cases h' : t.fwCheck true = 0
  · obtain ⟨A, m, o, p, he, -, hp, -⟩ := (t.failed 8 (t.fwCheck false)).booted_eq true 1
    rw [State.rom_of_slotB h h', he]; exact ⟨rfl, hp, rfl, rfl, rfl⟩
  · rw [State.rom_of_none h h']; exact ⟨rfl, rfl, rfl, rfl, rfl⟩

theorem State.rom_slotA {t : State} (h : t.fwCheck false = 0) : t.rom.rot.bootSt = bootedWord t.rot.bootSt 0 ∧
    t.rom.plat.halted = false ∧ ∀ n, n < 16 → ∃ ag, t.rom.agent? (8192 + n) = some ag ∧ ag.profile = .host ∧
      ag.run = { pc := BitVec.ofNat 64 (leVal (((t.fwHeader false).drop 16).take 8)) } := by
  obtain ⟨A, m, o, p, he, hh, -, hc⟩ := t.booted_eq false 0
  rw [State.rom_of_slotA h, he]
  exact ⟨rfl, hh, hc⟩

theorem State.rom_slotB {t : State} (h : t.fwCheck false ≠ 0) (h' : t.fwCheck true = 0) :
    t.rom.rot.bootSt = bootedWord (bootField t.rot.bootSt 8 4 (t.fwCheck false)) 1 := by
  obtain ⟨A, m, o, p, he, -⟩ := (t.failed 8 (t.fwCheck false)).booted_eq true 1
  rw [State.rom_of_slotB h h', he]
  rfl

theorem State.rom_halts {t : State} (h : t.fwCheck false ≠ 0) (h' : t.fwCheck true ≠ 0) :
    t.rom.rot.bootSt = bootField (bootField t.rot.bootSt 8 4 (t.fwCheck false)) 16 4 (t.fwCheck true) ∧
    t.rom.plat.halted = true ∧ t.rom.agents = t.agents := by
  rw [State.rom_of_none h h']
  exact ⟨rfl, rfl, rfl⟩

/-- The state after a reset, before the ROM looks at a slot (R32). -/
def State.cleared (s : State) (cold : Bool) : State :=
  { State.reset with
    free := s.free
    rot := { State.reset.rot with svnFuse := s.rot.svnFuse, bootSt := if cold then 0 else s.rot.bootSt }
    plat := { State.reset.plat with flash := s.plat.flash, rootHash := s.plat.rootHash, certs := s.plat.certs, idKey := s.plat.idKey } }

/-- A check's number fits its field. -/
theorem State.fwCheck_lt (s : State) (b : Bool) : s.fwCheck b < 2 ^ 4 := by
  unfold State.fwCheck
  dsimp only
  repeat' split
  all_goals decide

theorem packageReset_eq (s : State) (cold : Bool) : exec (.packageReset cold) s = .next (s.cleared cold).rom := by
  show execPackageReset cold s = _
  delta execPackageReset State.cleared State.rom
  with_reducible rfl

theorem packageResets (s t0 : State) (cold : Bool) (ht0 : t0 = s.cleared cold) :
    let b0 : Word := if cold then 0 else s.rot.bootSt
    let kept : State → Nat → Nat → Prop := fun t lo len => ∀ i, lo ≤ i → i < lo + len → t.rot.bootSt.getLsbD i = b0.getLsbD i
    ∃ t : State, exec (.packageReset cold) s = .next t ∧ t.rot.svnFuse = s.rot.svnFuse ∧ t.plat.flash = s.plat.flash ∧
      t.units = [] ∧ t.hub = State.reset.hub ∧ t.fab = State.reset.fab ∧
      (t0.fwCheck false = 0 → t.rot.bootSt.toNat / 2 ^ 24 = 1 ∧ t.rot.bootSt.getLsbD 0 = false ∧ kept t 1 23 ∧
        t.plat.halted = false ∧ ∀ n, n < 16 → ∃ ag, t.agent? (8192 + n) = some ag ∧ ag.profile = .host ∧
          ag.run = { pc := BitVec.ofNat 64 (leVal (((s.flashBytes 0 512).drop 16).take 8)) }) ∧
      (∀ a, t0.fwCheck false = a → a ≠ 0 → a ≤ 4 → t.rot.bootSt.toNat / 2 ^ 8 % 16 = a ∧ kept t 1 7 ∧ kept t 12 4 ∧ kept t 20 4 ∧
        (t0.fwCheck true = 0 → t.rot.bootSt.toNat / 2 ^ 24 = 1 ∧ t.rot.bootSt.getLsbD 0 = true ∧ kept t 16 4) ∧
        (∀ b, t0.fwCheck true = b → b ≠ 0 → b ≤ 4 → t.plat.halted = true ∧ t.agents = [] ∧ kept t 0 1 ∧ kept t 24 8 ∧
          t.rot.bootSt.toNat / 2 ^ 16 % 16 = b)) := by
  intro b0 kept
  obtain ⟨hsvn, hflash, hun, hhub, hfab⟩ := t0.rom_keeps
  have hboot : t0.rot.bootSt = b0 := by rw [ht0]; rfl
  have hhdr : t0.fwHeader false = s.flashBytes 0 512 := by rw [ht0]; rfl
  have hag : t0.agents = [] := by rw [ht0]; rfl
  refine ⟨t0.rom, by rw [ht0]; exact packageReset_eq s cold, hsvn.trans (by rw [ht0]; rfl), hflash.trans (by rw [ht0]; rfl),
    hun.trans (by rw [ht0]; rfl), hhub.trans (by rw [ht0]; rfl), hfab.trans (by rw [ht0]; rfl), fun ha => ?_, fun a ha h0 h4 => ?_⟩
  · obtain ⟨hb, hh, hc⟩ := State.rom_slotA ha
    rw [hhdr] at hc
    refine ⟨?_, ?_, fun i hlo hhi => ?_, hh, hc⟩ <;> rw [hb]
    · exact bootedWord_stage _ (by omega)
    · exact getLsbD_bootedWord _ (by omega) (by omega)
    · rw [getLsbD_bootedWord _ (by omega) (by omega), if_neg (by omega), if_neg (by omega), hboot]
  · have hne : t0.fwCheck false ≠ 0 := by rw [ha]; exact h0
    have ha16 : a < 2 ^ 4 := by omega
    have hfield : ∀ i, i < 32 → (bootField b0 8 4 a).getLsbD i = if 8 ≤ i ∧ i < 8 + 4 then a.testBit (i - 8) else b0.getLsbD i :=
      fun i hi => getLsbD_bootField b0 ha16 hi
    -- below the stage and beside slot B's field the word is the same whether slot B boots or not
    have hlow : ∀ i, i < 24 → i ≠ 0 → ¬ (16 ≤ i ∧ i < 16 + 4) → t0.rom.rot.bootSt.getLsbD i = (bootField b0 8 4 a).getLsbD i := by
      intro i hi h0' hn
      by_cases hb : t0.fwCheck true = 0
      · rw [State.rom_slotB hne hb, ha, hboot, getLsbD_bootedWord _ (by omega) (by omega), if_neg h0', if_neg (by omega)]
      · rw [(State.rom_halts hne hb).1, ha, hboot, getLsbD_bootField _ (State.fwCheck_lt _ _) (by omega), if_neg hn]
    have hkept : ∀ lo len, 0 < lo → lo + len ≤ 24 → lo + len ≤ 8 ∨ 12 ≤ lo → lo + len ≤ 16 ∨ 20 ≤ lo → kept t0.rom lo len :=
      fun lo len h1 h2 h3 h5 i hlo hhi => by
        rw [hlow i (by omega) (by omega) (by omega), hfield i (by omega), if_neg (by omega)]
    refine ⟨toNat_field_eq _ ha16 (fun i hi => ?_), hkept 1 7 (by omega) (by omega) (by omega) (by omega),
      hkept 12 4 (by omega) (by omega) (by omega) (by omega), hkept 20 4 (by omega) (by omega) (by omega) (by omega),
      fun hb => ?_, fun b hb hb0 hb4 => ?_⟩
    · rw [hlow _ (by omega) (by omega) (by omega), hfield _ (by omega), if_pos (by omega), Nat.add_sub_cancel_left]
    · have hw := State.rom_slotB hne hb
      rw [ha, hboot] at hw
      refine ⟨?_, ?_, fun i hlo hhi => ?_⟩ <;> rw [hw]
      · exact bootedWord_stage _ (by omega)
      · exact getLsbD_bootedWord _ (by omega) (by omega)
      · rw [getLsbD_bootedWord _ (by omega) (by omega), if_neg (by omega), if_neg (by omega), hfield i (by omega), if_neg (by omega)]
    · obtain ⟨hw, hh, hags⟩ := State.rom_halts hne (by rw [hb]; exact hb0)
      rw [ha, hboot, hb] at hw
      have hb16 : b < 2 ^ 4 := by omega
      have hout : ∀ i, i < 32 → ¬ (16 ≤ i ∧ i < 16 + 4) → ¬ (8 ≤ i ∧ i < 8 + 4) → t0.rom.rot.bootSt.getLsbD i = b0.getLsbD i :=
        fun i hi h1 h2 => by rw [hw, getLsbD_bootField _ hb16 hi, if_neg h1, hfield i hi, if_neg h2]
      refine ⟨hh, hags.trans hag, fun i hlo hhi => hout i (by omega) (by omega) (by omega),
        fun i hlo hhi => hout i (by omega) (by omega) (by omega), toNat_field_eq _ hb16 (fun i hi => ?_)⟩
      rw [hw, getLsbD_bootField _ hb16 (by omega), if_pos (by omega), Nat.add_sub_cancel_left]

end Sys2Proof.Machine
end

section
/-! PROOF. Start-up stages, enumeration, the capability table's rewrite and heartbeats (R15, R20, R358, R364). -/
namespace Sys2Proof.Machine

/-! ### The capability table (R20) -/

@[simp] theorem State.capBusy_bumpGen (s : State) : s.bumpGen.capBusy = !s.capBusy := by
  unfold State.capBusy State.bumpGen
  rw [BitVec.getLsbD_add (by omega)]
  simp

theorem State.rewriteCap_eq (s : State) : s.rewriteCap =
    { s with rot := { s.rot with capGen := if s.rot.capGen.getLsbD 0 then s.rot.capGen else s.rot.capGen + 1 } } := by
  unfold State.rewriteCap State.capBusy
  split
  · rfl
  · rfl

theorem State.rewriteCap_odd (s : State) : s.rewriteCap.rot.capGen.getLsbD 0 = true := by
  show s.rewriteCap.capBusy = true
  unfold State.rewriteCap
  split
  case isTrue h => exact h
  case isFalse h => rw [State.capBusy_bumpGen, Bool.eq_false_of_not_eq_true h]; rfl

theorem State.endParts_of_none {s : State} (h : s.hub.ending = []) : s.endParts = s := by
  unfold State.endParts
  rw [h]
  rfl

/-- Building the table changes its words alone. -/
theorem State.buildCap_eq (s : State) : ∃ c, s.buildCap = { s with rot := { s.rot with cap := c } } := ⟨_, rfl⟩

theorem capSteps (s : State) (h : s.hub.ending = []) :
    (s.rot.capGen.getLsbD 0 = false → s.capStep.endParts = s) ∧
    (s.rot.capGen.getLsbD 0 = true →
      (s.buildCap.rot.cap ≠ s.rot.cap → s.capStep.endParts = s.buildCap) ∧
      (s.buildCap.rot.cap = s.rot.cap → s.capStep.endParts = { s with rot := { s.rot with capGen := s.rot.capGen + 1 } })) ∧
    (∀ i w, s.capWords[i]? = some w → Tab.get 0 s.buildCap.rot.cap i = BitVec.ofNat 32 w) := by
  have hb : s.capBusy = s.rot.capGen.getLsbD 0 := rfl
  refine ⟨fun hg => ?_, fun hg => ⟨fun hc => ?_, fun hc => ?_⟩, fun i w hw => ?_⟩
  · have hs : s.capStep = s := by
      unfold State.capStep
      rw [hb, hg]
      rfl
    rw [hs, State.endParts_of_none h]
  · have hs : s.capStep = s.buildCap := by
      unfold State.capStep
      rw [hb, hg, if_neg (by decide), if_neg hc]
    have he : s.buildCap.hub.ending = [] := by
      obtain ⟨c, hc⟩ := s.buildCap_eq
      rw [hc]
      exact h
    rw [hs, State.endParts_of_none he]
  · have hs : s.capStep = s.bumpGen := by
      unfold State.capStep
      rw [hb, hg, if_neg (by decide), if_pos hc]
    have he : s.bumpGen.hub.ending = [] := h
    rw [hs, State.endParts_of_none he, State.bumpGen]
  · unfold State.buildCap
    generalize s.capWords = l at hw ⊢
    refine (Tab.get_ofList 0 (fun w => BitVec.ofNat 32 w) 0 l i).trans ?_
    rw [hw]
    rfl

/-! ### Dies and their units (R15) -/

theorem dieUnits_vector {die : Nat} (h10 : 10 ≤ die) (h13 : die ≤ 13) : dieUnits die = List.range' (48 * (die - 10)) 48 :=
  if_pos ⟨h10, h13⟩

theorem dieUnits_length {die : Nat} (h10 : 10 ≤ die) (h13 : die ≤ 13) : (dieUnits die).length = 48 := by
  rw [dieUnits_vector h10 h13, List.length_range']

theorem dieUnits_nodup (die : Nat) : (dieUnits die).Nodup := by
  unfold dieUnits
  split
  · exact List.nodup_range'
  split
  · exact List.nodup_range'
  · exact List.nodup_nil

/-- A die's record once it enumerates with a mask of units. -/
def Die.enumerated (d : Die) (die mask : Nat) (now : DWord) : Die :=
  let n := (dieUnits die).length
  let all := 2 ^ n - 1
  { d with
    link := .up, inc := d.inc + 1, present := mask % 2 ^ n, units := mask % 2 ^ n &&& (all ^^^ (d.fenced &&& all)),
    qids := queueIds die, fenced := d.fenced ||| (all ^^^ (mask % 2 ^ n &&& all)) &&& (all ^^^ (d.fenced &&& all)), silent := 0,
    enumAt := some now }

theorem State.enumerate_eq (s : State) (die mask : Nat) : ∃ r : Rot,
    s.enumerate die mask = { s.putDie die ((s.die die).enumerated die mask s.ntime) with rot := r } ∧
    r.bootSt = s.rot.bootSt ∧ r.capGen = s.rot.capGen := by
  unfold State.enumerate
  dsimp only
  split
  · exact ⟨s.rot, rfl, rfl, rfl⟩
  · exact ⟨_, rfl, rfl, rfl⟩

theorem State.introduce_still (s : State) (die mask : Nat) : (s.introduce die mask).still = (s.enumerate die mask).still :=
  State.still_foldl _ _ (fun t u => t.recordFence_still [u] _) _

theorem State.introduce_bootSt (s : State) (die mask : Nat) : (s.introduce die mask).rot.bootSt = s.rot.bootSt := by
  obtain ⟨r, he, hb, -⟩ := s.enumerate_eq die mask
  rw [State.still_bootSt (s.introduce_still die mask), he]
  exact hb

theorem State.introduce_die (s : State) (die mask d : Nat) :
    (s.introduce die mask).die d = (s.putDie die ((s.die die).enumerated die mask s.ntime)).die d := by
  obtain ⟨r, he, -⟩ := s.enumerate_eq die mask
  rw [State.still_die (s.introduce_still die mask), he]
  rfl

theorem State.fenceAbsent_bootSt (s : State) (die : Nat) : (s.fenceAbsent die).rot.bootSt = s.rot.bootSt := by
  unfold State.fenceAbsent
  dsimp only
  rw [State.still_bootSt (State.recordRs_still _ 0 _)]
  rfl

theorem Die.enumerated_units {d : Die} {die mask now u} (h10 : 10 ≤ die) (h13 : die ≤ 13) (hu : u < 48) :
    (d.enumerated die mask now).units.testBit u = (mask.testBit u && !d.fenced.testBit u) := by
  show (mask % 2 ^ (dieUnits die).length &&& _).testBit u = _
  rw [dieUnits_length h10 h13]
  rw [Nat.testBit_and, Nat.testBit_xor, Nat.testBit_and, Nat.testBit_mod_two_pow, Nat.testBit_two_pow_sub_one, decide_eq_true hu]
  simp

theorem queueIds_getElem {die u : Nat} (h10 : 10 ≤ die) (h13 : die ≤ 13) (hu : u < 48) :
    (queueIds die)[u]? = some (BitVec.ofNat 16 (256 * die + u)) := by
  unfold queueIds
  rw [dieUnits_length h10 h13, List.getElem?_map, List.getElem?_range hu]
  rfl

theorem enumerations (s : State) (die : Nat) (hl : (s.die die).link = .down)
    (ht : ∀ t0, (s.die die).enumAt = some t0 → 16000000 ≤ (s.ntime - t0).toNat) (h1 : 1 ≤ die) (h15 : die ≤ 15)
    (hb : 3 ≤ s.rot.bootSt.toNat / 2 ^ 24) :
    ∃ t : State, exec (.enumeration die) s = .next t ∧ (t.die die).link = .up ∧ (t.die die).inc = (s.die die).inc + 1 ∧
      (t.die die).enumAt = some s.ntime ∧ t.rot.capGen.getLsbD 0 = true ∧
      (∀ u, 10 ≤ die → die ≤ 13 → u < 48 → (t.die die).units.testBit u =
        ((s.die die).present.testBit u && !(s.die die).fenced.testBit u)) ∧
      (∀ u, 10 ≤ die → die ≤ 13 → u < 48 → (t.die die).qids[u]? = some (BitVec.ofNat 16 (256 * die + u))) ∧
      ∀ d, d ≠ die → t.die d = s.die d := by
  have hexec : exec (.enumeration die) s = .next (s.introduce die (s.die die).present).rewriteCap := by
    show execEnumeration die s = _
    unfold execEnumeration
    dsimp only
    rw [if_neg]
    rintro (h | h | h | h | h)
    · exact h hl
    · cases he : (s.die die).enumAt with
      | none => rw [he] at h; exact Bool.false_ne_true h
      | some t0 =>
        rw [he] at h
        have hlt : (s.ntime - t0).ult 16000000 = true := h
        rw [BitVec.ult_eq_decide, decide_eq_true_eq] at hlt
        exact absurd hlt (Nat.not_lt.mpr (ht t0 he))
    · omega
    · omega
    · rw [bootStage_eq] at h; omega
  obtain ⟨t, ht'⟩ : ∃ t, (s.introduce die (s.die die).present).rewriteCap = t := ⟨_, rfl⟩
  have hdies : ∀ d, t.die d = (s.putDie die ((s.die die).enumerated die (s.die die).present s.ntime)).die d := fun d => by
    rw [← ht', ← s.introduce_die die (s.die die).present d, State.rewriteCap_eq]
    rfl
  have hdie : t.die die = (s.die die).enumerated die (s.die die).present s.ntime := by rw [hdies, State.putDie_die_self]
  refine ⟨t, by rw [hexec, ht'], ?_, ?_, ?_, ?_, fun u h10 h13 hu => ?_, fun u h10 h13 hu => ?_, fun d hd => ?_⟩
  · rw [hdie]; rfl
  · rw [hdie]; rfl
  · rw [hdie]; rfl
  · rw [← ht']; exact State.rewriteCap_odd _
  · rw [hdie]; exact Die.enumerated_units h10 h13 hu
  · rw [hdie]; exact queueIds_getElem h10 h13 hu
  · rw [hdies, State.putDie_die_ne _ _ hd]

end Sys2Proof.Machine
end

section
/-! PROOF. What each stage of start-up leaves (R364, R366), heartbeats and self-tests (R15, R356, R358). -/
namespace Sys2Proof.Machine

/-! ### Stage 7 (R34, R343, R364) -/

theorem State.putUnits_eq (f : State → Nat → UnitSt) (us : List Nat) : ∀ s : State,
    ∃ U, us.foldl (fun t u => t.putUnit u (f t u)) s = { s with units := U } := by
  induction us with
  | nil => exact fun s => ⟨s.units, rfl⟩
  | cons u us ih =>
    intro s
    obtain ⟨U, hU⟩ := ih (s.putUnit u (f s u))
    exact ⟨U, hU⟩

/-- Partitions are created: each is listed, and the listed ones stay. -/
theorem State.createParts_eq (l : List PartCfg) : ∀ s : State, ∃ P M U, l.foldl State.createPart s =
      { s with hub := { s.hub with parts := P }, plat := { s.plat with meas := M }, units := U } ∧
    (∀ k, (Tab.find? s.hub.parts k).isSome = true → (Tab.find? P k).isSome = true) ∧ ∀ c ∈ l, (Tab.find? P c.part).isSome = true := by
  induction l with
  | nil => exact fun s => ⟨_, _, _, rfl, fun _ h => h, fun _ h => absurd h List.not_mem_nil⟩
  | cons c l ih =>
    intro s
    have hone : ∃ U, s.createPart c = { s with
        hub := { s.hub with parts := Tab.put s.hub.parts c.part c }, plat := { s.plat with meas := Tab.erase s.plat.meas c.part },
        units := U } := by
      exact State.putUnits_eq
        (fun t u => { t.unit u with holder := some c.part, act0 := {}, act1 := {}, front := false }) _ _
    obtain ⟨U, hU⟩ := hone
    obtain ⟨P, M, U', hf, hold, hnew⟩ := ih (s.createPart c)
    have hput : ∀ k, (Tab.find? s.hub.parts k).isSome = true ∨ k = c.part → (Tab.find? P k).isSome = true := fun k hk => by
      refine hold k ?_
      rw [hU]
      by_cases he : k = c.part
      · rw [he]
        exact congrArg Option.isSome (Tab.find?_put_self s.hub.parts c.part c)
      · exact (congrArg Option.isSome (Tab.find?_put_ne s.hub.parts c he)).trans (hk.resolve_right he)
    refine ⟨P, M, U', ?_, fun k hk => hput k (.inl hk), fun d hd => ?_⟩
    · rw [List.foldl_cons, hf, hU]
    · rcases List.mem_cons.mp hd with rfl | hd
      · exact hput _ (.inr rfl)
      · exact hnew d hd

/-- Key slots are loaded, each once: each stands loaded for its owner. -/
theorem State.loadKeys_eq (l : List (Nat × Nat × Bool)) (hn : (l.map (fun e => e.1)).Nodup) : ∀ s : State, ∃ K n,
    l.foldl State.loadKey s = { s with ms := { s.ms with keys := K, nextKey := n } } ∧
    (∀ j, j ∉ l.map (fun e => e.1) → Tab.find? K j = Tab.find? s.ms.keys j) ∧
    ∀ e ∈ l, ∃ k, Tab.find? K e.1 = some k ∧ k.st = 1 ∧ k.owner = e.2.1 % 64 ∧ k.shared = e.2.2 := by
  induction l with
  | nil => exact fun s => ⟨_, _, rfl, fun _ _ => rfl, fun _ h => absurd h List.not_mem_nil⟩
  | cons e l ih =>
    intro s
    rw [List.map_cons, List.nodup_cons] at hn
    obtain ⟨K, n, hf, hold, hnew⟩ := ih hn.2 (s.loadKey e)
    refine ⟨K, n, hf, fun j hj => ?_, fun d hd => ?_⟩
    · rw [List.map_cons, List.mem_cons, not_or] at hj
      exact (hold j hj.2).trans (Tab.find?_put_ne _ _ hj.1)
    · rcases List.mem_cons.mp hd with rfl | hd
      · exact ⟨_, (hold _ hn.1).trans (Tab.find?_put_self _ _ _), rfl, rfl, rfl⟩
      · exact hnew d hd

theorem State.measures_eq {α : Type} (p : α → Nat) (o : α → List Byte) (l : List α) : ∀ s : State, ∃ M,
    l.foldl (fun t e => t.measure (p e) (o e)) s = { s with plat := { s.plat with meas := M } } := by
  induction l with
  | nil => exact fun s => ⟨_, rfl⟩
  | cons e l ih =>
    intro s
    obtain ⟨M, hM⟩ := ih (s.measure (p e) (o e))
    exact ⟨M, hM⟩

/-- A policy image is loaded and measured (R343, R366). -/
def State.loadImage (t : State) (e : Nat × List Half) : State :=
  (t.putPol e.1 { t.pol e.1 with shadow := e.2, cur := e.2 }).measure e.1 (imageBytes e.2)

/-- Policy images are loaded: where each partition has one, it is the current one. -/
theorem State.loadImages_eq (l : List (Nat × List Half)) : ∀ s : State, ∃ P M, l.foldl State.loadImage s =
      { s with hub := { s.hub with pol := P }, plat := { s.plat with meas := M } } ∧
    (∀ j, j ∉ l.map (fun e => e.1) → Tab.get {} P j = s.pol j) ∧
    ((l.map (fun e => e.1)).Nodup → ∀ e ∈ l, (Tab.get {} P e.1 : Pol).cur = e.2) := by
  induction l with
  | nil => exact fun s => ⟨_, _, rfl, fun _ _ => rfl, fun _ _ h => absurd h List.not_mem_nil⟩
  | cons e l ih =>
    intro s
    obtain ⟨P, M, hf, hold, hnew⟩ := ih (s.loadImage e)
    refine ⟨P, M, hf, fun j hj => ?_, fun hn d hd => ?_⟩
    · rw [List.map_cons, List.mem_cons, not_or] at hj
      exact (hold j hj.2).trans (Tab.get_put_ne _ _ _ hj.1)
    · rw [List.map_cons, List.nodup_cons] at hn
      rcases List.mem_cons.mp hd with rfl | hd
      · rw [hold _ hn.1]
        exact congrArg Pol.cur (Tab.get_put_self {} s.hub.pol d.1 { s.pol d.1 with shadow := d.2, cur := d.2 })
      · exact hnew hn.2 d hd

/-- What stage 7 loads (R364). -/
theorem State.loadParts_spec (s : State) (c : BootCfg) (hn : (c.keys.map (fun e => e.1)).Nodup) :
    (s.loadParts c).rot.bootSt = s.rot.bootSt ∧ (s.loadParts c).mem = s.mem ∧ (s.loadParts c).plat.pairs = c.pairs ∧
    (∀ p ∈ c.parts, (Tab.find? (s.loadParts c).hub.parts p.part).isSome = true) ∧
    (∀ e ∈ c.keys, ∃ k, Tab.find? (s.loadParts c).ms.keys e.1 = some k ∧ k.st = 1 ∧ k.owner = e.2.1 % 64 ∧ k.shared = e.2.2) ∧
    ((c.images.map (fun e => e.1)).Nodup → ∀ e ∈ c.images, ((s.loadParts c).pol e.1).cur = e.2) := by
  obtain ⟨t, ht⟩ : ∃ t, s.loadParts c = t := ⟨_, rfl⟩
  rw [ht]
  unfold State.loadParts at ht
  extract_lets -lift s1 s2 rot plat s3 s4 at ht
  obtain ⟨P, M1, U, h1, -, hparts⟩ := State.createParts_eq c.parts s
  obtain ⟨K, n, h2, -, hkeys⟩ := State.loadKeys_eq c.keys hn s1
  obtain ⟨M3, h4⟩ := State.measures_eq (fun e : Nat × List Byte => e.1 % 64) (fun e => e.2) c.objects s3
  obtain ⟨Q, M4, h5, -, himgs⟩ := State.loadImages_eq c.images s4
  replace ht : c.images.foldl State.loadImage s4 = t := ht
  rw [h5] at ht
  have hr1 : s1.rot = s.rot := (congrArg State.rot h1 :)
  have hm1 : s1.mem = s.mem := (congrArg State.mem h1 :)
  have hp1 : s1.hub.parts = P := (congrArg (fun s : State => s.hub.parts) h1 :)
  have hr2 : s2.rot = s1.rot := (congrArg State.rot h2 :)
  have hm2 : s2.mem = s1.mem := (congrArg State.mem h2 :)
  have hh2 : s2.hub = s1.hub := (congrArg State.hub h2 :)
  have hk2 : s2.ms.keys = K := (congrArg (fun s : State => s.ms.keys) h2 :)
  have hb3 : s3.rot.bootSt = s2.rot.bootSt := rfl
  have hr4 : s4.rot = s3.rot := (congrArg State.rot h4 :)
  have hm4 : s4.mem = s3.mem := (congrArg State.mem h4 :)
  have hh4 : s4.hub = s3.hub := (congrArg State.hub h4 :)
  have hk4 : s4.ms = s3.ms := (congrArg State.ms h4 :)
  have hp4 : s4.plat.pairs = s3.plat.pairs := (congrArg (fun s : State => s.plat.pairs) h4 :)
  subst ht
  refine ⟨?_, ?_, ?_, fun p hp => ?_, fun e he => ?_, himgs⟩
  · show s4.rot.bootSt = _
    rw [hr4, hb3, hr2, hr1]
  · show s4.mem = _
    rw [hm4]
    exact hm2.trans hm1
  · show s4.plat.pairs = _
    rw [hp4]
  · have hpar : s4.hub.parts = P := by
      rw [hh4]
      exact (congrArg Hub.parts hh2).trans hp1
    show (Tab.find? s4.hub.parts p.part).isSome = true
    rw [hpar]
    exact hparts p hp
  · have hkey : s4.ms.keys = K := by
      rw [hk4]
      exact hk2
    show ∃ k, Tab.find? s4.ms.keys e.1 = some k ∧ _
    rw [hkey]
    exact hkeys e he

/-! ### Stages (R364) -/

/-- The word of `boot_st` with its stage replaced. -/
theorem toNat_bootSt_stage (w : Word) {n : Nat} (hn : n ≤ 8) :
    ((w &&& 0x00FFFFFF) ||| BitVec.ofNat 32 (n * 2 ^ 24)).toNat = w.toNat % 2 ^ 24 + n * 2 ^ 24 := by
  have hlow : (w &&& 0x00FFFFFF : Word).toNat = w.toNat % 2 ^ 24 := by
    rw [BitVec.toNat_and]
    exact Nat.and_two_pow_sub_one_eq_mod w.toNat 24
  have hstage : (BitVec.ofNat 32 (n * 2 ^ 24)).toNat = 2 ^ 24 * n := by
    rw [BitVec.toNat_ofNat]
    omega
  rw [BitVec.toNat_or, hlow, hstage, Nat.or_comm, ← Nat.two_pow_add_eq_or_of_lt (Nat.mod_lt _ (by decide))]
  omega

/-- The state with the stage that completes. -/
def State.staged (s : State) (n : Nat) : State :=
  { s with rot := { s.rot with bootSt := (s.rot.bootSt &&& 0x00FFFFFF) ||| BitVec.ofNat 32 (n * 2 ^ 24) } }

/-- Stage 3: the dies that answer are enumerated, the others fenced, and the capability table is built. -/
def State.meetDies (s : State) (seen : List (Nat × Nat)) (lost : List Nat) : State :=
  (lost.foldl State.fenceAbsent (seen.foldl (fun u d => u.introduce d.1 d.2) s)).buildCap

theorem State.meetDies_bootSt (s : State) (seen : List (Nat × Nat)) (lost : List Nat) :
    (s.meetDies seen lost).rot.bootSt = s.rot.bootSt := by
  unfold State.meetDies
  obtain ⟨u, hu⟩ : ∃ u, seen.foldl (fun (u : State) d => u.introduce d.1 d.2) s = u := ⟨_, rfl⟩
  have hseen : u.rot.bootSt = s.rot.bootSt := by
    rw [← hu]
    exact List.foldlRecOn (motive := fun t : State => t.rot.bootSt = s.rot.bootSt) seen _ rfl
      (fun t ht d _ => (t.introduce_bootSt d.1 d.2).trans ht)
  obtain ⟨v, hv⟩ : ∃ v, lost.foldl State.fenceAbsent u = v := ⟨_, rfl⟩
  have hlost : v.rot.bootSt = s.rot.bootSt := by
    rw [← hv]
    exact List.foldlRecOn (motive := fun t : State => t.rot.bootSt = s.rot.bootSt) lost _ hseen
      (fun t ht d _ => (t.fenceAbsent_bootSt d).trans ht)
  rw [hu, hv]
  obtain ⟨c, hc⟩ := v.buildCap_eq
  rw [hc]
  exact hlost

section
variable {s : State} {n : Nat} (cfg : BootCfg)
  (hgo : (s.plat.halted || (s.rot.bootSt.extractLsb' 24 8).toNat + 1 != n || decide (8 < n) ||
    (s.rot.bootSt.extractLsb' 24 8).toNat == 0) = false)
include hgo

theorem bootStage_alone (h : n = 2 ∨ n = 4 ∨ n = 8) : exec (.bootStage n cfg) s = .next (s.staged n) := by
  show execBootStage n cfg s = _
  unfold execBootStage
  dsimp only
  rw [hgo]
  rcases h with rfl | rfl | rfl <;> rfl

theorem bootStage_dies (h : n = 3) : ∃ seen lost, exec (.bootStage 3 cfg) s = .next ((s.staged 3).meetDies seen lost) := by
  subst h
  show ∃ seen lost, execBootStage 3 cfg s = _
  unfold execBootStage
  dsimp only
  rw [hgo, if_neg Bool.false_ne_true]
  exact ⟨_, _, rfl⟩

/-- Stage 5: the stores are ready, and a rewrite of the capability table begins. -/
theorem bootStage_stores (h : n = 5) : ∃ t : State, exec (.bootStage 5 cfg) s = .next t ∧
    t.rot.bootSt = (s.staged 5).rot.bootSt ∧ t.rot.capGen.getLsbD 0 = true ∧ t.mem = s.mem := by
  subst h
  obtain ⟨u, hu, hb, hm⟩ : ∃ u : State, exec (.bootStage 5 cfg) s = .next u.rewriteCap ∧ u.rot.bootSt = (s.staged 5).rot.bootSt ∧
      u.mem = s.mem := by
    show ∃ u : State, execBootStage 5 cfg s = .next u.rewriteCap ∧ _
    unfold execBootStage
    dsimp only
    rw [hgo, if_neg Bool.false_ne_true]
    exact ⟨_, rfl, rfl, rfl⟩
  refine ⟨_, hu, ?_, u.rewriteCap_odd, ?_⟩
  · rw [State.rewriteCap_eq]; exact hb
  · rw [State.rewriteCap_eq]; exact hm

/-- Stage 6: the package has its place in the domain. -/
theorem bootStage_domain (h : n = 6) : ∃ t : State, exec (.bootStage 6 cfg) s = .next t ∧
    t.rot.bootSt = (s.staged 6).rot.bootSt ∧ t.plat.pkg = cfg.pkg ∧ t.plat.dom = cfg.dom ∧ t.mem = s.mem := by
  subst h
  obtain ⟨u, hu, hb, hp, hd, hm⟩ : ∃ u : State, exec (.bootStage 6 cfg) s = .next (if cfg.podPorts = 0 then u else u.rewriteCap) ∧
      u.rot.bootSt = (s.staged 6).rot.bootSt ∧ u.plat.pkg = cfg.pkg ∧ u.plat.dom = cfg.dom ∧ u.mem = s.mem := by
    show ∃ u : State, execBootStage 6 cfg s = .next (if cfg.podPorts = 0 then u else u.rewriteCap) ∧ _
    unfold execBootStage
    dsimp only
    rw [hgo, if_neg Bool.false_ne_true]
    exact ⟨_, rfl, rfl, rfl, rfl, rfl⟩
  rw [hu]
  refine ⟨_, rfl, ?_⟩
  split
  · exact ⟨hb, hp, hd, hm⟩
  · rw [State.rewriteCap_eq]; exact ⟨hb, hp, hd, hm⟩

theorem bootStage_parts (h : n = 7) : exec (.bootStage 7 cfg) s =
    .next (if s.loadable cfg then (s.staged 7).loadParts cfg else s) := by
  subst h
  show execBootStage 7 cfg s = _
  unfold execBootStage
  dsimp only
  rw [hgo]
  rfl

end

theorem bootStages (s : State) (n : Nat) (cfg : BootCfg) (hh : s.plat.halted = false) (hn : n = s.rot.bootSt.toNat / 2 ^ 24 + 1)
    (h2 : 2 ≤ n) (h8 : n ≤ 8) :
    (n ≠ 7 ∨ s.loadable cfg = true →
      ∃ t : State, exec (.bootStage n cfg) s = .next t ∧ t.rot.bootSt.toNat = s.rot.bootSt.toNat % 2 ^ 24 + n * 2 ^ 24 ∧
      (n = 6 → t.plat.pkg = cfg.pkg ∧ t.plat.dom = cfg.dom) ∧ (n = 5 → t.rot.capGen.getLsbD 0 = true) ∧ (n ≠ 3 → t.mem = s.mem) ∧
      (n = 7 → t.plat.pairs = cfg.pairs ∧ (∀ c ∈ cfg.parts, (Tab.find? t.hub.parts c.part).isSome = true) ∧
        (∀ e ∈ cfg.keys, ∃ k, Tab.find? t.ms.keys e.1 = some k ∧ k.st = 1 ∧ k.owner = e.2.1 % 64 ∧ k.shared = e.2.2) ∧
        ((cfg.images.map (fun e => e.1)).Nodup → ∀ e ∈ cfg.images, (t.pol e.1).cur = e.2))) ∧
    (n = 7 → s.loadable cfg = false → exec (.bootStage 7 cfg) s = .next s) ∧
    ∀ k, k ≠ n → exec (.bootStage k cfg) s = .next s := by
  have hgo : (s.plat.halted || (s.rot.bootSt.extractLsb' 24 8).toNat + 1 != n || decide (8 < n) ||
      (s.rot.bootSt.extractLsb' 24 8).toNat == 0) = false := by
    rw [hh, bootStage_eq, ← hn]
    simp only [bne_self_eq_false, Bool.false_or, Bool.or_eq_false_iff, decide_eq_false_iff_not, beq_eq_false_iff_ne]
    omega
  have hw := toNat_bootSt_stage s.rot.bootSt h8
  refine ⟨fun hl => ?_, fun h7 hl => ?_, fun k hk => ?_⟩
  · have hcase : n = 3 ∨ n = 5 ∨ n = 6 ∨ n = 7 ∨ (n = 2 ∨ n = 4 ∨ n = 8) := by omega
    rcases hcase with rfl | rfl | rfl | rfl | h
    · obtain ⟨seen, lost, he⟩ := bootStage_dies cfg hgo rfl
      exact ⟨_, he, by rw [State.meetDies_bootSt]; exact hw, by omega, by omega, by omega, by omega⟩
    · obtain ⟨t, he, hb, hg, hm⟩ := bootStage_stores cfg hgo rfl
      exact ⟨t, he, by rw [hb]; exact hw, by omega, fun _ => hg, fun _ => hm, by omega⟩
    · obtain ⟨t, he, hb, hp, hd, hm⟩ := bootStage_domain cfg hgo rfl
      exact ⟨t, he, by rw [hb]; exact hw, fun _ => ⟨hp, hd⟩, by omega, fun _ => hm, by omega⟩
    · have hload : s.loadable cfg = true := hl.resolve_left (by omega)
      have hnd : (cfg.keys.map (fun e => e.1)).Nodup := by
        unfold State.loadable at hload
        simp only [Bool.and_eq_true, decide_eq_true_eq] at hload
        exact hload.1.2
      obtain ⟨hb, hm, hrest⟩ := (s.staged 7).loadParts_spec cfg hnd
      exact ⟨_, (bootStage_parts cfg hgo rfl).trans (by rw [if_pos hload]), by rw [hb]; exact hw, by omega, by omega, fun _ => hm,
        fun _ => hrest⟩
    · exact ⟨_, bootStage_alone cfg hgo h, hw, by omega, by omega, fun _ => rfl, by omega⟩
  · subst h7
    rw [bootStage_parts cfg hgo rfl, if_neg (by rw [hl]; exact Bool.false_ne_true)]
  · refine congrArg Host.Outcome.next (if_pos ?_)
    have hne : s.rot.bootSt.toNat / 2 ^ 24 + 1 ≠ k := by omega
    rw [bootStage_eq, bne_iff_ne.mpr hne, Bool.or_true, Bool.true_or, Bool.true_or]

/-! ### Heartbeats, self-tests and old responses (R15, R356, R358) -/

theorem heartbeat_of {s h : State} {die : Nat} (hs : h = s.capStep.endParts) (hl : (h.die die).link = .up) (h1 : 1 ≤ die)
    (h15 : die ≤ 15) (answered : Bool) (ts : List Nat) : exec (.heartbeat die answered ts) s = .next
      (if answered then ((dieUnits die).zip ts).foldl (fun t e => t.putUnit e.1 { t.unit e.1 with temp := e.2 % 8 })
          (h.putDie die { h.die die with silent := 0 })
        else h.putDie die { h.die die with silent := (h.die die).silent + 10 }) := by
  subst hs
  refine congrArg Host.Outcome.next ((if_neg ?_).trans ?_)
  · rintro (hc | hc | hc)
    · exact hc hl
    · omega
    · omega
  · cases answered <;> rfl

/-- Temperature classes are set unit by unit: each unit has its own, and the dies and memory stand. -/
theorem State.setTemps_spec (l : List (Nat × Nat)) (hn : (l.map (fun e => e.1)).Nodup) : ∀ s : State, ∃ U,
    l.foldl (fun t e => t.putUnit e.1 { t.unit e.1 with temp := e.2 % 8 }) s = { s with units := U } ∧
    (∀ u, u ∉ l.map (fun e => e.1) → (Tab.get {} U u : UnitSt) = s.unit u) ∧
    ∀ e ∈ l, (Tab.get {} U e.1 : UnitSt).temp = e.2 % 8 := by
  induction l with
  | nil => exact fun s => ⟨s.units, rfl, fun _ _ => rfl, fun _ h => absurd h List.not_mem_nil⟩
  | cons e l ih =>
    intro s
    rw [List.map_cons, List.nodup_cons] at hn
    obtain ⟨U, hf, hold, hnew⟩ := ih hn.2 (s.putUnit e.1 { s.unit e.1 with temp := e.2 % 8 })
    refine ⟨U, hf, fun u hu => ?_, fun d hd => ?_⟩
    · rw [List.map_cons, List.mem_cons, not_or] at hu
      rw [hold u hu.2, State.putUnit_unit_ne _ _ hu.1]
    · rcases List.mem_cons.mp hd with rfl | hd
      · rw [hold _ hn.1, State.putUnit_unit_self]
      · exact hnew d hd

theorem map_fst_zip_sublist {α β : Type} : ∀ (l : List α) (m : List β), List.Sublist ((l.zip m).map (fun e => e.1)) l
  | [], _ => List.Sublist.refl []
  | _ :: _, [] => List.nil_sublist _
  | a :: l, _ :: m => (map_fst_zip_sublist l m).cons_cons a

theorem heartbeats (s h : State) (die : Nat) (hs : h = s.capStep.endParts) (hl : (h.die die).link = .up) (h1 : 1 ≤ die) (h15 : die ≤ 15) :
    exec (.heartbeat die true []) s = .next (h.putDie die { h.die die with silent := 0 }) ∧
    (∀ ts : List Nat, exec (.heartbeat die false ts) s = .next (h.putDie die { h.die die with silent := (h.die die).silent + 10 })) ∧
    (∀ ts : List Nat, ∃ t : State, exec (.heartbeat die true ts) s = .next t ∧ t.die die = { h.die die with silent := 0 } ∧
      t.mem = h.mem ∧ ∀ (i u x : Nat), (dieUnits die)[i]? = some u → ts[i]? = some x → (t.unit u).temp = x % 8) := by
  have hof := heartbeat_of hs hl h1 h15
  refine ⟨?_, fun ts => hof false ts, fun ts => ?_⟩
  · rw [hof true [], List.zip_nil_right]
    rfl
  · have hn : (((dieUnits die).zip ts).map (fun e => e.1)).Nodup :=
      (dieUnits_nodup die).sublist (map_fst_zip_sublist _ _)
    obtain ⟨U, hf, -, hnew⟩ := State.setTemps_spec _ hn (h.putDie die { h.die die with silent := 0 })
    refine ⟨{ h.putDie die { h.die die with silent := 0 } with units := U }, (hof true ts).trans ?_, State.putDie_die_self h die _, rfl,
      fun i u x hu hx => ?_⟩
    · rw [if_pos rfl, hf]
    · exact hnew (u, x) (List.mem_of_getElem? (List.getElem?_zip_eq_some.mpr ⟨hu, hx⟩))

theorem enumeration_soon {s : State} {die : Nat} {t0 : DWord} (he : (s.die die).enumAt = some t0)
    (ht : (s.ntime - t0).toNat < 16000000) : exec (.enumeration die) s = .next s := by
  show execEnumeration die s = _
  unfold execEnumeration
  dsimp only
  rw [he, if_pos]
  have hlt : (s.ntime - t0).ult 16000000 = true := by rw [BitVec.ult_eq_decide]; exact decide_eq_true ht
  exact .inr (.inl hlt)

theorem isolation_stays {s : State} {die : Nat} (h : (s.die die).silent < 100) : exec (.isolation die) s = .next s :=
  congrArg Host.Outcome.next (if_pos (.inr (.inl h)))

theorem selfTest_presents {s : State} {die : Nat} (mask : Nat) (h : (s.die die).link = .resetting) (h10 : 10 ≤ die) (h13 : die ≤ 13) :
    exec (.chipletSelfTest die mask) s = .next (s.putDie die { s.die die with link := .down, present := mask % 2 ^ 48 }) := by
  show execChipletSelfTest die mask s = _
  unfold execChipletSelfTest
  dsimp only
  rw [if_pos h, dieUnits_length h10 h13]

theorem staleResponseDrop_eq (s : State) (a b : Nat) (x y : BitVec 8) : exec (.staleResponseDrop a x b y) s =
    .next (if (s.die a).inc ≠ x ∨ (s.die b).inc ≠ y then { s with rot := { s.rot with incDrop := s.rot.incDrop + 1 } } else s) := rfl

end Sys2Proof.Machine
end

section
/-! PROOF. Isolation (R273, R358): what of a silent chiplet is left. -/
namespace Sys2Proof.Machine

theorem State.redispatch_eq (die : Nat) (l : List Packet) : ∀ s : State, ∃ h, s.redispatch die l = { s with hub := h } := by
  induction l with
  | nil => exact fun s => ⟨s.hub, rfl⟩
  | cons k l ih =>
    intro s
    rw [State.redispatch]
    split
    · obtain ⟨h, hh⟩ := ih { s with hub := { s.hub with packets := s.hub.packets.filter (fun q => q != k) ++
        [State.redirect { s with hub := { s.hub with packets := s.hub.packets.filter (fun q => q != k) } } k] } }
      exact ⟨h, hh⟩
    · exact ih s

/-- A byte of a range that is dropped reads as nothing, whatever else is dropped. -/
theorem get_foldl_dropRange {α β : Type} (d : α) (lo n : β → Nat) (q : Nat) (us : List β) : ∀ t : Tab α,
    ((∃ u ∈ us, lo u ≤ q ∧ q < lo u + n u) ∨ Tab.get d t q = d) →
      Tab.get d (us.foldl (fun m u => Tab.dropRange m (lo u) (n u)) t) q = d := by
  induction us with
  | nil => exact fun t h => h.resolve_left (fun ⟨_, hu, _⟩ => absurd hu List.not_mem_nil)
  | cons u us ih =>
    intro t h
    refine ih _ ?_
    rw [Tab.get_dropRange]
    rcases h with ⟨v, hv, hq⟩ | h
    · rcases List.mem_cons.mp hv with rfl | hv
      · exact .inr (if_pos hq)
      · exact .inl ⟨v, hv, hq⟩
    · exact .inr (by rw [h, ite_self])

theorem mem_dieUnits {die c : Nat} (h10 : 10 ≤ die) (h13 : die ≤ 13) (hc : c < 48) : 48 * (die - 10) + c ∈ dieUnits die := by
  rw [dieUnits_vector h10 h13, List.mem_range'_1]
  omega

/-- The scratchpads of a vector die, one after another. -/
theorem exists_spad_of_die {die q : Nat} (h10 : 10 ≤ die) (h13 : die ≤ 13) (hlo : spadBase (48 * (die - 10)) ≤ q)
    (hhi : q < spadBase (48 * (die - 10)) + 48 * 0x80000) : ∃ u ∈ dieUnits die, spadBase u ≤ q ∧ q < spadBase u + spadSize u := by
  have hb : ∀ u, u < 192 → spadBase u = cuSpBase + u * 0x80000 := fun u hu => if_pos hu
  have hz : ∀ u, u < 192 → spadSize u = 0x80000 := fun u hu => if_pos hu
  rw [hb _ (by omega)] at hlo hhi
  refine ⟨48 * (die - 10) + (q - (cuSpBase + 48 * (die - 10) * 0x80000)) / 0x80000, mem_dieUnits h10 h13 (by omega), ?_⟩
  rw [hb _ (by omega), hz _ (by omega)]
  omega

theorem isolations (s : State) (die : Nat) (d : Die) (hd : d = s.die die) (hl : d.link = .up) (hs : 100 ≤ d.silent) (h10 : 10 ≤ die)
    (h13 : die ≤ 13) : ∃ t : State, exec (.isolation die) s = .next t ∧ (t.die die).link = .resetting ∧ (t.die die).units = 0 ∧
      (∀ c, c < 48 → (t.unit (48 * (die - 10) + c)).ustate = .free) ∧
      (∀ e ∈ t.fab.copies, ¬ (48 * (die - 10) ≤ e.2.unit_ ∧ e.2.unit_ < 48 * (die - 9))) ∧
      (∀ q, spadBase (48 * (die - 10)) ≤ q → q < spadBase (48 * (die - 10)) + 48 * 0x80000 → t.homeByte q = 0) := by
  subst hd
  have hexec : ∃ t, exec (.isolation die) s = .next t := ⟨_, rfl⟩
  obtain ⟨t, ht⟩ := hexec
  refine ⟨t, ht, ?_⟩
  replace ht : execIsolation die s = .next t := ht
  unfold execIsolation at ht
  extract_lets -lift d a b c gone ms fab e f g at ht
  rw [if_neg (by
    rintro (h | h | h | h)
    · exact h hl
    · exact absurd hs (Nat.not_le.mpr h)
    · omega
    · omega)] at ht
  replace ht := Host.Outcome.next.inj ht
  have hgone : ∀ c, c < 48 → gone (48 * (die - 10) + c) = true := fun c hc =>
    List.contains_iff_mem.mpr (mem_dieUnits h10 h13 hc)
  obtain ⟨h, hf⟩ : ∃ h, f = { e with hub := h } := State.redispatch_eq die _ e
  subst ht
  have hunits : f.units = c.units.map (fun (x : Nat × UnitSt) =>
      (x.1, if gone x.1 then { holder := x.2.holder, temp := x.2.temp } else x.2)) := by
    rw [hf]
    exact List.map_congr_left (fun x _ => by split <;> rfl)
  have hcopies : f.fab.copies = c.fab.copies.filter (fun (x : Nat × Copy) => !gone x.2.unit_) := by rw [hf]
  have hmem : f.mem = (dieUnits die).foldl (fun m u => Tab.dropRange m (spadBase u) (spadSize u)) c.mem := by rw [hf]
  refine ⟨?_, ?_, fun i hi => ?_, fun x hx hin => ?_, fun q hlo hhi => ?_⟩
  · rw [State.putDie_die_self]
  · rw [State.putDie_die_self]
  · show (Tab.get {} f.units (48 * (die - 10) + i) : UnitSt).ustate = _
    rw [hunits, Tab.get, Tab.find?_map_val (fun k (x : UnitSt) => if gone k then { holder := x.holder, temp := x.temp } else x), hgone i hi]
    cases Tab.find? c.units (48 * (die - 10) + i) <;> rfl
  · have hx' : x ∈ f.fab.copies := hx
    rw [hcopies] at hx'
    have hg := (List.mem_filter.mp hx').2
    rw [show x.2.unit_ = 48 * (die - 10) + (x.2.unit_ - 48 * (die - 10)) by omega, hgone _ (by omega)] at hg
    exact absurd hg (by decide)
  · show Tab.get 0 f.mem q = 0
    rw [hmem]
    exact get_foldl_dropRange 0 spadBase spadSize q (dieUnits die) c.mem (.inl (exists_spad_of_die h10 h13 hlo hhi))

end Sys2Proof.Machine
end

section
/-! PROOF. Fences (R252, R359, R360): a group that is lost leaves the counts of fences and the dies' records as they are, so that a
fence alone changes them. -/
namespace Sys2Proof.Machine

/-! ### Groups that are lost (R316, R358) -/

/-- What the loss of a group keeps: the board, and the units that are free already. -/
structure State.Loses (s t : State) : Prop where
  board : t.board = s.board
  units : ∀ u, (s.unit u).ustate = .free → (t.unit u).ustate = .free

theorem State.Loses.refl (s : State) : s.Loses s := ⟨rfl, fun _ h => h⟩

theorem State.Loses.trans {s t r : State} (h : s.Loses t) (g : t.Loses r) : s.Loses r :=
  ⟨g.board.trans h.board, fun u hu => g.units u (h.units u hu)⟩

theorem State.Loses.foldl {α : Type} {f : State → α → State} (l : List α) (hf : ∀ (t : State) (a : α), t.Loses (f t a)) :
    ∀ s : State, s.Loses (l.foldl f s) := by
  induction l with
  | nil => exact .refl
  | cons a l ih => exact fun s => (hf s a).trans (ih (f s a))

theorem State.Frees.loses {s t : State} (h : s.Frees t) : s.Loses t := ⟨h.board, h.units⟩

theorem State.Loses.of_eq {s t : State} (hb : t.board = s.board) (hu : t.units = s.units) : s.Loses t :=
  ⟨hb, fun u h => by rwa [State.unit, hu]⟩

theorem State.Loses.of_still {s t : State} (h : t.still = s.still) : s.Loses t :=
  .of_eq (by unfold State.board; rw [State.still_nFenced h, State.still_capGen h, State.still_dies h]) (State.still_units h)

theorem State.loses_loseAgents (s : State) (u : Nat) : s.Loses (s.loseAgents u) := by
  unfold State.loseAgents
  exact .foldl _ (fun t (e : Nat × Agent) => (.of_eq rfl rfl : t.Loses (t.loseAgent e.1))) s

/-- The end of a group frees its unit. -/
theorem State.endGroup_free (s : State) {u : Nat} (hu : u < 224) : ((s.endGroup u).unit u).ustate = .free := by
  unfold State.endGroup
  dsimp only
  split <;> exact State.freeUnit_free _ hu

theorem State.loses_endGroup (s : State) (u : Nat) : s.Loses (s.endGroup u) := by
  have hf : s.Loses (s.forgetGroup u) := .of_eq rfl rfl
  have h : s.Loses ((s.forgetGroup u).freeUnit u) := hf.trans ((s.forgetGroup u).frees_freeUnit u).loses
  unfold State.endGroup
  dsimp only
  split
  · exact h.trans (.of_eq rfl rfl)
  · exact h

theorem State.loses_checkLaunch (s : State) (l : Nat) : s.Loses (s.checkLaunch l) := by
  unfold State.checkLaunch
  split
  · exact .refl s
  next x _ =>
    split
    · have hlive := State.Loses.foldl x.live State.loses_endGroup s
      have hsaved := State.Loses.foldl x.saved (fun t c => (.of_eq rfl rfl : t.Loses (t.dropSaved c)))
        (x.live.foldl (fun t u => t.endGroup u) s)
      exact (hlive.trans hsaved).trans (.of_eq rfl rfl)
    · exact .refl s

theorem State.loseGroup_idle {s : State} {u : Nat} (h : (s.unit u).ustate = .free ∨ (s.unit u).ustate = .reserved) :
    s.loseGroup u = s.loseAgents u := by
  unfold State.loseGroup
  dsimp only
  rcases h with h | h <;> rw [h]

/-- A group that stands on its unit ends with its record, once its agents are gone. -/
theorem State.loseGroup_busy {s : State} {u : Nat} (h : ¬ ((s.unit u).ustate = .free ∨ (s.unit u).ustate = .reserved)) :
    ∃ r : State, s.Loses r ∧ s.loseGroup u = (r.endGroup u).checkLaunch (s.unit u).launch := by
  rw [not_or] at h
  unfold State.loseGroup
  dsimp only
  split
  · exact absurd ‹_› h.1
  · exact absurd ‹_› h.2
  · exact ⟨_, (State.Loses.of_still (State.record_still s _ _ _ _)).trans (State.loses_loseAgents _ u), rfl⟩

theorem State.loses_loseGroup (s : State) (u : Nat) : s.Loses (s.loseGroup u) := by
  by_cases h : (s.unit u).ustate = .free ∨ (s.unit u).ustate = .reserved
  · rw [State.loseGroup_idle h]
    exact s.loses_loseAgents u
  · obtain ⟨r, hr, he⟩ := State.loseGroup_busy h
    rw [he]
    exact hr.trans ((r.loses_endGroup u).trans (State.loses_checkLaunch _ _))

/-- The unit of a group that runs is free once the group is lost. -/
theorem State.loseGroup_free (s : State) {u : Nat} (hu : u < 224) (h : (s.unit u).ustate = .running) :
    ((s.loseGroup u).unit u).ustate = .free := by
  obtain ⟨r, -, he⟩ := State.loseGroup_busy (s := s) (u := u) (by rw [h]; decide)
  rw [he]
  exact (State.loses_checkLaunch _ _).units u (r.endGroup_free hu)

/-! ### Groups that are pre-empted (R317, R360) -/

/-- One unit is asked to save its group. -/
def State.preempt1 (t : State) (v : Nat) : State :=
  if (t.unit v).ustate = .running then t.putUnit v { t.unit v with ustate := .saving } else t

theorem State.preempt1_board (t : State) (v : Nat) : (t.preempt1 v).board = t.board := by
  unfold State.preempt1
  split <;> rfl

/-- The units that are asked are those of the launch's gang, or the group's own. -/
theorem State.preempt_eq (s : State) (u : Nat) : ∃ l : List Nat, s.preempt u = l.foldl State.preempt1 s := by
  unfold State.preempt
  cases s.launch? (s.unit u).launch with
  | none => exact ⟨[u], rfl⟩
  | some x =>
    dsimp only
    split
    · exact ⟨x.live, rfl⟩
    · exact ⟨[u], rfl⟩

theorem State.preempt_board (s : State) (u : Nat) : (s.preempt u).board = s.board := by
  obtain ⟨l, hl⟩ := s.preempt_eq u
  rw [hl]
  exact List.foldlRecOn (motive := fun t : State => t.board = s.board) l State.preempt1 rfl
    (fun t ht v _ => (t.preempt1_board v).trans ht)

/-- A group of a launch that is not a gang is asked alone. -/
theorem State.preempt_saving (s : State) {u : Nat} (h : (s.unit u).ustate = .running)
    (hg : ∀ x, s.launch? (s.unit u).launch = some x → x.sync ≤ 1) : ((s.preempt u).unit u).ustate = .saving := by
  have hone : s.preempt u = s.preempt1 u := by
    unfold State.preempt
    cases hx : s.launch? (s.unit u).launch with
    | none => rfl
    | some x =>
      have hgang : x.gang = false := decide_eq_false (by have := hg x hx; omega)
      dsimp only
      rw [hgang]
      rfl
  rw [hone, State.preempt1, if_pos h, State.putUnit_unit_self]

/-! ### Units that are fenced (R360) -/

/-- The state of a fence before the unit's presence bit clears. -/
def State.vacate (s : State) (u : Nat) (answers : Bool) : State :=
  let g := if (s.unit u).ustate = .reserved then (s.unit u).leader else u
  if answers then s.preempt g
  else
    let t := s.loseGroup g
    t.putUnit u { t.unit u with slog := [], slogQ := [] }

theorem State.vacate_board (s : State) (u : Nat) (answers : Bool) : (s.vacate u answers).board = s.board := by
  cases answers with
  | true => exact s.preempt_board _
  | false => exact (s.loses_loseGroup _).board

/-- A group that runs is asked to save itself, or is lost where its unit no longer answers. -/
theorem State.vacate_running (s : State) {u : Nat} (answers : Bool) (hu : u < 224) (h : (s.unit u).ustate = .running) :
    (answers = false → ((s.vacate u answers).unit u).ustate = .free) ∧
    ((∀ x, s.launch? (s.unit u).launch = some x → x.sync ≤ 1) → answers = true → ((s.vacate u answers).unit u).ustate = .saving) := by
  have hg : (if (s.unit u).ustate = .reserved then (s.unit u).leader else u) = u := if_neg (by rw [h]; decide)
  unfold State.vacate
  rw [hg]
  refine ⟨fun ha => ?_, fun hs ha => ?_⟩
  · rw [ha, if_neg Bool.false_ne_true, State.putUnit_unit_self]
    exact s.loseGroup_free hu h
  · rw [ha, if_pos rfl]
    exact s.preempt_saving h hs

theorem State.fenceUnit_eq (s : State) (u : Nat) (answers : Bool) : s.fenceUnit u answers = (s.vacate u answers).fenceBit u := rfl

/-- A presence bit clears whatever the die's record was. -/
theorem testBit_clear (x : Nat) {n : Nat} (hn : n < 48) : (x &&& (2 ^ 48 - 1 - 2 ^ n)).testBit n = false := by
  have hlt : 2 ^ n < 2 ^ 48 := Nat.pow_lt_pow_right (by omega) hn
  rw [Nat.testBit_and, show 2 ^ 48 - 1 - 2 ^ n = 2 ^ 48 - (2 ^ n + 1) by omega, Nat.testBit_two_pow_sub_succ hlt,
    Nat.testBit_two_pow_self]
  simp

/-- A die's record without a unit (R360). -/
def Die.without (d : Die) (n : Nat) : Die := { d with units := d.units &&& (2 ^ 48 - 1 - 2 ^ n), fenced := d.fenced ||| 2 ^ n }

theorem State.fenceBit_eq (s : State) (u : Nat) :
    s.fenceBit u = (s.putDie (unitDie u) ((s.die (unitDie u)).without (unitIdx u))).countFenced 1 := rfl

theorem Die.without_fenced (d : Die) (n : Nat) : (d.without n).fenced.testBit n = true := by
  show (d.fenced ||| 2 ^ n).testBit n = true
  rw [Nat.testBit_or, Nat.testBit_two_pow_self, Bool.or_true]

/-- A fence's change of Rotunda's registers: counted once, and a rewrite of the capability table begins or covers it (R20, R360). -/
theorem State.counted_rot {s t : State} (hb : (t.rot.nFenced, t.rot.capGen) = (s.rot.nFenced, s.rot.capGen)) :
    (t.countFenced 1).rewriteCap.rot.nFenced = s.rot.nFenced + 1 ∧ (t.countFenced 1).rewriteCap.rot.degraded = true ∧
    (t.countFenced 1).rewriteCap.rot.capGen = if s.rot.capGen.getLsbD 0 then s.rot.capGen else s.rot.capGen + 1 := by
  obtain ⟨hn, hg⟩ := Prod.mk.inj hb
  rw [State.rewriteCap_eq]
  refine ⟨congrArg (· + 1) hn, rfl, ?_⟩
  show (if t.rot.capGen.getLsbD 0 then t.rot.capGen else t.rot.capGen + 1) = _
  rw [hg]

theorem State.rot_of_board {s t : State} (h : t.board = s.board) : (t.rot.nFenced, t.rot.capGen) = (s.rot.nFenced, s.rot.capGen) := by
  obtain ⟨hn, h'⟩ := Prod.mk.inj h
  rw [hn, (Prod.mk.inj h').1]

theorem State.die_of_board {s t : State} (h : t.board = s.board) (d : Nat) : t.die d = s.die d := by
  have hd : t.plat.dies = s.plat.dies := (Prod.mk.inj (Prod.mk.inj h).2).2
  rw [State.die, hd]
  rfl

/-- A unit that is fenced, of any kind (R360): its record is written, its group leaves, its presence bit clears. -/
theorem State.unitFenced (s : State) (die n u : Nat) (w : Word) (answers : Bool) (hd : unitDie u = die) (hi : unitIdx u = n) (hn : n < 48)
    (hu : u < 224) :
    ∃ t : State, ((s.recordFence [u] w).fenceUnit u answers).rewriteCap = t ∧ t.rot.nFenced = s.rot.nFenced + 1 ∧ t.rot.degraded = true ∧
      t.rot.capGen = (if s.rot.capGen.getLsbD 0 then s.rot.capGen else s.rot.capGen + 1) ∧
      (t.die die).units.testBit n = false ∧ (t.die die).fenced.testBit n = true ∧
      ((s.unit u).ustate = .running → (answers = false → (t.unit u).ustate = .free) ∧
        ((∀ x, s.launch? (s.unit u).launch = some x → x.sync ≤ 1) → answers = true → (t.unit u).ustate = .saving)) := by
  have hr := s.recordFence_still [u] w
  obtain ⟨r, hre⟩ : ∃ r, s.recordFence [u] w = r := ⟨_, rfl⟩
  rw [hre] at hr ⊢
  have hun : r.unit u = s.unit u := State.still_unit hr u
  have hboard : (r.vacate u answers).board = s.board := (r.vacate_board u answers).trans (State.Loses.of_still hr).board
  have hvac := r.vacate_running answers hu
  rw [hun, State.still_launch? hr] at hvac
  obtain ⟨v, hv⟩ : ∃ v, r.vacate u answers = v := ⟨_, rfl⟩
  rw [hv] at hboard hvac
  rw [State.fenceUnit_eq, hv]
  obtain ⟨p, hp⟩ : ∃ p, v.putDie die ((v.die die).without n) = p := ⟨_, rfl⟩
  have hbit : v.fenceBit u = p.countFenced 1 := by rw [State.fenceBit_eq, hd, hi, hp]
  have hdie : p.die die = (v.die die).without n := by rw [← hp, State.putDie_die_self]
  have hrot : (p.rot.nFenced, p.rot.capGen) = (s.rot.nFenced, s.rot.capGen) := by
    rw [← State.rot_of_board hboard, ← hp]
    rfl
  have hpu : p.unit u = v.unit u := by rw [← hp]; rfl
  obtain ⟨h1, h2, h3⟩ := State.counted_rot hrot
  rw [hbit]
  refine ⟨_, rfl, h1, h2, h3, ?_, ?_, ?_⟩ <;> rw [State.rewriteCap_eq]
  · show (p.die die).units.testBit n = false
    rw [hdie]
    exact testBit_clear _ hn
  · show (p.die die).fenced.testBit n = true
    rw [hdie]
    exact Die.without_fenced _ n
  · show _ → (_ → (p.unit u).ustate = _) ∧ (_ → _ → (p.unit u).ustate = _)
    rw [hpu]
    exact hvac

/-! ### Units, banks, lanes and dies (R252, R359, R360) -/

theorem cu_place {die n : Nat} (h10 : 10 ≤ die) (h13 : die ≤ 13) (hn : n < 48) :
    48 * (die - 10) + n < 192 ∧ unitDie (48 * (die - 10) + n) = die ∧ unitIdx (48 * (die - 10) + n) = n := by
  have hu : 48 * (die - 10) + n < 192 := by omega
  unfold unitDie unitIdx
  rw [if_pos hu, if_pos hu]
  omega

theorem quadrant_place {die n : Nat} (h2 : 2 ≤ die) (h9 : die ≤ 9) (hn : n < 4) :
    192 + 4 * (die - 2) + n < 224 ∧ unitDie (192 + 4 * (die - 2) + n) = die ∧ unitIdx (192 + 4 * (die - 2) + n) = n := by
  have hu : ¬ 192 + 4 * (die - 2) + n < 192 := by omega
  unfold unitDie unitIdx
  rw [if_neg hu, if_neg hu]
  omega

theorem fencesUnits (s : State) (die n : Nat) :
    let fenced : Instr → (State → Prop) → Prop := fun i p => ∃ t : State, exec i s = .next t ∧ t.rot.nFenced = s.rot.nFenced + 1 ∧
      t.rot.degraded = true ∧ t.rot.capGen = (if s.rot.capGen.getLsbD 0 then s.rot.capGen else s.rot.capGen + 1) ∧ p t
    let unitOff : Nat → Bool → State → Prop := fun u ans t =>
      (t.die die).units.testBit n = false ∧ (t.die die).fenced.testBit n = true ∧
      ((s.unit u).ustate = .running → (ans = false → (t.unit u).ustate = .free) ∧
        ((∀ x, s.launch? (s.unit u).launch = some x → x.sync ≤ 1) → ans = true → (t.unit u).ustate = .saving))
    (∀ ans, 10 ≤ die → die ≤ 13 → n < 48 → s.unitUp (48 * (die - 10) + n) = true →
      fenced (.fenceCu die n ans) (unitOff (48 * (die - 10) + n) ans)) ∧
    (∀ ans, 2 ≤ die → die ≤ 9 → n < 4 → s.unitUp (192 + 4 * (die - 2) + n) = true →
      fenced (.fenceQuadrant die n ans) (unitOff (192 + 4 * (die - 2) + n) ans)) := by
  refine ⟨fun ans h10 h13 hn hup => ?_, fun ans h2 h9 hn hup => ?_⟩
  · obtain ⟨hu, hd, hi⟩ := cu_place h10 h13 hn
    obtain ⟨t, ht, hrest⟩ := s.unitFenced die n (48 * (die - 10) + n) (fenceWord 0 die n) ans hd hi hn (by omega)
    exact ⟨t, by rw [← ht]; exact congrArg Host.Outcome.next (if_pos ⟨h10, h13, hn, hup⟩), hrest⟩
  · obtain ⟨hu, hd, hi⟩ := quadrant_place h2 h9 hn
    obtain ⟨t, ht, hrest⟩ := s.unitFenced die n (192 + 4 * (die - 2) + n) (fenceWord 1 die n) ans hd hi (by omega) hu
    exact ⟨t, by rw [← ht]; exact congrArg Host.Outcome.next (if_pos ⟨h2, h9, hn, hup⟩), hrest⟩

/-- A bank that is fenced is off. -/
theorem fencesBank (s : State) (die n : Nat) (hd : die < 8) (hn : n < 1024) (hb : Tab.get false s.ms.banksOff (1024 * die + n) = false) :
    ∃ t : State, exec (.fenceDramBank die n) s = .next t ∧ t.rot.nFenced = s.rot.nFenced + 1 ∧
      t.rot.degraded = true ∧ t.rot.capGen = (if s.rot.capGen.getLsbD 0 then s.rot.capGen else s.rot.capGen + 1) ∧
      Tab.get false t.ms.banksOff (1024 * die + n) = true := by
  obtain ⟨p, hp⟩ : ∃ p, ({ s with
    ms := { s.ms with banksOff := Tab.set false s.ms.banksOff (1024 * die + n) true } } : State) = p := ⟨_, rfl⟩
  have hexec : exec (.fenceDramBank die n) s =
      .next (((p.recordRs 0 { kind := 0x35, w12 := fenceWord 2 die n }).countFenced 1).rewriteCap) := by
    rw [← hp]
    refine congrArg Host.Outcome.next (if_neg ?_)
    rintro (h | h | h)
    · omega
    · omega
    · rw [hb] at h; exact Bool.false_ne_true h
  have hr := p.recordRs_still 0 { kind := 0x35, w12 := fenceWord 2 die n }
  have hrot := State.rot_of_board (State.Loses.of_still hr).board
  obtain ⟨h1, h2, h3⟩ := State.counted_rot hrot
  have hps : p.rot = s.rot := by rw [← hp]
  rw [hps] at h1 h3
  refine ⟨_, hexec, h1, h2, h3, ?_⟩
  rw [State.rewriteCap_eq]
  show Tab.get false (p.recordRs 0 _).ms.banksOff _ = true
  rw [State.still_banksOff hr, ← hp]
  exact Tab.get_set_self false s.ms.banksOff (1024 * die + n) true

theorem State.narrow_eq (s : State) (n : Nat) {width : Nat} (h : width ≠ 0) : s.narrow n width =
    s.putLink n { s.link n with width := width, unacked := (s.link n).unacked.map (fun f => (f.1, f.2 + 1)) } := if_neg h

/-- A link whose lane is fenced falls to the next width. -/
theorem fencesLane (s : State) (die n : Nat) (hl : (s.die die).link = .up) (hn : n < 16) (hw : (s.link (16 + die)).width = 16) :
    ∃ t : State, exec (.fenceLinkLane die n) s = .next t ∧ t.rot.nFenced = s.rot.nFenced + 1 ∧
      t.rot.degraded = true ∧ t.rot.capGen = (if s.rot.capGen.getLsbD 0 then s.rot.capGen else s.rot.capGen + 1) ∧
      (t.link (16 + die)).width = 8 := by
  obtain ⟨p, hp⟩ : ∃ p, s.narrow (16 + die) (narrower (s.link (16 + die)).width) = p := ⟨_, rfl⟩
  have hexec : exec (.fenceLinkLane die n) s =
      .next (((p.recordRs 0 { kind := 0x35, w12 := fenceWord 3 die n }).countFenced 1).rewriteCap) := by
    rw [← hp]
    refine congrArg Host.Outcome.next (if_neg ?_)
    rintro (h | h)
    · exact h hl
    · omega
  have hpl : ∃ l, p = s.putLink (16 + die) l ∧ l.width = 8 := by
    rw [← hp, hw, State.narrow_eq s _ (by decide)]
    exact ⟨_, rfl, rfl⟩
  obtain ⟨l, hpl, hlw⟩ := hpl
  have hr := p.recordRs_still 0 { kind := 0x35, w12 := fenceWord 3 die n }
  have hrot := State.rot_of_board (State.Loses.of_still hr).board
  obtain ⟨h1, h2, h3⟩ := State.counted_rot hrot
  have hps : p.rot = s.rot := by rw [hpl]; rfl
  rw [hps] at h1 h3
  refine ⟨_, hexec, h1, h2, h3, ?_⟩
  rw [State.rewriteCap_eq]
  show ((p.recordRs 0 _).link (16 + die)).width = 8
  rw [State.still_link hr, hpl, ← hlw]
  exact congrArg RingLink.width (Tab.get_put_self _ _ _ _)

/-- A fenced unit of a die leaves every link as it is. -/
theorem State.fenceUnit_link (s : State) (u d : Nat) (answers : Bool) : ((s.fenceUnit u answers).die d).link = (s.die d).link := by
  rw [State.fenceUnit_eq, State.fenceBit_eq, ← State.die_of_board (s.vacate_board u answers) d]
  generalize s.vacate u answers = v
  show ((v.putDie (unitDie u) ((v.die (unitDie u)).without (unitIdx u))).die d).link = (v.die d).link
  by_cases h : d = unitDie u
  · subst h
    rw [State.putDie_die_self]
    rfl
  · rw [State.putDie_die_ne _ _ h]

/-- A die whose units are fenced: the link stands, and the package is degraded. -/
theorem State.fenceUnits (us : List Nat) (answers : Bool) (d : Nat) (s : State) :
    ((us.foldl (fun t u => t.fenceUnit u answers) s).die d).link = (s.die d).link ∧
    (us ≠ [] → (us.foldl (fun t u => t.fenceUnit u answers) s).rot.degraded = true) := by
  constructor
  · exact List.foldlRecOn (motive := fun t : State => (t.die d).link = (s.die d).link) us _ rfl
      (fun t ht u _ => (t.fenceUnit_link u d answers).trans ht)
  · intro h
    obtain ⟨l, u, rfl⟩ := (List.eq_nil_or_concat us).resolve_left h
    rw [List.concat_eq_append, List.foldl_append]
    rfl

/-- FENCE_DIE: each unit that is up is fenced, and the die presents none. -/
def State.dieFenced (s : State) (die : Nat) (answers : Bool) : State :=
  let us := (dieUnits die).filter s.unitUp
  let t := s.recordFence us (fenceWord 4 die 0)
  if us.isEmpty then t.countFenced 1 else us.foldl (fun t u => t.fenceUnit u answers) t

theorem fenceDie_eq {s : State} {die : Nat} (answers : Bool) (hl : (s.die die).link = .up) (h15 : die ≤ 15) :
    exec (.fenceDie die answers) s = .next ((s.dieFenced die answers).putDie die { (s.dieFenced die answers).die die with
      link := if die = 0 ∨ !(dieUnits die).isEmpty then ((s.dieFenced die answers).die die).link else .fenced,
      units := 0, fenced := 2 ^ 48 - 1 }).rewriteCap := by
  refine congrArg Host.Outcome.next (if_neg ?_)
  rintro (h | h)
  · exact h.1 hl
  · omega

/-- A link die has no units: its link closes. -/
theorem fencesLinkDie (s : State) (die : Nat) (ans : Bool) (hl : (s.die die).link = .up) (hd : die = 14 ∨ die = 15) :
    ∃ t : State, exec (.fenceDie die ans) s = .next t ∧ t.rot.nFenced = s.rot.nFenced + 1 ∧
      t.rot.degraded = true ∧ t.rot.capGen = (if s.rot.capGen.getLsbD 0 then s.rot.capGen else s.rot.capGen + 1) ∧
      (t.die die).link = .fenced ∧ (t.die die).units = 0 := by
  have hnone : dieUnits die = [] := by rcases hd with rfl | rfl <;> rfl
  have hf : s.dieFenced die ans = (s.recordFence [] (fenceWord 4 die 0)).countFenced 1 := by
    unfold State.dieFenced
    rw [hnone]
    rfl
  have hr := s.recordFence_still [] (fenceWord 4 die 0)
  have hrot := State.rot_of_board (State.Loses.of_still hr).board
  generalize s.recordFence [] (fenceWord 4 die 0) = r at hf hrot
  obtain ⟨x, hx⟩ : ∃ x, { ((r.countFenced 1).die die) with
    link := if die = 0 ∨ !(dieUnits die).isEmpty then ((r.countFenced 1).die die).link else .fenced,
    units := 0, fenced := 2 ^ 48 - 1 } = x := ⟨_, rfl⟩
  have hlink : x.link = .fenced := by
    rw [← hx, hnone]
    refine if_neg ?_
    rintro (h | h)
    · omega
    · exact absurd h (by decide)
  obtain ⟨p, hp⟩ : ∃ p, r.putDie die x = p := ⟨_, rfl⟩
  have hexec : exec (.fenceDie die ans) s = .next (p.countFenced 1).rewriteCap := by
    rw [fenceDie_eq ans hl (by omega), hf, hx, ← hp]
    rfl
  have hprot : (p.rot.nFenced, p.rot.capGen) = (s.rot.nFenced, s.rot.capGen) := by rw [← hp]; exact hrot
  obtain ⟨h1, h2, h3⟩ := State.counted_rot hprot
  have hdie : (p.countFenced 1).rewriteCap.die die = x := by
    rw [State.rewriteCap_eq]
    show p.die die = x
    rw [← hp, State.putDie_die_self]
  refine ⟨_, hexec, h1, h2, h3, ?_, ?_⟩ <;> rw [hdie]
  · exact hlink
  · rw [← hx]

/-- A die with units keeps its link, and presents none of them. -/
theorem fencesDie (s : State) (die : Nat) (ans : Bool) (hl : (s.die die).link = .up) (h2 : 2 ≤ die) (h13 : die ≤ 13) :
    ∃ t : State, exec (.fenceDie die ans) s = .next t ∧
      (t.die die).link = .up ∧ (t.die die).units = 0 ∧ t.rot.degraded = true := by
  have hsome : (dieUnits die).isEmpty = false := by
    unfold dieUnits
    by_cases h : 10 ≤ die ∧ die ≤ 13
    · rw [if_pos h]; rfl
    · rw [if_neg h, if_pos (by omega)]; rfl
  obtain ⟨hlink, hdeg⟩ : ((s.dieFenced die ans).die die).link = .up ∧ (s.dieFenced die ans).rot.degraded = true := by
    have hr := s.recordFence_still ((dieUnits die).filter s.unitUp) (fenceWord 4 die 0)
    unfold State.dieFenced
    generalize (dieUnits die).filter s.unitUp = us at hr ⊢
    dsimp only
    generalize s.recordFence us (fenceWord 4 die 0) = r at hr ⊢
    have hrl : (r.die die).link = .up := by rw [State.still_die hr]; exact hl
    by_cases hus : us = []
    · subst hus
      exact ⟨hrl, rfl⟩
    · obtain ⟨hk, hd⟩ := State.fenceUnits us ans die r
      rw [if_neg (by rwa [List.isEmpty_iff])]
      exact ⟨hk.trans hrl, hd hus⟩
  have hexec := fenceDie_eq ans hl (by omega)
  generalize s.dieFenced die ans = v at hlink hdeg hexec
  have hif : (if die = 0 ∨ (!(dieUnits die).isEmpty) = true then (v.die die).link else .fenced) = .up := by
    rw [hsome, if_pos (.inr rfl)]
    exact hlink
  rw [hif] at hexec
  refine ⟨_, hexec, ?_⟩
  rw [State.rewriteCap_eq]
  refine ⟨?_, ?_, hdeg⟩
  · exact (congrArg Die.link (State.putDie_die_self v die _)).trans rfl
  · exact (congrArg Die.units (State.putDie_die_self v die _)).trans rfl

end Sys2Proof.Machine
namespace Sys2Proof.Settled
open Sys2Proof Sys2Proof.Machine

/-- Settles O52: one theorem for each of its events; records and lost groups are kept apart from what a fence or a stage changes by
`State.still` and `State.board`. -/
theorem platformEvents : Obligations.PlatformEvents := by
  unfold Obligations.PlatformEvents
  refine ⟨?_, bootStages, ?_, capSteps, heartbeats, ?_, staleResponseDrop_eq, ?_⟩
  case refine_1 =>
    intro s t0 cold ht0
    exact packageResets s t0 cold (by rw [ht0]; delta State.cleared; with_reducible rfl)
  case refine_2 =>
    intro s die hl ht h1 h15 hb
    exact enumerations s die hl ht h1 h15 hb
  case refine_3 =>
    intro s die d hd
    refine ⟨fun t0 _ he ht => ?_, fun _ hs => ?_, fun hl hs h10 h13 => isolations s die d hd hl hs h10 h13, fun mask hl h10 h13 => ?_⟩
    · exact enumeration_soon (hd ▸ he) ht
    · exact isolation_stays (hd ▸ hs)
    · rw [hd]
      exact selfTest_presents mask (hd ▸ hl) h10 h13
  case refine_4 =>
    intro s die n
    obtain ⟨hcu, hquad⟩ := fencesUnits s die n
    refine ⟨hcu, hquad, fencesBank s die n, fencesLane s die n, fencesLinkDie s die, fencesDie s die⟩

end Sys2Proof.Settled
end

section
/-! PROOF. The instructions of a host core (R34, R35, R51, R63, R343, R344, R352): keys, translations, harvested entries, policy images.
What the write-back of an Orangery line leaves alone is said once, by `State.sansLines`. -/
namespace Sys2Proof.Machine

/-- What holds of a projection at every step of a fold holds of the whole fold. -/
theorem foldl_keeps {σ α β : Type} (φ : σ → β) {f : σ → α → σ} (h : ∀ t a, φ (f t a) = φ t) (l : List α) (s : σ) :
    φ (l.foldl f s) = φ s := by
  induction l generalizing s with
  | nil => rfl
  | cons a l ih => exact (ih _).trans (h s a)

theorem Tab.mem_erase {α : Type} {t : Tab α} {n : Nat} {e : Nat × α} : e ∈ Tab.erase t n ↔ e ∈ t ∧ e.1 ≠ n := by
  rw [Tab.erase_eq_filter, List.mem_filter, decide_eq_true_eq]

theorem Tab.mem_foldl_erase {α : Type} {e : Nat × α} (ks : List Nat) (t : Tab α) :
    e ∈ ks.foldl Tab.erase t ↔ e ∈ t ∧ e.1 ∉ ks := by
  induction ks generalizing t with
  | nil => simp
  | cons k ks ih => rw [List.foldl_cons, ih, Tab.mem_erase, List.mem_cons, not_or, and_assoc]

theorem Tab.erase_of_find?_none {α : Type} {t : Tab α} {n : Nat} (h : Tab.find? t n = none) : Tab.erase t n = t := by
  induction t with
  | nil => rfl
  | cons e t ih =>
    obtain ⟨k, v⟩ := e
    rw [Tab.find?] at h
    split at h
    · cases h
    · rename_i hk
      rw [Tab.erase, if_neg hk, ih h]

/-! ### Lines of the Orangery that are written back (R35, R40) -/

/-- The package but for memory, its keys and markers, and the lines of the Orangery: what a write-back of a line leaves alone. -/
def State.sansLines (s : State) : State :=
  { s with mem := [], ms := { s.ms with lineKey := [], dropped := [], orng := [] } }

theorem State.memWrite_orng (s : State) (slot : BitVec 8) (pa : Nat) (b : Byte) : (s.memWrite slot pa b).ms.orng = s.ms.orng :=
  (State.undrop_rest (s.rekey slot pa) pa).2.2.2.trans (State.rekey_rest s slot pa).2.2

theorem State.memWrite_sansLines (s : State) (slot : BitVec 8) (pa : Nat) (b : Byte) :
    (s.memWrite slot pa b).sansLines = s.sansLines := by
  have hset : ∀ (f : Nat → Byte) (l : List Nat) (t : State), (l.foldl (fun u a => u.setHome a (f a)) t).sansLines = t.sansLines :=
    fun f l t => foldl_keeps State.sansLines (f := fun u a => u.setHome a (f a)) (fun _ _ => rfl) l t
  have hrekey : (s.rekey slot pa).sansLines = s.sansLines := by
    unfold State.rekey
    generalize lineAddrs pa = l
    dsimp only
    split
    · rfl
    · split
      · rfl
      · split
        · rfl
        · exact hset _ l s
  have hundrop : ∀ t : State, (t.undrop pa).sansLines = t.sansLines := by
    intro t
    unfold State.undrop
    generalize lineAddrs pa = l
    split
    · exact hset _ l t
    · rfl
  exact (hundrop _).trans hrekey

theorem State.backLine_sansLines (s : State) (l : OLine) : (s.backLine l).sansLines = s.sansLines := by
  refine foldl_keeps State.sansLines (fun t i => ?_) _ s
  split
  · exact t.memWrite_sansLines _ _ _
  · rfl

theorem State.backLine_orng (s : State) (l : OLine) : (s.backLine l).ms.orng = s.ms.orng := by
  refine foldl_keeps (fun t : State => t.ms.orng) (fun t i => ?_) _ s
  split
  · exact t.memWrite_orng _ _ _
  · rfl

theorem State.dropLineAt_sansLines (s : State) (k : Nat) : (s.dropLineAt k).sansLines = s.sansLines := rfl

theorem State.evictLine_sansLines (s : State) (k : Nat) : (s.evictLine k).sansLines = s.sansLines := by
  unfold State.evictLine
  split
  · exact (State.dropLineAt_sansLines _ k).trans (s.backLine_sansLines _)
  · rfl

theorem State.evictLine_orng (s : State) (k : Nat) : (s.evictLine k).ms.orng = Tab.erase s.ms.orng k := by
  unfold State.evictLine
  split
  · exact congrArg (Tab.erase · k) (s.backLine_orng _)
  · rename_i h
    exact (Tab.erase_of_find?_none h).symm

theorem State.evictLines_sansLines (s : State) (ks : List Nat) : (ks.foldl State.evictLine s).sansLines = s.sansLines :=
  foldl_keeps State.sansLines State.evictLine_sansLines ks s

theorem State.evictLines_orng (s : State) (ks : List Nat) : (ks.foldl State.evictLine s).ms.orng = ks.foldl Tab.erase s.ms.orng := by
  induction ks generalizing s with
  | nil => rfl
  | cons k ks ih => rw [List.foldl_cons, List.foldl_cons, ih, State.evictLine_orng]

/-! ### Keys (R34, R35) -/

theorem State.zeroRanges_mem (lo n : Nat → Nat) (ws : List Nat) (s : State) :
    (ws.foldl (fun t w => t.zeroRange (lo w) (n w)) s).mem = ws.foldl (fun m w => Tab.dropRange m (lo w) (n w)) s.mem := by
  induction ws generalizing s with
  | nil => rfl
  | cons w ws ih => exact ih _

/-- Forgetting ranges of addresses adds nothing to the span directory. -/
theorem State.mem_zeroRanges_dir {lo n : Nat → Nat} {e : Nat × List SpanEnt} (ws : List Nat) (s : State)
    (h : e ∈ (ws.foldl (fun t w => t.zeroRange (lo w) (n w)) s).ms.dir) : e ∈ s.ms.dir := by
  induction ws generalizing s with
  | nil => exact h
  | cons w ws ih => exact List.mem_of_mem_filter (ih _ h)

/-- An address of a carve-out way lies in the way's bytes (R21). -/
theorem paKind_carve {pa w : Nat} (h : paKind pa = .carve w) :
    carveBase + w * wayBytes ≤ pa ∧ pa < carveBase + w * wayBytes + wayBytes ∧ w < 32 := by
  unfold paKind at h
  split_ifs at h with _ hc
  injection h with hw
  simp only [carveBase, wayBytes] at hc hw ⊢
  omega

theorem paKind_carveBase {w : Nat} (h : w < 32) : paKind (carveBase + w * wayBytes) = .carve w := by
  have hd : ¬carveBase + w * wayBytes < 0x8000000000 := by simp only [carveBase, wayBytes]; omega
  have hc : carveBase ≤ carveBase + w * wayBytes ∧ carveBase + w * wayBytes < carveBase + 0x40000000 := by
    simp only [carveBase, wayBytes]; omega
  have hw : (carveBase + w * wayBytes - carveBase) / 0x2000000 = w := by simp only [carveBase, wayBytes]; omega
  rw [paKind, if_neg hd, if_pos hc, hw]

/-- Whether an address lies in a way tagged with a slot depends on its way and on the way registers. -/
theorem State.taggedWay_congr {s t : State} {slot : BitVec 8} {pa q : Nat} (hr : t.rot = s.rot) (hk : paKind q = paKind pa) :
    t.taggedWay slot q = s.taggedWay slot pa := by
  simp only [State.taggedWay, hr, hk]

/-- What destroying a key slot leaves of it, and what it leaves alone (R35). -/
theorem State.killKey_spec (s : State) (m : Nat) :
    Tab.find? (s.killKey m).ms.keys m = none ∧
    (∀ q, q ≠ m → Tab.find? (s.killKey m).ms.keys q = Tab.find? s.ms.keys q) ∧
    (s.killKey m).agents = s.agents ∧ (s.killKey m).rot = s.rot ∧
    (∀ e ∈ (s.killKey m).ms.dir, ∀ x ∈ e.2, x.slot ≠ BitVec.ofNat 8 m) ∧
    (∀ e ∈ (s.killKey m).ms.orng, e.2.slot ≠ BitVec.ofNat 8 m) ∧
    ∀ pa, s.taggedWay (BitVec.ofNat 8 m) pa = true → (s.killKey m).homeByte pa = 0 := by
  unfold State.killKey
  extract_lets slot k mine drop l1 l2 u _ v ways t
  have hu : u.sansLines = (s.dropSpans slot).sansLines := State.evictLines_sansLines _ _
  have hrot : v.rot = s.rot := (congrArg (fun x : State => x.rot) hu :)
  have hz : ∀ {β : Type} (φ : State → β), (∀ (x : State) lo n, φ (x.zeroRange lo n) = φ x) → φ t = φ v := fun φ h =>
    foldl_keeps φ (fun x w => h x _ _) ways v
  have hkeys : t.ms.keys = s.ms.keys :=
    (hz (fun x => x.ms.keys) (fun _ _ _ => rfl)).trans (congrArg (fun x : State => x.ms.keys) hu :)
  refine ⟨Tab.find?_erase_self _ _, fun q hq => (Tab.find?_erase_ne _ hq).trans (by rw [hkeys]),
    (hz (fun x => x.agents) (fun _ _ _ => rfl)).trans (congrArg (fun x : State => x.agents) hu :),
    (hz (fun x => x.rot) (fun _ _ _ => rfl)).trans hrot, fun e he x hx => ?_, fun e he => ?_, fun pa hpa => ?_⟩
  · have hdir : v.ms.dir = (s.dropSpans slot).ms.dir := (congrArg (fun x : State => x.ms.dir) hu :)
    have he' : e ∈ (s.dropSpans slot).ms.dir := hdir ▸ State.mem_zeroRanges_dir ways v he
    obtain ⟨y, -, rfl⟩ := List.mem_map.1 (List.mem_of_mem_filter he')
    simpa using (List.mem_filter.1 hx).2
  · have horng : t.ms.orng = u.ms.orng := hz (fun x => x.ms.orng) (fun _ _ _ => rfl)
    have he' : e ∈ t.ms.orng := he
    rw [horng, show u.ms.orng = _ from State.evictLines_orng _ _, Tab.mem_foldl_erase] at he'
    obtain ⟨hmem, hkey⟩ := he'
    exact fun hs => hkey (List.mem_map.2 ⟨e, List.mem_filter.2 ⟨hmem, by simpa using hs⟩, rfl⟩)
  · obtain ⟨w, hw⟩ : ∃ w, paKind pa = .carve w := by
      unfold State.taggedWay at hpa
      split at hpa
      · exact ⟨_, ‹_›⟩
      · cases hpa
    obtain ⟨hlo, hhi, h32⟩ := paKind_carve hw
    have htag : v.taggedWay slot (carveBase + w * wayBytes) = true :=
      (State.taggedWay_congr hrot ((paKind_carveBase h32).trans hw.symm)).trans hpa
    show Tab.get 0 t.mem pa = 0
    rw [show t.mem = _ from State.zeroRanges_mem (fun w => carveBase + w * wayBytes) (fun _ => wayBytes) ways v]
    exact get_foldl_dropRange 0 _ _ pa ways _ (.inl ⟨w, List.mem_filter.2 ⟨List.mem_range.2 h32, htag⟩, hlo, hhi⟩)

/-! ### Translations (R51, R352) -/

/-- A core's agent once cached translations of a range are dropped: its page registers lose those of the range. -/
theorem State.dropXlat_agent? {s : State} {id : Nat} {ag : Agent} (h : s.agent? id = some ag) (p : Nat) (m : MapRange) :
    (s.dropXlat p m).agent? id = some { ag with strm := ag.strm.keep (fun x => !(x.part == p && m.hits x)) } := by
  have hf := Tab.find?_map_val (fun _ (x : Agent) => { x with strm := x.strm.keep (fun y => !(y.part == p && m.hits y)) }) s.agents id
  rw [show Tab.find? s.agents id = some ag from h] at hf
  exact hf

/-- What is kept where a partition's range is dropped. -/
theorem outside_iff {q p : Nat} {b : Bool} : (!(q == p && b)) = true ↔ q ≠ p ∨ b = false := by
  cases b <;> simp

/-- A page register that `keep` leaves holds what it keeps. -/
theorem Stream.kept {st : Stream} {f : Xlat → Bool} {x : Xlat} (h : (st.keep f).cur = some x ∨ (st.keep f).next = some x) :
    f x = true := by
  rcases h with h | h <;> exact (Option.filter_eq_some_iff.1 h).2

/-! ### Harvested entries (R63) -/

/-- The frame `f` lies under an entry that maps `size` bytes from frame `lo`. -/
def underEntry (lo size : Nat) (f : Nat × BitVec 2) : Bool := decide (lo ≤ f.1) && decide (f.1 < lo + (size + 4095) / 4096)

theorem any_underEntry {lo size : Nat} {fs : Tab (BitVec 2)} {g : BitVec 2 → Bool} :
    ((fs.filter (underEntry lo size)).any (fun f => g f.2) = true ↔
      ∃ f ∈ fs, (lo ≤ f.1 ∧ f.1 < lo + (size + 4095) / 4096) ∧ g f.2 = true) := by
  simp [underEntry, and_assoc]

/-- HARVEST of one entry by what the records of its frames say: nothing, accesses without a write, or a write. -/
theorem harvestEntries (s : State) (pa : Nat) (e : DWord) (size : Nat) :
    let lo := pteBase e / 4096
    let under : Nat → Prop := fun q => lo ≤ q ∧ q < lo + (size + 4095) / 4096
    let u : State := { s with ms := { s.ms with
      frames := s.ms.frames.filter (fun x => !(decide (lo ≤ x.1) && decide (x.1 < lo + (size + 4095) / 4096))) } }
    ((∀ x ∈ s.ms.frames, under x.1 → x.2 = 0) → s.harvestEntry (pa, e, size) = u) ∧
    ((∃ x ∈ s.ms.frames, under x.1 ∧ x.2 ≠ 0) → (∀ x ∈ s.ms.frames, under x.1 → x.2.getLsbD 1 = false) →
      s.harvestEntry (pa, e, size) = u.pkStore 0 false pa (leBytes 8 (e ||| 0x80).toNat)) ∧
    ((∃ x ∈ s.ms.frames, under x.1 ∧ x.2.getLsbD 1 = true) →
      s.harvestEntry (pa, e, size) = u.pkStore 0 false pa (leBytes 8 (e ||| 0x80 ||| 0x100).toNat)) := by
  intro lo under u
  have heq : s.harvestEntry (pa, e, size) =
      (let a := (s.ms.frames.filter (underEntry lo size)).any (fun f => f.2 != 0)
       let d := (s.ms.frames.filter (underEntry lo size)).any (fun f => f.2.getLsbD 1)
       if a || d then u.pkStore 0 false pa (leBytes 8 (e ||| (if a then 0x80 else 0) ||| (if d then 0x100 else 0)).toNat) else u) := rfl
  have ha : (s.ms.frames.filter (underEntry lo size)).any (fun f => f.2 != 0) = true ↔ ∃ f ∈ s.ms.frames, under f.1 ∧ f.2 ≠ 0 :=
    (any_underEntry (g := fun b => b != 0)).trans (by simp [under])
  have hd : (s.ms.frames.filter (underEntry lo size)).any (fun f => f.2.getLsbD 1) = true ↔
      ∃ f ∈ s.ms.frames, under f.1 ∧ f.2.getLsbD 1 = true := any_underEntry (g := fun b => b.getLsbD 1)
  rw [heq]
  generalize (s.ms.frames.filter (underEntry lo size)).any (fun f => f.2 != 0) = a at ha ⊢
  generalize (s.ms.frames.filter (underEntry lo size)).any (fun f => f.2.getLsbD 1) = d at hd ⊢
  have nowrite : (∀ x ∈ s.ms.frames, under x.1 → x.2.getLsbD 1 = false) → d = false := fun h =>
    Bool.eq_false_iff.2 fun hc => by
      obtain ⟨f, hf, hu, h1⟩ := hd.1 hc
      rw [h f hf hu] at h1
      cases h1
  refine ⟨fun h => ?_, fun h hn => ?_, fun h => ?_⟩
  · have ha' : a = false := Bool.eq_false_iff.2 fun hc => by
      obtain ⟨f, hf, hu, h0⟩ := ha.1 hc
      exact h0 (h f hf hu)
    rw [ha', nowrite fun x hx hu => by rw [h x hx hu]; rfl]
    rfl
  · rw [ha.2 h, nowrite hn]
    simp
  · obtain ⟨f, hf, hu, h1⟩ := h
    rw [hd.2 ⟨f, hf, hu, h1⟩, ha.2 ⟨f, hf, hu, fun h0 => by rw [h0] at h1; cases h1⟩]
    rfl

/-! ### What each instruction does on a core -/

section
variable {s : State} {id : Nat} {ag : Agent} (hm : s.mover = some (id, ag)) (hp : ag.profile = .host)
include hm hp

/-- An instruction of the host profile takes effect on a core (R118, R119). -/
theorem hostIssue_of (k : Nat → Agent → State) : issue hostOnly 0 s k = .next (k id ag) :=
  issue_of k hm (fun _ => rfl) (by rw [hp]; rfl)

theorem keyset_of (d : BitVec 6) (a : Src) : exec (.keyset 0 d a) s = .next (
    if (Tab.get {} s.ms.keys ((ag.src a).toNat % 256)).st = 0 then retire
      { s with ms := { s.ms with
          keys := Tab.put s.ms.keys ((ag.src a).toNat % 256)
            { st := 1, owner := (ag.src a).toNat / 256 % 64, shared := (ag.src a).getLsbD 16, key := s.ms.nextKey },
          nextKey := s.ms.nextKey + 1 } } id (ag.sSet d.toNat 0)
    else retire s id (ag.sSet d.toNat 1)) := by
  refine (hostIssue_of hm hp _).trans ?_
  simp only [BitVec.extractLsb'_toNat, Nat.shiftRight_eq_div_pow, Nat.pow_zero, Nat.div_one, Nat.reducePow]

/-- KEYKILL issued for the first time (R35). -/
theorem keykill_of (d : BitVec 6) (a : Src) (hw : ∀ m, ag.wait ≠ .keykill m) : exec (.keykill 0 d a) s = .next (
    let n := (ag.src a).toNat % 256
    let k := Tab.get {} s.ms.keys n
    if n ≠ 0 ∧ k.st = 1 then
      waitFor { s with ms := { s.ms with keys := Tab.put s.ms.keys n { k with st := 2 } } } id ag (.keykill n)
    else retire s id (ag.sSet d.toNat 1)) := by
  refine (hostIssue_of hm hp _).trans ?_
  simp only [BitVec.extractLsb'_toNat, Nat.shiftRight_eq_div_pow, Nat.pow_zero, Nat.div_one, Nat.reducePow]

/-- KEYKILL issued again while its slot is KILLING. -/
theorem keykill_again (d : BitVec 6) (a : Src) {m : Nat} (hw : ag.wait = .keykill m) :
    exec (.keykill 0 d a) s = .next (retire (s.killKey m) id (ag.sSet d.toNat 0)) := by
  refine (hostIssue_of hm hp _).trans ?_
  simp only [hw]

theorem mapinv_of (a : Src) (b : BitVec 6) {p : Nat} {m : MapRange} (hr : ag.mapRange a b = (p, m)) (hq : s.mapQuiet p m = true) :
    exec (.mapinv 0 a b) s = .next (retire (s.dropXlat p m) id
      { ag with strm := ag.strm.keep (fun x => !(x.part == p && m.hits x)) }) := by
  refine (hostIssue_of hm hp _).trans ?_
  simp only [hr, hq, if_true, State.dropXlat_agent? (State.mover_eq hm).2.1, Option.getD_some]

theorem harvest_of (a : Src) (b : BitVec 6) : exec (.harvest 0 a b) s = .next (retire
    ((s.harvestList (ag.mapRange a b).1 (ag.mapRange a b).2).foldl State.harvestEntry s) id ag) :=
  hostIssue_of hm hp _

/-- POLLD of an image that can be read (R343, R366). -/
theorem polld_of (d : BitVec 6) (a c : Src) (hf : flatOk (ag.srcP a) = true) (h0 : (ag.srcP a).getLsbD 0 = false)
    {p n : Nat} (hpn : p = (ag.src c).toNat % 64) (hn : n = (ag.src c).toNat / 65536 % 1024) (h1 : 1 ≤ n) (h2 : n ≤ 512)
    {img : List Half} (hr : s.readImage ag (ag.srcP a) n [] = .ok img) :
    exec (.polld 0 d a c) s = .next (
      let t := (s.putAgent id ag).noteImage id ag (ag.srcP a) n
      let v := polCheck img (s.pol p).swap
      retire (if v.1 = 0 then (t.putPol p { t.pol p with shadow := img }).measure p (imageBytes img) else t) id
        (((t.agent? id).getD ag).sSet d.toNat (BitVec.ofNat 32 (v.1 + 16 * v.2.1 + 65536 * min 65535 v.2.2)))) := by
  refine (hostIssue_of hm hp _).trans ?_
  have hp6 : ((ag.src c).extractLsb' 0 6).toNat = p := by
    rw [hpn]; simp [BitVec.extractLsb'_toNat]
  have hn10 : ((ag.src c).extractLsb' 16 10).toNat = n := by
    rw [hn]; simp [BitVec.extractLsb'_toNat, Nat.shiftRight_eq_div_pow]
  have hnn : ¬(n = 0 ∨ 512 < n) := by omega
  simp only [hp6, hn10, hf, h0, hr, Bool.not_true, Bool.or_false, Bool.false_eq_true, if_false, hnn]
  rfl

/-- POLSW issued for the first time (R344). -/
theorem polsw_of (d : BitVec 6) (a : Src) (hw : ∀ k, ag.wait ≠ .polsw k) {p : Nat} (hpn : p = (ag.src a).toNat % 64) :
    exec (.polsw 0 d a) s = .next (
      let x := s.pol p
      if x.shadow.isEmpty then retire s id (ag.sSet d.toNat 1)
      else if x.dec.isNone then retire (s.putPol p x.swapIn) id (ag.sSet d.toNat 0)
      else waitFor (s.putPol p { x with swap := true }) id ag (.polsw x.swaps)) := by
  refine (hostIssue_of hm hp _).trans ?_
  have hp6 : ((ag.src a).extractLsb' 0 6).toNat = p := by
    rw [hpn]; simp [BitVec.extractLsb'_toNat]
  simp only [hp6]

end

end Sys2Proof.Machine

namespace Sys2Proof.Settled
open Sys2Proof Sys2Proof.Machine

/-- Settles O25: each instruction is its equation on a core, KEYKILL's end `State.killKey_spec`, a harvested entry
`harvestEntries`. -/
theorem hostSystem : Obligations.HostSystem := by
  intro s id ag d b a c w n hm hp hw hn st
  subst hw
  subst hn
  refine ⟨fun h => ?_, fun h => ?_, fun hwait => ?_, fun m hwait => ?_, ?_, ?_, harvestEntries s, ?_, ?_⟩
  · rw [keyset_of hm hp, if_pos h]
  · rw [keyset_of hm hp, if_neg h]
  · rw [keykill_of hm hp d a hwait]
    exact ⟨fun h => by rw [if_neg fun hc => h.elim hc.1 (· hc.2)], fun h0 h1 => by rw [if_pos ⟨h0, h1⟩]⟩
  · exact ⟨_, keykill_again hm hp d a hwait, s.killKey_spec m⟩
  · intro p m hq
    refine ⟨_, _, mapinv_of hm hp a b (p := p) (m := m) rfl hq, rfl, rfl, fun e he => ?_, fun e he h => ?_, fun e he => ?_,
      fun e he => ?_, rfl, rfl⟩
    · exact outside_iff.1 (List.mem_filter.1 he).2
    · exact List.mem_filter.2 ⟨he, outside_iff.2 h⟩
    · exact outside_iff.1 (List.mem_filter.1 he).2
    · exact outside_iff.1 (Stream.kept he)
  · exact harvest_of hm hp a b
  · intro img v hf h0 h1 h2 hr hv t
    subst hv
    exact polld_of hm hp d a c hf h0 rfl rfl h1 h2 hr
  · intro hwait x
    rw [polsw_of hm hp d a hwait rfl]
    exact ⟨fun h => by simp [x, h], fun h hd => by simp [x, h, hd, Pol.swapIn]⟩

end Sys2Proof.Settled
end

section
/-! PROOF. A trap within REP (R113, R114, R345, R348): the run that it saves stands at the REP with `resumed` set, by which the REP is
taken up where it was interrupted. -/
namespace Sys2Proof.Machine

/-! ### Records where no ring is in use (R353) -/

/-- A ring that is not in use only counts. -/
theorem State.ringAppend_unused (s : State) (n : Nat) {reg : DWord} (rec : List Byte) (h : reg.getLsbD 63 = false) :
    s.ringAppend n reg rec =
      { s with rot := { s.rot with ringTail := Tab.set 0 s.rot.ringTail n (Tab.get 0 s.rot.ringTail n + 1) } } := by
  unfold State.ringAppend
  simp only [h, Bool.false_eq_true, if_false]

theorem State.raiseEvent_agents (s : State) (p : Nat) (e : PolEvent) : (s.raiseEvent p e).agents = s.agents := by
  unfold State.raiseEvent
  dsimp only
  split
  · rfl
  · split <;> rfl

/-- A record that no ring takes wakes no agent. -/
theorem State.record_agents_unused (s : State) (part : Nat) (e : ErrRec) (j : JobRef) (unit : Word)
    (hp : (Tab.get 0 s.rot.errRing part).getLsbD 63 = false) (hr : s.rot.rsErr.getLsbD 63 = false) :
    (s.record part e j unit).agents = s.agents := by
  unfold State.record
  dsimp only
  rw [foldl_keeps (fun t : State => t.agents) (fun t w => t.raiseEvent_agents part _), State.ringAppend_unused _ _ _ hp,
    State.ringAppend_unused _ _ _ hr]

/-! ### A trap without a table (R347, R349) -/

theorem State.drainSfu_of_empty {s : State} {ag : Agent} (id : Nat) (h : (s.unit ag.unit).sfu = []) : s.drainSfu id ag = s := by
  unfold State.drainSfu
  rw [h]
  split <;> rfl

/-- An agent that ends by a trap keeps the run that the trap saved. -/
theorem State.endByTrap_saved (s : State) (id : Nat) (ag : Agent) (kind c : Nat) (tepc : DWord)
    (hp : ∀ p, (Tab.get 0 s.rot.errRing p).getLsbD 63 = false) (hr : s.rot.rsErr.getLsbD 63 = false) :
    ∃ y, (s.endByTrap id ag kind c tepc).agent? id = some y ∧ y.saved = ag.saved := by
  have hrec : ∀ (x : Agent) (p : Nat) (e : ErrRec) (j : JobRef) (u : Word),
      ((s.putAgent id x).record p e j u).agent? id = some x := fun x p e j u => by
    have ha := State.record_agents_unused (s.putAgent id x) p e j u (hp p) hr
    exact (congrArg (fun t : Tab Agent => Tab.find? t id) ha).trans (State.putAgent_agent?_self s id x)
  unfold State.endByTrap
  split
  · exact ⟨_, State.putAgent_agent?_self s id _, rfl⟩
  · exact ⟨_, hrec _ _ _ _ _, rfl⟩

section
variable {s : State} {ag : Agent} {c : Nat} (h : (s.trapReg ag).getLsbD 0 = false)
include h

theorem State.trapEntry_noTable : s.trapEntry ag c = none := by
  unfold State.trapEntry
  simp only [h, Bool.not_false, Bool.true_or, if_true]

theorem State.trapFar_noTable : s.trapFar ag c = false := by
  unfold State.trapFar
  simp only [h, Bool.false_and]

theorem State.handler_noTable : s.handler ag c = none := by
  unfold State.handler
  rw [State.trapEntry_noTable h]
  rfl

theorem State.noteTrapRead_noTable (id : Nat) : s.noteTrapRead id ag c = s := by
  unfold State.noteTrapRead
  rw [State.trapEntry_noTable h]

end

/-- Where no trap table is in use, a trap outside a handler saves what it saves and ends its agent. -/
theorem takeTrap_noTable {s : State} {ag : Agent} (id c : Nat) (tepc tval : DWord) (hi : ag.inh = false)
    (hd : (s.unit ag.unit).sfu = []) (ht : ∀ a : Agent, (s.trapReg a).getLsbD 0 = false) :
    takeTrap s id ag c tepc tval = ((s.putAgent id { ag with wait := .none }).putAgent id (ag.trapped c tepc tval)).endByTrap id
      (ag.trapped c tepc tval) 0x33 c tepc := by
  have hi' : ({ ag with wait := Wait.none } : Agent).inh = false := hi
  have hd' : (s.putAgent id { ag with wait := .none }).drainSfu id { ag with wait := .none } = s.putAgent id { ag with wait := .none } :=
    State.drainSfu_of_empty id hd
  have ht1 : ((s.putAgent id { ag with wait := .none }).trapReg (ag.trapped c tepc tval)).getLsbD 0 = false := ht _
  have ht2 : (((s.putAgent id { ag with wait := .none }).putAgent id (ag.trapped c tepc tval)).trapReg
      (ag.trapped c tepc tval)).getLsbD 0 = false := ht _
  have hfar := State.trapFar_noTable (c := c) ht1
  have hhandler := State.handler_noTable (c := c) ht1
  have hnote := State.noteTrapRead_noTable (c := c) ht2 id
  unfold Agent.trapped at hfar hhandler hnote ⊢
  simp only [takeTrap, hi', hd', hfar, hhandler, hnote, State.enterHandler, Bool.false_eq_true, if_false,
    State.putAgent_agent?_self, Option.getD_some]

/-- After reset, a trap outside a handler leaves the run that it saved. -/
theorem takeTrap_reset_saved {ag : Agent} (id c : Nat) (tepc tval : DWord) (hi : ag.inh = false) :
    ∃ y, (takeTrap State.reset id ag c tepc tval).agent? id = some y ∧ y.saved = ag.run := by
  have ht : ∀ a : Agent, (State.reset.trapReg a).getLsbD 0 = false := fun a => by
    unfold State.trapReg
    split
    · exact (BitVec.getLsbD_zero : (0 : DWord).getLsbD 0 = false)
    · exact (BitVec.getLsbD_zero : (0 : DWord).getLsbD 0 = false)
  have hring : (0 : DWord).getLsbD 63 = false := BitVec.getLsbD_zero
  rw [takeTrap_noTable id c tepc tval hi rfl ht]
  exact State.endByTrap_saved _ id _ 0x33 c tepc (fun _ => hring) hring

end Sys2Proof.Machine

namespace Sys2Proof.Settled
open Sys2Proof Sys2Proof.Machine

/-- Refutes O21 by its last clause, REP's: the run that the trap interrupts stands at the REP with `resumed` set, so that the REP
is taken up and not begun again (R113, R114), where the statement gives it the `resumed` of the iteration. A wave in the second
iteration of a REP takes an address trap after reset, and its saved run is the one with `resumed` set. -/
theorem not_trapEntry : ¬ Obligations.TrapEntry := by
  intro h
  let rep : RepSt := { cnt := 2, i := 1, stepd := 0, stepa := 0, stepb := 0 }
  let ag : Agent := { profile := .wave, die := 10, run :=
    { inRun := true, pc := 0x1000, code := List.replicate 6 0, cnt := 3, left := 1, idx := 1, off := 2, ilen := 2, rep := some rep } }
  obtain ⟨-, -, -, hrep⟩ := h
  obtain ⟨x, htrap, -, -, hrun, -, -, hcause⟩ := hrep State.reset 0 ag 0x05 0 rep rfl rfl (by decide)
  have hzero : (0 : Word).getLsbD 31 = false := BitVec.getLsbD_zero
  have hinh : x.inh = false := by rw [Agent.inh, hcause]; exact hzero
  obtain ⟨y, hy, hysaved⟩ := takeTrap_reset_saved (ag := ag.atRep) 0 0x05 ag.run.here 0 hzero
  obtain ⟨z, hz, hzsaved⟩ := takeTrap_reset_saved (ag := x) 0 0x05 (ag.run.pc + 4 + BitVec.ofNat 64 (2 * (ag.run.off - 2))) 0 hinh
  have hyz : y = z := Option.some.inj (hy.symm.trans ((congrArg (fun t : State => t.agent? 0) htrap).trans hz))
  have hruns : ag.atRep.run.resumed = x.run.resumed := by rw [← hysaved, hyz, hzsaved]
  rw [hrun] at hruns
  exact absurd hruns (by decide)

end Sys2Proof.Settled
end

section
/-! PROOF. A read of an empty sharer list (R265 to R267): the index that the new entry takes is looked for once the list has been
written, and writing an empty list removes every entry of the directory at its sector. -/
namespace Sys2Proof.Machine

/-- A request whose home answers without an address error is carried out (R263, R267, R270). -/
theorem spanTransaction_of {s : State} {r : SpanReq} (ha : s.spanAsked r = true)
    (hr : s.reachable r.part r.slot (256 * r.sector) = true) : exec (.spanTransaction r) s = .next (s.spanRun r) := by
  have hb : s.backed r.part (256 * r.sector) = true := by
    simp only [State.reachable, Bool.and_eq_true] at hr
    exact hr.1.1
  show execSpanTransaction r s = _
  simp only [execSpanTransaction, ha, hb, hr, Bool.not_true, Bool.or_false, Bool.false_eq_true, if_false]

end Sys2Proof.Machine

namespace Sys2Proof.Settled
open Sys2Proof Sys2Proof.Machine

/-- Refutes O50 by its first clause, which holds the directory to no canonical form: here it has an empty list of a sector and,
behind it, a second list of the same sector. Peer 2's index 0 is used in the second list, so that its least free index is 1; the
read shared removes both lists before it looks for the index, and its entry takes 0. Of directories that list each sector once this
says nothing. -/
theorem not_coherenceAndOrangery : ¬ Obligations.CoherenceAndOrangery := by
  intro h
  let r : SpanReq := { kind := .readShared, peer := 2, sector := 0x20, lo := 0, hi := 3, part := 0, slot := 0 }
  let hidden : SpanEnt := { peer := 2, idx := 0, st := .s, lo := 8, hi := 11, part := 0 }
  let s : State := { State.reset with
    ms := { State.reset.ms with uses := [(128, 1)], dir := [(0x20, []), (0x20, [hidden])] }
    plat := { State.reset.plat with dies := [(10, { link := .up })] } }
  obtain ⟨hspan, -⟩ := h
  have hasked : s.spanAsked r = true := by decide
  have hreach : s.reachable r.part r.slot (256 * r.sector) = true := by decide
  obtain ⟨-, hfills, -⟩ := hspan s r 1
  obtain ⟨hempty, -⟩ := hfills hasked hreach (by decide)
  obtain ⟨hread, -⟩ := hempty (by decide)
  obtain ⟨t, ht, -, -, hlist, -⟩ := hread rfl
  rw [spanTransaction_of hasked hreach] at ht
  cases ht
  exact absurd hlist (by decide)

end Sys2Proof.Settled
end

section
/-! PROOF. Run headers (R48, R105, R111, R112): what BLK does with a header, by what its code turns out to be. -/
namespace Sys2Proof.Machine

/-- The word of a run header, as a number (R106, R111). -/
theorem headerWord (neg : BitVec 3) (rep cnt : BitVec 6) :
    (Fld.pack { fn := 0, b := 0#3 ++ neg, a := rep, d := cnt, g := 0, maj := 0 }).zeroExtend 64 =
      BitVec.ofNat 64 (1 + cnt.toNat * 2 ^ 9 + rep.toNat * 2 ^ 15 + neg.toNat * 2 ^ 21) := by
  apply BitVec.eq_of_toNat_eq
  have := neg.isLt
  have := rep.isLt
  have := cnt.isLt
  simp only [Fld.pack, toNat_append_add, BitVec.toNat_setWidth, BitVec.toNat_ofNat, BitVec.ofNat_eq_ofNat]
  omega

/-- Code of a page without fetch permission is the address trap at the header (R48, R130). -/
theorem State.fetchStop_protect {s : State} {id : Nat} {ag : Agent} {hdr va : DWord}
    (h : s.target ag .fetch (.flat va) = .protect) : s.fetchStop id ag hdr va = takeTrap s id ag 0x05 hdr va := by
  rw [State.fetchStop, h]

section
variable {s : State} {id : Nat} {ag : Agent} {neg : BitVec 3} {rep cnt : BitVec 6}

/-- A header whose count is 0 or above 24 (R111). -/
theorem blk_badCount (hm : s.mover = some (id, ag)) (hr : ag.run.inRun = false) (hc : cnt.toNat = 0 ∨ 24 < cnt.toNat) :
    exec (.blk neg rep cnt) s = .next (takeTrap s id ag 0x02 ag.run.pc
      (BitVec.ofNat 64 (1 + cnt.toNat * 2 ^ 9 + rep.toNat * 2 ^ 15 + neg.toNat * 2 ^ 21))) := by
  have hc' : cnt = 0 ∨ 24 < cnt.toNat := hc.imp_left (fun h => BitVec.eq_of_toNat_eq h)
  show execBlk neg rep cnt s = _
  unfold execBlk
  rw [onMover_of _ hm, if_neg (by simp [hr]), if_pos hc', headerWord]

/-- A header whose count is 1 to 24: its code is fetched and checked (R105, R111, R112). -/
theorem blk_counted (hm : s.mover = some (id, ag)) (hr : ag.run.inRun = false) (h1 : 1 ≤ cnt.toNat) (h24 : cnt.toNat ≤ 24)
    {got : List Fetched} (hg : got = s.fetchCode ag (ag.run.pc + 4) 144) {lay : List Nat × Nat}
    (hl : lay = runLayout cnt.toNat (got.map (fun h => h.half)) 0 []) :
    exec (.blk neg rep cnt) s = .next (
      if (got.map (fun h => h.half)).length < lay.2 then
        s.fetchStop id ag ag.run.pc (ag.run.pc + 4 + BitVec.ofNat 64 (2 * (got.map (fun h => h.half)).length))
      else if runBad ((got.map (fun h => h.half)).take lay.2) lay.1 then
        takeTrap s id ag 0x02 ag.run.pc (BitVec.ofNat 64 (1 + cnt.toNat * 2 ^ 9 + rep.toNat * 2 ^ 15 + neg.toNat * 2 ^ 21))
      else (s.keepCode id ag (got.take lay.2)).updAgent id (fun x =>
        { x with wait := .none, run :=
          { inRun := true, pc := ag.run.pc, code := (got.map (fun h => h.half)).take lay.2, neg := neg, cnt := cnt.toNat,
            left := rep.toNat + 1, resumed := x.run.resumed } })) := by
  have hc : ¬(cnt = 0 ∨ 24 < cnt.toNat) := by
    rintro (rfl | h)
    · exact absurd h1 (by decide)
    · omega
  subst hg hl
  show execBlk neg rep cnt s = _
  unfold execBlk
  rw [onMover_of _ hm, if_neg (by simp [hr]), if_neg hc, headerWord]
  rfl

end

end Sys2Proof.Machine

namespace Sys2Proof.Settled
open Sys2Proof Sys2Proof.Machine

/-- Settles O16: each outcome is one branch of what BLK does with a header. -/
theorem runHeader : Obligations.RunHeader := by
  intro s id ag neg rep cnt hm hr got code lay word
  refine ⟨fun h1 h24 hlen hbad => ?_, fun h => ?_, fun h1 h24 hlen => ?_⟩
  · rw [blk_counted hm hr h1 h24 rfl rfl, if_neg (Nat.not_lt.mpr hlen), if_neg (fun h => Bool.noConfusion (hbad.symm.trans h))]
  · by_cases hc : cnt.toNat = 0 ∨ 24 < cnt.toNat
    · exact blk_badCount hm hr hc
    · obtain ⟨hlen, hbad⟩ := (or_assoc.mpr h).resolve_left hc
      rw [blk_counted hm hr (by omega) (by omega) rfl rfl, if_neg (Nat.not_lt.mpr hlen), if_pos hbad]
  · intro va hprot
    rw [blk_counted hm hr h1 h24 rfl rfl, if_pos hlen, State.fetchStop_protect hprot]

end Sys2Proof.Settled
end

section
/-! SUPPORT. Issue of flat and tensor accesses (R57, R60, R61, R130, R220): what each outcome of a lane's translation makes of the
instruction, for the accesses that return something and for those that return nothing. -/
namespace Sys2Proof.Machine

/-! ### Addresses and page entries (R45, R47, R125) -/

theorem shiftLeft_ofInt {w : Nat} (x : BitVec w) (k : Nat) : x <<< k = BitVec.ofInt w (x.toInt * 2 ^ k) := by
  rw [BitVec.ofInt_mul, BitVec.ofInt_toInt, BitVec.shiftLeft_eq_mul_twoPow]
  congr 1
  apply BitVec.eq_of_toNat_eq
  rw [BitVec.toNat_twoPow, BitVec.toNat_ofInt]
  norm_cast

theorem signExtend_shiftLeft (off : Word) (k : Nat) : (off.signExtend 64 : DWord) <<< k = BitVec.ofInt 64 (off.toInt * 2 ^ k) := by
  rw [shiftLeft_ofInt, BitVec.toInt_signExtend_of_le (by norm_num)]

/-- The flat address as integer arithmetic modulo 2^64 (R125). -/
theorem flatEa_eq (base : DWord) (off : Word) (k : Nat) : flatEa base off k = BitVec.ofInt 64 (base.toNat + off.toInt * 2 ^ k) := by
  rw [flatEa, signExtend_shiftLeft, BitVec.ofInt_add, BitVec.ofInt_natCast, BitVec.ofNat_toNat, BitVec.setWidth_eq]

/-- The address of LDACQ and STREL likewise (R138). -/
theorem Agent.acqEa_eq (ag : Agent) (a b : Src) : ag.acqEa a b = BitVec.ofInt 64 ((ag.srcP a).toNat + (ag.src b).toInt) := by
  have h := flatEa_eq (ag.srcP a) (ag.src b) 0
  rwa [flatEa, BitVec.shiftLeft_zero, pow_zero, mul_one] at h

theorem flatOk_iff {va : DWord} : flatOk va = true ↔ va.toNat < 2 ^ 56 := by
  have := va.isLt
  rw [flatOk, beq_iff_eq, ← BitVec.toNat_inj, BitVec.extractLsb'_toNat, Nat.shiftRight_eq_div_pow]
  simp only [BitVec.ofNat_eq_ofNat, BitVec.toNat_ofNat]
  omega

/-- A flat lane is malformed by bits 63:56 or by its alignment (R45, R128). -/
theorem Lane.bad_flat {x : Lane} {va : DWord} (h : x.key = .flat va) : x.bad = true ↔ 2 ^ 56 ≤ va.toNat ∨ va.toNat % x.n ≠ 0 := by
  rw [Lane.bad, h]
  simp only [Bool.or_eq_true, Bool.not_eq_true', ← Bool.not_eq_true, flatOk_iff, bne_iff_ne, not_lt]

theorem Lane.not_bad_flat {x : Lane} {va : DWord} (h : x.key = .flat va) (hv : va.toNat < 2 ^ 56) (hn : va.toNat % x.n = 0) :
    x.bad = false := by
  rw [← Bool.not_eq_true, Lane.bad_flat h]
  omega

theorem pteSlot_eq (e : DWord) : pteSlot e = BitVec.ofNat 8 (e.toNat / 2 ^ 56) := by
  rw [pteSlot, BitVec.extractLsb', Nat.shiftRight_eq_div_pow]

/-- A tagged address, of the scratchpad, has bit 63 (R127). -/
theorem getLsbD_63 (va : DWord) : va.getLsbD 63 = decide (2 ^ 63 ≤ va.toNat) := by
  have := va.isLt
  rw [BitVec.getLsbD, Nat.testBit_eq_decide_div_mod_eq]
  congr 1
  apply propext
  omega

theorem getLsbD_63_flat {va : DWord} (h : va.toNat < 2 ^ 56) : va.getLsbD 63 = false := by
  rw [getLsbD_63, decide_eq_false_iff_not]
  omega

/-! ### What entering a page leaves alone (R57) -/

section
variable (ag : Agent) (k : VKey) (x : Xlat)

theorem Agent.enter_eq : ag.enter k x = { ag with strm := (ag.enter k x).strm } := by
  unfold Agent.enter
  split <;> rfl

@[simp] theorem Agent.enter_profile : (ag.enter k x).profile = ag.profile := by rw [Agent.enter_eq]
@[simp] theorem Agent.enter_part : (ag.enter k x).part = ag.part := by rw [Agent.enter_eq]
@[simp] theorem Agent.enter_unit : (ag.enter k x).unit = ag.unit := by rw [Agent.enter_eq]; rfl
@[simp] theorem Agent.enter_opens : (ag.enter k x).opens = ag.opens := by rw [Agent.enter_eq]
@[simp] theorem Agent.enter_nextTag : (ag.enter k x).nextTag = ag.nextTag := by rw [Agent.enter_eq]

/-- A core has no stream. -/
theorem Agent.enter_host (h : ag.profile = .host) : ag.enter k x = ag := by rw [Agent.enter, h]

theorem State.answers_enter (s : State) (y : Xlat) (pa : Nat) : s.answers (ag.enter k x) y pa = s.answers ag y pa := by
  simp [State.answers]

end

/-! ### Several lanes -/

/-- Where a lane's access goes and is carried out: another package, or a page whose home answers. -/
def State.Answered (s : State) (ag : Agent) (t : Target) : Prop :=
  (∃ k, t = .remote k) ∨ ∃ pa x, t = .mem pa x ∧ s.answers ag x pa = true

/-- The page is present, or the address lies on another package. -/
def Target.Present (t : Target) : Prop := (∃ k, t = .remote k) ∨ ∃ pa x, t = .mem pa x

theorem State.Answered.present {s : State} {ag : Agent} {t : Target} (h : s.Answered ag t) : t.Present :=
  h.imp_right (fun ⟨pa, x, h, _⟩ => ⟨pa, x, h⟩)

theorem Target.Present.ne {t : Target} (h : t.Present) : t ≠ .absent ∧ t ≠ .walking ∧ t ≠ .protect := by
  obtain ⟨k, rfl⟩ | ⟨pa, x, rfl⟩ := h <;> exact ⟨nofun, nofun, nofun⟩

/-- The agent after the instruction's accesses are open: each carries the next tag and the time of issue (R129, R220). -/
def Agent.opened (ag : Agent) (mk : Lane → Target → Nat → Access) (now : DWord) (ts : List (Lane × Target)) : Agent :=
  { ag with nextTag := ag.nextTag + 1, opens := ag.opens ++ ts.map (fun p => { mk p.1 p.2 (ag.nextTag + 1) with born := now }) }

theorem badLane_none {ls : List Lane} (h : ∀ x ∈ ls, x.bad = false) : badLane ls Lane.bad = none :=
  List.find?_eq_none.mpr (fun x hx => by rw [h x hx]; exact Bool.false_ne_true)

section
variable {s : State} {id : Nat} {ag ag' : Agent} {need : Perm} {ls : List Lane} {ts : List (Lane × Target)}
  {mk : Lane → Target → Nat → Access} {fin : State → Agent → State}

/-- Returning accesses whose pages are all present and whose homes all answer are open once issued (R130, R220). -/
theorem issueReturning_opens (hb : ∀ x ∈ ls, x.bad = false) (ht : s.targets need ag ls = (ag', ts))
    (hp : ∀ p ∈ ts, s.replaying ag'.part p.1.key = false ∧ s.Answered ag' p.2) :
    issueReturning s id ag need ls mk fin = fin ((s.noteLanes ag ts).sendFar ts) (ag'.opened mk s.ntime ts) := by
  have hprot : ts.find? (fun p => p.2 == .protect) = none := List.find?_eq_none.mpr fun p h => by
    simpa using (hp p h).2.present.ne.2.2
  have hwait : ts.find? (fun p => p.2 == .absent || p.2 == .walking || s.replaying ag'.part p.1.key) = none :=
    List.find?_eq_none.mpr fun p h => by
      obtain ⟨ha, hw, -⟩ := (hp p h).2.present.ne
      simp [ha, hw, (hp p h).1]
  unfold issueReturning
  rw [badLane_none hb]
  dsimp only
  rw [ht]
  dsimp only
  rw [hprot, hwait]
  dsimp only
  split
  · rename_i p hf
    have hdeaf := List.find?_some hf
    obtain ⟨k, hk⟩ | ⟨pa, x, hm, hx⟩ := (hp p (List.mem_of_find?_eq_some hf)).2
    · simp [hk] at hdeaf
    · simp [hm, hx] at hdeaf
  · rfl

/-- Accesses that return nothing whose pages are all present are open once issued (R61, R130, R220). -/
theorem issuePosted_opens {op : Option AtomOp} {scope : Nat} {rel : Option Nat} (hb : ∀ x ∈ ls, x.bad = false)
    (ht : s.targets need ag ls = (ag', ts)) (hp : ∀ p ∈ ts, p.2.Present) :
    issuePosted s id ag need op scope rel ls mk fin =
      fin (((s.leaveSlog ag'.unit id).noteLanes ag ts).sendFar ts) (ag'.opened mk s.ntime ts) := by
  have hprot : ts.find? (fun p => p.2 == .protect) = none := List.find?_eq_none.mpr fun p h => by
    simpa using (hp p h).ne.2.2
  have hwalk : ts.any (fun p => p.2 == .walking) = false := List.any_eq_false.mpr fun p h => by
    simpa using (hp p h).ne.2.1
  have hgone : ts.filter (fun p => p.2 == .absent) = [] := List.filter_eq_nil_iff.mpr fun p h => by
    simpa using (hp p h).ne.1
  have hhere : ts.filter (fun p => p.2 != .absent) = ts := List.filter_eq_self.mpr fun p h => by
    simpa using (hp p h).ne.1
  unfold issuePosted
  rw [badLane_none hb]
  dsimp only
  rw [ht]
  dsimp only
  rw [hprot, hwalk, hgone, hhere]
  rfl

end

/-! ### One lane -/

section
variable {s : State} {ag : Agent} {need : Perm} {x : Lane}

theorem State.targets_one (t : Target) (h : s.target ag need x.key = t) (hm : ∀ pa y, t ≠ .mem pa y) :
    s.targets need ag [x] = (ag, [(x, t)]) := by
  cases t with
  | mem pa y => exact absurd rfl (hm pa y)
  | remote k => simp [State.targets, h]
  | absent => simp [State.targets, h]
  | walking => simp [State.targets, h]
  | protect => simp [State.targets, h]

theorem State.targets_one_mem {pa : Nat} {y : Xlat} (h : s.target ag need x.key = .mem pa y) :
    s.targets need ag [x] = (ag.enter x.key y, [(x, .mem pa y)]) := by
  simp [State.targets, h]

variable {id : Nat} {mk : Lane → Target → Nat → Access} {fin : State → Agent → State}

theorem issueReturning_bad (h : x.bad = true) : issueReturning s id ag need [x] mk fin = addrTrap s id ag x.va := by
  simp [issueReturning, badLane, h]

theorem issueReturning_protect (hb : x.bad = false) (h : s.target ag need x.key = .protect) :
    issueReturning s id ag need [x] mk fin = addrTrap s id ag x.va := by
  simp [issueReturning, badLane, hb, State.targets_one _ h]

theorem issueReturning_walking (hb : x.bad = false) (h : s.target ag need x.key = .walking) :
    issueReturning s id ag need [x] mk fin = waitFor s id ag .again := by
  simp [issueReturning, badLane, hb, State.targets_one _ h]

theorem issueReturning_absent (hb : x.bad = false) (h : s.target ag need x.key = .absent) :
    issueReturning s id ag need [x] mk fin = s.hold id ag x need := by
  simp [issueReturning, badLane, hb, State.targets_one _ h]

/-- A home that answers with an error is the address trap, after the record that shows it (R33, R130). -/
theorem issueReturning_deaf {pa : Nat} {y : Xlat} (hb : x.bad = false) (h : s.target ag need x.key = .mem pa y)
    (hr : s.replaying ag.part x.key = false) (ha : s.answers ag y pa = false) :
    issueReturning s id ag need [x] mk fin =
      addrTrap (s.violationOf (ag.enter x.key y) (pteSlot y.pte) pa) id (ag.enter x.key y) x.va := by
  simp [issueReturning, badLane, hb, State.targets_one_mem h, hr, State.answers_enter, ha]

theorem issueReturning_mem {pa : Nat} {y : Xlat} (hb : x.bad = false) (h : s.target ag need x.key = .mem pa y)
    (hr : s.replaying ag.part x.key = false) (ha : s.answers ag y pa = true) :
    issueReturning s id ag need [x] mk fin =
      fin (s.noteAgXlat ag y) ((ag.enter x.key y).opened mk s.ntime [(x, .mem pa y)]) := by
  rw [issueReturning_opens (by simpa using hb) (State.targets_one_mem h)]
  · rfl
  · have hy : s.Answered (ag.enter x.key y) (.mem pa y) := .inr ⟨pa, y, rfl, (s.answers_enter ag x.key y y pa).trans ha⟩
    simpa [hr] using hy

theorem issueReturning_remote {k : Nat} (hb : x.bad = false) (h : s.target ag need x.key = .remote k)
    (hr : s.replaying ag.part x.key = false) :
    issueReturning s id ag need [x] mk fin = fin s.sendOff (ag.opened mk s.ntime [(x, .remote k)]) := by
  rw [issueReturning_opens (by simpa using hb) (State.targets_one _ h nofun)]
  · rfl
  · have hk : s.Answered ag (.remote k) := .inl ⟨k, rfl⟩
    simpa [hr] using hk

variable {op : Option AtomOp} {scope : Nat} {rel : Option Nat}

theorem issuePosted_bad (h : x.bad = true) :
    issuePosted s id ag need op scope rel [x] mk fin = addrTrap (s.leaveSlog ag.unit id) id ag x.va := by
  simp [issuePosted, badLane, h]

theorem issuePosted_mem {pa : Nat} {y : Xlat} (hb : x.bad = false) (h : s.target ag need x.key = .mem pa y) :
    issuePosted s id ag need op scope rel [x] mk fin =
      fin ((s.leaveSlog ag.unit id).noteAgXlat ag y) ((ag.enter x.key y).opened mk s.ntime [(x, .mem pa y)]) := by
  rw [issuePosted_opens (by simpa using hb) (State.targets_one_mem h), Agent.enter_unit]
  · rfl
  · have hy : (Target.mem pa y).Present := .inr ⟨pa, y, rfl⟩
    simpa using hy

end

end Sys2Proof.Machine
end

section
/-! PROOF. LD, SLD and LDACQ, ST, SST and STREL (R125, R132 to R134, R138): their lanes, and what the issue of accesses makes of them;
what a not-present page leaves in the fault queue and in the side log (R60, R61). -/
namespace Sys2Proof.Machine

/-! ### Translation reads memory, its caches and the roots alone (R45 to R56) -/

/-- A state reads its page tables and tensor tables as another does: the fault queue is no part of a walk. -/
structure State.WalksAs (t s : State) : Prop where
  mem : t.mem = s.mem
  ms : ∃ fs, t.ms = { s.ms with faults := fs }
  rot : t.rot = s.rot

section
variable {s t : State} (h : t.WalksAs s)
include h

theorem State.WalksAs.pkReadN (slot : BitVec 8) (pa n : Nat) : t.pkReadN slot pa n = s.pkReadN slot pa n := by
  obtain ⟨hm, ⟨fs, hms⟩, hr⟩ := h
  cases s; cases t
  simp only at hm hms hr
  subst hm hms hr
  rfl

theorem State.WalksAs.tableEntry (pa : Nat) : t.tableEntry pa = s.tableEntry pa := by
  obtain ⟨hm, ⟨fs, hms⟩, hr⟩ := h
  cases s; cases t
  simp only at hm hms hr
  subst hm hms hr
  rfl

theorem State.WalksAs.upper : t.ms.upper = s.ms.upper := by
  obtain ⟨-, ⟨fs, hms⟩, -⟩ := h
  rw [hms]

theorem State.WalksAs.walkEntry (part va level pa : Nat) : t.walkEntry part va level pa = s.walkEntry part va level pa := by
  rw [State.walkEntry, State.walkEntry, h.upper, h.tableEntry]

theorem State.WalksAs.walk (part va : Nat) (need : Perm) (level : Nat) :
    ∀ tbl, t.walk part va need level tbl = s.walk part va need level tbl := by
  induction level with
  | zero => exact fun _ => rfl
  | succ level ih => exact fun tbl => by simp only [State.walk, h.walkEntry, h.tableEntry, ih]

theorem State.WalksAs.walkReads (part va level : Nat) :
    ∀ tbl, t.walkReads part va level tbl = s.walkReads part va level tbl := by
  induction level with
  | zero => exact fun _ => rfl
  | succ level ih => exact fun tbl => by simp only [State.walkReads, h.walkEntry, h.upper, ih]

theorem State.WalksAs.tensor (part tid : Nat) : t.tensor part tid = s.tensor part tid := by
  simp only [State.tensor, h.rot, h.pkReadN]

theorem State.WalksAs.walkTile (part tid : Nat) (x : Tensor) (tile : Nat) (need : Perm) :
    t.walkTile part tid x tile need = s.walkTile part tid x tile need := by
  simp only [State.walkTile, h.tableEntry]

theorem State.WalksAs.walkKey (part : Nat) (k : VKey) (need : Perm) : t.walkKey part k need = s.walkKey part k need := by
  cases k with
  | flat va => simp only [State.walkKey, State.walkFlat, h.rot, h.walk]
  | tile tid tile off => simp only [State.walkKey, h.tensor, h.walkTile]

theorem State.WalksAs.keyReads (part : Nat) (k : VKey) : t.keyReads part k = s.keyReads part k := by
  cases k with
  | flat va => simp only [State.keyReads, h.rot, h.walkReads]
  | tile tid tile off => simp only [State.keyReads, h.tensor]

theorem State.WalksAs.samePage (part : Nat) (a b : VKey) : t.samePage part a b = s.samePage part a b := by
  simp only [State.samePage, State.walkAny, h.walkKey]

theorem State.WalksAs.sameFault (f : FaultRec) (part : Nat) (k : VKey) : t.sameFault f part k = s.sameFault f part k := by
  rw [State.sameFault, State.sameFault, h.samePage]

end

theorem State.walksAs_of_eq {s t : State} (hm : t.mem = s.mem) (hms : t.ms = s.ms) (hr : t.rot = s.rot) : t.WalksAs s :=
  ⟨hm, ⟨s.ms.faults, hms⟩, hr⟩

theorem State.keyReads_putUnit (s : State) (u : Nat) (x : UnitSt) (part : Nat) (k : VKey) :
    (s.putUnit u x).keyReads part k = s.keyReads part k :=
  have h : (s.putUnit u x).WalksAs s := State.walksAs_of_eq rfl rfl rfl
  h.keyReads part k

theorem VKey.inPage_self (size : Nat) (k : VKey) : VKey.inPage size k k = true := by
  cases k <;> simp [VKey.inPage]

/-! ### Raising a fault (R48, R60) -/

section
variable (s : State) (part : Nat) (k : VKey) (perm : Perm) (ag cp : Option Nat)

/-- Beside the reads of the walk, raising a fault changes the two queues that hold it. -/
theorem State.raiseFault_eq : ∃ fs q, s.raiseFault part k perm ag cp = { s.noteWalk part k with
    ms := { (s.noteWalk part k).ms with faults := fs }, plat := { (s.noteWalk part k).plat with hostQ := q } } := by
  unfold State.raiseFault
  dsimp only
  split
  · exact ⟨_, _, rfl⟩
  · exact ⟨_, _, rfl⟩

theorem State.raiseFault_mem : (s.raiseFault part k perm ag cp).mem = (s.noteWalk part k).mem := by
  obtain ⟨fs, q, h⟩ := s.raiseFault_eq part k perm ag cp
  rw [h]

theorem State.raiseFault_units : (s.raiseFault part k perm ag cp).units = s.units := by
  obtain ⟨fs, q, h⟩ := s.raiseFault_eq part k perm ag cp
  rw [h]
  exact State.still_units (s.noteWalk_still part k)

theorem State.raiseFault_walksAs : (s.raiseFault part k perm ag cp).WalksAs (s.noteWalk part k) := by
  obtain ⟨fs, q, h⟩ := s.raiseFault_eq part k perm ag cp
  rw [h]
  exact ⟨rfl, ⟨fs, rfl⟩, rfl⟩

/-- The asker stands among the waiters of the fault of its page. -/
theorem State.raiseFault_waiter (id : Nat) : (s.raiseFault part k perm (some id) cp).ms.faults.any
    (fun f => (s.noteWalk part k).sameFault f part k && f.waiters.contains id) = true := by
  have hjoin : ∀ ws : List Nat, (ws ++ (some id).toList.filter (fun a => !ws.contains a)).contains id = true := fun ws => by
    by_cases hw : ws.contains id = true <;> simp_all
  unfold State.raiseFault
  dsimp only
  split
  · rename_i hany
    obtain ⟨f, hf, hs⟩ := List.any_eq_true.mp hany
    refine List.any_eq_true.mpr ⟨_, List.mem_map_of_mem hf, ?_⟩
    rw [if_pos hs, Bool.and_eq_true]
    exact ⟨hs, hjoin f.waiters⟩
  · refine List.any_eq_true.mpr ⟨_, List.mem_append_right _ (List.mem_singleton_self _), ?_⟩
    rw [Bool.and_eq_true]
    exact ⟨by simp [State.sameFault, State.samePage, VKey.inPage_self], hjoin []⟩

end

/-- A walk that reads nothing leaves the package as it is. -/
theorem State.noteWalk_of_noReads {s : State} {part : Nat} {k : VKey} (h : s.keyReads part k = []) : s.noteWalk part k = s := by
  rw [State.noteWalk, h]
  rfl

/-- An agent held on a page that is not present: it waits, and stands among the waiters of the page's fault (R60). -/
theorem State.hold_spec (s : State) (id : Nat) (ag : Agent) (x : Lane) (need : Perm) :
    (s.hold id ag x need).agent? id = some { ag with wait := .held x.va } ∧
    (s.hold id ag x need).ms.faults.any
      (fun f => (s.hold id ag x need).sameFault f ag.part x.key && f.waiters.contains id) = true ∧
    (s.hold id ag x need).mem = (s.noteWalk ag.part x.key).mem := by
  obtain ⟨hm, hms, hr⟩ := s.raiseFault_walksAs ag.part x.key need (some id) none
  have hw : (s.hold id ag x need).WalksAs (s.noteWalk ag.part x.key) := ⟨hm, hms, hr⟩
  refine ⟨waitFor_agent? _ _ _ _, ?_, hm⟩
  simp only [hw.sameFault]
  exact s.raiseFault_waiter ag.part x.key need none id

/-! ### The side log (R61) -/

theorem leBytes_eq (n : Nat) : ∀ x, leBytes n x = (List.range n).map (fun i => BitVec.ofNat 8 (x / 256 ^ i)) := by
  induction n with
  | zero => exact fun _ => rfl
  | succ n ih =>
    intro x
    rw [leBytes, ih, List.range_succ_eq_map, List.map_cons, List.map_map, pow_zero, Nat.div_one]
    congr 1
    refine List.map_congr_left fun i _ => ?_
    rw [Function.comp_apply, Nat.div_div_eq_div_mul, ← Nat.pow_succ']

/-- The bytes of a value with their places, each as some function of the two. -/
theorem leBytes_places {α : Type} (n x : Nat) (f : Byte × Nat → α) :
    (leBytes n x).zipIdx.map f = (List.range n).map (fun i => f (BitVec.ofNat 8 (x / 256 ^ i), i)) := by
  rw [leBytes_eq]
  exact List.ext_getElem (by simp) (fun i h h' => by simp)

theorem and_allOnes8 (b : Byte) : b &&& 0xFF = b := BitVec.and_allOnes

/-- The 64-byte line of an address. -/
theorem lineMask (va : DWord) : va &&& ~~~(0x3F : DWord) = BitVec.ofNat 64 (va.toNat / 64 * 64) := by
  apply BitVec.eq_of_getLsbD_eq
  intro i hi
  have hm : ∀ i, i < 64 → (~~~(0x3F : DWord)).getLsbD i = decide (6 ≤ i) := by decide
  rw [BitVec.getLsbD_and, hm i hi, BitVec.getLsbD_ofNat, show va.toNat / 64 * 64 = va.toNat / 2 ^ 6 * 2 ^ 6 from rfl,
    Nat.testBit_mul_two_pow, Nat.testBit_div_two_pow]
  by_cases h : 6 ≤ i
  · simp [h, hi, Nat.sub_add_cancel h, BitVec.testBit_toNat]
  · simp [h]

/-- The entry that one flat store with a not-present page makes (R61). -/
theorem State.sideEntries_one (s : State) (id : Nat) (ag : Agent) (scope : Nat) {x : Lane} (hmsk : x.msk = 0xFF) (hk : x.key = .flat x.va) :
    ∃ e : SideEnt, s.sideEntries id ag none scope [x] = [e] ∧ e.agent = id ∧ e.va = x.va ∧
      e.key = .flat (BitVec.ofNat 64 (x.va.toNat / 64 * 64)) ∧
      e.bytes = (List.range x.n).map (fun i => (x.va.toNat % 64 + i, BitVec.ofNat 8 (x.data.toNat / 256 ^ i), 0xFF)) := by
  refine ⟨_, rfl, rfl, rfl, ?_, ?_⟩
  · rw [hk, VKey.line, lineMask]
  · dsimp only
    rw [leBytes_places]
    simp only [hmsk, hk, VKey.inLine, and_allOnes8]

section
variable {s : State} {id : Nat} {ag : Agent} {need : Perm} {x : Lane} {mk : Lane → Target → Nat → Access}
  {fin : State → Agent → State} {op : Option AtomOp} {scope : Nat}

/-- A store whose page is not present enters the side log of its unit, where entries are free and nobody waits (R61). -/
theorem issuePosted_absent (hb : x.bad = false) (h : s.target ag need x.key = .absent) {e : SideEnt}
    (he : s.sideEntries id ag op scope [x] = [e])
    (hl : (s.unit ag.unit).slog.length + 1 ≤ slogCap ag.unit) (hq : (s.unit ag.unit).slogQ = []) :
    issuePosted s id ag need op scope none [x] mk fin =
      fin ((s.putUnit ag.unit { s.unit ag.unit with slog := (s.unit ag.unit).slog ++ [e], slogQ := [] }).raiseFault
        ag.part x.key need none none) { ag with nextTag := ag.nextTag + 1 } := by
  have hf : (s.unit ag.unit).slogFree ag.unit id 1 = true := by simp [UnitSt.slogFree, hl, hq]
  simp [issuePosted, badLane, hb, State.targets_one _ h, he, hf, hq, State.noteLanes, State.sendFar]

end

/-! ### The lanes (R125, R128, R132 to R134) -/

/-- The size table of the rule (R116, R128). -/
theorem sizeBytes_eq (n : Nat) : sizeBytes n = [1, 1, 2, 2, 4, 8].getD n 4 := rfl

theorem size_five {size : BitVec 3} : size.toNat = 5 ↔ size = 5 := by
  rw [← BitVec.toNat_inj]
  rfl

theorem code_63 {d : BitVec 6} : 63 ≤ d.toNat ↔ d = 63 := by
  have := d.isLt
  rw [← BitVec.toNat_inj, show (63 : BitVec 6).toNat = 63 from rfl]
  omega

theorem sDest_eq (size : BitVec 3) (d : BitVec 6) :
    sDest size.toNat d.toNat = if d = 63 then .none else if size = 5 then .sp d.toNat else .s d.toNat := by
  simp only [sDest, code_63, size_five]

theorem vDest_eq (size : BitVec 3) (d : BitVec 6) (l : Nat) :
    vDest size.toNat d.toNat l = if d = 63 then .none else if size = 5 then .vp d.toNat l else .v d.toNat l := by
  simp only [vDest, code_63, size_five]

theorem Agent.sData_eq (ag : Agent) (size : BitVec 3) (r : Nat) :
    ag.sData size.toNat r = if size = 5 then ag.pGet r else (ag.sGet r).zeroExtend 64 := by
  simp only [Agent.sData, size_five]

theorem Agent.vData_eq (ag : Agent) (size : BitVec 3) (r l : Nat) :
    ag.vData size.toNat r l = if size = 5 then ag.vpGet r l else (ag.vGet r l).zeroExtend 64 := by
  simp only [Agent.vData, size_five]

theorem acqSize_five {size : BitVec 2} : acqSize size = 5 ↔ size = 1 := by
  unfold acqSize
  split <;> simp_all

theorem acqSize_bytes (size : BitVec 2) : sizeBytes (acqSize size) = if size = 1 then 8 else 4 := by
  unfold acqSize
  split <;> rfl

theorem acqSize_dest (size : BitVec 2) (d : BitVec 6) :
    sDest (acqSize size) d.toNat = if d = 63 then .none else if size = 1 then .sp d.toNat else .s d.toNat := by
  simp only [sDest, code_63, acqSize_five]

theorem Agent.acqSize_data (ag : Agent) (size : BitVec 2) (r : Nat) :
    ag.sData (acqSize size) r = if size = 1 then ag.pGet r else (ag.sGet r).zeroExtend 64 := by
  simp only [Agent.sData, acqSize_five]

theorem Agent.flatScope_eq (ag : Agent) (scope : BitVec 3) : ag.flatScope scope.toNat =
    if ag.profile = .wave then scope.toNat else if scope = 1 ∨ scope = 2 then 3 else scope.toNat := by
  have h1 : scope.toNat = 1 ↔ scope = 1 := by rw [← BitVec.toNat_inj]; rfl
  have h2 : scope.toNat = 2 ↔ scope = 2 := by rw [← BitVec.toNat_inj]; rfl
  simp only [Agent.flatScope, h1, h2]

theorem notSeq_of {ag : Agent} (h : ag.profile ≠ .sequencer) : notSeq ag.profile = true := by
  cases hp : ag.profile with
  | sequencer => exact absurd hp h
  | wave => rfl
  | host => rfl

theorem waveOnly_of {ag : Agent} (h : ag.profile = .wave) : waveOnly ag.profile = true := by rw [h]; rfl

/-- The access of SLD or SST (R134). -/
def Agent.scalarLane (ag : Agent) (size : BitVec 3) (d : BitVec 6) (ea : DWord) (n : Nat) : Lane :=
  { l := 0, va := ea, key := .flat ea, n := n,
    dst := if d = 63 then .none else if size = 5 then .sp d.toNat else .s d.toNat, sx := size.toNat,
    data := if size = 5 then ag.pGet d.toNat else (ag.sGet d.toNat).zeroExtend 64 }

theorem flatScalar_eq (ag : Agent) (size : BitVec 3) (scale : BitVec 2) (d : BitVec 6) (a b : Src) :
    flatScalar ag size scale d a b = [ag.scalarLane size d
      (BitVec.ofInt 64 ((ag.srcP a).toNat + (ag.src b).toInt * 2 ^ scale.toNat)) ([1, 1, 2, 2, 4, 8].getD size.toNat 4)] := by
  simp only [flatScalar, Agent.scalarLane, Agent.base, flatEa_eq, sizeBytes_eq, sDest_eq, Agent.sData_eq]

theorem flatLanes_eq (ag : Agent) (size : BitVec 3) (scale g : BitVec 2) (d : BitVec 6) (a b : Src) :
    flatLanes ag size scale g d a b = (lanesOf (ag.active g)).map (fun l =>
      let ea := BitVec.ofInt 64 ((ag.srcP a).toNat + (ag.vsrc b l).toInt * 2 ^ scale.toNat)
      { l := l, va := ea, key := .flat ea, n := [1, 1, 2, 2, 4, 8].getD size.toNat 4,
        dst := if d = 63 then .none else if size = 5 then .vp d.toNat l else .v d.toNat l, sx := size.toNat,
        data := if size = 5 then ag.vpGet d.toNat l else (ag.vGet d.toNat l).zeroExtend 64 }) := by
  simp only [flatLanes, Agent.base, flatEa_eq, sizeBytes_eq, vDest_eq, Agent.vData_eq]

theorem not_bad_of_map {ls : List Lane} {α : Type} {l : List α} {f : α → Lane} (he : ls = l.map f)
    (hk : ∀ a, (f a).key = .flat (f a).va) (h : ∀ x ∈ ls, x.va.toNat < 2 ^ 56 ∧ x.va.toNat % x.n = 0) :
    ∀ x ∈ ls, x.bad = false := by
  intro x hx
  obtain ⟨hv, hn⟩ := h x hx
  rw [he] at hx
  obtain ⟨a, -, rfl⟩ := List.mem_map.mp hx
  exact Lane.not_bad_flat (hk a) hv hn

/-- One access in a present page, opened. -/
theorem Agent.opened_enter (ag : Agent) (k : VKey) (mk : Lane → Target → Nat → Access) (now : DWord) (x : Lane) (pa : Nat) (y : Xlat) :
    (ag.enter k y).opened mk now [(x, .mem pa y)] = { ag.enter k y with
      nextTag := ag.nextTag + 1, opens := ag.opens ++ [{ mk x (.mem pa y) (ag.nextTag + 1) with born := now }] } := by
  simp [Agent.opened]

/-- The package that an address is homed on (R242). -/
theorem remotePkg (va : DWord) : (va.extractLsb' 46 9).toNat = va.toNat / 2 ^ 46 % 512 := by
  rw [BitVec.extractLsb'_toNat, Nat.shiftRight_eq_div_pow]

theorem State.target_remote {s : State} {ag : Agent} {va : DWord} (h : s.isRemote ag va = true) (need : Perm) :
    s.target ag need (.flat va) = .remote (va.extractLsb' 46 9).toNat := by
  simp [State.target, h]

/-! ### What each instruction is once it issues -/

section
variable {s : State} {id : Nat} {ag : Agent} {size : BitVec 3} {scale g : BitVec 2} {d : BitVec 6} {a b : Src}
  (hm : s.mover = some (id, ag))
include hm

theorem sld_issues {ea : DWord} {n : Nat} (hp : ag.profile ≠ .sequencer) (hi : ag.Issues g)
    (he : ea = BitVec.ofInt 64 ((ag.srcP a).toNat + (ag.src b).toInt * 2 ^ scale.toNat))
    (hn : n = [1, 1, 2, 2, 4, 8].getD size.toNat 4) :
    exec (.sld size scale g d a b) s =
      .next (issueReturning s id ag .read [ag.scalarLane size d ea n] mkLoad (fun s ag => retire s id ag)) := by
  subst he hn
  rw [← flatScalar_eq]
  exact issueOnce_of _ hm hi (notSeq_of hp)

theorem sst_issues {ea : DWord} {n : Nat} (hp : ag.profile ≠ .sequencer) (hi : ag.Issues g)
    (he : ea = BitVec.ofInt 64 ((ag.srcP a).toNat + (ag.src b).toInt * 2 ^ scale.toNat))
    (hn : n = [1, 1, 2, 2, 4, 8].getD size.toNat 4) :
    exec (.sst size scale g d a b) s = .next (issuePosted s id ag .write none 0 none [ag.scalarLane size d ea n] mkStore
      (fun s ag => retire s id ag)) := by
  subst he hn
  rw [← flatScalar_eq]
  exact issueOnce_of _ hm hi (notSeq_of hp)

theorem ld_issues (hw : ag.profile = .wave) : exec (.ld size scale g d a b) s =
    .next (issueReturning s id ag .read (flatLanes ag size scale g d a b) mkLoad (fun s ag => retire s id ag)) :=
  issue_of _ hm (fun h => absurd hw h) (waveOnly_of hw)

theorem st_issues (hw : ag.profile = .wave) : exec (.st size scale g d a b) s =
    .next (issuePosted s id ag .write none 0 none (flatLanes ag size scale g d a b) mkStore (fun s ag => retire s id ag)) :=
  issue_of _ hm (fun h => absurd hw h) (waveOnly_of hw)

/-- LDACQ at a flat address (R138). -/
theorem ldacq_issues {scope : BitVec 3} {size : BitVec 2} {ea : DWord} {n : Nat} (hi : ag.Issues g)
    (he : ea = BitVec.ofInt 64 ((ag.srcP a).toNat + (ag.src b).toInt)) (hn : n = if size = 1 then 8 else 4)
    (hf : ea.toNat < 2 ^ 56) :
    exec (.ldacq scope size g d a b) s = .next (issueReturning s id ag .read
      [{ l := 0, va := ea, key := .flat ea, n := n,
         dst := if d = 63 then .none else if size = 1 then .sp d.toNat else .s d.toNat, sx := if size = 1 then 5 else 4 }]
      (fun x t tag => { x.access t .load (if ag.profile = .wave then scope.toNat else if scope = 1 ∨ scope = 2 then 3 else scope.toNat)
        tag with acq := true }) (fun s ag => retire s id ag)) := by
  have h63 : ea.getLsbD 63 = false := getLsbD_63_flat hf
  rw [← Agent.acqEa_eq] at he
  subst he hn
  rw [← acqSize_dest, ← acqSize_bytes, ← Agent.flatScope_eq]
  refine (issueOnce_of _ hm hi rfl).trans ?_
  dsimp only
  rw [h63]
  rfl

/-- STREL at a flat address (R138). -/
theorem strel_issues {scope : BitVec 3} {size : BitVec 2} {ea : DWord} {n sc : Nat} (hi : ag.Issues g)
    (he : ea = BitVec.ofInt 64 ((ag.srcP a).toNat + (ag.src b).toInt)) (hn : n = if size = 1 then 8 else 4)
    (hs : sc = if ag.profile = .wave then scope.toNat else if scope = 1 ∨ scope = 2 then 3 else scope.toNat)
    (hf : ea.toNat < 2 ^ 56) :
    exec (.strel scope size g d a b) s = .next (issuePosted s id ag .write none sc (some sc)
      [{ l := 0, va := ea, key := .flat ea, n := n,
         data := if size = 1 then ag.pGet d.toNat else (ag.sGet d.toNat).zeroExtend 64 }]
      (fun x t tag => { x.access t .store sc tag with rel := true }) (fun s ag => retire s id ag)) := by
  have h63 : ea.getLsbD 63 = false := getLsbD_63_flat hf
  rw [← Agent.acqEa_eq] at he
  subst he hn hs
  rw [← Agent.acqSize_data, ← acqSize_bytes, ← Agent.flatScope_eq]
  refine (issueOnce_of _ hm hi rfl).trans ?_
  dsimp only
  rw [h63]
  rfl

end

end Sys2Proof.Machine

namespace Sys2Proof.Settled
open Sys2Proof Sys2Proof.Machine

/-- Settles O35: SLD and LDACQ by the outcomes of one lane's translation, LD by the issue of lanes that are all answered. -/
theorem flatLoads : Obligations.FlatLoads := by
  refine ⟨?_, ?_, ?_⟩
  · intro s id ag size scale g d a b ea n hm hp hi _ he hn dst data opened
    rw [sld_issues hm hp hi he hn]
    refine ⟨fun h => ?_, fun hf hal => ?_⟩
    · rw [issueReturning_bad ((Lane.bad_flat rfl).mpr h)]
      rfl
    · have hb : (ag.scalarLane size d ea n).bad = false := Lane.not_bad_flat rfl hf hal
      refine ⟨fun h => ?_, fun h => ?_, fun x h hr => ⟨fun ha => ?_, fun ha => ?_⟩, fun h hr => ?_, fun h => ?_⟩
      · rw [issueReturning_protect hb h]
        rfl
      · rw [issueReturning_walking hb h]
      · rw [issueReturning_mem hb h hr ha, Agent.opened_enter, show BitVec.ofNat 8 (x.pte.toNat / 2 ^ 56) = pteSlot x.pte from (pteSlot_eq _).symm]
        rfl
      · rw [issueReturning_deaf hb h hr ha, pteSlot_eq]
        rfl
      · rw [issueReturning_remote hb (State.target_remote h .read) hr, remotePkg]
        rfl
      · rw [issueReturning_absent hb h]
        obtain ⟨hw, hq, hmem⟩ := s.hold_spec id ag (ag.scalarLane size d ea n) .read
        exact ⟨_, rfl, hw, hq, hmem⟩
  · intro s id ag ag' size scale g d a b ls ts hm hw hls hok ht hp
    rw [ld_issues hm hw, flatLanes_eq, ← hls, issueReturning_opens (not_bad_of_map hls (fun _ => rfl) hok) ht hp]
    rfl
  · intro s id ag scope size g d a b ea n x hm hi he hn hf hal h hr ha
    rw [ldacq_issues hm hi he hn hf, issueReturning_mem (Lane.not_bad_flat rfl hf hal) h hr ha, Agent.opened_enter, ← pteSlot_eq]
    rfl

/-- Settles O36: SST and STREL by the outcomes of one lane's translation, ST by the issue of lanes whose pages are all present. -/
theorem flatStores : Obligations.FlatStores := by
  refine ⟨?_, ?_, ?_⟩
  · intro s id ag size scale g d a b ea n hm hp hi _ hd he hn data dst
    rw [sst_issues hm hp hi he hn]
    refine ⟨fun h => ?_, fun hf hal => ?_⟩
    · rw [issuePosted_bad ((Lane.bad_flat rfl).mpr h)]
      rfl
    · have hb : (ag.scalarLane size d ea n).bad = false := Lane.not_bad_flat rfl hf hal
      refine ⟨fun x h => ?_, fun h hl hq => ?_⟩
      · rw [issuePosted_mem hb h, Agent.opened_enter, ← pteSlot_eq]
        have hdst : (ag.scalarLane size d ea n).dst = dst := if_neg hd
        simp only [mkStore, Lane.access, hdst]
        rfl
      · obtain ⟨e, he, hid, hva, hkey, hbytes⟩ := s.sideEntries_one id ag 0 (x := ag.scalarLane size d ea n) rfl rfl
        rw [issuePosted_absent hb h he hl hq]
        refine ⟨_, _, rfl, fun hk => ?_, rfl, e, ?_, hid, hva, hkey, hbytes⟩
        · rw [State.raiseFault_mem, State.noteWalk_of_noReads]
          · rfl
          · exact (s.keyReads_putUnit _ _ _ _).trans hk
        · rw [State.unit, State.raiseFault_units]
          exact congrArg UnitSt.slog (s.putUnit_unit_self ag.unit _)
  · intro s id ag ag' size scale g d a b ls ts hm hw hls hok ht hp
    rw [st_issues hm hw, flatLanes_eq, ← hls, issuePosted_opens (not_bad_of_map hls (fun _ => rfl) hok) ht hp]
    rfl
  · intro s id ag scope size g d a b ea n x hm hi hd he hn hf hal h
    rw [strel_issues hm hi he hn rfl hf, issuePosted_mem (Lane.not_bad_flat rfl hf hal) h, Agent.opened_enter, ← pteSlot_eq]
    rfl

end Sys2Proof.Settled
end

section
/-! PROOF. The atomics (R127, R129, R140 to R142): what an atomic does once it issues, in the own scratchpad and at flat addresses,
and its arithmetic. -/
namespace Sys2Proof.Machine

/-! ### The lanes of an atomic (R108, R140) -/

/-- The data of a core's atomic: the register or pair behind the compare value, else the operand. -/
def Agent.atomData (ag : Agent) (op : AtomOp) (dbl : Bool) (b : Src) : Option Nat → DWord
  | some r => if dbl then ag.pGet (r + 2) else (ag.sGet (r + 1)).zeroExtend 64
  | none => if dbl then (if op = .fadd then ag.srcD b else ag.srcP b) else (ag.src b).zeroExtend 64

/-- The compare value of a core's atomic. -/
def Agent.atomCmp (ag : Agent) (dbl : Bool) : Option Nat → DWord
  | some r => if dbl then ag.pGet r else (ag.sGet r).zeroExtend 64
  | none => 0

/-- The data of one lane of a wave's atomic. -/
def Agent.atomDataV (ag : Agent) (op : AtomOp) (dbl : Bool) (b : Src) (l : Nat) : Option Nat → DWord
  | some r => if dbl then ag.vpGet (r + 2) l else (ag.vGet (r + 1) l).zeroExtend 64
  | none => if dbl then (if op = .fadd then ag.vsrcD b l else ag.vsrcP b l) else (ag.vsrc b l).zeroExtend 64

/-- The compare value of one lane of a wave's atomic. -/
def Agent.atomCmpV (ag : Agent) (dbl : Bool) (l : Nat) : Option Nat → DWord
  | some r => if dbl then ag.vpGet r l else (ag.vGet r l).zeroExtend 64
  | none => 0

theorem atomDest_s (dbl : Bool) (d : BitVec 6) : sDest (if dbl then 5 else 4) d.toNat =
    if d = 63 then .none else if dbl then .sp d.toNat else .s d.toNat := by
  cases dbl <;> simp [sDest, code_63]

theorem atomDest_v (dbl : Bool) (d : BitVec 6) (l : Nat) : vDest (if dbl then 5 else 4) d.toNat l =
    if d = 63 then .none else if dbl then .vp d.toNat l else .v d.toNat l := by
  cases dbl <;> simp [vDest, code_63]

theorem atomLanes_host {ag : Agent} (h : ag.profile = .host) (op : AtomOp) (dbl : Bool) (g : BitVec 2) (d : BitVec 6) (a b : Src)
    (c : Option Nat) : atomLanes ag op dbl g d.toNat a b c =
      [{ l := 0, va := ag.srcP a, key := .flat (ag.srcP a), n := if dbl then 8 else 4,
         dst := if d = 63 then .none else if dbl then .sp d.toNat else .s d.toNat, sx := if dbl then 5 else 4,
         data := ag.atomData op dbl b c, cmp := ag.atomCmp dbl c }] := by
  rw [← atomDest_s]
  unfold atomLanes
  rw [h]
  cases c <;> rfl

theorem atomLanes_wave {ag : Agent} (h : ag.profile = .wave) (op : AtomOp) (dbl : Bool) (g : BitVec 2) (d : BitVec 6) (a b : Src)
    (c : Option Nat) : atomLanes ag op dbl g d.toNat a b c = (lanesOf (ag.active g)).map (fun l =>
      { l := l, va := ag.vsrcP a l, key := .flat (ag.vsrcP a l), n := if dbl then 8 else 4,
        dst := if d = 63 then .none else if dbl then .vp d.toNat l else .v d.toNat l, sx := if dbl then 5 else 4,
        data := ag.atomDataV op dbl b l c, cmp := ag.atomCmpV dbl l c }) := by
  simp only [← atomDest_v]
  unfold atomLanes
  rw [h]
  cases c <;> rfl

/-! ### What an atomic does once it issues -/

/-- The scope at which an atomic acts: a core's is pk at least (R142). -/
def Agent.atomScope (ag : Agent) (scope : BitVec 3) : Nat := if ag.profile = .host ∧ scope.toNat < 3 then 3 else scope.toNat

theorem spPart_eq (va : DWord) : spPart va = va.toNat % 2 ^ 32 := by
  rw [spPart, BitVec.extractLsb'_toNat, Nat.shiftRight_zero]

section
variable {s : State} {id : Nat} {ag : Agent} {op : AtomOp} {scope : BitVec 3} {dbl : Bool} {g : BitVec 2} {d : BitVec 6}
  {a b : Src} {c : Option Nat} (hm : s.mover = some (id, ag)) (hp : ag.profile ≠ .sequencer) (hi : ag.Issues g)
include hm hp hi

/-- An atomic whose lanes all have well-formed flat addresses issues them as open accesses, or, with no destination, as a
reduction (R140, R142). -/
theorem atomic_flat {ls : List Lane} (hls : atomLanes ag op dbl g d.toNat a b c = ls)
    (hb : ∀ x ∈ ls, x.bad = false ∧ x.va.getLsbD 63 = false) :
    atomic op scope dbl g d a b c s = .next (
      if d = 63 then issuePosted s id ag .readWrite (some op) (ag.atomScope scope) none ls
        (fun x t tag => x.access t (.atomic op) (ag.atomScope scope) tag) (fun s ag => retire s id ag)
      else issueReturning s id ag .readWrite ls
        (fun x t tag => x.access t (.atomic op) (ag.atomScope scope) tag) (fun s ag => retire s id ag)) := by
  have hown : ls.filter (fun x => x.va.getLsbD 63) = [] := List.filter_eq_nil_iff.mpr fun x h => by rw [(hb x h).2]; exact Bool.false_ne_true
  have hflat : ls.filter (fun x => !x.va.getLsbD 63) = ls := List.filter_eq_self.mpr fun x h => by rw [(hb x h).2]; rfl
  have hgood : ls.find? (fun x => if x.va.getLsbD 63 then s.tagBad ag x.va x.n else x.bad) = none :=
    List.find?_eq_none.mpr fun x h => by rw [(hb x h).2, (hb x h).1]; exact Bool.false_ne_true
  unfold atomic
  rw [issue_of _ hm hi.2 (notSeq_of hp), if_neg (by simpa using hi.1)]
  dsimp only
  rw [hls, hown, hflat, hgood]
  simp only [List.map_nil, List.isEmpty_nil, Bool.not_true, Bool.and_false, Bool.false_eq_true, if_false]
  rfl

/-- An atomic whose lanes all address the own scratchpad and break no check performs them at issue (R129, R141). -/
theorem atomic_own {own : List SpLane} (hls : (atomLanes ag op dbl g d.toNat a b c).map Lane.sp = own)
    (hb : ∀ x ∈ atomLanes ag op dbl g d.toNat a b c, x.va.getLsbD 63 = true ∧ s.tagBad ag x.va x.n = false)
    (ht : s.spTrap ag true own = none) (hbar : ag.barred = false) {r : State × Agent}
    (hr : r = ownAtomics op dbl own (if d = 63 then s.leaveSlog ag.unit id else s) { ag with nextTag := ag.nextTag + 1 }) :
    atomic op scope dbl g d a b c s = .next (retire r.1 id r.2) := by
  generalize hall : atomLanes ag op dbl g d.toNat a b c = ls at hls hb
  have hown : ls.filter (fun x => x.va.getLsbD 63) = ls := List.filter_eq_self.mpr fun x h => (hb x h).1
  have hflat : ls.filter (fun x => !x.va.getLsbD 63) = [] := List.filter_eq_nil_iff.mpr fun x h => by rw [(hb x h).1]; exact Bool.false_ne_true
  have hgood : ls.find? (fun x => if x.va.getLsbD 63 then s.tagBad ag x.va x.n else x.bad) = none :=
    List.find?_eq_none.mpr fun x h => by rw [(hb x h).1, if_pos rfl, (hb x h).2]; exact Bool.false_ne_true
  have hopen : ag.opened (fun x t tag => x.access t (.atomic op) (ag.atomScope scope) tag) s.ntime [] =
      { ag with nextTag := ag.nextTag + 1 } := by simp [Agent.opened]
  unfold atomic
  rw [issue_of _ hm hi.2 (notSeq_of hp), if_neg (by simpa using hi.1)]
  dsimp only
  rw [hall, hown, hflat, hgood, hls, ht, hbar]
  dsimp only
  rw [issuePosted_opens (ag' := ag) (ts := []) (List.forall_mem_nil _) rfl (List.forall_mem_nil _),
    issueReturning_opens (ag' := ag) (ts := []) (List.forall_mem_nil _) rfl (List.forall_mem_nil _)]
  subst hr
  rw [Bool.false_and, if_neg Bool.false_ne_true]
  by_cases h63 : d = 63
  · rw [if_pos h63, if_pos h63, ← hopen]
    rfl
  · rw [if_neg h63, if_neg h63, ← hopen]
    rfl

end

/-- An atomic of a core at a legal address in a present page whose home answers opens one access (R140, R142). -/
theorem atomic_host {s : State} {id : Nat} {ag : Agent} {op : AtomOp} {scope : BitVec 3} {dbl : Bool} {d : BitVec 6} {a b : Src}
    {c : Option Nat} {x : Xlat} (hm : s.mover = some (id, ag)) (hp : ag.profile = .host) (hv : (ag.srcP a).toNat < 2 ^ 56)
    (hn : (ag.srcP a).toNat % (if dbl then 8 else 4) = 0)
    (ht : s.target ag .readWrite (.flat (ag.srcP a)) = .mem (x.flatPa (ag.srcP a)) x)
    (hr : s.replaying ag.part (.flat (ag.srcP a)) = false) (ha : s.answers ag x (x.flatPa (ag.srcP a)) = true) :
    atomic op scope dbl 0 d a b c s = .next (retire
      (if d = 63 then (s.leaveSlog ag.unit id).noteAgXlat ag x else s.noteAgXlat ag x) id { ag with
        nextTag := ag.nextTag + 1,
        opens := ag.opens ++ [{
          kind := .atomic op, loc := .mem (x.flatPa (ag.srcP a)) (x.pte.getLsbD 6) (BitVec.ofNat 8 (x.pte.toNat / 2 ^ 56)),
          size := if dbl then 8 else 4, scope := max 3 scope.toNat, data := ag.atomData op dbl b c, cmp := ag.atomCmp dbl c,
          dst := if d = 63 then .none else if dbl then .sp d.toNat else .s d.toNat, sx := if dbl then 5 else 4,
          va := ag.srcP a, tag := ag.nextTag + 1, born := s.ntime }] }) := by
  have hnw : ag.profile ≠ .wave := by rw [hp]; nofun
  have hns : ag.profile ≠ .sequencer := by rw [hp]; nofun
  have hsc : ag.atomScope scope = max 3 scope.toNat := by
    simp only [Agent.atomScope, hp, true_and]
    split <;> omega
  rw [atomic_flat hm hns ⟨fun h => absurd h hnw, fun _ => rfl⟩ (atomLanes_host hp op dbl 0 d a b c)
    (List.forall_mem_singleton.mpr ⟨Lane.not_bad_flat rfl hv hn, getLsbD_63_flat hv⟩), ← pteSlot_eq, ← hsc]
  by_cases h63 : d = 63
  · simp only [if_pos h63]
    rw [issuePosted_mem (Lane.not_bad_flat rfl hv hn) ht, Agent.opened_enter, Agent.enter_host _ _ _ hp]
    rfl
  · simp only [if_neg h63]
    rw [issueReturning_mem (Lane.not_bad_flat rfl hv hn) ht hr ha, Agent.opened_enter,
      Agent.enter_host _ _ _ hp]
    rfl

/-- The literal of an FP64 sum is the upper word (R108). -/
theorem literal_upper (w : Word) : w ++ (0 : Word) = BitVec.ofNat 64 (w.toNat * 2 ^ 32) := by
  apply BitVec.eq_of_toNat_eq
  have := w.isLt
  rw [toNat_append_add, BitVec.toNat_ofNat, show (0 : Word).toNat = 0 from rfl]
  omega

/-! ### Arithmetic on words (R141) -/

theorem lowWord_eq (x : DWord) : (x.extractLsb' 0 32).zeroExtend 64 = BitVec.ofNat 64 (x.toNat % 2 ^ 32) := by
  apply BitVec.eq_of_toNat_eq
  simp only [BitVec.toNat_setWidth, BitVec.extractLsb'_toNat, Nat.shiftRight_zero, BitVec.toNat_ofNat]

theorem lowWord_toNat (x : DWord) : ((x.extractLsb' 0 32).zeroExtend 64).toNat = x.toNat % 2 ^ 32 := by
  have := Nat.mod_lt x.toNat (show 2 ^ 32 > 0 by norm_num)
  rw [lowWord_eq, BitVec.toNat_ofNat, Nat.mod_eq_of_lt (by omega)]

theorem lowHalf_eq (x : DWord) : x.extractLsb' 0 32 = BitVec.ofNat 32 x.toNat := by
  rw [BitVec.extractLsb', Nat.shiftRight_zero]

theorem lowHalf_inj (x y : DWord) : x.extractLsb' 0 32 = y.extractLsb' 0 32 ↔ x.toNat % 2 ^ 32 = y.toNat % 2 ^ 32 := by
  rw [← BitVec.toNat_inj, lowHalf_eq, lowHalf_eq, BitVec.toNat_ofNat, BitVec.toNat_ofNat]

/-- Low words compared as signed numbers. -/
theorem low_slt (x y : DWord) : (x.extractLsb' 0 32).slt (y.extractLsb' 0 32) = true ↔
    (BitVec.ofNat 32 x.toNat).toInt < (BitVec.ofNat 32 y.toNat).toInt := by
  rw [lowHalf_eq, lowHalf_eq, BitVec.slt_iff_toInt_lt]

/-- Low words compared as numbers. -/
theorem low_ult (x y : DWord) : ((x.extractLsb' 0 32).zeroExtend 64).ult ((y.extractLsb' 0 32).zeroExtend 64) = true ↔
    x.toNat % 2 ^ 32 < y.toNat % 2 ^ 32 := by
  rw [BitVec.ult, lowWord_toNat, lowWord_toNat, decide_eq_true_iff]

theorem low_inj (x y : DWord) : (x.extractLsb' 0 32).zeroExtend 64 = (y.extractLsb' 0 32).zeroExtend 64 ↔
    x.toNat % 2 ^ 32 = y.toNat % 2 ^ 32 := by
  rw [← BitVec.toNat_inj, lowWord_toNat, lowWord_toNat]

/-- The sum of an atomic is the exact one, rounded to nearest. -/
theorem atomNew_fadd (dbl : Bool) (o b c : DWord) : atomNew .fadd dbl o b c =
    let f : Fmt := if dbl then .fp64 else .fp32
    BitVec.ofNat 64 (roundTo f 0 0 (fvAdd 0 (f.decode (o.toNat % 2 ^ f.bits)) (f.decode (b.toNat % 2 ^ f.bits))).1).1 := by
  cases dbl with
  | true =>
    have hm : ∀ x : DWord, x.toNat % 2 ^ Fmt.fp64.bits = x.toNat := fun x => Nat.mod_eq_of_lt x.isLt
    simp only [if_true, hm]
    rfl
  | false =>
    have hm : ∀ x : DWord, x.toNat % 2 ^ Fmt.fp32.bits = ((x.extractLsb' 0 32).zeroExtend 64).toNat := fun x => (lowWord_toNat x).symm
    simp only [Bool.false_eq_true, if_false, hm]
    rfl

/-! ### Exact sums (R84) -/

/-- The rational that a finite value stands for. -/
def FVal.rat : FVal → Rat
  | .fin n m e => (if n then -1 else 1) * (m : Rat) * (2 : Rat) ^ e
  | _ => 0

/-- Bringing a value to a smaller exponent keeps it. -/
theorem scaleTo_rat (n : Bool) (m : Nat) {e q : Int} (h : q ≤ e) : (scaleTo n m e q : Rat) * (2 : Rat) ^ q = (FVal.fin n m e).rat := by
  have he : (2 : Rat) ^ e = (2 : Rat) ^ (e - q).toNat * (2 : Rat) ^ q := by
    rw [← zpow_natCast, ← zpow_add₀ two_ne_zero]
    congr 1
    omega
  rw [FVal.rat, he, scaleTo, Nat.shiftLeft_eq]
  cases n with
  | false => simp only [Bool.false_eq_true, if_false]; push_cast; ring
  | true => simp only [if_true]; push_cast; ring

/-- A sign and a magnitude at an exponent. -/
theorem signed_rat (x q : Int) : (FVal.fin (decide (x < 0)) x.natAbs q).rat = (x : Rat) * (2 : Rat) ^ q := by
  rw [FVal.rat]
  congr 1
  rcases lt_or_ge x 0 with h | h
  · have hq : (x.natAbs : Rat) = -(x : Rat) := by rw [Nat.cast_natAbs, abs_of_neg h, Int.cast_neg]
    simp [h, hq]
  · have hq : (x.natAbs : Rat) = (x : Rat) := by rw [Nat.cast_natAbs, abs_of_nonneg h]
    simp [not_lt.mpr h, hq]

theorem FVal.rat_zero (n : Bool) (e : Int) : (FVal.fin n 0 e).rat = 0 := by simp [FVal.rat]

/-- The sum of two finite values is exact (R84). -/
theorem fvAdd_rat {mode : Nat} {u v : FVal} (hu : u.isNan = false) (hu' : u.isInf = false) (hv : v.isNan = false) (hv' : v.isInf = false) :
    ∃ n m e, (fvAdd mode u v).1 = .fin n m e ∧ (FVal.fin n m e).rat = u.rat + v.rat := by
  match u, v with
  | .fin n m e, .fin n' m' e' =>
    by_cases hz : m = 0 ∧ m' = 0
    · obtain ⟨rfl, rfl⟩ := hz
      exact ⟨_, _, _, rfl, by simp only [FVal.rat_zero, add_zero]⟩
    · have hsum : ((scaleTo n m e (min e e') + scaleTo n' m' e' (min e e') : Int) : Rat) * (2 : Rat) ^ (min e e') =
          (FVal.fin n m e).rat + (FVal.fin n' m' e').rat := by
        rw [← scaleTo_rat n m (min_le_left e e'), ← scaleTo_rat n' m' (min_le_right e e')]
        push_cast
        ring
      rw [fvAdd, if_neg hz]
      dsimp only
      split
      · rename_i h0
        exact ⟨_, _, _, rfl, by rw [FVal.rat_zero, ← hsum, h0]; simp⟩
      · exact ⟨_, _, _, rfl, by rw [signed_rat, hsum]⟩
  | .nan _, _ => exact absurd hu (by simp [FVal.isNan])
  | .inf _, _ => exact absurd hu' (by simp [FVal.isInf])
  | .fin .., .nan _ => exact absurd hv (by simp [FVal.isNan])
  | .fin .., .inf _ => exact absurd hv' (by simp [FVal.isInf])

/-- A NaN, or infinities of opposite signs, make no number (R176). -/
theorem fvAdd_nan {mode : Nat} {u v : FVal} (h : u.isNan = true ∨ v.isNan = true ∨ (u.isInf = true ∧ v.isInf = true ∧ u.neg ≠ v.neg)) :
    (fvAdd mode u v).1 = .nan false := by
  match u, v with
  | .nan _, _ => rfl
  | .inf _, .nan _ => rfl
  | .fin .., .nan _ => rfl
  | .inf n, .inf n' =>
    have hne : n ≠ n' := by simpa [FVal.isNan, FVal.isInf, FVal.neg] using h
    rw [fvAdd, if_neg hne]
  | .inf _, .fin .. => simp [FVal.isNan, FVal.isInf] at h
  | .fin .., .inf _ => simp [FVal.isNan, FVal.isInf] at h
  | .fin .., .fin .. => simp [FVal.isNan, FVal.isInf] at h

end Sys2Proof.Machine

namespace Sys2Proof.Settled
open Sys2Proof Sys2Proof.Machine

/-- Settles O38: one access of a core, the lanes of a wave in the own scratchpad or at flat addresses, the fold over the scratchpad
lanes, and the arithmetic operation by operation. -/
theorem atomics : Obligations.Atomics := by
  refine ⟨?_, ?_, ?_, ?_⟩
  · intro s id ag scope dbl d a b ea x hm hp he hv hn ht hr ha u opened v
    subst he
    have hop : ∀ op b c, atomic op scope dbl 0 d a b c s = opened op (ag.atomData op dbl b c) (ag.atomCmp dbl c) :=
      fun op b c => atomic_host hm hp hv hn ht hr ha
    refine ⟨hop .add b none, hop .sub b none, hop .min b none, hop .max b none, hop .minu b none, hop .maxu b none,
      hop .and b none, hop .or b none, hop .xor b none, hop .xchg b none, (hop .fadd b none).trans ?_, fun r => hop .cas (.reg r) _⟩
    cases b with
    | reg n => cases dbl <;> rfl
    | lit w =>
      cases dbl with
      | false => rfl
      | true => exact congrArg (fun y => opened .fadd y 0) (literal_upper w)
  · intro s id ag scope dbl g d a b data cmp hm hp hf width dst word all
    have hns : ag.profile ≠ .sequencer := by rw [hp]; nofun
    have hi : ag.Issues g := ⟨fun _ => hf, fun h => absurd hp h⟩
    have hall : ∀ done : AtomOp → Out, (∀ op b c, (∀ l, data l = ag.atomDataV op dbl b l c ∧ cmp l = ag.atomCmpV dbl l c) →
        atomic op scope dbl g d a b c s = done op) → all done := by
      intro done h
      refine ⟨fun hd => ⟨h .add b none hd, h .sub b none hd, h .min b none hd, h .max b none hd, h .minu b none hd, h .maxu b none hd,
        h .and b none hd, h .or b none hd, h .xor b none hd, h .xchg b none hd, fun hb => ?_⟩, fun w hdbl hb hd => ?_,
        fun r hd => h .cas (.reg r) _ hd⟩
      · refine h .fadd b none fun l => ⟨(hd l).1.trans ?_, (hd l).2⟩
        obtain rfl | hb := hb
        · rfl
        · cases b with
          | reg n => rfl
          | lit w => exact absurd rfl (hb w)
      · subst hdbl hb
        exact h .fadd _ none fun l => ⟨(hd l).1.trans (literal_upper w).symm, (hd l).2⟩
    clear_value all
    refine ⟨fun own hown htag htrap hbar => ?_, fun ls ag' ts hls hok ht hts => ?_⟩
    · refine hall _ fun op b c hd => ?_
      refine atomic_own hm hns hi (own := own) ?_ ?_ htrap hbar rfl
      · rw [atomLanes_wave hp, hown, List.map_map]
        exact List.map_congr_left fun l _ => by
          simp only [Function.comp_apply, Lane.sp, spPart_eq, hd]
          rfl
      · rw [atomLanes_wave hp]
        refine List.forall_mem_map.mpr fun l hl => ?_
        obtain ⟨h31, hbad⟩ := htag l (List.mem_filter.mp hl).2
        refine ⟨?_, hbad⟩
        rw [getLsbD_63, decide_eq_true_eq]
        dsimp only
        omega
    · refine hall _ fun op b c hd => ?_
      have hbad := not_bad_of_map hls (fun _ => rfl) hok
      rw [atomic_flat hm hns hi (ls := ls) ?_ fun x hx => ⟨hbad x hx, getLsbD_63_flat (hok x hx).1⟩]
      · have hsc : ag.atomScope scope = scope.toNat := if_neg (by rw [hp]; exact fun h => nomatch h.1)
        rw [hsc, issuePosted_opens hbad ht fun p h => (hts p h).2.imp_right fun ⟨pa, x, hx, _⟩ => ⟨pa, x, hx⟩,
          issueReturning_opens hbad ht hts]
        by_cases h63 : d = 63
        · simp only [if_pos h63]
          rfl
        · simp only [if_neg h63]
          rfl
      · rw [atomLanes_wave hp, hls]
        simp only [hd]
        rfl
  · intro op dbl x rest s ag old hx hold
    have hown : x.own? ag.unit = some x.a := by simp [SpLane.own?, spLoc, hx]
    have hword : s.spWord ag.unit x.a x.n = old := hold.symm
    refine ⟨?_, rfl⟩
    rw [ownAtomics, hown]
    dsimp only
    rw [hword]
  · intro o b c w o4 b4 so sb
    have hw : ∀ x : DWord, (x.extractLsb' 0 32).zeroExtend 64 = w x.toNat := lowWord_eq
    have hwm : ∀ x : DWord, (x.extractLsb' 0 32).zeroExtend 64 = w (x.toNat % 2 ^ 32) := fun x => by
      rw [hw]
      simp only [w, Nat.mod_mod]
    refine ⟨?_, ?_, ?_, ?_, fun _ => ⟨?_, ?_, ?_, ?_, ?_⟩, ?_, ?_, ?_, rfl, rfl, rfl, fun dbl => ?_,
      ?_, ?_, ?_, ?_, ?_, rfl, rfl, fun dbl => ?_⟩
    · refine (hw (o + b)).trans ?_
      rw [BitVec.toNat_add]
      simp only [w]
      congr 1
      omega
    · rw [BitVec.ofNat_add, BitVec.ofNat_toNat, BitVec.ofNat_toNat, BitVec.setWidth_eq, BitVec.setWidth_eq]
      rfl
    · have := b.isLt
      refine (hw (o - b)).trans ?_
      rw [BitVec.toNat_sub]
      simp only [w]
      congr 1
      omega
    · rw [sub_eq_add_neg, BitVec.ofInt_add, BitVec.ofInt_neg, BitVec.ofInt_natCast, BitVec.ofInt_natCast, BitVec.ofNat_toNat,
        BitVec.ofNat_toNat, BitVec.setWidth_eq, BitVec.setWidth_eq, ← BitVec.sub_eq_add_neg]
      rfl
    · exact if_congr (low_slt b o) (hwm b) rfl
    · exact if_congr (low_slt o b) (hwm b) rfl
    · exact if_congr (low_ult b o) (hwm b) rfl
    · exact if_congr (low_ult o b) (hwm b) rfl
    · exact if_congr (low_inj o c) (hwm b) rfl
    · exact if_congr BitVec.slt_iff_toInt_lt rfl rfl
    · exact if_congr BitVec.slt_iff_toInt_lt rfl rfl
    · exact if_congr decide_eq_true_iff rfl rfl
    · intro f val u v
      have hval : ∀ y, val y = y.rat := fun y => by cases y <;> rfl
      clear_value val
      have hnew : atomNew .fadd dbl o b c = BitVec.ofNat 64 (roundTo f 0 0 (fvAdd 0 u v).1).1 := atomNew_fadd dbl o b c
      refine ⟨fun h => ?_, fun hu hu' hv hv' => ?_⟩
      · rw [hnew, fvAdd_nan h]
        cases dbl <;> rfl
      · obtain ⟨n, m, e, hs, hr⟩ := fvAdd_rat (mode := 0) hu hu' hv hv'
        exact ⟨n, m, e, by rw [hnew, hs], by rw [hval, hval u, hval v, hr]⟩
    · exact if_congr decide_eq_true_iff rfl rfl
    · exact ((hwm (o &&& b)).trans (congrArg w (by rw [BitVec.toNat_and, Nat.and_mod_two_pow])))
    · exact ((hwm (o ||| b)).trans (congrArg w (by rw [BitVec.toNat_or, Nat.or_mod_two_pow])))
    · exact ((hwm (o ^^^ b)).trans (congrArg w (by rw [BitVec.toNat_xor, Nat.xor_mod_two_pow])))
    · exact hwm b
    · cases dbl with
      | true => exact beq_eq_decide o c
      | false => exact (beq_eq_decide (o.extractLsb' 0 32) (c.extractLsb' 0 32)).trans (decide_eq_decide.mpr (lowHalf_inj o c))

end Sys2Proof.Settled
end

section
/-! PROOF. LDSP and STSP in the own scratchpad and through a window (R126, R128 to R130, R135, R136), TLD and TST (R137). -/
namespace Sys2Proof.Machine

/-! ### Scratchpad bytes -/

theorem State.spadRead_length (s : State) (u off n : Nat) : (s.spadRead u off n).length = n := by simp [State.spadRead]

theorem leVal_lt : ∀ bs : List Byte, leVal bs < 256 ^ bs.length
  | [] => Nat.one_pos
  | b :: t => by
    have hb := b.isLt
    have ht := leVal_lt t
    rw [leVal, List.length_cons, Nat.pow_succ]
    omega

theorem State.leVal_spadRead_lt (s : State) (u off : Nat) {n : Nat} {size : BitVec 3} (hn : n = [1, 1, 2, 2, 4, 8].getD size.toNat 4) :
    leVal (s.spadRead u off n) < 256 ^ sizeBytes size.toNat := by
  have h := leVal_lt (s.spadRead u off n)
  rw [State.spadRead_length] at h
  rwa [sizeBytes_eq, ← hn]

theorem State.spadWrite_ms (u : Nat) (bs : List Byte) : ∀ (s : State) (off : Nat), (s.spadWrite u off bs).ms = s.ms := by
  induction bs with
  | nil => exact fun _ _ => rfl
  | cons b t ih => exact fun s off => ih _ _

theorem State.spadWrite_units (u : Nat) (bs : List Byte) : ∀ (s : State) (off : Nat), (s.spadWrite u off bs).units = s.units := by
  induction bs with
  | nil => exact fun _ _ => rfl
  | cons b t ih => exact fun s off => ih _ _

@[simp] theorem State.spadStore_ms (s : State) (u off : Nat) (bs : List Byte) : (s.spadStore u off bs).ms = s.ms :=
  s.spadWrite_ms u bs off

@[simp] theorem State.spadStore_units (s : State) (u off : Nat) (bs : List Byte) : (s.spadStore u off bs).units = s.units :=
  s.spadWrite_units u bs off

/-- A byte after a value is stored: the value's where it lies in the range, else what it was. -/
theorem State.homeByte_spadStore (s : State) (u off n x pa : Nat) : (s.spadStore u off (leBytes n x)).homeByte pa =
    if spadBase u + off ≤ pa ∧ pa < spadBase u + off + n then BitVec.ofNat 8 (x / 256 ^ (pa - (spadBase u + off)))
    else s.homeByte pa := by
  rw [show (s.spadStore u off (leBytes n x)).homeByte pa = (s.spadWrite u off (leBytes n x)).homeByte pa from rfl]
  split
  · rename_i h
    obtain ⟨i, rfl⟩ := Nat.exists_eq_add_of_le h.1
    rw [State.homeByte_spadWrite u _ s off i (by rw [leBytes_length]; omega), Nat.add_sub_cancel_left]
    simp only [leBytes_eq, List.getElem_map, List.getElem_range]
  · rename_i h
    exact State.homeByte_spadWrite_ne u _ s off pa fun i hi => by rw [leBytes_length] at hi; omega

/-! ### Lanes in the own scratchpad (R126) -/

theorem spLoc_own {u a n : Nat} (h : a + n ≤ spadSize u) : spLoc u a n = .own a := if_pos h

theorem spadSize_le (u : Nat) : spadSize u ≤ 2 ^ 24 := by
  unfold spadSize
  split <;> norm_num

theorem spLoc_win {u w o n : Nat} (hw : w < 16) (ho : o + n ≤ 2 ^ 19) (hn : 0 < n) : spLoc u (2 ^ 24 + w * 2 ^ 19 + o) n = .win w o := by
  have hs := spadSize_le u
  have hq : (2 ^ 24 + w * 2 ^ 19 + o - 0x1000000) / 0x80000 = w := by omega
  have hr : (2 ^ 24 + w * 2 ^ 19 + o - 0x1000000) % 0x80000 = o := by omega
  rw [spLoc, if_neg (by omega), hq, hr, if_pos ⟨by omega, by omega, by omega⟩]

theorem spLoc_none {u a n : Nat} (hs : spadSize u < a + n) (h : a < 2 ^ 24 ∨ 3 * 2 ^ 23 < a + n) : spLoc u a n = .none := by
  rw [spLoc, if_neg (by omega), if_neg (by omega)]

/-- A lane whose bytes all lie in the scratchpad. -/
def SpLane.Own (u : Nat) (x : SpLane) : Prop := x.a + x.n ≤ spadSize u

theorem SpLane.Own.own? {u : Nat} {x : SpLane} (h : x.Own u) : x.own? u = some x.a := by rw [SpLane.own?, spLoc_own h]

theorem State.spBad_own {s : State} {ag : Agent} {x : SpLane} (h : x.Own ag.unit) : s.spBad ag x = (x.a % x.n != 0) := by
  rw [State.spBad, State.spOk, spLoc_own h]
  exact Bool.or_false _

/-- Lanes in the scratchpad, aligned, in no engine-side plot and, to be written, over no barrier object, do not trap (R130). -/
theorem State.spTrap_none {s : State} {ag : Agent} {writes : Bool} {ls : List SpLane} (h : ∀ x ∈ ls, s.spBad ag x = false)
    (hp : ∀ x ∈ ls, ∀ o, x.own? ag.unit = some o → s.enginePlot ag.unit o x.n = none)
    (ht : writes = true → ∀ x ∈ ls, ∀ o, x.own? ag.unit = some o → (s.unit ag.unit).overTag o x.n = false) :
    s.spTrap ag writes ls = none := by
  have hbad : ls.find? (s.spBad ag) = none := List.find?_eq_none.mpr fun x hx => by rw [h x hx]; exact Bool.false_ne_true
  have hplot : ls.findSome? (fun x => (x.own? ag.unit).bind (fun o => s.enginePlot ag.unit o x.n)) = none :=
    List.findSome?_eq_none_iff.mpr fun x hx => by
      cases ho : x.own? ag.unit with
      | none => rfl
      | some o => exact hp x hx o ho
  unfold State.spTrap
  dsimp only
  rw [hbad, hplot]
  dsimp only
  rw [List.find?_eq_none.mpr]
  intro x hx
  cases writes with
  | false => exact Bool.false_ne_true
  | true =>
    cases ho : x.own? ag.unit with
    | none => exact Bool.false_ne_true
    | some o =>
      rw [Bool.true_and]
      exact (ht rfl x hx o ho).symm ▸ Bool.false_ne_true

/-- The lowest malformed lane is the address trap's (R130). -/
theorem State.spTrap_bad {s : State} {ag : Agent} {writes : Bool} {ls : List SpLane} {x : SpLane}
    (h : ls.find? (s.spBad ag) = some x) : s.spTrap ag writes ls = some (0x05, BitVec.ofNat 64 x.a) := by
  unfold State.spTrap
  rw [h]

theorem winGroups_own {u : Nat} {ls : List SpLane} (h : ∀ x ∈ ls, x.Own u) : winGroups u ls = [] := by
  unfold winGroups
  generalize ([] : List (Nat × Nat × List (Nat × Byte))) = gs
  induction ls with
  | nil => rfl
  | cons x t ih =>
    rw [List.foldl_cons, spLoc_own (h x List.mem_cons_self)]
    exact ih fun y hy => h y (List.mem_cons_of_mem _ hy)

theorem winLoads_own {now : DWord} {u tag : Nat} {ls : List SpLane} (h : ∀ x ∈ ls, x.Own u) : winLoads now u tag ls = [] :=
  List.filterMap_eq_nil_iff.mpr fun x hx => by rw [spLoc_own (h x hx)]

/-! ### What LDSP delivers (R135) -/

/-- The extension of a value that a size code below a doubleword's names (R128): sign for the codes 0 and 2, else zero. -/
def extendedWord (sz v : Nat) : Word :=
  match sz with
  | 0 => BitVec.ofInt 32 (BitVec.ofNat 8 v).toInt
  | 2 => BitVec.ofInt 32 (BitVec.ofNat 16 v).toInt
  | _ => BitVec.ofNat 32 v

theorem loadWord_ofNat {sz v : Nat} (h : sz ≤ 4) (hv : v < 256 ^ sizeBytes sz) :
    loadWord sz (BitVec.ofNat 64 v) = extendedWord sz v := by
  have hx : ∀ n, n ≤ 64 → (BitVec.ofNat 64 v).extractLsb' 0 n = BitVec.ofNat n v := fun n hn => by
    apply BitVec.eq_of_toNat_eq
    rw [BitVec.extractLsb'_toNat, Nat.shiftRight_zero, BitVec.toNat_ofNat, BitVec.toNat_ofNat,
      Nat.mod_mod_of_dvd _ (Nat.pow_dvd_pow 2 hn)]
  have hz : ∀ n, v < 2 ^ n → (BitVec.ofNat n v).zeroExtend 32 = BitVec.ofNat 32 v := fun n hn => by
    apply BitVec.eq_of_toNat_eq
    rw [BitVec.toNat_setWidth, BitVec.toNat_ofNat, BitVec.toNat_ofNat, Nat.mod_eq_of_lt hn]
  match sz, h with
  | 0, _ => exact congrArg (BitVec.signExtend 32) (hx 8 (by norm_num))
  | 1, _ => exact (congrArg (BitVec.zeroExtend 32) (hx 8 (by norm_num))).trans (hz 8 hv)
  | 2, _ => exact congrArg (BitVec.signExtend 32) (hx 16 (by norm_num))
  | 3, _ => exact (congrArg (BitVec.zeroExtend 32) (hx 16 (by norm_num))).trans (hz 16 hv)
  | 4, _ => exact hx 32 (by norm_num)

theorem Agent.vSetLane_eq (ag : Agent) (r l : Nat) (w : Word) : ag.vSetLane r l w = { ag with v := (ag.vSetLane r l w).v } := by
  unfold Agent.vSetLane
  split <;> rfl

theorem Agent.vGet_vSetLane (ag : Agent) {r l : Nat} (w : Word) (q k : Nat) (hr : r < 63) (hl : l < 96) :
    (ag.vSetLane r l w).vGet q k = if k = l ∧ q = r then w else ag.vGet q k := by
  rw [Agent.vSetLane, if_neg (by omega), Agent.vGet, Agent.vGet]
  dsimp only
  by_cases hq : q = r
  · subst hq
    rw [Tab.get_set_self]
    by_cases hk : k = l
    · subst hk
      rw [Tab.get_set_self, if_pos ⟨rfl, rfl⟩]
    · rw [Tab.get_set_ne _ _ _ hk, if_neg (fun h => hk h.1)]
  · rw [Tab.get_set_ne _ _ _ hq, if_neg (fun h => hq h.2)]

/-- Delivery to a lane changes vector registers only. -/
theorem Agent.deliver_vDest_eq (ag : Agent) (sz d l : Nat) (x : DWord) :
    ag.deliver (vDest sz d l) sz x = { ag with v := (ag.deliver (vDest sz d l) sz x).v } := by
  unfold vDest
  split
  · rfl
  · split
    · rw [Agent.deliver]
      split
      · rfl
      · rw [Agent.vSetLane_eq, Agent.vSetLane_eq ag]
    · exact ag.vSetLane_eq d l _

/-- What register `r` of a lane holds after a value is delivered to v[D] or to its pair there: `old` where it is another. -/
def deliveredWord (sz d r : Nat) (x : DWord) (old : Word) : Word :=
  if sz ≠ 5 ∧ d < 63 ∧ r = d then loadWord sz x
  else if sz = 5 ∧ d < 62 ∧ (r = d ∨ r = d + 1) then x.extractLsb' (if r = d then 0 else 32) 32
  else old

theorem deliveredWord_again (sz d r : Nat) (x y : DWord) (old : Word) :
    deliveredWord sz d r x (deliveredWord sz d r y old) = deliveredWord sz d r x old := by
  unfold deliveredWord
  split
  · rfl
  · split <;> rfl

theorem deliveredWord_discards {sz d : Nat} (h : 63 ≤ d ∨ (sz = 5 ∧ 62 ≤ d)) (r : Nat) (x : DWord) (old : Word) :
    deliveredWord sz d r x old = old := by
  rw [deliveredWord, if_neg (by omega), if_neg (by omega)]

theorem Agent.vGet_deliver (ag : Agent) (sz d : Nat) {l : Nat} (x : DWord) (r k : Nat) (hl : l < 96) :
    (ag.deliver (vDest sz d l) sz x).vGet r k = if k = l then deliveredWord sz d r x (ag.vGet r k) else ag.vGet r k := by
  by_cases h63 : 63 ≤ d
  · rw [vDest, if_pos h63, deliveredWord_discards (.inl h63), ite_self]
    rfl
  · rw [vDest, if_neg h63]
    by_cases h5 : sz = 5
    · rw [if_pos h5]
      by_cases h62 : 62 ≤ d
      · rw [Agent.deliver, if_pos h62, deliveredWord_discards (.inr ⟨h5, h62⟩), ite_self]
      · rw [Agent.deliver, if_neg h62, Agent.vGet_vSetLane _ _ _ _ (by omega) hl, Agent.vGet_vSetLane _ _ _ _ (by omega) hl]
        have hd : d < 62 := not_le.mp h62
        by_cases hr : r = d
        · simp [deliveredWord, hr, h5, hd]
        · by_cases hr1 : r = d + 1
          · simp [deliveredWord, hr1, h5, hd]
          · simp [deliveredWord, hr, hr1]
    · rw [if_neg h5, Agent.deliver, Agent.vGet_vSetLane _ _ _ _ (by omega) hl]
      by_cases hr : r = d
      · simp [deliveredWord, hr, h5, not_le.mp h63]
      · simp [deliveredWord, hr, h5]

/-- The registers after delivery to several lanes, each its own value. -/
theorem Agent.vGet_delivers (sz d : Nat) (val : Nat → DWord) (r k : Nat) (ls : List Nat) : ∀ ag : Agent, (∀ l ∈ ls, l < 96) →
    (ls.foldl (fun t l => t.deliver (vDest sz d l) sz (val l)) ag).vGet r k =
      if k ∈ ls then deliveredWord sz d r (val k) (ag.vGet r k) else ag.vGet r k := by
  induction ls with
  | nil => exact fun ag _ => rfl
  | cons l t ih =>
    intro ag hl
    rw [List.foldl_cons, ih _ fun x hx => hl x (List.mem_cons_of_mem _ hx), ag.vGet_deliver sz d (val l) r k (hl l List.mem_cons_self)]
    by_cases hk : k = l
    · subst hk
      simp only [deliveredWord_again, if_true, List.mem_cons_self, ite_self]
    · simp only [hk, if_false, List.mem_cons, false_or]

theorem Agent.delivers_eq (sz d : Nat) (val : Nat → DWord) (ls : List Nat) : ∀ ag : Agent,
    ls.foldl (fun t l => t.deliver (vDest sz d l) sz (val l)) ag =
      { ag with v := (ls.foldl (fun t l => t.deliver (vDest sz d l) sz (val l)) ag).v } := by
  induction ls with
  | nil => exact fun ag => rfl
  | cons l t ih =>
    intro ag
    rw [List.foldl_cons, ih, ag.deliver_vDest_eq]

/-- What a value of the bytes of its size code leaves in a register. -/
theorem deliveredWord_ofNat {sz d r v : Nat} {old : Word} (hsz : sz ≤ 5) (hv : v < 256 ^ sizeBytes sz) :
    deliveredWord sz d r (BitVec.ofNat 64 v) old =
      if sz ≤ 4 ∧ d < 63 ∧ r = d then extendedWord sz v
      else if sz = 5 ∧ d < 62 ∧ (r = d ∨ r = d + 1) then BitVec.ofNat 32 (v / 2 ^ (if r = d then 0 else 32))
      else old := by
  rcases Nat.lt_or_eq_of_le hsz with h | rfl
  · have h4 : sz ≤ 4 := by omega
    have h5 : sz ≠ 5 := by omega
    simp only [deliveredWord, h4, h5, ne_eq, not_false_eq_true, true_and, false_and, if_false, loadWord_ofNat h4 hv]
  · have hx : ∀ k, (BitVec.ofNat 64 v).extractLsb' k 32 = BitVec.ofNat 32 (v / 2 ^ k) := fun k => by
      apply BitVec.eq_of_toNat_eq
      rw [BitVec.extractLsb'_toNat, BitVec.toNat_ofNat, BitVec.toNat_ofNat, Nat.mod_eq_of_lt (show v < 2 ^ 64 from hv),
        Nat.shiftRight_eq_div_pow]
    rw [deliveredWord, if_neg (fun h => h.1 rfl), hx, if_neg (c := 5 ≤ 4 ∧ _) (fun h => absurd h.1 (by norm_num))]

/-! ### What STSP stores (R129, R135) -/

section
variable {ag : Agent} {ls : List SpLane} (h : ∀ x ∈ ls, x.Own ag.unit)
include h

theorem State.ownStores_eq : ∀ s : State, s.ownStores ag ls =
    ls.foldl (fun t x => t.spadStore ag.unit x.a (leBytes x.n x.data.toNat)) s := by
  unfold State.ownStores
  induction ls with
  | nil => exact fun s => rfl
  | cons x t ih =>
    intro s
    rw [List.foldl_cons, List.foldl_cons, (h x List.mem_cons_self).own?]
    exact ih (fun y hy => h y (List.mem_cons_of_mem _ hy)) _

theorem State.ownStores_frame (s : State) : (s.ownStores ag ls).ms = s.ms ∧ (s.ownStores ag ls).units = s.units := by
  rw [State.ownStores_eq h]
  clear h
  induction ls generalizing s with
  | nil => exact ⟨rfl, rfl⟩
  | cons x t ih =>
    obtain ⟨hm, hu⟩ := ih (s.spadStore ag.unit x.a (leBytes x.n x.data.toNat))
    exact ⟨hm.trans (s.spadStore_ms _ _ _), hu.trans (s.spadStore_units _ _ _)⟩

/-- A byte that no lane covers reads as before. -/
theorem State.ownStores_outside (pa : Nat) (s : State)
    (hpa : ∀ x ∈ ls, ¬(spadBase ag.unit + x.a ≤ pa ∧ pa < spadBase ag.unit + x.a + x.n)) :
    (s.ownStores ag ls).homeByte pa = s.homeByte pa := by
  rw [State.ownStores_eq h]
  clear h
  induction ls generalizing s with
  | nil => rfl
  | cons x t ih =>
    rw [List.foldl_cons, ih _ fun y hy => hpa y (List.mem_cons_of_mem _ hy), State.homeByte_spadStore,
      if_neg (hpa x List.mem_cons_self)]

end

/-- Of the lanes that cover a byte the last in order gives it (R129). -/
theorem State.ownStores_last {ag : Agent} {pre post : List SpLane} {x : SpLane} (h : ∀ y ∈ pre ++ x :: post, y.Own ag.unit) (s : State)
    {i : Nat} (hi : i < x.n) (hp : ∀ y ∈ post, ¬(y.a ≤ x.a + i ∧ x.a + i < y.a + y.n)) :
    (s.ownStores ag (pre ++ x :: post)).homeByte (spadBase ag.unit + x.a + i) = BitVec.ofNat 8 (x.data.toNat / 256 ^ i) := by
  have hpost : ∀ y ∈ post, y.Own ag.unit := fun y hy => h y (List.mem_append_right _ (List.mem_cons_of_mem _ hy))
  rw [State.ownStores_eq h, List.foldl_append, List.foldl_cons, ← State.ownStores_eq hpost,
    State.ownStores_outside hpost _ _ fun y hy => by have := hp y hy; omega, State.homeByte_spadStore,
    if_pos (by omega), Nat.add_sub_cancel_left]

/-! ### The lanes of LDSP and STSP (R126, R128, R135) -/

/-- One lane of a wave's LDSP or STSP, at address `ea l`. -/
def Agent.spLane (ag : Agent) (size : BitVec 3) (d : BitVec 6) (ea : Nat → Nat) (n l : Nat) : SpLane :=
  { l := l, a := ea l, n := n, dst := vDest size.toNat d.toNat l, sx := size.toNat, data := ag.vData size.toNat d.toNat l }

/-- The one access of a sequencer's. -/
def Agent.spAccess (ag : Agent) (size : BitVec 3) (d : BitVec 6) (ea n : Nat) : SpLane :=
  { l := 0, a := ea, n := n, dst := sDest size.toNat d.toNat, sx := size.toNat, data := ag.sData size.toNat d.toNat }

section
variable {ag : Agent} {size : BitVec 3} {scale g : BitVec 2} {d : BitVec 6} {a b : Src} {n : Nat}
  (hn : n = [1, 1, 2, 2, 4, 8].getD size.toNat 4)
include hn

theorem spLanes_wave {ea : Nat → Nat} (hp : ag.profile = .wave)
    (he : ∀ l, ea l = (ag.src a + BitVec.ofInt 32 ((ag.vsrc b l).toInt * 2 ^ scale.toNat)).toNat) :
    spLanes ag size scale g d a b = (lanesOf (ag.active g)).map (ag.spLane size d ea n) := by
  subst hn
  unfold spLanes
  rw [hp]
  exact List.map_congr_left fun l _ => by rw [shiftLeft_ofInt, Agent.spLane, he, sizeBytes_eq]

theorem spLanes_seq {ea : Nat} (hp : ag.profile = .sequencer)
    (he : ea = (ag.src a + BitVec.ofInt 32 ((ag.src b).toInt * 2 ^ scale.toNat)).toNat) :
    spLanes ag size scale g d a b = [ag.spAccess size d ea n] := by
  subst hn he
  unfold spLanes
  rw [hp, shiftLeft_ofInt]
  rfl

theorem spBytes_pos : 0 < n := by
  have h : ∀ k, k < 8 → 0 < [1, 1, 2, 2, 4, 8].getD k 4 := by decide
  exact hn ▸ h _ size.isLt

end

/-! ### What LDSP and STSP do once they issue -/

section
variable {s : State} {id : Nat} {ag : Agent} {size : BitVec 3} {scale g : BitVec 2} {d : BitVec 6} {a b : Src} {ls : List SpLane}
  (hm : s.mover = some (id, ag)) (hp : notHost ag.profile = true) (hg : ag.profile ≠ .wave → g = 0)
  (hls : spLanes ag size scale g d a b = ls)
include hm hp hg hls

theorem ldsp_trap {c : Nat} {v : DWord} (hw : ag.wait ≠ .winLoad) (ht : s.spTrap ag false ls = some (c, v)) :
    exec (.ldsp size scale g d a b) s = .next (trapHere s id ag c v) := by
  refine (issue_of _ hm hg hp).trans ?_
  rw [if_neg hw, hls]
  dsimp only
  rw [ht]

theorem ldsp_own (hw : ag.wait ≠ .winLoad) (ho : ∀ x ∈ ls, x.Own ag.unit) (ht : s.spTrap ag false ls = none)
    (hb : ag.barred = false) : exec (.ldsp size scale g d a b) s = .next (retire s id (s.ownLoads ag ls)) := by
  refine (issue_of _ hm hg hp).trans ?_
  rw [if_neg hw, hls]
  dsimp only
  rw [ht]
  dsimp only
  rw [winGroups_own ho, winLoads_own ho, hb]
  rfl

theorem stsp_trap {c : Nat} {v : DWord} (hw : ∀ k, ag.wait ≠ .winStore k) (ht : s.spTrap ag true ls = some (c, v)) :
    exec (.stsp size scale g d a b) s = .next (trapHere s id ag c v) := by
  refine (issue_of _ hm hg hp).trans ?_
  dsimp only
  split
  · exact absurd ‹_› (hw _)
  · rw [hls, ht]

theorem stsp_issues (hw : ∀ k, ag.wait ≠ .winStore k) (ht : s.spTrap ag true ls = none)
    (hb : ag.barred = false) : exec (.stsp size scale g d a b) s =
      .next ((s.ownStores ag ls).sendGroups id ag (winGroups ag.unit ls) 0) := by
  refine (issue_of _ hm hg hp).trans ?_
  dsimp only
  split
  · exact absurd ‹_› (hw _)
  · rw [hls, ht, hb]
    rfl

theorem stsp_own (hw : ∀ k, ag.wait ≠ .winStore k) (ho : ∀ x ∈ ls, x.Own ag.unit) (ht : s.spTrap ag true ls = none)
    (hb : ag.barred = false) : exec (.stsp size scale g d a b) s = .next (retire (s.ownStores ag ls) id ag) := by
  rw [stsp_issues hm hp hg hls hw ht hb, winGroups_own ho]
  rfl

end

/-- What a sequencer's LDSP writes: s[D], or its pair (R128, R135). -/
theorem State.ownLoads_access {s : State} {ag : Agent} {size : BitVec 3} {d : BitVec 6} {ea n : Nat} (ho : ea + n ≤ spadSize ag.unit)
    (hsz : size.toNat ≤ 5) (hn : n = [1, 1, 2, 2, 4, 8].getD size.toNat 4) :
    s.ownLoads ag [ag.spAccess size d ea n] =
      if d = 63 then ag
      else if size = 5 then ag.pSet d.toNat (s.spWord ag.unit ea n)
      else ag.sSet d.toNat (extendedWord size.toNat (leVal (s.spadRead ag.unit ea n))) := by
  have hv := s.leVal_spadRead_lt ag.unit ea hn
  have hr : ¬128 ≤ d.toNat := by have := d.isLt; omega
  rw [State.ownLoads, List.foldl_cons, List.foldl_nil, SpLane.Own.own? (x := ag.spAccess size d ea n) ho, Agent.spAccess, sDest_eq]
  dsimp only
  by_cases h63 : d = 63
  · rw [if_pos h63, if_pos h63]
    rfl
  · rw [if_neg h63, if_neg h63]
    by_cases h5 : size = 5
    · rw [if_pos h5, if_pos h5, Agent.deliver, if_neg hr]
    · have h4 : size.toNat ≤ 4 := by have := (size_five (size := size)).not.mpr h5; omega
      rw [if_neg h5, if_neg h5, Agent.deliver, if_neg hr, State.spWord, loadWord_ofNat h4 hv]

/-! ### The lanes of a wave -/

theorem mem_lanesOf {m : Mask} {l : Nat} : l ∈ lanesOf m ↔ l < 96 ∧ m.getLsbD l = true := by simp [lanesOf]

/-- The active lanes rise: those after a lane in order are higher. -/
theorem lanesOf_split {m : Mask} {l : Nat} (h : l ∈ lanesOf m) : ∃ pre post, lanesOf m = pre ++ l :: post ∧ ∀ k ∈ post, l < k := by
  obtain ⟨pre, post, he⟩ := List.append_of_mem h
  have hs : (lanesOf m).Pairwise (· < ·) := List.pairwise_lt_range.filter _
  rw [he] at hs
  exact ⟨pre, post, he, (List.pairwise_cons.mp (List.pairwise_append.mp hs).2.1).1⟩

/-- The lowest lane that meets a condition. -/
theorem find?_lanesOf {m : Mask} {l : Nat} {p : SpLane → Bool} {f : Nat → SpLane} (h : l ∈ lanesOf m) (hp : p (f l) = true)
    (hlow : ∀ k ∈ lanesOf m, k < l → p (f k) = false) : ((lanesOf m).map f).find? p = some (f l) := by
  rw [List.find?_map, lanesOf, List.find?_filter]
  obtain ⟨h96, hl⟩ := mem_lanesOf.mp h
  rw [(List.find?_range_eq_some (i := l)).mpr ⟨by simpa [hl] using hp, by simpa using h96, fun k hk => ?_⟩]
  · rfl
  · cases hm : m.getLsbD k with
    | false => simp
    | true => simp [hlow k (mem_lanesOf.mpr ⟨by omega, hm⟩) hk]

section
variable {s : State} {ag : Agent} {size : BitVec 3} {d : BitVec 6} {m : Mask} {ea : Nat → Nat} {n : Nat}
  (ho : ∀ x ∈ (lanesOf m).map (ag.spLane size d ea n), x.Own ag.unit)
include ho

/-- The lanes of a wave's LDSP, delivered one after another. -/
theorem State.ownLoads_wave : s.ownLoads ag ((lanesOf m).map (ag.spLane size d ea n)) = (lanesOf m).foldl
    (fun t l => t.deliver (vDest size.toNat d.toNat l) size.toNat (s.spWord ag.unit (ea l) n)) ag := by
  rw [State.ownLoads, List.foldl_map]
  refine List.foldl_ext _ _ _ fun t l hl => ?_
  rw [(ho _ (List.mem_map_of_mem hl)).own?]
  rfl

theorem State.vGet_ownLoads (r : Nat) {l : Nat} :
    (s.ownLoads ag ((lanesOf m).map (ag.spLane size d ea n))).vGet r l =
      if l ∈ lanesOf m then deliveredWord size.toNat d.toNat r (s.spWord ag.unit (ea l) n) (ag.vGet r l) else ag.vGet r l := by
  rw [State.ownLoads_wave ho, Agent.vGet_delivers size.toNat d.toNat (fun l => s.spWord ag.unit (ea l) n) r l _ ag
    fun k hk => (mem_lanesOf.mp hk).1]

/-- The highest lane that covers a byte gives it (R129). -/
theorem State.ownStores_wave {l i : Nat} (hl : l ∈ lanesOf m) (hi : i < n)
    (hlast : ∀ k ∈ lanesOf m, l < k → ¬(ea k ≤ ea l + i ∧ ea l + i < ea k + n)) :
    (s.ownStores ag ((lanesOf m).map (ag.spLane size d ea n))).homeByte (spadBase ag.unit + ea l + i) =
      BitVec.ofNat 8 ((ag.vData size.toNat d.toNat l).toNat / 256 ^ i) := by
  obtain ⟨pre, post, he, hpost⟩ := lanesOf_split hl
  rw [he] at hlast ho
  rw [he]
  rw [List.map_append, List.map_cons] at ho ⊢
  exact State.ownStores_last ho s hi (List.forall_mem_map.mpr fun k hk =>
    hlast k (List.mem_append_right _ (List.mem_cons_of_mem _ hk)) (hpost k hk))

end

/-! ### Through a window (R136) -/

/-- The bytes of one access are one group. -/
theorem winGroups_win {u w o : Nat} {x : SpLane} (h : spLoc u x.a x.n = .win w o) :
    winGroups u [x] = [(w, o / 64, (List.range x.n).map (fun i => (o + i, BitVec.ofNat 8 (x.data.toNat / 256 ^ i))))] := by
  rw [winGroups, List.foldl_cons, h]
  dsimp only [addGroup, List.foldl_nil]
  rw [leBytes_places]

theorem foldl_max_range (o n : Nat) : (List.range n).foldl (fun m i => max m (o + i)) o = o + (n - 1) := by
  induction n with
  | zero => rfl
  | succ n ih =>
    rw [List.range_succ, List.foldl_append, ih]
    simp only [List.foldl_cons, List.foldl_nil]
    omega

theorem foldl_min_range (o n : Nat) : (List.range n).foldl (fun m i => min m (o + i)) o = o := by
  induction n with
  | zero => rfl
  | succ n ih =>
    rw [List.range_succ, List.foldl_append, ih]
    exact min_eq_left (Nat.le_add_right _ _)

theorem groupSpan_run (o n : Nat) (f : Nat → Byte) (hn : 0 < n) : groupSpan ((List.range n).map (fun i => (o + i, f i))) = (o, n) := by
  have h0 : (nth (0, 0) ((List.range n).map (fun i => (o + i, f i))) 0).1 = o := by simp [nth, hn]
  simp only [groupSpan, h0, List.foldl_map, foldl_min_range, foldl_max_range, Prod.mk.injEq, true_and]
  omega

/-- One group of consecutive bytes, posted, ends the instruction. -/
theorem State.sendGroups_run {s t : State} {id : Nat} {ag : Agent} {w ln o n : Nat} {f : Nat → Byte}
    (hon : ((s.unit ag.unit).win w).on = true) (hn : 0 < n)
    (hp : s.post id ag w o n ((List.range n).map (fun i => (o + i, f i))) none none = some t) :
    s.sendGroups id ag [(w, ln, (List.range n).map (fun i => (o + i, f i)))] 0 = retire t id ag := by
  rw [State.sendGroups, if_pos hon, groupSpan_run o n f hn]
  dsimp only
  rw [hp]
  rfl

section
variable {s : State} {ag : Agent} {w o : Nat} {x : SpLane} (h : spLoc ag.unit x.a x.n = .win w o)
include h

theorem State.ownLoads_win : s.ownLoads ag [x] = ag := by
  rw [State.ownLoads, List.foldl_cons, SpLane.own?, h]
  rfl

theorem State.ownStores_win : s.ownStores ag [x] = s := by
  rw [State.ownStores, List.foldl_cons, SpLane.own?, h]
  rfl

theorem winLoads_win (now : DWord) (tag : Nat) : winLoads now ag.unit tag [x] =
    [{ kind := .load, loc := .win w o, size := x.n, dst := x.dst, sx := x.sx, va := BitVec.ofNat 64 x.a, tag := tag, born := now }] := by
  rw [winLoads, List.filterMap_cons, h]
  rfl

/-- An aligned access through a configured window does not trap (R130). -/
theorem State.spTrap_win {writes : Bool} (hon : ((s.unit ag.unit).win w).on = true) (hal : x.a % x.n = 0) :
    s.spTrap ag writes [x] = none := by
  have hno : ∀ y ∈ [x], ∀ p, y.own? ag.unit ≠ some p := List.forall_mem_singleton.mpr fun p hp => by
    rw [SpLane.own?, h] at hp
    exact nomatch hp
  refine State.spTrap_none (List.forall_mem_singleton.mpr ?_) (fun y hy p hp => absurd hp (hno y hy p))
    fun _ y hy p hp => absurd hp (hno y hy p)
  rw [State.spBad, State.spOk, h, hal]
  exact congrArg (fun b => !b) hon

/-- A load through a window to bytes with no write outstanding is opened, and the agent waits for it (R136). -/
theorem ldsp_win {id : Nat} {size : BitVec 3} {scale g : BitVec 2} {d : BitVec 6} {a b : Src}
    (hm : s.mover = some (id, ag)) (hp : notHost ag.profile = true) (hg : ag.profile ≠ .wave → g = 0)
    (hls : spLanes ag size scale g d a b = [x]) (hw : ag.wait ≠ .winLoad) (ht : s.spTrap ag false [x] = none)
    (hb : ag.barred = false) (hbusy : s.winBusy id ag.unit w ((List.range x.n).map (fun i => o + i)) = false) :
    exec (.ldsp size scale g d a b) s = .next (waitFor s id { ag with
      nextTag := ag.nextTag + 1
      opens := ag.opens ++ [{ kind := .load, loc := .win w o, size := x.n, dst := x.dst, sx := x.sx, va := BitVec.ofNat 64 x.a,
                              tag := ag.nextTag + 1, born := s.ntime }] } .winLoad) := by
  have hgroup : (winGroups ag.unit [x]).any (fun p => s.winBusy id ag.unit p.1 (p.2.2.map (fun q => q.1))) = false := by
    rw [winGroups_win h, List.any_cons, List.any_nil, Bool.or_false, List.map_map]
    exact hbusy
  refine (issue_of _ hm hg hp).trans ?_
  rw [if_neg hw, hls]
  dsimp only
  rw [ht]
  dsimp only
  rw [hgroup, hb, winLoads_win h, State.ownLoads_win h]
  rfl

end

/-! ### Tensor accesses -/

theorem State.WalksAs.replaying {s t : State} (h : t.WalksAs s) (hf : t.ms.faults = s.ms.faults) (part : Nat) (k : VKey) :
    t.replaying part k = s.replaying part k := by
  simp only [State.replaying, hf, h.sameFault]

/-- Accesses to pages of this package send nothing away. -/
theorem State.sendFar_mem {s : State} {ts : List (Lane × Target)} (h : ∀ p ∈ ts, ∃ pa x, p.2 = .mem pa x) : s.sendFar ts = s := by
  unfold State.sendFar
  induction ts with
  | nil => rfl
  | cons p t ih =>
    obtain ⟨pa, x, hp⟩ := h p List.mem_cons_self
    rw [List.foldl_cons, hp]
    exact ih fun q hq => h q (List.mem_cons_of_mem _ hq)

end Sys2Proof.Machine

namespace Sys2Proof.Settled
open Sys2Proof Sys2Proof.Machine

/-- Settles O37: a wave's lanes and a sequencer's access in the own scratchpad, a sequencer's through a window, and the lanes of a
tensor instruction. -/
theorem scratchpadAccesses : Obligations.ScratchpadAccesses := by
  refine ⟨?_, ?_, ?_⟩
  · intro s id ag size scale g d a b ea n hm hp hsz hn hea
    have hnh : notHost ag.profile = true := by rw [hp]; rfl
    have hg : ag.profile ≠ .wave → g = 0 := fun h => absurd hp h
    have hls := spLanes_wave (g := g) (d := d) hn hp hea
    have hmem : ∀ l, l ∈ lanesOf (ag.active g) ↔ l < 96 ∧ (ag.active g).getLsbD l = true := fun l => mem_lanesOf
    refine ⟨fun hok hb => ?_, fun l hl hact hbad hlow => ?_⟩
    · have hown : ∀ x ∈ (lanesOf (ag.active g)).map (ag.spLane size d ea n), x.Own ag.unit :=
        List.forall_mem_map.mpr fun l hl => (hok l ((hmem l).mp hl).2).1
      have hgood : ∀ x ∈ (lanesOf (ag.active g)).map (ag.spLane size d ea n), s.spBad ag x = false := fun x hx => by
        rw [State.spBad_own (hown x hx)]
        obtain ⟨l, hl, rfl⟩ := List.mem_map.mp hx
        exact bne_eq_false_iff_eq.mpr (hok l ((hmem l).mp hl).2).2.1
      have hplot : ∀ x ∈ (lanesOf (ag.active g)).map (ag.spLane size d ea n), ∀ o, x.own? ag.unit = some o →
          s.enginePlot ag.unit o x.n = none := fun x hx o ho => by
        rw [(hown x hx).own?, Option.some.injEq] at ho
        obtain ⟨l, hl, rfl⟩ := List.mem_map.mp hx
        exact ho ▸ (hok l ((hmem l).mp hl).2).2.2
      refine ⟨fun hw => ?_, fun hw hd htag => ?_⟩
      · refine ⟨_, ldsp_own hm hnh hg hls hw hown (State.spTrap_none hgood hplot nofun) hb, ?_, fun r l hl => ?_⟩
        · rw [State.ownLoads_wave hown]
          exact Agent.delivers_eq _ _ (fun l => s.spWord ag.unit (ea l) n) _ ag
        · have hv := s.leVal_spadRead_lt ag.unit (ea l) hn
          rw [State.vGet_ownLoads hown, State.spWord, deliveredWord_ofNat hsz hv]
          simp only [hmem, hl, true_and]
          cases hact : (ag.active g).getLsbD l with
          | false => simp only [Bool.false_eq_true, false_and, if_false]
          | true =>
            simp only [true_and, if_true]
            rfl
      · have htrap := State.spTrap_none (writes := true) hgood hplot fun _ x hx o ho => by
          rw [(hown x hx).own?, Option.some.injEq] at ho
          obtain ⟨l, hl, rfl⟩ := List.mem_map.mp hx
          exact ho ▸ htag l ((hmem l).mp hl).2
        obtain ⟨hms, hus⟩ := State.ownStores_frame hown s
        refine ⟨_, stsp_own hm hnh hg hls hw hown htrap hb, hms, hus, fun pa hpa => ?_, fun l i hl hact hi hlast => ?_⟩
        · refine State.ownStores_outside hown pa s (List.forall_mem_map.mpr fun l hl => ?_)
          obtain ⟨h96, hact⟩ := (hmem l).mp hl
          exact hpa l h96 hact
        · rw [State.ownStores_wave hown ((hmem l).mpr ⟨hl, hact⟩) hi fun k hk hlk => ?_, Agent.vData_eq]
          · split
            · rfl
            · rw [BitVec.zeroExtend, BitVec.toNat_setWidth, Nat.mod_eq_of_lt ((ag.vGet d.toNat l).isLt.trans (by norm_num))]
          · obtain ⟨h96, hk⟩ := (hmem k).mp hk
            exact hlast k hlk h96 hk
    · have hfind : ((lanesOf (ag.active g)).map (ag.spLane size d ea n)).find? (s.spBad ag) = some (ag.spLane size d ea n l) := by
        refine find?_lanesOf ((hmem l).mpr ⟨hl, hact⟩) ?_ fun k hk hkl => ?_
        · obtain h | ⟨hs, ha⟩ := hbad
          · rw [State.spBad, show (ag.spLane size d ea n l).a % (ag.spLane size d ea n l).n != 0 from bne_iff_ne.mpr h]
            rfl
          · rw [State.spBad, State.spOk, show spLoc ag.unit (ag.spLane size d ea n l).a (ag.spLane size d ea n l).n = .none from spLoc_none hs ha]
            exact Bool.or_true _
        · obtain ⟨hle, hal⟩ := hlow k hkl ((hmem k).mp hk).2
          rw [State.spBad_own (x := ag.spLane size d ea n k) hle]
          exact bne_eq_false_iff_eq.mpr hal
      exact ⟨fun hw => stsp_trap hm hnh hg hls hw (State.spTrap_bad hfind), fun hw => ldsp_trap hm hnh hg hls hw (State.spTrap_bad hfind)⟩
  · intro s id ag size scale d a b ea n hm hp hsz hn hea hal hb data
    have hnh : notHost ag.profile = true := by rw [hp]; rfl
    have hls := spLanes_seq (g := 0) (d := d) hn hp hea
    have hdata : data = (ag.spAccess size d ea n).data := (ag.sData_eq size d.toNat).symm
    have hpos : 0 < n := spBytes_pos hn
    refine ⟨fun hle hplot => ?_, fun w o hwo hw ho hon => ?_, fun hw hno => ?_⟩
    · have hown : ∀ x ∈ [ag.spAccess size d ea n], x.Own ag.unit := List.forall_mem_singleton.mpr hle
      have hgood : ∀ x ∈ [ag.spAccess size d ea n], s.spBad ag x = false := List.forall_mem_singleton.mpr <| by
        rw [State.spBad_own (x := ag.spAccess size d ea n) hle]
        exact bne_eq_false_iff_eq.mpr hal
      have hat : ∀ o, (ag.spAccess size d ea n).own? ag.unit = some o → o = ea := fun o h => by
        rw [SpLane.Own.own? (x := ag.spAccess size d ea n) hle, Option.some.injEq] at h
        exact h.symm
      have hplots : ∀ x ∈ [ag.spAccess size d ea n], ∀ o, x.own? ag.unit = some o → s.enginePlot ag.unit o x.n = none :=
        List.forall_mem_singleton.mpr fun o h => hat o h ▸ hplot
      refine ⟨fun hw => ?_, fun hw hd htag => ?_⟩
      · rw [ldsp_own hm hnh (fun _ => rfl) hls hw hown (State.spTrap_none hgood hplots nofun) hb, State.ownLoads_access hle hsz hn]
        rfl
      · have htrap := State.spTrap_none (writes := true) hgood hplots fun _ => List.forall_mem_singleton.mpr fun o h => hat o h ▸ htag
        obtain ⟨hms, hus⟩ := State.ownStores_frame hown s
        refine ⟨_, stsp_own hm hnh (fun _ => rfl) hls hw hown htrap hb, hms, hus, fun pa => ?_⟩
        rw [State.ownStores_eq hown, hdata]
        exact s.homeByte_spadStore ag.unit ea n _ pa
    · subst hwo
      have hloc := spLoc_win (u := ag.unit) hw ho hpos
      have hx : spLoc ag.unit (ag.spAccess size d (2 ^ 24 + w * 2 ^ 19 + o) n).a (ag.spAccess size d (2 ^ 24 + w * 2 ^ 19 + o) n).n =
          .win w o := hloc
      refine ⟨fun hw hbusy => ?_, fun t hw hd hpost => ?_⟩
      · refine (ldsp_win hx hm hnh (fun _ => rfl) hls hw (State.spTrap_win hx hon hal) hb hbusy).trans ?_
        rw [← sDest_eq]
        rfl
      · rw [hdata] at hpost
        rw [stsp_issues hm hnh (fun _ => rfl) hls hw (State.spTrap_win hx hon hal) hb, winGroups_win hx, State.ownStores_win hx]
        exact congrArg Host.Outcome.next (State.sendGroups_run hon hpos hpost)
    · have hopen : ag.winOpen = false := List.any_eq_false.mpr fun e he => by
        split
        · exact absurd ‹_› (hno e he _ _)
        · exact Bool.false_ne_true
      refine (issue_of _ hm (fun _ => rfl) hnh).trans ?_
      rw [if_pos hw, hopen]
      rfl
  · intro s id ag ag' size g d a b ls ts hm hp s1
    have hw : waveOnly ag.profile = true := waveOnly_of hp
    have hg : ag.profile ≠ .wave → g = 0 := fun h => absurd hp h
    have hs1 : s1.WalksAs s := State.walksAs_of_eq rfl rfl rfl
    have hfar : ∀ {u : State}, (∀ p ∈ ts, ∃ pa x, p.2 = .mem pa x) → u.sendFar ts = u := State.sendFar_mem
    refine ⟨fun hn => ⟨?_, ?_⟩, fun hsome hok => ⟨fun ht hts => ?_, fun ht hts => ?_⟩⟩
    · refine (issue_of _ hm hg hw).trans ?_
      rw [hn]
      rfl
    · refine (issue_of _ hm hg hw).trans ?_
      rw [hn]
      rfl
    · refine (issue_of _ hm hg hw).trans ?_
      rw [hsome]
      change Host.Outcome.next (issueReturning s1 id ag .read ls mkLoad (fun s ag => retire s id ag)) = _
      rw [issueReturning_opens hok ht fun p h => ?_, hfar fun p h => ?_]
      · rfl
      · obtain ⟨-, pa, x, hm, -⟩ := hts p h
        exact ⟨pa, x, hm⟩
      · obtain ⟨hr, hm⟩ := hts p h
        exact ⟨(hs1.replaying rfl ag'.part p.1.key).trans hr, .inr hm⟩
    · refine (issue_of _ hm hg hw).trans ?_
      rw [hsome]
      change Host.Outcome.next (issuePosted s1 id ag .write none 0 none ls mkStore (fun s ag => retire s id ag)) = _
      rw [issuePosted_opens hok ht fun p h => .inr (hts p h), hfar hts]
      rfl

end Sys2Proof.Settled
end

section
/-! SUPPORT. What a write that arrives leaves alone (R222, R263): `State.shell` is the package without memory, its caches and the
free values drawn, and an arriving write changes beyond these only the waits of agents that watch its line (R239). -/
namespace Sys2Proof.Machine

/-- The package but for memory, the memory system and the free values drawn. -/
def State.shell (s : State) : State := { s with free := 0, mem := [], ms := {} }

section
variable {s t : State} (h : t.shell = s.shell)
include h

theorem State.shell_agents : t.agents = s.agents := (congrArg (fun s : State => s.agents) h :)
theorem State.shell_units : t.units = s.units := (congrArg (fun s : State => s.units) h :)

end

theorem State.shell_foldl {α : Type} (l : List α) (f : State → α → State) (hf : ∀ t a, (f t a).shell = t.shell) :
    ∀ s : State, (l.foldl f s).shell = s.shell := by
  induction l with
  | nil => exact fun _ => rfl
  | cons a l ih => exact fun s => (ih (f s a)).trans (hf s a)

/-! ### Bytes of the home and of the package store -/

theorem State.setHomes_shell (f : Nat → Byte) (l : List Nat) (s : State) :
    (l.foldl (fun t a => t.setHome a (f a)) s).shell = s.shell :=
  State.shell_foldl l _ (fun t a => (rfl : (t.setHome a (f a)).shell = t.shell)) s

theorem State.rekey_shell (s : State) (slot : BitVec 8) (pa : Nat) : (s.rekey slot pa).shell = s.shell := by
  unfold State.rekey
  generalize lineAddrs pa = l
  dsimp only
  split
  · rfl
  · split
    · rfl
    · split
      · rfl
      · exact State.setHomes_shell _ l s

theorem State.undrop_shell (s : State) (pa : Nat) : (s.undrop pa).shell = s.shell := by
  unfold State.undrop
  generalize lineAddrs pa = l
  split
  · exact State.setHomes_shell _ l s
  · rfl

theorem State.memWrite_shell (s : State) (slot : BitVec 8) (pa : Nat) (b : Byte) : (s.memWrite slot pa b).shell = s.shell :=
  (State.undrop_shell _ pa).trans (s.rekey_shell slot pa)

theorem State.setPk_shell (s : State) (slot : BitVec 8) (peer : Bool) (pa : Nat) (b : Byte) :
    (s.setPk slot peer pa b).shell = s.shell := by
  cases peer with
  | true => rfl
  | false =>
    change (s.homeWrite slot pa b).shell = s.shell
    unfold State.homeWrite
    split
    · rfl
    · exact s.memWrite_shell slot pa b

theorem State.pkPutN_shell (slot : BitVec 8) (peer : Bool) (bs : List Byte) :
    ∀ (s : State) (pa : Nat), (s.pkPutN slot peer pa bs).shell = s.shell := by
  induction bs with
  | nil => exact fun _ _ => rfl
  | cons b bs ih => exact fun s pa => (ih _ _).trans (State.setPk_shell _ slot peer pa b)

theorem State.backEntry_shell (s : State) (sector : Nat) (e : SpanEnt) : (s.backEntry sector e).shell = s.shell := by
  unfold State.backEntry
  split
  · refine State.shell_foldl _ _ (fun t a => ?_) s
    split
    · exact t.setPk_shell _ _ _ _
    · rfl
  · rfl

theorem State.ioLose_shell (s : State) (sector lo hi : Nat) : (s.ioLose sector lo hi).shell = s.shell := by
  unfold State.ioLose
  dsimp only
  split
  · exact State.shell_foldl _ _ (fun t e => t.backEntry_shell sector e) s
  · rfl

theorem State.pkWriteN_shell (s : State) (slot : BitVec 8) (peer : Bool) (pa : Nat) (bs : List Byte) :
    (s.pkWriteN slot peer pa bs).shell = s.shell := by
  unfold State.pkWriteN
  split
  · rfl
  · rw [State.pkPutN_shell]
    split
    · rfl
    · exact State.shell_foldl _ _ (fun t _ => t.ioLose_shell _ _ _) s

/-! ### Lines of the Orangery -/

theorem State.dropLineAt_shell (s : State) (k : Nat) : (s.dropLineAt k).shell = s.shell := rfl

theorem State.evictLine_shell (s : State) (k : Nat) : (s.evictLine k).shell = s.shell := by
  have hback : ∀ l : OLine, (s.backLine l).shell = s.shell := fun l =>
    State.shell_foldl _ _ (fun t i => by
      split
      · exact t.memWrite_shell _ _ _
      · rfl) s
  unfold State.evictLine
  split
  · exact (State.dropLineAt_shell _ k).trans (hback _)
  · rfl

theorem State.fillAt_shell (s : State) (slot : BitVec 8) (pa w : Nat) : (s.fillAt slot pa w).shell = s.shell := by
  unfold State.fillAt
  dsimp only
  split
  · exact s.evictLine_shell _
  · rfl

theorem State.fillLine_shell (s : State) (part : Nat) (slot : BitVec 8) (pa : Nat) : (s.fillLine part slot pa).shell = s.shell := by
  unfold State.fillLine
  split
  · rfl
  · extract_lets cache ways
    split
    · rfl
    · split
      rename_i n t hd
      have ht : t.shell = s.shell := by cases hd; rfl
      dsimp only
      split
      · exact ht
      · exact (t.fillAt_shell slot pa _).trans ht

theorem State.sample_shell (s : State) (part pa : Nat) : (s.sample part pa).shell = s.shell := by
  unfold State.sample
  dsimp only
  split <;> rfl

/-! ### Spans of a sector -/

theorem State.putSharers_shell (s : State) (sector : Nat) (es : List SpanEnt) : (s.putSharers sector es).shell = s.shell := rfl

theorem State.touch_shell (s : State) (pa n : Nat) : (s.touch pa n).shell = s.shell := rfl

theorem State.spanRoom_shell (s : State) (sector peer : Nat) : (s.spanRoom sector peer).shell = s.shell := by
  unfold State.spanRoom
  dsimp only
  split
  · split
    · exact s.backEntry_shell sector _
    · rfl
  · rfl

theorem State.spanFill_shell (s : State) (sector : Nat) (e : SpanEnt) (write : Bool) : (s.spanFill sector e write).shell = s.shell := by
  unfold State.spanFill
  dsimp only
  split <;> exact s.spanRoom_shell sector e.peer

theorem State.spanLose_shell (s : State) (sector lo hi : Nat) (keep : SpanEnt → Bool) : (s.spanLose sector lo hi keep).shell = s.shell :=
  (State.putSharers_shell _ _ _).trans <| State.shell_foldl _ _ (fun t e => t.backEntry_shell sector e) s

theorem State.spanRun_own_shell (s : State) {r : SpanReq} (h : r.kind = .readOwn) : (s.spanRun r).shell = s.shell := by
  unfold State.spanRun
  dsimp only
  rw [h]
  dsimp only
  split
  · rfl
  · split
    · exact (State.putSharers_shell _ _ _).trans ((State.touch_shell _ _ _).trans (s.spanLose_shell _ _ _ _))
    · exact (State.spanFill_shell _ _ _ _).trans (s.spanLose_shell _ _ _ _)

theorem State.askWords_own_shell (s : State) (peer part : Nat) (slot : BitVec 8) (pa n : Nat) :
    (s.askWords .readOwn peer part slot pa n).shell = s.shell := by
  unfold State.askWords
  split
  · rfl
  · exact State.shell_foldl _ _ (fun t _ => t.spanRun_own_shell rfl) s

/-! ### The arriving write -/

theorem State.shadowCode_shell (s : State) (u : Option Nat) (slot : BitVec 8) (pa n : Nat) : (s.shadowCode u slot pa n).shell = s.shell := by
  cases u <;> rfl

/-- What arrives before the waits of WAITW are looked at. -/
theorem State.arriveWrite_eq (s : State) (u : Option Nat) (part peer : Nat) (slot : BitVec 8) (pa : Nat) (bs : List Byte) (msk : Byte) :
    ∃ t : State, s.arriveWrite u part peer slot pa bs msk = t.wakePa pa ∧ t.shell = s.shell := by
  refine ⟨_, rfl, (State.sample_shell _ _ _).trans ((State.pkWriteN_shell _ _ _ _ _).trans ?_)⟩
  split
  · exact (State.askWords_own_shell _ _ _ _ _ _).trans (s.shadowCode_shell _ _ _ _)
  · exact (State.fillLine_shell _ _ _ _).trans (s.shadowCode_shell _ _ _ _)

theorem State.wakePa_units (s : State) (pa : Nat) : (s.wakePa pa).units = s.units := rfl

theorem State.arriveWrite_units (s : State) (u : Option Nat) (part peer : Nat) (slot : BitVec 8) (pa : Nat) (bs : List Byte) (msk : Byte) :
    (s.arriveWrite u part peer slot pa bs msk).units = s.units := by
  obtain ⟨t, ht, hs⟩ := s.arriveWrite_eq u part peer slot pa bs msk
  rw [ht]
  exact (State.wakePa_units t pa).trans (State.shell_units hs)

/-- An agent after a write to a line: made ready where it waits on it. -/
def State.woken (t : State) (pa : Nat) (x : Agent) : Agent :=
  match x.wait with
  | .waitwOut w =>
    if w.getLsbD 63 then x
    else
      match t.xlatAg x w .read with
      | .ok y => if y.flatPa w / 64 = pa / 64 then { x with wait := .waitwReady w } else x
      | _ => x
  | _ => x

theorem State.woken_eq (t : State) (pa : Nat) (x : Agent) : ∃ w, some (t.woken pa x) = some { x with wait := w } := by
  unfold State.woken
  split
  · split
    · exact ⟨_, rfl⟩
    · split
      · split <;> exact ⟨_, rfl⟩
      · exact ⟨_, rfl⟩
  · exact ⟨_, rfl⟩

/-- Waking changes the wait of an agent alone (R239). -/
theorem State.wakePa_agent? {t : State} {id : Nat} {ag : Agent} (h : t.agent? id = some ag) (pa : Nat) :
    ∃ w, (t.wakePa pa).agent? id = some { ag with wait := w } := by
  have hmap : (t.wakePa pa).agents = t.agents.map (fun e => (e.1, t.woken pa e.2)) := by
    refine List.map_congr_left fun e _ => ?_
    obtain ⟨k, x⟩ := e
    dsimp only
    unfold State.woken
    cases hw : x.wait with
    | waitwOut w =>
      dsimp only
      split
      · rfl
      · cases t.xlatAg x w .read with
        | ok y =>
          dsimp only
          split <;> rfl
        | _ => rfl
    | _ => rfl
  rw [State.agent?, hmap, Tab.find?_map_val (fun _ x => t.woken pa x), show Tab.find? t.agents id = some ag from h]
  exact t.woken_eq pa ag

/-- An arriving write leaves an agent as it is but for its wait. -/
theorem State.arriveWrite_agent? {s : State} {id : Nat} {ag : Agent} (h : s.agent? id = some ag) (u : Option Nat) (part peer : Nat)
    (slot : BitVec 8) (pa : Nat) (bs : List Byte) (msk : Byte) :
    ∃ w, (s.arriveWrite u part peer slot pa bs msk).agent? id = some { ag with wait := w } := by
  obtain ⟨t, ht, hs⟩ := s.arriveWrite_eq u part peer slot pa bs msk
  rw [ht]
  refine State.wakePa_agent? ?_ pa
  rw [State.agent?, State.shell_agents hs]
  exact h

end Sys2Proof.Machine
end

section
/-! PROOF. Pending writes on their way outward, evictions, and write errors (R51, R130, R222, R223, R227, R253). -/
namespace Sys2Proof.Machine

/-! ### Levels 1 and 2 of the caches (R223) -/

/-- The package without the agents and the bytes and stamps of levels 1 and 2. -/
def State.noInner (s : State) : State :=
  { s with agents := [], ms := { s.ms with l1 := [], l1at := [], l2 := [], l2at := [], stamp := 0 } }

theorem State.pkRead_noInner (s : State) (slot : BitVec 8) (pa : Nat) : s.noInner.pkRead slot pa = s.pkRead slot pa := rfl
theorem State.homeRead_noInner (s : State) (slot : BitVec 8) (pa : Nat) : s.noInner.homeRead slot pa = s.homeRead slot pa := rfl
theorem State.homeByte_noInner (s : State) (pa : Nat) : s.noInner.homeByte pa = s.homeByte pa := rfl

/-- What levels 1 and 2 hold is nothing to the package store and the home. -/
theorem State.sameBytes_of_noInner {s t : State} (h : t.noInner = s.noInner) : s.SameBytes t := fun slot pa =>
  ⟨by rw [← State.pkRead_noInner, h, State.pkRead_noInner], by rw [← State.homeRead_noInner, h, State.homeRead_noInner],
    by rw [← State.homeByte_noInner, h, State.homeByte_noInner]⟩

theorem State.mem_of_noInner {s t : State} (h : t.noInner = s.noInner) : t.mem = s.mem := (congrArg (fun s : State => s.mem) h :)

theorem State.putInner_noInner (s : State) (ag : Agent) (level : Nat) (wrote : Bool) (pa : Nat) (b : Byte) :
    (s.putInner ag level wrote pa b).noInner = s.noInner := by
  unfold State.putInner
  dsimp only
  split <;> rfl

/-- A byte put at a level is there; the others stay. -/
theorem State.innerAt_putInner (s : State) (ag : Agent) (level : Nat) (wrote : Bool) (pa q : Nat) (b : Byte) :
    (s.putInner ag level wrote pa b).innerAt ag level q = if q = pa then some b else s.innerAt ag level q := by
  unfold State.putInner State.innerAt
  dsimp only
  by_cases h1 : level = 1
  · simp only [if_pos h1, Tab.get_put_self]
    by_cases hq : q = pa
    · rw [hq, if_pos rfl, Tab.find?_put_self]
    · rw [if_neg hq, Tab.find?_put_ne _ _ hq]
  · simp only [if_neg h1, Tab.get_put_self]
    by_cases hq : q = pa
    · rw [hq, if_pos rfl, Tab.find?_put_self]
    · rw [if_neg hq, Tab.find?_put_ne _ _ hq]

/-- Bytes put at a level one after another, from place `k` on: each is there over what it found, the others stay. -/
theorem State.innerAt_spills (ag : Agent) (level : Nat) (unc : Bool) (slot : BitVec 8) (pa : Nat) (msk : Byte) (bs : List Byte) :
    ∀ (k : Nat) (s : State),
      let t := (bs.zipIdx k).foldl (fun t e =>
        t.putInner ag level true (pa + e.2) (merge (t.from_ ag level unc slot (pa + e.2)) e.1 msk)) s
      t.noInner = s.noInner ∧
      (∀ i, i < bs.length → ∃ old, t.innerAt ag level (pa + (k + i)) = some (merge old (bs.getD i 0) msk)) ∧
      ∀ q, q < pa + k → t.innerAt ag level q = s.innerAt ag level q := by
  induction bs with
  | nil => exact fun k s => ⟨rfl, fun i h => absurd h (Nat.not_lt_zero i), fun _ _ => rfl⟩
  | cons b bs ih =>
    intro k s
    dsimp only
    rw [List.zipIdx_cons, List.foldl_cons]
    dsimp only
    generalize hm : merge (s.from_ ag level unc slot (pa + k)) b msk = m
    obtain ⟨hin, hat, hbelow⟩ := ih (k + 1) (s.putInner ag level true (pa + k) m)
    refine ⟨hin.trans (s.putInner_noInner ag level true (pa + k) m), fun i hi => ?_, fun q hq => ?_⟩
    · cases i with
      | zero =>
        refine ⟨s.from_ ag level unc slot (pa + k), ?_⟩
        rw [hbelow (pa + (k + 0)) (by omega), State.innerAt_putInner, if_pos (by rfl), ← hm]
        rfl
      | succ i =>
        obtain ⟨old, ho⟩ := hat i (by simpa using hi)
        exact ⟨old, by rw [show k + (i + 1) = k + 1 + i by omega, ho]; rfl⟩
    · rw [hbelow q (by omega), State.innerAt_putInner, if_neg (by omega)]

/-- A byte made absent at a level; the others stay. -/
theorem Tab.find?_erase_at {α : Type} (t : Tab (Tab α)) (idx pa u p : Nat) :
    Tab.find? (Tab.get [] (Tab.put t idx (Tab.erase (Tab.get [] t idx) pa)) u) p =
      if u = idx ∧ p = pa then none else Tab.find? (Tab.get [] t u) p := by
  by_cases hu : u = idx
  · subst hu
    rw [Tab.get_put_self]
    by_cases hp : p = pa
    · rw [hp, Tab.find?_erase_self, if_pos ⟨rfl, rfl⟩]
    · rw [Tab.find?_erase_ne _ hp, if_neg fun h => hp h.2]
  · rw [Tab.get_put_ne _ _ _ hu, if_neg fun h => hu h.1]

/-! ### Write errors (R130, R196, R253) -/

theorem State.violationOf_unbacked {s : State} {ag : Agent} {slot : BitVec 8} {pa : Nat} (h : s.backed ag.part pa = false) :
    s.violationOf ag slot pa = s := by
  unfold State.violationOf State.violation
  rw [h]
  rfl

theorem State.reachable_unbacked {s : State} {part : Nat} {slot : BitVec 8} {pa : Nat} (h : s.backed part pa = false) :
    s.reachable part slot pa = false := by
  rw [State.reachable, h]
  rfl

/-- A pending bit that stands already is not changed by its cause. -/
theorem or_pending {c : Word} (h : c.getLsbD 17 = true) : c ||| 0x20000 = c := by
  apply BitVec.eq_of_getLsbD_eq
  intro i hi
  have hbit : ∀ i, i < 32 → (0x20000 : Word).getLsbD i = decide (i = 17) := by decide
  rw [BitVec.getLsbD_or, hbit i hi]
  by_cases h17 : i = 17
  · rw [h17, h]
    rfl
  · rw [decide_eq_false h17, Bool.or_false]

/-- An engine fault: pending, with the address of the first (R196). -/
theorem Agent.engineFault_eq (ag : Agent) (va : DWord) : (ag.engineFault (some va)) =
    { ag with tcause := ag.tcause ||| 0x20000, engVal := if ag.tcause.getLsbD 17 then ag.engVal else va } := by
  rw [Agent.engineFault]
  cases h : ag.tcause.getLsbD 17 with
  | true => rw [or_pending h, if_pos rfl, if_pos rfl]
  | false => rfl

/-- A remote error: the status bit, and the trap where its report is asked for (R253). -/
theorem Agent.remoteErr_eq (ag : Agent) (va : DWord) : ag.remoteErr va =
    if ag.rstat.getLsbD 31 then { ag with rstat := ag.rstat ||| rsRerr, tcause := ag.tcause ||| 0x40000, remVal := va }
    else { ag with rstat := ag.rstat ||| rsRerr } := by
  have h : (ag.rstat ||| rsRerr).getLsbD 31 = ag.rstat.getLsbD 31 := by
    rw [BitVec.getLsbD_or, show rsRerr.getLsbD 31 = false from rfl, Bool.or_false]
  rw [Agent.remoteErr, Agent.orStat]
  dsimp only
  rw [h]
  rfl

/-! ### The two events -/

section
variable {s : State} {id n : Nat} {ag : Agent} {w : PWrite} {pa : Nat} {unc : Bool} {slot : BitVec 8}
  (hag : s.agent? id = some ag) (hw : ag.pend[n]? = some w)
include hag hw

theorem writePropagate_moves (hloc : w.loc = .mem pa unc slot) (hmove : ag.mayMove n w = true) (hreach : s.reachable ag.part slot pa = true) :
    exec (.writePropagate id n) s = .next (
      if ag.hasInner unc ∧ w.level < 2 then
        (s.spill ag (w.level + 1) unc slot pa w).putAgent id (ag.putPend n { w with level := w.level + 1 })
      else
        ((s.noteUse ag.part pa unc).arriveWrite (some ag.codeUnit) ag.part (ag.writePeer unc pa) slot pa w.bytes w.msk).updAgent id
          (fun a => { a with
            pend := dropNth a.pend n,
            mods := if ag.writePeer unc pa ≠ 0 then a.mods ++ List.range' pa w.bytes.length else a.mods })) := by
  change execWritePropagate id n s = _
  unfold execWritePropagate
  rw [hag]
  dsimp only
  rw [hw]
  dsimp only
  rw [hmove, hloc]
  dsimp only
  rw [hreach]
  rfl

theorem writeErrorRemoval_mem (hloc : w.loc = .mem pa unc slot) (hb : s.backed ag.part pa = false) :
    exec (.writeErrorRemoval id n) s = .next (s.putAgent id ({ ag with pend := dropNth ag.pend n }.writeFault w.row w.va)) := by
  change execWriteErrorRemoval id n s = _
  unfold execWriteErrorRemoval
  rw [hag]
  dsimp only
  rw [hw]
  dsimp only
  rw [hloc]
  dsimp only
  rw [State.reachable_unbacked hb, State.violationOf_unbacked hb]
  rfl

theorem writeErrorRemoval_remote {k : Nat} {v : DWord} (hloc : w.loc = .remote k v) :
    exec (.writeErrorRemoval id n) s = .next (s.putAgent id ({ ag with pend := dropNth ag.pend n }.remoteErr w.va)) := by
  change execWriteErrorRemoval id n s = _
  unfold execWriteErrorRemoval
  rw [hag]
  dsimp only
  rw [hw]
  dsimp only
  rw [hloc]

end

theorem State.updAgent_of {s : State} {id : Nat} {ag : Agent} (h : s.agent? id = some ag) (f : Agent → Agent) :
    s.updAgent id f = s.putAgent id (f ag) := by rw [State.updAgent, h]

end Sys2Proof.Machine

namespace Sys2Proof.Settled
open Sys2Proof Sys2Proof.Machine

/-- Settles O40: the two ways a pending write moves, the errors of its home, and the evictions. -/
theorem pendingWrites : Obligations.PendingWrites := by
  refine ⟨?_, ?_⟩
  · intro s id n ag w hag hw
    have hmove : (∀ o ∈ ag.pend.take n, w.level < o.level ∨ o.overlaps w = false) → ag.mayMove n w = true := fun h =>
      List.all_eq_true.mpr fun o ho => by
        obtain hl | hl := h o ho
        · simp [not_le.mpr hl]
        · simp [hl]
    refine ⟨fun pa unc slot hloc hreach hold => ⟨fun hp hunc hlvl => ?_, fun hout => ?_⟩, fun pa unc slot hloc hback => ?_,
      fun k v hloc => ?_⟩
    · have hin : ag.hasInner unc = true := by rw [Agent.hasInner, hp, hunc]; rfl
      rw [writePropagate_moves hag hw hloc (hmove hold) hreach, if_pos ⟨hin, hlvl⟩]
      obtain ⟨hsame, hat, -⟩ := State.innerAt_spills ag (w.level + 1) unc slot pa w.msk w.bytes 0 s.tick2
      refine ⟨_, rfl, State.mem_of_noInner hsame, State.sameBytes_of_noInner hsame, State.putAgent_agent?_self _ _ _, fun i hi => ?_⟩
      obtain ⟨old, ho⟩ := hat i hi
      rw [Nat.zero_add] at ho
      exact ⟨old, ho⟩
    · have hin : ¬(ag.hasInner unc = true ∧ w.level < 2) := by
        rw [Agent.hasInner, Bool.and_eq_true, beq_iff_eq, Bool.not_eq_true']
        rintro ⟨⟨hp, hu⟩, hl⟩
        obtain h | h | h := hout
        · exact h hp
        · rw [hu] at h
          exact Bool.false_ne_true h
        · omega
      rw [writePropagate_moves hag hw hloc (hmove hold) hreach, if_neg hin]
      have hnote : (s.noteUse ag.part pa unc).agent? id = some ag := hag
      obtain ⟨wt, harr⟩ := State.arriveWrite_agent? hnote (some ag.codeUnit) ag.part (ag.writePeer unc pa) slot pa w.bytes w.msk
      rw [State.updAgent_of harr]
      exact ⟨_, _, rfl, State.putAgent_agent?_self _ _ _, rfl, rfl, rfl, rfl, rfl⟩
    · refine ⟨_, writeErrorRemoval_mem hag hw hloc hback, ?_, fun h => ?_, fun h => ?_⟩
      · cases w.row with
        | false => rfl
        | true =>
          rw [Agent.writeFault, if_pos rfl, Agent.engineFault_eq]
      · rw [h]
        rfl
      · rw [h, Agent.writeFault, if_pos rfl, Agent.engineFault_eq]
        exact ⟨rfl, rfl, rfl⟩
    · refine ⟨_, writeErrorRemoval_remote hag hw hloc, ?_⟩
      rw [Agent.remoteErr_eq]
      cases h : ag.rstat.getLsbD 31 with
      | true =>
        refine ⟨rfl, rfl, fun _ => ⟨?_, rfl⟩, fun h => absurd h Bool.noConfusion⟩
        exact (BitVec.getLsbD_or ..).trans (Bool.or_true _)
      | false => exact ⟨rfl, rfl, fun h => absurd h Bool.false_ne_true, fun _ => rfl⟩
  · intro s idx pa
    refine ⟨fun h => ?_, fun h => ?_, fun h => ?_, rfl, rfl⟩
    · refine ⟨s.dropInner 1 idx [pa], ?_, rfl, rfl, fun u p => Tab.find?_erase_at s.ms.l1 idx pa u p, rfl⟩
      change Host.Outcome.next (if s.pinned 1 idx pa then s else s.dropInner 1 idx [pa]) = _
      rw [h]
      rfl
    · refine ⟨s.dropInner 2 idx [pa], ?_, rfl, rfl, fun u p => Tab.find?_erase_at s.ms.l2 idx pa u p, rfl⟩
      change Host.Outcome.next (if s.pinned 2 idx pa then s else s.dropInner 2 idx [pa]) = _
      rw [h]
      rfl
    · change Host.Outcome.next (if s.pinned 1 idx pa then s else s.dropInner 1 idx [pa]) = _
      rw [if_pos h]

end Sys2Proof.Settled
end

section
/-! PROOF. Walks and what they leave in the caches (R48, R51), the page registers of a stream (R57), faults and side logs (R60, R62),
asynchronous traps (R345, R348), and the ends of waits (R239, R261, R352). -/
namespace Sys2Proof.Machine

/-! ### What a walk may leave (R51) -/

theorem walkName_eq (key : DWord) (tile : Bool) :
    walkName key tile = if tile then .tile (key.toNat % 2 ^ 20) (key.toNat / 2 ^ 20) 0 else .flat key := by
  have h := key.isLt
  have hlo : (key.extractLsb' 0 20).toNat = key.toNat % 2 ^ 20 := by
    rw [BitVec.extractLsb'_toNat, Nat.shiftRight_zero]
  have hhi : (key.extractLsb' 20 44).toNat = key.toNat / 2 ^ 20 := by
    rw [BitVec.extractLsb'_toNat, Nat.shiftRight_eq_div_pow]
    omega
  rw [walkName, hlo, hhi]

/-- An upper entry that a walk of a flat address reads: it points to a table, and stands for its part of the address. -/
def Upper.OfWalk (u : Upper) (part va : Nat) : Prop := u.part = part ∧ u.pte.toNat % 4 = 1 ∧ u.at_ = va / 2 ^ (12 + 9 * u.level)

theorem State.walkPath_ofWalk (s : State) (part va : Nat) (level : Nat) :
    ∀ tbl, ∀ u ∈ s.walkPath part va level tbl, u.OfWalk part va := by
  induction level with
  | zero => exact fun _ u hu => absurd hu List.not_mem_nil
  | succ level ih =>
    intro tbl u hu
    rw [State.walkPath] at hu
    generalize va / 2 ^ (12 + 9 * level) % (if level = 4 then 256 else 512) = idx at hu
    split at hu
    · rename_i hlow
      obtain rfl | hu := List.mem_cons.mp hu
      · refine ⟨rfl, ?_, rfl⟩
        rw [BitVec.extractLsb'_toNat, Nat.shiftRight_zero] at hlow
        exact hlow
      · exact ih _ u hu
    · exact absurd hu List.not_mem_nil

/-- Keeping upper entries changes their cache alone, by entries of the walk. -/
theorem State.keepUpper_spec (s : State) (part : Nat) (k : VKey) : ∃ us, s.keepUpper part k = { s with ms := { s.ms with upper := us } } ∧
    ∀ u ∈ us, u ∈ s.ms.upper ∨ ∃ va, k = .flat va ∧ u.OfWalk part va.toNat := by
  cases k with
  | tile t i off => exact ⟨s.ms.upper, rfl, fun u hu => .inl hu⟩
  | flat va =>
    unfold State.keepUpper
    dsimp only
    split
    · refine ⟨_, rfl, fun u hu => ?_⟩
      obtain hu | hu := List.mem_append.mp hu
      · exact .inl hu
      · exact .inr ⟨va, rfl, s.walkPath_ofWalk part va.toNat 5 _ u (List.mem_filter.mp hu).1⟩
    · exact ⟨s.ms.upper, rfl, fun u hu => .inl hu⟩

theorem State.keepXlat_eq (s : State) (x : Xlat) :
    s.keepXlat x = { s with ms := { s.ms with tlb := s.ms.tlb ++ if x ∈ s.ms.tlb then [] else [x] } } := by
  unfold State.keepXlat
  by_cases h : x ∈ s.ms.tlb
  · rw [if_pos (List.contains_iff_mem.mpr h), if_pos h, List.append_nil]
  · rw [if_neg (fun hc => h (List.contains_iff_mem.mp hc)), if_neg h]

/-! ### The page registers of a stream (R57) -/

/-- Entering a page: what was known of it stays, the walk aside. -/
theorem Stream.enter_eq (st : Stream) (npd : Nat) (k : VKey) (x : Xlat) : ∃ n w, st.enter npd k x =
    { (if st.cur = some x then st else ({ cur := some x } : Stream)) with last := some k, stride := n, walk := w } := by
  unfold Stream.enter
  exact (ite_eq_or_eq _ _ _).elim (fun h => ⟨_, _, h⟩) (fun h => ⟨_, _, h⟩)

/-- Entering a page sets the current register and where the access lay; the other registers stay where the page was current. -/
theorem Stream.enter_regs (st : Stream) (npd : Nat) (k : VKey) (x : Xlat) :
    (st.enter npd k x).cur = some x ∧ (st.enter npd k x).last = some k ∧
      (st.enter npd k x).next = if st.cur = some x then st.next else none := by
  obtain ⟨n, w, he⟩ := st.enter_eq npd k x
  rw [he]
  by_cases h : st.cur = some x
  · simp only [if_pos h]
    exact ⟨h, trivial, trivial⟩
  · simp only [if_neg h]
    exact ⟨trivial, trivial, trivial⟩

/-- Without a distance no walk starts. -/
theorem Stream.enter_walk_zero (st : Stream) (k : VKey) (x : Xlat) :
    (st.enter 0 k x).walk = if st.cur = some x then st.walk else none := by
  unfold Stream.enter
  dsimp only
  rw [if_neg fun h => h.1 rfl]
  exact apply_ite Stream.walk _ _ _

/-- Near the page's end in the direction of the stride the walk for the page beside it runs (R57, log 81). -/
theorem Stream.enter_walk {st : Stream} {npd : Nat} {k l : VKey} {x : Xlat} {d : Int} (hc : st.cur = some x) (hl : st.last = some l)
    (hd : d = l.stepTo k x.size) (h0 : npd ≠ 0) (hs : d ≠ 0) (hle : d.natAbs ≤ x.size)
    (hnear : if 0 < d then x.size ≤ k.offIn x + npd else k.offIn x < npd ∧ 0 < x.base)
    (hheld : ∀ y, st.next = some y → y.serves y.part (x.beside (decide (d < 0))) = false)
    (htried : st.tried ≠ some (x.beside (decide (d < 0)))) : (st.enter npd k x).walk = some (x.beside (decide (d < 0))) := by
  have hany : st.next.any (fun y => y.serves y.part (x.beside (decide (d < 0)))) = false := by
    cases hn : st.next with
    | none => rfl
    | some y => exact hheld y hn
  have hn : (if 0 < d then decide (x.size ≤ k.offIn x + npd) else decide (k.offIn x < npd) && decide (0 < x.base)) = true := by
    split at hnear
    · rename_i h
      rw [if_pos h, decide_eq_true hnear]
    · rename_i h
      rw [if_neg h, decide_eq_true hnear.1, decide_eq_true hnear.2]
      rfl
  unfold Stream.enter
  simp only [hl, hc, if_true, ← hd]
  by_cases hw : st.walk = some (x.beside (decide (d < 0)))
  · rw [if_neg fun h => h.2.2.2.2.2.1 hw]
    exact hw
  · rw [if_pos ⟨h0, hs, hle, hn, by rw [hany]; rfl, hw, htried⟩]

theorem State.streamWalked_eq {s : State} {part : Nat} {st : Stream} {w : VKey} (h : st.walk = some w) :
    s.streamWalked part st = { st with next := s.walkAny part w, walk := none, tried := some w } := by
  rw [State.streamWalked, h]

/-! ### One entry of a table changed -/

/-- The entry at a key after a change there alone. -/
theorem Tab.find?_map_at {α : Type} {t : Tab α} {n : Nat} {v : α} (f : α → α) (h : Tab.find? t n = some v) :
    Tab.find? (t.map (fun e => if e.1 = n then (e.1, f e.2) else e)) n = some (f v) := by
  have hf : (fun e : Nat × α => if e.1 = n then (e.1, f e.2) else e) = fun e => (e.1, if e.1 = n then f e.2 else e.2) := by
    funext e
    split <;> rfl
  rw [hf, Tab.find?_map_val (fun k v => if k = n then f v else v), h, Option.map_some, if_pos rfl]

theorem Tab.mem_of_find? {α : Type} {t : Tab α} {n : Nat} {v : α} (h : Tab.find? t n = some v) : (n, v) ∈ t := by
  induction t with
  | nil => exact nomatch h
  | cons e t ih =>
    obtain ⟨k, w⟩ := e
    rw [Tab.find?] at h
    split at h
    · rename_i hk
      rw [Option.some.injEq] at h
      subst hk h
      exact List.mem_cons_self
    · exact List.mem_cons_of_mem _ (ih h)

theorem State.quad_of_find? {s : State} {n : Nat} {y : QuadSt} (h : Tab.find? s.quads n = some y) : s.quad n = y := by
  rw [State.quad, Tab.get, h]

/-! ### Faults (R60, R62) -/

/-- An agent after the faults of a page are gone: it issues again where one of them held it. -/
def Agent.released (ids : List Nat) (id : Nat) (ag : Agent) : Agent :=
  match ag.wait with
  | .held _ => if id ∈ ids then { ag with wait := .again } else ag
  | _ => ag

theorem State.releaseHeld_agents (s : State) (ids : List Nat) :
    (s.releaseHeld ids).agents = s.agents.map (fun e => (e.1, e.2.released ids e.1)) := by
  refine List.map_congr_left fun e _ => ?_
  obtain ⟨id, ag⟩ := e
  dsimp only
  unfold Agent.released
  cases hw : ag.wait with
  | held va =>
    dsimp only
    by_cases h : id ∈ ids
    · rw [if_pos (List.contains_iff_mem.mpr h), if_pos h]
    · rw [if_neg (fun hc => h (List.contains_iff_mem.mp hc)), if_neg h]
  | _ => rfl

theorem State.releaseHeld_agent? {s : State} {id : Nat} {ag : Agent} (h : s.agent? id = some ag) (ids : List Nat) :
    (s.releaseHeld ids).agent? id = some (ag.released ids id) := by
  rw [State.agent?, State.releaseHeld_agents, Tab.find?_map_val (Agent.released ids), show Tab.find? s.agents id = some ag from h]
  rfl

theorem State.settle_logged {s : State} {part : Nat} {k : VKey} (h : s.logged part k = true) : s.settle part k = s := by
  rw [State.settle, if_pos h]

theorem State.settle_unlogged {s : State} {part : Nat} {k : VKey} (h : s.logged part k = false) : s.settle part k =
    ({ s with ms := { s.ms with faults := s.ms.faults.filter (fun f => !(s.sameFault f part k && f.resolved)) } }).releaseHeld
      ((s.ms.faults.filter (fun f => s.sameFault f part k && f.resolved)).flatMap (fun f : FaultRec => f.waiters)) := by
  rw [State.settle, h]
  rfl

/-- Settling changes the fault queue and waits alone. -/
theorem State.settle_frame (s : State) (part : Nat) (k : VKey) :
    (s.settle part k).mem = s.mem ∧ (s.settle part k).units = s.units ∧ (s.settle part k).rot = s.rot := by
  unfold State.settle
  split <;> exact ⟨rfl, rfl, rfl⟩

theorem faultResolve_of {s : State} {n : Nat} {f : FaultRec} (hf : s.ms.faults[n]? = some f) (hr : f.resolved = false)
    (hw : s.walkKey f.part f.key f.perm ≠ .notPresent) :
    exec (.faultResolve n) s = .next (({ s.noteWalk f.part f.key with ms := { (s.noteWalk f.part f.key).ms with
      faults := (s.noteWalk f.part f.key).ms.faults.map (fun x =>
        if (s.noteWalk f.part f.key).sameFault x f.part f.key then { x with resolved := true } else x) } }).settle f.part f.key) := by
  change execFaultResolve n s = _
  unfold execFaultResolve
  rw [hf]
  dsimp only
  rw [hr, if_neg (by rw [Bool.false_or, beq_iff_eq]; exact hw)]

/-- A unit's side log without entries of a page loses none. -/
theorem State.discard_of_none {s : State} {part : Nat} {k : VKey} {u : Nat}
    (h : ∀ x ∈ s.units, ∀ y ∈ x.2.slog, y.part = part → y.key.samePage k = false) : s.discard part k u = s := by
  have hgone : (s.unit u).slog.filter (fun e => e.part == part && e.key.samePage k) = [] := by
    refine List.filter_eq_nil_iff.mpr fun y hy => ?_
    rw [Bool.and_eq_true, beq_iff_eq]
    rintro ⟨hp, hk⟩
    unfold State.unit Tab.get at hy
    split at hy
    · rename_i x hx
      rw [h _ (Tab.mem_of_find? hx) y hy hp] at hk
      exact Bool.false_ne_true hk
    · exact absurd hy List.not_mem_nil
  unfold State.discard
  dsimp only
  rw [hgone]
  rfl

theorem State.discards_of_none {s : State} {part : Nat} {k : VKey} {us : Tab UnitSt} (hu : s.units = us)
    (h : ∀ x ∈ us, ∀ y ∈ x.2.slog, y.part = part → y.key.samePage k = false) (l : List (Nat × UnitSt)) :
    l.foldl (fun t e => t.discard part k e.1) s = s := by
  subst hu
  induction l with
  | nil => rfl
  | cons e l ih => rw [List.foldl_cons, State.discard_of_none h, ih]

/-- An unresolvable fault that holds one agent, with no copy, queue or side-log entry, gives it the address trap (R60). -/
theorem faultUnresolvable_of {s : State} {n : Nat} {f : FaultRec} {id : Nat} {ag : Agent} {va : DWord}
    (hf : s.ms.faults[n]? = some f) (hr : f.resolved = false) (hw : f.waiters = [id]) (hc : f.copies = []) (hq : f.queues = [])
    (hlog : ∀ x ∈ s.units, ∀ y ∈ x.2.slog, y.part = f.part → y.key.samePage f.key = false)
    (hag : s.agent? id = some ag) (hwait : ag.wait = .held va) :
    exec (.faultUnresolvable n) s = .next (takeTrap { s with ms := { s.ms with faults := dropNth s.ms.faults n } } id
      ag.atRep 0x05 ag.run.here va) := by
  have hid : ∀ {α : Type} (l : List α), l.map (fun e => e) = l := fun l => List.map_id l
  change execFaultUnresolvable n s = _
  unfold execFaultUnresolvable
  rw [hf]
  dsimp only
  rw [hr, hw, hc, hq]
  simp only [List.contains_nil, Bool.false_eq_true, if_false, hid]
  rw [State.discards_of_none (us := s.units) ?_ hlog, List.foldl_cons, List.foldl_nil]
  · simp only [State.agent?, show Tab.find? s.agents id = some ag from hag]
    rw [hwait]
  · rfl

/-! ### Side logs (R61, R62, R227) -/

/-- A wave-order point is no part of memory, units or the root of trust. -/
theorem State.orderDone_frame (s : State) (id : Nat) :
    (s.orderDone id).mem = s.mem ∧ (s.orderDone id).units = s.units ∧ (s.orderDone id).rot = s.rot := by
  unfold State.orderDone State.updAny
  dsimp only
  split
  · split <;> exact ⟨rfl, rfl, rfl⟩
  · exact ⟨rfl, rfl, rfl⟩

/-- An entry leaves its log: what remains of memory, the log and the root of trust. -/
def State.dropEntry (t : State) (u n : Nat) (e : SideEnt) : State :=
  ((t.putUnit u { t.unit u with slog := dropNth (t.unit u).slog n }).orderDone e.agent).settle e.part e.key

theorem State.dropEntry_frame (t : State) (u n : Nat) (e : SideEnt) :
    (t.dropEntry u n e).mem = t.mem ∧ ((t.dropEntry u n e).unit u).slog = dropNth (t.unit u).slog n ∧
      (t.dropEntry u n e).rot = t.rot := by
  obtain ⟨hm, hu, hr⟩ := State.settle_frame ((t.putUnit u { t.unit u with slog := dropNth (t.unit u).slog n }).orderDone e.agent) e.part e.key
  obtain ⟨hm', hu', hr'⟩ := State.orderDone_frame (t.putUnit u { t.unit u with slog := dropNth (t.unit u).slog n }) e.agent
  refine ⟨hm.trans hm', ?_, hr.trans hr'⟩
  rw [State.dropEntry, State.unit, hu, hu']
  exact congrArg UnitSt.slog (t.putUnit_unit_self u _)

/-- A store's entry of one byte arrives as that byte. -/
theorem State.replayAt_store (s : State) {u o pa : Nat} {e : SideEnt} {b m : Byte} {slot : BitVec 8} (ho : e.op = none)
    (hb : e.bytes = [(o, b, m)]) : s.replayAt u e pa slot = s.arriveWrite (if e.copy.isSome then none
      else (s.anyAgent? e.agent).map Agent.codeUnit) e.part 0 slot (pa + o) [b] m := by
  rw [State.replayAt, ho, hb]
  rfl

section
variable {s : State} {u n : Nat} {e : SideEnt} (he : (s.unit u).slog[n]? = some e)
include he

theorem sideLogReplay_waits (ht : s.replayTurn (s.unit u) n e = false) : exec (.sideLogReplay u n) s = .next s := by
  change execSideLogReplay u n s = _
  unfold execSideLogReplay
  rw [he]
  dsimp only
  rw [ht]
  rfl

/-- An entry of an older incarnation is dropped and counted (R227). -/
theorem sideLogReplay_old (ht : s.replayTurn (s.unit u) n e = true) (hi : e.inc ≠ (s.die e.die).inc) :
    exec (.sideLogReplay u n) s = .next (({ s with rot := { s.rot with incDrop := s.rot.incDrop + 1 } }).dropEntry u n e) := by
  change execSideLogReplay u n s = _
  unfold execSideLogReplay
  rw [he]
  dsimp only
  rw [ht, if_pos hi]
  rfl

/-- A store's entry whose page is mapped and whose home answers arrives there (R62). -/
theorem sideLogReplay_arrives (ht : s.replayTurn (s.unit u) n e = true) (hi : e.inc = (s.die e.die).inc) (ho : e.op = none)
    {y : Xlat} (hw : s.walkKey e.part e.key .write = .ok y) (hr : s.reachable e.part (pteSlot y.pte) (e.key.pa y) = true) :
    exec (.sideLogReplay u n) s =
      .next (((s.noteWalk e.part e.key).replayAt u e (e.key.pa y) (pteSlot y.pte)).dropEntry u n e) := by
  change execSideLogReplay u n s = _
  unfold execSideLogReplay
  rw [he]
  dsimp only
  rw [ht, if_neg (not_not.mpr hi), ho, show s.walkKey e.part e.key (if Option.isSome none then .readWrite else .write) = .ok y from hw]
  dsimp only
  rw [hr]
  rfl

end

/-! ### The ends of waits -/

theorem onWait_some {s : State} {id : Nat} {ag : Agent} {f : Agent → Wait → Option Wait} {w : Wait} (h : s.agent? id = some ag)
    (hf : f ag ag.wait = some w) : onWait s id f = .next (s.putAgent id { ag with wait := w }) := by
  rw [onWait, h]
  dsimp only
  rw [hf]

theorem onWait_none {s : State} {id : Nat} {ag : Agent} {f : Agent → Wait → Option Wait} (h : s.agent? id = some ag)
    (hf : f ag ag.wait = none) : onWait s id f = .next s := by
  rw [onWait, h]
  dsimp only
  rw [hf]

/-- The counter that an agent reads is not behind the package's time (R254). -/
theorem State.time_ge {s : State} (ag : Agent) (h : s.ntime.toNat + 2 < 2 ^ 64) : s.ntime.toNat ≤ (s.time ag).toNat := by
  have hk : Config.dieSkew ag.die.toNat % 3 < 3 := Nat.mod_lt _ (by norm_num)
  have ht : (s.ntime + BitVec.ofNat 64 (Config.dieSkew ag.die.toNat % 3)).toNat = s.ntime.toNat + Config.dieSkew ag.die.toNat % 3 := by
    rw [BitVec.toNat_add, BitVec.toNat_ofNat]
    omega
  rw [State.time]
  split
  · rename_i hu
    have := BitVec.lt_def.mp (BitVec.ult_iff_lt.mp hu)
    omega
  · omega

/-! ### Asynchronous traps (R345, R348) -/

theorem asyncTrap_none {s : State} {id : Nat} {ag : Agent} (h : s.agent? id = some ag) (hd : ag.dueTrap = none) :
    exec (.asyncTrap id) s = .next s := by
  change execAsyncTrap id s = _
  unfold execAsyncTrap
  rw [h]
  dsimp only
  rw [hd]
  split <;> rfl

/-- A trap that is due is taken at a boundary by a live agent that waits for nothing. -/
theorem asyncTrap_due {s : State} {id : Nat} {ag ag' : Agent} {c : Nat} {v : DWord} (h : s.agent? id = some ag) (hl : ag.live = true)
    (hw : ag.wait = .none) (hd : ag.dueTrap = some (c, v, ag')) : exec (.asyncTrap id) s =
      .next (takeTrap (if ag'.profile = .host then s else s.leaveQueues id ag'.unit) id ag'.atRep c ag'.run.here v) := by
  change execAsyncTrap id s = _
  unfold execAsyncTrap
  rw [h]
  dsimp only
  rw [hl, hw, hd]
  rfl

/-- The pending traps outside a handler, in their order (R348). -/
theorem Agent.dueTrap_pending (ag : Agent) (hs : ag.stErr = []) (hi : ag.tcause.getLsbD 31 = false) : ag.dueTrap =
    if ag.tcause.getLsbD 16 then some (0x22, ag.recVal, ag)
    else if ag.tcause.getLsbD 17 then some (0x21, ag.engVal, ag)
    else if ag.tcause.getLsbD 18 then some (0x20, ag.remVal, ag)
    else none := by
  rw [Agent.dueTrap, hs]
  exact if_neg (ne_true_of_eq_false hi)

end Sys2Proof.Machine

namespace Sys2Proof.Settled
open Sys2Proof Sys2Proof.Machine

/-- Settles O49: walks and streams, faults resolved and not, side-log replay, asynchronous traps, and the ends of waits. -/
theorem faultsAndWaits : Obligations.FaultsAndWaits := by
  refine ⟨?_, ?_, ?_, ?_, ?_, ?_, ?_, ?_⟩
  · intro s part key tile need k hk w kept
    subst hk
    have hname := walkName_eq key tile
    obtain ⟨us, hup, hus⟩ := w.keepUpper_spec part (walkName key tile)
    have hkept : ∀ u ∈ us, u ∈ w.ms.upper ∨ (u.part = part ∧ u.pte.toNat % 4 = 1 ∧ u.at_ = key.toNat / 2 ^ (12 + 9 * u.level) ∧
        tile = false) := fun u hu => (hus u hu).imp_right fun ⟨va, hva, hp, hlow, hat⟩ => by
      cases tile with
      | true => exact nomatch hva
      | false =>
        obtain rfl : key = va := VKey.flat.inj hva
        exact ⟨hp, hlow, hat, rfl⟩
    refine ⟨fun x hx => ?_, fun hn => ?_, fun hbad => ?_⟩
    · refine ⟨(w.keepUpper part (walkName key tile)).keepXlat x, ?_, ?_⟩
      · change execPageWalk part key tile need s = _
        unfold execPageWalk
        rw [hname]
        dsimp only
        rw [hx]
      · rw [hup, State.keepXlat_eq]
        exact ⟨rfl, rfl, rfl, rfl, hkept⟩
    · refine ⟨w.keepUpper part (walkName key tile), ?_, ?_⟩
      · change execPageWalk part key tile need s = _
        unfold execPageWalk
        rw [hname]
        dsimp only
        rw [hn]
      · rw [hup]
        exact ⟨rfl, rfl, rfl, (List.append_nil _).symm, hkept⟩
    · change execPageWalk part key tile need s = _
      unfold execPageWalk
      rw [hname]
      dsimp only
      obtain h | h := hbad <;> rw [h]
  · intro st npd k x l d
    obtain ⟨hcur, hlast, hnext⟩ := st.enter_regs npd k x
    refine ⟨hcur, hlast, fun h => by rw [hnext, if_neg h], fun h => by rw [hnext, if_pos h], fun h => ?_,
      fun hc hl hd h0 hle hheld => ⟨fun hpos hnear htried => ?_, fun hneg hnear hbase htried => ?_⟩⟩
    · subst h
      exact st.enter_walk_zero k x
    · have hback : decide (d < 0) = false := decide_eq_false (by omega)
      rw [← hback] at htried ⊢
      exact Stream.enter_walk hc hl hd h0 (by omega) hle (by rw [if_pos hpos]; exact hnear) hheld htried
    · have hback : decide (d < 0) = true := decide_eq_true hneg
      rw [← hback] at htried ⊢
      exact Stream.enter_walk hc hl hd h0 (by omega) hle (by rw [if_neg (by omega)]; exact ⟨hnear, hbase⟩) hheld htried
  · intro s part st w h
    rw [State.streamWalked_eq h]
    exact ⟨rfl, rfl, rfl⟩
  · intro s w n
    refine ⟨fun ag hw hag => ?_, fun c hc => ⟨fun hw => ?_, fun hw => ?_⟩, fun y hy => ⟨fun hw => ?_, fun hw => ?_⟩⟩
    · subst hw
      exact congrArg Host.Outcome.next (State.updAgent_of hag _)
    · subst hw
      exact ⟨_, rfl, rfl, rfl, Tab.find?_map_at (fun c : Copy => { c with sgen := State.streamWalked _ c.part c.sgen }) hc⟩
    · subst hw
      exact ⟨_, rfl, rfl, rfl, Tab.find?_map_at (fun c : Copy => { c with dgen := State.streamWalked _ c.part c.dgen }) hc⟩
    · subst hw
      exact ⟨_, rfl, rfl, rfl, State.quad_of_find? (Tab.find?_map_at (fun y : QuadSt => { y with loadS := State.streamWalked _ _ y.loadS }) hy)⟩
    · subst hw
      exact ⟨_, rfl, rfl, rfl, State.quad_of_find? (Tab.find?_map_at (fun y : QuadSt => { y with storeS := State.streamWalked _ _ y.storeS }) hy)⟩
  · intro s n f hf hr
    refine ⟨fun hw => ?_, fun id ag va hwt hc hq hlog hag hwait => faultUnresolvable_of hf hr hwt hc hq hlog hag hwait⟩
    intro w fs v
    refine ⟨fun hlog => ?_, fun hlog => ?_⟩
    · refine ⟨_, (faultResolve_of hf hr hw).trans (congrArg Host.Outcome.next (State.settle_unlogged hlog)), rfl, rfl, fun id ag hag => ?_⟩
      exact State.releaseHeld_agent? hag _
    · exact (faultResolve_of hf hr hw).trans (congrArg Host.Outcome.next (State.settle_logged hlog))
  · intro s u n e he
    refine ⟨sideLogReplay_waits he, fun ht => ⟨fun hi => ?_, fun y o b hi ho hb hw hreach => ?_⟩, fun hfirst hrep hmay => ?_⟩
    · obtain ⟨hm, hs, hrot⟩ := State.dropEntry_frame { s with rot := { s.rot with incDrop := s.rot.incDrop + 1 } } u n e
      exact ⟨_, sideLogReplay_old he ht hi, hm, congrArg (fun r : Rot => r.incDrop) hrot, hs⟩
    · rw [← pteSlot_eq] at hreach ⊢
      obtain ⟨hm, hs, -⟩ := State.dropEntry_frame ((s.noteWalk e.part e.key).replayAt u e (e.key.pa y) (pteSlot y.pte)) u n e
      rw [State.replayAt_store _ ho hb] at hm hs
      refine ⟨_, sideLogReplay_arrives he ht hi ho hw hreach, ?_, ?_⟩
      · rw [State.replayAt_store _ ho hb, hs, State.unit, State.arriveWrite_units, State.still_units (s.noteWalk_still _ _)]
        rfl
      · rw [State.replayAt_store _ ho hb, hm]
    · have hall : ((s.unit u).slog.take n).all (fun y => !(s.sameEnt y e.part e.key || (e.copy.isSome && y.copy == e.copy))) = true := by
        refine List.all_eq_true.mpr fun y hy => ?_
        obtain ⟨m, hlt, hm⟩ := List.mem_take_iff_getElem.mp hy
        obtain ⟨hsame, hcopy⟩ := hfirst m y (by omega) (List.getElem?_eq_some_iff.mpr ⟨by omega, hm⟩)
        rw [hsame]
        cases hc : e.copy with
        | none => rfl
        | some c =>
          rw [hc] at hcopy
          simpa using hcopy nofun
      rw [State.replayTurn, hall, hrep, hmay]
      rfl
  · intro s id ag hag hl hw s'
    refine ⟨fun va t hst => ?_, fun hst hinh => ?_, fun hst hinh => ⟨fun h16 => ?_, fun h16 h17 => ?_, fun h16 h17 h18 => ?_⟩⟩
    · exact asyncTrap_due hag hl hw (ag' := { ag with stErr := t }) (by rw [Agent.dueTrap, hst])
    · exact asyncTrap_none hag (by rw [Agent.dueTrap, hst]; exact if_pos hinh)
    · exact asyncTrap_due hag hl hw (by rw [ag.dueTrap_pending hst hinh, if_pos h16])
    · exact asyncTrap_due hag hl hw (by rw [ag.dueTrap_pending hst hinh, if_neg (ne_true_of_eq_false h16), if_pos h17])
    · exact asyncTrap_due hag hl hw (by
        rw [ag.dueTrap_pending hst hinh, if_neg (ne_true_of_eq_false h16), if_neg (ne_true_of_eq_false h17), if_pos h18])
  · intro s id ag ea hag goes
    refine ⟨fun h => ⟨?_, ?_⟩, fun h => ⟨?_, ?_⟩, fun h => ?_, fun h hle hov => ?_, fun t h => ⟨fun hp => ?_, fun hp => ?_⟩⟩
    · exact (onWait_some hag (by rw [h]) : execWaitwYield id s = _)
    · exact (onWait_none hag (by rw [h]) : execWaitwTimer id s = _)
    · exact (onWait_some hag (by rw [h]) : execWaitwTimer id s = _)
    · exact (onWait_none hag (by rw [h]) : execWaitwReread id s = _)
    · exact (onWait_some hag (by rw [h]) : execWaitwReread id s = _)
    · have hge := State.time_ge ag hov
      have hult : (s.time ag).ult ea = false := decide_eq_false (by omega)
      exact (onWait_some hag (by rw [h]; dsimp only; rw [hult]; rfl) : execNtimeDeadline id s = _)
    · exact (onWait_some hag (by rw [h]; dsimp only; rw [hp]; rfl) : execWfiTimeout id s = _)
    · exact (onWait_none hag (by rw [h]; dsimp only; rw [hp]; rfl) : execWfiTimeout id s = _)

end Sys2Proof.Settled
end

section
/-! PROOF. GIVE, TAKE and the handles (R64, R65, R72, R73, R136, R145 to R148): what a range of plots and a handle become. -/
namespace Sys2Proof.Machine

/-! ### Plots (R64) -/

theorem UnitSt.plot_setPlot (x : UnitSt) (p : Nat) (v : Plot) (q : Nat) : (x.setPlot p v).plot q = if q = p then v else x.plot q := by
  by_cases h : q = p
  · rw [if_pos h, h]
    exact Tab.get_set_self _ _ _ _
  · rw [if_neg h]
    exact Tab.get_set_ne _ _ _ h

/-- Plots that take one value. -/
theorem UnitSt.plot_setPlots (v : Plot) (q : Nat) (ps : List Nat) : ∀ x : UnitSt,
    (ps.foldl (fun t p => t.setPlot p v) x).plot q = if q ∈ ps then v else x.plot q := by
  induction ps with
  | nil => intro x; rfl
  | cons p ps ih =>
    intro x
    rw [List.foldl_cons, ih, UnitSt.plot_setPlot]
    by_cases hq : q = p <;> by_cases hm : q ∈ ps <;> simp [hq, hm]

/-- A unit whose unbound plots of a list return (R145). -/
def UnitSt.takePlots (x : UnitSt) (ps : List Nat) : UnitSt := ps.foldl (fun t p => if (t.plot p).bound.isNone then t.setPlot p {} else t) x

theorem UnitSt.plot_takePlots (q : Nat) (ps : List Nat) : ∀ x : UnitSt,
    (x.takePlots ps).plot q = if q ∈ ps ∧ (x.plot q).bound = none then {} else x.plot q := by
  induction ps with
  | nil => intro x; simp [UnitSt.takePlots]
  | cons p ps ih =>
    intro x
    show ((if (x.plot p).bound.isNone then x.setPlot p {} else x).takePlots ps).plot q = _
    by_cases hb : (x.plot p).bound = none
    · rw [if_pos (by rw [hb]; rfl), ih, UnitSt.plot_setPlot]
      by_cases hq : q = p
      · subst hq; simp [hb]
      · simp [hq]
    · rw [if_neg (by simpa using hb), ih]
      by_cases hq : q = p
      · subst hq; simp [hb]
      · simp [hq]

/-! ### A range of plots (R145) -/

theorem notHost_of {p : Profile} (h : p ≠ .host) : notHost p = true := by
  cases p with
  | host => exact absurd rfl h
  | wave => rfl
  | sequencer => rfl

section
variable {s : State} {id : Nat} {ag : Agent} {g : BitVec 2} {a b : Src} (hm : s.mover = some (id, ag)) (hh : ag.profile ≠ .host)
  (hi : ag.Issues g)
include hm hh hi

/-- An empty range. -/
theorem plotRange_empty (k : Nat → Agent → List Nat → State) (hn : (ag.src b).toNat = 0) :
    plotRange g a b s k = .next (retire s id ag) := by
  refine (issueOnce_of _ hm hi (notHost_of hh)).trans ?_
  dsimp only
  rw [if_pos hn]

/-- A range beyond the scratchpad. -/
theorem plotRange_beyond (k : Nat → Agent → List Nat → State) (hn : (ag.src b).toNat ≠ 0)
    (hp : plotCount ag.unit < (ag.src a).toNat + (ag.src b).toNat) :
    plotRange g a b s k = .next (trapHere s id ag 0x05 (BitVec.ofNat 64 (ag.src a).toNat)) := by
  refine (issueOnce_of _ hm hi (notHost_of hh)).trans ?_
  dsimp only
  rw [if_neg hn, if_pos hp]
  rfl

/-- A range of plots that stand in the scratchpad. -/
theorem plotRange_of (k : Nat → Agent → List Nat → State) (hn : (ag.src b).toNat ≠ 0)
    (hp : (ag.src a).toNat + (ag.src b).toNat ≤ plotCount ag.unit) :
    plotRange g a b s k = .next (k id ag (List.range' (ag.src a).toNat (ag.src b).toNat)) := by
  refine (issueOnce_of _ hm hi (notHost_of hh)).trans ?_
  dsimp only
  rw [if_neg hn, if_neg (by omega)]

theorem give_take_empty (hn : (ag.src b).toNat = 0) :
    exec (.give g a b) s = .next (retire s id ag) ∧ exec (.take g a b) s = .next (retire s id ag) := by
  show execGive g a b s = _ ∧ execTake g a b s = _
  rw [execGive, execTake, plotRange_empty hm hh hi _ hn, plotRange_empty hm hh hi _ hn]
  exact ⟨rfl, rfl⟩

theorem give_take_beyond (hn : (ag.src b).toNat ≠ 0) (hp : plotCount ag.unit < (ag.src a).toNat + (ag.src b).toNat) :
    exec (.give g a b) s = .next (trapHere s id ag 0x05 (BitVec.ofNat 64 (ag.src a).toNat)) ∧
      exec (.take g a b) s = .next (trapHere s id ag 0x05 (BitVec.ofNat 64 (ag.src a).toNat)) := by
  show execGive g a b s = _ ∧ execTake g a b s = _
  rw [execGive, execTake, plotRange_beyond hm hh hi _ hn hp, plotRange_beyond hm hh hi _ hn hp]
  exact ⟨rfl, rfl⟩

/-- GIVE of unit-side plots. -/
theorem give_free (hn : (ag.src b).toNat ≠ 0) (hp : (ag.src a).toNat + (ag.src b).toNat ≤ plotCount ag.unit)
    (hf : ∀ q ∈ List.range' (ag.src a).toNat (ag.src b).toNat, ((s.unit ag.unit).plot q).engine = false)
    (hr : s.releaseNow id ag 3 = true) :
    exec (.give g a b) s = .next (retire (s.putUnit ag.unit ((List.range' (ag.src a).toNat (ag.src b).toNat).foldl
      (fun t p => t.setPlot p { engine := true }) (s.unit ag.unit))) id ag) := by
  show execGive g a b s = _
  rw [execGive, plotRange_of hm hh hi _ hn hp]
  dsimp only
  rw [List.find?_eq_none.mpr fun q hq => ne_true_of_eq_false (hf q hq), hr]
  rfl

/-- GIVE where a plot is on engine side already: the lowest one is named. -/
theorem give_owned {q : Nat} (hp : (ag.src a).toNat + (ag.src b).toNat ≤ plotCount ag.unit) (hq : (ag.src a).toNat ≤ q)
    (hq' : q < (ag.src a).toNat + (ag.src b).toNat) (he : ((s.unit ag.unit).plot q).engine = true)
    (hl : ∀ m, (ag.src a).toNat ≤ m → m < q → ((s.unit ag.unit).plot m).engine = false) :
    exec (.give g a b) s = .next (trapHere s id ag 0x06 (BitVec.ofNat 64 q)) := by
  show execGive g a b s = _
  rw [execGive, plotRange_of hm hh hi _ (by omega) hp]
  have hfind : (List.range' (ag.src a).toNat (ag.src b).toNat).find? (fun p => ((s.unit ag.unit).plot p).engine) = some q := by
    refine List.find?_range'_eq_some.mpr ⟨he, by simp; omega, fun j hj hjq => ?_⟩
    rw [hl j hj hjq]
    rfl
  dsimp only
  rw [hfind]

/-- A TAKE that waits already. -/
theorem take_again {ops : List Nat} (hn : (ag.src b).toNat ≠ 0) (hp : (ag.src a).toNat + (ag.src b).toNat ≤ plotCount ag.unit)
    (hw : ag.wait = .take ops) :
    exec (.take g a b) s = .next (if ops.any s.opOpen then waitFor s id ag (.take ops) else retire (s.acquire ag 3) id ag) := by
  show execTake g a b s = _
  rw [execTake, plotRange_of hm hh hi _ hn hp]
  dsimp only
  rw [hw]

/-- A TAKE that begins: the unbound plots return, and it waits for the operations of the others. -/
theorem take_first {t : State} {ops : List Nat} (hn : (ag.src b).toNat ≠ 0)
    (hp : (ag.src a).toNat + (ag.src b).toNat ≤ plotCount ag.unit) (hw : ∀ ops, ag.wait ≠ .take ops)
    (ht : t = s.putUnit ag.unit ((s.unit ag.unit).takePlots (List.range' (ag.src a).toNat (ag.src b).toNat)))
    (ho : ops = (List.range' (ag.src a).toNat (ag.src b).toNat).filterMap (fun p => ((s.unit ag.unit).plot p).bound)) :
    exec (.take g a b) s = .next (if ops.any s.opOpen then waitFor t id ag (.take ops) else retire (t.acquire ag 3) id ag) := by
  show execTake g a b s = _
  rw [execTake, plotRange_of hm hh hi _ hn hp]
  subst ht ho
  dsimp only
  split
  · rename_i ops h
    exact absurd h (hw ops)
  · rfl

/-! ### Handles (R72, R146, R147) -/

/-- HWAIT of a handle that is not pending. -/
theorem hwait_of {d h : BitVec 6} {x : Handle} (hx : x = ag.hGet h.toNat) (hp : x.st ≠ .pending) :
    exec (.hwait g d h) s = .next (
      let t := if x.st = .done then s.acquire ag 3 else s
      let ag' := (ag.pSet d.toNat x.read).readCode (if x.st = .done then hCode x.read else 0)
      if x.st = .done ∧ hCode x.read = 7 ∧ !ag'.rstat.getLsbD 30 then retireThenTrap t id ag' 0x08 x.read else retire t id ag') := by
  subst hx
  refine (issueOnce_of _ hm hi (notHost_of hh)).trans ?_
  dsimp only
  rw [if_neg hp]

theorem hwait_pending {d h : BitVec 6} (hp : (ag.hGet h.toNat).st = .pending) :
    exec (.hwait g d h) s = .next (waitFor s id ag .again) := by
  refine (issueOnce_of _ hm hi (notHost_of hh)).trans ?_
  dsimp only
  rw [if_pos hp]

theorem htest_of {d h : BitVec 6} {st : HState} (hs : (ag.hGet h.toNat).st = st) :
    exec (.htest g d h) s = .next (retire (if st == .done then s.acquire ag 3 else s) id (ag.sSet d.toNat (boolW (st == .done)))) := by
  subst hs
  exact issueOnce_of _ hm hi (notHost_of hh)

theorem hcancel_of {h : BitVec 6} : exec (.hcancel g h) s =
    .next (retire (if (ag.hGet h.toNat).st = .pending then s.cancelOp (ag.hGet h.toNat).op else s) id ag) :=
  issueOnce_of _ hm hi (notHost_of hh)

end

/-- A handle that is done gives its status. -/
theorem Handle.read_done {x : Handle} (h : x.st = .done) : x.read = x.status := by
  rw [Handle.read, h]
  rfl

/-- The code of a status (R73). -/
theorem hCode_eq (x : DWord) : hCode x = x.toNat / 2 ^ 60 := by
  rw [hCode, BitVec.extractLsb'_toNat, Nat.shiftRight_eq_div_pow, Nat.mod_eq_of_lt]
  have := x.isLt
  omega

theorem Agent.readCode_ne (ag : Agent) {c : Nat} (h : c ≠ 6) : ag.readCode c = ag := if_neg h

/-- Code 6 is a remote error without an address (R136). -/
theorem Agent.readCode_remote (ag : Agent) : ag.readCode 6 = ag.remoteErr 0 := rfl

/-! ### HPASS (R148) -/

section
variable {s : State} {id : Nat} {ag : Agent} {g : BitVec 2} {d h : BitVec 6} {b : Src} (hm : s.mover = some (id, ag))
  (hw : ag.profile = .wave) (hi : ag.Issues g)
include hm hw hi

theorem hpass_of : exec (.hpass g d h b) s = .next (
    if (ag.src b).toNat = ag.gw.toNat then
      if d = h then retire s id ag
      else if ag.hPending d.toNat then waitFor s id ag .again
      else retire s id ((ag.hSet h.toNat {}).hSet d.toNat (ag.hGet h.toNat))
    else match s.waveOf ag.unit (ag.src b).toNat with
      | none => addrTrap s id ag (BitVec.ofNat 64 (ag.src b).toNat)
      | some (ti, t) => if t.hPending d.toNat then waitFor s id ag .again
        else retire (s.putAgent ti (t.hSet d.toNat (ag.hGet h.toNat))) id (ag.hSet h.toNat {})) :=
  issueOnce_of _ hm hi (by rw [hw]; rfl)

end

theorem Agent.hPending_false {ag : Agent} {n : Nat} (h : (ag.hGet n).st ≠ .pending) : ag.hPending n = false :=
  beq_eq_false_iff_ne.mpr h

end Sys2Proof.Machine

namespace Sys2Proof.Settled
open Sys2Proof.Machine

/-- Settles O44: a range of plots by what TAKE and GIVE make of each plot, a handle by its state and code, HPASS by where it goes. -/
theorem handlesAndPlots : Obligations.HandlesAndPlots := by
  intro s id ag g hm hh hi
  refine ⟨?_, ?_, ?_⟩
  · intro a b p n hp hn
    subst hp hn
    have hmem : ∀ q, q ∈ List.range' (ag.src a).toNat (ag.src b).toNat ↔
        (ag.src a).toNat ≤ q ∧ q < (ag.src a).toNat + (ag.src b).toNat := fun q => by simp [List.mem_range'_1]
    have hcount : (if ag.unit < 192 then 128 else 256) = plotCount ag.unit := rfl
    rw [hcount]
    refine ⟨give_take_empty hm hh hi, give_take_beyond hm hh hi, fun hle hf hr => ?_,
      fun hle q hq hq' he hl => give_owned hm hh hi hle hq hq' he hl, fun hle hne ops hw => ⟨fun ho => ?_, fun ho => ?_⟩,
      fun hle hw m q hq hq' hb ho => ?_, fun hle hw hb => ?_⟩
    · by_cases hz : (ag.src b).toNat = 0
      · exact ⟨s, (give_take_empty hm hh hi hz).1, rfl, rfl, fun _ _ => rfl, fun q => by rw [if_neg (by omega)]⟩
      · refine ⟨_, give_free hm hh hi hz hle (fun q hq => hf q ((hmem q).mp hq).1 ((hmem q).mp hq).2) hr, rfl, rfl,
          fun u hu => State.putUnit_unit_ne _ _ hu, fun q => ?_⟩
        rw [State.putUnit_unit_self, UnitSt.plot_setPlots]
        simp only [hmem]
    · rw [take_again hm hh hi hne hle hw, ho]
      rfl
    · rw [take_again hm hh hi hne hle hw, ho]
      rfl
    · refine ⟨_, _, (take_first hm hh hi (by omega) hle hw rfl rfl).trans (congrArg Host.Outcome.next (if_pos ?_)), ?_, rfl, ?_⟩
      · exact List.any_eq_true.mpr ⟨m, List.mem_filterMap.mpr ⟨q, (hmem q).mpr ⟨hq, hq'⟩, hb⟩, ho⟩
      · exact List.mem_filterMap.mpr ⟨q, (hmem q).mpr ⟨hq, hq'⟩, hb⟩
      · rw [State.putUnit_unit_self, UnitSt.plot_takePlots, if_neg (fun hc => by rw [hb] at hc; exact nomatch hc.2)]
    · by_cases hz : (ag.src b).toNat = 0
      · exact ⟨s, (give_take_empty hm hh hi hz).2, rfl, rfl, fun _ _ => rfl, fun q => by rw [if_neg (by omega)]⟩
      · have hops : (List.range' (ag.src a).toNat (ag.src b).toNat).filterMap (fun p => ((s.unit ag.unit).plot p).bound) = [] :=
          List.filterMap_eq_nil_iff.mpr fun q hq => hb q ((hmem q).mp hq).1 ((hmem q).mp hq).2
        obtain ⟨ms, hms⟩ := State.acquire_eq (s.putUnit ag.unit ((s.unit ag.unit).takePlots
          (List.range' (ag.src a).toNat (ag.src b).toNat))) ag 3
        refine ⟨_, take_first hm hh hi hz hle hw rfl hops.symm, ?_⟩
        rw [hms]
        refine ⟨rfl, rfl, fun u hu => State.putUnit_unit_ne _ _ hu, fun q => ?_⟩
        refine (congrArg (fun x : UnitSt => x.plot q) (State.putUnit_unit_self s _ _)).trans ?_
        rw [UnitSt.plot_takePlots]
        by_cases hq : (ag.src a).toNat ≤ q ∧ q < (ag.src a).toNat + (ag.src b).toNat
        · rw [if_pos ⟨(hmem q).mpr hq, hb q hq.1 hq.2⟩, if_pos hq]
        · rw [if_neg (fun hc => hq ((hmem q).mp hc.1)), if_neg hq]
  · intro d h x hx
    refine ⟨fun hp => ⟨hwait_pending hm hh hi (hx ▸ hp), htest_of hm hh hi (hx ▸ hp), ?_⟩, fun hp => ⟨?_, htest_of hm hh hi (hx ▸ hp)⟩,
      fun hp => ?_, fun hp => ?_⟩
    · rw [hcancel_of hm hh hi, ← hx, if_pos hp]
    · rw [hwait_of hm hh hi hx (by rw [hp]; decide)]
      dsimp only
      rw [Handle.read, hp]
      rfl
    · rw [hcancel_of hm hh hi, ← hx, if_neg hp]
    · obtain ⟨ms, hms⟩ := State.acquire_eq s ag 3
      have hwait := hwait_of (d := d) hm hh hi hx (by rw [hp]; decide)
      rw [Handle.read_done hp, if_pos hp, if_pos hp, hCode_eq] at hwait
      dsimp only at hwait
      refine ⟨s.acquire ag 3, by rw [hms], by rw [hms], by rw [hms], htest_of hm hh hi (hx ▸ hp), fun h6 h7 => ?_, fun h6 hr => ?_,
        fun h6 hr => ?_, fun h7 hr => ?_⟩
      · rw [hwait, Agent.readCode_ne _ h6, Agent.pSet_rstat, if_neg]
        rintro ⟨-, hc, hf⟩
        rcases h7 with h7 | h7
        · exact h7 hc
        · rw [h7] at hf
          exact nomatch hf
      · rw [hwait, h6, Agent.readCode_remote, if_neg (fun hc => by omega), Agent.remoteErr_eq, Agent.pSet_rstat, hr]
        simp [Agent.orStat]
      · rw [hwait, h6, Agent.readCode_remote, if_neg (fun hc => by omega), Agent.remoteErr_eq, Agent.pSet_rstat, hr]
        simp [Agent.orStat]
      · rw [hwait, Agent.readCode_ne _ (by omega), Agent.pSet_rstat, if_pos ⟨hp, h7, by rw [hr]; rfl⟩]
  · intro d h b hw
    refine ⟨fun hn hp hd => ?_, fun hn => ?_, fun ti t hn ht hp => ?_, fun hn ht => ?_⟩
    · rw [hpass_of hm hw hi, if_pos hn, if_neg hd, Agent.hPending_false hp]
      rfl
    · rw [hpass_of hm hw hi, if_pos hn, if_pos rfl]
    · rw [hpass_of hm hw hi, if_neg hn, ht]
      dsimp only
      rw [Agent.hPending_false hp]
      rfl
    · rw [hpass_of hm hw hi, if_neg hn, ht]
      rfl

end Sys2Proof.Settled
end

section
/-! PROOF. CPY and the events of a copy (R65, R69 to R74, R144): a block that is queued, a start, a chunk of bytes within a
scratchpad, a completion. -/
namespace Sys2Proof.Machine

/-! ### CPY (R70, R144) -/

/-- A block's copy has not begun. -/
theorem parseCopy_fresh {u : Nat} {bs : List Byte} {c : Copy} (h : parseCopy u bs = some c) : c.running = false ∧ c.moved = 0 := by
  unfold parseCopy at h
  dsimp only at h
  split at h
  · split at h
    · cases h
      exact ⟨rfl, rfl⟩
    · exact nomatch h
  · exact nomatch h

/-- The copy that CPY queues: what its block says, with what its issuer adds (R69, R70, R144). -/
def Copy.queued (c : Copy) (s : State) (id : Nat) (ag : Agent) (d : Nat) : Copy :=
  { c with
    agent := id, hnd := d, engine := ag.engine, part := ag.part, launch := ag.launch,
    rm := if c.rm = 7 then (ag.rmode.extractLsb' 0 3).toNat else c.rm,
    sdesc := ag.dGet (c.src.extractLsb' 0 4).toNat, ddesc := ag.dGet (c.dst.extractLsb' 0 4).toNat,
    x := seedLanes ag.seed, npd := npDistance ag.npdist,
    sbind := if c.skind = 3 then s.winBind ag.unit c.src else none,
    dbind := if c.dkind = 3 then s.winBind ag.unit c.dst else none }

/-- The package once the copy stands in its queue, its plots bound to it. -/
def State.queueCopy (s : State) (u : Nat) (ps : List Nat) (c : Copy) : State :=
  let t := s.putUnit u ((s.unit u).bindPlots ps s.fab.nextOp)
  { t with fab := { t.fab with copies := Tab.put t.fab.copies s.fab.nextOp c, nextOp := s.fab.nextOp + 1 } }

theorem UnitSt.plot_bindPlots (x : UnitSt) (ps : List Nat) (op q : Nat) :
    (x.bindPlots ps op).plot q = if q ∈ ps then { engine := true, bound := some op } else x.plot q :=
  UnitSt.plot_setPlots _ q ps x

section
variable {s : State} {id : Nat} {ag : Agent} {g : BitVec 2} {d : BitVec 6} {a : Src} (hm : s.mover = some (id, ag))
  (hh : ag.profile ≠ .host) (hi : ag.Issues g)
include hm hh hi

/-- A block that is misaligned or lies outside the scratchpad. -/
theorem cpy_misplaced (hp : (ag.src a).toNat % 32 ≠ 0 ∨ spadSize ag.unit < (ag.src a).toNat + 160) :
    exec (.cpy g d a) s = .next (trapHere s id ag 0x05 (BitVec.ofNat 64 (ag.src a).toNat)) := by
  refine (issueOnce_of _ hm hi (notHost_of hh)).trans ?_
  dsimp only
  rw [if_pos hp]
  rfl

variable (ha : (ag.src a).toNat % 32 = 0) (hs : (ag.src a).toNat + 160 ≤ spadSize ag.unit)
  (he : s.enginePlot ag.unit (ag.src a).toNat 160 = none) (hb : ag.barred = false) (hd : (ag.hGet d.toNat).st ≠ .pending)
include ha hs he hb hd

/-- A malformed block (R70). -/
theorem cpy_malformed (hc : parseCopy ag.unit (s.spadRead ag.unit (ag.src a).toNat 160) = none) :
    exec (.cpy g d a) s = .next (retire s id (ag.hSet d.toNat { st := .done, status := hStatus 3 0 })) := by
  refine (issueOnce_of _ hm hi (notHost_of hh)).trans ?_
  dsimp only
  rw [if_neg (by omega), he, hc]
  dsimp only
  rw [hb, Agent.hPending_false hd]
  rfl

/-- A block whose plots are free (R65, R69). -/
theorem cpy_queues {c : Copy} (hc : parseCopy ag.unit (s.spadRead ag.unit (ag.src a).toNat 160) = some c)
    (hp : (s.unit ag.unit).notFree c.plots = none) (hq : s.copyQueue ag.engine < 32)
    (hr : s.releaseReady id ag 3 (ag.nextTag + 1) = true) :
    exec (.cpy g d a) s = .next (retire (s.queueCopy ag.unit c.plots (c.queued s id ag d.toNat)) id
      (ag.hSet d.toNat { st := .pending, op := s.fab.nextOp })) := by
  refine (issueOnce_of _ hm hi (notHost_of hh)).trans ?_
  dsimp only
  rw [if_neg (by omega), he, hc]
  dsimp only
  rw [hb, hp, Agent.hPending_false hd, hr, decide_eq_false (by omega)]
  rfl

end

/-- Plots that stand free on engine side (R65). -/
theorem UnitSt.notFree_none {x : UnitSt} {ps : List Nat} (h : ∀ q ∈ ps, (x.plot q).engine = true ∧ (x.plot q).bound = none) :
    x.notFree ps = none :=
  List.find?_eq_none.mpr fun q hq => by
    obtain ⟨he, hb⟩ := h q hq
    simp [he, hb]

/-! ### Starting a copy (R69) -/

theorem copyStart_of {s : State} {n : Nat} {c : Copy} (hc : Tab.find? s.fab.copies n = some c) (hr : c.running = false)
    (hn : s.nextCopy c.engine = some n)
    (hb : (s.fab.copies.filter (fun (x : Nat × Copy) => x.2.engine == c.engine && x.2.running)).length < 8) :
    exec (.copyStart n) s = .next (s.putCopy n { c with running := true }) := by
  show execCopyStart n s = _
  rw [execCopyStart, hc]
  dsimp only
  rw [hr, hn, decide_eq_false (by omega), bne_self_eq_false]
  rfl

end Sys2Proof.Machine
end

section
/-! PROOF. A chunk of bytes that moves within one scratchpad (R71): each element is one byte of the line, read, kept as it is, and
written; log 58 makes the whole piece of the line one step. -/
namespace Sys2Proof.Machine

/-! ### Elements of a row of bytes -/

/-- The strides of a row of bytes. -/
def rowStrides : List Word := 1 :: List.replicate 9 0
/-- The extents of a row of `m` elements. -/
def rowExtents (m : Nat) : List Nat := m :: List.replicate 9 1
/-- The indices of element `e` of a row. -/
def rowIdx (e : Nat) : List Nat := e :: List.replicate 9 0

theorem elemIdx_row {m e : Nat} (h : e < m) : elemIdx (rowExtents m) e = rowIdx e := by
  show e % m :: elemIdx (List.replicate 9 1) (e / m) = _
  rw [Nat.mod_eq_of_lt h, Nat.div_eq_of_lt h]
  rfl

theorem rowExtents_total (m : Nat) : (rowExtents m).foldl (· * ·) 1 = m := by simp [rowExtents, List.foldl]

/-- A row of bytes of the own scratchpad: element `e` is one byte. -/
theorem State.elemAt_row (s : State) (part : Nat) {x : Side} (e : Nat) (hk : x.kind = 2) (hf : x.fmt = .int8)
    (hs : x.str = rowStrides) : s.elemAt part x (rowIdx e) = (0, [.sp (x.ep.toNat + e)]) := by
  have hsum : ((x.str.zip (rowIdx e)).map (fun y => y.1.toInt * (y.2 : Int))).sum = e := by
    rw [hs]
    simp [rowStrides, rowIdx]
  have hplace : ∀ a : Nat, x.place ((a : Int) + ((0 : Nat) : Int)) = .sp a := fun a => by
    rw [Side.place, if_neg (by omega), hk]
    simp
  have hbase : x.base = x.ep.toNat := by rw [Side.base, if_neg (by omega)]
  have hbit : ((x.ep.toNat : Int) * 8 + (e : Int) * ((8 : Nat) : Int)) = ((8 * (x.ep.toNat + e) : Nat) : Int) := by push_cast; ring
  rw [State.elemAt, if_neg (by omega), hsum, hbase, hf]
  dsimp only
  rw [show Fmt.int8.bits = 8 from rfl, hbit, show ((8 * (x.ep.toNat + e) : Nat) : Int) % 8 = 0 by omega,
    show ((8 * (x.ep.toNat + e) : Nat) : Int) / 8 = ((x.ep.toNat + e : Nat) : Int) by omega]
  show (0, [x.place _]) = _
  rw [hplace]

/-- A copy of `m` bytes, from the own scratchpad to one line of it below the source, of which nothing is written yet. -/
structure Copy.Row (c : Copy) (m : Nat) : Prop where
  skind : c.skind = 2
  dkind : c.dkind = 2
  fmts  : c.sfmt = c.dfmt
  sfmt  : fmtOf c.sfmt = .int8
  sstr  : c.sstr = rowStrides
  dstr  : c.dstr = rowStrides
  ext   : c.ext = rowExtents m
  moved : c.moved = 0
  pos   : 1 ≤ m
  line  : c.dst.toNat % 64 + m ≤ 64
  apart : c.dst.toNat + m ≤ c.src.toNat

/-- The plots of both ends are bound to the copy. -/
def Copy.Owns (c : Copy) (s : State) (n m : Nat) : Prop :=
  ∀ e, (c.dst.toNat ≤ e ∧ e < c.dst.toNat + m ∨ c.src.toNat ≤ e ∧ e < c.src.toNat + m) →
    (s.unit c.unit_).plot (e / plotSize c.unit_) = { engine := true, bound := some n }

section
variable {c : Copy} {m : Nat} (h : c.Row m)
include h

theorem Copy.Row.dfmt : fmtOf c.dfmt = .int8 := h.fmts ▸ h.sfmt
theorem Copy.Row.total : c.total = m := by rw [Copy.total, h.ext, rowExtents_total]
theorem Copy.Row.idx {e : Nat} (he : e < m) : elemIdx c.ext e = rowIdx e := by rw [h.ext, elemIdx_row he]

theorem Copy.Row.source (s : State) (e : Nat) : s.elemAt c.part c.srcSide (rowIdx e) = (0, [.sp (c.src.toNat + e)]) :=
  s.elemAt_row c.part e h.skind h.sfmt h.sstr
theorem Copy.Row.dest (s : State) (e : Nat) : s.elemAt c.part c.dstSide (rowIdx e) = (0, [.sp (c.dst.toNat + e)]) :=
  s.elemAt_row c.part e h.dkind h.dfmt h.dstr

/-- Every element's destination lies in the line of the first. -/
theorem Copy.Row.chunkAux (s : State) : ∀ k e : Nat, e ≤ m → m ≤ e + k →
    s.chunkAux c (.sp (c.dst.toNat / 64)) k e = List.range' e (m - e) := by
  intro k
  induction k with
  | zero =>
    intro e he hk
    rw [show m - e = 0 by omega]
    rfl
  | succ k ih =>
    intro e he hk
    rw [State.chunkAux, h.total]
    by_cases hm : m ≤ e
    · rw [if_pos hm, show m - e = 0 by omega]
      rfl
    · have hline : (c.dst.toNat + e) / 64 = c.dst.toNat / 64 := by have := h.line; omega
      rw [if_neg hm, h.idx (by omega), h.dest, ih (e + 1) (by omega) (by omega), show m - e = (m - (e + 1)) + 1 by omega,
        List.range'_succ]
      simp [Place.line, hline]

/-- The chunk is the whole row (R71, log 58). -/
theorem Copy.Row.chunk (s : State) : s.chunk c = List.range' 0 m := by
  have hb : c.dstSide.fmt.bits = 8 := congrArg Fmt.bits h.dfmt
  have hp := h.pos
  have hl := h.line
  have haux := h.chunkAux s 64 0 (by omega) (by omega)
  rw [State.chunk, h.moved, h.idx (by omega), h.dest, hb]
  dsimp only
  rw [Place.line, show c.dst.toNat + 0 = c.dst.toNat from rfl, show 512 / 8 = 64 from rfl, haux, show m - 0 = (m - 1) + 1 by omega,
    List.range'_succ]
  exact (congrArg (List.range' 0) (show m - 1 + 1 = m by omega))

/-- No destination byte lies in the source's range. -/
theorem Copy.Row.overlapped {e : Nat} (he : e < m) : c.overlapped (rowIdx e) (.sp (c.dst.toNat + e)) = false := by
  have ha := h.apart
  have hp := h.pos
  have hspan : (copySpan c.srcSide.base c.sstr c.ext c.srcSide.fmt.bits).1 = (c.src.toNat : Int) := by
    rw [h.sstr, h.ext, show c.srcSide.fmt.bits = 8 from congrArg Fmt.bits h.sfmt,
      show c.srcSide.base = c.src.toNat by rw [Side.base, if_neg (show ¬c.srcSide.kind = 3 by rw [show c.srcSide.kind = 2 from h.skind]; decide)]; rfl]
    have h1 : (min 0 ((m : Int) - 1)) = 0 := by omega
    simp [copySpan, rowStrides, rowExtents, h1]
  rw [Copy.overlapped]
  dsimp only
  rw [hspan, decide_eq_false (by omega)]
  simp

/-- A byte is written as it stands, the whole of it. -/
theorem Copy.Row.outBytes {e v : Nat} {p : Place} (hv : v < 256) :
    c.outBytes (rowIdx e) (0, [p]) v = [{ place := p, b := BitVec.ofNat 8 v, m := 0xFF, idx := rowIdx e }] := by
  rw [Copy.outBytes, show c.dstSide.fmt.bits = 8 from congrArg Fmt.bits h.dfmt]
  simp [leBytes, Nat.mod_eq_of_lt hv]

theorem Copy.Row.convert (xs : Tab Word) (e code : Nat) : c.convert xs e code = (code, xs) :=
  if_pos ((show c.dstSide.fmt = .int8 from h.dfmt).trans (show c.srcSide.fmt = .int8 from h.sfmt).symm)

/-- No element changes its code, and no rounding sequence advances (R71). -/
theorem Copy.Row.converts {α : Type} (code : α → Nat) (l : List (Nat × α)) : ∀ acc : List Nat × Tab Word,
    l.foldl (fun acc e => (acc.1 ++ [(c.convert acc.2 e.1 (code e.2)).1], (c.convert acc.2 e.1 (code e.2)).2)) acc =
      (acc.1 ++ l.map (fun e => code e.2), acc.2) := by
  induction l with
  | nil => intro acc; simp
  | cons e l ih =>
    intro acc
    rw [List.foldl_cons, ih, h.convert]
    simp

end

/-! ### Accesses that all reach a scratchpad -/

section
variable (u : Nat) (os : List Nat)

theorem stopOf_sp : stopOf (os.map (Reach.sp u)) = none := by simp [stopOf]
theorem absentOf_sp : absentOf (os.map (Reach.sp u)) = none := by simp [absentOf]
theorem any_walking_sp : (os.map (Reach.sp u)).any (· == .walking) = false := by simp
theorem any_far_sp : (os.map (Reach.sp u)).any (· == .far) = false := by simp

theorem touchedBy_sp : touchedBy (os.map (Reach.sp u)) = [] := by simp [touchedBy]

theorem State.noteReaches_sp (s : State) (st : Stream) : s.noteReaches st (os.map (Reach.sp u)) = s := by simp [State.noteReaches]

theorem State.engineReads_sp (s : State) (part launch unit_ : Nat) (ecc : Ecc) :
    s.engineReads part launch unit_ ecc (os.map (Reach.sp u)) = (s, []) := by
  simp [State.engineReads, memLines]

end

/-- A byte of the own scratchpad in a plot bound to the copy (R66). -/
theorem State.reach_own {s : State} {n : Nat} {c : Copy} {o : Nat} (x : Side) (need : Perm)
    (h : (s.unit c.unit_).plot (o / plotSize c.unit_) = { engine := true, bound := some n }) :
    s.reach n c x need (.sp o) = .sp c.unit_ o := by
  rw [State.reach, h]
  simp

/-! ### What the engine writes -/

theorem merge_whole (a b : Byte) : merge a b 0xFF = b := by
  rw [merge, show (0xFF : Byte) = BitVec.allOnes 8 from rfl, BitVec.and_allOnes, BitVec.not_allOnes, BitVec.and_zero, BitVec.zero_or]

/-- The engine writes the row's bytes, and nothing else. -/
theorem State.homeByte_engineRow (part u base : Nat) (f : Nat → Byte) (q : Nat) (es : List Nat) : ∀ s : State,
    (es.foldl (fun t e => t.engineWrite part (.sp u (base + e)) (f e) 0xFF) s).homeByte q =
      if spadBase u + base ≤ q ∧ q - (spadBase u + base) ∈ es then f (q - (spadBase u + base)) else s.homeByte q := by
  induction es with
  | nil => intro s; simp
  | cons e es ih =>
    intro s
    have hw : (s.engineWrite part (.sp u (base + e)) (f e) 0xFF).homeByte q = (s.setHome (spadBase u + (base + e)) (f e)).homeByte q := by
      rw [State.engineWrite, merge_whole]
      rfl
    rw [List.foldl_cons, ih, hw]
    by_cases hq : q = spadBase u + (base + e)
    · subst hq
      rw [State.homeByte_setHome_self]
      simp [show spadBase u + (base + e) - (spadBase u + base) = e by omega, show spadBase u + base ≤ spadBase u + (base + e) by omega]
    · rw [State.homeByte_setHome_ne _ _ hq]
      have hne : spadBase u + base ≤ q → q - (spadBase u + base) ≠ e := by omega
      by_cases hle : spadBase u + base ≤ q
      · simp [hle, hne hle]
      · simp [hle]

theorem State.leaveSlog_mem (s : State) (u asker : Nat) : (s.leaveSlog u asker).mem = s.mem := by
  unfold State.leaveSlog
  dsimp only
  split <;> rfl

theorem lt_of_mem_row {e m : Nat} (h : e ∈ List.range' 0 m) : e < m := by
  obtain ⟨-, h⟩ := List.mem_range'_1.mp h
  rwa [Nat.zero_add] at h

/-- The bytes of the row, as they stand at the destination. -/
def Copy.rowBytes (c : Copy) (f : Nat → Byte) (m : Nat) : List OutByte :=
  (List.range' 0 m).map (fun e => { place := .sp (c.dst.toNat + e), b := f e, m := 0xFF, idx := rowIdx e })

/-- The package once the engine has written the row. -/
def State.writeRow (s : State) (n : Nat) (c : Copy) (f : Nat → Byte) (m : Nat) : State :=
  (List.range' 0 m).foldl (fun t e => t.engineWrite c.part (.sp c.unit_ (c.dst.toNat + e)) (f e) 0xFF) (s.leaveSlog c.unit_ (copyAsker n))

/-- The bytes that the row's chunk leaves (R71). -/
theorem State.homeByte_writeRow (s : State) (n m : Nat) (c : Copy) (f : Nat → Byte) (q : Nat) : (s.writeRow n c f m).homeByte q =
    if spadBase c.unit_ + c.dst.toNat ≤ q ∧ q < spadBase c.unit_ + c.dst.toNat + m then f (q - (spadBase c.unit_ + c.dst.toNat))
    else s.homeByte q := by
  have hm : q - (spadBase c.unit_ + c.dst.toNat) ∈ List.range' 0 m ↔ q - (spadBase c.unit_ + c.dst.toNat) < m := by simp
  rw [State.writeRow, State.homeByte_engineRow, show (s.leaveSlog c.unit_ (copyAsker n)).homeByte q = s.homeByte q by
    rw [State.homeByte, State.leaveSlog_mem]; rfl]
  simp only [hm]
  by_cases hq : spadBase c.unit_ + c.dst.toNat ≤ q ∧ q < spadBase c.unit_ + c.dst.toNat + m
  · rw [if_pos ⟨hq.1, by omega⟩, if_pos hq]
  · rw [if_neg (by omega), if_neg hq]

/-- The bytes of the row, read at its source, as they go out to its destination. -/
theorem Copy.Row.outs {c : Copy} {m : Nat} (h : c.Row m) (s : State) {part o : Nat} (hp : c.part = part) :
    (((List.range' 0 m).map rowIdx).zip (((List.range' 0 m).zip ((List.range' 0 m).map
      (fun e => ((0 : Nat), [Reach.sp c.unit_ (o + e)])))).map (fun e =>
        leVal (e.2.2.zipIdx.map (fun r => s.engineByte part [] r.1 r.2)) / 2 ^ e.2.1 % 2 ^ c.srcSide.fmt.bits))).flatMap
      (fun e => c.outBytes e.1 (s.elemAt part c.dstSide e.1) e.2) =
    c.rowBytes (fun e => s.homeByte (spadBase c.unit_ + o + e)) m := by
  subst hp
  rw [← List.map_prod_left_eq_zip, List.map_map, List.zip_map', List.flatMap_map]
  refine (List.flatMap_congr fun e he => ?_).trans (List.flatMap_pure_eq_map _ _)
  have hlt := (s.homeByte (spadBase c.unit_ + o + e)).isLt
  have hval : leVal ([(Reach.sp c.unit_ (o + e), 0)].map (fun r => s.engineByte c.part [] r.1 r.2)) / 2 ^ 0 % 2 ^ 8 =
      (s.homeByte (spadBase c.unit_ + o + e)).toNat := by
    simp [State.engineByte, leVal, ← Nat.add_assoc, Nat.mod_eq_of_lt hlt]
  show c.outBytes (rowIdx e) (s.elemAt c.part c.dstSide (rowIdx e)) (leVal ([(Reach.sp c.unit_ (o + e), 0)].map (fun r =>
    s.engineByte c.part [] r.1 r.2)) / 2 ^ 0 % 2 ^ c.srcSide.fmt.bits) = _
  rw [show c.srcSide.fmt.bits = 8 from congrArg Fmt.bits h.sfmt, hval, h.dest, h.outBytes hlt]
  simp

section
variable {c : Copy} {m : Nat} (h : c.Row m)
include h

theorem Copy.Row.idxs : (List.range' 0 m).map (elemIdx c.ext) = (List.range' 0 m).map rowIdx :=
  List.map_congr_left fun _ he => h.idx (lt_of_mem_row he)

/-- The row's places at its source. -/
theorem Copy.Row.places (s : State) : ((List.range' 0 m).map (elemIdx c.ext)).map (s.elemAt c.part c.srcSide) =
    (List.range' 0 m).map (fun e => (0, [Place.sp (c.src.toNat + e)])) := by
  rw [h.idxs, List.map_map]
  exact List.map_congr_left fun e _ => h.source s e

/-- Where the address generators stand does not matter to the row. -/
theorem Copy.Row.withSgen (g : Stream) : ({ c with sgen := g } : Copy).Row m :=
  ⟨h.skind, h.dkind, h.fmts, h.sfmt, h.sstr, h.dstr, h.ext, h.moved, h.pos, h.line, h.apart⟩

/-- A row that runs is not held back. -/
theorem Copy.Row.goes (s : State) (hr : c.running = true) (hx : c.cancel = false) (hcode : c.code = none) :
    (!c.running || c.cancel || c.code.isSome || decide (c.total ≤ c.moved) || !s.winRoom c.srcSide || !s.winRoom c.dstSide) = false := by
  have hpos := h.pos
  have hsrc : s.winRoom c.srcSide = true := if_pos (by rw [show c.srcSide.kind = 2 from h.skind]; decide)
  have hdst : s.winRoom c.dstSide = true := if_pos (by rw [show c.dstSide.kind = 2 from h.dkind]; decide)
  rw [hr, hx, hcode, h.total, h.moved, hsrc, hdst, decide_eq_false (by omega)]
  rfl

end

/-- Each of the row's places at its source reaches the own scratchpad. -/
theorem Copy.Owns.reads {s : State} {n m : Nat} {c : Copy} (ho : c.Owns s n m) :
    ((List.range' 0 m).map (fun e => ((0 : Nat), [Place.sp (c.src.toNat + e)]))).map
      (fun (a : ElemAt) => (a.1, a.2.map (s.reach n c c.srcSide .read))) =
    (List.range' 0 m).map (fun e => (0, [Reach.sp c.unit_ (c.src.toNat + e)])) := by
  rw [List.map_map]
  refine List.map_congr_left fun e he => ?_
  simp only [Function.comp_apply, List.map_cons, List.map_nil]
  rw [State.reach_own _ _ (ho _ (.inr ⟨by omega, by have := lt_of_mem_row he; omega⟩))]

section
variable {s : State} {n m : Nat} {c : Copy} (h : c.Row m) (ho : c.Owns s n m)
include h ho

/-- A row whose source has been read is written in one step (R71). -/
theorem State.writeChunk_row (f : Nat → Byte) (xs : Tab Word) (hlog : s.copyLogged n = false) (hcode : c.code = none) :
    ∃ x : Copy, s.writeChunk n c (List.range' 0 m) (c.rowBytes f m) xs [] false = (s.writeRow n c f m).putCopy n x ∧
      x.moved = m ∧ x.code = none := by
  have hreach : ∀ e ∈ List.range' 0 m, s.reach n c c.dstSide .write (.sp (c.dst.toNat + e)) = .sp c.unit_ (c.dst.toNat + e) :=
    fun e he => State.reach_own _ _ (ho _ (.inl ⟨by omega, by have := lt_of_mem_row he; omega⟩))
  have hrs : (c.rowBytes f m).map (fun o => (o, s.reach n c c.dstSide .write o.place)) =
      (List.range' 0 m).map (fun e => (({ place := .sp (c.dst.toNat + e), b := f e, m := 0xFF, idx := rowIdx e } : OutByte),
        Reach.sp c.unit_ (c.dst.toNat + e))) := by
    rw [Copy.rowBytes, List.map_map]
    exact List.map_congr_left fun e he => by simp only [Function.comp_apply]; rw [hreach e he]
  have hends : ((List.range' 0 m).map (fun e => (({ place := .sp (c.dst.toNat + e), b := f e, m := 0xFF, idx := rowIdx e } : OutByte),
      Reach.sp c.unit_ (c.dst.toNat + e)))).map (fun (e : OutByte × Reach) => e.2) =
      ((List.range' 0 m).map (c.dst.toNat + ·)).map (Reach.sp c.unit_) := by
    rw [List.map_map, List.map_map]
    rfl
  rw [State.writeChunk]
  dsimp only
  rw [hrs, hends, stopOf_sp, absentOf_sp, any_walking_sp, any_far_sp, hlog, State.noteReaches_sp, List.foldl_map]
  refine ⟨_, congrArg (fun t : State => t.putCopy n _) (List.foldl_ext _ _ _ fun t e he => ?_), ?_, hcode⟩
  · dsimp only
    rw [h.overlapped (by have := lt_of_mem_row he; omega)]
    rfl
  · simp [h.moved]

/-- The chunk of a row: read, and written (R71). -/
theorem copyChunk_row (hc : Tab.find? s.fab.copies n = some c) (hr : c.running = true) (hx : c.cancel = false) (hcode : c.code = none)
    (hlog : s.copyLogged n = false) : ∃ x : Copy, exec (.copyChunk n .clean) s =
      .next ((s.writeRow n c (fun e => s.homeByte (spadBase c.unit_ + c.src.toNat + e)) m).putCopy n x) ∧
      x.moved = m ∧ x.code = none := by
  have hrs : ((List.range' 0 m).map (fun e => ((0 : Nat), [Reach.sp c.unit_ (c.src.toNat + e)]))).flatMap (fun e => e.2) =
      ((List.range' 0 m).map (c.src.toNat + ·)).map (Reach.sp c.unit_) := by
    rw [List.flatMap_map, List.map_map]
    exact List.flatMap_pure_eq_map _ _
  show ∃ x : Copy, execCopyChunk n .clean s = _ ∧ _
  rw [execCopyChunk, hc]
  dsimp only
  rw [if_neg (ne_true_of_eq_false (h.goes s hr hx hcode)), h.chunk, h.places, ho.reads, hrs, stopOf_sp, absentOf_sp, any_walking_sp,
    any_far_sp, touchedBy_sp, State.noteReaches_sp, State.engineReads_sp]
  simp only [Bool.false_eq_true, if_false]
  obtain ⟨c', hc'⟩ : ∃ c' : Copy, c' = { c with
      sgen := c.sourceGen ((List.range' 0 m).map (fun e => (0, [Place.sp (c.src.toNat + e)])))
        ((List.range' 0 m).map (fun e => (0, [Reach.sp c.unit_ (c.src.toNat + e)]))) } := ⟨_, rfl⟩
  rw [← hc']
  have h' : c'.Row m := hc' ▸ h.withSgen _
  have ho' : c'.Owns s n m := hc' ▸ ho
  have hpart : c'.part = c.part := hc' ▸ rfl
  have hdst : c'.dst = c.dst := hc' ▸ rfl
  have hunit : c'.unit_ = c.unit_ := hc' ▸ rfl
  have hcode' : c'.code = none := hc' ▸ hcode
  have hcodes := h'.converts (fun (e : Nat × List Reach) => leVal (e.2.zipIdx.map (fun r => s.engineByte c.part [] r.1 r.2)) / 2 ^ e.1 %
    2 ^ c'.srcSide.fmt.bits) ((List.range' 0 m).zip ((List.range' 0 m).map (fun e => (0, [Reach.sp c.unit_ (c.src.toNat + e)])))) ([], c.x)
  dsimp only at hcodes
  have houts := h'.outs s (o := c.src.toNat) hpart
  obtain ⟨x, hw, hmoved, hx'⟩ := State.writeChunk_row h' ho' (fun e => s.homeByte (spadBase c.unit_ + c.src.toNat + e)) c.x hlog hcode'
  refine ⟨x, ?_, hmoved, hx'⟩
  rw [hunit] at houts
  rw [hcodes, List.nil_append, h.idxs, houts]
  refine congrArg Host.Outcome.next (hw.trans ?_)
  rw [State.writeRow, State.writeRow, hpart, hdst, hunit]

end

end Sys2Proof.Machine
end

section
/-! PROOF. A copy's completion (R65, R72 to R74): its handle is done, and the plots bound to it and the peer plots that it touched
return to the unit side. -/
namespace Sys2Proof.Machine

/-! ### Tables in key order that lose entries -/

theorem Tab.find?_above {α : Type} {n : Nat} : ∀ {t : Tab α} {lo : Nat}, Tab.above lo t = true → n < lo → Tab.find? t n = none := by
  intro t
  induction t with
  | nil => intros; rfl
  | cons e t ih =>
    obtain ⟨k, v⟩ := e
    intro lo ht hn
    simp only [Tab.above, Bool.and_eq_true, decide_eq_true_eq] at ht
    rw [Tab.find?, if_neg (by omega)]
    exact ih ht.2 (by omega)

/-- A table in key order, filtered. -/
theorem Tab.find?_filter {α : Type} (p : Nat × α → Bool) (n : Nat) : ∀ {t : Tab α} {lo : Nat}, Tab.above lo t = true →
    Tab.find? (t.filter p) n = (Tab.find? t n).filter (fun v => p (n, v)) := by
  intro t
  induction t with
  | nil => intros; rfl
  | cons e t ih =>
    obtain ⟨k, v⟩ := e
    intro lo ht
    simp only [Tab.above, Bool.and_eq_true, decide_eq_true_eq] at ht
    have ht' := ih ht.2
    by_cases hk : k = n
    · subst hk
      have hrest := Tab.find?_above (n := k) ht.2 (by omega)
      rw [hrest] at ht'
      by_cases hp : p (k, v) = true
      · simp [Tab.find?, hp, Option.filter]
      · simp [Tab.find?, hp, ht', Option.filter]
    · by_cases hp : p (k, v) = true
      · simp [Tab.find?, hp, hk, ht']
      · simp [Tab.find?, hp, hk, ht']

theorem Tab.sorted_set {α : Type} [DecidableEq α] (d : α) {t : Tab α} (n : Nat) (v : α) (h : Tab.sorted t = true) :
    Tab.sorted (Tab.set d t n v) = true := by
  rw [Tab.sorted_iff] at *
  unfold Tab.set
  split
  · rw [Tab.erase_eq_filter]
    exact Tab.above_filter _ h
  · exact Tab.above_put _ _ (Nat.zero_le n) h

/-! ### Plots that return (R65, R74) -/

/-- A plot on unit side, or bound to the operation, is on unit side once the operation's plots return. -/
theorem UnitSt.plot_unbindOp {x : UnitSt} {q op : Nat} (hs : Tab.sorted x.plots = true)
    (h : x.plot q = {} ∨ (x.plot q).bound = some op) : (x.unbindOp op).plot q = {} := by
  rw [Tab.sorted_iff] at hs
  have hf : Tab.find? (x.unbindOp op).plots q = (Tab.find? x.plots q).filter (fun v => v.bound != some op) :=
    Tab.find?_filter _ q hs
  rw [UnitSt.plot, Tab.get] at h ⊢
  rw [hf]
  cases hq : Tab.find? x.plots q with
  | none => rfl
  | some v =>
    rw [hq] at h
    rcases h with h | h
    · have hv : v = {} := h
      subst hv
      rfl
    · have hv : v.bound = some op := h
      simp [Option.filter, hv]

theorem State.unit_updGroup (s : State) (g : Nat) (f : UnitSt → UnitSt) (u : Nat) :
    (s.updGroup g f).unit u = if u = g ∧ g < savedBase then f (s.unit g) else s.unit u := by
  unfold State.updGroup
  by_cases hg : g < savedBase
  · rw [if_pos hg]
    by_cases hu : u = g
    · subst hu; rw [State.putUnit_unit_self, if_pos ⟨rfl, hg⟩]
    · rw [State.putUnit_unit_ne _ _ hu, if_neg (fun h => hu h.1)]
  · rw [if_neg hg, if_neg (fun h : u = g ∧ g < savedBase => hg h.2)]
    split <;> rfl

theorem State.updGroup_rest (s : State) (g : Nat) (f : UnitSt → UnitSt) :
    (s.updGroup g f).mem = s.mem ∧ (s.updGroup g f).agents = s.agents ∧ (s.updGroup g f).fab = s.fab := by
  unfold State.updGroup
  split
  · exact ⟨rfl, rfl, rfl⟩
  · split <;> exact ⟨rfl, rfl, rfl⟩

/-- The peer plots that a copy touched flip back (R74). -/
def State.clearPlots (s : State) (ps : List Nat) : State := ps.foldl (fun t p => t.updGroup (p / 256) (fun x => x.setPlot (p % 256) {})) s

theorem State.clearPlots_rest (ps : List Nat) : ∀ s : State,
    (s.clearPlots ps).mem = s.mem ∧ (s.clearPlots ps).agents = s.agents ∧ (s.clearPlots ps).fab = s.fab := by
  induction ps with
  | nil => intro s; exact ⟨rfl, rfl, rfl⟩
  | cons p ps ih =>
    intro s
    obtain ⟨hm, ha, hf⟩ := s.updGroup_rest (p / 256) (fun x => x.setPlot (p % 256) {})
    obtain ⟨hm', ha', hf'⟩ := ih (s.updGroup (p / 256) (fun x => x.setPlot (p % 256) {}))
    exact ⟨hm'.trans hm, ha'.trans ha, hf'.trans hf⟩

theorem State.clearPlots_sorted (u : Nat) (ps : List Nat) : ∀ s : State, Tab.sorted (s.unit u).plots = true →
    Tab.sorted ((s.clearPlots ps).unit u).plots = true := by
  induction ps with
  | nil => intro s h; exact h
  | cons p ps ih =>
    intro s h
    refine ih _ ?_
    dsimp only
    rw [State.unit_updGroup]
    split
    · rename_i hu
      rw [← hu.1]
      exact Tab.sorted_set {} (p % 256) {} h
    · exact h

/-- A plot is cleared, or as it was. -/
theorem State.clearPlots_plot (u q : Nat) (ps : List Nat) : ∀ s : State, ((s.clearPlots ps).unit u).plot q =
    if u < savedBase ∧ ∃ p ∈ ps, p / 256 = u ∧ p % 256 = q then {} else (s.unit u).plot q := by
  induction ps with
  | nil => intro s; simp [State.clearPlots]
  | cons p ps ih =>
    intro s
    have hstep : ((s.updGroup (p / 256) (fun x => x.setPlot (p % 256) {})).unit u).plot q =
        if u < savedBase ∧ p / 256 = u ∧ p % 256 = q then {} else (s.unit u).plot q := by
      rw [State.unit_updGroup]
      by_cases hu : u = p / 256 ∧ p / 256 < savedBase
      · obtain ⟨rfl, hlt⟩ := hu
        rw [if_pos ⟨rfl, hlt⟩, UnitSt.plot_setPlot]
        by_cases hq : q = p % 256
        · rw [if_pos hq, if_pos ⟨hlt, rfl, hq.symm⟩]
        · rw [if_neg hq, if_neg (fun h => hq h.2.2.symm)]
      · rw [if_neg hu, if_neg (fun h : u < savedBase ∧ p / 256 = u ∧ p % 256 = q => hu ⟨h.2.1.symm, h.2.1 ▸ h.1⟩)]
    refine (ih _).trans ?_
    dsimp only
    rw [hstep]
    by_cases hlt : u < savedBase <;> by_cases h1 : ∃ p ∈ ps, p / 256 = u ∧ p % 256 = q <;>
      by_cases h2 : p / 256 = u ∧ p % 256 = q <;> simp [hlt, h1, h2]

/-! ### The end of an operation (R72) -/

theorem State.unit_finishOp (s : State) (op : Nat) (st : DWord) (ws : List Word) (u : Nat) :
    (s.finishOp op st ws).unit u = (s.unit u).unbindOp op := by
  have h : Tab.find? (s.finishOp op st ws).units u = (Tab.find? s.units u).map (fun x => x.unbindOp op) :=
    Tab.find?_map_val (fun _ (x : UnitSt) => x.unbindOp op) s.units u
  rw [State.unit, State.unit, Tab.get, Tab.get, h]
  cases Tab.find? s.units u <;> rfl

theorem State.agent?_finishOp (s : State) (op : Nat) (st : DWord) (ws : List Word) (i : Nat) :
    (s.finishOp op st ws).agent? i = (s.agent? i).map (fun x => x.finishOp op st ws) :=
  Tab.find?_map_val (fun _ (x : Agent) => x.finishOp op st ws) s.agents i

/-- The handle of the operation is done. -/
theorem Agent.finishOp_pending {x : Agent} {op h : Nat} {e : Handle} (he : Tab.find? x.h h = some e) (hp : e.st = .pending)
    (ho : e.op = op) (st : DWord) (ws : List Word) :
    Tab.find? (x.finishOp op st ws).h h = some { st := .done, status := st, op := 0, stat := ws } := by
  have hmap : (x.finishOp op st ws).h = x.h.map (fun e => (e.1, if e.2.st = .pending ∧ e.2.op = op then
      ({ st := .done, status := st, op := 0, stat := ws } : Handle) else e.2)) := by
    refine List.map_congr_left fun e _ => ?_
    split <;> rfl
  rw [hmap, Tab.find?_map_val (fun _ (e : Handle) => if e.st = .pending ∧ e.op = op then
      ({ st := .done, status := st, op := 0, stat := ws } : Handle) else e), he, Option.map_some, if_pos ⟨hp, ho⟩]

/-- The package before the copy's end reaches its handle: peer plots cleared, the copy gone from its queue and from the faults. -/
def State.dropCopy (s : State) (n : Nat) (c : Copy) : State :=
  let s := s.clearPlots c.touched
  let s := s.putUnit c.unit_ { s.unit c.unit_ with slogQ := (s.unit c.unit_).slogQ.filter (fun a => a != copyAsker n) }
  { s with
    fab := { s.fab with copies := Tab.erase s.fab.copies n },
    ms := { s.ms with faults := s.ms.faults.map (fun (f : FaultRec) => { f with copies := f.copies.filter (fun k => k != n) }) } }

theorem State.unit_dropCopy (s : State) (n : Nat) (c : Copy) (u : Nat) :
    ((s.dropCopy n c).unit u).plots = ((s.clearPlots c.touched).unit u).plots := by
  show (((s.clearPlots c.touched).putUnit c.unit_ { (s.clearPlots c.touched).unit c.unit_ with
    slogQ := ((s.clearPlots c.touched).unit c.unit_).slogQ.filter (fun a => a != copyAsker n) }).unit u).plots = _
  by_cases hu : u = c.unit_
  · subst hu; rw [State.putUnit_unit_self]
  · rw [State.putUnit_unit_ne _ _ hu]

theorem copyCompletion_of {s : State} {n : Nat} {c : Copy} (hc : Tab.find? s.fab.copies n = some c) (hr : c.running = true)
    (hl : s.copyLogged n = false) (hend : c.code.isSome = true ∨ c.total ≤ c.moved) :
    exec (.copyCompletion n) s = .next ((s.dropCopy n c).finishOp n (hStatus c.endCode c.moved) []) := by
  have hgo : ¬(!c.running || !(c.code.isSome || c.cancel || decide (c.total ≤ c.moved)) || s.copyLogged n) = true := by
    rw [hr, hl]
    rcases hend with h | h
    · simp [h]
    · simp [h]
  show execCopyCompletion n s = _
  rw [execCopyCompletion, hc]
  dsimp only
  rw [if_neg hgo]
  rfl

/-- A plot that the copy holds, or has touched, is on unit side once it has completed (R65, R74). -/
theorem State.plot_copyDone (s : State) (n : Nat) (c : Copy) (st : DWord) {u q : Nat} (hs : Tab.sorted (s.unit u).plots = true)
    (h : ((s.unit u).plot q).bound = some n ∨ u < savedBase ∧ ∃ p ∈ c.touched, p / 256 = u ∧ p % 256 = q) :
    (((s.dropCopy n c).finishOp n st []).unit u).plot q = { engine := false, bound := none } := by
  have hp : ((s.dropCopy n c).unit u).plot q = ((s.clearPlots c.touched).unit u).plot q :=
    congrArg (fun t : Tab Plot => Tab.get ({} : Plot) t q) (s.unit_dropCopy n c u)
  rw [State.unit_finishOp]
  refine UnitSt.plot_unbindOp (by rw [State.unit_dropCopy]; exact State.clearPlots_sorted u _ _ hs) ?_
  rw [hp, State.clearPlots_plot]
  split
  · exact .inl rfl
  · exact .inr (h.resolve_right ‹_›)

end Sys2Proof.Machine

namespace Sys2Proof.Settled
open Sys2Proof.Machine

/-- Settles O45: CPY by what its block is, then the three events of a copy. -/
theorem copies : Obligations.Copies := by
  refine ⟨fun s id ag g d a p hm hh hi hp => ?_, fun s n c hc => ⟨fun hr hn hb => copyStart_of hc hr hn hb, ?_, ?_⟩⟩
  · subst hp
    refine ⟨fun h => cpy_misplaced hm hh hi h, fun ha hs he hb hd => ⟨fun hc => cpy_malformed hm hh hi ha hs he hb hd hc,
      fun c hc hplots hq hr => ?_⟩⟩
    obtain ⟨hrun, hmoved⟩ := parseCopy_fresh hc
    refine ⟨_, c.queued s id ag d.toNat, cpy_queues hm hh hi ha hs he hb hd hc (UnitSt.notFree_none hplots) hq hr, rfl,
      Tab.find?_put_self _ _ _, rfl, rfl, rfl, rfl, hrun, hmoved, rfl, rfl, rfl, rfl, rfl, fun q hq => ?_⟩
    show ((s.putUnit ag.unit ((s.unit ag.unit).bindPlots c.plots s.fab.nextOp)).unit ag.unit).plot q = _
    rw [State.putUnit_unit_self, UnitSt.plot_bindPlots, if_pos hq]
  · intro m o hr hx hcode hsk hdk hf hi8 _ hss hds hext hmoved hpos _ hline _ _ hapart hlog howns
    have hrow : c.Row m := ⟨hsk, hdk, hf, hi8, hss, hds, hext, hmoved, hpos, hline, hapart⟩
    obtain ⟨x, hexec, hxm, hxc⟩ := copyChunk_row hrow howns hc hr hx hcode hlog
    refine ⟨_, x, hexec, Tab.find?_put_self _ _ _, hxm, hxc, fun ho => ?_, fun q hq => ?_⟩
    · refine (State.homeByte_writeRow ..).trans ?_
      rw [if_pos ⟨by omega, by omega⟩]
      exact congrArg s.homeByte (by omega)
    · refine (State.homeByte_writeRow ..).trans ?_
      rw [if_neg (by omega)]
  · intro k hr hlog hend
    have hgo : c.code.isSome = true ∨ c.total ≤ c.moved := by
      rcases hend with h | ⟨-, -, -, h, -⟩
      · exact .inl (by rw [h]; rfl)
      · exact .inr h
    have hk : c.endCode = k := by
      rcases hend with h | ⟨h, hx, hme, -, hk⟩
      · rw [Copy.endCode, h]
      · rw [Copy.endCode, h, hx, hme, hk]
        rfl
    obtain ⟨hm, ha, hf⟩ := State.clearPlots_rest c.touched s
    refine ⟨_, copyCompletion_of hc hr hlog hgo, Tab.find?_erase_self _ _, hm, fun i x h e hi he hp ho => ?_,
      fun u q hs hb => s.plot_copyDone n c _ hs (.inl hb), fun p hp hlt hs => s.plot_copyDone n c _ hs (.inr ⟨hlt, p, hp, rfl, rfl⟩)⟩
    have hag : (s.dropCopy n c).agent? i = some x := (congrArg (fun t : Tab Agent => Tab.find? t i) ha).trans hi
    rw [State.agent?_finishOp, hag, hk]
    exact ⟨_, rfl, Agent.finishOp_pending he hp ho _ _⟩

end Sys2Proof.Settled
end

section
/-! PROOF. Window traffic that is delivered (R228, R229, R245, R249, R251, R253): off the package as a flit of its path's link, here at the
peer's scratchpad, where its arrival is counted. -/
namespace Sys2Proof.Machine

/-! ### Flits off the package (R245, R251) -/

/-- A flit goes out on the link that its path takes. -/
theorem State.sendFlit_unacked {s : State} {path l : Nat} (h : s.routeOf path = some l) :
    ((s.sendFlit path).link l).unacked = (s.link l).unacked ++ [((s.link l).seq, 0)] := by
  rw [State.sendFlit, h]
  exact congrArg RingLink.unacked (Tab.get_put_self _ _ _ _)

/-- A path whose station and link are up. -/
theorem State.routeOf_own {s : State} {path : Nat} (h : s.stationUp path = true) (hl : (s.link path).down = false) :
    s.routeOf path = some path := by
  show (if _ then _ else if (!(s.link _).down) = true then _ else if _ then _ else _) = _
  rw [if_pos h, h, hl]
  rfl

/-- A path whose link is gone goes round in the other direction. -/
theorem State.routeOf_around {s : State} {path : Nat} (h : s.stationUp path = true) (hl : (s.link path).down = true)
    (hr : (s.link (path ^^^ 1)).down = false) : s.routeOf path = some (path ^^^ 1) := by
  show (if _ then _ else if (!(s.link _).down) = true then _ else if (!(s.link _).down) = true then _ else _) = _
  rw [if_pos h, h, hl, hr]
  rfl

/-- A path whose station is gone goes by the other one. -/
theorem State.routeOf_across {s : State} {path : Nat} (h : s.stationUp path = false) (ho : s.stationUp (path ^^^ 2) = true)
    (hl : (s.link (path ^^^ 2)).down = false) : s.routeOf path = some (path ^^^ 2) := by
  show (if _ then _ else if (!(s.link _).down) = true then _ else if _ then _ else _) = _
  rw [if_neg (ne_true_of_eq_false h), ho, hl]
  rfl

/-! ### Bytes that land (R229) -/

@[simp] theorem State.wakeSp_homeByte (s : State) (u off n q : Nat) : (s.wakeSp u off n).homeByte q = s.homeByte q := rfl

theorem State.land_rest (s : State) (u o off : Nat) (bytes : List (Nat × Byte)) (k : PostKind) :
    (s.land u o off bytes k).fab = s.fab ∧ (s.land u o off bytes k).plat = s.plat := by
  cases k with
  | data =>
    have h : ∀ (bs : List (Nat × Byte)) (t : State),
        (bs.foldl (fun t e => (t.setHome (spadBase u + o + (e.1 - off)) e.2).wakeSp u (o + (e.1 - off)) 1) t).fab = t.fab ∧
        (bs.foldl (fun t e => (t.setHome (spadBase u + o + (e.1 - off)) e.2).wakeSp u (o + (e.1 - off)) 1) t).plat = t.plat := by
      intro bs
      induction bs with
      | nil => exact fun _ => ⟨rfl, rfl⟩
      | cons b bs ih => exact fun t => ih _
    exact h bytes s
  | flag v n add carry =>
    have h : ∀ (bs : List Byte) (t : State) (a : Nat), (t.spadWrite u a bs).fab = t.fab ∧ (t.spadWrite u a bs).plat = t.plat := by
      intro bs
      induction bs with
      | nil => exact fun _ _ => ⟨rfl, rfl⟩
      | cons b bs ih => exact fun t a => ih (t.setHome (spadBase u + a) b) (a + 1)
    exact h _ s o

/-- A data write leaves what it does not name. -/
theorem State.homeByte_landData_ne (u o off q : Nat) (bs : List (Nat × Byte)) : ∀ s : State,
    (∀ x ∈ bs, q ≠ spadBase u + o + (x.1 - off)) → (s.land u o off bs .data).homeByte q = s.homeByte q := by
  induction bs with
  | nil => exact fun _ _ => rfl
  | cons b bs ih =>
    intro s h
    refine (ih ((s.setHome (spadBase u + o + (b.1 - off)) b.2).wakeSp u (o + (b.1 - off)) 1) fun x hx =>
      h x (List.mem_cons_of_mem _ hx)).trans ?_
    rw [State.wakeSp_homeByte, State.homeByte_setHome_ne _ _ (h b List.mem_cons_self)]

/-- The bytes of a data write stand where they land; each offset is named once. -/
theorem State.homeByte_landData (u o off : Nat) (bs : List (Nat × Byte)) : ∀ s : State, (bs.map (fun x => x.1)).Nodup →
    (∀ x ∈ bs, off ≤ x.1) → ∀ x ∈ bs, (s.land u o off bs .data).homeByte (spadBase u + o + (x.1 - off)) = x.2 := by
  induction bs with
  | nil => exact fun _ _ _ _ hx => absurd hx List.not_mem_nil
  | cons b bs ih =>
    intro s hn hoff x hx
    rw [List.map_cons, List.nodup_cons] at hn
    rcases List.mem_cons.mp hx with rfl | hx
    · refine (State.homeByte_landData_ne u o off _ bs
        ((s.setHome (spadBase u + o + (x.1 - off)) x.2).wakeSp u (o + (x.1 - off)) 1) fun y hy hq => hn.1 ?_).trans ?_
      · have h1 := hoff x List.mem_cons_self
        have h2 := hoff y (List.mem_cons_of_mem _ hy)
        rw [show x.1 = y.1 by omega]
        exact List.mem_map_of_mem hy
      · rw [State.wakeSp_homeByte, State.homeByte_setHome_self]
    · exact ih ((s.setHome (spadBase u + o + (b.1 - off)) b.2).wakeSp u (o + (b.1 - off)) 1) hn.2
        (fun y hy => hoff y (List.mem_cons_of_mem _ hy)) x hx

/-- A flag's word stands where it lands, written or added (R229). -/
theorem State.spadRead_landFlag (s : State) (u o off m : Nat) (v : DWord) (add : Bool) (carry : List Nat) (bs : List (Nat × Byte)) :
    (s.land u o off bs (.flag v m add carry)).spadRead u o m = leBytes m (if add then s.spWord u o m + v else v).toNat := by
  have h := State.spadRead_spadWrite s u o (leBytes m (if add then s.spWord u o m + v else v).toNat)
  rw [leBytes_length] at h
  exact h

theorem State.homeByte_landFlag_ne (s : State) {u o off m q : Nat} {v : DWord} {add : Bool} {carry : List Nat} {bs : List (Nat × Byte)}
    (hq : q < spadBase u + o ∨ spadBase u + o + m ≤ q) :
    (s.land u o off bs (.flag v m add carry)).homeByte q = s.homeByte q := by
  refine State.homeByte_spadWrite_ne u _ s o q fun i hi => ?_
  rw [leBytes_length] at hi
  omega

/-! ### WINDOW_DELIVER (R228) -/

/-- The package once a write has landed: its bytes, the arrival counted, and the entry delivered. -/
def State.landed (s : State) (n : Nat) (e : Posted) (b : Binding) (u o : Nat) : State :=
  let t := s.land u o e.off e.bytes e.kind
  let t := { t with fab := { t.fab with binds := Tab.put t.fab.binds e.bind (b.count e.src e.path) } }
  t.putPosted n { e with delivered := true, by_ := some (unitDie u, (t.die (unitDie u)).inc) }

section
variable {s : State} {n : Nat} {e : Posted} {b : Binding} (he : Tab.find? s.fab.posted n = some e) (hd : e.delivered = false)
  (hb : Tab.find? s.fab.binds e.bind = some b)
include he hd hb

/-- A write to another package. -/
theorem windowDeliver_away (h : b.dstPkg ≠ s.plat.pkg.toNat) : exec (.windowDeliver n) s =
    .next ((s.sendFlit e.path).putPosted n { e with delivered := true, ok := !s.noRoute }) := by
  show execWindowDeliver n s = _
  rw [execWindowDeliver, he]
  dsimp only
  rw [if_neg (ne_true_of_eq_false hd), hb]
  dsimp only
  rw [if_pos h]

variable (hh : b.dstPkg = s.plat.pkg.toNat)
include hh

/-- A flag whose carried counts are not reached waits (R229). -/
theorem windowDeliver_early (hr : b.ready e.src e.kind = false) : exec (.windowDeliver n) s = .next s := by
  show execWindowDeliver n s = _
  rw [execWindowDeliver, he]
  dsimp only
  rw [if_neg (ne_true_of_eq_false hd), hb]
  dsimp only
  rw [if_neg (not_not_intro hh), hr]
  rfl

theorem windowDeliver_lands {u o : Nat} (hr : b.ready e.src e.kind = true)
    (hl : s.landing b e.off e.len (landOffs e.off e.bytes e.kind) = some (u, o)) :
    exec (.windowDeliver n) s = .next (s.landed n e b u o) := by
  show execWindowDeliver n s = _
  rw [execWindowDeliver, he]
  dsimp only
  rw [if_neg (ne_true_of_eq_false hd), hb]
  dsimp only
  rw [if_neg (not_not_intro hh), hr, hl]
  rfl

theorem windowDeliver_fails (hr : b.ready e.src e.kind = true)
    (hl : s.landing b e.off e.len (landOffs e.off e.bytes e.kind) = none) : exec (.windowDeliver n) s =
    .next ((s.putPosted n { e with delivered := true, ok := false }).inboundError (s.bindPart b)) := by
  show execWindowDeliver n s = _
  rw [execWindowDeliver, he]
  dsimp only
  rw [if_neg (ne_true_of_eq_false hd), hb]
  dsimp only
  rw [if_neg (not_not_intro hh), hr, hl]
  rfl

end

/-- A write that has landed is delivered, by its peer's die (R228, R356). -/
theorem State.landed_posted (s : State) (n : Nat) (e : Posted) (b : Binding) (u o : Nat) :
    Tab.find? (s.landed n e b u o).fab.posted n =
      some { e with delivered := true, by_ := some (unitDie u, (s.die (unitDie u)).inc) } := by
  refine (Tab.find?_put_self _ _ _).trans ?_
  show some { e with delivered := true, by_ := some (unitDie u, (Tab.get ({} : Die) (s.land u o e.off e.bytes e.kind).plat.dies (unitDie u)).inc) } = _
  rw [(s.land_rest u o e.off e.bytes e.kind).2]
  rfl

/-- Its arrival is counted on its path, and on no other (R228). -/
theorem State.landed_counted (s : State) (n : Nat) (e : Posted) (b : Binding) (u o : Nat) :
    ∃ x, Tab.find? (s.landed n e b u o).fab.binds e.bind = some x ∧ Tab.get 0 x.arr (4 * e.src + e.path) =
      (Tab.get 0 b.arr (4 * e.src + e.path) + 1) % 65536 ∧
      ∀ k, k ≠ 4 * e.src + e.path → Tab.get 0 x.arr k = Tab.get 0 b.arr k :=
  ⟨b.count e.src e.path, Tab.find?_put_self _ _ _, Tab.get_set_self _ _ _ _, fun _ hk => Tab.get_set_ne _ _ _ hk⟩

/-- A data write's bytes stand where they land, and nothing else changes (R228). -/
theorem State.landed_data (s : State) (n : Nat) {e : Posted} (b : Binding) (u o : Nat) (hk : e.kind = .data)
    (hn : (e.bytes.map (fun x => x.1)).Nodup) (ho : ∀ x ∈ e.bytes, e.off ≤ x.1) :
    (∀ x ∈ e.bytes, (s.landed n e b u o).homeByte (spadBase u + o + (x.1 - e.off)) = x.2) ∧
    ∀ q, (∀ x ∈ e.bytes, q ≠ spadBase u + o + (x.1 - e.off)) → (s.landed n e b u o).homeByte q = s.homeByte q := by
  have h : ∀ q, (s.landed n e b u o).homeByte q = (s.land u o e.off e.bytes .data).homeByte q := fun q => by rw [← hk]; rfl
  exact ⟨fun x hx => (h _).trans (State.homeByte_landData u o e.off e.bytes s hn ho x hx),
    fun q hq => (h q).trans (State.homeByte_landData_ne u o e.off q e.bytes s hq)⟩

/-- A flag's word stands where it lands, and nothing else changes (R229). -/
theorem State.landed_flag (s : State) (n : Nat) {e : Posted} (b : Binding) (u o : Nat) {v : DWord} {m : Nat} {add : Bool}
    {carry : List Nat} (hk : e.kind = .flag v m add carry) :
    (s.landed n e b u o).spadRead u o m = leBytes m (if add then s.spWord u o m + v else v).toNat ∧
    ∀ q, q < spadBase u + o ∨ spadBase u + o + m ≤ q → (s.landed n e b u o).homeByte q = s.homeByte q := by
  refine ⟨?_, fun q hq => ?_⟩
  · rw [show (s.landed n e b u o).spadRead u o m = (s.land u o e.off e.bytes e.kind).spadRead u o m from rfl, hk]
    exact s.spadRead_landFlag u o e.off m v add carry e.bytes
  · rw [show (s.landed n e b u o).homeByte q = (s.land u o e.off e.bytes e.kind).homeByte q from rfl, hk]
    exact s.homeByte_landFlag_ne hq

/-- The counts that a flag carries, path by path (R229). -/
theorem Binding.reached_iff (b : Binding) (src : Nat) (carry : List Nat) : b.reached src carry = true ↔
    ∀ p, p < 4 → (Tab.get 0 b.arr (4 * src + p) + 65536 - carry.getD p 0) % 65536 < 32768 := by
  have hn : ∀ p, nth 0 carry p = carry.getD p 0 := fun p => (List.getD_eq_getElem?_getD ..).symm
  simp [Binding.reached, List.all_eq_true, hn]

/-! ### Errors at the peer (R253) -/

theorem State.recordRs_hostQ (s : State) (part : Nat) (e : ErrRec) :
    (s.recordRs part e).plat.hostQ = s.plat.hostQ ++ [.record e.kind] := by
  unfold State.recordRs
  extract_lets key count _ t u
  have h : u.plat = t.plat := (State.ringAppend_rest _ _ _ _).1
  show u.plat.hostQ ++ _ = _
  rw [h]

theorem State.still_fab {s t : State} (h : t.still = s.still) : t.fab = s.fab := (congrArg (fun s : State => s.fab) h :)

theorem State.inboundError_fab (s : State) (part : Nat) : (s.inboundError part).fab = s.fab :=
  State.still_fab (State.recordRs_still ({ s with free := s.free + 1 } : State) part _)

theorem State.inboundError_hostQ (s : State) (part : Nat) : ∃ k, (s.inboundError part).plat.hostQ = s.plat.hostQ ++ [.record k, .inbound] :=
  ⟨_, (congrArg (· ++ [HostEvent.inbound]) (State.recordRs_hostQ ({ s with free := s.free + 1 } : State) part _)).trans
    (List.append_assoc ..)⟩

end Sys2Proof.Machine
end

section
/-! PROOF. Acknowledgements, timeouts and reissues of window traffic (R228, R243, R244, R246, R250, R356), and the responses to loads
homed on another package (R143, R242, R253). -/
namespace Sys2Proof.Machine

/-! ### The source's side of an acknowledgement (R246) -/

theorem UnitSt.win_putWin (x : UnitSt) (w : Nat) (v : Window) : (x.putWin w v).win w = v := Tab.get_put_self _ _ _ _

theorem State.giveUnit_rest (s : State) (e : Posted) :
    (s.giveUnit e).mem = s.mem ∧ (s.giveUnit e).agents = s.agents ∧ (s.giveUnit e).fab = s.fab :=
  s.updGroup_rest e.unit_ _

/-- The unit of the allowance that a write of a running group held returns. -/
theorem State.giveUnit_used (s : State) {e : Posted} (hu : e.unit_ < 2 ^ 20) :
    (((s.giveUnit e).unit e.unit_).win e.win).used = ((s.unit e.unit_).win e.win).used - 1 := by
  rw [State.giveUnit, State.unit_updGroup, if_pos ⟨rfl, hu⟩]
  dsimp only
  rw [UnitSt.win_putWin]

/-- A write that is no part of a WSIG and has failed leaves `rerr` with its agent. -/
theorem State.ackPosted_failed {s : State} {e : Posted} {ag : Agent} (hw : e.wsig = none) (ha : s.agent? e.agent = some ag) :
    s.ackPosted e false =
      (s.giveUnit e).putAgent e.agent { ag with rstat := ag.rstat ||| rsRerr, unrep := true } := by
  have h : (s.giveUnit e).agent? e.agent = some ag := by
    rw [← ha]
    exact congrArg (Tab.find? · e.agent) (s.giveUnit_rest e).2.1
  unfold State.ackPosted
  rw [hw]
  dsimp only
  rw [if_neg Bool.false_ne_true, State.updAny, h]
  simp only [Option.isNone_none, Bool.or_true, Agent.orStat]

/-- What a failed write leaves: its allowance's unit returned, `rerr` with its agent, and the fabric's tables. -/
theorem State.ackPosted_failed_spec {s : State} {e : Posted} {ag : Agent} (hw : e.wsig = none) (ha : s.agent? e.agent = some ag)
    (hu : e.unit_ < 2 ^ 20) : (s.ackPosted e false).fab = s.fab ∧
      (((s.ackPosted e false).unit e.unit_).win e.win).used = ((s.unit e.unit_).win e.win).used - 1 ∧
      (s.ackPosted e false).agent? e.agent = some { ag with rstat := ag.rstat ||| rsRerr, unrep := true } := by
  rw [State.ackPosted_failed hw ha]
  exact ⟨(s.giveUnit_rest e).2.2, s.giveUnit_used hu, State.putAgent_agent?_self _ _ _⟩

theorem State.ackPosted_ok {s : State} {e : Posted} (hw : e.wsig = none) : s.ackPosted e true = s.giveUnit e := by
  unfold State.ackPosted
  rw [hw]
  rfl

/-! ### WINDOW_ACK, WINDOW_TIMEOUT and REQUEST_REISSUE (R228, R244, R246, R250, R356) -/

/-- The package without a posted entry. -/
def State.dropPosted (s : State) (n : Nat) : State := { s with fab := { s.fab with posted := Tab.erase s.fab.posted n } }

section
variable {s : State} {n : Nat} {e : Posted} (he : Tab.find? s.fab.posted n = some e) (hk : e.acked = false)
include he hk

section
variable (hd : e.delivered = true) (hr : e.lostRsp = false)
include hd hr

/-- An acknowledgement of an old incarnation is dropped (R356). -/
theorem windowAck_stale (ok : Bool) (h : s.staleAck e = true) : exec (.windowAck n ok) s =
    .next { s.putPosted n { e with lostRsp := true } with rot := { s.rot with incDrop := s.rot.incDrop + 1 } } := by
  show execWindowAck n ok s = _
  rw [execWindowAck, he]
  dsimp only
  rw [if_neg (by simp [hd, hr]), if_pos (by simp [hk, h])]

/-- One that is late tells the source that its write has failed. -/
theorem windowAck_late (ok : Bool) (h : s.staleAck e = false) (hl : s.postedLate e = true) :
    exec (.windowAck n ok) s = .next ((s.dropPosted n).ackPosted e false) := by
  show execWindowAck n ok s = _
  rw [execWindowAck, he]
  dsimp only
  rw [if_neg (by simp [hd, hr]), if_neg (by simp [h]), if_neg (ne_true_of_eq_false hk), hl]
  rfl

/-- One in time of a write that landed at a peer of this package. -/
theorem windowAck_here (h : s.staleAck e = false) (hl : s.postedLate e = false) (hok : e.ok = true) {b : Binding}
    (hb : Tab.find? s.fab.binds e.bind = some b) (hp : b.dstPkg = s.plat.pkg.toNat) :
    exec (.windowAck n true) s = .next ((s.dropPosted n).ackPosted e true) := by
  show execWindowAck n true s = _
  rw [execWindowAck, he]
  dsimp only
  rw [if_neg (by simp [hd, hr]), if_neg (by simp [h]), if_neg (ne_true_of_eq_false hk), hl, hb, hok]
  rw [if_pos (beq_iff_eq.mpr hp)]
  rfl

end

omit hk in
theorem windowTimeout_early (hl : s.postedLate e = false) : exec (.windowTimeout n) s = .next s := by
  show execWindowTimeout n s = _
  rw [execWindowTimeout, he]
  dsimp only
  rw [if_pos (by simp [hl])]

theorem windowTimeout_late (hl : s.postedLate e = true) :
    exec (.windowTimeout n) s = .next ((s.putPosted n { e with acked := true }).ackPosted e false) := by
  show execWindowTimeout n s = _
  rw [execWindowTimeout, he]
  dsimp only
  rw [if_neg (by simp [hk, hl])]

theorem requestReissue_posted (hd : e.delivered = false) : exec (.requestReissue n) s =
    .next { s with rot := { s.rot with ringReiss := s.rot.ringReiss + 1 } } := by
  show execRequestReissue n s = _
  rw [execRequestReissue, he]
  dsimp only
  rw [if_pos (by simp [hd, hk])]

end

/-- A response is stale exactly where the die that sent it has a later incarnation (R356). -/
theorem State.staleAck_eq_false_iff {s : State} {e : Posted} :
    s.staleAck e = false ↔ ∀ d k, e.by_ = some (d, k) → (s.die d).inc = k := by
  unfold State.staleAck
  cases e.by_ with
  | none => simp
  | some p => obtain ⟨d, k⟩ := p; simp

theorem State.staleAck_of_ne {s : State} {e : Posted} {d : Nat} {k : BitVec 8} (h : e.by_ = some (d, k)) (hn : (s.die d).inc ≠ k) :
    s.staleAck e = true := by
  rw [State.staleAck, h]
  simpa using hn

/-- A write that is dropped leaves no entry behind. -/
theorem State.dropPosted_find? (s : State) (n : Nat) :
    Tab.find? (s.dropPosted n).fab.posted n = none := Tab.find?_erase_self _ _

/-- An agent with an access open to another package or to a window. -/
theorem requestReissue_open {s : State} {id : Nat} {ag : Agent} (ha : s.agent? id = some ag)
    (h : ∃ e ∈ ag.opens, (∃ p va, e.loc = .remote p va) ∨ ∃ w o, e.loc = .win w o) :
    exec (.requestReissue id) s = .next { s with rot := { s.rot with ringReiss := s.rot.ringReiss + 1 } } := by
  obtain ⟨e, hmem, hloc⟩ := h
  show execRequestReissue id s = _
  rw [execRequestReissue, ha]
  dsimp only
  rw [if_pos]
  simp only [Bool.or_eq_true]
  refine .inl (.inr (.inl (.inl (List.any_eq_true.mpr ⟨e, hmem, ?_⟩))))
  rcases hloc with ⟨p, va, hl⟩ | ⟨w, o, hl⟩ <;> rw [hl]

/-! ### Responses of another package (R143, R242, R253) -/

theorem remoteResponse_of {s : State} {id n : Nat} {ag : Agent} {e : Access} (ha : s.agent? id = some ag) (hn : ag.opens[n]? = some e)
    (hm : ag.mayPerform n e = true) (r : RemoteRsp) :
    exec (.remoteResponse id n r) s = .next (if s.overdue ag e then s else s.answerOpen id n ag e r false) := by
  show execRemoteResponse id n r s = _
  rw [execRemoteResponse, onOpen, ha]
  dsimp only
  rw [hn]
  dsimp only
  rw [if_pos hm]

theorem requestTimeout_of {s : State} {id n : Nat} {ag : Agent} {e : Access} (ha : s.agent? id = some ag) (hn : ag.opens[n]? = some e)
    (hm : ag.mayPerform n e = true) : exec (.requestTimeout id n) s =
      .next (if s.overdue ag e then s.answerOpen id n ag e { data := 0, err := true, applied := false, line := [] } true else s) := by
  show execRequestTimeout id n s = _
  rw [execRequestTimeout, onOpen, ha]
  dsimp only
  rw [hn]
  dsimp only
  rw [if_pos hm]

/-- The one element of a list that a test takes, and the others. -/
theorem filter_unique {α : Type} (p : α → Bool) : ∀ {l : List α} {n : Nat} {a : α}, l[n]? = some a → p a = true →
    (∀ (m : Nat) b, l[m]? = some b → m ≠ n → p b = false) →
    l.filter p = [a] ∧ l.filter (fun b => !p b) = dropNth l n
  | [], _, _, h, _, _ => by cases h
  | x :: l, 0, a, h, ha, hu => by
    obtain rfl : x = a := Option.some.inj h
    have hl : ∀ b ∈ l, p b = false := fun b hb => by
      obtain ⟨m, hm⟩ := List.getElem?_of_mem hb
      exact hu (m + 1) b hm (Nat.succ_ne_zero m)
    refine ⟨?_, ?_⟩
    · rw [List.filter_cons_of_pos ha, List.filter_eq_nil_iff.mpr fun b hb => ne_true_of_eq_false (hl b hb)]
    · rw [List.filter_cons_of_neg (by simp [ha]), List.filter_eq_self.mpr fun b hb => by simp [hl b hb]]
      rfl
  | x :: l, n + 1, a, h, ha, hu => by
    have hx : p x = false := hu 0 x rfl (Nat.succ_ne_zero n).symm
    obtain ⟨h1, h2⟩ := filter_unique p (l := l) (n := n) h ha fun m b hm hne => hu (m + 1) b hm (by omega)
    refine ⟨?_, ?_⟩
    · rw [List.filter_cons_of_neg (ne_true_of_eq_false hx), h1]
    · rw [List.filter_cons_of_pos (by simp [hx]), h2]
      rfl

theorem Access.sameAs_self (e : Access) : e.sameAs e = true := by simp [Access.sameAs]

/-- A value delivered changes registers alone. -/
theorem Agent.deliver_rest (ag : Agent) (d : Dest) (sx : Nat) (x : DWord) :
    (ag.deliver d sx x).wait = ag.wait ∧ (ag.deliver d sx x).rstat = ag.rstat := by
  have hs : ∀ (a : Agent) r w, (a.sSet r w).wait = a.wait ∧ (a.sSet r w).rstat = a.rstat := fun a r w => by
    unfold Agent.sSet; split <;> exact ⟨rfl, rfl⟩
  have hv : ∀ (a : Agent) r l w, (a.vSetLane r l w).wait = a.wait ∧ (a.vSetLane r l w).rstat = a.rstat := fun a r l w => by
    rw [Agent.vSetLane_eq]; exact ⟨rfl, rfl⟩
  cases d with
  | none | waitw | line => exact ⟨rfl, rfl⟩
  | s r =>
    rw [Agent.deliver]
    split
    · exact ⟨rfl, rfl⟩
    · exact hs ag r _
  | sp r =>
    rw [Agent.deliver]
    split
    · exact ⟨rfl, rfl⟩
    · unfold Agent.pSet
      split
      · exact ⟨rfl, rfl⟩
      · exact ⟨((hs _ _ _).1).trans (hs _ _ _).1, ((hs _ _ _).2).trans (hs _ _ _).2⟩
  | v r l => exact hv ag r l _
  | vp r l =>
    rw [Agent.deliver]
    split
    · exact ⟨rfl, rfl⟩
    · exact ⟨((hv _ _ _ _).1).trans (hv _ _ _ _).1, ((hv _ _ _ _).2).trans (hv _ _ _ _).2⟩

/-- Zeros with `rerr`, where no remote-error trap is enabled (R136, R143). -/
theorem Agent.failOpen_load {ag : Agent} {e : Access} {applied : Bool} (hk : e.kind = .load) (hr : ag.rstat.getLsbD 31 = false) :
    ag.failOpen e applied = (ag.deliver e.dst e.sx 0).orStat rsRerr := by
  rw [Agent.failOpen, hk]
  dsimp only
  rw [Agent.remoteErr_eq, (ag.deliver_rest e.dst e.sx 0).2, if_neg (ne_true_of_eq_false hr), ← (ag.deliver_rest e.dst e.sx 0).2]
  rfl

theorem leVal_leBytes (n : Nat) : ∀ x : Nat, leVal (leBytes n x) = x % 256 ^ n := by
  induction n with
  | zero => exact fun x => (Nat.mod_one x).symm
  | succ n ih =>
    intro x
    rw [Nat.pow_succ', Nat.mod_mul, leBytes, leVal, ih, BitVec.toNat_ofNat]

theorem Agent.failOpen_wait {ag : Agent} {e : Access} {applied : Bool} (hk : e.kind = .load) :
    (ag.failOpen e applied).wait = ag.wait := by
  rw [Agent.failOpen, hk]
  dsimp only
  rw [Agent.remoteErr_eq]
  split <;> exact (ag.deliver_rest e.dst e.sx 0).1

/-- A loaded value of another package reads as it came where its agent has no write pending (R223). -/
theorem Agent.farView_idle {ag : Agent} {pkg n : Nat} {va x : DWord} (hp : ag.pend = []) (hx : x.toNat < 2 ^ (8 * n)) :
    ag.farView pkg va n x = x := by
  have h : (leBytes n x.toNat).zipIdx.map (fun e : Byte × Nat => e.1) = leBytes n x.toNat := List.zipIdx_map_fst _ _
  rw [Agent.farView, hp]
  simp only [List.foldl_nil]
  rw [h, leVal_leBytes, Nat.mod_eq_of_lt ((Nat.pow_mul 2 8 n).symm ▸ hx), BitVec.ofNat_toNat, BitVec.setWidth_eq]

/-- What a response says where the package has no route: an error (R245). -/
def State.routed (s : State) (r : RemoteRsp) : RemoteRsp := if s.noRoute then { r with err := true, applied := false } else r

section
variable {s : State} {id n p : Nat} {ag : Agent} {e : Access} {va : DWord} (hk : e.kind = .load) (hq : e.acq = false)
  (hl : e.loc = .remote p va) (hw : ag.wait = .none) (hn : ag.opens[n]? = some e)
  (hu : ∀ (m : Nat) o, ag.opens[m]? = some o → m ≠ n → o.sameAs e = false)
include hk hq hw hn hu

/-- The response to the one load of its line, its agent not waiting. -/
theorem State.answerFar_load (r : RemoteRsp) : s.answerFar id n ag e p va r = s.putAgent id
    (if r.err then (ag.closed n).failOpen e r.applied
      else (ag.closed n).deliver e.dst e.sx (ag.farView p va e.size r.data)) := by
  obtain ⟨h1, h2⟩ := filter_unique (fun o => Access.sameAs o e) hn e.sameAs_self hu
  have hclosed : ({ ag with opens := dropOrder (dropNth ag.opens n) } : Agent) = ag.closed n := rfl
  unfold State.answerFar
  rw [if_neg (ne_true_of_eq_false hq), hk]
  simp only [if_true]
  rw [h1, h2]
  cases he : r.err with
  | true =>
    simp only [if_true, List.foldl_cons, List.foldl_nil]
    have hf : ((ag.closed n).failOpen e r.applied).wait = .none := (Agent.failOpen_wait hk).trans hw
    rw [hclosed, hf]
    cases e.dst <;> rfl
  | false =>
    simp only [Bool.false_eq_true, if_false, List.foldl_cons, List.foldl_nil]
    have hf : ((ag.closed n).deliver e.dst e.sx (ag.farView p va e.size r.data)).wait = .none :=
      ((ag.closed n).deliver_rest _ _ _).1.trans hw
    rw [hclosed, hf]
    cases e.dst <;> rfl

include hl

theorem State.answerOpen_load (r : RemoteRsp) (late : Bool) : s.answerOpen id n ag e r late = s.putAgent id
    (if (s.routed r).err then (ag.closed n).failOpen e (s.routed r).applied
      else (ag.closed n).deliver e.dst e.sx (ag.farView p va e.size (s.routed r).data)) := by
  rw [State.answerOpen, hl]
  dsimp only
  rw [hk]
  exact State.answerFar_load hk hq hw hn hu _

/-- A response whose value comes gives it (R143). -/
theorem State.answerOpen_value (hr : s.noRoute = false) (hp : ag.pend = []) {x : DWord} (hx : x.toNat < 2 ^ (8 * e.size))
    (ln : List Byte) (late : Bool) : s.answerOpen id n ag e { data := x, err := false, applied := false, line := ln } late =
      s.putAgent id ((ag.closed n).deliver e.dst e.sx x) := by
  rw [State.answerOpen_load hk hq hl hw hn hu, State.routed, if_neg (ne_true_of_eq_false hr), if_neg Bool.false_ne_true, Agent.farView_idle hp hx]

/-- An error, or a package without a route, gives zeros and `rerr` (R143, R245, R253). -/
theorem State.answerOpen_error {r : RemoteRsp} (h : r.err = true ∨ s.noRoute = true) (ht : ag.rstat.getLsbD 31 = false)
    (late : Bool) : s.answerOpen id n ag e r late =
      s.putAgent id (((ag.closed n).deliver e.dst e.sx 0).orStat rsRerr) := by
  have he : (s.routed r).err = true := by
    unfold State.routed
    split
    · rfl
    · next hr => exact h.resolve_right hr
  rw [State.answerOpen_load hk hq hl hw hn hu, if_pos he, Agent.failOpen_load (ag := ag.closed n) hk ht]

end

end Sys2Proof.Machine
end

section
/-! PROOF. Inbound accesses, the fold of a reduction, the exchange of time, the links and the circuits (R33, R76, R243, R251 to R255). -/
namespace Sys2Proof.Machine

/-! ### Inbound accesses (R243, R253) -/

theorem State.sendOff_rest (s : State) : s.sendOff.mem = s.mem ∧ s.sendOff.fab = s.fab := by
  unfold State.sendOff
  split
  · unfold State.sendFlit
    split <;> exact ⟨rfl, rfl⟩
  · exact ⟨rfl, rfl⟩

/-- An answer is the last that leaves, and changes no memory. -/
theorem State.reply_spec (s : State) (r : RemoteRsp) : (s.reply r).mem = s.mem ∧ (s.reply r).fab.out = s.fab.out ++ [r] := by
  obtain ⟨hm, hf⟩ := s.sendOff_rest
  refine ⟨hm, ?_⟩
  show s.sendOff.fab.out ++ [r] = _
  rw [hf]

theorem State.refuse_out (s : State) (part : Nat) :
    (s.refuse part).fab.out = s.fab.out ++ [{ data := 0, err := true, applied := false, line := [] }] :=
  ((s.inboundError part).reply_spec _).2.trans (by rw [State.inboundError_fab])

theorem State.arriveWrite_fab (s : State) (u : Option Nat) (part peer : Nat) (slot : BitVec 8) (pa : Nat) (bs : List Byte) (msk : Byte) :
    (s.arriveWrite u part peer slot pa bs msk).fab = s.fab := by
  obtain ⟨t, ht, hs⟩ := s.arriveWrite_eq u part peer slot pa bs msk
  rw [ht]
  exact (congrArg (fun s : State => s.fab) hs :)

section
variable {s : State} {part pa m : Nat} {va : DWord} {slot : BitVec 8} {need : Perm} (hm : 1 ≤ m)
include hm

/-- An inbound access whose address and translation serve, and whose home it reaches, happens there. -/
theorem State.inboundAt_reaches (k : State → Nat → BitVec 8 → State) (hx : s.inboundXlat part va m need = some (pa, slot))
    (hr : (s.noteWalk part (.flat va)).reachable part slot pa = true) :
    s.inboundAt part va m need k = k (s.noteWalk part (.flat va)) pa slot := by
  unfold State.inboundAt
  rw [Nat.max_eq_right hm, hx]
  dsimp only
  rw [if_pos hr]

/-- One that fails is answered with an error (R33, R253). -/
theorem State.inboundAt_refused (k : State → Nat → BitVec 8 → State) (h : s.inboundXlat part va m need = none ∨
      s.inboundXlat part va m need = some (pa, slot) ∧ (s.noteWalk part (.flat va)).reachable part slot pa = false) :
    (s.inboundAt part va m need k).fab.out = s.fab.out ++ [{ data := 0, err := true, applied := false, line := [] }] := by
  have hw : (s.noteWalk part (.flat va)).fab = s.fab := State.still_fab (s.noteWalk_still part _)
  unfold State.inboundAt
  rw [Nat.max_eq_right hm]
  rcases h with hx | ⟨hx, hr⟩ <;> rw [hx] <;> dsimp only
  · rw [State.refuse_out, hw]
  · rw [if_neg (ne_true_of_eq_false hr), State.refuse_out, State.still_fab (State.violation_still _ _ _ _ _ _ _), hw]

end

/-- The answer to an inbound load, a dropped line as zeros (R42). -/
def State.inboundLoad (w : State) (part : Nat) (slot : BitVec 8) (pa m : Nat) (ecc : Ecc) : State :=
  let q := w.inboundRead part slot pa m ecc
  q.1.replyBytes (if q.2 then List.replicate m 0 else q.1.pkReadN slot pa m)

theorem inboundFlatLoad_of (s : State) (part m : Nat) (va : DWord) (ecc : Ecc) :
    exec (.inboundRemoteAccess (.flatLoad part va m) ecc) s =
      .next (s.inboundAt part va m .read fun w pa slot => w.inboundLoad part slot pa m ecc) := rfl

theorem inboundFlatStore_of (s : State) (part : Nat) (va : DWord) (bs : List Byte) (ecc : Ecc) :
    exec (.inboundRemoteAccess (.flatStore part va bs) ecc) s =
      .next (s.inboundAt part va bs.length .write fun w pa slot => (w.arriveWrite none part 0 slot pa bs 0xFF).replyVal 0) := rfl

theorem State.inboundLoad_spec (w : State) (part : Nat) (slot : BitVec 8) (pa m : Nat) (ecc : Ecc) :
    let q := w.inboundRead part slot pa m ecc
    let read := if q.2 then List.replicate m 0 else q.1.pkReadN slot pa m
    (w.inboundLoad part slot pa m ecc).mem = q.1.mem ∧ (w.inboundLoad part slot pa m ecc).fab.out =
      w.fab.out ++ [{ data := BitVec.ofNat 64 (leVal (read.take 8)), err := false, applied := false, line := read }] := by
  obtain ⟨hm, ho⟩ := (w.inboundRead part slot pa m ecc).1.reply_spec _
  rw [State.still_fab (w.inboundRead_still part slot pa m ecc)] at ho
  exact ⟨hm, ho⟩

/-! ### The left fold (R255, R260) -/

/-- Two contributions of one operation and length, in the order of their keys. -/
theorem foldArrivals_pair {a b : Arrival} (hk : a.key < b.key) (hop : a.op = b.op) (hc : a.cnt = b.cnt) :
    foldArrivals [b, a] = (true, a.data.zipWith (redOp a.op) b.data) := by
  have hs : [b, a].insertionSort (fun a b => a.key ≤ b.key) = [a, b] := by
    simp [List.insertionSort, List.orderedInsert, Nat.not_le.mpr hk]
  rw [foldArrivals, hs]
  simp [hop, hc]

theorem redOp_add_toNat (a b : DWord) : (redOp 0 a b).toNat = (a.toNat + b.toNat) % 2 ^ 32 := by
  refine (lowWord_toNat (a + b)).trans ?_
  rw [BitVec.toNat_add, Nat.mod_mod_of_dvd _ (by norm_num)]

theorem zipWith_redOp_add {xs ys : List DWord} (h : xs.length = ys.length) {i : Nat} (hi : i < xs.length) :
    ((xs.zipWith (redOp 0) ys).getD i 0).toNat = ((xs.getD i 0).toNat + (ys.getD i 0).toNat) % 2 ^ 32 := by
  have hy : i < ys.length := h ▸ hi
  simp only [List.getD_eq_getElem?_getD, List.getElem?_zipWith, List.getElem?_eq_getElem hi, List.getElem?_eq_getElem hy,
    Option.getD_some]
  exact redOp_add_toNat _ _

theorem reductionFold_of {s : State} {n : Nat} {r : Redn} (hr : Tab.find? s.fab.redns n = some r) (ha : r.allred = true)
    (hn : r.result = none) (hm : r.members ≤ r.arr.length) : exec (.reductionFold n) s =
      .next { s with fab := { s.fab with redns := Tab.put s.fab.redns n { r with result := some (foldArrivals r.arr) } } } := by
  show execReductionFold n s = _
  rw [execReductionFold, hr]
  dsimp only
  rw [if_pos (by simp [ha, hn, hm])]

/-! ### Time (R254) -/

theorem timeSync_due {s : State} (k : Nat) (h : ∀ t0, s.plat.syncAt = some t0 → t0.toNat + 125000 ≤ s.ntime.toNat) :
    exec (.timeSync k) s = .next { s with ntime := s.ntime + BitVec.ofNat 64 (min k 12), plat := { s.plat with syncAt := some s.ntime } } := by
  refine congrArg Host.Outcome.next (if_neg ?_)
  cases ht : s.plat.syncAt with
  | none => exact Bool.false_ne_true
  | some t0 => simpa [State.past] using h t0 ht

theorem timeSync_soon {s : State} {t0 : DWord} (k : Nat) (ht : s.plat.syncAt = some t0) (h : s.ntime.toNat < t0.toNat + 125000) :
    exec (.timeSync k) s = .next s := by
  refine congrArg Host.Outcome.next (if_pos ?_)
  rw [ht]
  simpa [State.past] using h

/-! ### Links (R251, R252) -/

theorem State.putLink_link (s : State) (n : Nat) (l : RingLink) : (s.putLink n l).link n = l := Tab.get_put_self _ _ _ _

theorem State.downLink_down (s : State) (n : Nat) : ((s.downLink n).link n).down = true := by
  refine (congrArg RingLink.down (State.still_link (State.recordRs_still _ 0 _) n)).trans ?_
  exact congrArg RingLink.down (Tab.get_put_self _ _ _ _)

/-- What a bitmap leaves of a link's unacknowledged flits (R251). -/
def flitsLeft (base : BitVec 8) (bm : BitVec 64) (l : List (BitVec 8 × Nat)) : List (BitVec 8 × Nat) :=
  l.filterMap (fun f =>
    let i := (f.1 - base).toNat
    if i < 64 then (if bm.getLsbD i then some (f.1, f.2 + 1) else none) else if i < 128 then some f else none)

theorem flitAck_of {s : State} {n : Nat} (base : BitVec 8) (bm : BitVec 64) (h : (s.link n).down = false) :
    exec (.flitAck n base bm) s = .next (if (flitsLeft base bm (s.link n).unacked).any (fun f => decide (resendLimit < f.2))
      then s.downLink n else s.putLink n { s.link n with unacked := flitsLeft base bm (s.link n).unacked }) :=
  congrArg Host.Outcome.next (if_neg (ne_true_of_eq_false h))

theorem flitPlace (a base : BitVec 8) : (a - base).toNat = (a.toNat + 256 - base.toNat) % 256 := by
  rw [BitVec.toNat_sub]
  have := base.isLt
  omega

/-- The flits that the bitmap names, once more sent, and those beyond its window. -/
theorem mem_flitsLeft {base : BitVec 8} {bm : BitVec 64} {l : List (BitVec 8 × Nat)} {x : BitVec 8 × Nat} :
    x ∈ flitsLeft base bm l ↔ ∃ f ∈ l, let i := (f.1.toNat + 256 - base.toNat) % 256
      (i < 64 ∧ bm.getLsbD i = true ∧ x = (f.1, f.2 + 1)) ∨ (64 ≤ i ∧ i < 128 ∧ x = f) := by
  unfold flitsLeft
  rw [List.mem_filterMap]
  refine exists_congr fun f => and_congr_right fun _ => ?_
  dsimp only
  rw [flitPlace]
  generalize (f.1.toNat + 256 - base.toNat) % 256 = i
  by_cases h64 : i < 64
  · rw [if_pos h64]
    cases bm.getLsbD i <;> simp [h64, Nat.not_le.mpr h64, eq_comm]
  · rw [if_neg h64]
    by_cases h128 : i < 128 <;> simp [h64, h128, Nat.le_of_not_lt h64, eq_comm]

/-- A flit that has been sent at most 16 times is sent again; the link stays up. -/
theorem flitAck_stays {s : State} {n : Nat} {base : BitVec 8} {bm : BitVec 64} (h : (s.link n).down = false)
    (hf : ∀ f ∈ (s.link n).unacked, f.2 < 16) : exec (.flitAck n base bm) s =
      .next (s.putLink n { s.link n with unacked := flitsLeft base bm (s.link n).unacked }) := by
  rw [flitAck_of base bm h, if_neg]
  rw [List.any_eq_true]
  rintro ⟨x, hx, hlt⟩
  obtain ⟨f, hmem, h⟩ := mem_flitsLeft.mp hx
  have hlt : 16 < x.2 := of_decide_eq_true hlt
  have := hf f hmem
  rcases h with ⟨-, -, rfl⟩ | ⟨-, -, rfl⟩
  · simp only at hlt; omega
  · omega

/-- One that is named again after 16 resends takes the link down. -/
theorem flitAck_down {s : State} {n : Nat} {base : BitVec 8} {bm : BitVec 64} (h : (s.link n).down = false)
    {f : BitVec 8 × Nat} (hf : f ∈ (s.link n).unacked) (h64 : (f.1.toNat + 256 - base.toNat) % 256 < 64)
    (hb : bm.getLsbD ((f.1.toNat + 256 - base.toNat) % 256) = true) (hr : 16 ≤ f.2) :
    exec (.flitAck n base bm) s = .next (s.downLink n) := by
  rw [flitAck_of base bm h, if_pos]
  exact List.any_eq_true.mpr ⟨(f.1, f.2 + 1), mem_flitsLeft.mpr ⟨f, hf, .inl ⟨h64, hb, rfl⟩⟩,
    decide_eq_true (show 16 < f.2 + 1 by omega)⟩

theorem linkWidthChange_of {s : State} {n w : Nat} (hw : w = 8 ∨ w = 4) (hl : w < (s.link n).width) (h : (s.link n).down = false) :
    exec (.linkWidthChange n w) s = .next (s.putLink n { s.link n with width := w }) :=
  congrArg Host.Outcome.next (if_pos ⟨hw, hl, by rw [h]; rfl⟩)

theorem laneFailure_of {s : State} {n w : Nat} (hw : w = 8 ∨ w = 4 ∨ w = 0) (hl : w < (s.link n).width)
    (h : (s.link n).down = false) : exec (.laneFailure n w) s = .next ((((s.narrow n w).recordRs 0
      { kind := 0x35, w12 := fenceWord 3 (linkDie n) w }).countFenced 1).rewriteCap) := by
  refine congrArg Host.Outcome.next (if_neg ?_)
  rintro (hd | hd | hd)
  · exact Bool.false_ne_true (h.symm.trans hd)
  · omega
  · omega

theorem State.fenced_link (p : State) (e : ErrRec) (n : Nat) : ((((p.recordRs 0 e).countFenced 1).rewriteCap).link n) = p.link n := by
  rw [State.rewriteCap_eq]
  exact State.still_link (p.recordRs_still 0 e) n

/-- A lane failure that leaves lanes: the link is narrower, its flits are sent again, and the loss is counted and recorded. -/
theorem laneFailure_narrows {s : State} {n w : Nat} (hw : w = 8 ∨ w = 4) (hl : w < (s.link n).width) (h : (s.link n).down = false) :
    ∃ t : State, exec (.laneFailure n w) s = .next t ∧
      t.link n = { s.link n with width := w, unacked := (s.link n).unacked.map (fun f => (f.1, f.2 + 1)) } ∧
      t.rot.nFenced = s.rot.nFenced + 1 ∧ t.rot.degraded = true ∧ t.plat.hostQ = s.plat.hostQ ++ [.record 0x35] := by
  have hne : w ≠ 0 := by omega
  refine ⟨_, laneFailure_of (by omega) hl h, ?_, ?_, ?_, ?_⟩ <;> rw [State.narrow_eq s n hne]
  · rw [State.fenced_link, State.putLink_link]
  · exact (State.counted_rot (State.rot_of_board (State.Loses.of_still (State.recordRs_still _ 0 _)).board)).1
  · exact (State.counted_rot (State.rot_of_board (State.Loses.of_still (State.recordRs_still _ 0 _)).board)).2.1
  · rw [State.rewriteCap_eq]
    exact State.recordRs_hostQ _ 0 _

/-- One that leaves none takes the link down. -/
theorem laneFailure_down {s : State} {n : Nat} (hl : 0 < (s.link n).width) (h : (s.link n).down = false) :
    ∃ t : State, exec (.laneFailure n 0) s = .next t ∧ (t.link n).down = true := by
  refine ⟨_, laneFailure_of (by omega) hl h, ?_⟩
  rw [State.fenced_link]
  exact s.downLink_down n

/-! ### Circuits (R76) -/

/-- A connection-table entry whose word is replaced. -/
def State.putCirc (s : State) (c w : Nat) : State :=
  { s with rot := { s.rot with circ := Tab.set 0 s.rot.circ c (BitVec.ofNat 64 w) } }

theorem circState_eq (w : DWord) : (w.extractLsb' 61 2).toNat = w.toNat / 2 ^ 61 % 4 := by
  rw [BitVec.extractLsb'_toNat, Nat.shiftRight_eq_div_pow]

/-- A mask of `a` bits from bit `b` up reads the field there. -/
theorem and_bits (x a b : Nat) : x &&& (2 ^ a - 1) * 2 ^ b = x / 2 ^ b % 2 ^ a * 2 ^ b := by
  refine Nat.eq_of_testBit_eq fun i => ?_
  rw [Nat.testBit_and, Nat.testBit_mul_two_pow, Nat.testBit_two_pow_sub_one, Nat.testBit_mul_two_pow, Nat.testBit_mod_two_pow,
    Nat.testBit_div_two_pow]
  by_cases h : b ≤ i
  · rw [Nat.sub_add_cancel h, Bool.and_comm, Bool.and_assoc]
  · simp [h]

/-- Two fields of a word, with a third written between them. -/
theorem setBits_toNat (x a b m : Nat) {next : Nat} (hx : x < 2 ^ 64) (h : next < 4) (hm : a + b ≤ 61)
    (hmask : m = (2 ^ 1 - 1) * 2 ^ 63 ||| (2 ^ a - 1) * 2 ^ b) :
    (x &&& m) ||| next * 2 ^ 61 = x / 2 ^ 63 * 2 ^ 63 + x / 2 ^ b % 2 ^ a * 2 ^ b + next * 2 ^ 61 := by
  have hlow : x / 2 ^ b % 2 ^ a * 2 ^ b < 2 ^ 61 := calc
    _ < 2 ^ a * 2 ^ b := Nat.mul_lt_mul_of_pos_right (Nat.mod_lt _ (Nat.two_pow_pos a)) (Nat.two_pow_pos b)
    _ = 2 ^ (a + b) := (Nat.pow_add 2 a b).symm
    _ ≤ 2 ^ 61 := Nat.pow_le_pow_right (by omega) hm
  rw [hmask, Nat.and_or_distrib_left, and_bits, and_bits, Nat.or_assoc]
  generalize x / 2 ^ b % 2 ^ a * 2 ^ b = low at hlow
  rw [Nat.or_comm low, Nat.mul_comm next, ← Nat.two_pow_add_eq_or_of_lt hlow, Nat.mul_comm _ (2 ^ 63),
    ← Nat.two_pow_add_eq_or_of_lt (by omega)]
  omega

/-- The word a write enters: enable and dies from the value, with the next state. -/
theorem circWord_eq (v : DWord) {next : Nat} (h : next < 4) : (v &&& 0x80FFFF0000000000) ||| BitVec.ofNat 64 (next * 2 ^ 61) =
    BitVec.ofNat 64 (v.toNat / 2 ^ 63 * 2 ^ 63 + v.toNat / 2 ^ 40 % 2 ^ 16 * 2 ^ 40 + next * 2 ^ 61) := by
  refine BitVec.eq_of_toNat_eq ?_
  rw [BitVec.toNat_or, BitVec.toNat_and, BitVec.toNat_ofNat, BitVec.toNat_ofNat, Nat.mod_eq_of_lt (a := next * 2 ^ 61) (by omega),
    Nat.mod_eq_of_lt (by have := v.isLt; omega)]
  exact setBits_toNat v.toNat 16 40 _ v.isLt h (by omega) (by decide)

/-- The word whose state alone changes. -/
theorem circNext_eq (w : DWord) {next : Nat} (h : next < 4) : (w &&& 0x9FFFFFFFFFFFFFFF) ||| BitVec.ofNat 64 (next * 2 ^ 61) =
    BitVec.ofNat 64 (w.toNat / 2 ^ 63 * 2 ^ 63 + w.toNat % 2 ^ 61 + next * 2 ^ 61) := by
  refine BitVec.eq_of_toNat_eq ?_
  rw [BitVec.toNat_or, BitVec.toNat_and, BitVec.toNat_ofNat, BitVec.toNat_ofNat, Nat.mod_eq_of_lt (a := next * 2 ^ 61) (by omega),
    Nat.mod_eq_of_lt (by have := w.isLt; omega)]
  have h0 := setBits_toNat w.toNat 61 0 0x9FFFFFFFFFFFFFFF w.isLt h (by omega) (by decide)
  rw [Nat.pow_zero, Nat.div_one, Nat.mul_one] at h0
  exact h0

theorem circWrite_accepted {s : State} {c : Nat} {v : DWord} (hc : c < 256)
    (hst : (Tab.get 0 s.rot.circ c).toNat / 2 ^ 61 % 4 = 0 ∨ (Tab.get 0 s.rot.circ c).toNat / 2 ^ 61 % 4 = 2) (hd : s.circDies v = true) :
    exec (.circWrite c v) s = .next (s.putCirc c (v.toNat / 2 ^ 63 * 2 ^ 63 + v.toNat / 2 ^ 40 % 2 ^ 16 * 2 ^ 40 +
      (if v.getLsbD 63 then (if (Tab.get 0 s.rot.circ c).toNat / 2 ^ 61 % 4 = 2 then 2 else 1)
          else if (Tab.get 0 s.rot.circ c).toNat / 2 ^ 61 % 4 = 2 then 3 else 0) * 2 ^ 61)) := by
  show execCircWrite c v s = _
  rw [execCircWrite, if_neg (by omega), State.writeCirc]
  dsimp only
  rw [circState_eq, if_neg, circWord_eq]
  · rfl
  · split <;> split <;> omega
  · rw [hd]
    rintro (⟨h0, h2⟩ | h)
    · exact hst.elim h0 h2
    · exact Bool.false_ne_true h

theorem circWrite_rejected {s : State} {c : Nat} {v : DWord} (hc : c < 256)
    (h : (Tab.get 0 s.rot.circ c).toNat / 2 ^ 61 % 4 = 1 ∨ (Tab.get 0 s.rot.circ c).toNat / 2 ^ 61 % 4 = 3 ∨ s.circDies v = false) :
    exec (.circWrite c v) s = .next { s with rot := { s.rot with circRej := s.rot.circRej + 1 } } := by
  show execCircWrite c v s = _
  rw [execCircWrite, if_neg (by omega), State.writeCirc]
  dsimp only
  rw [circState_eq, if_pos]
  rcases h with h | h | h
  · left; omega
  · left; omega
  · right; rw [h]; rfl

theorem State.circStep_of {s : State} {c from_ goal : Nat} (hg : goal < 4) (h : (Tab.get 0 s.rot.circ c).toNat / 2 ^ 61 % 4 = from_) :
    s.circStep c from_ goal = s.putCirc c ((Tab.get 0 s.rot.circ c).toNat / 2 ^ 63 * 2 ^ 63 +
      (Tab.get 0 s.rot.circ c).toNat % 2 ^ 61 + goal * 2 ^ 61) := by
  rw [State.circStep, circState_eq, if_pos h, circNext_eq _ hg]
  rfl

end Sys2Proof.Machine
end

section
/-! PROOF. The events of the ring fabric and the load-store domain (R228, R229, R243 to R246, R250 to R255, R356). -/
namespace Sys2Proof.Settled
open Sys2Proof.Machine

/-- Settles O48: each event is one equation of the step, and what it shows is read off that equation. -/
theorem fabricEvents : Obligations.FabricEvents := by
  unfold Obligations.FabricEvents
  refine ⟨fun s n e b u o he hd hb => ⟨fun hh => ?_, fun hh => ?_⟩, fun s n e he hk hw hu hr => ?_,
    fun s id ag ha h => requestReissue_open ha h, fun s id n p ag e va x ln ha hn hm hk hq hl hw => ?_,
    fun s part pa va slot bs m ecc hm => ?_, fun s n r a b hr hall hres hmem harr hkey ha hb hc hla hlb _ => ?_,
    fun s k => ⟨timeSync_due k, fun t0 => timeSync_soon k⟩, fun s n w base bm l hl hdn => ?_, fun s c v old hc hold => ?_⟩
  · -- a write to another package
    exact ⟨windowDeliver_away he hd hb hh, fun h1 h2 => State.sendFlit_unacked (State.routeOf_own h1 h2),
      fun h1 h2 h3 => State.sendFlit_unacked (State.routeOf_around h1 h2 h3),
      fun h1 h2 h3 => State.sendFlit_unacked (State.routeOf_across h1 h2 h3)⟩
  · -- a write to a peer of this package
    refine ⟨fun hkd hland hnd hoff => ?_, fun v m add carry hkd => ⟨fun ⟨p, hp, hge⟩ => ?_, fun hreach hm8 hland => ?_⟩,
      fun hkd hland => ?_⟩
    · exact ⟨_, windowDeliver_lands he hd hb hh (by rw [hkd]; rfl) (by rw [hkd]; exact hland),
        ⟨s.landed_posted n e b u o, s.landed_counted n e b u o⟩, s.landed_data n b u o hkd hnd hoff⟩
    · refine windowDeliver_early he hd hb hh (eq_false_of_ne_true fun h => ?_)
      rw [hkd] at h
      exact absurd ((b.reached_iff e.src carry).mp h p hp) (by omega)
    · exact ⟨_, windowDeliver_lands he hd hb hh (by rw [hkd]; exact (b.reached_iff e.src carry).mpr hreach)
        (by rw [hkd]; exact hland), ⟨s.landed_posted n e b u o, s.landed_counted n e b u o⟩, s.landed_flag n b u o hkd⟩
    · refine ⟨_, windowDeliver_fails he hd hb hh (by rw [hkd]; rfl) (by rw [hkd]; exact hland), ?_,
        State.inboundError_hostQ _ _⟩
      rw [State.inboundError_fab]
      exact Tab.find?_put_self _ _ _
  · -- acknowledgements, timeouts and reissues
    refine ⟨fun d k ok hd hby hne => windowAck_stale he hk hd hr ok (State.staleAck_of_ne hby hne),
      fun ag ok hd hby hl ha => ⟨_, windowAck_late he hk hd hr ok (State.staleAck_eq_false_iff.mpr fun d k h => ?_) hl, ?_⟩,
      fun hd hok hl hby ⟨b, hb, hp⟩ =>
        ⟨_, windowAck_here he hk hd hr (State.staleAck_eq_false_iff.mpr hby) hl hok hb hp, ?_⟩,
      windowTimeout_early he, fun ag ha hl => ⟨_, windowTimeout_late he hk hl, ?_⟩, requestReissue_posted he hk⟩
    · rw [hby] at h
      cases h
    · obtain ⟨hfab, -, hag⟩ := State.ackPosted_failed_spec (s := s.dropPosted n) hw ha hu
      exact ⟨by rw [hfab]; exact s.dropPosted_find? n, hag⟩
    · rw [State.ackPosted_ok hw]
      obtain ⟨hmem, hag, hfab⟩ := (s.dropPosted n).giveUnit_rest e
      exact ⟨by rw [hfab]; exact s.dropPosted_find? n, hmem, hag, (s.dropPosted n).giveUnit_used hu⟩
    · obtain ⟨hfab, hused, hag⟩ := State.ackPosted_failed_spec (s := s.putPosted n { e with acked := true }) hw ha hu
      exact ⟨by rw [hfab]; exact Tab.find?_put_self _ _ _, hused, hag⟩
  · -- responses of another package
    have hresp := remoteResponse_of ha hn hm
    have htmo := requestTimeout_of ha hn hm
    refine ⟨fun ho hroute hp _ hx hu => ?_, fun hu => ⟨fun ho ht => ⟨?_, fun hroute => ?_, ?_⟩, fun ho => ⟨?_, fun ht => ?_⟩⟩⟩
    · rw [hresp, if_neg (ne_true_of_eq_false ho), State.answerOpen_value hk hq hl hw hn hu hroute hp hx]
    · rw [hresp, if_neg (ne_true_of_eq_false ho), State.answerOpen_error hk hq hl hw hn hu (.inl rfl) ht]
    · rw [hresp, if_neg (ne_true_of_eq_false ho), State.answerOpen_error hk hq hl hw hn hu (.inr hroute) ht]
    · rw [htmo, if_neg (ne_true_of_eq_false ho)]
    · rw [hresp, if_pos ho]
    · rw [htmo, if_pos ho, State.answerOpen_error hk hq hl hw hn hu (.inl rfl) ht]
  · -- inbound accesses
    have hout : (s.noteWalk part (.flat va)).fab = s.fab := State.still_fab (s.noteWalk_still part _)
    refine ⟨fun hx hreach => ?_, fun hlen hx hreach => ?_, fun h => ⟨_, inboundFlatLoad_of s part m va ecc,
      State.inboundAt_refused hm _ h⟩, fun hlen h => ⟨_, inboundFlatStore_of s part va bs ecc, ?_⟩⟩
    · refine ⟨_, inboundFlatLoad_of s part m va ecc, ?_⟩
      rw [State.inboundAt_reaches hm _ hx hreach, ← hout]
      exact (s.noteWalk part (.flat va)).inboundLoad_spec part slot pa m ecc
    · refine ⟨_, inboundFlatStore_of s part va bs ecc, ?_⟩
      rw [hlen, State.inboundAt_reaches hm _ hx hreach, ← hout,
        ← (s.noteWalk part (.flat va)).arriveWrite_fab none part 0 slot pa bs 0xFF]
      exact State.reply_spec _ _
    · rw [hlen]
      exact State.inboundAt_refused hm _ h
  · -- the fold of a reduction
    refine ⟨a.data.zipWith (redOp 0) b.data, ?_, ?_, fun i hi => zipWith_redOp_add (hla.trans hlb.symm) (hla.symm ▸ hi)⟩
    · rw [reductionFold_of hr hall hres (by rw [hmem, harr]; exact Nat.le_refl 2), harr,
        foldArrivals_pair hkey (ha.trans hb.symm) hc, ha]
    · rw [List.length_zipWith, hla, hlb, Nat.min_self]
  · -- links
    subst hl
    refine ⟨fun hf => ⟨_, flitAck_stays hdn hf, fun x => mem_flitsLeft⟩, fun ⟨f, hf, h64, hb, h16⟩ =>
      ⟨_, flitAck_down hdn hf h64 hb h16, s.downLink_down n⟩, fun hw hlt =>
      ⟨linkWidthChange_of hw hlt hdn, laneFailure_narrows hw hlt hdn⟩, fun hlt => laneFailure_down hlt hdn⟩
  · -- circuits
    subst hold
    exact ⟨fun hst hdies => circWrite_accepted hc hst hdies, fun h => circWrite_rejected hc h,
      fun h => congrArg Host.Outcome.next (State.circStep_of (by omega) h),
      fun h => congrArg Host.Outcome.next (State.circStep_of (by omega) h)⟩

end Sys2Proof.Settled
end

section
/-! PROOF. The array's queues and tokens (R75, R192, R195): the next entry, what a pop and a push leave, and what stands in a table. -/
namespace Sys2Proof.Machine

/-! ### Tables by their entries -/

theorem Tab.find?_ne_none_of_mem {α : Type} {t : Tab α} {k : Nat} {v : α} (h : (k, v) ∈ t) : Tab.find? t k ≠ none := by
  induction t with
  | nil => cases h
  | cons e t ih =>
    rw [Tab.find?]
    split
    · exact Option.some_ne_none _
    · next hne =>
      rcases List.mem_cons.mp h with rfl | h
      · exact absurd rfl hne
      · exact ih h

/-- A table whose one entry at a key, unless it is the default, is the value. -/
theorem Tab.get_of_mem_iff {α : Type} {d v : α} {t : Tab α} {k : Nat} (h : ∀ w, (k, w) ∈ t ↔ w = v ∧ w ≠ d) : Tab.get d t k = v := by
  rw [Tab.get]
  cases hf : Tab.find? t k with
  | some w => exact ((h w).mp (Tab.mem_of_find? hf)).1
  | none =>
    by_contra hv
    exact Tab.find?_ne_none_of_mem ((h v).mpr ⟨rfl, fun he => hv he.symm⟩) hf

/-- Part of a table, its keys counted from its beginning. -/
theorem Tab.get_slice {α : Type} (d : α) (lo n i : Nat) (hi : i < n) (t : Tab α) :
    Tab.get d (Tab.slice t lo n) i = Tab.get d t (lo + i) := by
  suffices h : Tab.find? (Tab.slice t lo n) i = Tab.find? t (lo + i) by rw [Tab.get, Tab.get, h]
  induction t with
  | nil => rfl
  | cons e t ih =>
    obtain ⟨k, v⟩ := e
    unfold Tab.slice at ih ⊢
    rw [List.filter_cons, Tab.find?]
    by_cases hin : lo ≤ k ∧ k < lo + n
    · rw [if_pos (by simpa using hin), List.map_cons, Tab.find?, ih]
      simp only [show k - lo = i ↔ k = lo + i by omega]
    · rw [if_neg (by simpa using hin), ih, if_neg (by omega)]

/-- A table rebuilt row by row holds the function's values in the rows and columns that it covers. -/
theorem get_mapRows {α : Type} [DecidableEq α] (d : α) (t : Tab α) {vc cols m n : Nat} (f : Nat → Nat → α → α) (hm : m < 128)
    (hv : m < vc) (hn : n < cols) (hc : cols ≤ 256) :
    Tab.get d (mapRows d t vc cols f) (256 * m + n) = f m n (Tab.get d t (256 * m + n)) := by
  rw [← Tab.get_slice d (256 * m) 256 n (by omega) t]
  refine Tab.get_of_mem_iff fun w => ?_
  unfold mapRows
  rw [List.mem_flatMap]
  constructor
  · rintro ⟨m', hm', h⟩
    dsimp only at h
    split at h
    · obtain ⟨n', hn', h⟩ := List.mem_filterMap.mp h
      rw [List.mem_range] at hn'
      split at h
      · cases h
      · next hne =>
        obtain ⟨hk, rfl⟩ := Prod.mk.inj (Option.some.inj h)
        obtain rfl : m' = m := by omega
        obtain rfl : n' = n := by omega
        exact ⟨rfl, hne⟩
    · obtain ⟨e, he, h⟩ := List.mem_map.mp h
      obtain ⟨hk, rfl⟩ := Prod.mk.inj h
      obtain ⟨e', he', rfl⟩ := List.mem_map.mp he
      have hr := (List.mem_filter.mp he').2
      rw [Bool.and_eq_true, decide_eq_true_eq, decide_eq_true_eq] at hr
      omega
  · rintro ⟨rfl, hne⟩
    refine ⟨m, List.mem_range.mpr hm, ?_⟩
    dsimp only
    rw [if_pos hv]
    exact List.mem_filterMap.mpr ⟨n, List.mem_range.mpr hn, if_neg hne⟩

/-! ### The next entry of a queue (R195) -/

section
variable {pre post : List QEnt} {e : QEnt}

theorem firstWaiting_append (hp : ∀ y ∈ pre, y.issued = true) (he : e.issued = false) :
    firstWaiting (pre ++ e :: post) = some (pre.length, e) := by
  have h : (pre ++ e :: post).zipIdx.find? (fun e => !e.1.issued) = some (e, pre.length) := by
    rw [List.zipIdx_append, List.find?_append, List.find?_eq_none.mpr, Option.none_or, List.zipIdx_cons, List.find?_cons_of_pos]
    · rw [Nat.zero_add]
    · rw [he]; rfl
    · intro x hx
      rw [hp x.1 (List.fst_mem_of_mem_zipIdx hx)]
      exact Bool.false_ne_true
  rw [firstWaiting, h]
  rfl

theorem setNth_append {α : Type} (a b : α) (post : List α) : ∀ pre : List α, setNth (pre ++ a :: post) pre.length b = pre ++ b :: post
  | [] => rfl
  | x :: pre => congrArg (x :: ·) (setNth_append a b post pre)

end

@[simp] theorem QuadSt.queue_setQueue (x : QuadSt) (w : Queue) (es : List QEnt) : (x.setQueue w es).queue w = es := by
  cases w <;> rfl

/-! ### Tokens (R75) -/

theorem popsOf_nodup (w : Queue) (tok : BitVec 4) : (popsOf w tok).Nodup := by
  cases w with
  | load | store => dsimp only [popsOf]; split <;> decide
  | compute => dsimp only [popsOf]; split <;> split <;> decide

theorem pushesOf_nodup (w : Queue) (tok : BitVec 4) : (pushesOf w tok).Nodup := by
  cases w with
  | load | store => dsimp only [pushesOf]; split <;> decide
  | compute => dsimp only [pushesOf]; split <;> split <;> decide

/-- Counts that change once each. -/
theorem get_foldl_set (g : Nat → Nat) (f : Nat) (fs : List Nat) : ∀ t : Tab Nat, fs.Nodup →
    Tab.get 0 (fs.foldl (fun t f => Tab.set 0 t f (g (Tab.get 0 t f))) t) f = if f ∈ fs then g (Tab.get 0 t f) else Tab.get 0 t f := by
  induction fs with
  | nil => exact fun _ _ => rfl
  | cons a fs ih =>
    intro t hn
    obtain ⟨ha, hn⟩ := List.nodup_cons.mp hn
    rw [List.foldl_cons, ih _ hn]
    by_cases hf : f = a
    · subst hf
      rw [if_neg ha, if_pos List.mem_cons_self, Tab.get_set_self]
    · rw [Tab.get_set_ne _ _ _ hf]
      simp only [List.mem_cons, hf, false_or]

/-- The counts of the FIFOs after an entry's pops. -/
def QuadSt.popped (x : QuadSt) (fs : List Nat) : Tab Nat := fs.foldl (fun t f => Tab.set 0 t f (Tab.get 0 t f - 1)) x.tok
/-- The counts of the FIFOs after an entry's pushes. -/
def QuadSt.pushed (x : QuadSt) (fs : List Nat) : Tab Nat := fs.foldl (fun t f => Tab.set 0 t f (Tab.get 0 t f + 1)) x.tok

theorem QuadSt.get_popped (x : QuadSt) {fs : List Nat} (h : fs.Nodup) (f : Nat) :
    Tab.get 0 (x.popped fs) f = Tab.get 0 x.tok f - if f ∈ fs then 1 else 0 := by
  rw [QuadSt.popped, get_foldl_set (· - 1) f fs x.tok h]
  split <;> rfl

theorem QuadSt.get_pushed (x : QuadSt) {fs : List Nat} (h : fs.Nodup) (f : Nat) :
    Tab.get 0 (x.pushed fs) f = Tab.get 0 x.tok f + if f ∈ fs then 1 else 0 := by
  rw [QuadSt.pushed, get_foldl_set (· + 1) f fs x.tok h]
  split <;> rfl

theorem QuadSt.pops_none {x : QuadSt} {fs : List Nat} (h : ∃ f ∈ fs, Tab.get 0 x.tok f = 0) : x.pops fs = none := by
  obtain ⟨f, hf, h0⟩ := h
  exact if_pos (List.any_eq_true.mpr ⟨f, hf, (beq_iff_eq (a := x.tokAt f) (b := 0)).mpr h0⟩)

theorem QuadSt.pops_some {x : QuadSt} {fs : List Nat} (h : ∀ f ∈ fs, Tab.get 0 x.tok f ≠ 0) :
    x.pops fs = some { x with tok := x.popped fs } := by
  refine if_neg fun hany => ?_
  obtain ⟨f, hf, h0⟩ := List.any_eq_true.mp hany
  exact h f hf (eq_of_beq h0)

theorem QuadSt.pushes_none {x : QuadSt} {fs : List Nat} (h : ∃ f ∈ fs, 16 ≤ Tab.get 0 x.tok f) : x.pushes fs = none := by
  obtain ⟨f, hf, h16⟩ := h
  exact if_pos (List.any_eq_true.mpr ⟨f, hf, decide_eq_true h16⟩)

theorem QuadSt.pushes_some {x : QuadSt} {fs : List Nat} (h : ∀ f ∈ fs, Tab.get 0 x.tok f < 16) :
    x.pushes fs = some { x with tok := x.pushed fs } := by
  refine if_neg fun hany => ?_
  obtain ⟨f, hf, h16⟩ := List.any_eq_true.mp hany
  have h16 : 16 ≤ Tab.get 0 x.tok f := of_decide_eq_true h16
  exact absurd (h f hf) (Nat.not_lt.mpr h16)

/-! ### ENGINE_ENTRY_ISSUE (R195) -/

/-- A queue's entry at a place as it issues, with the counts of the FIFOs. -/
def State.putEntry (q : Nat) (w : Queue) (i : Nat) (T : Tab Nat) (t : State) (e : QEnt) : State :=
  let z := t.quad q
  t.putQuad q ({ z with tok := T }.setQueue w (setNth (z.queue w) i e))

theorem State.putEntry_eq {t : State} {q : Nat} {w : Queue} {pre post : List QEnt} {e : QEnt} (h : (t.quad q).queue w = pre ++ e :: post)
    (T : Tab Nat) (e' : QEnt) : t.putEntry q w pre.length T e' =
      t.putQuad q ({ t.quad q with tok := T }.setQueue w (pre ++ e' :: post)) := by
  rw [State.putEntry, h, setNth_append]

section
variable {s : State} {q : Nat} {w : Queue} {ag : Agent} {e : QEnt} {pre post : List QEnt}
  (hr : (s.unit (192 + q)).ustate = .running) (ha : s.agent? (4096 + q) = some ag) (hq : (s.quad q).queue w = pre ++ e :: post)
  (hp : ∀ y ∈ pre, y.issued = true) (he : e.issued = false)
include hr ha hq hp he

/-- An entry whose pops find a FIFO empty waits (R75). -/
theorem engineIssue_starved (ecc : Ecc) (h : ∃ f ∈ popsOf w e.cmd.tok, Tab.get 0 (s.quad q).tok f = 0) :
    exec (.engineEntryIssue q w ecc) s = .next s := by
  show execEngineEntryIssue q w ecc s = _
  rw [execEngineEntryIssue, hq, firstWaiting_append hp he, show seqBase + q = 4096 + q from rfl, ha]
  dsimp only
  rw [if_neg (by simp [State.quadRuns, hr]), QuadSt.pops_none h]

theorem engineIssue_of (ecc : Ecc) (h : ∀ f ∈ popsOf w e.cmd.tok, Tab.get 0 (s.quad q).tok f ≠ 0) :
    exec (.engineEntryIssue q w ecc) s = .next
      (let put := State.putEntry q w pre.length ((s.quad q).popped (popsOf w e.cmd.tok))
       match w with
       | .load => s.issueLoad q (4096 + q) ag (s.quad q) e ecc put
       | .compute => s.issueCompute q (s.quad q) e put
       | .store => s.issueStore q ag (s.quad q) e put) := by
  show execEngineEntryIssue q w ecc s = _
  rw [execEngineEntryIssue, hq, firstWaiting_append hp he, show seqBase + q = 4096 + q from rfl, ha]
  dsimp only
  rw [if_neg (by simp [State.quadRuns, hr]), QuadSt.pops_some h]
  cases w <;> rfl

end

end Sys2Proof.Machine
end

section
/-! PROOF. The compute queue's entries as they issue: VCSET, CHB, MMUL, CHE and the shadow's commands (R202 to R209). -/
namespace Sys2Proof.Machine

/-! ### Quadrants -/

theorem State.putQuad_quad_ne (s : State) {q r : Nat} (x : QuadSt) (h : r ≠ q) : (s.putQuad q x).quad r = s.quad r :=
  Tab.get_put_ne _ _ _ h

theorem QuadSt.parts_alone {x : QuadSt} (q : Nat) (h : x.fused = none) : x.parts q = [⟨q, 0, 0⟩] := by
  rw [QuadSt.parts, h]
  rfl

/-- A compute entry that issues, where its effect has left the queue. -/
theorem State.putEntry_compute {t : State} {q : Nat} {pre post : List QEnt} {e : QEnt} (h : (t.quad q).compQ = pre ++ e :: post)
    (T : Tab Nat) (e' : QEnt) : (t.putEntry q .compute pre.length T e').mem = t.mem ∧
      (t.putEntry q .compute pre.length T e').quad q = { t.quad q with tok := T, compQ := pre ++ e' :: post } := by
  rw [State.putEntry_eq (w := .compute) h]
  exact ⟨rfl, State.putQuad_quad_self _ _ _⟩

/-! ### Flags of a shape (R202, R214) -/

/-- A part whose bank takes the flags. -/
def State.putFlag (t : State) (n : Nat) (f : Bool × Bool) (p : Part) : State :=
  t.putQuad p.q { t.quad p.q with banks := Tab.set {} (t.quad p.q).banks n { (Tab.get {} (t.quad p.q).banks n) with sat := f.1, nv := f.2 } }

/-- A quadrant but for its banks. -/
def QuadSt.unbanked (x : QuadSt) : QuadSt := { x with banks := [] }

theorem State.putFlag_unbanked (t : State) (n : Nat) (f : Bool × Bool) (p : Part) (r : Nat) :
    ((t.putFlag n f p).quad r).unbanked = (t.quad r).unbanked := by
  by_cases h : r = p.q
  · subst h
    rw [State.putFlag, State.putQuad_quad_self]
    rfl
  · rw [State.putFlag, State.putQuad_quad_ne _ _ h]

theorem State.putFlag_self (t : State) (n : Nat) (f : Bool × Bool) (p : Part) :
    (((t.putFlag n f p).quad p.q).bank n).sat = f.1 ∧ (((t.putFlag n f p).quad p.q).bank n).nv = f.2 := by
  rw [State.putFlag, State.putQuad_quad_self, QuadSt.bank]
  dsimp only
  rw [Tab.get_set_self]
  exact ⟨rfl, rfl⟩

theorem State.putFlags_cons (t : State) (p : Part) (ps : List Part) (n : Nat) (f : Bool × Bool) :
    t.putFlags (p :: ps) n f = (t.putFlag n f p).putFlags ps n f := rfl

theorem State.putFlags_rest (n : Nat) (f : Bool × Bool) (r : Nat) (ps : List Part) : ∀ t : State,
    (t.putFlags ps n f).mem = t.mem ∧ ((t.putFlags ps n f).quad r).unbanked = (t.quad r).unbanked := by
  induction ps with
  | nil => exact fun _ => ⟨rfl, rfl⟩
  | cons p ps ih =>
    intro t
    obtain ⟨hm, hq⟩ := ih (t.putFlag n f p)
    rw [State.putFlags_cons]
    exact ⟨hm, hq.trans (t.putFlag_unbanked n f p r)⟩

/-- Flags once given stay, also where a later part is the same quadrant. -/
theorem State.putFlags_keeps (n : Nat) (f : Bool × Bool) (r : Nat) (ps : List Part) : ∀ t : State,
    ((t.quad r).bank n).sat = f.1 ∧ ((t.quad r).bank n).nv = f.2 →
    (((t.putFlags ps n f).quad r).bank n).sat = f.1 ∧ (((t.putFlags ps n f).quad r).bank n).nv = f.2 := by
  induction ps with
  | nil => exact fun _ h => h
  | cons p ps ih =>
    intro t h
    rw [State.putFlags_cons]
    refine ih _ ?_
    by_cases hr : r = p.q
    · subst hr; exact t.putFlag_self n f p
    · rw [State.putFlag, State.putQuad_quad_ne _ _ hr]; exact h

/-- Every part of the shape has the flags. -/
theorem State.putFlags_flags (n : Nat) (f : Bool × Bool) (ps : List Part) : ∀ (t : State), ∀ p ∈ ps,
    (((t.putFlags ps n f).quad p.q).bank n).sat = f.1 ∧ (((t.putFlags ps n f).quad p.q).bank n).nv = f.2 := by
  induction ps with
  | nil => exact fun _ _ h => absurd h List.not_mem_nil
  | cons a ps ih =>
    intro t p hp
    rw [State.putFlags_cons]
    rcases List.mem_cons.mp hp with rfl | hp
    · exact State.putFlags_keeps n f p.q ps _ (t.putFlag_self n f p)
    · exact ih _ p hp

theorem QuadSt.self_mem_parts (x : QuadSt) (q : Nat) : ⟨q, 0, 0⟩ ∈ x.parts q := List.mem_cons_self

/-! ### The effects at issue (R203 to R209) -/

section
variable (s : State) (q : Nat) (x : QuadSt) {e : QEnt} (put : State → QEnt → State)

theorem State.issueCompute_vcset (h : e.cmd.fn = 8) :
    s.issueCompute q x e put = put (s.putQuad q { x with vc := e.cmd.imm }) { e with issued := true } := by
  rw [State.issueCompute, h]
  rfl

/-- CHB of a chain from zero whose flags stay (R203). -/
theorem State.issueCompute_chb (h : e.cmd.fn = 3) (hi : e.cmd.imm < 4) : s.issueCompute q x e put =
    put (s.putQuad q { x with chains := Tab.put x.chains e.cmd.bank { kind := e.cmd.imm, anchor := e.cmd.anchor } })
      { e with issued := true } := by
  have h2 : e.cmd.imm.testBit 2 = false := Nat.testBit_lt_two_pow hi
  have h3 : e.cmd.imm.testBit 3 = false := Nat.testBit_lt_two_pow (by omega)
  rw [State.issueCompute, h]
  dsimp only
  rw [State.openChain]
  dsimp only
  rw [h2, h3, Nat.mod_eq_of_lt hi]
  rfl

/-- An MMUL adds to the shadow where one is on, else to the working accumulators (R204, R209). -/
def Chain.withAcc (c : Chain) (acc : Tab Acc) : Chain := if c.shadow.isSome then { c with shadow := some acc } else { c with work := acc }

theorem Chain.withAcc_shadow (c : Chain) (acc : Tab Acc) : (c.withAcc acc).shadow = c.shadow.map (fun _ => acc) := by
  unfold Chain.withAcc
  cases h : c.shadow with
  | none => simp
  | some _ => rfl

theorem Chain.withAcc_work (c : Chain) (acc : Tab Acc) : (c.withAcc acc).work = if c.shadow.isSome then c.work else acc := by
  unfold Chain.withAcc
  cases h : c.shadow <;> simp

theorem State.issueCompute_mmul (h : e.cmd.fn = 2) (hr : s.mmulReady q x e.cmd = true) : s.issueCompute q x e put =
    put (s.putQuad q { x with chains := Tab.put x.chains e.cmd.bank ((x.chain e.cmd.bank).withAcc (s.mmulRun q x e.cmd).1) })
      { e with issued := true, err := if (s.mmulRun q x e.cmd).2 then none else some (pairFault e.cmd) } := by
  rw [State.issueCompute, h]
  dsimp only
  rw [if_neg (by rw [hr]; exact Bool.false_ne_true)]
  rfl

theorem State.issueCompute_che (h : e.cmd.fn = 4) :
    s.issueCompute q x e put = put (s.closeChain q x e.cmd) { e with issued := true } := by
  rw [State.issueCompute, h]
  rfl

/-- CHE of a quadrant that stands alone: the chain ends, and its bank takes the rows that `vc` covers (R205). -/
theorem State.closeChain_alone (c : Cmd) (h : x.fused = none) : ∃ (sat nv : Bool) (el : Tab DWord),
    s.closeChain q x c = (s.putQuad q { x with chains := Tab.erase x.chains c.bank }).putQuad q
      (({ x with chains := Tab.erase x.chains c.bank } : QuadSt).setBank c.bank
        { fp64 := (x.chain c.bank).kind == 2, rows := x.vc, sat := sat, nv := nv, el := el }) ∧
    ∀ m n, m < x.vc → m < 128 → n < 128 → Tab.get 0 el (256 * m + n) =
      (finishAcc (x.chain c.bank).kind (x.chain c.bank).anchor (Tab.get {} (x.chain c.bank).work (256 * m + n))).1 := by
  unfold State.closeChain
  rw [QuadSt.parts_alone q h]
  simp only [List.foldl_cons, List.foldl_nil, State.putQuad_quad_self]
  refine ⟨_, _, _, rfl, fun m n hv hm hn => ?_⟩
  have hrow : nth [] ((List.range 128).map (fun m => Tab.slice (x.chain c.bank).work (256 * m) 256)) m =
      Tab.slice (x.chain c.bank).work (256 * m) 256 := by simp [nth, hm]
  rw [get_mapRows 0 _ _ hm hv hn (by omega)]
  rw [hrow, Nat.mul_zero, Nat.zero_add, Tab.get_slice _ _ _ _ (by omega)]

/-- SHDW (R209): the shadow starts as the working accumulators, with the shape's flags. -/
theorem State.issueCompute_shdw (h : e.cmd.fn = 9) : s.issueCompute q x e put =
    put (s.putQuad q { x with chains := Tab.put x.chains e.cmd.bank { x.chain e.cmd.bank with
        shadow := some (x.chain e.cmd.bank).work
        fsat := (s.flagsOf (x.parts q) e.cmd.bank).1
        fnv := (s.flagsOf (x.parts q) e.cmd.bank).2 } }) { e with issued := true } := by
  rw [State.issueCompute, h]
  show put (s.shadowOp q x e.cmd) _ = _
  rw [State.shadowOp, h]
  rfl

/-- A quadrant whose shadow becomes a bank's working accumulators. -/
def QuadSt.committed (x : QuadSt) (b : Nat) : QuadSt := { x with chains := Tab.put x.chains b { x.chain b with
  work := (x.chain b).shadow.getD (x.chain b).work, shadow := none, fsat := false, fnv := false } }

/-- SCMT (R209): the shadow becomes the working accumulators, and its flags the shape's. -/
theorem State.issueCompute_scmt (h : e.cmd.fn = 10) : s.issueCompute q x e put =
    put ((s.putQuad q (x.committed e.cmd.bank)).putFlags (x.parts q) e.cmd.bank
      ((x.chain e.cmd.bank).fsat, (x.chain e.cmd.bank).fnv)) { e with issued := true } := by
  rw [State.issueCompute, h]
  show put (s.shadowOp q x e.cmd) _ = _
  rw [State.shadowOp, h]
  rfl

/-- SDSC (R209): the shadow is dropped. -/
theorem State.issueCompute_sdsc (h : e.cmd.fn = 11) : s.issueCompute q x e put =
    put (s.putQuad q { x with chains := Tab.put x.chains e.cmd.bank { x.chain e.cmd.bank with
        shadow := none, fsat := false, fnv := false } }) { e with issued := true } := by
  rw [State.issueCompute, h]
  show put (s.shadowOp q x e.cmd) _ = _
  rw [State.shadowOp, h]
  rfl

end

end Sys2Proof.Machine
end

section
/-! PROOF. A WLOAD from own scratchpad as it issues (R66, R196, R199). -/
namespace Sys2Proof.Machine

/-- The elements of a tile of 128 rows and columns of bytes, with their scratchpad offsets. -/
def tileSpots (base stride : Nat) : List (Nat × Nat) :=
  (List.range 128).flatMap fun m => (List.range 128).map fun n => (256 * m + n, base + m * stride + n)

theorem mem_tileSpots {base stride : Nat} {p : Nat × Nat} :
    p ∈ tileSpots base stride ↔ ∃ m n, m < 128 ∧ n < 128 ∧ p = (256 * m + n, base + m * stride + n) := by
  unfold tileSpots
  simp only [List.mem_flatMap, List.mem_map, List.mem_range]
  exact ⟨fun ⟨m, hm, n, hn, h⟩ => ⟨m, n, hm, hn, h.symm⟩, fun ⟨m, n, hm, hn, h⟩ => ⟨m, hm, n, hn, h.symm⟩⟩

/-- The last row's last byte bounds every offset. -/
theorem tileSpots_lt {base stride lim : Nat} (h : base + 127 * stride + 128 ≤ lim) {p : Nat × Nat} (hp : p ∈ tileSpots base stride) :
    p.2 < lim := by
  obtain ⟨m, n, hm, hn, rfl⟩ := mem_tileSpots.mp hp
  have := Nat.mul_le_mul_right stride (show m ≤ 127 by omega)
  show base + m * stride + n < lim
  omega

/-- An element of one byte at a scratchpad offset (R199). -/
theorem State.cmdElem_scratch (s : State) (part : Nat) {c : Cmd} (hk : c.kind = 1) (hb : c.bits = 8) {m n : Nat} (hm : m < 128)
    (hn : n < 128) (hbound : c.addr.toNat + 127 * c.stride.toNat + 128 ≤ 0x1000000) :
    s.cmdElem part c m n = (0, [.sp (c.addr.toNat + m * c.stride.toNat + n)]) := by
  have hmul := Nat.mul_le_mul_right c.stride.toNat (show m ≤ 127 by omega)
  have ha : (c.addr.extractLsb' 0 32 + BitVec.ofNat 32 m * c.stride + BitVec.ofNat 32 (n * 8 / 8)).toNat =
      c.addr.toNat + m * c.stride.toNat + n := by
    rw [BitVec.toNat_add, BitVec.toNat_add, BitVec.toNat_mul, BitVec.extractLsb'_toNat, BitVec.toNat_ofNat, BitVec.toNat_ofNat,
      Nat.mul_div_cancel _ (by omega), Nat.shiftRight_zero, Nat.mod_eq_of_lt (a := m) (by omega)]
    generalize m * c.stride.toNat = k at hmul
    omega
  unfold State.cmdElem
  rw [hk, hb]
  dsimp only
  rw [ha, Nat.mul_mod_left]
  simp only [Nat.zero_add, Nat.reduceAdd, Nat.reduceDiv, List.range_one, List.map_cons, List.map_nil, spPlace, Nat.add_zero]
  rw [Nat.mod_eq_of_lt (by omega)]

/-- The places of a tile's elements. -/
theorem State.cmdElems_scratch (s : State) (part : Nat) {c : Cmd} (hk : c.kind = 1) (hb : c.bits = 8)
    (hbound : c.addr.toNat + 127 * c.stride.toNat + 128 ≤ 0x1000000) :
    (List.range 128).flatMap (fun m => (List.range 128).map (fun n => (256 * m + n, s.cmdElem part c m n))) =
      (tileSpots c.addr.toNat c.stride.toNat).map (fun p => (p.1, (0, [.sp p.2]))) := by
  rw [tileSpots, List.map_flatMap]
  refine List.flatMap_congr fun m hm => ?_
  rw [List.map_map]
  refine List.map_congr_left fun n hn => ?_
  rw [s.cmdElem_scratch part hk hb (List.mem_range.mp hm) (List.mem_range.mp hn) hbound]
  rfl

section
variable {s : State} {part u : Nat} (hu : 192 ≤ u)
include hu

theorem State.reachSeq_sp (need : Perm) {o : Nat} (ho : o < 0x1000000) : s.reachSeq part u need (.sp o) = .sp u o := by
  have hs : spadSize u = 0x1000000 := if_neg (Nat.not_lt.mpr hu)
  rw [State.reachSeq, hs, if_pos ho]

/-- Reads of scratchpad bytes outside engine-side plots go at once (R66). -/
theorem State.fetchPlaces_sp {α : Type} (e : QEnt) (f : α → Nat) {l : List α} (hl : ∀ p ∈ l, f p < 0x1000000)
    (hfree : ∀ o, s.enginePlot u o 1 = none) :
    s.fetchPlaces part u e (l.map (fun p => .sp (f p))) = .go (l.map (fun p => (.sp (f p), .sp u (f p)))) := by
  have hrs : (l.map (fun p => Place.sp (f p))).map (fun p => (p, s.reachSeq part u .read p)) =
      l.map (fun p => (Place.sp (f p), Reach.sp u (f p))) := by
    rw [List.map_map]
    refine List.map_congr_left fun p hp => ?_
    dsimp only [Function.comp_apply]
    rw [State.reachSeq_sp hu _ (hl p hp)]
  unfold State.fetchPlaces
  rw [if_neg (by simp [State.placeBusy, hfree]), hrs]
  dsimp only
  rw [List.findSome?_map, List.findSome?_eq_none_iff.mpr (by intro _ _; rfl)]
  rfl

/-- The value of one scratchpad byte. -/
theorem State.seqVal_sp (ag : Agent) (gone : List Nat) (farErr : Bool) (n : Nat) {o : Nat} (ho : o < 0x1000000) :
    s.seqVal part u ag gone farErr n [.sp o] = (s.homeByte (spadBase u + o)).toNat := by
  unfold State.seqVal
  rw [List.map_cons, List.map_nil, State.reachSeq_sp hu _ ho]
  simp [Reach.lost, Reach.failed, State.seqByte, State.engineByte, leVal]

end

/-- The tile that a WLOAD of bytes from own scratchpad reads (R199). -/
def State.scratchTile (s : State) (u : Nat) (c : Cmd) : Tile :=
  { fmt := c.fmt
    xs := (c.ctl.extractLsb' 24 8).toNat
    el := (tileSpots c.addr.toNat c.stride.toNat).filterMap (fun p =>
      if (s.homeByte (spadBase u + p.2)).toNat = 0 then none else some (p.1, (s.homeByte (spadBase u + p.2)).toNat)) }

theorem State.get_scratchTile (s : State) (u : Nat) (c : Cmd) {m n : Nat} (hm : m < 128) (hn : n < 128) :
    Tab.get 0 (s.scratchTile u c).el (256 * m + n) = (s.homeByte (spadBase u + (c.addr.toNat + m * c.stride.toNat + n))).toNat := by
  refine Tab.get_of_mem_iff fun w => ?_
  unfold State.scratchTile
  rw [List.mem_filterMap]
  constructor
  · rintro ⟨p, hp, h⟩
    obtain ⟨m', n', hm', hn', rfl⟩ := mem_tileSpots.mp hp
    split at h
    · cases h
    · next hne =>
      obtain ⟨hk, rfl⟩ := Prod.mk.inj (Option.some.inj h)
      have hk : 256 * m' + n' = 256 * m + n := hk
      obtain rfl : m' = m := by omega
      obtain rfl : n' = n := by omega
      exact ⟨rfl, hne⟩
  · rintro ⟨rfl, hne⟩
    exact ⟨_, mem_tileSpots.mpr ⟨m, n, hm, hn, rfl⟩, if_neg hne⟩

theorem scaleByte_eq (w : Word) : (w.extractLsb' 24 8).toNat = w.toNat / 2 ^ 24 := by
  have := w.isLt
  rw [BitVec.extractLsb'_toNat, Nat.shiftRight_eq_div_pow]
  omega

/-- The sequencer's accesses before a tag are performed (R195, R231). -/
theorem State.seqPerformed_iff {s : State} {q tag : Nat} {ag : Agent} : s.seqPerformed q ag tag = true ↔
    (∀ o ∈ ag.opens, tag < o.tag) ∧ ∀ y ∈ (s.unit (192 + q)).slog, y.agent = 4096 + q → y.copy = none → y.row = false → tag < y.tag := by
  unfold State.seqPerformed
  rw [Bool.and_eq_true, List.all_eq_true, List.all_eq_true]
  refine and_congr (forall₂_congr fun o _ => decide_eq_true_iff) (forall₂_congr fun y _ => ?_)
  rw [show seqBase + q = 4096 + q from rfl]
  cases y.copy <;> cases y.row <;> simp [imp_iff_not_or]

/-- The places of a tile's elements, each with how it was reached. -/
def spotReaches (u : Nat) (l : List (Nat × Nat)) : List (Place × Reach) := l.map (fun p => (.sp p.2, .sp u p.2))

section
variable (u : Nat) (l : List (Nat × Nat))

theorem spotReaches_far : (spotReaches u l).any (fun r => r.2 == .far) = false := by simp [spotReaches]

theorem spotReaches_lost (b : Bool) : (spotReaches u l).find? (fun r => r.2.lost b) = none :=
  List.find?_eq_none.mpr fun r hr => by
    obtain ⟨p, _, rfl⟩ := List.mem_map.mp hr
    simp [Reach.lost, Reach.failed]

theorem spotReaches_snd : (spotReaches u l).map (fun r => r.2) = (l.map (fun p => p.2)).map (Reach.sp u) := by
  simp [spotReaches]

theorem entered_spots (npd : Nat) (st : Stream) : entered npd st (spotReaches u l) = st := by
  unfold entered spotReaches
  rw [List.foldl_map]
  induction l with
  | nil => rfl
  | cons p l ih => exact ih

end

/-- Reads of the own scratchpad show nothing. -/
theorem State.seqReads_sp (s : State) (id : Nat) (ag : Agent) (ecc : Ecc) (u : Nat) (os : List Nat) :
    s.seqReads id ag ecc (os.map (Reach.sp u)) = (s, []) := by
  unfold State.seqReads
  rw [List.findSome?_map, List.findSome?_eq_none_iff.mpr (by intro _ _; rfl)]
  dsimp only
  rw [State.engineReads_sp]
  rfl

/-- The elements that the places of a tile's bytes give. -/
theorem State.scratchEls (s : State) (part : Nat) {u : Nat} (hu : 192 ≤ u) (ag : Agent) (l : List (Nat × Nat))
    (hl : ∀ p ∈ l, p.2 < 0x1000000) :
    (l.map (fun p => ((p.1, (0, [.sp p.2])) : Nat × ElemAt))).filterMap (fun a =>
      let v := s.seqVal part u ag [] false (8 * a.1) a.2.2 / 2 ^ a.2.1 % 2 ^ 8
      if v = 0 then none else some (a.1, v)) =
    l.filterMap (fun p => if (s.homeByte (spadBase u + p.2)).toNat = 0 then none else
      some (p.1, (s.homeByte (spadBase u + p.2)).toNat)) := by
  rw [List.filterMap_map]
  refine List.filterMap_congr fun p hp => ?_
  have hv : s.seqVal part u ag [] false (8 * p.1) [.sp p.2] / 2 ^ 0 % 2 ^ 8 = (s.homeByte (spadBase u + p.2)).toNat := by
    rw [State.seqVal_sp hu _ _ _ _ (hl p hp), Nat.pow_zero, Nat.div_one, Nat.mod_eq_of_lt (BitVec.isLt _)]
  dsimp only [Function.comp_apply]
  rw [hv]

/-- A WLOAD that is not held back reads its bytes at once, and stages them (R195, R196, R198, R199). -/
theorem State.issueLoad_scratch {s : State} {q id : Nat} {ag : Agent} {e : QEnt} (ecc : Ecc) (put : State → QEnt → State)
    (hfn : e.cmd.fn = 0) (hfuse : (s.quad q).fused = none) (hperf : s.seqPerformed q ag e.cmd.tag = true)
    (hm : ∀ y ∈ (s.quad q).compQ, y.cmd.fn ≠ 2) (hk : e.cmd.kind = 1) (hb : e.cmd.bits = 8)
    (hfree : ∀ o, s.enginePlot (192 + q) o 1 = none) (hbound : e.cmd.addr.toNat + 127 * e.cmd.stride.toNat + 128 ≤ 0x1000000) :
    s.issueLoad q id ag (s.quad q) e ecc put = put (s.putQuad q (s.quad q))
      { e with issued := true, stage := some (s.scratchTile (192 + q) e.cmd), err := none } := by
  have hu : 192 ≤ 192 + q := by omega
  have hlt : ∀ p ∈ tileSpots e.cmd.addr.toNat e.cmd.stride.toNat, p.2 < 0x1000000 := fun p => tileSpots_lt hbound
  have hready : s.loadReady q ag (s.quad q) e.cmd = true := by
    unfold State.loadReady
    rw [hperf, if_pos hfn, Bool.true_and, Bool.not_eq_true', List.any_eq_false]
    intro y hy
    simp [hm y hy]
  have hsize : tileSize ((s.quad q).parts q) e.cmd.fn = (128, 128) := by
    rw [QuadSt.parts_alone q hfuse, tileSize, if_pos hfn]
    rfl
  have hfetch : s.fetchPlaces ag.part (192 + q) e
      (((tileSpots e.cmd.addr.toNat e.cmd.stride.toNat).map (fun p => ((p.1, (0, [.sp p.2])) : Nat × ElemAt))).flatMap (fun a => a.2.2)) =
        .go (spotReaches (192 + q) (tileSpots e.cmd.addr.toNat e.cmd.stride.toNat)) := by
    rw [List.flatMap_map]
    exact (congrArg (s.fetchPlaces ag.part (192 + q) e) (List.map_eq_flatMap ..).symm).trans (State.fetchPlaces_sp hu e _ hlt hfree)
  unfold State.issueLoad
  extract_lets c u ps
  rw [show tileSize ps c.fn = (128, 128) from hsize]
  dsimp only
  rw [s.cmdElems_scratch ag.part hk hb hbound, show s.loadReady q ag (s.quad q) c = true from hready,
    if_neg (show ¬ (!true) = true from Bool.false_ne_true), if_neg (fun h => Nat.zero_ne_one (hfn.symm.trans h.1)), List.map_nil,
    List.append_nil, hfetch]
  dsimp only
  simp only [spotReaches_far, spotReaches_snd, spotReaches_lost, entered_spots, State.noteReaches_sp, State.seqReads_sp,
    Bool.false_eq_true, if_false, Option.map_none, Option.isSome_none, show c.bits = 8 from hb]
  rw [State.scratchEls s ag.part hu ag _ hlt]
  rw [if_pos (show c.fn = 0 from hfn), show (c.fn == 1 && c.blk) = false by rw [show c.fn = 0 from hfn]; rfl]
  rfl

end Sys2Proof.Machine
end

section
/-! PROOF. An ACCST as it issues, and the entries that retire (R75, R195, R196, R198, R200, R207). -/
namespace Sys2Proof.Machine

/-! ### ACCST at its issue (R195, R207) -/

theorem State.placeBusy_free {s : State} {u : Nat} (h : ∀ o, s.enginePlot u o 1 = none) (p : Place) : s.placeBusy u p = false := by
  cases p with
  | sp o => rw [State.placeBusy, h]; rfl
  | key k => rfl
  | _ => rfl

/-- The package once an ACCST has read its bank: with `fl` the shape's flags are clear (R207). -/
def State.storeRead (s : State) (q : Nat) (x : QuadSt) (c : Cmd) : State :=
  if c.fl then (s.putQuad q x).putFlags (x.parts q) c.bank (false, false) else s.putQuad q x

/-- An ACCST that is not held back reads its bank's rows and its shape's flags. -/
theorem State.issueStore_of {s : State} {q : Nat} {ag : Agent} (x : QuadSt) {e : QEnt} (put : State → QEnt → State)
    (hperf : s.seqPerformed q ag e.cmd.tag = true) (hfree : ∀ o, s.enginePlot (192 + q) o 1 = none) :
    ∃ T : Tile, s.issueStore q ag x e put = put (s.storeRead q x e.cmd) { e with
      issued := true
      stage := some T
      rows := (x.bank e.cmd.bank).rows
      flags := (if (x.parts q).any (fun p => ((s.quad p.q).bank e.cmd.bank).sat) then 1 else 0) +
        (if (x.parts q).any (fun p => ((s.quad p.q).bank e.cmd.bank).nv) then 2 else 0) } := by
  refine ⟨_, (if_neg ?_).trans rfl⟩
  rw [hperf, List.any_eq_false.mpr fun p _ => ne_true_of_eq_false (State.placeBusy_free hfree p)]
  exact Bool.false_ne_true

/-- An ACCST whose sequencer has accesses open waits (R195). -/
theorem State.issueStore_waits {s : State} {q : Nat} {ag : Agent} (x : QuadSt) {e : QEnt} (put : State → QEnt → State)
    (h : s.seqPerformed q ag e.cmd.tag = false) : s.issueStore q ag x e put = s := by
  refine if_pos ?_
  rw [h]
  rfl

/-- So does a load entry. -/
theorem State.issueLoad_waits {s : State} {q id : Nat} {ag : Agent} (x : QuadSt) {e : QEnt} (ecc : Ecc) (put : State → QEnt → State)
    (h : s.seqPerformed q ag e.cmd.tag = false) : s.issueLoad q id ag x e ecc put = s := by
  refine if_pos ?_
  rw [State.loadReady, h]
  rfl

theorem State.storeRead_rest (s : State) (q : Nat) (x : QuadSt) (c : Cmd) :
    (s.storeRead q x c).mem = s.mem ∧ ((s.storeRead q x c).quad q).unbanked = x.unbanked := by
  unfold State.storeRead
  split
  · obtain ⟨hm, hq⟩ := State.putFlags_rest c.bank (false, false) q (x.parts q) (s.putQuad q x)
    exact ⟨hm, hq.trans (by rw [State.putQuad_quad_self])⟩
  · exact ⟨rfl, by rw [State.putQuad_quad_self]⟩

theorem QuadSt.unbanked_tok {x y : QuadSt} (h : x.unbanked = y.unbanked) : x.tok = y.tok := (congrArg (fun x : QuadSt => x.tok) h :)
theorem QuadSt.unbanked_compQ {x y : QuadSt} (h : x.unbanked = y.unbanked) : x.compQ = y.compQ := (congrArg (fun x : QuadSt => x.compQ) h :)
theorem QuadSt.unbanked_storeQ {x y : QuadSt} (h : x.unbanked = y.unbanked) : x.storeQ = y.storeQ :=
  (congrArg (fun x : QuadSt => x.storeQ) h :)
theorem QuadSt.unbanked_chains {x y : QuadSt} (h : x.unbanked = y.unbanked) : x.chains = y.chains :=
  (congrArg (fun x : QuadSt => x.chains) h :)

/-- A store entry that issues, where its effect has left the queue. -/
theorem State.putEntry_store {t : State} {q : Nat} {pre post : List QEnt} {e : QEnt} (h : (t.quad q).storeQ = pre ++ e :: post)
    (T : Tab Nat) (e' : QEnt) : (t.putEntry q .store pre.length T e').mem = t.mem ∧
      (t.putEntry q .store pre.length T e').quad q = { t.quad q with tok := T, storeQ := pre ++ e' :: post } := by
  rw [State.putEntry_eq (w := .store) h]
  exact ⟨rfl, State.putQuad_quad_self _ _ _⟩

/-- An entry that issues changes no bank. -/
theorem State.putEntry_bank (t : State) (q : Nat) (w : Queue) (i : Nat) (T : Tab Nat) (e : QEnt) (r n : Nat) :
    ((t.putEntry q w i T e).quad r).bank n = (t.quad r).bank n := by
  unfold State.putEntry
  by_cases h : r = q
  · subst h
    rw [State.putQuad_quad_self]
    cases w <;> rfl
  · rw [State.putQuad_quad_ne _ _ h]

/-! ### ENGINE_ENTRY_RETIRE (R195, R196) -/

theorem State.updAgent_rest (s : State) (id : Nat) (f : Agent → Agent) :
    (s.updAgent id f).quads = s.quads ∧ (s.updAgent id f).mem = s.mem := by
  unfold State.updAgent
  split <;> exact ⟨rfl, rfl⟩

/-- The package once the head of a queue has left it, its tokens pushed (R75). -/
def State.dequeued (s : State) (q : Nat) (e : QEnt) (rest : List QEnt) (w : Queue) : State :=
  s.putQuad q ({ s.quad q with tok := (s.quad q).pushed (pushesOf w e.cmd.tok) }.setQueue w rest)

theorem State.dequeued_quad (s : State) (q : Nat) (e : QEnt) (rest : List QEnt) (w : Queue) : (s.dequeued q e rest w).quad q =
    { s.quad q with tok := (s.quad q).pushed (pushesOf w e.cmd.tok) }.setQueue w rest := State.putQuad_quad_self _ _ _

/-- The package once the head of a queue, its tokens pushed, has retired (R75, R196). -/
def State.retired (s : State) (q : Nat) (e : QEnt) (rest : List QEnt) (w : Queue) : State :=
  ((s.dequeued q e rest w).retireEntry q e).updAgent (4096 + q)
    (fun ag => ag.engineFault e.err)

theorem engineRetire_unissued {s : State} {q : Nat} {w : Queue} {e : QEnt} {es : List QEnt} (hq : (s.quad q).queue w = e :: es)
    (hi : e.issued = false) : exec (.engineEntryRetire q w) s = .next s := by
  show execEngineEntryRetire q w s = _
  rw [execEngineEntryRetire, hq]
  dsimp only
  rw [if_pos (by rw [hi]; rfl)]

section
variable {s : State} {q : Nat} {w : Queue} {e : QEnt} {rest : List QEnt} (hq : (s.quad q).queue w = e :: rest) (hi : e.issued = true)
  (hf : e.cmd.fn ≠ 5 ∨ e.rows = 0 ∧ e.cmd.fl = false)
include hq hi hf

/-- The head of a queue that has issued and has no row left to store. -/
theorem engineRetire_of : exec (.engineEntryRetire q w) s = .next
    (match (s.quad q).pushes (pushesOf w e.cmd.tok) with
      | none => s.putQuad q ((s.quad q).setQueue w (e :: rest))
      | some y => ((s.putQuad q (y.setQueue w rest)).retireEntry q e).updAgent (4096 + q) (fun ag => ag.engineFault e.err)) := by
  have hnone : e.cmd.fn = 5 → e.storeRows = [] := fun h5 => by
    obtain ⟨hr, hfl⟩ := hf.resolve_left (not_not_intro h5)
    rw [QEnt.storeRows, hr, hfl]
    rfl
  have hrows : (if e.cmd.fn = 5 then s.storeRowsFrom (seqBase + q) (192 + q) (128 * fusedCols ((s.quad q).parts q))
      (e.storeRows.drop e.done) e else (s, e)) = (s, e) := by
    split
    · next h5 => rw [hnone h5, List.drop_nil]; rfl
    · rfl
  show execEngineEntryRetire q w s = _
  rw [execEngineEntryRetire, hq]
  dsimp only
  rw [if_neg (by rw [hi]; exact Bool.false_ne_true), hrows, if_neg (fun h => by
    rw [hnone h.1] at h
    exact Nat.not_lt_zero _ h.2)]
  rfl

/-- It waits while a FIFO that it pushes is full (R75). -/
theorem engineRetire_full (h : ∃ f ∈ pushesOf w e.cmd.tok, 16 ≤ Tab.get 0 (s.quad q).tok f) :
    exec (.engineEntryRetire q w) s = .next (s.putQuad q (s.quad q)) := by
  have hsame : (s.quad q).setQueue w (e :: rest) = s.quad q := by
    rw [← hq]
    cases w <;> rfl
  rw [engineRetire_of hq hi hf, QuadSt.pushes_none h, hsame]

/-- The quadrant as the entry leaves its queue. -/
theorem engineRetire_leaves (h : ∀ f ∈ pushesOf w e.cmd.tok, Tab.get 0 (s.quad q).tok f < 16) :
    exec (.engineEntryRetire q w) s = .next (s.retired q e rest w) := by
  rw [engineRetire_of hq hi hf, QuadSt.pushes_some h]
  rfl

end

section
variable (t : State) (q : Nat) (e : QEnt)

theorem State.retireEntry_wload (h : e.cmd.fn = 0) : t.retireEntry q e =
    t.putQuad q { t.quad q with latch := Tab.put (t.quad q).latch ((e.cmd.half + 1) % 2) (e.stage.getD {}), nW := e.cmd.half } := by
  rw [State.retireEntry, h]
  rfl

theorem State.retireEntry_rload (h : e.cmd.fn = 1) : t.retireEntry q e = t.retireRload q e.cmd (e.stage.getD {}) := by
  rw [State.retireEntry, h]
  rfl

/-- An RLOAD fills the slot at its ring's tail (R200). -/
theorem State.retireRload_quad (c : Cmd) (T : Tile) : (t.retireRload q c T).quad q = (t.quad q).setRing c.ring
    { (t.quad q).ring c.ring with
      tail := (((t.quad q).ring c.ring).tail + 1) % 16
      count := ((t.quad q).ring c.ring).count + 1
      slots := Tab.put ((t.quad q).ring c.ring).slots ((t.quad q).ring c.ring).tail { T with el := [] } } :=
  State.putQuad_quad_self _ _ _

/-- An MMUL that pops frees its ring's first slot (R200). -/
theorem State.retireEntry_mmul (h : e.cmd.fn = 2) (hp : e.cmd.imm = 0) : t.retireEntry q e =
    t.putQuad q ((t.quad q).setRing e.cmd.ring { (t.quad q).ring e.cmd.ring with
      head := (((t.quad q).ring e.cmd.ring).head + 1) % 16
      count := ((t.quad q).ring e.cmd.ring).count - 1
      slots := Tab.erase ((t.quad q).ring e.cmd.ring).slots ((t.quad q).ring e.cmd.ring).head }) := by
  rw [State.retireEntry, h]
  dsimp only
  rw [if_pos hp]
  rfl

/-- What a retirement leaves of the quadrant. -/
theorem State.retireEntry_quad : ∃ (L : Tab Tile) (n : Nat) (R : Tab Ring),
    (t.retireEntry q e).quad q = { t.quad q with latch := L, nW := n, rings := R } := by
  unfold State.retireEntry
  dsimp only
  split
  · exact ⟨_, _, _, State.putQuad_quad_self _ _ _⟩
  · exact ⟨_, _, _, t.retireRload_quad q _ _⟩
  · split
    · exact ⟨_, _, _, State.putQuad_quad_self _ _ _⟩
    · exact ⟨_, _, _, rfl⟩
  · exact ⟨_, _, _, rfl⟩

/-- A retirement other than an RLOAD's changes the quadrant alone. -/
theorem State.retireEntry_rest (h : e.cmd.fn ≠ 1) : (t.retireEntry q e).mem = t.mem ∧ (t.retireEntry q e).agents = t.agents := by
  unfold State.retireEntry
  dsimp only
  split
  · exact ⟨rfl, rfl⟩
  · next h1 => exact absurd h1 h
  · split <;> exact ⟨rfl, rfl⟩
  · exact ⟨rfl, rfl⟩

end

theorem QuadSt.ring_setRing (x : QuadSt) (r : Nat) (v : Ring) : (x.setRing r v).ring r = v := Tab.get_set_self _ _ _ _

section
variable (s : State) (q : Nat) (e : QEnt) (rest : List QEnt) (w : Queue)

theorem State.retired_quad : (s.retired q e rest w).quad q =
    ((s.dequeued q e rest w).retireEntry q e).quad q := by
  rw [State.quad, State.retired, (State.updAgent_rest _ _ _).1]
  rfl

theorem State.retired_queue : ((s.retired q e rest w).quad q).queue w = rest := by
  obtain ⟨L, n, R, h⟩ :=
    (s.dequeued q e rest w).retireEntry_quad q e
  rw [State.retired_quad, h, State.dequeued_quad]
  cases w <;> rfl

theorem State.retired_tok :
    ((s.retired q e rest w).quad q).tok = (s.quad q).pushed (pushesOf w e.cmd.tok) := by
  obtain ⟨L, n, R, h⟩ :=
    (s.dequeued q e rest w).retireEntry_quad q e
  rw [State.retired_quad, h, State.dequeued_quad]
  cases w <;> rfl

variable (h : e.cmd.fn ≠ 1)
include h

theorem State.retired_mem : (s.retired q e rest w).mem = s.mem :=
  (State.updAgent_rest _ _ _).2.trans (State.retireEntry_rest _ q e h).1

/-- A failure that the entry kept is its sequencer's engine fault (R196). -/
theorem State.retired_fault {ag : Agent} {v : DWord} (ha : s.agent? (4096 + q) = some ag) (he : e.err = some v)
    (hf : ag.tcause.getLsbD 17 = false) : (s.retired q e rest w).agent? (4096 + q) =
      some { ag with tcause := ag.tcause ||| 0x20000, engVal := v } := by
  have ha' : ((s.dequeued q e rest w).retireEntry q e).agent?
      (4096 + q) = some ag := by
    rw [State.agent?, (State.retireEntry_rest _ q e h).2]
    exact ha
  rw [State.retired, State.updAgent_of ha', State.putAgent_agent?_self, he, Agent.engineFault_eq, if_neg (ne_true_of_eq_false hf)]

end

end Sys2Proof.Machine
end

section
/-! PROOF. A nest's emission (R211), and the arithmetic of an anchored chain (R92, R93). -/
namespace Sys2Proof.Machine

/-! ### The indices of a nest (R211) -/

/-- The last iteration: every level stands at its count. -/
theorem nextIdx_last : ∀ (counts idx : List Nat), idx.length = counts.length →
    (∀ l, l < idx.length → counts.getD l 0 ≤ idx.getD l 0 + 1) → nextIdx counts idx = none
  | [], [], _, _ => rfl
  | n :: ns, i :: t, hlen, h => by
    have h0 : n ≤ i + 1 := h 0 (Nat.succ_pos _)
    rw [nextIdx, if_neg (by omega), nextIdx_last ns t (Nat.succ.inj hlen) fun l hl => h (l + 1) (Nat.succ_lt_succ hl)]
    rfl

/-- The lowest level that has an iteration left goes on, and the ones below it begin again. -/
theorem nextIdx_carry : ∀ (counts idx : List Nat) (l : Nat), idx.length = counts.length → l < idx.length →
    idx.getD l 0 + 1 < counts.getD l 0 → (∀ i, i < l → counts.getD i 0 ≤ idx.getD i 0 + 1) →
    nextIdx counts idx = some (List.replicate l 0 ++ (idx.getD l 0 + 1) :: idx.drop (l + 1))
  | n :: ns, i :: t, 0, _, _, hlt, _ => if_pos hlt
  | n :: ns, i :: t, l + 1, hlen, hl, hlt, hlow => by
    have h0 : n ≤ i + 1 := hlow 0 (Nat.succ_pos l)
    rw [nextIdx, if_neg (by omega), nextIdx_carry ns t l (Nat.succ.inj hlen) (Nat.lt_of_succ_lt_succ hl) hlt fun i hi =>
      hlow (i + 1) (Nat.succ_lt_succ hi)]
    rfl

/-! ### The address of a body command (R211, R373) -/

theorem ofInt_toInt_add {w : Nat} (x : BitVec w) (k : Int) : BitVec.ofInt w (x.toInt + k) = x + BitVec.ofInt w k := by
  rw [BitVec.ofInt_add, BitVec.ofInt_toInt]

theorem QuadSt.moved_eq (x : QuadSt) (idx : List Nat) (j : Nat) (f : Word → Int) : x.moved idx j f =
    ((List.range 6).map (fun l => (idx.getD l 0 : Int) * f (Tab.get 0 (nestLevel x.activeNest l).steps j))).sum := by
  simp [QuadSt.moved, nth, List.getD_eq_getElem?_getD]

/-- A body command moves its address alone. -/
theorem QuadSt.stepped_eq (x : QuadSt) (idx : List Nat) (j : Nat) (c : Cmd) : x.stepped idx j c = { c with
    addr := if c.fn = 2 then c.addr
      else if c.kind = 1 then (c.addr.extractLsb' 0 32 + BitVec.ofInt 32 (x.moved idx j BitVec.toInt)).zeroExtend 64
      else if c.kind = 2 then
        (c.addr.extractLsb' 32 32 + BitVec.ofInt 32 (x.moved idx j (fun w => (w.extractLsb' 16 16).toInt))) ++
          (c.addr.extractLsb' 0 32 + BitVec.ofInt 32 (x.moved idx j (fun w => (w.extractLsb' 0 16).toInt)))
      else c.addr + BitVec.ofInt 64 (x.moved idx j BitVec.toInt) } := by
  unfold QuadSt.stepped
  simp only [ofInt_toInt_add]
  by_cases h2 : c.fn = 2
  · rw [if_pos h2, if_pos h2]
  · rw [if_neg h2, if_neg h2]
    split
    · next h => rw [if_pos h]
    · next h => rw [if_neg (by omega), if_pos h]
    · next h1 h2 => rw [if_neg h1, if_neg h2]

/-! ### NEST_EMIT (R211) -/

/-- Where the generator stands after an emission. -/
def QuadSt.nextGen (x : QuadSt) (idx : List Nat) (j : Nat) : Option (List Nat × Nat) :=
  if j + 1 < x.body.length then some (idx, j + 1)
  else (nextIdx ((List.range 6).map (fun l => (nestLevel x.activeNest l).count)) idx).map (fun i => (i, 0))

theorem QuadSt.enqueue_body {x y : QuadSt} {c : Cmd} (h : x.enqueue c = some y) : y.body = x.body := by
  unfold QuadSt.enqueue at h
  dsimp only at h
  split at h
  · cases h
  · obtain rfl := Option.some.inj h
    cases queueOf c.fn <;> rfl

section
variable {s : State} {q j : Nat} {idx : List Nat} (hr : (s.unit (192 + q)).ustate = .running) (hg : (s.quad q).gen = some (idx, j))
include hr hg

theorem nestEmit_full (h : (s.quad q).enqueue { (s.quad q).stepped idx j ((s.quad q).body.getD j {}) with
    tag := ((s.agent? (4096 + q)).map (fun ag => ag.nextTag)).getD 0 } = none) : exec (.nestEmit q) s = .next s := by
  show execNestEmit q s = _
  rw [execNestEmit, hg]
  dsimp only
  rw [if_neg (by simp [State.quadRuns, hr]), show nth {} (s.quad q).body j = (s.quad q).body.getD j {} from
    (List.getD_eq_getElem?_getD ..).symm, show seqBase + q = 4096 + q from rfl, h]

theorem nestEmit_of {y : QuadSt} (h : (s.quad q).enqueue { (s.quad q).stepped idx j ((s.quad q).body.getD j {}) with
    tag := ((s.agent? (4096 + q)).map (fun ag => ag.nextTag)).getD 0 } = some y) : exec (.nestEmit q) s =
      .next (s.putQuad q { y with
        gen := (s.quad q).nextGen idx j
        body := if ((s.quad q).nextGen idx j).isNone then [] else (s.quad q).body }) := by
  show execNestEmit q s = _
  rw [execNestEmit, hg]
  dsimp only
  rw [if_neg (by simp [State.quadRuns, hr]), show nth {} (s.quad q).body j = (s.quad q).body.getD j {} from
    (List.getD_eq_getElem?_getD ..).symm, show seqBase + q = 4096 + q from rfl, h]
  dsimp only
  rw [QuadSt.enqueue_body h]
  rfl

end

section
variable {x : QuadSt} {idx : List Nat} {j : Nat}

theorem QuadSt.nextGen_body (h : j + 1 < x.body.length) : x.nextGen idx j = some (idx, j + 1) := if_pos h

theorem counts_getD (x : QuadSt) {l : Nat} (hl : l < 6) :
    ((List.range 6).map (fun l => (nestLevel x.activeNest l).count)).getD l 0 = (nestLevel x.activeNest l).count := by
  simp [List.getD_eq_getElem?_getD, hl]

variable (h6 : idx.length = 6) (hj : j + 1 = x.body.length)
include h6 hj

theorem QuadSt.nextGen_last (h : ∀ l, l < 6 → (nestLevel x.activeNest l).count ≤ idx.getD l 0 + 1) : x.nextGen idx j = none := by
  rw [QuadSt.nextGen, if_neg (by omega), nextIdx_last _ _ (by rw [h6, List.length_map, List.length_range]) fun l hl => ?_]
  · rfl
  · rw [counts_getD x (by omega)]
    exact h l (by omega)

theorem QuadSt.nextGen_carry {l : Nat} (hl : l < 6) (hlt : idx.getD l 0 + 1 < (nestLevel x.activeNest l).count)
    (hlow : ∀ i, i < l → (nestLevel x.activeNest i).count ≤ idx.getD i 0 + 1) :
    x.nextGen idx j = some (List.replicate l 0 ++ (idx.getD l 0 + 1) :: idx.drop (l + 1), 0) := by
  rw [QuadSt.nextGen, if_neg (by omega), nextIdx_carry _ _ l (by rw [h6, List.length_map, List.length_range]) (by omega) ?_ fun i hi => ?_]
  · rfl
  · rw [counts_getD x hl]
    exact hlt
  · rw [counts_getD x (by omega)]
    exact hlow i hi

end

/-! ### An anchored chain (R92, R93) -/

/-- A value at or above the anchor's unit is a whole number of units. -/
theorem anchorTrunc_up (anchor : Int) (neg : Bool) (m d : Nat) :
    anchorTrunc anchor neg m (anchor - 96 + d) = (if neg then -1 else 1) * ((m * 2 ^ d : Nat) : Int) := by
  rw [anchorTrunc, show anchor - 96 + (d : Int) - (anchor - 96) = d by omega]
  rw [if_pos (Int.natCast_nonneg d), Int.toNat_natCast, Nat.shiftLeft_eq]
  cases neg <;> simp

/-- One below it loses its lowest bits. -/
theorem anchorTrunc_down (anchor : Int) (neg : Bool) (m d : Nat) :
    anchorTrunc anchor neg m (anchor - 96 - d) = (if neg then -1 else 1) * ((m / 2 ^ d : Nat) : Int) := by
  have hk : (if 0 ≤ -(d : Int) then m <<< (-(d : Int)).toNat else m >>> (-(-(d : Int))).toNat) = m / 2 ^ d := by
    split
    · next h =>
      obtain rfl : d = 0 := by omega
      simp
    · rw [Int.neg_neg, Int.toNat_natCast, Nat.shiftRight_eq_div_pow]
  rw [anchorTrunc, show anchor - 96 - (d : Int) - (anchor - 96) = -(d : Int) by omega]
  rw [hk]
  cases neg <;> simp

/-- A sum of fewer than 127 bits stands as it is. -/
theorem finishAcc_fits (anchor : Int) {a : Acc} (hs : a.spec = .none) (h1 : -(2 ^ 127) < a.sum) (h2 : a.sum < 2 ^ 127) :
    (finishAcc 0 anchor a).2 = (false, false) := by
  rw [finishAcc, hs]
  dsimp only
  rw [if_neg (by omega), if_neg (by omega)]
  simp only [bne_self_eq_false, Bool.false_or, Prod.mk.injEq, and_true, Bool.or_eq_false_iff, beq_eq_false_iff_ne]
  omega

/-- A longer one is clamped, and `sat` says so. -/
theorem finishAcc_clamps (anchor : Int) {a : Acc} (hs : a.spec = .none) (h : 2 ^ 127 ≤ a.sum ∨ a.sum ≤ -(2 ^ 127)) :
    (finishAcc 0 anchor a).2 = (true, false) := by
  rw [finishAcc, hs]
  dsimp only
  refine Prod.ext ?_ rfl
  simp only [Bool.or_eq_true, bne_iff_ne]
  left; left
  rcases h with h | h
  · rw [if_pos h]; omega
  · rw [if_neg (by omega), if_pos h]; omega

theorem accumulate_opposite (anchor : Int) (a : Acc) (neg : Bool) :
    accumulate 0 anchor { a with spec := .inf (!neg) } (.inf neg) = { a with spec := .nan } := by
  cases neg <;> rfl

end Sys2Proof.Machine
end

section
/-! PROOF. What an entry of the array's queues leaves as it issues, queue by queue (R75, R195, R196, R199, R203 to R209). -/
namespace Sys2Proof.Machine

/-- A step leaves memory, and a quadrant's compute queue and tokens as they are given. -/
def State.ComputeStep (s : State) (q : Nat) (ev : Instr) (T : Tab Nat) (es : List QEnt) (p : State → Prop) : Prop :=
  ∃ t : State, exec ev s = .next t ∧ t.mem = s.mem ∧ (t.quad q).tok = T ∧ (t.quad q).compQ = es ∧ p t

theorem State.ComputeStep.mono {s : State} {q : Nat} {ev : Instr} {T : Tab Nat} {es : List QEnt} {p p' : State → Prop}
    (h : s.ComputeStep q ev T es p) (hp : ∀ t, p t → p' t) : s.ComputeStep q ev T es p' := by
  obtain ⟨t, ht, hmem, htok, hq, hpt⟩ := h
  exact ⟨t, ht, hmem, htok, hq, hp t hpt⟩

section
variable {s : State} {q : Nat} {ag : Agent} {e : QEnt} {pre post : List QEnt}
  (hr : (s.unit (192 + q)).ustate = .running) (ha : s.agent? (4096 + q) = some ag)

/-! ### Compute entries (R203 to R209) -/

section
variable (hq : (s.quad q).queue .compute = pre ++ e :: post) (hp : ∀ y ∈ pre, y.issued = true) (he : e.issued = false)
  (ht : ∀ f ∈ popsOf .compute e.cmd.tok, Tab.get 0 (s.quad q).tok f ≠ 0)
include hr ha hq hp he ht

theorem computeIssue_of (ecc : Ecc) : exec (.engineEntryIssue q .compute ecc) s = .next (s.issueCompute q (s.quad q) e
    (State.putEntry q .compute pre.length ((s.quad q).popped (popsOf .compute e.cmd.tok)))) :=
  engineIssue_of hr ha hq hp he ecc ht

/-- An effect that replaces the quadrant and leaves its compute queue. -/
theorem computeIssue_put (ecc : Ecc) {y : QuadSt} {e' : QEnt}
    (h : ∀ put, s.issueCompute q (s.quad q) e put = put (s.putQuad q y) e') (hy : y.compQ = (s.quad q).compQ) :
    exec (.engineEntryIssue q .compute ecc) s =
      .next ((s.putQuad q y).putQuad q { y with tok := (s.quad q).popped (popsOf .compute e.cmd.tok), compQ := pre ++ e' :: post }) := by
  have hc : ((s.putQuad q y).quad q).queue .compute = pre ++ e :: post := by
    rw [State.putQuad_quad_self, ← hq]
    exact hy
  rw [computeIssue_of hr ha hq hp he ht, h, State.putEntry_eq hc, State.putQuad_quad_self]
  rfl

/-- An effect of any kind that leaves memory and the compute queue. -/
theorem computeIssue_leaves (ecc : Ecc) {t : State} {e' : QEnt} (h : ∀ put, s.issueCompute q (s.quad q) e put = put t e')
    (hm : t.mem = s.mem) (hc : (t.quad q).compQ = (s.quad q).compQ) {p : State → Prop}
    (hpost : ∀ u : State, u.quad q = { t.quad q with
      tok := (s.quad q).popped (popsOf .compute e.cmd.tok), compQ := pre ++ e' :: post } → p u) :
    s.ComputeStep q (.engineEntryIssue q .compute ecc) ((s.quad q).popped (popsOf .compute e.cmd.tok)) (pre ++ e' :: post) p := by
  obtain ⟨hmem, hquad⟩ := State.putEntry_compute (t := t) (hc.trans hq) ((s.quad q).popped (popsOf .compute e.cmd.tok)) e'
  exact ⟨_, (computeIssue_of hr ha hq hp he ht ecc).trans (congrArg Host.Outcome.next (h _)), hmem.trans hm, by rw [hquad],
    by rw [hquad], hpost _ hquad⟩

/-- An effect on a bank's chain alone. -/
theorem computeIssue_chain (ecc : Ecc) {c : Chain} {e' : QEnt} (h : ∀ put, s.issueCompute q (s.quad q) e put =
      put (s.putQuad q { s.quad q with chains := Tab.put (s.quad q).chains e.cmd.bank c }) e') :
    s.ComputeStep q (.engineEntryIssue q .compute ecc) ((s.quad q).popped (popsOf .compute e.cmd.tok)) (pre ++ e' :: post)
      (fun t => (t.quad q).chain e.cmd.bank = c ∧ (t.quad q).banks = (s.quad q).banks) := by
  refine computeIssue_leaves hr ha hq hp he ht ecc h rfl (by rw [State.putQuad_quad_self]) fun u hu => ?_
  rw [hu, State.putQuad_quad_self, QuadSt.chain, Tab.get_put_self]
  exact ⟨rfl, rfl⟩

/-- MMUL adds where its chain accumulates (R204). -/
theorem mmulIssue (ecc : Ecc) (hfn : e.cmd.fn = 2) (hready : s.mmulReady q (s.quad q) e.cmd = true) :
    s.ComputeStep q (.engineEntryIssue q .compute ecc) ((s.quad q).popped (popsOf .compute e.cmd.tok))
      (pre ++ { e with
        issued := true, err := if (s.mmulRun q (s.quad q) e.cmd).2 then none else some (pairFault e.cmd) } :: post)
      (fun t => (t.quad q).chain e.cmd.bank = ((s.quad q).chain e.cmd.bank).withAcc (s.mmulRun q (s.quad q) e.cmd).1 ∧
        (t.quad q).banks = (s.quad q).banks) :=
  computeIssue_chain hr ha hq hp he ht ecc (fun put => State.issueCompute_mmul s q _ put hfn hready)

/-- CHE closes the chain of a quadrant that stands alone into its bank (R205). -/
theorem cheIssue (ecc : Ecc) (hfn : e.cmd.fn = 4) (hfuse : (s.quad q).fused = none) :
    s.ComputeStep q (.engineEntryIssue q .compute ecc) ((s.quad q).popped (popsOf .compute e.cmd.tok))
      (pre ++ { e with issued := true } :: post) (fun t => Tab.find? (t.quad q).chains e.cmd.bank = none ∧
        ((t.quad q).bank e.cmd.bank).fp64 = (((s.quad q).chain e.cmd.bank).kind == 2) ∧
        ((t.quad q).bank e.cmd.bank).rows = (s.quad q).vc ∧ ∀ m n, m < (s.quad q).vc → m < 128 → n < 128 →
          Tab.get 0 ((t.quad q).bank e.cmd.bank).el (256 * m + n) = (finishAcc ((s.quad q).chain e.cmd.bank).kind
            ((s.quad q).chain e.cmd.bank).anchor (Tab.get {} ((s.quad q).chain e.cmd.bank).work (256 * m + n))).1) := by
  obtain ⟨sat, nv, el, hclose, hel⟩ := s.closeChain_alone q (s.quad q) e.cmd hfuse
  refine computeIssue_leaves hr ha hq hp he ht ecc (fun put => State.issueCompute_che s q _ put hfn) (by rw [hclose]; rfl)
    (by rw [hclose, State.putQuad_quad_self]; rfl) fun u hu => ?_
  rw [hclose, State.putQuad_quad_self] at hu
  have hbank : (u.quad q).bank e.cmd.bank =
      { fp64 := ((s.quad q).chain e.cmd.bank).kind == 2, rows := (s.quad q).vc, sat := sat, nv := nv, el := el } := by
    rw [hu]
    exact Tab.get_set_self _ _ _ _
  rw [hbank]
  refine ⟨?_, rfl, rfl, hel⟩
  rw [hu]
  exact Tab.find?_erase_self _ _

/-- SHDW starts the shadow as the working accumulators (R209). -/
theorem shdwIssue (ecc : Ecc) (hfn : e.cmd.fn = 9) :
    s.ComputeStep q (.engineEntryIssue q .compute ecc) ((s.quad q).popped (popsOf .compute e.cmd.tok))
      (pre ++ { e with issued := true } :: post) (fun t => (t.quad q).chain e.cmd.bank = { (s.quad q).chain e.cmd.bank with
        shadow := some ((s.quad q).chain e.cmd.bank).work
        fsat := (s.flagsOf ((s.quad q).parts q) e.cmd.bank).1
        fnv := (s.flagsOf ((s.quad q).parts q) e.cmd.bank).2 } ∧ (t.quad q).banks = (s.quad q).banks) :=
  computeIssue_chain hr ha hq hp he ht ecc (fun put => State.issueCompute_shdw s q _ put hfn)

/-- SCMT makes the shadow the working accumulators, and its flags the bank's (R209). -/
theorem scmtIssue (ecc : Ecc) (hfn : e.cmd.fn = 10) :
    s.ComputeStep q (.engineEntryIssue q .compute ecc) ((s.quad q).popped (popsOf .compute e.cmd.tok))
      (pre ++ { e with issued := true } :: post) (fun t =>
        (t.quad q).chain e.cmd.bank = ((s.quad q).committed e.cmd.bank).chain e.cmd.bank ∧
        ((t.quad q).bank e.cmd.bank).sat = ((s.quad q).chain e.cmd.bank).fsat ∧
        ((t.quad q).bank e.cmd.bank).nv = ((s.quad q).chain e.cmd.bank).fnv) := by
  obtain ⟨f, hf⟩ : ∃ f, (((s.quad q).chain e.cmd.bank).fsat, ((s.quad q).chain e.cmd.bank).fnv) = f := ⟨_, rfl⟩
  obtain ⟨c, hc⟩ : ∃ c, (s.quad q).committed e.cmd.bank = c := ⟨_, rfl⟩
  obtain ⟨hmem, hrest⟩ := State.putFlags_rest e.cmd.bank f q ((s.quad q).parts q) (s.putQuad q c)
  rw [State.putQuad_quad_self] at hrest
  have hq' : c.compQ = (s.quad q).compQ := by rw [← hc]; rfl
  refine computeIssue_leaves hr ha hq hp he ht ecc (fun put => (State.issueCompute_scmt s q _ put hfn).trans (by rw [hf, hc])) hmem
    ((QuadSt.unbanked_compQ hrest).trans hq') fun u hu => ?_
  have hchains := QuadSt.unbanked_chains hrest
  rw [hu, hc]
  refine ⟨congrArg (Tab.get ({} : Chain) · e.cmd.bank) hchains, ?_⟩
  rw [show ((s.quad q).chain e.cmd.bank).fsat = f.1 from congrArg Prod.fst hf,
    show ((s.quad q).chain e.cmd.bank).fnv = f.2 from congrArg Prod.snd hf]
  exact State.putFlags_flags e.cmd.bank f _ _ _ ((s.quad q).self_mem_parts q)

/-- SDSC drops the shadow (R209). -/
theorem sdscIssue (ecc : Ecc) (hfn : e.cmd.fn = 11) :
    s.ComputeStep q (.engineEntryIssue q .compute ecc) ((s.quad q).popped (popsOf .compute e.cmd.tok))
      (pre ++ { e with issued := true } :: post) (fun t => (t.quad q).chain e.cmd.bank =
        { (s.quad q).chain e.cmd.bank with shadow := none, fsat := false, fnv := false } ∧ (t.quad q).banks = (s.quad q).banks) :=
  computeIssue_chain hr ha hq hp he ht ecc (fun put => State.issueCompute_sdsc s q _ put hfn)

end

/-! ### Load and store entries (R195, R196, R199, R207) -/

include hr ha

/-- A load or a store waits for the accesses that its sequencer issued before it (R195). -/
theorem engineIssue_ordered {w : Queue} (hq : (s.quad q).queue w = pre ++ e :: post) (hp : ∀ y ∈ pre, y.issued = true)
    (he : e.issued = false) (hw : w ≠ .compute) (hperf : s.seqPerformed q ag e.cmd.tag = false) (ecc : Ecc) :
    exec (.engineEntryIssue q w ecc) s = .next s := by
  by_cases ht : ∃ f ∈ popsOf w e.cmd.tok, Tab.get 0 (s.quad q).tok f = 0
  · exact engineIssue_starved hr ha hq hp he ecc ht
  · refine (engineIssue_of hr ha hq hp he ecc fun f hf h0 => ht ⟨f, hf, h0⟩).trans (congrArg Host.Outcome.next ?_)
    cases w with
    | load => exact State.issueLoad_waits _ ecc _ hperf
    | store => exact State.issueStore_waits _ _ hperf
    | compute => exact absurd rfl hw

/-- A WLOAD of bytes from own scratchpad stages its tile (R196, R199). -/
theorem wloadIssue (hq : (s.quad q).queue .load = pre ++ e :: post) (hp : ∀ y ∈ pre, y.issued = true) (he : e.issued = false)
    (ht : ∀ f ∈ popsOf .load e.cmd.tok, Tab.get 0 (s.quad q).tok f ≠ 0) (ecc : Ecc) (hfn : e.cmd.fn = 0)
    (hfuse : (s.quad q).fused = none) (hperf : s.seqPerformed q ag e.cmd.tag = true) (hm : ∀ y ∈ (s.quad q).compQ, y.cmd.fn ≠ 2)
    (hk : e.cmd.kind = 1) (hb : e.cmd.bits = 8) (hfree : ∀ o, s.enginePlot (192 + q) o 1 = none)
    (hbound : e.cmd.addr.toNat + 127 * e.cmd.stride.toNat + 128 ≤ 0x1000000) : exec (.engineEntryIssue q .load ecc) s =
      .next ((s.putQuad q (s.quad q)).putQuad q { s.quad q with
        tok := (s.quad q).popped (popsOf .load e.cmd.tok)
        loadQ := pre ++ { e with issued := true, stage := some (s.scratchTile (192 + q) e.cmd), err := none } :: post }) := by
  have hq' : ((s.putQuad q (s.quad q)).quad q).queue .load = pre ++ e :: post := by rw [State.putQuad_quad_self]; exact hq
  rw [engineIssue_of hr ha hq hp he ecc ht]
  dsimp only
  rw [State.issueLoad_scratch ecc _ hfn hfuse hperf hm hk hb hfree hbound, State.putEntry_eq hq', State.putQuad_quad_self]
  rfl

/-- An ACCST takes its bank's rows and its shape's flags, which with `fl` it clears (R207). -/
theorem accstIssue (hq : (s.quad q).queue .store = pre ++ e :: post) (hp : ∀ y ∈ pre, y.issued = true) (he : e.issued = false)
    (ht : ∀ f ∈ popsOf .store e.cmd.tok, Tab.get 0 (s.quad q).tok f ≠ 0) (ecc : Ecc) (hperf : s.seqPerformed q ag e.cmd.tag = true)
    (hfree : ∀ o, s.enginePlot (192 + q) o 1 = none) : ∃ (t : State) (T : Tile), exec (.engineEntryIssue q .store ecc) s = .next t ∧
      t.mem = s.mem ∧ (t.quad q).tok = (s.quad q).popped (popsOf .store e.cmd.tok) ∧ (t.quad q).storeQ = pre ++ { e with
        issued := true
        stage := some T
        rows := ((s.quad q).bank e.cmd.bank).rows
        flags := (if ((s.quad q).parts q).any (fun p => ((s.quad p.q).bank e.cmd.bank).sat) then 1 else 0) +
          (if ((s.quad q).parts q).any (fun p => ((s.quad p.q).bank e.cmd.bank).nv) then 2 else 0) } :: post ∧
      (e.cmd.fl = true → ∀ p ∈ (s.quad q).parts q,
        ((t.quad p.q).bank e.cmd.bank).sat = false ∧ ((t.quad p.q).bank e.cmd.bank).nv = false) ∧
      (e.cmd.fl = false → (t.quad q).banks = (s.quad q).banks) := by
  obtain ⟨T, hissue⟩ := State.issueStore_of (s.quad q)
    (State.putEntry q .store pre.length ((s.quad q).popped (popsOf .store e.cmd.tok))) hperf hfree
  obtain ⟨hmem, hrest⟩ := s.storeRead_rest q (s.quad q) e.cmd
  obtain ⟨hmem', hquad⟩ := State.putEntry_store ((QuadSt.unbanked_storeQ hrest).trans hq)
    ((s.quad q).popped (popsOf .store e.cmd.tok)) _
  refine ⟨_, T, (engineIssue_of hr ha hq hp he ecc ht).trans (congrArg Host.Outcome.next hissue), hmem'.trans hmem,
    by rw [hquad], by rw [hquad], fun hfl p hpart => ?_, fun hfl => ?_⟩
  · rw [State.putEntry_bank, State.storeRead, if_pos hfl]
    exact State.putFlags_flags e.cmd.bank (false, false) ((s.quad q).parts q) _ p hpart
  · rw [hquad, State.storeRead, if_neg (ne_true_of_eq_false hfl), State.putQuad_quad_self]

end

end Sys2Proof.Machine
end

section
/-! PROOF. The events of the array's queues and nests, and the arithmetic of an anchored chain (R75, R93, R195 to R211). -/
namespace Sys2Proof.Settled
open Sys2Proof.Machine

/-- Settles O55: an issue and a retirement are the effect of their command with the queue and the tokens, an emission the step of the
indices, and a chain's sum is whole units of its anchor. -/
theorem engineEvents : Obligations.EngineEvents := by
  unfold Obligations.EngineEvents
  refine ⟨?_, ?_, fun s q w es e hq hi => engineRetire_unissued hq hi, ?_, fun anchor a neg m d => ?_⟩
  · -- issue
    intro s q w x ag e pre post ecc hx hr ha hq hp he
    subst hx
    intro ev b bit pop popped
    have hpop : pop = popsOf w e.cmd.tok := by cases w <;> rfl
    have hpopped : popped ((s.quad q).popped (popsOf w e.cmd.tok)) := fun f => by
      rw [hpop]
      exact QuadSt.get_popped _ (popsOf_nodup w e.cmd.tok) f
    clear_value pop
    subst hpop
    refine ⟨engineIssue_starved hr ha hq hp he ecc, fun hw hopen => ?_, ?_⟩
    · refine engineIssue_ordered hr ha hq hp he hw (eq_false_of_ne_true fun h => ?_) ecc
      obtain ⟨ho, hy⟩ := State.seqPerformed_iff.mp h
      rcases hopen with ⟨o, hmem, hle⟩ | ⟨y, hmem, h1, h2, h3, hle⟩
      · exact absurd (ho o hmem) (Nat.not_lt.mpr hle)
      · exact absurd (hy y hmem h1 h2 h3) (Nat.not_lt.mpr hle)
    intro ht earlier done goes
    have hearlier : earlier → s.seqPerformed q ag e.cmd.tag = true := State.seqPerformed_iff.mpr
    have hgoes : ∀ err p, s.ComputeStep q ev ((s.quad q).popped (popsOf w e.cmd.tok))
        (pre ++ { e with issued := true, err := err } :: post) p → goes err p :=
      fun err p ⟨t, ht, hmem, htok, hc, hpt⟩ => ⟨t, ht, hmem, htok ▸ hpopped, hc, hpt⟩
    refine ⟨fun hw => ?_, fun hw hfn hfuse hearly hm hk hb hfree hbound => ?_, fun hw hfn hearly hfree => ?_⟩
    · -- the compute queue
      subst hw
      refine ⟨fun hfn => ⟨_, hpopped, computeIssue_put hr ha hq hp he ht ecc (fun put => State.issueCompute_vcset s q _ put hfn) rfl⟩,
        fun hfn hi => ⟨_, hpopped, computeIssue_put hr ha hq hp he ht ecc (fun put => State.issueCompute_chb s q _ put hfn hi) rfl⟩,
        fun hfn hready => hgoes _ _ ((mmulIssue hr ha hq hp he ht ecc hfn hready).mono fun t h => ?_),
        fun hfn hfuse => hgoes _ _ (cheIssue hr ha hq hp he ht ecc hfn hfuse),
        fun hfn => hgoes _ _ ((shdwIssue hr ha hq hp he ht ecc hfn).mono fun t h => ?_),
        fun hfn => hgoes _ _ ((scmtIssue hr ha hq hp he ht ecc hfn).mono fun t h => ?_),
        fun hfn => hgoes _ _ ((sdscIssue hr ha hq hp he ht ecc hfn).mono fun t h => ?_)⟩ <;> obtain ⟨hc, hbank⟩ := h <;>
        rw [hc]
      · exact ⟨Chain.withAcc_shadow _ _, Chain.withAcc_work _ _⟩
      · exact ⟨rfl, rfl, rfl, rfl⟩
      · rw [QuadSt.committed, QuadSt.chain, Tab.get_put_self]
        exact ⟨rfl, rfl, hbank⟩
      · exact ⟨rfl, rfl, hbank⟩
    · -- a WLOAD
      subst hw
      refine ⟨s.scratchTile (192 + q) e.cmd, _, hpopped,
        wloadIssue hr ha hq hp he ht ecc hfn hfuse (hearlier hearly) hm hk hb hfree hbound, rfl, scaleByte_eq _,
        fun m n hm hn => s.get_scratchTile (192 + q) e.cmd hm hn⟩
    · -- an ACCST
      subst hw
      obtain ⟨t, T, ht, hmem, htok, hrest⟩ := accstIssue hr ha hq hp he ht ecc (hearlier hearly) hfree
      exact ⟨t, T, ht, hmem, htok ▸ hpopped, hrest⟩
  · -- retirement
    intro s q w x e rest hx hq hi hf
    subst hx
    intro ev bit push
    have hpush : push = pushesOf w e.cmd.tok := by cases w <;> rfl
    clear_value push
    subst hpush
    refine ⟨fun h => ⟨_, engineRetire_full hq hi hf h, rfl, rfl, State.putQuad_quad_self _ _ _⟩, fun h =>
      ⟨_, engineRetire_leaves hq hi hf h, s.retired_queue q e rest w, fun hfn => s.retired_mem q e rest w hfn,
        fun f => (congrArg (Tab.get 0 · f) (s.retired_tok q e rest w)).trans (QuadSt.get_pushed _ (pushesOf_nodup w e.cmd.tok) f),
        fun ag v hfn ha herr hfree => s.retired_fault q e rest w hfn ha herr hfree, fun hw hfn => ?_, fun hw hfn => ?_,
        fun hw hfn himm => ?_⟩⟩ <;> subst hw
    · rw [State.retired_quad, State.retireEntry_wload _ _ _ hfn, State.putQuad_quad_self, State.dequeued_quad]
      exact ⟨rfl, Tab.find?_put_self _ _ _, rfl⟩
    · rw [State.retired_quad, State.retireEntry_rload _ _ _ hfn, State.retireRload_quad, State.dequeued_quad, QuadSt.ring_setRing]
      exact ⟨rfl, rfl, Tab.find?_put_self _ _ _⟩
    · rw [State.retired_quad, State.retireEntry_mmul _ _ _ hfn himm, State.putQuad_quad_self, State.dequeued_quad,
        QuadSt.ring_setRing]
      exact ⟨rfl, rfl⟩
  · -- a nest
    intro s q x idx j hx hr hg h6 hj
    subst hx
    intro c count S e goes
    have he : e = { (s.quad q).stepped idx j c with tag := ((s.agent? (4096 + q)).map (fun ag => ag.nextTag)).getD 0 } := by
      rw [QuadSt.stepped_eq]
      simp only [QuadSt.moved_eq]
      rfl
    have hgoes : ∀ G, (s.quad q).nextGen idx j = G → goes G := fun G hG y hy => by
      rw [← hG]
      exact nestEmit_of hr hg (he ▸ hy)
    exact ⟨fun hfull => nestEmit_full hr hg (he ▸ hfull), fun hlt => hgoes _ (QuadSt.nextGen_body hlt),
      fun hlast => ⟨fun hall => hgoes _ (QuadSt.nextGen_last h6 hlast hall),
        fun l hl hlt hlow => hgoes _ (QuadSt.nextGen_carry h6 hlast hl hlt hlow)⟩⟩
  · -- an anchored chain
    refine ⟨?_, ?_, rfl, accumulate_opposite anchor a neg, rfl, rfl, fun h1 h2 => finishAcc_fits anchor rfl h1 h2,
      fun h => finishAcc_clamps anchor rfl h⟩
    · exact congrArg (fun k => { a with sum := a.sum + k }) (anchorTrunc_up anchor neg m d)
    · exact congrArg (fun k => { a with sum := a.sum + k }) (anchorTrunc_down anchor neg m d)

end Sys2Proof.Settled
end
